-- ==== Sys2Proof/Config.lean ====
section
/-! DEFINITION. What the spec leaves open: free values and the cryptographic primitives it names without giving them.
None has a body, so no proof can see a value; a statement about one holds for every value (log entries 1 and 2). -/

namespace Sys2Proof

/-- The free value number n: the n-th value a run takes that the spec leaves open (log entry 1). -/
opaque Config.freeWord : Nat → Word

/-- The partition, modulo 16, whose memory holds an operand block or a mirror version, by a number that names the copy (R376, R378; log
entry 53). -/
opaque Config.heldIn : Nat → Nat

/-- SHA-384 of a byte string, as a number of 384 bits (R73, R270, R316; log entry 2). -/
opaque Config.sha384 : List Byte → Nat

/-- Whether a signature over a digest verifies under a public key, ECDSA on brainpoolP384r1 (R74; log entry 2). -/
opaque Config.ecdsaOk : Nat → Nat → Nat → Bool

/-- The signature the device's key makes over a digest (R77; log entry 2). -/
opaque Config.ecdsaSign : Nat → Nat

/-- The device's identity certificate by byte (R76; log entry 2). -/
opaque Config.certificate : Nat → Byte

/-- The length of the identity certificate in bytes (R76; log entry 2). -/
opaque Config.certificateLen : Nat

/-- The authentication tag of AES-256-GCM over a key, a nonce and a byte string (R282; log entry 2). -/
opaque Config.gcmTag : Nat → Nat → List Byte → Nat

/-- A byte of what HKDF-SHA-384 derives from a secret, a salt and an info field (R283; log entry 2). -/
opaque Config.hkdf : Nat → Nat → List Byte → Nat → Byte

/-- A word of the key stream of AES-256-GCM for a key and an IV (R282; log entry 2). -/
opaque Config.gcmStream : Nat → Nat → Nat → Word

/-- The shared secret of a key agreement, from the own ephemeral number and the far public key (R283; log entry 2). -/
opaque Config.ecdh : Nat → Nat → Nat

/-- The rows of a restore's own units that fail their ECC at the controller that starts it, by the free counter (R257; log entry 54). -/
opaque Config.badRows : Nat → List Nat

/-- What host memory holds at an address when the controller reads it by itself, by the free counter (R337; log entry 54). -/
opaque Config.hostImage : Nat → Nat → List Byte

/-- How long a Sync stays in a controller that forwards it, in 2^-16 ns, by its port and the time of its arrival (R348; log entry 54). -/
opaque Config.residence : Nat → Nat → Nat

/-- The device's serial number, 16 bytes (R77, R270; log entry 2). -/
opaque Config.serial : Nat

/-- The fused hash of the public key of a key slot (R74; log entry 2). -/
opaque Config.fusedKeyHash : Nat → Nat

/-- The certificate authority key carried in the verified KFP image (R283; log entry 2). -/
opaque Config.caKey : Nat

/-- An entry of the recorder's default map in the KFP image (R402; log entry 22). -/
opaque Config.eventMap : Nat → Word

/-- The bits of a scan chain in the scan map of the KFP image, 0 beyond the map (R413; log entry 22). -/
opaque Config.scanBits : Nat → BitVec 32

/-- The provisioned identifier and the bus and device characteristics of the I3C target (R463; log entry 36). -/
opaque Config.i3cPid : BitVec 48
opaque Config.i3cBcr : Byte
opaque Config.i3cDcr : Byte

end Sys2Proof
end

