-- ==== Sys2Proof/Syntax.lean ====
section
/-! DEFINITION. The commands of the block, one per row of the opcode table, with their operands. Every command arrives
from outside the block: a host access, a message of a link, an accelerator's pin, a timer's expiry or an engine's end. -/

namespace Sys2Proof

/-- Who makes a register access (R35, R40, R47, R165): the local host, the management core pair, a remote controller by
its chip number, an accelerator on its own agent's registers, or a virtual function. -/
inductive Requester where
  | host
  | pair
  | remote (chip : BitVec 16)
  | acc (n : Fin 8)
  | vf (f : Fin 33)
  deriving DecidableEq, Repr

/-- The two-register timestamps of R36. -/
inductive Timestamp where
  | pod
  | agent (n : Fin 8)
  deriving DecidableEq, Repr

/-- What the DMA started by a command returns: the bytes, or none when it ended in an error (R72 code 0x03). -/
abbrev Dma := Option (List Byte)

/-- The two power feeds (R50). -/
inductive Feed where
  | a
  | b
  deriving DecidableEq, Repr

/-- What LPDDR4X reports for a read (R394): nothing, corrected errors, more than 1,000 of them in a second, or an
uncorrectable error. -/
inductive LpdUpset where
  | none
  | corrected
  | rate
  | uncorrectable
  deriving DecidableEq, Repr

/-- What an SRAM slice reports during a descriptor (R393): nothing, an uncorrectable error, a row spared, or a failed row
with no spare left. -/
inductive SramUpset where
  | none
  | uncorrectable
  | spared
  | spareOut
  deriving DecidableEq, Repr

/-- What a cluster's vector engine or its finished-tile queue reports during a CHAIN (R154). -/
inductive VecUpset where
  | none
  | datapath
  | queueEcc
  deriving DecidableEq, Repr

/-- What a cluster's reduction unit or its reference buffer reports during a RED or CHECK (R159, R161). -/
inductive RedUpset where
  | none
  | datapath
  | refEcc
  deriving DecidableEq, Repr


/-- The engines of a partition with a progress watchdog (R374, R392). -/
inductive Engine where
  | core
  | vec
  | red
  | control
  | move
  | lpddr
  deriving DecidableEq, Repr

/-- What the built-in tests of a partition find (R78, R79): the failed matrix cores of its two clusters, a failed vector or
reduction datapath, SRAM rows spared, and SRAM rows beyond the spares. -/
structure Findings where
  core0 : BitVec 17
  core1 : BitVec 17
  datapath : Bool
  spared : Bool
  beyond : Bool
  deriving DecidableEq, Repr

/-- The LPDDR4X rate at which all four channels of a partition trained, or that none did (R80). -/
inductive DdrRate where
  | r4266
  | r3733
  | r3200
  | failed
  deriving DecidableEq, Repr

/-- The power domains of R51. -/
inductive Domain where
  | aon | hub | mgmt (n : Nat) | tile (n : Nat) | sram (n : Nat) | part (n : Nat) | phyA | phyG | phyX
  | phyD (n : Nat)
  deriving DecidableEq, Repr

/-- What a management core originates (R387, R389): a fabric message, an agent-port message, or a write to one of the
device's own registers. -/
inductive Message where
  | fabric (dst : Nat) (kind : Nat) (body : List Nat)
  | down (acc : Fin 8) (kind : Nat) (body : List Nat)
  | write (off : BitVec 24) (v : Word)
  deriving DecidableEq, Repr

/-- The header of an agent-port message (R168): sequence number, job and the sender's epoch. -/
structure PortHdr where
  seq : BitVec 24
  job : BitVec 32
  epoch : BitVec 32
  deriving DecidableEq, Repr

/-- A record of a PULL (R169, R183) with what the agent finds in accelerator memory: none when the shard map has no entry for
the record, else the shard's bytes. -/
structure PullItem where
  record : BitVec 24
  digestOnly : Bool
  data : Option (List Byte)
  deriving DecidableEq, Repr

/-- A shard map entry (R181): its accelerator address and its length in bytes. -/
structure ShardEntry where
  addr : BitVec 64
  len : BitVec 38
  deriving DecidableEq, Repr

/-- A down message that changes the step state of an agent (R169), COMMIT and REPLAY with the job of their header. A key is the number of
R196; a shard map entry is what the agent reads in accelerator memory for the record, the map of a JOB the records and lengths that its
entries hold, in order (R181). -/
inductive DownMsg where
  | job (id first key threshold : Nat) (methods map : List (Nat × Nat))
  | endJob
  | commit (job step key threshold : Nat)
  | replay (job step key threshold : Nat)
  | cut (id step mode : Nat)
  | pull (items : List PullItem)
  | restore (step : Nat)
  | shard (record off : Nat) (data : List Nat) (entry : Option ShardEntry)
  | resume (id key threshold : Nat)
  | resid (gen : Nat) (add remove : List Nat)
  | xput (record off : Nat) (last : Bool) (token : Nat) (data : List Nat) (entry : Option ShardEntry)
  deriving DecidableEq, Repr

/-- An acknowledgement on an agent port (R168, R170): its header and the number it acknowledges. -/
structure AckMsg where
  hdr : PortHdr
  seq : BitVec 24
  deriving DecidableEq, Repr

/-- The answer to a window access (R443): the code of R46 and the data. -/
structure RegAnswer where
  code : Byte
  data : Word
  deriving DecidableEq, Repr

/-- An engine whose watchdog is due, with the level of its busy signal (R164, R187). -/
structure EngineDue where
  eng : Fin 64
  busy : Bool
  deriving DecidableEq, Repr

/-- A read of the host (R35, R39): its offset, whether it is of 8 bytes, and whether it goes through BAR4, the doorbells, instead of BAR0. -/
structure HostRead where
  off : BitVec 24
  wide : Bool
  bell : Bool
  deriving DecidableEq, Repr

/-- How a message for another controller arrived (R262, R284): its hop level, and whether a global lane brought it. -/
structure Hop where
  level : BitVec 3
  global : Bool
  deriving DecidableEq, Repr

/-- What HAZARD says of a tray (R317, log entry 28): the sum of its job devices' hazards, and whether one of them is under watch. -/
structure TrayHazard where
  sum : BitVec 32
  watch : Bool
  deriving DecidableEq, Repr

/-- What a port measured in a window of 10 µs (R288): utilisation of both directions in per cent, and symbols that FEC corrected. -/
structure PortSample where
  tx : Byte
  rx : Byte
  fec : BitVec 32
  deriving DecidableEq, Repr

/-- The two ends of an agent port (R168). -/
inductive PortEnd where
  | controller
  | agent
  deriving DecidableEq, Repr

/-- A KEYX body as received (R283): ephemeral key, nonce, the certificate's key, serial and its authority's signature, and the
signature over both HELLO bodies, keys and nonces. -/
structure Keyx where
  pub : Nat
  nonce : BitVec 256
  certKey : Nat
  certSerial : BitVec 128
  certSig : Nat
  sig : Nat
  deriving DecidableEq, Repr

/-- What a receiver finds of a VC0 frame that ends in a flit (R282): its frame counter and whether its tag verifies. -/
structure FrameCheck where
  ctr : BitVec 64
  tagOk : Bool
  deriving DecidableEq, Repr

/-- MOVE data on the fabric (R106, R279): bytes for a pod address, a request for bytes at one, or what answers either for a thread of a
generation: the bytes, or none for data that was written. bulk: the descriptor is of class C, and its messages use VC2 (R278). -/
inductive MoveMsg where
  | data (addr : Word) (bytes : List Byte) (thread : Fin 8192) (gen : BitVec 8) (bulk : Bool)
  | request (addr : Word) (len rows stride : Nat) (thread : Fin 8192) (gen : BitVec 8) (bulk : Bool)
  | answer (thread : Fin 8192) (gen : BitVec 8) (bytes : List Byte)
  deriving DecidableEq, Repr

/-- What a margin plan measured on a partition (R423): the slacks of its 32 monitors in ps by point and by 5 mV step from
600 mV, the highest point each active physical core passes (by cluster × 17 + core; none when it fails even at point 0), the
failing SRAM rows that spares take, the voltage in mV at which the rows without a spare pass, and the 32 slacks at 2,000 MHz
and 750 mV. -/
structure PlanResult where
  sweep : List (List (List Int))
  cores : List (Option Nat)
  spared : Nat
  rowMv : Option Nat
  reference : List Int
  deriving DecidableEq, Repr

/-- What the receiver reads in the header of a 1588 message (R347). -/
structure PtpHdr where
  type_ : BitVec 4
  version : BitVec 4
  minor : BitVec 4
  domain : Byte
  sdoId : BitVec 12
  identity : Word
  portNumber : BitVec 16
  twoStep : Bool
  tlv : Bool
  malformed : Bool
  deriving DecidableEq, Repr

/-- The activity of one share of the work in a power window (R428): matrix-core issue, vector-engine and reduction-unit busy
cycles, and KiB of SRAM and LPDDR4X. -/
structure Activity where
  mac : Nat
  vec : Nat
  red : Nat
  sram : Nat
  lpd : Nat
  deriving DecidableEq, Repr

/-- What a failing chunk of a pattern pack finds on its cluster (R79, R418). -/
inductive ChunkFail where
  | core (i : Fin 17)
  | rowSpared
  | rowBeyond
  | vector
  | reduction
  deriving DecidableEq, Repr

/-- A test chunk (R357, R418, R422, R423): the next chunk of the staged pack, with its bound in µs, whether it is the last for its
cluster, what reading the pack back found and what failed; or a chunk of a margin plan on a cluster, with the highest point that
each core tested passes (none: not even point 0). -/
inductive TestChunk where
  | pack (bound : BitVec 32) (last readOk : Bool) (fail : Option ChunkFail)
  | plan (cl : Fin 32) (cores : List (Fin 17 × Option (Fin 11)))
  deriving DecidableEq, Repr

/-- An element of a MAT's result that a failing matrix core computes wrong (R86, R209): where it stands and the value the core yields,
m × 2^e. A core that works yields none. -/
structure WrongElem where
  row : Nat
  col : Nat
  m : Int
  e : Int
  deriving DecidableEq, Repr

/-- A panel of a tile in accelerator memory (R198): its first element, the bytes from one row to the next, and its block scales. -/
structure TapPanel where
  addr : Word
  stride : Word
  scale : Word
  deriving DecidableEq, Repr

/-- A descriptor on the tile tap (R198): identifier, declaration, formats, dimensions, the panels, where C stood when the tile
accumulated into one, the result, and the scale exponent and record when it was quantised with delayed scale. -/
structure TapDesc where
  id : Word
  decl : Fin 4
  fmtA : BitVec 4
  fmtB : BitVec 4
  fmtC : BitVec 4
  m : Fin 257
  n : Fin 257
  k : BitVec 32
  a : TapPanel
  b : TapPanel
  cin : Option Word
  c : Word
  scale : Option (BitVec 8 × BitVec 24)
  deriving DecidableEq, Repr

/-- A tile on the tap: its descriptor, and the pieces of accelerator memory that the memory port finds, by address. -/
structure TapTile extends TapDesc where
  mem : List (Word × List Byte)
  deriving DecidableEq, Repr

/-- The routing header of a fabric message as its receiver reads it (R279): source chip and the sender's epoch. -/
structure FabHdr where
  src : BitVec 16
  epoch : BitVec 32
  deriving DecidableEq, Repr

/-- An entry of a VIEW (R290, R294), with the tray's role and its adopted accelerators (R320; log entry 54). -/
structure ViewEntry where
  chip : BitVec 16
  state : Fin 5
  changed : BitVec 32
  admitted : BitVec 32
  accExp : Byte
  role : BitVec 2
  adopted : Byte
  deriving DecidableEq, Repr

/-- The commands of the block: one constructor per row of the opcode table. -/
inductive Instr where
  /-- REGISTER_WRITE (R31): A write to a register field that has no row of its own acts by the field's access type, with range limiting under R32. -/
  | registerWrite (who : Requester) (off : BitVec 24) (v : Word) (dma : Dma)
  /-- ACCESS_ERROR (R33): A BAR0 access of the wrong size or alignment is not executed: a read returns all ones, a write is discarded and the access-error counter increments. -/
  | accessError (isWrite : Bool) (off : BitVec 24) (size : Nat)
  /-- LOW_HALF_READ (R35): A 4-byte read of a low half returns bits [31:0] and copies bits [63:32] into the page's holding register.
  The host's other reads of registers are this command too: of a high half, by its offset, of 8 bytes, and through BAR4 (R39). -/
  | lowHalfRead (r : HostRead)
  /-- LOW_HALF_WRITE (R35): A 4-byte write to the low half of a register with an RW field is held without effect. -/
  | lowHalfWrite (off : BitVec 24) (v : BitVec 32) (dma : Dma)
  /-- HIGH_HALF_WRITE (R35): A 4-byte write to a high half forms one 64-bit write, with a held low half or with current RW values, and acts in one hub cycle. -/
  | highHalfWrite (off : BitVec 24) (v : BitVec 32) (dma : Dma)
  /-- TIMESTAMP_LATCH (R36): A read of the lower register of a two-register timestamp latches the whole timestamp for later reads of the higher register. -/
  | timestampLatch (ts : Timestamp)
  /-- PAGE_ENABLE (R28): A write of PAGE_CTRL.enable 1 enables the block, or is held until a running drain ends. -/
  | pageEnable (pg : BitVec 17)
  /-- PAGE_DISABLE (R26): A write of PAGE_CTRL.enable 0 starts a drain, or force-aborts the block at once when drain is 0. -/
  | pageDisable (pg : BitVec 17)
  /-- RESET_REQ (R26): A write of PAGE_CTRL.reset_req starts a reset of the page's reset domain and abandons any drain in progress. -/
  | resetReq (pg : BitVec 17)
  /-- DRAIN_IDLE (R383): The accepted work of a draining block reaches its boundary, and the drain ends with PAGE_STATUS.idle 1. -/
  | drainIdle (pg : BitVec 17)
  /-- DRAIN_LIMIT (R383): drain_limit passes during a drain: the block is force-aborted, forced is set and a drain report is written. -/
  | drainLimit (pg : BitVec 17) (ecc : Bool)
  /-- FLT_CLEAR (R367): A write of 1 to an FLT_STATUS bit clears it only when the source's condition has ended; the last clear also clears FLT_FIRST and FLT_OVF. -/
  | fltClear (pg : BitVec 17) (mask : BitVec 32) (levels : BitVec 24)
  /-- FLT_FORCE (R366): A write to FLT_FORCE raises an enabled source as if its cause had occurred. -/
  | fltForce (pg : BitVec 17) (mask : BitVec 32)
  /-- SNAP (R30): A write of CNT_LATCH.snap copies every implemented counter slot of the page in the same hub cycle. -/
  | snap (pg : BitVec 17)
  /-- CNT_CLEAR (R37): A write of 1 to bit 63 of an error counter clears the count and sat together. -/
  | cntClear (pg : BitVec 17) (slot : Fin 15)
  /-- RA_READ (R45): go with op 0 starts a single 8-byte remote read at the pod address in MGMT_RA_ADDR. -/
  | raRead (timeout : BitVec 16)
  /-- RA_WRITE (R45): go with op 1 starts a single 8-byte remote write, or a broadcast write, at the pod address. -/
  | raWrite (timeout : BitVec 16)
  /-- RA_REQ (R45): A target receives a remote access request and executes it once, discarding duplicates by Elision. -/
  | raReq (h : FabHdr) (seq : BitVec 32) (op : Bool) (addr data : Word)
  /-- RA_RSP (R46): The reply to a remote access arrives and the access ends with its result code and done set. -/
  | raRsp (h : FabHdr) (seq : BitVec 32) (code : Byte) (data : Word) (authOk : Bool)
  /-- RA_TIMEOUT (R46): No response, or too few broadcast acknowledgements, within the timeout ends the access with code 0x02. -/
  | raTimeout
  /-- BAR2_ACCESS (R39): A host access through the BAR2 window reads or writes SRAM at the window offset, raw under R468. -/
  | bar2Access (isWrite : Bool) (off : BitVec 35) (size : Fin 8) (data : List Byte) (n : Fin 65)
  /-- FEED_LOST (R55): A feed stays below threshold for 2 µs: loss is declared, its counter increments and single-feed operation begins under R56. -/
  | feedLost (f : Feed)
  /-- FEED_ABOVE_THRESHOLD (R55): An absent feed rises above threshold, enters returning and starts return_hold. -/
  | feedAboveThreshold (f : Feed)
  /-- FEED_BELOW_THRESHOLD (R55): A returning feed dips below threshold; return_hold is discarded and the feed is absent again. -/
  | feedBelowThreshold (f : Feed)
  /-- RETURN_HOLD (R55): return_hold elapses: the feed becomes good, or locked out when flap_limit losses occurred in 600 s. -/
  | returnHold (f : Feed)
  /-- REARM (R55): A write of rearm_a or rearm_b clears a locked-out feed's loss history and starts return_hold. -/
  | rearm (f : Feed)
  /-- LIMITER_WINDOW (R57): Each 10 µs power window updates PWR_PKG_POWER and energy accounts, and the limiter sets or relaxes clock points and class A issue. -/
  | limiterWindow (mw avg hold : BitVec 32) (down : List (Fin 11)) (rate : Fin 17) (c a g agr stp : Activity)
  /-- OVER_ENVELOPE (R57): Package power is still above single_w 100 µs after a loss; over_envelope is raised. -/
  | overEnvelope
  /-- BURST_END (R60): The burst allowance of burst_ms ends and the package returns to envelope_w. -/
  | burstEnd
  /-- POWER_ON (R52): A feed appears and AON and HUB power on under hardware control; feed states are set under R467. -/
  | powerOn (a b : Bool) (ida idb : Option (List Byte)) (slot : BitVec 5)
  /-- POWER_GOOD (R52): A domain has reported power-good for 10 µs, so the domains of the next order number may power on. -/
  | powerGood (x : Domain)
  /-- PMBUS_POLL (R462): Every 10 ms each PMBus controller polls READ_VIN, READ_IIN and STATUS_WORD. -/
  | pmbusPoll (okA okB : Bool)
  /-- POWER_LOSS (R59): Both feeds are absent: the package, AON included, loses power and all state. -/
  | powerLoss
  /-- VDDQ_LOW (R451): VDDQ_D is below 0.54 V for 2 µs: kept contents are void, or every LPD page raises lpd_retrain_fail, or the drop is latched for stage 0x5. -/
  | vddqLow
  /-- THERMAL_SAMPLE (R452): Every 100 µs the junction sensors are read and the thermal limit, trip and THERMTRIP_N are applied. -/
  | thermalSample (temps : List (BitVec 16))
  /-- IDLE_ENTER (R62): A write of AON_IDLE_CTRL.enter is refused under R62 or starts entry into Idle-Keep. -/
  | idleEnter
  /-- IDLE_ENTRY_DONE (R62): Pages drained, LPDDR4X in self-refresh with CKE held and domains off; AON_IDLE_STATUS.state becomes 2. -/
  | idleEntryDone
  /-- WAKE_CMP (R61): The time base reaches an armed wake comparator's seconds value and wakes the controller. -/
  | wakeCmp (n : Fin 2)
  /-- WAKE_PIN (R460): WAKE_N held low for 1 µs wakes the controller from Idle-Keep. -/
  | wakePin (wentHigh : Bool)
  /-- I3C_WAKE (R463): A private I3C write of 0xA5 to index 0x80 is the wake command. -/
  | i3cWake
  /-- PERST_ASSERT (R67): PERST# assertion restarts the sequence at stage 0x1, discarding firmware, pack and plan. -/
  | perstAssert
  /-- PERST_DEASSERT (R68): PERST# deassertion lets the boot ROM train the PCIe link. -/
  | perstDeassert
  /-- HOT_RESET (R67): A PCIe hot reset restarts the sequence at stage 0x1. -/
  | hotReset
  /-- FUNCTION_RESET (R67): A function level reset of the physical function restarts the sequence at stage 0x1. -/
  | functionReset
  /-- LINK_TRAINED (R68): PCIe link training completes at the best rate and width reached. -/
  | linkTrained (gen : Fin 3) (width : Fin 3)
  /-- FWL_GO (R71): FWL_CTRL.go starts the DMA fetch of an object, or ends at once with result 0x01 in a wrong stage. -/
  | fwlGo (obj : BitVec 4)
  /-- FWL_ABORT (R70): FWL_CTRL.abort ends the fetch in progress with result 0x09. -/
  | fwlAbort
  /-- FWL_FETCH_DONE (R72): An object has been fetched and checked, and ends with a result code of R72. -/
  | fwlFetchDone (dma : Dma)
  /-- VERIFY_DONE (R74): Verification of the KFP header, key, rollback and signature ends, passing to stage 0x3 or back to stage 0x1. -/
  | verifyDone
  /-- START_TESTS (R78): BOOT_CTRL.start_tests ends stage 0x3 and starts the power-up tests, at once or when firmware runs on both cores. -/
  | startTests
  /-- PACK_WAIT (R78): pack_wait elapses after firmware runs on both cores and stage 0x4 begins. -/
  | packWait
  /-- TESTS_DONE (R79): Power-up tests end and findings are applied: spares, partitions out of service or a halt with 0x41. -/
  | testsDone (fs : List Findings) (lanes : Word) (hubFail packOk : Bool) (vf : List (List (Nat × Int × Bool))) (p0 : BitVec 32)
  /-- DDR_TRAINED (R80): LPDDR4X training and initialisation of each partition ends. -/
  | ddrTrained (p : Fin 16) (r : DdrRate)
  /-- SIGNAL_DETECT (R264): Signal is detected on a lane and a training attempt starts. -/
  | signalDetect (port : Fin 40) (l : Fin 4)
  /-- TRAINING_PHASE_TIMEOUT (R264): A training phase exceeds its bound and the attempt fails. -/
  | trainingPhaseTimeout (port : Fin 40) (l : Fin 4) (phase : Fin 4)
  /-- TRAINING_ATTEMPT_END (R265): A lane's training attempt ends: pass with measured length, retry, or failed after three attempts. -/
  | trainingAttemptEnd (port : Fin 40) (l : Fin 4) (pass : Bool) (delay : BitVec 16)
  /-- LANE_SILENT (R265): A lane has no signal 15 s after training began and is marked silent. -/
  | laneSilent (port : Fin 40) (l : Fin 4)
  /-- LINK_DOWN (R288): A lane is lost while up; link_down is raised. -/
  | linkDown (port : Fin 40) (l : Fin 4)
  /-- DISC_WAIT (R82): disc_wait passes after discovery start or plan load; unheard ports are classified and discovery ends. -/
  | discWait
  /-- TIME_STAGE_END (R83): Rack and pod lock held for 1 s, or 10 s passed, ends the time stage or halts with 0x81. -/
  | timeStageEnd (rack pod : Bool)
  /-- BOOT_RESUME (R85): BOOT_CTRL.resume continues the sequence from a hold_after stop. -/
  | bootResume
  /-- ROLLBACK_ADVANCE (R75): SEC_ROLLBACK.advance in stage 0xA writes the anti-rollback fuses up to the running svn. -/
  | rollbackAdvance
  /-- ATTEST_GO (R77): SEC_ATT_CTRL.go starts building and signing an attestation report. -/
  | attestGo
  /-- ATTEST_DONE (R77): The attestation report is complete and SEC_ATT_STATUS.done sets. -/
  | attestDone
  /-- CORE_FAIL (R86): A matrix core fault withdraws the core and reissues its tiles; the spare switch-in starts or spare_exhausted is raised. -/
  | coreFail (cl : Fin 32) (core : Fin 17)
  /-- SWITCH_IN_DONE (R86): The spare matrix core becomes active and the cluster issues on 16 cores again. -/
  | switchInDone (cl : Fin 32)
  /-- CTX_CREATE (R97): create makes a free context a created class G context with a new generation. -/
  | ctxCreate (c : Fin 1024)
  /-- CTX_ENABLE (R97): enable written 1 makes a created context accept doorbells. -/
  | ctxEnable (c : Fin 1024)
  /-- CTX_DISABLE (R97): enable written 0 refuses doorbells and starts draining the context's commands. -/
  | ctxDisable (c : Fin 1024)
  /-- CTX_ERR_CLEAR (R97): err_clear returns a context in error to created. -/
  | ctxErrClear (c : Fin 1024)
  /-- CTX_DESTROY (R97): destroy frees a created context or fences a running one under R386. -/
  | ctxDestroy (c : Fin 1024)
  /-- CTX_CONFIG_WRITE (R96): A write to a context configuration register takes effect only in state 1 and within the spill quota. -/
  | ctxConfigWrite (c : Fin 1024) (reg : Fin 6) (v : Word)
  /-- CTX_DRAIN_END (R97): A draining context's last command ends or is force-aborted; it returns to created or enters error. -/
  | ctxDrainEnd (c : Fin 1024) (forced : Bool)
  /-- QUARANTINE_END (R97): The 100 µs quarantine of a fenced context ends and its number becomes free. -/
  | quarantineEnd (c : Fin 1024)
  /-- REQUEST_ABANDON (R386): A request into a fenced context not returned within 20 ms is abandoned. -/
  | requestAbandon (c : Fin 1024)
  /-- DOORBELL (R99): A doorbell write sets a context's tail, is discarded, or puts the context in error with 0x09. -/
  | doorbell (c : Fin 1024) (tail : BitVec 16)
  /-- COMMAND_DISPATCH (R100): A command starts in ring order on a free thread of the context, latching its start counters. -/
  | commandDispatch (c : Fin 1024) (cl : Fin 32) (th : Fin 256) (dma : Dma)
  /-- COMMAND_END (R100): A command's last descriptor retires or errors; its completion record is written and the interrupt raised. -/
  | commandEnd (cl : Fin 32) (th : Fin 256)
  /-- MAT (R126): A MAT descriptor computes C = A × B or C + A × B under its profile. -/
  | mat (cl : Fin 32) (th : Fin 256) (cycles : BitVec 32) (sram : SramUpset) (wrong : List WrongElem)
  /-- CHAIN (R149): A CHAIN descriptor applies up to eight element-wise stages to a tensor or queued tiles. -/
  | chain (cl : Fin 32) (th : Fin 256) (cycles : Nat) (u : VecUpset)
  /-- RED (R158): A RED descriptor computes sums, extremes, amax or digests along an axis. -/
  | red (cl : Fin 32) (th : Fin 256) (cycles : Nat) (u : RedUpset)
  /-- MOVE (R106): A MOVE descriptor copies rows between context or pod addresses, or prefetches, pins or evicts pages. -/
  | move (cl : Fin 32) (th : Fin 256) (cycles : Nat) (dma : Dma)
  /-- CHECK (R159): A class C CHECK converts a tile, compares it with the reference and writes the compare result. -/
  | check (cl : Fin 32) (th : Fin 256) (core : Fin 17) (cycles : BitVec 32) (upset : RedUpset)
  /-- WAIT (R108): A WAIT descriptor retires when its semaphore condition holds, or blocks. -/
  | wait (cl : Fin 32) (th : Fin 256)
  /-- SIGNAL (R108): A SIGNAL adds to or sets a semaphore and re-evaluates every waiting WAIT. -/
  | signal (cl : Fin 32) (th : Fin 256)
  /-- WAIT_TIMEOUT (R108): A WAIT still false at its timeout ends the command with 0x0A. -/
  | waitTimeout (cl : Fin 32) (th : Fin 256)
  /-- THREAD_ISSUE (R112): A ready thread wins arbitration by class, round-robin and credit and is placed on a free engine. -/
  | threadIssue (cl : Fin 32) (th : Fin 256)
  /-- PREEMPT (R111): An issuing thread reaches a preemption point with a higher class waiting, or after its hold limit, and saves its state. -/
  | preempt (cl : Fin 32) (th : Fin 256) (hold : Bool)
  /-- HOLD_OVERRUN (R115): A holder does not reach a preemption point within hold_max plus 2,048 core cycles. -/
  | holdOverrun (cl : Fin 32)
  /-- PAGE_FILL (R92): A managed page fill into SRAM completes and the blocked threads become ready. -/
  | pageFill (c : Fin 1024) (page : BitVec 25) (gen : BitVec 8) (u : LpdUpset)
  /-- RESERVE_WRITE (R117): A write of SRM_RESERVE lowers a reserve at once or raises it by evicting class A and G pages. -/
  | reserveWrite (p : Fin 16) (v : Word)
  /-- FTQ_ENTRY_FREE (R144): A finished-tile queue entry frees and a stalled matrix core hands over its held tile. -/
  | ftqEntryFree (cl : Fin 32) (th : Fin 256) (cycles : Nat)
  /-- PROF_SEL_WRITE (R130): A write of DEV_PROF_SEL selects an entry and discards any staged word 0. -/
  | profSelWrite (e : Fin 256)
  /-- PROF_W0_WRITE (R130): A write of DEV_PROF_W0 stages word 0 of a profile entry. -/
  | profW0Write (v : Word)
  /-- PROF_INSTALL (R130): A write of DEV_PROF_W1 installs the staged word 0 and word 1 together, or is refused with a result code. -/
  | profInstall (v : Word)
  /-- COEF_DATA_WRITE (R154): A write of VEC_COEF_DATA stores a coefficient word of an invalid set and advances the index. -/
  | coefDataWrite (cl : Fin 32) (v : Word)
  /-- COEF_COMMIT (R153): commit makes the selected coefficient set valid in all 32 vector engines. -/
  | coefCommit (cl : Fin 32)
  /-- COEF_INVALIDATE (R153): invalidate requests invalidation of the selected set once no issued CHAIN names it. -/
  | coefInvalidate (cl : Fin 32)
  /-- INVALIDATION_DONE (R153): The last CHAIN naming a set retires and the set becomes invalid. -/
  | invalidationDone (set : Fin 8)
  /-- TILE_TAP (R172): The agent accepts a tile descriptor, evaluates the keyed hash and ships or releases the tile. -/
  | tileTap (a : Fin 8) (t : TapDesc) (mem : List (Word × List Byte)) (ecc : Bool)
  /-- STEP_END (R178): The accelerator pulses step_end; the agent checks the mark list, sends MARK and gates the step. -/
  | stepEnd (a : Fin 8) (n : BitVec 40) (list : List Word)
  /-- UPDATE_DONE (R178): The accelerator pulses update_done; the gate falls, slot_free is pulsed, and a recorded cut starts. -/
  | updateDone (a : Fin 8)
  /-- HOLD_ACK (R182): The accelerator acknowledges hold_req; the agent sends CUTACK 0x00 or pulses copy_req. -/
  | holdAck (a : Fin 8) (packed : BitVec 64)
  /-- COPY_DONE (R182): The accelerator finishes a copy-mode cut; the agent sends CUTACK 0x01 and releases the hold. -/
  | copyDone (a : Fin 8)
  /-- CMD_START (R190): A command start strobe latches the time copy and selected counters. -/
  | cmdStart (a : Fin 8) (tag : BitVec 32) (ctrs : List Word)
  /-- CMD_END (R190): A command end strobe writes a 128-byte record to the command ring, or raises XRDY for an exchange tag. -/
  | cmdEnd (a : Fin 8) (tag : BitVec 32) (ctrs : List Word)
  /-- ACC_FAULT (R186): An accelerator fault input is raised on the AFLT page. -/
  | accFault (a : Fin 8) (src : Fin 24)
  /-- PROGRESS_PULSE (R187): An engine progress pulse restarts that engine's watchdog. -/
  | progressPulse (a : Fin 8) (e : Fin 64)
  /-- AGENT_ENGINE_HANG (R187): An engine watchdog reaches its timeout; AFLT_ENG_HUNG is set and engine_hang raised. -/
  | agentEngineHang (a : Fin 8) (e : EngineDue)
  /-- CUT_ABANDON (R178): cut_abandon elapses in cut state; the hold is released, CUTACK 0x05 sent and cut_abandoned raised. -/
  | cutAbandon (a : Fin 8)
  /-- RETRANSMIT (R168): A port message unacknowledged for 20 µs is retransmitted, up to eight times. -/
  | retransmit (e : PortEnd) (a : Fin 8) (seq : BitVec 24)
  /-- PORT_LOST (R186): No valid frame for 100 µs, or retransmission exhausted, raises port_lost at the agent. -/
  | portLost (a : Fin 8)
  /-- AGENT_TIME_HOLDOVER (R189): 1 ms without a TIME message puts the agent time copy in holdover. -/
  | agentTimeHoldover (a : Fin 8)
  /-- REARM_TIME (R167): AGT_CTRL.rearm_time lets the next TIME message set the copy directly. -/
  | rearmTime (a : Fin 8)
  /-- APROF_LOCK (R192): Setting APROF_LOCK locks the declarations and sends DECL. -/
  | aprofLock (a : Fin 8) (tables : List (List Word))
  /-- AGENT_RESET (R180): An agent reset completes; the agent restores its recorded step state and resends unacknowledged messages. -/
  | agentReset (a : Fin 8)
  /-- AGENT_FENCE (R170): AGP_CTRL.fence puts the agent port in state 4, accepting only TIME and REG. -/
  | agentFence (a : Fin 8)
  /-- MARK_MISSING (R193): No MARK arrives by the step's verdict deadline. -/
  | markMissing (a : Fin 8)
  /-- JOB (R178): The agent receives JOB: the method list goes into the shard map, the key is installed, and state becomes run. -/
  | job (a : Fin 8) (h : PortHdr) (first : BitVec 40) (key : BitVec 128) (threshold : BitVec 13) (methods : List (BitVec 24 × Fin 4)) (map : List (BitVec 24 × BitVec 38))
  /-- END (R178): The agent receives END: keys discarded, gate low, slots freed, state idle. -/
  | endJob (a : Fin 8) (h : PortHdr)
  /-- COMMIT (R178): The agent receives COMMIT(N): update_gate rises and the key for N+1 is installed. -/
  | commit (a : Fin 8) (h : PortHdr) (step : BitVec 40) (key : BitVec 128) (threshold : BitVec 13)
  /-- REPLAY (R178): The agent receives REPLAY(N): the replay key is installed and replay_start pulsed. -/
  | replay (a : Fin 8) (h : PortHdr) (step : BitVec 40) (key : BitVec 128) (threshold : BitVec 13)
  /-- CUT (R179): The agent receives CUT and records it, or answers missed or busy. -/
  | cut (a : Fin 8) (h : PortHdr) (id : BitVec 32) (step : BitVec 40) (copy : Bool)
  /-- PULL (R183): The agent receives PULL and streams each record as SHARD or one DIGEST. -/
  | pull (a : Fin 8) (h : PortHdr) (items : List PullItem)
  /-- RESTORE (R178): The agent receives RESTORE(M): stop, hold_req, journal slots freed, state restore. -/
  | restore (a : Fin 8) (h : PortHdr) (step : BitVec 40)
  /-- SHARD (R184): In restore state the agent writes a down SHARD into accelerator memory and acknowledges it when visible. -/
  | shard (a : Fin 8) (h : PortHdr) (record : BitVec 24) (off : BitVec 38) (data : List Byte) (entry : Option ShardEntry)
  /-- RESUME (R178): The agent receives RESUME: the cut hold or restore stop is released and state becomes run. -/
  | resume (a : Fin 8) (h : PortHdr) (id : BitVec 40) (key : BitVec 128) (threshold : BitVec 13)
  /-- RESID (R201): The agent applies a RESID to its resident table and takes its generation. -/
  | resid (a : Fin 8) (h : PortHdr) (gen : BitVec 16) (add remove : List (BitVec 128))
  /-- TIME (R189): The agent disciplines its time copy from a TIME message, refusing jumps above jump_us. -/
  | timeMsg (a : Fin 8) (h : PortHdr) (sec : BitVec 48) (ns : BitVec 30) (frac : BitVec 16) (latency : BitVec 32)
  /-- REG_REQUEST (R443): A REG window access request reaches the agent and acts on its register space. -/
  | regRequest (a : Fin 8) (h : PortHdr) (op : Bool) (off : BitVec 24) (v : Word) (dma : Dma)
  /-- REG_RESPONSE (R443): A REG response returns the result of a window access to the controller: the code of R46 and the data. -/
  | regResponse (a : Fin 8) (h : PortHdr) (req : BitVec 24) (ans : RegAnswer)
  /-- XPUT (R333): The agent writes exchange data to a method-3 record and writes the token after the last XPUT. -/
  | xput (a : Fin 8) (h : PortHdr) (record : BitVec 24) (off : BitVec 38) (last : Bool) (token : Word) (data : List Byte) (entry : Option ShardEntry)
  /-- ACK (R168): An acknowledgement of a seq releases the sender's copy. -/
  | ack (e : PortEnd) (a : Fin 8) (m : AckMsg)
  /-- MARK (R215): The controller receives MARK for a round, updates Tense and the gate, and releases held REPLAYs. -/
  | mark (a : Fin 8) (h : PortHdr) (body : List Word)
  /-- TILE (R204): The controller checks a TILE record and issues a class C MAT and CHECK with the reference filled. -/
  | tile (a : Fin 8) (h : PortHdr) (body : List Word)
  /-- OPND (R203): An operand block arrives, is checked against its identifier and is cached. -/
  | opnd (a : Fin 8) (h : PortHdr) (id : BitVec 128) (block : List Byte)
  /-- CUTACK (R241): The controller collects a CUTACK and sends CUTREP once all have arrived. -/
  | cutack (a : Fin 8) (h : PortHdr) (id : BitVec 32) (status : Byte)
  /-- DIGEST (R242): A digest-only pull result arrives and is sent to the record's home. -/
  | digest (a : Fin 8) (h : PortHdr) (record : BitVec 24) (digest : Option Word)
  /-- SHARD_UP (R241): Pulled shard data arrives at the controller for writing into the stripe. -/
  | shardUp (a : Fin 8) (h : PortHdr) (record : BitVec 24) (off : BitVec 38) (data : List Byte)
  /-- FAULT (R193): A FAULT message from an agent raises agent_fault. -/
  | fault (a : Fin 8) (h : PortHdr) (status first time : Word)
  /-- DECL (R132): A DECL arrives; its profiles and coefficient sets are installed in mode 1 or 2 or refused. -/
  | decl (a : Fin 8) (h : PortHdr) (body : List Word)
  /-- XRDY (R333): An XRDY makes the controller pull the exchange record and relay it to the stand-in. -/
  | xrdy (a : Fin 8) (h : PortHdr) (record : BitVec 24)
  /-- VERDICT_OVERDUE (R223): A verdict is still outstanding overdue_ms after the mark time. -/
  | verdictOverdue (a : Fin 8)
  /-- HASHES (R213): The home collects replica digests and decides agreement or code 0x7 for each record. -/
  | hashes (h : FabHdr) (job : BitVec 32) (step : BitVec 40) (round : Byte) (pairs : List (BitVec 16 × Fin 8 × BitVec 24 × Word))
  /-- STEPREP (R215): A step report arrives from a child; it is forwarded, or the root decides commit or replay. -/
  | steprep (h : FabHdr) (job : BitVec 32) (step : BitVec 40) (round status : Byte) (covered : Word) (seeds : List (BitVec 16 × Fin 8)) (whole : Bool)
  /-- STEPDEC_COMMIT (R215): A commit decision sends COMMIT(N) with new thresholds and keys, and may start a cut and a mirror version. -/
  | stepdecCommit (h : FabHdr) (job : BitVec 32) (step : BitVec 40)
  /-- STEPDEC_REPLAY (R219): A replay decision sends REPLAY(N) with fresh keys to the tainted agents. -/
  | stepdecReplay (h : FabHdr) (job : BitVec 32) (step : BitVec 40) (round : Byte) (seeds : List (BitVec 16 × Fin 8)) (whole : Bool)
  /-- STEPDEC_ABANDON (R215): An abandon decision leaves the step uncommitted for restore. -/
  | stepdecAbandon (h : FabHdr) (job : BitVec 32) (step : BitVec 40) (seeds : List (BitVec 16 × Fin 8)) (whole : Bool)
  /-- VLOG_READ (R226): A read of AGR_VLOG_W0 latches the verdict record at the read index. -/
  | vlogRead
  /-- FLOW_READ (R230): A read of FLOW_W0 latches the selected flow-table record. -/
  | flowRead (ecc : Bool := false)
  /-- CUTREQ (R241): A controller receives CUTREQ and sends CUT to its job agents after the commit. -/
  | cutreq (h : FabHdr) (job : BitVec 32) (step : BitVec 40) (copy : Bool) (gen : BitVec 32)
  /-- CUT_WAIT (R241): cut_wait passes before every CUTACK has arrived; CUTREP 1 is sent. -/
  | cutWait (job : BitVec 32)
  /-- CUTREP (R245): The root receives a cut report; a failure leads to GENCOMMIT discard. -/
  | cutrep (h : FabHdr) (job : BitVec 32) (step : BitVec 40) (code : Byte) (gen count : BitVec 32)
  /-- STRIPE (R243): A holder stores a stripe unit with inline ECC and acknowledges it, or refuses it. -/
  | stripe (h : FabHdr) (job gen : BitVec 32) (slot : Fin 2) (role : Fin 4) (k : Fin 32) (row : Word) (data : List Byte)
  /-- STRIPEACK (R243): A stripe unit acknowledgement or refusal reaches the writer. -/
  | stripeack (h : FabHdr) (job gen : BitVec 32) (slot : Fin 2) (role : Fin 4) (k : Fin 32) (row : Word) (result : Byte)
  /-- EXTENT_COMPLETE (R244): A home reports its extent complete; when all are complete the seal leader proposes the commit record. -/
  | extentComplete (h : FabHdr) (job gen : BitVec 32) (failed : Bool) (tables : List Byte)
  /-- GENREP (R245): The root receives a seal report from a rack's seal leader. -/
  | genrep (h : FabHdr) (job : BitVec 32) (step : BitVec 40) (code : Byte) (gen : BitVec 32)
  /-- GENCOMMIT (R245): GENCOMMIT code 0 commits the generation in every rack. -/
  | gencommit (h : FabHdr) (job : BitVec 32) (step : BitVec 40) (gen : BitVec 32)
  /-- GENCOMMIT_DISCARD (R252): GENCOMMIT code 1 discards the generation and releases its pins. -/
  | gencommitDiscard (h : FabHdr) (job : BitVec 32) (step : BitVec 40) (gen : BitVec 32)
  /-- MIRROR (R249): A partner stores a mirror version in its ring and acknowledges it. -/
  | mirror (h : FabHdr) (job : BitVec 32) (step : BitVec 40) (acc : Fin 8) (source : BitVec 16) (nFlow : BitVec 24) (itemBytes : BitVec 32) (words : List Word)
  /-- MIRROR_ACK (R249): The partner's acknowledgement of a mirror version reaches the source. -/
  | mirrorAck (h : FabHdr) (job : BitVec 32) (step : BitVec 40) (acc : Fin 8)
  /-- MIRROR_LOST (R249): A mirror version is not acknowledged within ack_ms. -/
  | mirrorLost (job : BitVec 32) (step : BitVec 40) (acc : Fin 8)
  /-- PIN (R250): A partner copies version S into the slot's pin and acknowledges. -/
  | pin (h : FabHdr) (job : BitVec 32) (step : BitVec 40) (slot : Fin 2)
  /-- RESTREQ (R256): RESTREQ starts a restore to M: RESTORE to agents, units read and rebuilt. -/
  | restreq (h : FabHdr) (job : BitVec 32) (step : BitVec 40) (bad : List Word)
  /-- RESTDONE (R256): The root collects restore reports and commits or retries with the next candidate. -/
  | restdone (h : FabHdr) (job : BitVec 32) (step : BitVec 40) (code : Byte) (count : BitVec 32)
  /-- RESTCOMMIT (R256): A restore commits: newer generations and mirror versions freed, RESUME(M) sent. -/
  | restcommit (h : FabHdr) (job : BitVec 32) (step : BitVec 40)
  /-- CREC_READ (R259): A read of STP_CREC_W0 latches the selected commit record. -/
  | crecRead
  /-- FLIT (R263): A flit arrives, is checked by CRC and seq, and its credits and acknowledgement are taken. -/
  | flit (port : Fin 40) (hdr : Word) (payload : List Byte) (crc : Word) (frame : Option FrameCheck)
  /-- NAK (R263): A negative acknowledgement makes the sender replay from the first unacknowledged flit. -/
  | nak (port : Fin 40) (ack : BitVec 16)
  /-- HELLO (R276): A HELLO arrives and the port is classified against the plan. -/
  | hello (port : Fin 40) (h : List Word)
  /-- HELLO_SEND (R275): The HELLO period elapses and a HELLO is sent on every trained port. -/
  | helloSend
  /-- KEYX (R283): A KEYX is checked and the link's keys are derived. -/
  | keyx (port : Fin 40) (k : Keyx)
  /-- REKEY (R283): 2³² frames in one direction force a fresh key agreement. -/
  | rekey (port : Fin 40)
  /-- FORWARD (R284): A message for another controller is forwarded by the routing rules or indirect path. -/
  | forward (h : FabHdr) (dst : BitVec 16) (kind : Byte) (hop : Hop) (indirect : Bool) (body : List Word)
  /-- LOAD (R286): A LOAD flit reports a member's G lane utilisation. -/
  | load (slot : Fin 18) (util : List Byte)
  /-- LOAD_SEND (R286): Every 10 µs a controller sends its rack a LOAD flit. -/
  | loadSend (util : List PortSample)
  /-- MOVE_DATA (R279): MOVE data for a pod address arrives and is written. -/
  | moveData (h : FabHdr) (m : MoveMsg)
  /-- PORT_RETRAIN (R288): PORT_CTRL.retrain retrains a port from failed, silent or up. -/
  | portRetrain (port : Fin 40)
  /-- PORT_LOOPBACK (R288): PORT_CTRL.loopback runs training phases 1 to 3 in near-end loopback. -/
  | portLoopback (port : Fin 40)
  /-- HB (R293): A heartbeat from a rack member ends suspicion of it and supplies its view digest. -/
  | hb (h : FabHdr) (heard : BitVec 18) (digest : Word)
  /-- HB_SEND (R292): Every 50 µs a member broadcasts HB in its rack. -/
  | hbSend
  /-- GHB (R293): A global heartbeat from a rack leader ends suspicion of that rack. -/
  | ghb (h : FabHdr) (rack leader : BitVec 16) (founding : Bool) (members : BitVec 18) (digest : Word)
  /-- GHB_SEND (R292): Every 250 µs the rack leader and its next member send GHB to the pod. -/
  | ghbSend
  /-- SUSPECT (R293): 210 µs without HB from a member makes it suspected. -/
  | suspect (chip : BitVec 16)
  /-- RACK_SUSPECT (R293): 1,050 µs without GHB from a rack makes it suspected. -/
  | rackSuspect (rack : BitVec 16)
  /-- VIEW_MISMATCH (R294): The leader's view digest differs for 1 ms and VIEWREQ is sent. -/
  | viewMismatch
  /-- VIEWREQ (R294): The leader answers a VIEWREQ with VIEW. -/
  | viewreq (h : FabHdr)
  /-- VIEW (R294): A VIEW arrives and the newer of each entry is taken. -/
  | view (h : FabHdr) (entries : List ViewEntry) (decides : List (BitVec 16 × List Word)) (same : Bool)
  /-- PROPOSE (R298): A voter receives a proposal and votes once per epoch and scope. -/
  | propose (h : FabHdr) (pod founding : Bool) (epoch : BitVec 32) (changes crec : List Word)
  /-- VOTE (R300): The coordinator counts a vote towards quorum and sends DECIDE when settled. -/
  | vote (h : FabHdr) (voter : BitVec 16) (refuse : Bool) (epoch : BitVec 32) (yes : Word)
  /-- DECIDE (R300): Every controller applies accepted changes, takes the epoch, and reacts to expulsions and admissions. -/
  | decide (h : FabHdr) (pod founding : Bool) (yes voters : Byte) (epoch : BitVec 32) (changes crec : List Word)
  /-- CLAUSE_TIMEOUT (R300): A Clause does not settle in 400 µs or 2,000 µs; the accepted changes are decided and backoff starts. -/
  | clauseTimeout
  /-- BACKOFF_END (R300): The random backoff ends and pending changes are proposed again. -/
  | backoffEnd
  /-- JOINREQ (R304): A join request from a controller in stage 0x9 prompts a Clause to admit it. -/
  | joinreq (h : FabHdr) (operator : Bool)
  /-- JOINREQ_SEND (R304): Every 1 ms a joining controller sends JOINREQ. -/
  | joinreqSend
  /-- FOUNDING_TIMEOUT (R305): 20 ms in stage 0x9 without DECIDE or VIEW treats the rack as unfounded. -/
  | foundingTimeout
  /-- FENCED (R303): An authenticated FENCED from a member makes the controller fence itself. -/
  | fenced (h : FabHdr)
  /-- ISOLATION (R303): No quorum heard for 2 ms (or 10 ms pod-wide) makes the controller fence itself. -/
  | isolation (pod : Bool)
  /-- WITHDRAW_REQUEST (R306): MBR_CTRL.withdraw sends WITHDRAW or is refused with 0x06. -/
  | withdrawRequest
  /-- WITHDRAW (R306): The rack leader proposes the withdrawal requested by a member. -/
  | withdraw (h : FabHdr)
  /-- REJOIN (R304): MBR_CTRL.rejoin ends refusal 0x02 or 0x05 and the next JOINREQ carries the operator flag. -/
  | rejoin
  /-- HOLDOFF_END (R304): A chip's rejoin hold-off ends. -/
  | holdoffEnd (chip : BitVec 16)
  /-- EVIDENCE (R307): The coordinator receives job evidence and proposes an expulsion. -/
  | evidence (h : FabHdr) (change : Word)
  /-- JOB_STALL (R307): An accelerator's MARK is missing stall_ms after the others marked; expulsion is proposed. -/
  | jobStall (a : Fin 8)
  /-- STEP_TREE_STALL (R307): A step-tree child sends no STEPREP for stall_ms; the parent sends EVIDENCE. -/
  | stepTreeStall (job : BitVec 32) (child : BitVec 16)
  /-- AGENT_PORT_TIMEOUT (R307): An agent port is not back within 200 ms of agent_link_lost; expulsion is proposed. -/
  | agentPortTimeout (a : Fin 8)
  /-- JOB_SUBMIT (R312): MBR_JOB_CTRL.go fetches a job descriptor and starts the job start. -/
  | jobSubmit (dma : Dma)
  /-- JOB_END_REQUEST (R314): MBR_JOB_CTRL.end ends the job and sends JOBEND down the start tree. -/
  | jobEndRequest
  /-- JOBSTART (R312): A node receives descriptor chunks, forwards them and checks the job when complete. -/
  | jobstart (h : FabHdr) (job adm : BitVec 32) (seq total root : BitVec 16) (data : List Byte)
  /-- JOBACK (R312): A parent sums a child's coverage and status; the root commits or aborts. -/
  | joback (h : FabHdr) (job adm : BitVec 32) (covered : BitVec 32) (status : Byte) (fail : BitVec 16)
  /-- JOBGO (R312): JOBGO go starts the job and sends JOB to the agents. -/
  | jobgo (h : FabHdr) (job adm : BitVec 32)
  /-- JOBGO_ABORT (R313): JOBGO abort ends a job start with a result code. -/
  | jobgoAbort (h : FabHdr) (job adm : BitVec 32) (result : Byte)
  /-- REPARENT (R312): An ancestor adopts an orphan and sends it missing chunks. -/
  | reparent (h : FabHdr) (job adm : BitVec 32) (orphan held : BitVec 16)
  /-- JOBEND (R314): A node sends END to its agents and frees the job's records, rows and versions. -/
  | jobend (h : FabHdr) (job adm : BitVec 32)
  /-- JOBACK_TIMEOUT (R312): No JOBACK from a child within 5 ms; every chunk is resent. -/
  | jobackTimeout (job : BitVec 32) (child : BitVec 16)
  /-- ORPHAN_TIMEOUT (R312): 20 ms without word from the parent; the node sends REPARENT. -/
  | orphanTimeout (job : BitVec 32)
  /-- START_TIMEOUT (R309): No full acknowledgement within 2,000 ms ends the start with 0x09. -/
  | startTimeout (job : BitVec 32)
  /-- HAZARD (R317): The root takes a tray's hazard sum for the risk estimate. -/
  | hazard (h : FabHdr) (job : BitVec 32) (tray : TrayHazard)
  /-- HAZARD_SEND (R317): Every 1 s, or on a 10% change, a controller sends HAZARD to the job root. -/
  | hazardSend
  /-- HEALTH_DECAY (R315): Health points decay one step of 1/64 of the half-life. -/
  | healthDecay
  /-- ADOPT_PREPARE (R324): ADOPT phase 0 shows the job and index in SPARE_ADOPT and raises adopt_request. -/
  | adoptPrepare (h : FabHdr) (job : BitVec 32) (pairs : List (BitVec 16 × BitVec 16 × Fin 8))
  /-- ADOPT_COMMIT (R324): ADOPT phase 1 rewrites the job table at boundary B and sets the adopted bit. -/
  | adoptCommit (h : FabHdr) (job : BitVec 32) (b : BitVec 40) (pairs : List (BitVec 16 × BitVec 16 × Fin 8))
  /-- ADOPT_CANCEL (R324): ADOPT phase 2 cancels adoption of an index. -/
  | adoptCancel (h : FabHdr) (job : BitVec 32) (pairs : List (BitVec 16 × BitVec 16 × Fin 8))
  /-- ADOPTACK (R324): The root receives a spare's readiness and chooses B, or cancels and tries the next spare. -/
  | adoptack (h : FabHdr) (job : BitVec 32) (index : BitVec 16) (status : Byte)
  /-- SPARE_READY (R324): SPARE_CTRL.ready makes the spare's controller check the agent and answer ADOPTACK. -/
  | spareReady
  /-- ADOPT_WAIT (R324): adopt_wait passes without ready; ADOPTACK status 3 is sent. -/
  | adoptWait
  /-- APPO_LOAD (R328): APPO_CTRL.load fetches the program, checks R326 and creates the stand-in context. -/
  | appoLoad (dma : Dma)
  /-- PROG_WAIT (R326): prog_wait passes with no program; entry is refused with 0x04. -/
  | progWait (slot : Fin 2)
  /-- STANDIN_STEP_END (R329): A stand-in's step list ends and its mark area is read as a MARK. -/
  | standinStepEnd (slot : Fin 2)
  /-- STANDIN_UPDATE_END (R329): A stand-in's update list ends and the next step starts. -/
  | standinUpdateEnd (slot : Fin 2)
  /-- XRELAY (R333): Relayed exchange data is written into the stand-in and signalled, or passed to the holder as XPUT. -/
  | xrelay (h : FabHdr) (job : BitVec 32) (record : BitVec 24) (off : BitVec 38) (token : Option Word) (data : List Byte)
  /-- HANDOVER (R334): Handover records reach the spare's controller and are written to its agent as SHARD. -/
  | handover (h : FabHdr) (job : BitVec 32) (acc : Fin 8) (nFlow : BitVec 24) (itemBytes : BitVec 32) (words : List Word) (digestOk : Bool)
  /-- DRILL_TIME (R336): The rack's drill time arrives and the leader chooses a job and accelerator, or skips. -/
  | drillTime
  /-- DRILL_LEN (R337): len_s of standing in ends and the drilled accelerator is adopted back. -/
  | drillLen (job : BitVec 32)
  /-- EPOCH_PULSE (R343): An epoch pulse reloads time copies, applies a new adj and new V–F tables, and the source sends a rack time frame. -/
  | epochPulse
  /-- EPOCH_MISSING (R343): No pulse within ±2 reference cycles; an internal pulse is substituted. -/
  | epochMissing
  /-- RACK_TIME_FRAME (R345): A member measures its rack offset from a rack time frame and loads the source time. -/
  | rackTimeFrame (port : Fin 18) (w : List Word)
  /-- RACK_TIME_FAULT (R345): The rack offset stays above 5 ns for 1 ms. -/
  | rackTimeFault
  /-- RACK_FRAME_TIMEOUT (R346): 1 s without rack frames from a lower chip makes a controller a rack time source. -/
  | rackFrameTimeout
  /-- SYNC_TIMEOUT (R346): A rack source that hears no Sync for 2 s becomes pod master. -/
  | syncTimeout
  /-- SYNC (R349): A leader or standby disciplines its time from a Sync, or refuses a jump. -/
  | sync (port : Fin 40) (h : PtpHdr) (src : BitVec 16) (arrival : Fin 18) (sec : BitVec 48) (ns : BitVec 32) (corr : BitVec 48)
  /-- SYNC_SEND (R348): Every 2^sync_log s the master's rack members send Sync on their X lanes. -/
  | syncSend
  /-- PDELAY_SEND (R348): Every 2^pdelay_log s each up lane sends Pdelay_Req. -/
  | pdelaySend
  /-- PDELAY_REQ (R347): A Pdelay_Req is answered with a one-step Pdelay_Resp. -/
  | pdelayReq (port : Fin 40) (h : PtpHdr) (turn : BitVec 48)
  /-- PDELAY_RESP (R348): A Pdelay_Resp yields a peer-delay measurement. -/
  | pdelayResp (port : Fin 40) (h : PtpHdr) (trip turn : BitVec 48)
  /-- ANNOUNCE (R347): An Announce reveals a change of master. -/
  | announce (h : PtpHdr) (src : BitVec 16)
  /-- HOLDOVER (R350): No usable Sync or frame for holdover_ms puts the time base in holdover. -/
  | holdover
  /-- REF_MISSING (R350): The reference is absent for 2 µs; AON runs free from its oscillator. -/
  | refMissing
  /-- REF_RETURN (R350): The reference returns and the time base enters holdover. -/
  | refReturn
  /-- TIME_REARM (R351): TIME_CTRL.rearm lets the next correction apply as a step. -/
  | timeRearm
  /-- AGENT_TIME_SEND (R189): Every 125 µs the controller sends a TIME message to each agent. -/
  | agentTimeSend
  /-- TENSE_OVERRUN (R355): The phase holds at 65,535 longer than P̂/4. -/
  | tenseOverrun (acc : Fin 8)
  /-- TEST_SLOT (R357): A test slot opens and a test chunk starts on one cluster. -/
  | testSlot (c : TestChunk)
  /-- PULSE_ARM (R358): PULSE_n_CFG.arm arms an output with its T0 and PER. -/
  | pulseArm (n : Fin 8)
  /-- PULSE_FIRE (R358): An output's target time arrives and the output asserts. -/
  | pulseFire (n : Fin 8)
  /-- PULSE_END (R358): width_ns passes and the output returns to its inactive level. -/
  | pulseEnd (n : Fin 8)
  /-- CAPTURE_EDGE (R360): A chosen edge on a capture input is stamped with time and Tense position into the FIFO. -/
  | captureEdge (c : Fin 2) (rising : Bool)
  /-- CAPTURE_READ (R360): A read of CAP_c_TS_S takes the oldest entry out of the FIFO and latches it. -/
  | captureRead (c : Fin 2)
  /-- FLT_RELEASE (R371): FLT_DEV_CTRL.release leaves device safe state once reaction 3 bits are clear. -/
  | fltRelease (ecc : Bool)
  /-- ENGINE_HANG (R374): A partition engine's progress watchdog reaches hang_ms. -/
  | engineHang (p : Fin 16) (half : Fin 2) (unit : Fin 17) (e : Engine)
  /-- HUB_WATCHDOG (R373): A hub engine makes no progress for 10 ms. -/
  | hubWatchdog (ecc : Bool)
  /-- BRIDGE_FAIL (R373): A die-to-die bridge is lost. -/
  | bridgeFail (ecc : Bool)
  /-- CLK_FAULT (R392): A partition clock loses lock. -/
  | clkFault (p : Fin 16)
  /-- AUTO_RESET (R472): With auto_reset 1, firmware starts the partition reset within 10 µs of safe state. -/
  | autoReset (p : Fin 16)
  /-- PARTITION_RESET_DONE (R376): A partition reset completes its phases and the partition returns to service or search. -/
  | partitionResetDone (p : Fin 16) (f : Findings) (r : DdrRate)
  /-- TILE_RESET (R375): Firmware resets a tile's eight partitions, bridge and time copy together. -/
  | tileReset (t : Fin 2)
  /-- PARTITION_RETIRE (R377): PRT_CTRL.retire takes the partition out of service. -/
  | partitionRetire (p : Fin 16)
  /-- TWO_OUT_WAIT (R379): After a second partition goes out, the DECIDE or 2 ms passes and two_out enters device safe state. -/
  | twoOutWait
  /-- SUSPECT_RUN_END (R380): A suspect's re-run ends or hangs again, and the search moves on or ends. -/
  | suspectRunEnd (p : Fin 16) (hung : Bool)
  /-- REPLAY_MS (R380): replay_ms elapses on a suspect's re-run; the suspect is innocent. -/
  | replayMs (p : Fin 16)
  /-- VF_DISABLE (R385): Clearing VF Enable drains and destroys every context of the function. -/
  | vfDisable
  /-- VF_FLR (R385): A function level reset of a virtual function drains and destroys its contexts. -/
  | vfFlr (f : Fin 32)
  /-- CORE_SELFTEST_DONE (R387): A management core's self-test ends: active, standby, resync or offline. -/
  | coreSelftestDone (n : Fin 2) (pass : Bool)
  /-- CORE_RESYNC_DONE (R387): A resyncing core has the active core's state and becomes standby. -/
  | coreResyncDone (n : Fin 2)
  /-- COMPARATOR_COPY (R388): A management core's copy reaches the comparator and is paired, released or found mismatching. -/
  | comparatorCopy (n : Fin 2) (seq : BitVec 32) (m : Message) (selfOk : Bool)
  /-- SINGLE_COPY (R388): A copy without a partner after 20 µs is released alone. -/
  | singleCopy (seq : BitVec 32)
  /-- TAKEOVER (R389): No copy from the active core for 100 µs; the standby becomes active and resends. -/
  | takeover (acked : List (BitVec 32))
  /-- PAIR_SELFTEST_DONE (R390): The mismatch self-tests end and the held message is released or the device goes safe. -/
  | pairSelftestDone (ok0 ok1 : Bool)
  /-- CORE_OFFLINE (R395): MGMT_PAIR_CTRL.offline takes the addressed core offline. -/
  | coreOffline (n : Fin 2)
  /-- CORE_RETRY (R387): MGMT_PAIR_CTRL.retry returns an offline core to off and power-cycles it. -/
  | coreRetry (n : Fin 2)
  /-- STANDBY_SLICE (R391): A background self-test slice of the standby runs; a failure takes it offline. -/
  | standbySlice (ok passEnds : Bool)
  /-- CMP_HELD (R396): A message is held for more than 5 ms. -/
  | cmpHeld
  /-- SNAP_NOW (R398): DBG_SNAP_CTRL.now snapshots every counter slot of every page in service. -/
  | snapNow
  /-- SNAP_TIME (R398): The hub time reaches DBG_SNAP_T while armed and the device-wide snapshot is taken. -/
  | snapTime
  /-- EVENT_UPDATE (R404): The recorder serves a pending source and updates its record, trace entry and notice. -/
  | eventUpdate (ecc : Bool)
  /-- TOKEN_ADD (R405): Every 2^rate_log µs a code's bucket gains a token, up to burst. -/
  | tokenAdd (code : BitVec 12)
  /-- EVR_HOLD (R408): EVR_CTRL.hold holds updates for the two codes shown. -/
  | evrHold
  /-- EVR_HOLD_EXPIRE (R408): 10 µs of hold pass and the held updates are applied. -/
  | evrHoldExpire
  /-- EVR_CLEAR (R408): EVR_CTRL.clear zeroes the record at 0x800 and increments gen. -/
  | evrClear
  /-- EVR_CUR_WRITE (R408): A write of EVR_CUR selects the codes shown and ends any hold. -/
  | evrCurWrite (code : BitVec 12)
  /-- EVR_ADVANCE (R408): A read of offset 0x8F8 with auto 1 advances EVR_CUR.code by 2. -/
  | evrAdvance
  /-- GLOBAL_STOP (R410): DBG_STOP_CTRL.stop triggers the global stop wave, or is refused for a member. -/
  | globalStop
  /-- STOP_PIN (R460): A falling edge on STOP_N held 10 ns triggers the global stop. -/
  | stopPin
  /-- STOP_RESUME (R414): DBG_STOP_CTRL.resume unfreezes every frozen partition in wave order. -/
  | stopResume
  /-- SCAN_SELECT (R413): A write of DBG_SCAN_SEL selects a chain, restarts it and clears err. -/
  | scanSelect (part : Fin 16) (chain : BitVec 10)
  /-- SCAN_READ (R413): A read of DBG_SCAN_DATA returns the next 64 bits of the chain. -/
  | scanRead
  /-- KSCAN_SEL (R413): The TAP instruction KSCAN_SEL selects a partition and chain. -/
  | kscanSel (v : BitVec 16)
  /-- KSCAN_DATA (R413): The TAP instruction KSCAN_DATA shifts out the selected chain. -/
  | kscanData (n : Fin 65)
  /-- EXTEST (R413): The TAP instruction EXTEST drives the boundary chain. -/
  | extest (v : Word)
  /-- IDCODE (R461): The TAP instruction IDCODE shifts out 0x1D40_19AB. -/
  | idcode
  /-- SAMPLE_PRELOAD (R413): The TAP instruction SAMPLE/PRELOAD samples the boundary chain. -/
  | samplePreload (v : Word)
  /-- BYPASS (R413): The TAP instruction BYPASS, or any other code, selects the bypass register. -/
  | bypass (code : Byte) (n : Fin 65) (v : Word)
  /-- TAP_RESET (R461): TRST_N low for 50 ns resets the TAP. -/
  | tapReset
  /-- PACK_PUSH (R417): DBG_PACK_CTRL.push sends the staged pack in rack or pod scope. -/
  | packPush
  /-- PACK_DISCARD (R416): DBG_PACK_CTRL.discard discards the staged pack. -/
  | packDiscard
  /-- PACK (R417): A receiver stages pushed pack chunks, verifies the pack and answers PACKACK. -/
  | pack (h : FabHdr) (chunk total : BitVec 32) (digest : Word) (data : List Byte)
  /-- PACKACK (R417): A pack acknowledgement arrives and acks counts it. -/
  | packack (h : FabHdr) (digest : Word) (result : Byte)
  /-- PACK_RESEND (R417): A missing chunk is resent after 100 ms. -/
  | packResend (dst : BitVec 16) (chunk : BitVec 32)
  /-- PLAN_START (R422): Every period_h a margin plan starts. -/
  | planStart (p : Fin 16)
  /-- PLAN_NOW (R422): MON_CTRL.plan_now starts a margin plan. -/
  | planNow (p : Fin 16)
  /-- PLAN_COMPLETE (R423): A plan ends: table written, margin recorded, or partition retired. -/
  | planComplete (p : Fin 16) (r : PlanResult)
  /-- PLAN_LATE (R422): A plan not finished within 24 h is abandoned. -/
  | planLate (p : Fin 16)
  /-- MONITOR_SAMPLE (R420): Every 10 µs path-delay monitors and ring oscillators are sampled. -/
  | monitorSample (p : Fin 16) (slacks : List (BitVec 8)) (edges : List (BitVec 32))
  /-- NRG_READ (R429): A read of DEV_NRG_TOTAL latches the energy registers together. -/
  | nrgRead
  /-- PROG_READ (R435): A read of DEV_PROG_WALL latches the progress buckets together. -/
  | progRead
  /-- I3C_READ (R463): A private I3C read returns 8 bytes of the indexed status. -/
  | i3cRead (index : Byte)
  /-- ENTDAA (R463): The I3C CCC ENTDAA assigns a dynamic address. -/
  | entdaa (addr : BitVec 7)
  /-- SETDASA (R463): The I3C CCC SETDASA sets the dynamic address from the static address. -/
  | setdasa (static_ dynamic : BitVec 7)
  /-- RSTDAA (R463): The I3C CCC RSTDAA resets the dynamic address. -/
  | rstdaa
  /-- GETPID (R463): The I3C CCC GETPID returns the provisioned ID. -/
  | getpid
  /-- GETBCR (R463): The I3C CCC GETBCR returns the bus characteristics register. -/
  | getbcr
  /-- GETDCR (R463): The I3C CCC GETDCR returns the device characteristics register. -/
  | getdcr
  /-- GETSTATUS (R463): The I3C CCC GETSTATUS returns the device status. -/
  | getstatus
  /-- DRAIN_REPORT_READ (R373): A read of FLT_DRAIN_W0 latches the drain report record at FLT_DRAIN_IDX.index so that later reads of FLT_DRAIN_W1 return it. -/
  | drainReportRead
  /-- PIN_ACK (R250): The partner's acknowledgement of a PIN reaches the source and sets MIR_PINn.partner_held. -/
  | pinAck (h : FabHdr) (job : BitVec 32) (step : BitVec 40) (slot : Fin 2)
  /-- AGENT_RESET_TIMEOUT (R375): An agent port is not up within 400 ms of an agent reset, and agent_link_lost is raised so that R307 applies. -/
  | agentResetTimeout (a : Fin 8)
  deriving DecidableEq, Repr

end Sys2Proof
end

