-- ==== Sys2Proof/Machine/Float.lean ====
section
/-! DEFINITION. Exact numbers and the number formats of "Arithmetic" (R118 to R124, R464): decoding an encoding,
exact sums and products, rounding and conversion, block scaling. -/

namespace Sys2Proof.Machine

/-- An exact number: a NaN, an infinity, or (-1)^neg · m · 2^e. A mantissa of 0 is the zero of its sign. -/
inductive Num where
  | nan
  | inf (neg : Bool)
  | fin (neg : Bool) (m : Nat) (e : Int)
  deriving DecidableEq, Repr

/-- +0. -/
def Num.zero : Num := .fin false 0 0

/-- A natural number as an exact number. -/
def Num.ofNat (n : Nat) : Num := .fin false n 0

/-- An integer as an exact number; 0 is +0. -/
def Num.ofInt (i : Int) : Num := .fin (i < 0) i.natAbs 0

/-- The value (-1)^neg · m · 2^e as an integer count of 2^q, for q at most e. -/
def scaled (neg : Bool) (m : Nat) (e q : Int) : Int :=
  let v : Int := (m * 2 ^ (e - q).toNat : Nat)
  if neg then -v else v

/-- The sum of two finite values, exactly; the sign of a zero sum is that of IEEE 754 for the modes of R123 (R127). -/
def finAdd (na : Bool) (ma : Nat) (ea : Int) (nb : Bool) (mb : Nat) (eb : Int) : Num :=
  if ma = 0 ∧ mb = 0 then .fin (na && nb) 0 0
  else if ma = 0 then .fin nb mb eb
  else if mb = 0 then .fin na ma ea
  else
    let q := min ea eb
    let s := scaled na ma ea q + scaled nb mb eb q
    .fin (s < 0) s.natAbs q

/-- Exact addition (R126, R127). -/
def Num.add : Num → Num → Num
  | .nan, _ => .nan
  | _, .nan => .nan
  | .inf a, .inf b => if a = b then .inf a else .nan
  | .inf a, .fin .. => .inf a
  | .fin .., .inf b => .inf b
  | .fin na ma ea, .fin nb mb eb => finAdd na ma ea nb mb eb

/-- The negation (R150 op 0x08). -/
def Num.neg : Num → Num
  | .nan => .nan
  | .inf a => .inf (!a)
  | .fin n m e => .fin (!n) m e

/-- Exact multiplication; 0 × ∞ is NaN (R127). -/
def Num.mul : Num → Num → Num
  | .nan, _ => .nan
  | _, .nan => .nan
  | .inf a, .inf b => .inf (a != b)
  | .inf a, .fin n m _ => if m = 0 then .nan else .inf (a != n)
  | .fin n m _, .inf b => if m = 0 then .nan else .inf (n != b)
  | .fin na ma ea, .fin nb mb eb => .fin (na != nb) (ma * mb) (ea + eb)

/-- The magnitude. -/
def Num.abs : Num → Num
  | .nan => .nan
  | .inf _ => .inf false
  | .fin _ m e => .fin false m e

/-- Multiplication by 2^k, exact. -/
def Num.scale (v : Num) (k : Int) : Num :=
  match v with
  | .fin n m e => .fin n m (e + k)
  | w => w

/-- Whether the number is a NaN. -/
def Num.isNan : Num → Bool
  | .nan => true
  | _ => false

/-- Whether the number is an infinity. -/
def Num.isInf : Num → Bool
  | .inf _ => true
  | _ => false

/-- Whether the number is a zero of either sign. -/
def Num.isZero : Num → Bool
  | .fin _ m _ => m == 0
  | _ => false

/-- The sign of the number; a NaN has none. -/
def Num.sign : Num → Bool
  | .nan => false
  | .inf n => n
  | .fin n _ _ => n

/-- a < b for two numbers neither of which is a NaN; the zeros are equal. -/
def Num.lt : Num → Num → Bool
  | .nan, _ => false
  | _, .nan => false
  | .inf a, .inf b => a && !b
  | .inf a, .fin .. => a
  | .fin .., .inf b => !b
  | .fin na ma ea, .fin nb mb eb =>
    let q := min ea eb
    scaled na ma ea q < scaled nb mb eb q

/-- a = b in value, for two numbers neither of which is a NaN. -/
def Num.eqv (a b : Num) : Bool :=
  !a.isNan && !b.isNan && !a.lt b && !b.lt a

/-- The larger of two numbers: NaN when either is, and +0 above −0 (R150). -/
def Num.max (a b : Num) : Num :=
  if a.isNan || b.isNan then .nan
  else if a.lt b then b
  else if b.lt a then a
  else if a.sign then b else a

/-- The smaller of two numbers: NaN when either is, and −0 below +0 (R150). -/
def Num.min (a b : Num) : Num :=
  if a.isNan || b.isNan then .nan
  else if a.lt b then a
  else if b.lt a then b
  else if a.sign then a else b

/-- What the top exponent of a format encodes (R119). -/
inductive Top where
  | ieee
  | e4m3
  | finite
  deriving DecidableEq, Repr

/-- A floating-point format of R118: field widths, bias and the use of the top exponent. -/
structure FloatFmt where
  ebits : Nat
  mbits : Nat
  bias : Nat
  top : Top
  deriving DecidableEq, Repr

/-- FP32 (R118). -/
def fp32 : FloatFmt := ⟨8, 23, 127, .ieee⟩
/-- FP19, E8M10 (R118). -/
def fp19 : FloatFmt := ⟨8, 10, 127, .ieee⟩
/-- BF16 (R118). -/
def bf16 : FloatFmt := ⟨8, 7, 127, .ieee⟩
/-- FP16 (R118). -/
def fp16 : FloatFmt := ⟨5, 10, 15, .ieee⟩
/-- FP8 E4M3 (R118). -/
def fp8e4m3 : FloatFmt := ⟨4, 3, 7, .e4m3⟩
/-- FP8 E5M2 (R118). -/
def fp8e5m2 : FloatFmt := ⟨5, 2, 15, .ieee⟩
/-- FP6 E3M2 (R118). -/
def fp6e3m2 : FloatFmt := ⟨3, 2, 3, .finite⟩
/-- FP6 E2M3 (R118). -/
def fp6e2m3 : FloatFmt := ⟨2, 3, 1, .finite⟩
/-- FP4 E2M1 (R118). -/
def fp4e2m1 : FloatFmt := ⟨2, 1, 1, .finite⟩

/-- The largest unbiased exponent of a finite number of the format (R118, R119). -/
def FloatFmt.emax (F : FloatFmt) : Int :=
  match F.top with
  | .ieee => (2 ^ F.ebits - 2 : Nat) - (F.bias : Int)
  | _ => (2 ^ F.ebits - 1 : Nat) - (F.bias : Int)

/-- The largest finite magnitude, as a mantissa and an exponent (R118). -/
def FloatFmt.largest (F : FloatFmt) : Nat × Int :=
  match F.top with
  | .e4m3 => (2 ^ (F.mbits + 1) - 2, F.emax - F.mbits)
  | _ => (2 ^ (F.mbits + 1) - 1, F.emax - F.mbits)

/-- The unbiased exponent of the smallest normal (R118). -/
def FloatFmt.emin (F : FloatFmt) : Int := 1 - (F.bias : Int)

/-- The number an encoding of the format stands for (R118, R119). -/
def FloatFmt.decode (F : FloatFmt) (bits : Nat) : Num :=
  let s := bits / 2 ^ (F.ebits + F.mbits) % 2 == 1
  let ex := bits / 2 ^ F.mbits % 2 ^ F.ebits
  let mn := bits % 2 ^ F.mbits
  if F.top == .ieee && ex == 2 ^ F.ebits - 1 then
    (if mn == 0 then .inf s else .nan)
  else if F.top == .e4m3 && ex == 2 ^ F.ebits - 1 && mn == 2 ^ F.mbits - 1 then .nan
  else if ex == 0 then .fin s mn (F.emin - F.mbits)
  else .fin s (2 ^ F.mbits + mn) ((ex : Int) - F.bias - F.mbits)

/-- The canonical NaN the controller writes (R119); formats with no NaN have none and give 0. -/
def FloatFmt.canonicalNan (F : FloatFmt) : Nat :=
  match F.top with
  | .ieee => (2 ^ F.ebits - 1) * 2 ^ F.mbits + 2 ^ (F.mbits - 1)
  | .e4m3 => 2 ^ (F.ebits + F.mbits) - 1
  | .finite => 0

/-- FP8 E5M2 writes 0x7E as its canonical NaN, as the general rule gives (R119). -/
theorem canonicalNan_e5m2 : fp8e5m2.canonicalNan = 0x7E := by decide

/-- m · 2^k, rounded down. -/
def shift (m : Nat) (k : Int) : Nat := if 0 ≤ k then m * 2 ^ k.toNat else m / 2 ^ (-k).toNat

/-- The encoding of a number that the format represents: the inverse of `decode` on representable numbers (R118). -/
def FloatFmt.encode (F : FloatFmt) (v : Num) : Nat :=
  let sb (n : Bool) : Nat := if n then 2 ^ (F.ebits + F.mbits) else 0
  match v with
  | .nan => F.canonicalNan
  | .inf n => sb n + (2 ^ F.ebits - 1) * 2 ^ F.mbits
  | .fin n m e =>
    if m = 0 then sb n
    else
      let E := (m.log2 : Int) + e
      if E < F.emin then
        sb n + shift m (e - (F.emin - F.mbits))
      else
        let q := E - F.mbits
        let k := shift m (e - q)
        sb n + (E + F.bias).toNat * 2 ^ F.mbits + k % 2 ^ F.mbits

/-- The rounding modes of R123, and rounding towards +∞ (R134, R158). -/
inductive Round where
  | rne
  | rtz
  | rna
  | up
  deriving DecidableEq, Repr

/-- The rounding mode of a code of R123; code 3 is not installed (R130). -/
def Round.ofCode : Nat → Round
  | 1 => .rtz
  | 2 => .rna
  | _ => .rne

/-- The magnitude m · 2^e rounded to an integer count of 2^q. -/
def roundMag (mode : Round) (neg : Bool) (m : Nat) (e q : Int) : Nat :=
  if q ≤ e then m * 2 ^ (e - q).toNat
  else
    let sh := (q - e).toNat
    let n := m / 2 ^ sh
    let r := m % 2 ^ sh
    let up : Bool :=
      match mode with
      | .rne => decide (2 ^ sh < 2 * r) || (decide (2 * r = 2 ^ sh) && n % 2 == 1)
      | .rtz => false
      | .rna => decide (2 ^ sh ≤ 2 * r)
      | .up => decide (0 < r) && !neg
    if up then n + 1 else n

/-- Conversion of an exact value to a floating-point format (R124): rounding, flushing before rounding, and the
treatment of values beyond the largest finite one. -/
def convert (F : FloatFmt) (mode : Round) (ftz sat : Bool) (v : Num) : Num :=
  let big := F.largest
  match v with
  | .nan => .nan
  | .inf n =>
    match F.top with
    | .ieee => .inf n
    | .e4m3 => if sat then .fin n big.1 big.2 else .nan
    | .finite => .fin n big.1 big.2
  | .fin n m e =>
    if m = 0 then .fin n 0 0
    else
      let E := (m.log2 : Int) + e
      if ftz && decide (E < F.emin) then .fin n 0 0
      else
        let q := Max.max (E - F.mbits) (F.emin - F.mbits)
        let k := roundMag mode n m e q
        let tooBig := (Num.fin false big.1 big.2).lt (.fin false k q)
        if tooBig then
          if sat || F.top == .finite then .fin n big.1 big.2
          else match mode with
            | .rtz => .fin n big.1 big.2
            | .up => if n then .fin n big.1 big.2 else (if F.top == .e4m3 then .nan else .inf n)
            | _ => if F.top == .e4m3 then .nan else .inf n
        else if k = 0 then .fin n 0 0
        else .fin n k q

/-- An exact value rounded to an integer (R464, R122 step 5). -/
def roundInt (mode : Round) (n : Bool) (m : Nat) (e : Int) : Int :=
  let k : Int := (roundMag mode n m e 0 : Nat)
  if n then -k else k

/-- An integer clamped to a range. -/
def clampInt (lo hi i : Int) : Int := Max.max lo (Min.min hi i)

/-- Conversion of an exact value to INT8 (R464). -/
def convertInt8 (mode : Round) : Num → Int
  | .nan => 0
  | .inf n => if n then -128 else 127
  | .fin n m e => clampInt (-128) 127 (roundInt mode n m e)

/-- A subnormal of the format flushed to the zero of its sign, when asked (R124). -/
def flushIn (F : FloatFmt) (ftz : Bool) (v : Num) : Num :=
  match v with
  | .fin n m e => if ftz && m != 0 && decide ((m.log2 : Int) + e < F.emin) then .fin n 0 0 else v
  | w => w

/-- The format codes of R105. -/
inductive Fmt where
  | fp32 | bf16 | fp16 | fp19 | e4m3 | e5m2 | int8
  | mx8e4m3 | mx8e5m2 | mx6e3m2 | mx6e2m3 | mx4 | mxint8
  deriving DecidableEq, Repr

/-- The format of a code of R105; 0xD to 0xF are reserved. -/
def Fmt.ofCode : Nat → Option Fmt
  | 0x0 => some .fp32
  | 0x1 => some .bf16
  | 0x2 => some .fp16
  | 0x3 => some .fp19
  | 0x4 => some .e4m3
  | 0x5 => some .e5m2
  | 0x6 => some .int8
  | 0x7 => some .mx8e4m3
  | 0x8 => some .mx8e5m2
  | 0x9 => some .mx6e3m2
  | 0xA => some .mx6e2m3
  | 0xB => some .mx4
  | 0xC => some .mxint8
  | _ => none

/-- The code of a format (R105). -/
def Fmt.code : Fmt → Nat
  | .fp32 => 0x0 | .bf16 => 0x1 | .fp16 => 0x2 | .fp19 => 0x3 | .e4m3 => 0x4 | .e5m2 => 0x5 | .int8 => 0x6
  | .mx8e4m3 => 0x7 | .mx8e5m2 => 0x8 | .mx6e3m2 => 0x9 | .mx6e2m3 => 0xA | .mx4 => 0xB | .mxint8 => 0xC

/-- Whether the format carries block scales (R121). -/
def Fmt.isMx : Fmt → Bool
  | .mx8e4m3 | .mx8e5m2 | .mx6e3m2 | .mx6e2m3 | .mx4 | .mxint8 => true
  | _ => false

/-- The floating-point layout of a format's elements; the integer formats have none (R118, R120). -/
def Fmt.float? : Fmt → Option FloatFmt
  | .fp32 => some Machine.fp32
  | .bf16 => some Machine.bf16
  | .fp16 => some Machine.fp16
  | .fp19 => some Machine.fp19
  | .e4m3 | .mx8e4m3 => some Machine.fp8e4m3
  | .e5m2 | .mx8e5m2 => some Machine.fp8e5m2
  | .mx6e3m2 => some Machine.fp6e3m2
  | .mx6e2m3 => some Machine.fp6e2m3
  | .mx4 => some Machine.fp4e2m1
  | .int8 | .mxint8 => none

/-- Bits of one stored element (R120). -/
def Fmt.bits : Fmt → Nat
  | .fp32 | .fp19 => 32
  | .bf16 | .fp16 => 16
  | .mx6e3m2 | .mx6e2m3 => 6
  | .mx4 => 4
  | _ => 8

/-- Bytes of a row of n elements; a row starts on a byte boundary (R120, R160). -/
def Fmt.rowBytes (f : Fmt) (n : Nat) : Nat := (n * f.bits + 7) / 8

/-- A byte as a two's-complement integer. -/
def signed8 (b : Nat) : Int := if 128 ≤ b % 256 then (b % 256 : Nat) - (256 : Int) else (b % 256 : Nat)

/-- An integer as a byte of two's complement. -/
def byteOfInt (i : Int) : Nat := (i % 256).toNat

/-- An integer as a 32-bit word of two's complement. -/
def wordOfInt (i : Int) : Nat := (i % 4294967296).toNat

/-- A 32-bit word as a two's-complement integer. -/
def signed32 (w : Nat) : Int :=
  if 2147483648 ≤ w % 4294967296 then (w % 4294967296 : Nat) - (4294967296 : Int) else (w % 4294967296 : Nat)

/-- The number a stored element stands for, before any block scale (R118 to R120). FP19 ignores bits [12:0]. -/
def Fmt.decodeElem (f : Fmt) (raw : Nat) : Num :=
  match f with
  | .fp19 => Machine.fp19.decode (raw / 2 ^ 13)
  | .int8 => Num.ofInt (signed8 raw)
  | .mxint8 => (Num.ofInt (signed8 raw)).scale (-6)
  | g => match g.float? with
    | some F => F.decode raw
    | none => .nan

/-- The stored bits of a number the format represents (R118 to R120). FP19 writes bits [12:0] as zero. -/
def Fmt.encodeElem (f : Fmt) (v : Num) : Nat :=
  match f with
  | .fp19 => (match v with
      | .nan => 0x7FC00000
      | w => Machine.fp19.encode w * 2 ^ 13)
  | .int8 => byteOfInt (convertInt8 .rne v)
  | .mxint8 => byteOfInt (convertInt8 .rne (v.scale 6))
  | g => match g.float? with
    | some F => F.encode v
    | none => 0

/-- A number times its block scale 2^(scale − 127); scale 0xFF decodes as NaN (R121). -/
def applyScale (v : Num) (scale : Nat) : Num :=
  if scale = 255 then .nan else v.scale ((scale : Int) - 127)

/-- The exponent emax of the block-scale choice (R122 step 3). -/
def Fmt.scaleEmax : Fmt → Int
  | .mx4 | .mx6e2m3 => 2
  | .mx6e3m2 => 4
  | .mx8e4m3 => 8
  | .mx8e5m2 => 15
  | _ => 0

/-- The largest finite value of an MX element format, as a number (R118). -/
def Fmt.elemLargest (f : Fmt) : Num :=
  match f.float? with
  | some F => .fin false F.largest.1 F.largest.2
  | none => .fin false 127 (-6)

/-- The largest magnitude of a list of finite numbers. -/
def maxMag (vs : List Num) : Num := vs.foldl (fun a v => Num.max a v.abs) Num.zero

/-- The scale exponent of a block whose largest magnitude is A ≠ 0, before clamping (R122 step 3). -/
def blockExp (f : Fmt) (mxCeil : Bool) (A : Num) : Int :=
  match A with
  | .fin _ m e =>
    let x0 := (m.log2 : Int) + e - f.scaleEmax
    if mxCeil then
      -- the smallest x with A · 2^-x at most the largest finite value lies within one of x0
      if !(f.elemLargest.lt (A.scale (-(x0 - 1)))) then x0 - 1
      else if !(f.elemLargest.lt (A.scale (-x0))) then x0
      else x0 + 1
    else x0
  | _ => 0

/-- An MX element of a value already divided by the block scale (R122 steps 4 and 5). -/
def mxElem (f : Fmt) (mode : Round) (ftz : Bool) (v : Num) : Nat :=
  match f.float? with
  | some F => F.encode (convert F mode ftz true v)
  | none => match v with
    | .fin n m e => byteOfInt (clampInt (-127) 127 (roundInt mode n m (e + 6)))
    | _ => 0

/-- One block of an MX tensor: its scale byte and the stored elements (R122). -/
def mxBlock (f : Fmt) (mode : Round) (ftz mxCeil : Bool) (vs : List Num) : Nat × List Nat :=
  if vs.any (fun v => v.isNan || v.isInf) then (0xFF, vs.map (fun _ => 0))
  else
    let A := maxMag vs
    if A.isZero then (0x7F, vs.map (fun _ => 0))
    else
      let x := clampInt (-127) 127 (blockExp f mxCeil A)
      ((x + 127).toNat, vs.map (fun v => mxElem f mode ftz (v.scale (-x))))

end Sys2Proof.Machine
end

