-- ==== Sys2Proof/Machine/Matrix.lean ====
section
/-! DEFINITION. Arithmetic profiles and matrix arithmetic (R125 to R131, R133, R140), tensors in memory (R104, R120,
R121, R146), delayed scaling (R135) and the remainder stages (R137, R138). Nothing here touches the machine's state:
memory is read through a function from an address to a byte. -/

namespace Sys2Proof.Machine

/-- Bits [lo + w − 1 : lo] of a number. -/
def bits (lo w n : Nat) : Nat := n / 2 ^ lo % 2 ^ w

/-- Bit i of a number. -/
def bitAt (i n : Nat) : Bool := n / 2 ^ i % 2 == 1

/-- 1 for true, 0 for false. -/
def b2n (b : Bool) : Nat := if b then 1 else 0

/-- An arithmetic profile: the fields of DEV_PROF_W0 and DEV_PROF_W1 (R130). -/
structure Profile where
  family : Nat
  famVersion : Nat
  chunkLog2 : Nat
  chunkMode : Nat
  accRound : Nat
  outRound : Nat
  inFtz : Bool
  accFtz : Bool
  outFtz : Bool
  sat : Bool
  nanEq : Bool
  intAcc : Bool
  mxCeil : Bool
  mode : Nat
  ulp : Nat
  fmtMask : Nat
  deriving DecidableEq, Repr

/-- The profile a pair of words W0, W1 spells; mode 3 acts as 0 (R130). -/
def Profile.ofWords (w0 w1 : Nat) : Profile where
  family := bits 48 16 w0
  famVersion := bits 40 8 w0
  chunkLog2 := bits 32 4 w0
  chunkMode := bits 30 2 w0
  accRound := bits 28 2 w0
  outRound := bits 26 2 w0
  inFtz := bitAt 25 w0
  accFtz := bitAt 24 w0
  outFtz := bitAt 23 w0
  sat := bitAt 22 w0
  nanEq := bitAt 21 w0
  intAcc := bitAt 20 w0
  mxCeil := bitAt 19 w0
  mode := if bits 62 2 w1 = 3 then 0 else bits 62 2 w1
  ulp := bits 48 8 w1
  fmtMask := bits 0 16 w1

/-- Whether an install of the two words is refused with 0x02 (R130): chunk length, chunk mode, rounding or a reserved
format code out of range. -/
def profileOutOfRange (w0 w1 : Nat) : Bool :=
  let p := Profile.ofWords w0 w1
  decide (p.chunkLog2 < 4) || decide (6 < p.chunkLog2) || decide (1 < p.chunkMode) || p.accRound == 3
    || p.outRound == 3 || bits 13 3 p.fmtMask != 0

/-- Word 0 of a built-in entry: RNE, chunk length 32 (R131). -/
def builtinW0 (chunkMode : Nat) (ftz sat : Bool) : Nat :=
  5 * 2 ^ 32 + chunkMode * 2 ^ 30 + b2n ftz * (2 ^ 25 + 2 ^ 24 + 2 ^ 23) + b2n sat * 2 ^ 22

/-- Word 1 of a built-in entry: bit-exact, every format code 0x0 to 0xC (R131). -/
def builtinW1 : Nat := 2 ^ 62 + 0x1FFF

/-- The built-in entries 0 to 15 (R131); 4 to 15 read mode 0, with chunk_log2 at its reset value. -/
def builtinProfile (i : Nat) : Nat × Nat :=
  match i with
  | 0 => (builtinW0 0 false false, builtinW1)
  | 1 => (builtinW0 0 false true, builtinW1)
  | 2 => (builtinW0 0 true true, builtinW1)
  | 3 => (builtinW0 1 false false, builtinW1)
  | _ => (5 * 2 ^ 32, 0)

/-- Conversion under the accumulator rules: FP32, acc_round, acc_denorm_ftz, no saturation (R124, R138). -/
def roundAcc (p : Profile) (v : Num) : Num := convert fp32 (Round.ofCode p.accRound) p.accFtz false v

/-- Conversion of a value to a floating-point format under the output rules (R124). -/
def convertOut (p : Profile) (F : FloatFmt) (v : Num) : Num :=
  convert F (Round.ofCode p.outRound) p.outFtz p.sat v

/-- A list cut into pieces of n. -/
def chunksOf {α : Type} (n : Nat) : Nat → List α → List (List α)
  | 0, _ => []
  | _, [] => []
  | fuel + 1, l => l.take n :: chunksOf n fuel (l.drop n)

/-- The exact sum of a chunk's terms (R127): a zero sum is −0 only when every term is −0. -/
def exactSum : List Num → Num
  | [] => Num.zero
  | t :: ts => ts.foldl Num.add t

/-- One chunk of R126: an exact sum rounded once, or sequential fused additions. -/
def chunkSum (p : Profile) (ts : List Num) : Num :=
  if p.chunkMode = 0 then roundAcc p (exactSum ts)
  else ts.foldl (fun s t => roundAcc p (s.add t)) Num.zero

/-- The accumulator of an output element: chunks of 2^chunk_log2 terms, left to right (R126). -/
def accumulate (p : Profile) (acc0 : Num) (ts : List Num) : Num :=
  (chunksOf (2 ^ p.chunkLog2) ts.length ts).foldl (fun a c => roundAcc p (a.add (chunkSum p c))) acc0

/-- The accumulator of a legacy-exact MAT: products rounded by RTZ, chunks of 16 added by RTZ, chunk sums added by
RNE, subnormals flushed after every addition (R140). -/
def accumulateLegacy (acc0 : Num) (ts : List Num) : Num :=
  (chunksOf 16 ts.length ts).foldl
    (fun a c => convert fp32 .rne true false
      (a.add (c.foldl (fun s t => convert fp32 .rtz true false (s.add (convert fp32 .rtz false false t))) Num.zero)))
    acc0

/-- A MAT's integer result, saturated once (R128). -/
def saturate32 (i : Int) : Int := clampInt (-2147483648) 2147483647 i

/-- The body of a MAT (R104). -/
structure MatBody where
  a : Nat
  b : Nat
  c : Nat
  k : Nat
  n : Nat
  m : Nat
  legacy : Bool
  transB : Bool
  transA : Bool
  acc : Bool
  tile : Nat
  fmtC : Nat
  fmtB : Nat
  fmtA : Nat
  aScale : Nat
  bScale : Nat
  ftqOut : Bool
  deriving DecidableEq, Repr

/-- A descriptor: its eight words (R103). -/
abbrev Desc := List Nat

/-- Word i of a descriptor or body; words that are not given are zero. -/
def wd (d : List Nat) (i : Nat) : Nat := d.getD i 0

/-- The MAT body of a descriptor (R103, R104). -/
def MatBody.ofDesc (d : Desc) : MatBody where
  a := wd d 1
  b := wd d 2
  c := wd d 3
  k := bits 32 32 (wd d 4)
  n := bits 16 16 (wd d 4)
  m := bits 0 16 (wd d 4)
  legacy := bitAt 19 (wd d 5)
  transB := bitAt 18 (wd d 5)
  transA := bitAt 17 (wd d 5)
  acc := bitAt 16 (wd d 5)
  tile := bits 12 4 (wd d 5)
  fmtC := bits 8 4 (wd d 5)
  fmtB := bits 4 4 (wd d 5)
  fmtA := bits 0 4 (wd d 5)
  aScale := wd d 6
  bScale := wd d 7
  ftqOut := bitAt 1 (wd d 0)

/-- Whether a MAT accepts the pair of input formats with the format of C (R125); with ftq_out the format of C is
ignored (R143). Under legacy-exact mode MX formats and FP19 are refused and an INT8 result is INT32 (R140). -/
def matFormatsOk (p : Profile) (d : MatBody) : Bool :=
  match Fmt.ofCode d.fmtA, Fmt.ofCode d.fmtB with
  | some fa, some fb =>
    let c := d.fmtC
    let fp := [0x0, 0x1, 0x2]
    let cOk (l : List Nat) : Bool := d.ftqOut || l.contains c
    let mxf : Fmt → Bool := fun f => f.isMx && f != .mxint8
    let fp8 : Fmt → Bool := fun f => f == .e4m3 || f == .e5m2
    if d.legacy && (fa.isMx || fb.isMx || fa == .fp19 || fb == .fp19) then false
    else if mxf fa && mxf fb then cOk [0x0, 0x3, 0x1, 0x2, 0x7, 0x8, 0x9, 0xA, 0xB]
    else if fa == .mxint8 && fb == .mxint8 then cOk fp
    else if fp8 fa && fp8 fb then cOk (if d.legacy then [0x0, 0x1, 0x2, 0x4, 0x5] else [0x0, 0x3, 0x1, 0x2, 0x4, 0x5])
    else if fa == .int8 && fb == .int8 then
      (if d.legacy then cOk [0x6] else if p.intAcc then cOk [0x6] else cOk [0x0])
    else if (fa == .bf16 && fb == .bf16) || (fa == .fp16 && fb == .fp16) then cOk fp
    else if fa == .fp19 && fb == .fp19 then cOk [0x0, 0x3, 0x1]
    else if fa == .fp32 && fb == .fp32 then cOk [0x0]
    else false
  | _, _ => false

/-- The error code a MAT ends with before it issues, if any (R104, R121, R125, R129, R130, R140); where both 0x07 and 0x06 apply, the order
is the model's (log entry 54). -/
def matError (p : Profile) (d : MatBody) : Option Nat :=
  if d.m = 0 ∨ d.n = 0 ∨ d.k = 0 then some 0x07
  else if 4 < d.tile then some 0x07
  else if p.mode = 0 then some 0x06
  else if !(bitAt d.fmtA p.fmtMask && bitAt d.fmtB p.fmtMask) then some 0x06
  else if !matFormatsOk p d then some 0x06
  else match Fmt.ofCode d.fmtA, Fmt.ofCode d.fmtB, Fmt.ofCode d.fmtC with
    | some fa, some fb, fc =>
      if (fa.isMx || fb.isMx) && d.k % 32 != 0 then some 0x07
      else if !d.ftqOut && (fc.map Fmt.isMx).getD false && d.n % 32 != 0 then some 0x07
      else none
    | _, _, _ => some 0x06

/-- Reads w bits at a bit offset from a byte address, little-endian (R120). -/
def readBits (rd : Nat → Nat) (base bitOff w : Nat) : Nat :=
  let a := base + bitOff / 8
  let raw := rd a + rd (a + 1) * 2 ^ 8 + rd (a + 2) * 2 ^ 16 + rd (a + 3) * 2 ^ 24 + rd (a + 4) * 2 ^ 32
  bits (bitOff % 8) w raw

/-- Element (row, col) of a stored tensor with the given row length, before block scaling (R120, R160). -/
def loadElem (rd : Nat → Nat) (f : Fmt) (base rowLen row col : Nat) : Num :=
  f.decodeElem (readBits rd (base + row * f.rowBytes rowLen) (col * f.bits) f.bits)

/-- An input element flushed when in_denorm_ftz is 1 (R124); of an MX element the encoding before its block scale decides (log entry
54). -/
def flushElem (f : Fmt) (ftz : Bool) (v : Num) : Num :=
  match f.float? with
  | some F => flushIn F ftz v
  | none => v

/-- Element k of row i of a MAT's A or of column i of its B: the stored place follows the transposition, the block scale
does not (R104, R121). -/
def matOperand (rd : Nat → Nat) (ftz : Bool) (f : Fmt) (base scale : Nat) (alongK : Bool) (len K i k : Nat) : Num :=
  let raw := if alongK then loadElem rd f base K i k else loadElem rd f base len k i
  let v := flushElem f ftz raw
  if f.isMx then applyScale v (rd (scale + i * (K / 32) + k / 32)) else v

/-- The address of the scales that follow an MX tensor's elements (R125, R146). -/
def scaleBase (base rows rowBytes : Nat) : Nat := (base + rows * rowBytes + 63) / 64 * 64

/-- Element (i, j) of a tensor laid out as R146 lays it out, its MX scales after its elements. -/
def loadTensor (rd : Nat → Nat) (f : Fmt) (ftz : Bool) (base rows n i j : Nat) : Num :=
  let v := flushElem f ftz (loadElem rd f base n i j)
  if f.isMx then applyScale v (rd (scaleBase base rows (f.rowBytes n) + i * (n / 32) + j / 32)) else v

/-- A result tile or tensor: exact numbers, or 32-bit integers (R125 code 0x6, R128). -/
inductive Cell where
  | num (v : Num)
  | int (i : Int)
  deriving DecidableEq, Repr

/-- Whether a MAT's results are 32-bit integers (R128, R140). -/
def matIsInt (p : Profile) (d : MatBody) : Bool :=
  d.fmtA == 0x6 && d.fmtB == 0x6 && (d.legacy || p.intAcc)

/-- The integer of an exact number that is one. -/
def Num.toInt : Num → Int
  | .fin n m e => (if n then -(shift m e : Int) else (shift m e : Int))
  | _ => 0

/-- A product of two INT8 elements: an integer, whose zero has no sign (R128). -/
def intTerm (v : Num) : Num := Num.ofInt v.toInt

/-- The products of row i of A and column j of B, exact and in ascending k (R126, R128). -/
def matTerms (rd : Nat → Nat) (p : Profile) (d : MatBody) (i j : Nat) : List Num :=
  match Fmt.ofCode d.fmtA, Fmt.ofCode d.fmtB with
  | some fa, some fb =>
    let ftz := d.legacy || p.inFtz
    (List.range d.k).map fun k =>
      let v := (matOperand rd ftz fa d.a d.aScale (!d.transA) d.m d.k i k).mul
        (matOperand rd ftz fb d.b d.bScale d.transB d.n d.k j k)
      if fa == .int8 && fb == .int8 then intTerm v else v
  | _, _ => []

/-- The accumulator of element (i, j) of a MAT (R126, R128, R140); C is read when acc is 1, as FP32 or INT32 when the
tile goes to the queue (R143). -/
def matAcc (rd : Nat → Nat) (p : Profile) (d : MatBody) (i j : Nat) : Cell :=
  let ts := matTerms rd p d i j
  if matIsInt p d then
    let c0 : Int := if d.acc then signed32 (readBits rd (d.c + (i * d.n + j) * 4) 0 32) else 0
    let s := ts.foldl (fun (a : Int) t => a + t.toInt) c0
    .int (if d.legacy then signed32 (wordOfInt s) else saturate32 s)
  else
    let fc := if d.ftqOut then some Fmt.fp32 else Fmt.ofCode d.fmtC
    let c0 := match d.acc, fc with
      | true, some f => loadTensor rd f d.legacy d.c d.m d.n i j
      | _, _ => Num.zero
    .num (if d.legacy then accumulateLegacy c0 ts else accumulate p c0 ts)

/-- The values of a row of a MAT's result. -/
def matRow (rd : Nat → Nat) (p : Profile) (d : MatBody) (i : Nat) : List Cell :=
  (List.range d.n).map (matAcc rd p d i)

/-- The values of a MAT's result, row by row, before conversion to the format of C (R126). -/
def matResult (rd : Nat → Nat) (p : Profile) (d : MatBody) : List (List Cell) :=
  (List.range d.m).map (matRow rd p d)

/-- An element that a failing core computes takes the value it yields (R86, R209). -/
def Cell.spoil (w : WrongElem) : Cell → Cell
  | .num _ => .num (.fin (decide (w.m < 0)) w.m.natAbs w.e)
  | .int _ => .int w.m

/-- A result with the elements that failing cores computed (R86, R209; log entry 38). -/
def spoilResult (wrong : List WrongElem) (cells : List (List Cell)) : List (List Cell) :=
  wrong.foldl (fun cells w => cells.modify w.row fun r => r.modify w.col (Cell.spoil w)) cells

/-- The profile's output rules as a legacy MAT uses them: RNE, saturating, flushing (R140). -/
def legacyOut (p : Profile) : Profile :=
  { p with outRound := 0, outFtz := true, sat := true }

/-- The number a cell holds; an integer is converted under the accumulator rules (R149). -/
def Cell.toNum (p : Profile) : Cell → Num
  | .num v => v
  | .int i => roundAcc p (Num.ofInt i)

/-- Bytes of a number, little-endian. -/
def leBytes : Nat → Nat → List Nat
  | 0, _ => []
  | k + 1, n => n % 256 :: leBytes k (n / 256)

/-- The codes of one row packed at w bits each, lowest first (R120). -/
def packRow (w : Nat) (codes : List Nat) : List Nat :=
  leBytes ((codes.length * w + 7) / 8) (codes.foldr (fun c acc => c % 2 ^ w + acc * 2 ^ w) 0)

/-- A row of values in the output format of a MAT or CHAIN: its element bytes and, for an MX format, its scale bytes
(R122, R124, R125, R464). -/
def storeRow (p : Profile) (f : Fmt) (asInt : Bool) (row : List Cell) : List Nat × List Nat :=
  if asInt then
    (packRow 32 (row.map fun c => match c with
      | .int i => wordOfInt i
      | .num _ => 0), [])
  else if f.isMx then
    let blocks := (chunksOf 32 row.length (row.map (Cell.toNum p))).map
      (mxBlock f (Round.ofCode p.outRound) p.outFtz p.mxCeil)
    (packRow f.bits (blocks.flatMap (·.2)), blocks.map (·.1))
  else
    let code (v : Num) : Nat :=
      match f with
      | .int8 => byteOfInt (convertInt8 (Round.ofCode p.outRound) v)
      | g => match g.float? with
        | some F => g.encodeElem (convertOut p F v)
        | none => 0
    (packRow f.bits (row.map fun c => code (c.toNum p)), [])

/-- Bytes to write: (address, byte) in order. -/
abbrev Writes := List (Nat × Nat)

/-- The bytes placed one after another from an address. -/
def placeBytes (a : Nat) (bs : List Nat) : Writes := bs.mapIdx fun i b => (a + i, b)

/-- The bytes of a tensor of rows laid out as R146 lays it out: element rows, then for an MX format the scales. -/
def storeTensor (p : Profile) (f : Fmt) (asInt : Bool) (base n : Nat) (rows : List (List Cell)) : Writes :=
  let rb := if asInt then 4 * n else f.rowBytes n
  let enc := rows.map (storeRow p f asInt)
  let elems := (enc.mapIdx fun i r => placeBytes (base + i * rb) r.1).flatten
  let sb := scaleBase base rows.length rb
  let scales := (enc.mapIdx fun i r => placeBytes (sb + i * (n / 32)) r.2).flatten
  elems ++ scales

/-- The bytes a MAT writes to C; wrong holds the elements that failing cores compute. A MAT with ftq_out writes nothing there (R125, R126, R143). -/
def matWrites (rd : Nat → Nat) (p : Profile) (d : MatBody) (wrong : List WrongElem) : Writes :=
  if d.ftqOut then []
  else
    let p' := if d.legacy then legacyOut p else p
    match Fmt.ofCode d.fmtC with
    | some f => storeTensor p' f (matIsInt p d) d.c d.n (spoilResult wrong (matResult rd p d))
    | none => []

/-- The output tiles of a MAT: rows and columns of the tile code (R104). -/
def tileDims : Nat → Nat × Nat
  | 0 => (64, 64)
  | 1 => (128, 128)
  | 2 => (128, 256)
  | 3 => (256, 128)
  | _ => (256, 256)

/-- The finished-tile queue entries an output tile occupies (R142). -/
def tileEntries : Nat → Nat
  | 0 => 1
  | 1 => 1
  | 2 => 2
  | 3 => 2
  | _ => 4

/-- Division rounded up. -/
def ceilDiv (a b : Nat) : Nat := (a + b - 1) / b

/-- How many output tiles an m × n result has (R104). -/
def tileCount (tile m n : Nat) : Nat := ceilDiv m (tileDims tile).1 * ceilDiv n (tileDims tile).2

/-- The order of a finite FP encoding for the distance of R133: its magnitude field, negated when the sign is 1. -/
def ordOf (width enc : Nat) : Int :=
  let mag : Int := (enc % 2 ^ (width - 1) : Nat)
  if bitAt (width - 1) enc then -mag else mag

/-- The outcome of comparing two elements: whether they agree, and the distance of two finite ones (R133). -/
structure Cmp where
  agree : Bool
  dist : Nat
  deriving DecidableEq, Repr

/-- Two elements of a floating-point format by their encodings (R133). -/
def compareFloat (p : Profile) (F : FloatFmt) (width a b : Nat) : Cmp :=
  let va := F.decode a
  let vb := F.decode b
  if va.isNan && vb.isNan then ⟨p.nanEq || a == b, 0⟩
  else if va.isNan || vb.isNan then ⟨false, 0⟩
  else if va.isInf || vb.isInf then ⟨a == b, 0⟩
  else
    let d := (ordOf width a - ordOf width b).natAbs
    if p.mode = 2 then ⟨decide (d ≤ p.ulp), d⟩ else ⟨a == b, 0⟩

/-- Two INT32 elements (R133): identical in mode 1, at most ulp apart in mode 2. -/
def compareInt (p : Profile) (a b : Int) : Cmp :=
  let d := (a - b).natAbs
  if p.mode = 2 then ⟨decide (d ≤ p.ulp), d⟩ else ⟨decide (a = b), 0⟩

/-- An exact value as its FP32 encoding by RNE, with no flush and no saturation (R133, MX outputs). -/
def asFp32 (v : Num) : Nat := fp32.encode (convert fp32 .rne false false v)

/-- A remainder element's stage result, exact (R137): the BF16 remainder of an FP8 weight, or E5M2 × 2^−rs. -/
def remValue (wfmt : Fmt) (rs : Nat) (r : Num) : Num :=
  if wfmt == .bf16 then r.scale (-(rs : Int)) else r

/-- A difference converted to the remainder format, always saturating (R138); NaN or infinite sources give +0. -/
def remConvert (p : Profile) (wfmt : Fmt) (rs : Nat) (d : Num) : Num :=
  let m := Round.ofCode p.outRound
  if wfmt == .bf16 then convert fp8e5m2 m p.outFtz true (d.scale rs) else convert bf16 m p.outFtz true d

/-- The weight format's layout for the remainder stages; only 0x1, 0x4 and 0x5 are weight formats (R137). -/
def weightFmt : Nat → Option (Fmt × FloatFmt)
  | 0x1 => some (.bf16, bf16)
  | 0x4 => some (.e4m3, fp8e4m3)
  | 0x5 => some (.e5m2, fp8e5m2)
  | _ => none

/-- split x → (w, r) (R138). -/
def splitStage (p : Profile) (wf : Fmt) (F : FloatFmt) (rs : Nat) (x : Num) : Num × Num :=
  let w := convertOut p F x
  if x.isNan || x.isInf then (w, Num.zero)
  else (w, remConvert p wf rs (roundAcc p (x.add w.neg)))

/-- merge-update (w, r, u) → (w′, r′) (R138). -/
def mergeStage (p : Profile) (wf : Fmt) (F : FloatFmt) (rs : Nat) (w r u : Num) : Num × Num :=
  let s := roundAcc p (w.add (remValue wf rs r))
  let t := roundAcc p (s.add u)
  let w' := convertOut p F t
  if t.isNan || t.isInf then (w', Num.zero)
  else (w', remConvert p wf rs (roundAcc p (t.add w'.neg)))

/-- join (w, r) → x (R138). -/
def joinStage (p : Profile) (wf : Fmt) (rs : Nat) (w r : Num) : Num :=
  roundAcc p (w.add (remValue wf rs r))

/-- A history entry holds an amax (R134): a finite BF16 value; NaN, infinity and 0xFFFF are none. -/
def histValid (h : Nat) : Bool := bits 7 8 h != 0xFF

/-- The scale exponent of delayed scaling (R134, R135): from the history, most recent entry first. -/
def delayedExp (win : Nat) (amaxRecent : Bool) (margin : Nat) (target : Fmt) (history : List Nat) (prev : Int) : Int :=
  let valid := ((history.take win).filter histValid).map fun h => bf16.decode h
  let A := if amaxRecent then valid.head? else (match valid with
    | [] => none
    | v :: vs => some (vs.foldl Num.max v))
  match A, target.elemLargest with
  | some (.fin _ m e), .fin _ mF eF =>
    if m = 0 then prev
    else
      let eA := (m.log2 : Int) + e
      let eFx := (mF.log2 : Int) + eF
      -- mF < mA for the mantissas in [1, 2)
      let less := (Num.fin false mF (eF - eFx)).lt (.fin false m (e - eA))
      clampInt (-127) 127 (eFx - eA - margin - (if less then 1 else 0))
  | _, _ => prev

end Sys2Proof.Machine
end

