-- ==== Sys2Proof/Machine/State.lean ====
section
/-! DEFINITION. The state of one DNT1 controller and its eight Pliette agents, as plain data, and the machine right
after reset. Registers are a sparse table of fields: a field that is not listed reads its reset value (log entry 3);
tables that software sees only through a window are typed records. -/

namespace Sys2Proof.Machine

/-- A table from a number to a value; a number that is not listed has the table's own default. -/
abbrev Tab (α : Type) := List (Nat × α)

/-! ### Registers -/

/-- A register field: the address of its register, its lowest bit, its width and its value at reset (R20, R22).
Addresses are those of the controller's register space; agent n's space of R165 lies at 0x100_0000 × (n + 1), and
virtual function f's BAR0 of R40 at 0x1000_0000 + f × 0x1_0000. -/
structure Fld where
  addr : Nat
  lo : Nat
  w : Nat
  rst : Nat
  deriving DecidableEq, Repr

/-- The access types of R31. -/
inductive Acc where
  | ro
  | rw
  | w1c
  | w1s
  | wo
  deriving DecidableEq, Repr

/-- How a written value is brought into a field's range (R32 and the fields' own descriptions). -/
inductive Limit where
  | any
  | range (lo hi : Nat)
  | rangeOr0 (lo hi : Nat)
  | evenRange (lo hi : Nat)
  | hundreds (lo hi : Nat)
  | signed8 (lo hi : Int)
  | threeIsZero
  | profile0
  | profile1
  deriving DecidableEq, Repr

/-- A row of a block's register table: offset in the page, bits, access, reset value and range. -/
structure Row where
  off : Nat
  lo : Nat
  w : Nat
  acc : Acc
  rst : Nat
  lim : Limit
  deriving DecidableEq, Repr

/-- A fault source: its page and its index in the page (R29). -/
structure FltSrc where
  page : Nat
  idx : Nat
  deriving DecidableEq, Repr

/-- The blocks of the page index (R437, R443, R444). -/
inductive Block where
  | dev | boot | sec | fwl | pwr | aon | time | tense | ptp | pulse | mgmt | cmp | flt | evr | dbg | drill
  | mbr | spare | appo | stp | mir | flow | agr | pcie | agp | port
  | prt | lpd | srm | mon | clu | vec | red
  | agt | asmp | astep | aflt | acmd | aprof
  | vfInfo | vfCtx | vfDb
  deriving DecidableEq, Repr

/-! ### What leaves the block -/

/-- The output pins and levels of the package and of the agents' step interfaces (R164, R358, R452, R461). -/
inductive Pin where
  | pulse (n : Nat)
  | thermtrip
  | tdo
  | tileRelease (acc : Nat)
  | updateGate (acc : Nat)
  | slotFree (acc : Nat)
  | replayStart (acc : Nat)
  | holdReq (acc : Nat)
  | copyReq (acc : Nat)
  | stop (acc : Nat)
  | irq (acc : Nat)
  deriving DecidableEq, Repr

/-- What the block sends: fabric messages (R279), agent-port messages in either direction (R168, R169), MSI-X vectors
(R455), writes to host memory and to accelerator memory, and pins with the value they carry. -/
inductive Out where
  | fabric (dst kind epoch : Nat) (body : List Nat)
  | down (acc kind seq job epoch : Nat) (body : List Nat)
  | up (acc kind seq job epoch : Nat) (body : List Nat)
  | msix (vf vector : Nat)
  | hostWrite (addr : Nat) (bytes : List Nat)
  | accWrite (acc addr : Nat) (bytes : List Nat)
  | link (port kind : Nat) (body : List Nat)
  | flit (port lane hdr : Nat) (payload : List Nat) (crc : Nat)
  | pin (p : Pin) (value : Nat)
  | idle (lanes : Nat)
  | serial (bits value : Nat)
  deriving DecidableEq, Repr

/-! ### The event recorder (R402 to R409) -/

/-- A recorder record (R403). -/
structure EvRecord where
  gen : Nat
  count : Nat
  dropped : Nat
  first : Nat
  last : Nat
  min : Nat
  max : Nat
  minTime : Nat
  maxTime : Nat
  bins : List Nat
  lastSrc : Nat
  lastVal : Nat
  coalesced : Nat
  deriving DecidableEq, Repr

/-- A source's pending events (R404): multiplicity, value and stamp of the latest. -/
structure EvPending where
  src : Nat
  m : Nat
  value : Nat
  stamp : Nat
  deriving DecidableEq, Repr

/-- The recorder: records by code, configuration words, the source map, tokens, pending events in order of service, the
codes held, and how many trace entries a window may still write. -/
structure Recorder where
  records : Tab EvRecord
  cfg : Tab Nat
  map : Tab Nat
  tokens : Tab Nat
  pend : List EvPending
  held : Option Nat
  deriving DecidableEq, Repr

/-! ### Power and power-up (chapters 2, 3 and 18) -/

/-- Power, clocks and sensors: domains that are on, the loss history of each feed in microseconds of the time base, the
class A issue rate in sixteenths, what the AON domain has latched, and whether what LPDDR4X kept is still to be held against the rack's
commit records (R258). -/
structure PowerSt where
  powered : List Domain
  lossA : List Nat
  lossB : List Nat
  aboveA : Bool
  aboveB : Bool
  classA : Nat
  limited : Bool
  hot : Bool
  junction : Int
  trip : Bool
  thermtrip : Bool
  burst : Bool
  vddqDrop : Bool
  ddrLost : Bool
  wakeNow : Bool
  keptDue : Bool
  pollFailA : Nat
  pollFailB : Nat
  traySlot : Nat
  deriving DecidableEq, Repr

/-- An object staged or in force: its bytes' digest and the fields of its header that later rules read (R73, R77). -/
structure ObjInfo where
  digest : Nat
  svn : Nat
  release : Nat
  word10 : Nat
  bytes : List Nat
  deriving DecidableEq, Repr

/-- A fetch the loader page has started (R70); for a pattern pack the staging partition as it stood at the start, 16 once it was
lost (R69). -/
structure FetchSt where
  obj : Nat
  addr : Nat
  len : Nat
  checking : Bool
  bytes : List Nat
  part : Nat
  deriving DecidableEq, Repr

/-- What a rack plan says (R270, R271): its tray entries as serial, role and perm, its global entries as words. -/
structure PlanInfo where
  rack : Nat
  gen : Nat
  racks : Nat
  pod : Nat
  admitG : Nat
  admitX : Nat
  digest : Nat
  trays : List (Nat × Nat × Nat)
  globals : List Nat
  deriving DecidableEq, Repr

/-- The power-up sequence's own state (chapter 3): when it began and what of it was host wait or hold (R66, R85), the fetch in progress, the verified firmware, the packs of stages 0x3
and 0xA, the pack that was applied, the rack plan's bytes, and the waits. -/
structure BootSt where
  start : Nat
  hostUs : Nat
  waitFrom : Option Nat
  heldAt : Option Nat
  heldUs : Nat
  ended : Option Nat
  plan : Option PlanInfo
  fetch : Option FetchSt
  fw : Option ObjInfo
  pack3 : Option ObjInfo
  pack3Used : Bool
  packA : Option ObjInfo
  applied : Option Nat
  startHeld : Bool
  fwRunning : Bool
  linkUp : Bool
  perst : Bool
  report : List Nat
  heldFrom : Nat
  laneFail : Nat
  packPart : Nat
  deriving DecidableEq, Repr

/-! ### Contexts, threads and memory (chapters 4 to 6) -/

/-- The states of a software context (R97). -/
inductive CtxState where
  | free | created | enabled | draining | error | fenced
  deriving DecidableEq, Repr

/-- A software context: the registers of its window (R95, R399), its ring position and its semaphores (R107). Head and
tail run freely over 16 bits; taken counts the entries taken, which gives the ring pass. -/
structure Ctx where
  state : CtxState
  cls : Nat
  gen : Nat
  threads : Nat
  local_ : Nat
  vf : Nat
  mask : Nat
  ringBase : Nat
  log2n : Nat
  vector : Nat
  cmplBase : Nat
  hostPages : Nat
  lpdPages : Nat
  sramPages : Nat
  hostBase : Nat
  winPages : Nat
  enable : Bool
  tail : Nat
  taken : Nat
  error : Nat
  drainErr : Option Nat
  sel0 : Nat
  sel1 : Nat
  sems : Tab Nat
  deriving DecidableEq, Repr

/-- Where a managed page lies (R92). -/
inductive PageAt where
  | sram
  | lpd
  | host
  deriving DecidableEq, Repr

/-- A managed page: its level, its partition, whether it was written since it was filled, whether a valid copy lies in a
lower level and in which, pins, and the time of its last use. -/
structure PageEnt where
  at_ : PageAt
  part : Nat
  dirty : Bool
  lower : Option PageAt
  pinned : Bool
  firstOut : Bool
  lastUse : Nat
  cls : Nat
  deriving DecidableEq, Repr

/-- A request that returns data into a context (R386). -/
structure FillReq where
  ctx : Nat
  gen : Nat
  page : Nat
  deriving DecidableEq, Repr

/-- The states of a hardware thread (R111). -/
inductive ThState where
  | idle | ready | issuing | blocked | preempted
  deriving DecidableEq, Repr

/-- What a thread waits for (R111): pages, a WAIT's condition, the bytes of a pod source or that came, so many pod writes to be
acknowledged, a partition; a ready thread, an LPDDR4X request slot of a partition (R112, R113), or pages that other descriptors hold
(R92; log entry 47). -/
inductive Waiting where
  | none
  | fill (pages : List Nat)
  | wait
  | pod (got : List Nat)
  | podWrite (n : Nat) (code : Option Nat)
  | part (p : Nat)
  | slot (p : Nat)
  | room
  deriving DecidableEq, Repr

/-- The command a thread runs: what its completion record needs (R98, R100, R401). -/
structure CmdInfo where
  cmdId : Nat
  count : Nat
  irq : Bool
  slot : Nat
  start : Nat
  sel0 : Nat
  sel1 : Nat
  c0 : Nat
  c1 : Nat
  deriving DecidableEq, Repr

/-- A hardware thread: state, owner, command, descriptor list and where it lies in managed pages, the finished tiles its MAT left in the
queue and those the cores still hold (R144); of the present descriptor whether it has issued (R110), the tiles whose pages were there
(R93), the pages held for its present tile (R92), the profile words that it and the CHAIN issuing with it latched (R129) and the stage
block latched (R146); and the per-thread counters 0x01 to 0x09 of R400. A class C thread's task is the tile it checks. -/
structure Thread where
  state : ThState
  cls : Nat
  ctx : Nat
  gen : Nat
  idx : Nat
  list : List (List Nat)
  addr : Option Nat
  cmd : CmdInfo
  why : Waiting
  queue : List (List Cell)
  qEntries : Nat
  qHeld : Nat
  qLeft : Nat
  begun : Bool
  tile : Nat
  hold : List Nat
  profs : List (Nat × Nat)
  stages : List Nat
  coefs : Nat
  mdims : Option (Nat × Nat)
  task : Nat
  draining : Bool
  replay : Bool
  counters : List Nat
  deriving DecidableEq, Repr

/-- A cluster: whether a switch-in runs, the reference buffer and, by class × 8 + engine, the thread that last won (R86, R112, R156). -/
structure Cluster where
  switching : Bool
  last : Tab Nat
  refs : List Nat
  deriving DecidableEq, Repr

/-- A profile entry: its two words and its source (R129, R130). -/
structure ProfEnt where
  w0 : Nat
  w1 : Nat
  source : Nat
  deriving DecidableEq, Repr

/-- The compute side: contexts, page table, outstanding fills, threads by cluster × 256 + thread, clusters, profiles and
coefficient words by set × 2,048 + index. -/
structure CompSt where
  ctxs : Tab Ctx
  pages : Tab PageEnt
  fills : List FillReq
  uses : Nat
  threads : Tab Thread
  clusters : Tab Cluster
  profiles : Tab ProfEnt
  staged : Option Nat
  coef : Tab Nat
  invalidating : List Nat
  deriving DecidableEq, Repr

/-! ### Drains, partition resets and the hang search (R365 to R386) -/

/-- A drain in progress (R28, R383): the limit it started with in microseconds, when it started, and whether an enable is
held until it ends. -/
structure DrainSt where
  limit : Nat
  start : Nat
  reenable : Bool
  deriving DecidableEq, Repr

/-- A suspect of the hang search (R380): its class, its context, its command's list, and the verdict once it has run. -/
structure Suspect where
  cls : Nat
  ctx : Nat
  gen : Nat
  list : List (List Nat)
  guilty : Option Bool
  deriving DecidableEq, Repr

/-- A partition's part of escalation (R376 to R381): the times of its counted resets, whether the reset in progress
counts, discards LPDDR4X and was asked for, and the suspects of its search. -/
structure PartSt where
  counted : List Nat
  counts : Bool
  discard : Bool
  hangReset : Bool
  search : List Suspect
  deriving DecidableEq, Repr

/-- A partition at reset. -/
def PartSt.reset : PartSt := ⟨[], false, false, false, []⟩

/-! ### The health record (R315, R316) -/

/-- The health record of a device: points in 1/65,536, the times of its events in seconds, its standing, and the modes of
the declarations installed for it. -/
structure Health where
  points : Nat
  events : List Nat
  watch : Bool
  candidate : Bool
  modes : Nat
  deriving DecidableEq, Repr

/-- A device's health record at reset. -/
def Health.reset : Health := ⟨0, [], false, false, 0⟩

/-! ### Agreement (chapter 8) -/

/-- How far a sampled tile has come (R204, R209). -/
inductive TilePhase where
  | waiting
  | first
  | waitThird
  | third
  | compare
  deriving DecidableEq, Repr

/-- A TILE record the Agreement engine holds (R200, R207): its words, the class C thread its pair runs on, the reference entries it
has by cluster, its area in class C SRAM (log entry 49), of the first execution the core as cluster × 32 + core and what disagreed, and of
the third the core, how much disagreed and the largest distance. -/
structure TileRec where
  acc : Nat
  step : Nat
  exec : Nat
  id : Nat
  body : List Nat
  phase : TilePhase
  place : Option Nat
  refs : Tab Nat
  core1 : Nat
  dis1 : Nat
  first1 : Nat
  slot : Nat
  core3 : Nat
  dis3 : Nat
  dist3 : Nat
  avoid : Option Nat
  deriving DecidableEq, Repr

/-- The Agreement engine (chapter 8): the records not yet judged in their order of arrival, the identifiers whose blocks arrived
corrupted (R203), and the RESIDs that wait (agents, identifiers added, identifiers removed; R202). -/
structure AgrSt where
  tiles : List TileRec
  corrupt : List Nat
  delayed : List (List Nat × List Nat × List Nat)
  deriving DecidableEq, Repr

/-- The Agreement engine at reset. -/
def AgrSt.reset : AgrSt := ⟨[], [], []⟩

/-! ### The global stop, scan and the test access port (R410 to R414, R461) -/

/-- What the last stop recorded, the partitions' own records (lag, core-cycle count, stamp), the partition reactions that
wait for resume, by number, the scan position and the TAP's instruction and selection registers. -/
structure StopSt where
  recs : Tab (Nat × Nat × Nat)
  deferred : List Nat
  scanPos : Nat
  tapIr : Nat
  tapSel : Nat
  tapPos : Nat
  boundary : Nat
  deriving DecidableEq, Repr

/-! ### Ports and links (chapter 10) -/

/-- A message that waits on a port (R262, R278, R280): its VC, the words of it still to send, its hop level, whether a flit of it has left,
and whether it is link-local: HELLO or KEYX (R279). -/
structure PortQueued where
  vc : Nat
  words : List Nat
  level : Nat
  begun : Bool
  local_ : Bool
  deriving DecidableEq, Repr

/-- A flit in the replay buffer (R263): its number, VC and hop level, and its payload of 30 words. -/
structure SentFlit where
  seq : Nat
  vc : Nat
  level : Nat
  words : List Nat
  deriving DecidableEq, Repr

/-- What protects VC0 on a link (R282, R283): a key and a 4-byte salt for each direction. -/
structure LinkKeys where
  tx : Nat
  txSalt : Nat
  rx : Nat
  rxSalt : Nat
  deriving DecidableEq, Repr

/-- A port (R261 to R283): its lanes (0 down, 1 training, 2 up, 3 failed, 4 silent) and their attempts, the last HELLO body,
the link's sequence numbers, the flits not yet acknowledged, consecutive replays, the hop levels of the flits
that hold credit by VC, oldest first (R280), waiting messages, flits of VC2 and VC3 sent, the keys in force, frame counters, the ephemeral
key and nonce of the KEYX sent (R283), whether the plan in force still expects its link, a loopback, VC2 and VC3 messages taken (R268),
whether keys are agreed afresh on a link that is up (R283), and whether a lane that trained is longer than 160 m (R265). -/
structure PortSt where
  lanes : Tab Nat
  tries : Tab Nat
  hello : Option (List Nat)
  txSeq : Nat
  rxNext : Nat
  unacked : List SentFlit
  replays : Nat
  used : Tab (List Nat)
  freed : Tab Nat
  queue : List PortQueued
  turn : Nat
  key : Option LinkKeys
  txCtr : Nat
  rxCtr : Nat
  eph : Nat
  leaving : Bool
  loop : Bool
  nonce : Nat
  msgs : Nat
  rekey : Bool
  long : Bool
  deriving DecidableEq, Repr

/-- A port at reset: no lane up, nothing heard (R288). -/
def PortSt.reset : PortSt := ⟨[], [], none, 0, 0, [], 0, [], [], [], 0, none, 0, 0, 0, false, false, 0, 0, false, false⟩

/-! ### Margin plans (chapter 16) -/

/-- A point of the voltage-frequency table (R421). -/
structure VfPoint where
  mv : Nat
  slack : Int
  usable : Bool
  deriving DecidableEq, Repr

/-- A partition's monitors and plans (R420 to R425): the table in force, the table that waits for an epoch pulse, when the
running plan started in seconds, monitors excluded, their successive inconsistent plans and those seen inconsistent in the running
plan, the point that the cores tested so far allow, whether the waiting table has missed its pulse, readings at the reference point
as (second, slack), the live values of monitors and ring oscillators, and the point that a partition takes when it
returns to service or resumes. -/
structure MonSt where
  table : List VfPoint
  next : Option (List VfPoint)
  started : Option Nat
  lastPlan : Option Nat
  excluded : Nat
  odd : Tab Nat
  oddNow : List Nat
  cap : Nat
  due : Bool
  readings : List (Int × Int)
  slacks : List Int
  edges : List Nat
  want : Option Nat
  deriving DecidableEq, Repr

/-- A partition's monitors at reset: the table that the power-up tests fill, every point usable at 850 mV (log entry 3). -/
def MonSt.reset : MonSt := ⟨List.replicate 11 ⟨850, 25, true⟩, none, none, none, 0, [], [], 10, false, [], [], [], none⟩

/-! ### Pattern packs from the fleet (R416 to R418) -/

/-- A pack that arrives in chunks: its digest word, its number of chunks, its sender and the chunks received. -/
structure PackIn where
  digest : Nat
  total : Nat
  src : Nat
  chunks : Tab (List Nat)
  deriving DecidableEq, Repr

/-- The pack of stage 0xA on its way in and out, the next chunk and cluster, whether the read-back was made, and the start of the drill
window in which the last cluster was done. -/
structure PackSt where
  incoming : Option PackIn
  acked : List Nat
  chunk : Nat
  cluster : Nat
  readBack : Bool
  doneIn : Option Nat
  deriving DecidableEq, Repr

/-- No pack. -/
def PackSt.reset : PackSt := ⟨none, [], 0, 0, false, none⟩

/-! ### Agents (chapter 7) -/

/-- A command of an accelerator that has started (R190): its tag and the stamp and counters latched at its start; none of them
when 32 commands were open. -/
structure AccCmd where
  tag : Nat
  start : List Nat
  deriving DecidableEq, Repr

/-- A message of a port that waits for its acknowledgement (R168): sequence number, kind, body and sendings, the job and the epoch of its
header, and whether it is the last answer to a PULL (R183). -/
structure PortMsg where
  seq : Nat
  kind : Nat
  body : List Nat
  tries : Nat
  job : Nat
  epoch : Nat
  last : Bool
  deriving DecidableEq, Repr

/-- What an agent records in state 6 (R179): a down message with its sequence number, a step_end with its stamp, or another signal
(0 update_done, 1 hold_ack, 2 copy_done). -/
inductive HeldEv where
  | msg (seq : Nat) (m : DownMsg)
  | stepEnd (n stamp : Nat) (ws : List Nat)
  | signal (sig v : Nat)
  deriving DecidableEq, Repr

/-- The state record of an agent (R180): state, step and execution of ASTEP_STATE, the state before state 6, stop, whether update_done is
awaited, the job, the last committed step, the cut and how far it is, and the key in force with its step and threshold. -/
structure StepRec where
  state : Nat
  step : Nat
  exec_ : Nat
  before : Nat
  stopped : Bool
  waitDone : Bool
  job : Nat
  committed : Option Nat
  cut : Option (Nat × Nat × Nat)
  cutPhase : Nat
  key : Option Nat
  keyStep : Nat
  threshold : Nat
  deriving DecidableEq, Repr

/-- A record of an agent that has run nothing. -/
def StepRec.reset : StepRec := ⟨0, 0, 0, 0, false, false, 0, none, none, 0, none, 0, 0⟩

/-- An agent (chapter 7): what it holds beside its registers. The state record as it stands in the journal area (R180). The key in force, the job, the methods of the shard map, tiles of
the present execution, the resident table and its generation, the last committed step, whether a committed step waits for
update_done, the cut recorded or taken (identifier, step, mode) and how far it is (1 waits for hold_ack, 2 copies, 3 held), the
records that the staging area still holds for PULLs, the state left for state 6 with what was recorded there in order of arrival, stop,
the tile descriptors whose acceptance is withheld (R173), open commands and the pass of the command ring,
engine timeouts and last progress in µs, the time copy in 2^-40 ns as it stood at an AON count, its rate correction per reference cycle
(R189), since when it has been within 10 ns, rearm, the declarations as sent, the port's messages that were sent and those that wait for
the port (R171), and whether a required interface is missing (R164). -/
structure AgentSt where
  kept : StepRec
  key : Option Nat
  job : Nat
  methods : Tab Nat
  seen : Nat
  sampled : Nat
  resident : List Nat
  residGen : Nat
  committed : Option Nat
  waitDone : Bool
  cut : Option (Nat × Nat × Nat)
  cutPhase : Nat
  staged : Option (List Nat)
  before : Nat
  held : List HeldEv
  stopped : Bool
  tap : List TapTile
  cmds : List AccCmd
  cmdPass : Nat
  timeouts : Tab Nat
  progress : Tab Nat
  copy : Int
  copyAt : Nat
  rate : Int
  good : Option Nat
  rearm : Bool
  decl : List Nat
  up : List PortMsg
  wait : List PortMsg
  upSeq : Nat
  downNext : Nat
  lacks : Bool
  deriving DecidableEq, Repr

/-- An agent at reset. -/
def AgentSt.reset : AgentSt :=
  ⟨StepRec.reset, none, 0, [], 0, 0, [], 0, none, false, none, 0, none, 0, [], false, [], [], 0, [], [], 0, 0, 0, none, false, [], [], [], 0, 0, false⟩

/-- The controller's end of an agent port (R168): the down messages not acknowledged, the sequence numbers, and the declarations of
the last DECL (R192), and the status and time of the last FAULT (R169). -/
structure AgentPort where
  down : List PortMsg
  downSeq : Nat
  upNext : Nat
  decl : List Nat
  fault : Nat × Nat
  deriving DecidableEq, Repr

/-- The controller's end of an agent port at reset. -/
def AgentPort.reset : AgentPort := ⟨[], 0, 0, [], (0, 0)⟩

/-! ### Time, Tense, pulses and captures (chapter 13) -/

/-- The discipline of the time base beside its registers (R342 to R351): the rate correction and the time that the next epoch
pulse loads, the rate correction that the source's frame after it announces, the correction it steps by, the own time at the last pulse, the servo's integrator in 2^-32 ppb, since when the
rack and the pod offset have been small (µs), whether the rack offset last measured was above 5 ns, whether the controller sends rack frames and Sync before membership, whether
the next correction is applied as a step, peer delays by port in 2^-16 ns, when a pulse was last substituted, and the port
Sync is taken from. -/
structure TimeSt where
  nextAdj : Option Nat
  wanted : Option Nat
  nextLoad : Option Nat
  stepBy : Int
  atPulse : Nat
  integ : Int
  rackGood : Option Nat
  podGood : Option Nat
  rackOver : Bool
  source : Bool
  master : Bool
  rearm : Bool
  delays : Tab (List Nat)
  substituted : Option Nat
  deriving DecidableEq, Repr

/-- The time discipline at reset. -/
def TimeSt.reset : TimeSt := ⟨none, none, none, 0, 0, 0, none, none, false, false, false, false, [], none⟩

/-- A Tense instance that holds a job (R355, R356): position, P̂ in µs, anchor, last sample, the run of outliers, whether the
step ran in round 0 and began by a mark. -/
structure TenseSt where
  job : Nat
  step : Nat
  round : Nat
  pred : Nat
  anchor : Nat
  sample : Nat
  run : Nat
  byMark : Bool
  deriving DecidableEq, Repr

/-- An armed pulse output (R358, R359): what it latched at its arm, and the number of its next target. -/
structure PulseSt where
  tense : Bool
  inst : Nat
  periodic : Bool
  pol : Bool
  t0 : Nat
  per : Nat
  next : Nat
  deriving DecidableEq, Repr

/-- A captured edge (R360): polarity, time, and the Tense position as TENSE_POS with bit 0 for a held job. -/
structure CapEnt where
  rising : Bool
  time : Nat
  pos : Nat
  deriving DecidableEq, Repr

/-- A capture input: its FIFO and the time of its last edge. -/
structure CapSt where
  fifo : List CapEnt
  last : Option Nat
  deriving DecidableEq, Repr

/-- A capture input at reset. -/
def CapSt.reset : CapSt := ⟨[], none⟩

/-! ### Membership (chapter 11) -/

/-- A view entry (R290, R304): state, epochs of its last change and admission, expelled accelerators, the pod seconds of its
counted expulsions, and when its hold-off ends in µs. -/
structure ViewEnt where
  state : Nat
  changed : Nat
  admitted : Nat
  accExp : Nat
  expels : List Nat
  hold : Nat
  deriving DecidableEq, Repr

/-- The entry of a chip number that no controller holds. -/
def ViewEnt.absent : ViewEnt := ⟨0, 0, 0, 0, [], 0⟩

/-- A Clause in progress at its coordinator (R296, R297, R300): scope, epoch, changes or a commit record, and the votes. -/
structure Proposal where
  pod : Bool
  founding : Bool
  epoch : Nat
  changes : List Nat
  crec : Option (List Nat)
  votes : Tab Nat
  deriving DecidableEq, Repr

/-- The membership engine (R290 to R307) and the effective role table (R320, R321): the view, when each member's HB and each
rack's GHB was last heard (µs, founding, leader), suspicions, changes and commit records that await a Clause as (pod scope,
change), the Clause in progress, backoff, the last epoch voted on in each scope, the newest epoch of a refusal, JOINREQs heard as (µs, epoch, operator),
whether the rack counts as unfounded, the last 64 DECIDEs, each with its coordinator before its body, when FENCED was last sent to
a chip, the operator flag, the times
of marginal expulsions in pod seconds, accelerators (chip × 8 + number) expelled and not replaced, when each job was last drilled, adopted and failed spares by chip,
as bits, trays reported due, whether the settings of every member are the same, and the changes already asked for; the own admission epoch when
the controller last left membership, the newest epoch in a founding GHB, starts that are over here as (job, admission epoch, result), and the tray
roles of other racks as VIEWs told them. -/
structure MemberSt where
  view : Tab ViewEnt
  heard : Tab Nat
  racks : Tab (Nat × Bool × Nat)
  suspects : List Nat
  rackSuspects : List Nat
  pending : List (Bool × Nat)
  crecs : List (List Nat)
  prop : Option Proposal
  backoff : Bool
  votedRack : Option Nat
  votedPod : Option Nat
  refused : Option Nat
  joiners : Tab (Nat × Nat × Bool)
  unfounded : Bool
  decides : List (List Nat)
  fencedAt : Tab Nat
  operator : Bool
  marginal : List Nat
  pendingAcc : List Nat
  drilled : Tab Nat
  adopted : Tab Nat
  spoiled : Tab Nat
  due : List Nat
  same : Bool
  asked : List Nat
  leftAdm : Option Nat
  seen : Option Nat
  ended : List (Nat × Nat × Nat)
  roles : Tab Nat
  deriving DecidableEq, Repr

/-- Membership at reset: an empty view. -/
def MemberSt.reset : MemberSt :=
  ⟨[], [], [], [], [], [], [], none, false, none, none, none, [], false, [], [], false, [], [], [], [], [], [], true, [], none, none, [], []⟩

/-! ### Jobs (chapters 8, 9, 11 and 12) -/

/-- A record entry of a job descriptor (R308). -/
structure RecDesc where
  num : Nat
  hint : Nat
  len : Nat
  group : Nat
  pair : Nat
  word3 : Nat
  holders : List Nat
  deriving DecidableEq, Repr

/-- A job descriptor (R308): accelerators as chip × 8 + number, and the first record number of its range. -/
structure JobDesc where
  job : Nat
  seed : Nat
  first : Nat
  pred : Nat
  onLoss : Nat
  accs : List Nat
  groups : List (List Nat)
  recs : List RecDesc
  recFirst : Nat
  deriving DecidableEq, Repr

/-- What a MARK said (R175): amax entries, digests and mirror items by record. -/
structure MarkInfo where
  step : Nat
  exec : Nat
  time : Nat
  sampled : Nat
  amax : List (Nat × Nat)
  hashes : List (Nat × Nat)
  mirror : List (Nat × List Nat)
  deriving DecidableEq, Repr

/-- A tray accelerator or stand-in of a job (R196, R215, R222 to R224): job index, whether a stand-in serves it, thresholds,
debt in µs, the execution being judged and its mark, tiles received with their identifiers, verdicts final, whether one counts
as disagreement, when the last became final, the lags of the step's rounds, whether overdue was reported, the threshold of a
REPLAY held back or the seq of one not yet acknowledged, the status of its cut, and the declarations its tiles named. -/
structure AccJob where
  index : Nat
  standIn : Bool
  base : Nat
  thr : Nat
  debt : Nat
  exec : Nat
  mark : Option MarkInfo
  tiles : Nat
  ids : List Nat
  finals : Nat
  bad : Bool
  voids : List Nat
  lastFinal : Nat
  lags : List Int
  overdue : Bool
  replayHeld : Option Nat
  replaySeq : Option Nat
  cutAck : Option Nat
  named : Nat
  deriving DecidableEq, Repr

/-- A mirror version or pin (R249, R250): source chip, accelerator, job, step, and its words from the items on. -/
structure Version where
  src : Nat
  acc : Nat
  job : Nat
  step : Nat
  nFlow : Nat
  itemBytes : Nat
  words : List Nat
  deriving DecidableEq, Repr

/-- A digest reported for a record (R212): step, round, accelerator as chip × 8 + number, record and digest. -/
structure HashPair where
  step : Nat
  round : Nat
  acc : Nat
  rec_ : Nat
  digest : Nat
  deriving DecidableEq, Repr

/-- A generation in a rack's slot (R237, R244, R259): its number, step, state of STP_SLOTn, absent positions as bits, positions lost
since the seal, job table of its cut, and commit record. -/
structure GenSt where
  gen : Nat
  step : Nat
  state : Nat
  absent : Nat
  lost : Nat
  table : List Nat
  crec : List Nat
  deriving DecidableEq, Repr

/-- A free slot. -/
def GenSt.free : GenSt := ⟨0, 0, 0, 0, 0, [], []⟩

/-- A cut in progress on this controller (R241): step, generation, slot and mode; state as in STP_CUT; whether CUTREP has left, whether
its pulls began; pulls not answered as (accelerator, record, digest only), data pulled by record, digests that arrived as (record,
accelerator, digest), units not acknowledged as (row, role, j), the records as they stood after the commit of the step, whether the pins are acknowledged, whether the own extent was reported;
cut reports of children as (code, covered); at the seal leader the table units of each home that reported; at the root the racks that
sealed. -/
structure CutSt where
  step : Nat
  gen : Nat
  slot : Nat
  copy : Bool
  state : Nat
  reported : Bool
  pulling : List Nat
  pulls : List (Nat × Nat × Bool)
  data : Tab (List Nat)
  digests : List (Nat × Nat × Nat)
  units : List (Nat × Nat × Nat)
  written : Bool
  snap : Tab (List Nat)
  pinAck : Bool
  done : Bool
  reps : Tab (Nat × Nat)
  tables : Tab (List Nat)
  racks : List Nat
  deriving DecidableEq, Repr

/-- A restore on this controller (R256): step, slot of the own rack, whether it runs, units received by unit number, units for rows
this controller rebuilds by row × 32 + position, units that failed their ECC as (row, position), pins received, whether the records
were applied, SHARD messages not acknowledged as (accelerator, sequence number), whether a digest failed, whether RESTDONE has left,
the children's reports as (code, covered), and steps excluded. -/
structure RestSt where
  step : Nat
  slot : Nat
  active : Bool
  units : Tab (List Nat)
  survivors : Tab (List Nat)
  bad : List (Nat × Nat)
  pins : List Version
  applied : Bool
  waiting : List (Nat × Nat)
  failed : Bool
  reported : Bool
  dones : Tab (Nat × Nat)
  excluded : List Nat
  deriving DecidableEq, Repr

/-- No restore. -/
def RestSt.none : RestSt := ⟨0, 0, false, [], [], [], [], false, [], false, false, [], []⟩

/-- An adoption at the root (R324): the spare as chip × 8 + number, its ADOPTACK status once it came, and B once chosen. -/
structure AdoptSt where
  spare : Nat
  ready : Bool
  bound : Option Nat
  deriving DecidableEq, Repr

/-- A handover towards an accelerator of the tray (R334): the stand-in as chip × 8 + number, the boundary B, records not received
and SHARD messages not acknowledged by sequence number. -/
structure TakeSt where
  src : Nat
  step : Nat
  left : List Nat
  seqs : List Nat
  deriving DecidableEq, Repr

/-- A job on this controller: its descriptor and present table, the start (R311, R312), the registers latched at admission by
key, the gate (R215) with the reports of children as (status, covered, seeds, whole), the digests homed here with the messages heard as
(step, round, chip), and cadence, slots of every rack by rack × 2 + slot, cut, restore and adoptions, at the root the indices whose stand-ins are reported and those that wait (R319), P̂ in µs when the step began (R222), handovers
towards accelerators of the tray (R334), and the index that a drill has expelled (R337).
watchers: the trays that report a device under watch (R238). elided: the coordination messages received, as (epoch, kind, step, sender)
(R240). acked: the last JOBACK sent, as (covered, status, chip); reparents: the REPARENTs served, as (orphan, chunks held) (R311). sentHazard: the last
HAZARD sent (R317). moves: indices that moved to a spare, as (boundary, index, accelerator before) (R325). begun: indices whose stand-in's
controller has sent JOB (R334). adoptSeen: ADOPTs that have acted, as (epoch, phase, boundary, pairs) (R323). deferred: whether the deferral of the cut that is due has been counted (R239). recut: a failed cut is due again at once (R252). phase: 0 chunks arrive, 1 every chunk is held, 2 started. -/
structure JobSt where
  desc : JobDesc
  accs : List Nat
  root : Nat
  admEpoch : Nat
  phase : Nat
  chunks : Tab (List Nat)
  total : Nat
  acks : Tab (Nat × Nat × Nat)
  acked : Option (Nat × Nat × Nat)
  reparents : List (Nat × Nat)
  status : Nat
  failChip : Nat
  latch : Tab Nat
  gate : Nat
  step : Nat
  round : Nat
  acc : Tab AccJob
  reports : Tab (Nat × Nat × List Nat × Bool)
  seeds : List Nat
  whole : Bool
  lastRep : List Nat
  decided : Bool
  hashes : List HashPair
  heard : List (Nat × Nat × Nat)
  base : Nat
  lastCut : Nat
  nextCut : Nat
  interval : Nat
  risk : Nat
  hazards : Tab Nat
  watchers : List Nat
  elided : List (Nat × Nat × Nat × Nat)
  genCount : Nat
  deferred : Bool
  recut : Bool
  row0 : Nat
  slots : Tab GenSt
  cut : Option CutSt
  rest : RestSt
  restResult : Nat
  tried : Nat
  adopts : Tab AdoptSt
  boundary : Option Nat
  standing : List Nat
  lost : List Nat
  pstep : Nat
  taking : Tab TakeSt
  drillIdx : Option Nat
  sentHazard : Option Nat
  moves : List (Nat × Nat × Nat)
  begun : List Nat
  adoptSeen : List (Nat × Nat × Nat × List (Nat × Nat))
  deriving DecidableEq, Repr

/-- Mirrors (R246 to R251): the ring hosted for sources, pins hosted by slot, own latest versions, own pins by slot, versions
not acknowledged, the rack's pairing in force by source chip, and the one that takes effect at the next committed step; and the PINs that
wait for versions of the step, as (source, job, step, slot); and the own versions that the partner has acknowledged. -/
structure MirrorSt where
  ring : List Version
  pins : List (Nat × Version)
  own : List Version
  ownPins : List (Nat × Version)
  waiting : List Version
  pairs : Tab Nat
  next : Option (Tab Nat)
  asked : List (Nat × Nat × Nat × Nat)
  acked : List Version
  deriving DecidableEq, Repr

/-- Mirrors at reset. -/
def MirrorSt.reset : MirrorSt := ⟨[], [], [], [], [], [], none, [], []⟩

/-- An Apposition program's header (R327). -/
structure ProgHdr where
  map_ : Nat
  mapCount : Nat
  footprint : Nat
  stepList : Nat
  stepCount : Nat
  updList : Nat
  updCount : Nat
  exchList : Nat
  exchCount : Nat
  deriving DecidableEq, Repr

/-- No program. -/
def ProgHdr.none : ProgHdr := ⟨0, 0, 0, 0, 0, 0, 0, 0, 0⟩

/-- A stand-in slot (R326 to R334): job, index, accelerator, context, the state and the last refusal of APPO_STATUS, the step it
executes, whether its update list runs, its program, P̂ before Apposition, when the present step began in µs, its last 16 steps in µs,
whether it is a drill's, while handing over the chip × 8 + number that takes over, and the declarations that the accelerator's tiles
named, as bits. -/
structure StandSt where
  job : Nat
  index : Nat
  acc : Nat
  ctx : Nat
  state : Nat
  reason : Nat
  step : Nat
  updating : Bool
  prog : ProgHdr
  before : Nat
  began : Nat
  times : List Nat
  drill : Bool
  spare : Nat
  named : Nat
  redo : Bool
  deriving DecidableEq, Repr

/-- A free stand-in slot. -/
def StandSt.none : StandSt := ⟨0, 0, 0, 0, 0, 0, 0, false, ProgHdr.none, 0, 0, [], false, 0, 0, false⟩

/-- The drill of the rack (R336, R337): 0 none, 1 waits for its commit, 2 expelled and restoring or standing, 3 being adopted
back. -/
structure DrillSt where
  phase : Nat
  job : Nat
  index : Nat
  acc : Nat
  gen : Nat
  startStep : Nat
  bad : Bool
  deriving DecidableEq, Repr

/-- No drill. -/
def DrillSt.reset : DrillSt := ⟨0, 0, 0, 0, 0, 0, false⟩

/-- The spare side of an adoption (R324): what this controller was asked to prepare, as (job, index, accelerator, root). -/
abbrev AdoptReq := Nat × Nat × Nat × Nat

/-- Operand blocks held in the cache (R202, R203): identifier, bytes, when it was last named, the agents that were told of it, and, once
its removal is announced, the generation and the agents that have not confirmed it. -/
structure OpndBlock where
  id : Nat
  bytes : List Nat
  used : Nat
  told : List Nat
  removed : Option (Nat × List Nat)
  deriving DecidableEq, Repr

/-! ### Progress accounting (R431 to R433) -/

/-- The progress buckets of a job at its root, in µs (R431): when the job started and ended, the buckets, P_base, when the present
interval began, whether the job recovers, whether a drill runs, the latest mark of the root's tray, and the totals latched at
generation commits. -/
structure ProgSt where
  job : Nat
  start : Nat
  stop : Option Nat
  useful : Nat
  degraded : Nat
  gate : Nat
  replay : Nat
  recover : Nat
  lost : Nat
  drill : Nat
  base : Nat
  since : Nat
  recovering : Bool
  inDrill : Bool
  latches : Tab (List Nat)
  deriving DecidableEq, Repr

/-! ### Remote access (R45 to R48) -/

/-- The remote access engine (R45 to R48): the number of the last access, the chip value of the one in progress and whether it writes,
the controllers that acknowledged it; the last request served by chip; and window accesses on their way to an agent, as the agent, the
number of the message, the requester with its number (none: this controller) and whether it writes. -/
structure RaSt where
  seq : Nat
  target : Option Nat
  write : Bool
  acked : List Nat
  served : Tab Nat
  windows : List (Nat × Nat × Option (Nat × Nat) × Bool)
  deriving DecidableEq, Repr

/-- The remote access engine at reset. -/
def RaSt.reset : RaSt := ⟨0, none, false, [], [], []⟩

/-! ### The management pair and the comparator (R387 to R391) -/

/-- A copy at the comparator: its core (2 once it may be released), its sequence number, when it arrived in µs and its
message. -/
structure PairCopy where
  core : Nat
  seq : Nat
  at_ : Nat
  msg : Message
  deriving DecidableEq, Repr

/-- The comparator and the pair: copies held, messages released with their times, the mismatching number that both cores test
for, when the last mismatch was, and register writes released until the command that released them ends. -/
structure PairSt where
  held : List PairCopy
  released : List PairCopy
  mismatch : Option Nat
  lastMismatch : Option Nat
  posted : List (Nat × Nat)
  deriving DecidableEq, Repr

/-- The pair at reset. -/
def PairSt.reset : PairSt := ⟨[], [], none, none, []⟩

/-- A context at reset: free, its registers at their reset values (R95). -/
def Ctx.reset : Ctx where
  state := .free
  cls := 0
  gen := 0
  threads := 1
  local_ := 0
  vf := 0
  mask := 0xFFFFFFFF
  ringBase := 0
  log2n := 6
  vector := 0
  cmplBase := 0
  hostPages := 0
  lpdPages := 0
  sramPages := 64
  hostBase := 0
  winPages := 0
  enable := false
  tail := 0
  taken := 0
  error := 0
  drainErr := none
  sel0 := 0x01
  sel1 := 0x04
  sems := []

/-- No command. -/
def CmdInfo.none : CmdInfo := ⟨0, 0, false, 0, 0, 0, 0, 0, 0⟩

/-- A thread at reset: idle, its counters zero (R111, R400). -/
def Thread.reset : Thread where
  state := .idle
  cls := 0
  ctx := 0
  gen := 0
  idx := 0
  list := []
  addr := Option.none
  cmd := CmdInfo.none
  why := .none
  queue := []
  qEntries := 0
  qHeld := 0
  qLeft := 0
  begun := false
  tile := 0
  hold := []
  profs := []
  stages := []
  coefs := 0
  mdims := Option.none
  task := 0
  draining := false
  replay := false
  counters := [0, 0, 0, 0, 0, 0, 0, 0, 0]

/-- A cluster at reset. -/
def Cluster.reset : Cluster := ⟨false, [], []⟩

/-- An empty recorder record (R403). -/
def EvRecord.empty : EvRecord := ⟨0, 0, 0, 0, 0, 0, 0, 0, 0, List.replicate 16 0, 0, 0, 0⟩

/-- The recorder at reset. -/
def Recorder.reset : Recorder := ⟨[], [], [], [], [], none⟩

/-- Power right after AON and HUB have powered on with both feeds present (R52, R467; log entry 3). -/
def PowerSt.reset : PowerSt where
  powered := [.aon, .hub]
  lossA := []
  lossB := []
  aboveA := true
  aboveB := true
  classA := 16
  limited := false
  hot := false
  junction := 0
  trip := false
  thermtrip := false
  burst := false
  vddqDrop := false
  ddrLost := false
  wakeNow := false
  keptDue := false
  pollFailA := 0
  pollFailB := 0
  traySlot := 0

/-- The power-up sequence at reset: no firmware, no pack, no plan (R2, R65). -/
def BootSt.reset : BootSt := ⟨0, 0, none, none, 0, none, none, none, none, none, false, none, none, false, false, false, false, [], 0, 0, 0⟩

/-- The compute side at reset. -/
def CompSt.reset : CompSt := ⟨[], [], [], 0, [], [], [], none, [], []⟩

/-! ### The machine -/

/-- The controller and its agents, without the queue of waiting commands. unreset and clearing hold, by page, the
sources with reaction 2 that no reset has covered yet and those the reset in progress covers (R367). selfAcks holds the ADOPTACKs that
a root has for itself, as (job, index, status), until the command that made them ends. indirect holds the flits sent indirectly, with
their µs (R286). -/
structure Dev where
  regs : Tab Nat
  rdata : Nat
  rdHold : Tab (Nat × Nat)
  wrHold : Tab (Nat × Nat)
  latched : Tab Nat
  snaps : Tab (List Nat)
  fresh : Nat
  out : List Out
  time : Nat
  aon : Nat
  sram : List Host.Cell
  lpd : List Host.Cell
  ctxMem : List Host.Cell
  evr : Recorder
  pwr : PowerSt
  boot : BootSt
  comp : CompSt
  stop : StopSt
  unreset : Tab Nat
  clearing : Tab Nat
  drains : Tab DrainSt
  drainLog : Tab (Nat × Nat)
  parts : Tab PartSt
  health : Tab Health
  agr : AgrSt
  twoOut : Bool
  ports : Tab PortSt
  loads : Tab (List Nat)
  indirect : List (Nat × Nat)
  pair : PairSt
  agents : Tab AgentSt
  aports : Tab AgentPort
  mons : Tab MonSt
  packs : PackSt
  clock : TimeSt
  tense : Tab TenseSt
  pulses : Tab PulseSt
  caps : Tab CapSt
  mbr : MemberSt
  jobs : Tab JobSt
  flow : Tab (List Nat)
  vlog : Tab (List Nat)
  mir : MirrorSt
  stand : Tab StandSt
  drill : DrillSt
  adoptReqs : List AdoptReq
  selfAcks : List (Nat × Nat × Nat)
  cache : List OpndBlock
  residGen : Nat
  coreHits : Tab (List Nat)
  progs : Tab ProgSt
  nrg : List Nat
  chkRest : Nat
  ra : RaSt
  i3c : Option Nat
  deriving DecidableEq, Repr

/-- The machine without its queue, right after reset. -/
def Dev.reset : Dev where
  regs := []
  rdata := 0
  rdHold := []
  wrHold := []
  latched := []
  snaps := []
  fresh := 0
  out := []
  time := 0
  aon := 0
  sram := []
  lpd := []
  ctxMem := []
  evr := Recorder.reset
  pwr := PowerSt.reset
  boot := BootSt.reset
  comp := CompSt.reset
  stop := ⟨[], [], 0, 1, 0, 0, 0⟩
  unreset := []
  clearing := []
  drains := []
  drainLog := []
  parts := []
  health := []
  agr := AgrSt.reset
  twoOut := false
  ports := []
  loads := []
  indirect := []
  pair := PairSt.reset
  agents := []
  aports := []
  mons := []
  packs := PackSt.reset
  clock := TimeSt.reset
  tense := []
  pulses := []
  caps := []
  mbr := MemberSt.reset
  jobs := []
  flow := []
  vlog := []
  mir := MirrorSt.reset
  stand := []
  drill := DrillSt.reset
  adoptReqs := []
  selfAcks := []
  cache := []
  residGen := 0
  coreHits := []
  progs := []
  nrg := [0, 0, 0, 0, 0, 0]
  chkRest := 0
  ra := RaSt.reset
  i3c := none

/-- The state: the machine and the commands that are waiting, first in first out. -/
structure State where
  dev : Dev
  pending : List Instr
  deriving DecidableEq, Repr

/-- The machine right after reset; no command waits. -/
def State.reset : State := ⟨Dev.reset, []⟩

/-- The ways a step can stop with a fault. None: every command of the table has an effect in the spec (safe). -/
inductive Fault where
  /-- Never raised: the block has fault sources, which are state, and no command stops it (safe). -/
  | neverRaised
  deriving DecidableEq, Repr

/-- The ways a step can be refused. -/
inductive Refusal where
  /-- Raised by the dispatch for a command that has no meaning in the model yet (safe: nothing is claimed of it). -/
  | notModelled (mnemonic : String)
  deriving DecidableEq, Repr

end Sys2Proof.Machine
end

