-- ==== Sys2Proof/Machine/Fields.lean ====
section
/-! DEFINITION. The register map: one constant per register field of the spec's tables (R23 to R30, R365 and the
tables of each block's chapter), one per fault source, one per counter slot, and the rows of each block by offset.
The names are the manual's, REGISTER_field. A field whose reset value the spec gives as a number has that number;
the others (per test, strap, fused) have the value of log entry 3. -/

namespace Sys2Proof.Machine


/-! ### Pages (R436, R437, R443, R444) -/

/-- The single pages of the hub die (R436). -/
def hubPage : Nat → Option Block
  | 0x000 => some .dev | 0x001 => some .boot | 0x002 => some .sec | 0x003 => some .fwl
  | 0x010 => some .pwr | 0x011 => some .aon
  | 0x020 => some .time | 0x021 => some .tense | 0x022 => some .ptp | 0x023 => some .pulse
  | 0x030 => some .mgmt | 0x031 => some .cmp
  | 0x040 => some .flt | 0x041 => some .evr | 0x042 => some .dbg | 0x043 => some .drill
  | 0x050 => some .mbr | 0x051 => some .spare | 0x052 => some .appo
  | 0x060 => some .stp | 0x061 => some .mir | 0x062 => some .flow
  | 0x070 => some .agr
  | 0x0C0 => some .pcie
  | _ => none

/-- The pages of a partition group: offset in the group (R436). -/
def partPage : Nat → Option Block
  | 0 => some .prt | 1 => some .lpd | 2 => some .srm | 3 => some .clu | 4 => some .clu
  | 5 => some .vec | 6 => some .vec | 7 => some .red | 8 => some .red | 9 => some .mon
  | _ => none

/-- The pages of an agent's register space (R165, R443). -/
def agentPage : Nat → Option Block
  | 0 => some .agt | 1 => some .asmp | 2 => some .astep | 3 => some .aflt | 4 => some .acmd | 5 => some .aprof
  | _ => none

/-- The pages of a virtual function's BAR0 (R102, R444). -/
def vfPage : Nat → Option Block
  | 0 => some .vfInfo
  | 1 => some .vfCtx
  | 2 => some .vfDb | 3 => some .vfDb | 4 => some .vfDb | 5 => some .vfDb
  | 6 => some .vfDb | 7 => some .vfDb | 8 => some .vfDb | 9 => some .vfDb
  | _ => none

/-- The block of an assigned page; a page the map leaves unassigned has none (R21). Agent n's pages stand at
0x1000 × (n + 1), virtual function f's at 0x1_0000 + 16f. -/
def pageBlock (pg : Nat) : Option Block :=
  if pg < 0x1000 then
    if 0x080 ≤ pg ∧ pg < 0x088 then some .agp
    else if 0x090 ≤ pg ∧ pg < 0x0B8 then some .port
    else if pg < 0x100 then hubPage pg
    else if pg < 0x200 then partPage (pg % 16)
    else none
  else if pg < 0x9000 then agentPage (pg % 0x1000)
  else if 0x10010 ≤ pg ∧ pg < 0x10210 then vfPage (pg % 16)
  else none

/-- PAGE_ID.instance of a page (R436, R438, R443, R444). -/
def pageInstance (pg : Nat) : Nat :=
  if pg < 0x1000 then
    if 0x080 ≤ pg ∧ pg < 0x088 then pg - 0x080
    else if 0x090 ≤ pg ∧ pg < 0x0B8 then pg - 0x090
    else if 0x100 ≤ pg ∧ pg < 0x200 then
      let p := (pg - 0x100) / 16
      match pg % 16 with
      | 3 | 5 | 7 => 2 * p
      | 4 | 6 | 8 => 2 * p + 1
      | _ => p
    else 0
  else if pg < 0x9000 then 0
  else if 2 ≤ pg % 16 then pg % 16 - 2
  else (pg - 0x10000) / 16

/-- PAGE_ID.block_type (R437, R443, R444); the three port codes differ by medium. -/
def blockType (b : Block) (inst : Nat) : Nat :=
  match b with
  | .dev => 0x0001 | .boot => 0x0002 | .sec => 0x0003 | .fwl => 0x0004 | .pwr => 0x0010 | .aon => 0x0011
  | .time => 0x0020 | .tense => 0x0021 | .ptp => 0x0022 | .pulse => 0x0023 | .mgmt => 0x0030 | .cmp => 0x0031
  | .flt => 0x0040 | .evr => 0x0041 | .dbg => 0x0042 | .drill => 0x0043 | .mbr => 0x0050 | .spare => 0x0051
  | .appo => 0x0052 | .stp => 0x0060 | .mir => 0x0061 | .flow => 0x0062 | .agr => 0x0070 | .agp => 0x0080
  | .port => if inst < 8 then 0x0090 else if inst < 26 then 0x0091 else 0x0092
  | .pcie => 0x00C0 | .prt => 0x0100 | .lpd => 0x0101 | .srm => 0x0102 | .clu => 0x0103 | .vec => 0x0104
  | .red => 0x0105 | .mon => 0x0106
  | .agt => 0x0200 | .asmp => 0x0201 | .astep => 0x0202 | .aflt => 0x0203 | .acmd => 0x0204 | .aprof => 0x0205
  | .vfInfo => 0x0300 | .vfCtx => 0x0301 | .vfDb => 0x0302

/-- PAGE_CAP.n_flt (R436, R443); the AFLT page has 8 sources and 24 accelerator fault inputs (log entry 3). -/
def nFlt : Block → Nat
  | .fwl => 1 | .pwr => 6 | .time => 6 | .tense => 3 | .ptp => 2 | .pulse => 2 | .mgmt => 4 | .cmp => 2 | .flt => 7
  | .evr => 2 | .dbg => 3 | .drill => 2 | .mbr => 7 | .spare => 3 | .appo => 4 | .stp => 7 | .mir => 3 | .flow => 2
  | .agr => 6 | .agp => 4 | .port => 7 | .pcie => 2 | .prt => 5 | .lpd => 4 | .srm => 3 | .clu => 4 | .vec => 2
  | .red => 2 | .mon => 4 | .aflt => 32
  | _ => 0

/-- PAGE_CAP.n_cnt (R436, R443). -/
def nCnt : Block → Nat
  | .dev => 2 | .fwl => 1 | .pwr => 4 | .time => 3 | .tense => 3 | .ptp => 4 | .pulse => 3 | .mgmt => 3 | .cmp => 3
  | .flt => 4 | .evr => 5 | .dbg => 5 | .drill => 2 | .mbr => 6 | .spare => 2 | .appo => 3 | .stp => 7 | .mir => 4
  | .flow => 2 | .agr => 8 | .agp => 4 | .port => 8 | .pcie => 3 | .prt => 3 | .lpd => 2 | .srm => 5 | .clu => 6
  | .vec => 4 | .red => 4 | .mon => 3 | .asmp => 6 | .astep => 6 | .aflt => 2 | .acmd => 1
  | _ => 0

/-- PAGE_CAP.reset_domain (R25, R436, R443): 0 none, 1 device, 2 hub, 4 partition, 5 port, 6 agent. -/
def resetDomain : Block → Nat
  | .dev => 1 | .flt => 2 | .agp => 6 | .port => 5
  | .prt => 4 | .lpd => 4 | .srm => 4 | .clu => 4 | .vec => 4 | .red => 4 | .mon => 4
  | .agt => 6
  | _ => 0

/-- PAGE_CAP.drain_cap (R436). -/
def drainCap : Block → Bool
  | .fwl | .mgmt | .agp | .port | .clu | .vec | .red => true
  | _ => false

/-- The default reactions of a block's fault sources, as FLT_REACT resets (R365 and the source tables): two bits per source. -/
def blockReact : Block → Nat
  | .dev => 0x0
  | .boot => 0x0
  | .sec => 0x0
  | .fwl => 0x1
  | .pwr => 0x555
  | .aon => 0x0
  | .time => 0x555
  | .tense => 0x11
  | .ptp => 0x1
  | .pulse => 0x5
  | .mgmt => 0x55
  | .cmp => 0x7
  | .flt => 0x1FFF
  | .evr => 0x1
  | .dbg => 0x15
  | .drill => 0x1
  | .mbr => 0x1545
  | .spare => 0x15
  | .appo => 0x55
  | .stp => 0x555
  | .mir => 0x15
  | .flow => 0x5
  | .agr => 0x155
  | .pcie => 0x5
  | .agp => 0x55
  | .port => 0x1555
  | .prt => 0x15A
  | .lpd => 0x66
  | .srm => 0x26
  | .mon => 0x55
  | .clu => 0x59
  | .vec => 0xA
  | .red => 0xA
  | .agt => 0x0
  | .asmp => 0x0
  | .astep => 0x0
  | .aflt => 0x5555555555557995
  | .acmd => 0x0
  | .aprof => 0x0
  | .vfInfo => 0
  | .vfCtx => 0
  | .vfDb => 0

/-- FLT_ENABLE at reset: every source enabled (R365). -/
def enableReset (pg : Nat) : Nat := match pageBlock pg with
  | some b => 2 ^ nFlt b - 1
  | none => 0

/-- FLT_REACT at reset: the default reactions of the page (R365). -/
def reactReset (pg : Nat) : Nat := match pageBlock pg with
  | some b => blockReact b
  | none => 0

/-! ### HDR -/

abbrev Reg.PAGE_ID_block_type (pg : Nat) : Fld := ⟨pg * 0x1000 + 0x000, 48, 16, 0⟩
abbrev Reg.PAGE_ID_block_version (pg : Nat) : Fld := ⟨pg * 0x1000 + 0x000, 40, 8, 0⟩
abbrev Reg.PAGE_ID_instance (pg : Nat) : Fld := ⟨pg * 0x1000 + 0x000, 32, 8, 0⟩
abbrev Reg.PAGE_ID_page (pg : Nat) : Fld := ⟨pg * 0x1000 + 0x000, 0, 12, 0⟩
abbrev Reg.PAGE_CAP_block_cap (pg : Nat) : Fld := ⟨pg * 0x1000 + 0x008, 32, 32, 0⟩
abbrev Reg.PAGE_CAP_reset_domain (pg : Nat) : Fld := ⟨pg * 0x1000 + 0x008, 24, 3, 0⟩
abbrev Reg.PAGE_CAP_reset_cap (pg : Nat) : Fld := ⟨pg * 0x1000 + 0x008, 17, 1, 0⟩
abbrev Reg.PAGE_CAP_drain_cap (pg : Nat) : Fld := ⟨pg * 0x1000 + 0x008, 16, 1, 0⟩
abbrev Reg.PAGE_CAP_n_flt (pg : Nat) : Fld := ⟨pg * 0x1000 + 0x008, 8, 6, 0⟩
abbrev Reg.PAGE_CAP_n_cnt (pg : Nat) : Fld := ⟨pg * 0x1000 + 0x008, 0, 4, 0⟩
abbrev Reg.PAGE_CTRL_drain_limit (pg : Nat) : Fld := ⟨pg * 0x1000 + 0x010, 32, 16, 5000⟩
abbrev Reg.PAGE_CTRL_reset_req (pg : Nat) : Fld := ⟨pg * 0x1000 + 0x010, 8, 1, 0⟩
abbrev Reg.PAGE_CTRL_drain (pg : Nat) : Fld := ⟨pg * 0x1000 + 0x010, 1, 1, 1⟩
abbrev Reg.PAGE_CTRL_enable (pg : Nat) : Fld := ⟨pg * 0x1000 + 0x010, 0, 1, 1⟩
abbrev Reg.PAGE_STATUS_block_status (pg : Nat) : Fld := ⟨pg * 0x1000 + 0x018, 32, 32, 0⟩
abbrev Reg.PAGE_STATUS_sat_any (pg : Nat) : Fld := ⟨pg * 0x1000 + 0x018, 7, 1, 0⟩
abbrev Reg.PAGE_STATUS_fault (pg : Nat) : Fld := ⟨pg * 0x1000 + 0x018, 6, 1, 0⟩
abbrev Reg.PAGE_STATUS_reset_active (pg : Nat) : Fld := ⟨pg * 0x1000 + 0x018, 5, 1, 0⟩
abbrev Reg.PAGE_STATUS_forced (pg : Nat) : Fld := ⟨pg * 0x1000 + 0x018, 4, 1, 0⟩
abbrev Reg.PAGE_STATUS_idle (pg : Nat) : Fld := ⟨pg * 0x1000 + 0x018, 3, 1, 1⟩
abbrev Reg.PAGE_STATUS_draining (pg : Nat) : Fld := ⟨pg * 0x1000 + 0x018, 2, 1, 0⟩
abbrev Reg.PAGE_STATUS_enabled (pg : Nat) : Fld := ⟨pg * 0x1000 + 0x018, 0, 1, 1⟩
abbrev Reg.CNT_LATCH_snap_ns (pg : Nat) : Fld := ⟨pg * 0x1000 + 0x080, 32, 30, 0⟩
abbrev Reg.CNT_LATCH_valid (pg : Nat) : Fld := ⟨pg * 0x1000 + 0x080, 2, 1, 0⟩
abbrev Reg.CNT_LATCH_hold (pg : Nat) : Fld := ⟨pg * 0x1000 + 0x080, 1, 1, 0⟩
abbrev Reg.CNT_LATCH_snap (pg : Nat) : Fld := ⟨pg * 0x1000 + 0x080, 0, 1, 0⟩
abbrev Reg.FLT_STATUS_status (pg : Nat) : Fld := ⟨pg * 0x1000 + 0x040, 0, 32, 0⟩
abbrev Reg.FLT_FIRST_valid (pg : Nat) : Fld := ⟨pg * 0x1000 + 0x048, 63, 1, 0⟩
abbrev Reg.FLT_FIRST_react (pg : Nat) : Fld := ⟨pg * 0x1000 + 0x048, 6, 2, 0⟩
abbrev Reg.FLT_FIRST_forced (pg : Nat) : Fld := ⟨pg * 0x1000 + 0x048, 5, 1, 0⟩
abbrev Reg.FLT_FIRST_source (pg : Nat) : Fld := ⟨pg * 0x1000 + 0x048, 0, 5, 0⟩
abbrev Reg.FLT_OVF_ovf (pg : Nat) : Fld := ⟨pg * 0x1000 + 0x050, 0, 32, 0⟩
abbrev Reg.FLT_ENABLE_enable (pg : Nat) : Fld := ⟨pg * 0x1000 + 0x058, 0, 32, enableReset pg⟩
abbrev Reg.FLT_FORCE_force (pg : Nat) : Fld := ⟨pg * 0x1000 + 0x060, 0, 32, 0⟩
abbrev Reg.FLT_REACT_react (pg : Nat) : Fld := ⟨pg * 0x1000 + 0x068, 0, 64, reactReset pg⟩
abbrev Reg.FLT_TIME_time (pg : Nat) : Fld := ⟨pg * 0x1000 + 0x070, 0, 64, 0⟩

/-! ### MGMT -/

abbrev Reg.MGMT_RA_CTRL_timeout : Fld := ⟨0x030 * 0x1000 + 0x110, 32, 16, 2000⟩
abbrev Reg.MGMT_RA_CTRL_op : Fld := ⟨0x030 * 0x1000 + 0x110, 2, 1, 0⟩
abbrev Reg.MGMT_RA_CTRL_go : Fld := ⟨0x030 * 0x1000 + 0x110, 0, 1, 0⟩
abbrev Reg.MGMT_RA_STATUS_acks : Fld := ⟨0x030 * 0x1000 + 0x118, 48, 16, 0⟩
abbrev Reg.MGMT_RA_STATUS_error : Fld := ⟨0x030 * 0x1000 + 0x118, 8, 8, 0⟩
abbrev Reg.MGMT_RA_STATUS_done : Fld := ⟨0x030 * 0x1000 + 0x118, 1, 1, 0⟩
abbrev Reg.MGMT_RA_STATUS_busy : Fld := ⟨0x030 * 0x1000 + 0x118, 0, 1, 0⟩
abbrev Reg.MGMT_PAIR_seq : Fld := ⟨0x030 * 0x1000 + 0x120, 32, 32, 0⟩
abbrev Reg.MGMT_PAIR_state1 : Fld := ⟨0x030 * 0x1000 + 0x120, 12, 4, 0⟩
abbrev Reg.MGMT_PAIR_state0 : Fld := ⟨0x030 * 0x1000 + 0x120, 8, 4, 0⟩
abbrev Reg.MGMT_PAIR_dual : Fld := ⟨0x030 * 0x1000 + 0x120, 1, 1, 0⟩
abbrev Reg.MGMT_PAIR_active : Fld := ⟨0x030 * 0x1000 + 0x120, 0, 1, 0⟩
abbrev Reg.MGMT_PAIR_CTRL_core : Fld := ⟨0x030 * 0x1000 + 0x128, 8, 1, 0⟩
abbrev Reg.MGMT_PAIR_CTRL_offline : Fld := ⟨0x030 * 0x1000 + 0x128, 1, 1, 0⟩
abbrev Reg.MGMT_PAIR_CTRL_retry : Fld := ⟨0x030 * 0x1000 + 0x128, 0, 1, 0⟩
abbrev Reg.MGMT_IRQ_vector : Fld := ⟨0x030 * 0x1000 + 0x130, 32, 11, 0⟩
abbrev Reg.MGMT_IRQ_ra_done_en : Fld := ⟨0x030 * 0x1000 + 0x130, 0, 1, 0⟩
abbrev Reg.MGMT_RA_ADDR_addr : Fld := ⟨0x030 * 0x1000 + 0x100, 3, 61, 0⟩
abbrev Reg.MGMT_RA_DATA_data : Fld := ⟨0x030 * 0x1000 + 0x108, 0, 64, 0⟩

/-! ### PWR -/

abbrev Reg.PWR_FEED_STATUS_feed_b_state : Fld := ⟨0x010 * 0x1000 + 0x100, 6, 2, 1⟩
abbrev Reg.PWR_FEED_STATUS_feed_a_state : Fld := ⟨0x010 * 0x1000 + 0x100, 4, 2, 1⟩
abbrev Reg.PWR_FEED_STATUS_ids_unknown : Fld := ⟨0x010 * 0x1000 + 0x100, 3, 1, 0⟩
abbrev Reg.PWR_FEED_STATUS_ids_shared : Fld := ⟨0x010 * 0x1000 + 0x100, 2, 1, 0⟩
abbrev Reg.PWR_FEED_STATUS_single_feed : Fld := ⟨0x010 * 0x1000 + 0x100, 1, 1, 0⟩
abbrev Reg.PWR_LIMIT_burst_ms : Fld := ⟨0x010 * 0x1000 + 0x118, 48, 8, 10⟩
abbrev Reg.PWR_LIMIT_burst_w : Fld := ⟨0x010 * 0x1000 + 0x118, 32, 16, 820⟩
abbrev Reg.PWR_LIMIT_single_w : Fld := ⟨0x010 * 0x1000 + 0x118, 16, 16, 410⟩
abbrev Reg.PWR_LIMIT_envelope_w : Fld := ⟨0x010 * 0x1000 + 0x118, 0, 16, 750⟩
abbrev Reg.PWR_PKG_POWER_mw : Fld := ⟨0x010 * 0x1000 + 0x120, 0, 32, 0⟩
abbrev Reg.PWR_FEED_CTRL_return_hold : Fld := ⟨0x010 * 0x1000 + 0x128, 32, 16, 100⟩
abbrev Reg.PWR_FEED_CTRL_flap_limit : Fld := ⟨0x010 * 0x1000 + 0x128, 8, 4, 4⟩
abbrev Reg.PWR_FEED_CTRL_rearm_b : Fld := ⟨0x010 * 0x1000 + 0x128, 1, 1, 0⟩
abbrev Reg.PWR_FEED_CTRL_rearm_a : Fld := ⟨0x010 * 0x1000 + 0x128, 0, 1, 0⟩
abbrev Reg.PWR_FEED_ID_A_id : Fld := ⟨0x010 * 0x1000 + 0x108, 0, 64, 0⟩
abbrev Reg.PWR_FEED_ID_B_id : Fld := ⟨0x010 * 0x1000 + 0x110, 0, 64, 0⟩

/-! ### AON -/

abbrev Reg.AON_IDLE_CTRL_wake_feed : Fld := ⟨0x011 * 0x1000 + 0x100, 12, 1, 0⟩
abbrev Reg.AON_IDLE_CTRL_wake_cmp1 : Fld := ⟨0x011 * 0x1000 + 0x100, 11, 1, 0⟩
abbrev Reg.AON_IDLE_CTRL_wake_cmp0 : Fld := ⟨0x011 * 0x1000 + 0x100, 10, 1, 0⟩
abbrev Reg.AON_IDLE_CTRL_wake_i3c : Fld := ⟨0x011 * 0x1000 + 0x100, 9, 1, 1⟩
abbrev Reg.AON_IDLE_CTRL_wake_pin : Fld := ⟨0x011 * 0x1000 + 0x100, 8, 1, 1⟩
abbrev Reg.AON_IDLE_CTRL_enter : Fld := ⟨0x011 * 0x1000 + 0x100, 0, 1, 0⟩
abbrev Reg.AON_IDLE_STATUS_refuse : Fld := ⟨0x011 * 0x1000 + 0x108, 8, 8, 0⟩
abbrev Reg.AON_IDLE_STATUS_ddr_kept : Fld := ⟨0x011 * 0x1000 + 0x108, 3, 1, 0⟩
abbrev Reg.AON_IDLE_STATUS_state : Fld := ⟨0x011 * 0x1000 + 0x108, 0, 3, 0⟩
abbrev Reg.AON_WAKE_CMP_arm (i : Nat) : Fld := ⟨0x011 * 0x1000 + (0x110 + 8 * i), 63, 1, 0⟩
abbrev Reg.AON_WAKE_CMP_seconds (i : Nat) : Fld := ⟨0x011 * 0x1000 + (0x110 + 8 * i), 0, 48, 0⟩
abbrev Reg.AON_WAKE_CAUSE_feed_b_event : Fld := ⟨0x011 * 0x1000 + 0x120, 9, 1, 0⟩
abbrev Reg.AON_WAKE_CAUSE_feed_a_event : Fld := ⟨0x011 * 0x1000 + 0x120, 8, 1, 0⟩
abbrev Reg.AON_WAKE_CAUSE_cause : Fld := ⟨0x011 * 0x1000 + 0x120, 0, 5, 0⟩

/-! ### FWL -/

abbrev Reg.FWL_LEN_len : Fld := ⟨0x003 * 0x1000 + 0x108, 0, 32, 0⟩
abbrev Reg.FWL_CTRL_abort : Fld := ⟨0x003 * 0x1000 + 0x110, 9, 1, 0⟩
abbrev Reg.FWL_CTRL_go : Fld := ⟨0x003 * 0x1000 + 0x110, 8, 1, 0⟩
abbrev Reg.FWL_CTRL_obj : Fld := ⟨0x003 * 0x1000 + 0x110, 0, 4, 0⟩
abbrev Reg.FWL_STATUS_bytes : Fld := ⟨0x003 * 0x1000 + 0x118, 32, 32, 0⟩
abbrev Reg.FWL_STATUS_obj : Fld := ⟨0x003 * 0x1000 + 0x118, 16, 4, 0⟩
abbrev Reg.FWL_STATUS_result : Fld := ⟨0x003 * 0x1000 + 0x118, 8, 8, 0⟩
abbrev Reg.FWL_STATUS_done : Fld := ⟨0x003 * 0x1000 + 0x118, 1, 1, 0⟩
abbrev Reg.FWL_STATUS_busy : Fld := ⟨0x003 * 0x1000 + 0x118, 0, 1, 0⟩
abbrev Reg.FWL_ADDR_addr : Fld := ⟨0x003 * 0x1000 + 0x100, 12, 52, 0⟩

/-! ### SEC -/

abbrev Reg.SEC_FUSE_slot1_revoked : Fld := ⟨0x002 * 0x1000 + 0x100, 9, 1, 0⟩
abbrev Reg.SEC_FUSE_slot0_revoked : Fld := ⟨0x002 * 0x1000 + 0x100, 8, 1, 0⟩
abbrev Reg.SEC_FUSE_rollback : Fld := ⟨0x002 * 0x1000 + 0x100, 0, 8, 0⟩
abbrev Reg.SEC_ROLLBACK_advance : Fld := ⟨0x002 * 0x1000 + 0x108, 0, 1, 0⟩
abbrev Reg.SEC_ATT_CTRL_go : Fld := ⟨0x002 * 0x1000 + 0x130, 0, 1, 0⟩
abbrev Reg.SEC_ATT_STATUS_len : Fld := ⟨0x002 * 0x1000 + 0x138, 16, 16, 0⟩
abbrev Reg.SEC_ATT_STATUS_done : Fld := ⟨0x002 * 0x1000 + 0x138, 1, 1, 0⟩
abbrev Reg.SEC_ATT_STATUS_busy : Fld := ⟨0x002 * 0x1000 + 0x138, 0, 1, 0⟩
abbrev Reg.SEC_NONCE_nonce (i : Nat) : Fld := ⟨0x002 * 0x1000 + (0x110 + 8 * i), 0, 64, 0⟩
abbrev Reg.SEC_CERT_LEN_len : Fld := ⟨0x002 * 0x1000 + 0x140, 0, 64, 0⟩

/-! ### BOOT -/

abbrev Reg.BOOT_STATUS_wake : Fld := ⟨0x001 * 0x1000 + 0x100, 25, 1, 0⟩
abbrev Reg.BOOT_STATUS_held : Fld := ⟨0x001 * 0x1000 + 0x100, 24, 1, 0⟩
abbrev Reg.BOOT_STATUS_attempts : Fld := ⟨0x001 * 0x1000 + 0x100, 16, 8, 0⟩
abbrev Reg.BOOT_STATUS_error : Fld := ⟨0x001 * 0x1000 + 0x100, 8, 8, 0⟩
abbrev Reg.BOOT_STATUS_stage : Fld := ⟨0x001 * 0x1000 + 0x100, 0, 4, 1⟩
abbrev Reg.BOOT_CTRL_disc_wait : Fld := ⟨0x001 * 0x1000 + 0x108, 40, 8, 15⟩
abbrev Reg.BOOT_CTRL_pack_wait : Fld := ⟨0x001 * 0x1000 + 0x108, 16, 16, 2000⟩
abbrev Reg.BOOT_CTRL_start_tests : Fld := ⟨0x001 * 0x1000 + 0x108, 9, 1, 0⟩
abbrev Reg.BOOT_CTRL_resume : Fld := ⟨0x001 * 0x1000 + 0x108, 8, 1, 0⟩
abbrev Reg.BOOT_CTRL_hold_after : Fld := ⟨0x001 * 0x1000 + 0x108, 0, 4, 0⟩
abbrev Reg.BOOT_ELAPSED_host_ms : Fld := ⟨0x001 * 0x1000 + 0x110, 32, 32, 0⟩
abbrev Reg.BOOT_ELAPSED_device_ms : Fld := ⟨0x001 * 0x1000 + 0x110, 0, 32, 0⟩
abbrev Reg.BOOT_RESULT_lanes_silent : Fld := ⟨0x001 * 0x1000 + 0x118, 40, 8, 0⟩
abbrev Reg.BOOT_RESULT_lanes_failed : Fld := ⟨0x001 * 0x1000 + 0x118, 32, 8, 0⟩
abbrev Reg.BOOT_RESULT_part_degraded : Fld := ⟨0x001 * 0x1000 + 0x118, 16, 16, 0⟩
abbrev Reg.BOOT_RESULT_part_out : Fld := ⟨0x001 * 0x1000 + 0x118, 0, 16, 0⟩

/-! ### DEV -/

abbrev Reg.DEV_CTX_SEL_ctx : Fld := ⟨0x000 * 0x1000 + 0x200, 0, 10, 0⟩
abbrev Reg.DEV_CTX_CFG_class : Fld := ⟨0x000 * 0x1000 + 0x208, 62, 2, 0⟩
abbrev Reg.DEV_CTX_CFG_threads : Fld := ⟨0x000 * 0x1000 + 0x208, 48, 8, 1⟩
abbrev Reg.DEV_CTX_CFG_local : Fld := ⟨0x000 * 0x1000 + 0x208, 40, 7, 0⟩
abbrev Reg.DEV_CTX_CFG_vf : Fld := ⟨0x000 * 0x1000 + 0x208, 32, 6, 0⟩
abbrev Reg.DEV_CTX_CFG_cluster_mask : Fld := ⟨0x000 * 0x1000 + 0x208, 0, 32, 4294967295⟩
abbrev Reg.DEV_CTX_RING_base : Fld := ⟨0x000 * 0x1000 + 0x210, 12, 35, 0⟩
abbrev Reg.DEV_CTX_RING_log2n : Fld := ⟨0x000 * 0x1000 + 0x210, 0, 4, 6⟩
abbrev Reg.DEV_CTX_CMPL_vector : Fld := ⟨0x000 * 0x1000 + 0x218, 53, 11, 0⟩
abbrev Reg.DEV_CTX_CMPL_base : Fld := ⟨0x000 * 0x1000 + 0x218, 12, 35, 0⟩
abbrev Reg.DEV_CTX_QUOTA_host_pages : Fld := ⟨0x000 * 0x1000 + 0x220, 40, 24, 0⟩
abbrev Reg.DEV_CTX_QUOTA_lpd_pages : Fld := ⟨0x000 * 0x1000 + 0x220, 16, 24, 0⟩
abbrev Reg.DEV_CTX_QUOTA_sram_pages : Fld := ⟨0x000 * 0x1000 + 0x220, 0, 16, 64⟩
abbrev Reg.DEV_CTX_HOSTWIN_base : Fld := ⟨0x000 * 0x1000 + 0x228, 21, 43, 0⟩
abbrev Reg.DEV_CTX_HOSTWIN_win_pages : Fld := ⟨0x000 * 0x1000 + 0x228, 0, 21, 0⟩
abbrev Reg.DEV_CTX_CTRL_destroy : Fld := ⟨0x000 * 0x1000 + 0x230, 9, 1, 0⟩
abbrev Reg.DEV_CTX_CTRL_create : Fld := ⟨0x000 * 0x1000 + 0x230, 8, 1, 0⟩
abbrev Reg.DEV_CTX_CTRL_err_clear : Fld := ⟨0x000 * 0x1000 + 0x230, 1, 1, 0⟩
abbrev Reg.DEV_CTX_CTRL_enable : Fld := ⟨0x000 * 0x1000 + 0x230, 0, 1, 0⟩
abbrev Reg.DEV_CTX_STATUS_head : Fld := ⟨0x000 * 0x1000 + 0x238, 32, 16, 0⟩
abbrev Reg.DEV_CTX_STATUS_error : Fld := ⟨0x000 * 0x1000 + 0x238, 16, 8, 0⟩
abbrev Reg.DEV_CTX_STATUS_gen : Fld := ⟨0x000 * 0x1000 + 0x238, 8, 8, 0⟩
abbrev Reg.DEV_CTX_STATUS_state : Fld := ⟨0x000 * 0x1000 + 0x238, 0, 3, 0⟩
abbrev Reg.DEV_SPILL_base : Fld := ⟨0x000 * 0x1000 + 0x240, 21, 43, 0⟩
abbrev Reg.DEV_SPILL_pages : Fld := ⟨0x000 * 0x1000 + 0x240, 0, 21, 0⟩
abbrev Reg.DEV_PROF_SEL_entry : Fld := ⟨0x000 * 0x1000 + 0x300, 0, 8, 0⟩
abbrev Reg.DEV_PROF_W0_family : Fld := ⟨0x000 * 0x1000 + 0x308, 48, 16, 0⟩
abbrev Reg.DEV_PROF_W0_fam_version : Fld := ⟨0x000 * 0x1000 + 0x308, 40, 8, 0⟩
abbrev Reg.DEV_PROF_W0_chunk_log2 : Fld := ⟨0x000 * 0x1000 + 0x308, 32, 4, 5⟩
abbrev Reg.DEV_PROF_W0_chunk_mode : Fld := ⟨0x000 * 0x1000 + 0x308, 30, 2, 0⟩
abbrev Reg.DEV_PROF_W0_acc_round : Fld := ⟨0x000 * 0x1000 + 0x308, 28, 2, 0⟩
abbrev Reg.DEV_PROF_W0_out_round : Fld := ⟨0x000 * 0x1000 + 0x308, 26, 2, 0⟩
abbrev Reg.DEV_PROF_W0_in_denorm_ftz : Fld := ⟨0x000 * 0x1000 + 0x308, 25, 1, 0⟩
abbrev Reg.DEV_PROF_W0_acc_denorm_ftz : Fld := ⟨0x000 * 0x1000 + 0x308, 24, 1, 0⟩
abbrev Reg.DEV_PROF_W0_out_denorm_ftz : Fld := ⟨0x000 * 0x1000 + 0x308, 23, 1, 0⟩
abbrev Reg.DEV_PROF_W0_sat : Fld := ⟨0x000 * 0x1000 + 0x308, 22, 1, 0⟩
abbrev Reg.DEV_PROF_W0_nan_eq : Fld := ⟨0x000 * 0x1000 + 0x308, 21, 1, 0⟩
abbrev Reg.DEV_PROF_W0_int_acc : Fld := ⟨0x000 * 0x1000 + 0x308, 20, 1, 0⟩
abbrev Reg.DEV_PROF_W0_mx_ceil : Fld := ⟨0x000 * 0x1000 + 0x308, 19, 1, 0⟩
abbrev Reg.DEV_PROF_W1_mode : Fld := ⟨0x000 * 0x1000 + 0x310, 62, 2, 0⟩
abbrev Reg.DEV_PROF_W1_ulp : Fld := ⟨0x000 * 0x1000 + 0x310, 48, 8, 0⟩
abbrev Reg.DEV_PROF_W1_fmt_mask : Fld := ⟨0x000 * 0x1000 + 0x310, 0, 16, 0⟩
abbrev Reg.DEV_PROF_STATUS_result : Fld := ⟨0x000 * 0x1000 + 0x318, 8, 8, 0⟩
abbrev Reg.DEV_PROF_STATUS_source : Fld := ⟨0x000 * 0x1000 + 0x318, 0, 2, 0⟩
abbrev Reg.DEV_PLAN_STATUS_generation : Fld := ⟨0x000 * 0x1000 + 0x400, 32, 32, 0⟩
abbrev Reg.DEV_PLAN_STATUS_rack : Fld := ⟨0x000 * 0x1000 + 0x400, 16, 16, 0⟩
abbrev Reg.DEV_PLAN_STATUS_reject : Fld := ⟨0x000 * 0x1000 + 0x400, 8, 8, 0⟩
abbrev Reg.DEV_PLAN_STATUS_loaded : Fld := ⟨0x000 * 0x1000 + 0x400, 0, 1, 0⟩
abbrev Reg.DEV_FAB_CTRL_w_c : Fld := ⟨0x000 * 0x1000 + 0x408, 56, 8, 3⟩
abbrev Reg.DEV_FAB_CTRL_w_a : Fld := ⟨0x000 * 0x1000 + 0x408, 48, 8, 1⟩
abbrev Reg.DEV_FAB_CTRL_sat_pct : Fld := ⟨0x000 * 0x1000 + 0x408, 40, 8, 90⟩
abbrev Reg.DEV_FAB_CTRL_idle_pct : Fld := ⟨0x000 * 0x1000 + 0x408, 32, 8, 50⟩
abbrev Reg.DEV_FAB_CTRL_indirect_pct : Fld := ⟨0x000 * 0x1000 + 0x408, 24, 8, 25⟩
abbrev Reg.DEV_FAB_STATUS_g_missing : Fld := ⟨0x000 * 0x1000 + 0x410, 56, 8, 0⟩
abbrev Reg.DEV_FAB_STATUS_x_missing : Fld := ⟨0x000 * 0x1000 + 0x410, 48, 8, 0⟩
abbrev Reg.DEV_FAB_STATUS_quarantined : Fld := ⟨0x000 * 0x1000 + 0x410, 40, 8, 0⟩
abbrev Reg.DEV_FAB_STATUS_remapped : Fld := ⟨0x000 * 0x1000 + 0x410, 32, 8, 0⟩
abbrev Reg.DEV_CTX_CNTSEL_sel1 : Fld := ⟨0x000 * 0x1000 + 0x248, 8, 8, 4⟩
abbrev Reg.DEV_CTX_CNTSEL_sel0 : Fld := ⟨0x000 * 0x1000 + 0x248, 0, 8, 1⟩
abbrev Reg.DEV_NRG_WEIGHT_w_lpd : Fld := ⟨0x000 * 0x1000 + 0x548, 24, 8, 80⟩
abbrev Reg.DEV_NRG_WEIGHT_w_sram : Fld := ⟨0x000 * 0x1000 + 0x548, 16, 8, 2⟩
abbrev Reg.DEV_NRG_WEIGHT_w_red : Fld := ⟨0x000 * 0x1000 + 0x548, 8, 8, 1⟩
abbrev Reg.DEV_NRG_WEIGHT_w_vec : Fld := ⟨0x000 * 0x1000 + 0x548, 0, 8, 3⟩
abbrev Reg.DEV_NRG_P0_mw : Fld := ⟨0x000 * 0x1000 + 0x550, 0, 32, 0⟩
abbrev Reg.DEV_PROG_SEL_root : Fld := ⟨0x000 * 0x1000 + 0x580, 63, 1, 0⟩
abbrev Reg.DEV_PROG_SEL_valid : Fld := ⟨0x000 * 0x1000 + 0x580, 62, 1, 0⟩
abbrev Reg.DEV_PROG_SEL_inst : Fld := ⟨0x000 * 0x1000 + 0x580, 0, 3, 0⟩
abbrev Reg.DEV_PROG_STATUS_job : Fld := ⟨0x000 * 0x1000 + 0x588, 32, 32, 0⟩
abbrev Reg.DEV_PROG_STATUS_p_base_us : Fld := ⟨0x000 * 0x1000 + 0x588, 0, 32, 0⟩
abbrev Reg.DEV_NRG_TOTAL_uj : Fld := ⟨0x000 * 0x1000 + 0x500, 0, 64, 0⟩
abbrev Reg.DEV_NRG_BASE_uj : Fld := ⟨0x000 * 0x1000 + 0x508, 0, 64, 0⟩
abbrev Reg.DEV_NRG_C_uj : Fld := ⟨0x000 * 0x1000 + 0x510, 0, 64, 0⟩
abbrev Reg.DEV_NRG_A_uj : Fld := ⟨0x000 * 0x1000 + 0x518, 0, 64, 0⟩
abbrev Reg.DEV_NRG_G_uj : Fld := ⟨0x000 * 0x1000 + 0x520, 0, 64, 0⟩
abbrev Reg.DEV_NRG_AGR_uj : Fld := ⟨0x000 * 0x1000 + 0x528, 0, 64, 0⟩
abbrev Reg.DEV_NRG_STP_uj : Fld := ⟨0x000 * 0x1000 + 0x530, 0, 64, 0⟩
abbrev Reg.DEV_CHK_KOPS_kops : Fld := ⟨0x000 * 0x1000 + 0x538, 0, 64, 0⟩
abbrev Reg.DEV_SNAP_BYTES_bytes : Fld := ⟨0x000 * 0x1000 + 0x540, 0, 64, 0⟩
abbrev Reg.DEV_PROG_WALL_w : Fld := ⟨0x000 * 0x1000 + 0x590, 0, 64, 0⟩
abbrev Reg.DEV_PROG_USEFUL_w : Fld := ⟨0x000 * 0x1000 + 0x598, 0, 64, 0⟩
abbrev Reg.DEV_PROG_DEGRADED_w : Fld := ⟨0x000 * 0x1000 + 0x5A0, 0, 64, 0⟩
abbrev Reg.DEV_PROG_GATE_w : Fld := ⟨0x000 * 0x1000 + 0x5A8, 0, 64, 0⟩
abbrev Reg.DEV_PROG_REPLAY_w : Fld := ⟨0x000 * 0x1000 + 0x5B0, 0, 64, 0⟩
abbrev Reg.DEV_PROG_RECOVER_w : Fld := ⟨0x000 * 0x1000 + 0x5B8, 0, 64, 0⟩
abbrev Reg.DEV_PROG_LOST_w : Fld := ⟨0x000 * 0x1000 + 0x5C0, 0, 64, 0⟩
abbrev Reg.DEV_PROG_DRILL_w : Fld := ⟨0x000 * 0x1000 + 0x5C8, 0, 64, 0⟩

/-! ### CLU -/

abbrev Reg.CLU_CORE_MAP_failed (c : Nat) : Fld := ⟨(0x103 + 16 * (c / 2) + c % 2) * 0x1000 + 0x100, 40, 17, 0⟩
abbrev Reg.CLU_CORE_MAP_spare (c : Nat) : Fld := ⟨(0x103 + 16 * (c / 2) + c % 2) * 0x1000 + 0x100, 32, 5, 16⟩
abbrev Reg.CLU_CORE_MAP_active (c : Nat) : Fld := ⟨(0x103 + 16 * (c / 2) + c % 2) * 0x1000 + 0x100, 0, 17, 65535⟩
abbrev Reg.CLU_CREDIT_C_hold_max (c : Nat) : Fld := ⟨(0x103 + 16 * (c / 2) + c % 2) * 0x1000 + 0x108, 48, 16, 0⟩
abbrev Reg.CLU_CREDIT_A_hold_max (c : Nat) : Fld := ⟨(0x103 + 16 * (c / 2) + c % 2) * 0x1000 + 0x110, 48, 16, 8192⟩
abbrev Reg.CLU_CREDIT_G_hold_max (c : Nat) : Fld := ⟨(0x103 + 16 * (c / 2) + c % 2) * 0x1000 + 0x118, 48, 16, 4096⟩
abbrev Reg.CLU_CREDIT_C_threads_max (c : Nat) : Fld := ⟨(0x103 + 16 * (c / 2) + c % 2) * 0x1000 + 0x108, 32, 8, 32⟩
abbrev Reg.CLU_CREDIT_A_threads_max (c : Nat) : Fld := ⟨(0x103 + 16 * (c / 2) + c % 2) * 0x1000 + 0x110, 32, 8, 128⟩
abbrev Reg.CLU_CREDIT_G_threads_max (c : Nat) : Fld := ⟨(0x103 + 16 * (c / 2) + c % 2) * 0x1000 + 0x118, 32, 8, 96⟩
abbrev Reg.CLU_CREDIT_C_ftq_max (c : Nat) : Fld := ⟨(0x103 + 16 * (c / 2) + c % 2) * 0x1000 + 0x108, 24, 8, 16⟩
abbrev Reg.CLU_CREDIT_A_ftq_max (c : Nat) : Fld := ⟨(0x103 + 16 * (c / 2) + c % 2) * 0x1000 + 0x110, 24, 8, 48⟩
abbrev Reg.CLU_CREDIT_G_ftq_max (c : Nat) : Fld := ⟨(0x103 + 16 * (c / 2) + c % 2) * 0x1000 + 0x118, 24, 8, 32⟩
abbrev Reg.CLU_CREDIT_C_sram_slots (c : Nat) : Fld := ⟨(0x103 + 16 * (c / 2) + c % 2) * 0x1000 + 0x108, 16, 8, 32⟩
abbrev Reg.CLU_CREDIT_A_sram_slots (c : Nat) : Fld := ⟨(0x103 + 16 * (c / 2) + c % 2) * 0x1000 + 0x110, 16, 8, 96⟩
abbrev Reg.CLU_CREDIT_G_sram_slots (c : Nat) : Fld := ⟨(0x103 + 16 * (c / 2) + c % 2) * 0x1000 + 0x118, 16, 8, 64⟩
abbrev Reg.CLU_CREDIT_C_lpd_slots (c : Nat) : Fld := ⟨(0x103 + 16 * (c / 2) + c % 2) * 0x1000 + 0x108, 8, 8, 16⟩
abbrev Reg.CLU_CREDIT_A_lpd_slots (c : Nat) : Fld := ⟨(0x103 + 16 * (c / 2) + c % 2) * 0x1000 + 0x110, 8, 8, 48⟩
abbrev Reg.CLU_CREDIT_G_lpd_slots (c : Nat) : Fld := ⟨(0x103 + 16 * (c / 2) + c % 2) * 0x1000 + 0x118, 8, 8, 32⟩
abbrev Reg.CLU_THREAD_SEL_thread (c : Nat) : Fld := ⟨(0x103 + 16 * (c / 2) + c % 2) * 0x1000 + 0x120, 0, 8, 0⟩
abbrev Reg.CLU_THREAD_STATUS_gen (c : Nat) : Fld := ⟨(0x103 + 16 * (c / 2) + c % 2) * 0x1000 + 0x128, 48, 8, 0⟩
abbrev Reg.CLU_THREAD_STATUS_desc (c : Nat) : Fld := ⟨(0x103 + 16 * (c / 2) + c % 2) * 0x1000 + 0x128, 32, 16, 0⟩
abbrev Reg.CLU_THREAD_STATUS_ctx (c : Nat) : Fld := ⟨(0x103 + 16 * (c / 2) + c % 2) * 0x1000 + 0x128, 8, 10, 0⟩
abbrev Reg.CLU_THREAD_STATUS_class (c : Nat) : Fld := ⟨(0x103 + 16 * (c / 2) + c % 2) * 0x1000 + 0x128, 4, 2, 0⟩
abbrev Reg.CLU_THREAD_STATUS_state (c : Nat) : Fld := ⟨(0x103 + 16 * (c / 2) + c % 2) * 0x1000 + 0x128, 0, 4, 0⟩

/-! ### SRM -/

abbrev Reg.SRM_RESERVE_c_lpd_gib (p : Nat) : Fld := ⟨(0x102 + 16 * p) * 0x1000 + 0x100, 48, 8, 40⟩
abbrev Reg.SRM_RESERVE_c_sram_mib (p : Nat) : Fld := ⟨(0x102 + 16 * p) * 0x1000 + 0x100, 0, 16, 512⟩
abbrev Reg.SRM_OCCUPANCY_free (p : Nat) : Fld := ⟨(0x102 + 16 * p) * 0x1000 + 0x108, 48, 11, 0⟩
abbrev Reg.SRM_OCCUPANCY_g (p : Nat) : Fld := ⟨(0x102 + 16 * p) * 0x1000 + 0x108, 32, 11, 0⟩
abbrev Reg.SRM_OCCUPANCY_a (p : Nat) : Fld := ⟨(0x102 + 16 * p) * 0x1000 + 0x108, 16, 11, 0⟩
abbrev Reg.SRM_OCCUPANCY_c (p : Nat) : Fld := ⟨(0x102 + 16 * p) * 0x1000 + 0x108, 0, 11, 0⟩

/-! ### VEC -/

abbrev Reg.VEC_COEF_SEL_set (c : Nat) : Fld := ⟨(0x105 + 16 * (c / 2) + c % 2) * 0x1000 + 0x100, 48, 3, 0⟩
abbrev Reg.VEC_COEF_SEL_index (c : Nat) : Fld := ⟨(0x105 + 16 * (c / 2) + c % 2) * 0x1000 + 0x100, 0, 11, 0⟩
abbrev Reg.VEC_COEF_DATA_data (c : Nat) : Fld := ⟨(0x105 + 16 * (c / 2) + c % 2) * 0x1000 + 0x108, 0, 64, 0⟩
abbrev Reg.VEC_COEF_CTRL_invalidate (c : Nat) : Fld := ⟨(0x105 + 16 * (c / 2) + c % 2) * 0x1000 + 0x110, 1, 1, 0⟩
abbrev Reg.VEC_COEF_CTRL_commit (c : Nat) : Fld := ⟨(0x105 + 16 * (c / 2) + c % 2) * 0x1000 + 0x110, 0, 1, 0⟩
abbrev Reg.VEC_COEF_STATUS_result (c : Nat) : Fld := ⟨(0x105 + 16 * (c / 2) + c % 2) * 0x1000 + 0x118, 8, 8, 0⟩
abbrev Reg.VEC_COEF_STATUS_valid (c : Nat) : Fld := ⟨(0x105 + 16 * (c / 2) + c % 2) * 0x1000 + 0x118, 0, 8, 1⟩
abbrev Reg.VEC_FTQ_STATUS_free (c : Nat) : Fld := ⟨(0x105 + 16 * (c / 2) + c % 2) * 0x1000 + 0x120, 24, 8, 64⟩
abbrev Reg.VEC_FTQ_STATUS_g (c : Nat) : Fld := ⟨(0x105 + 16 * (c / 2) + c % 2) * 0x1000 + 0x120, 16, 8, 0⟩
abbrev Reg.VEC_FTQ_STATUS_a (c : Nat) : Fld := ⟨(0x105 + 16 * (c / 2) + c % 2) * 0x1000 + 0x120, 8, 8, 0⟩
abbrev Reg.VEC_FTQ_STATUS_c (c : Nat) : Fld := ⟨(0x105 + 16 * (c / 2) + c % 2) * 0x1000 + 0x120, 0, 8, 0⟩

/-! ### RED -/

abbrev Reg.RED_REF_STATUS_held (c : Nat) : Fld := ⟨(0x107 + 16 * (c / 2) + c % 2) * 0x1000 + 0x100, 0, 16, 0⟩

/-! ### AGT -/

abbrev Reg.AGT_INFO_family (a : Nat) : Fld := ⟨(0x1000 * (a + 1) + 0) * 0x1000 + 0x100, 48, 16, 1⟩
abbrev Reg.AGT_INFO_version (a : Nat) : Fld := ⟨(0x1000 * (a + 1) + 0) * 0x1000 + 0x100, 40, 8, 3⟩
abbrev Reg.AGT_INFO_n_eng (a : Nat) : Fld := ⟨(0x1000 * (a + 1) + 0) * 0x1000 + 0x100, 32, 8, 64⟩
abbrev Reg.AGT_INFO_n_accflt (a : Nat) : Fld := ⟨(0x1000 * (a + 1) + 0) * 0x1000 + 0x100, 24, 8, 24⟩
abbrev Reg.AGT_INFO_n_ctr (a : Nat) : Fld := ⟨(0x1000 * (a + 1) + 0) * 0x1000 + 0x100, 16, 8, 4⟩
abbrev Reg.AGT_INFO_copy_cut (a : Nat) : Fld := ⟨(0x1000 * (a + 1) + 0) * 0x1000 + 0x100, 1, 1, 1⟩
abbrev Reg.AGT_INFO_hold_cut (a : Nat) : Fld := ⟨(0x1000 * (a + 1) + 0) * 0x1000 + 0x100, 0, 1, 1⟩
abbrev Reg.AGT_CTRL_jump_us (a : Nat) : Fld := ⟨(0x1000 * (a + 1) + 0) * 0x1000 + 0x108, 32, 16, 10⟩
abbrev Reg.AGT_CTRL_rearm_time (a : Nat) : Fld := ⟨(0x1000 * (a + 1) + 0) * 0x1000 + 0x108, 1, 1, 0⟩
abbrev Reg.AGT_CTRL_port_en (a : Nat) : Fld := ⟨(0x1000 * (a + 1) + 0) * 0x1000 + 0x108, 0, 1, 1⟩
abbrev Reg.AGT_STATUS_chip (a : Nat) : Fld := ⟨(0x1000 * (a + 1) + 0) * 0x1000 + 0x110, 48, 16, 0⟩
abbrev Reg.AGT_STATUS_chip_valid (a : Nat) : Fld := ⟨(0x1000 * (a + 1) + 0) * 0x1000 + 0x110, 47, 1, 0⟩
abbrev Reg.AGT_STATUS_acc (a : Nat) : Fld := ⟨(0x1000 * (a + 1) + 0) * 0x1000 + 0x110, 44, 3, 0⟩
abbrev Reg.AGT_STATUS_epoch (a : Nat) : Fld := ⟨(0x1000 * (a + 1) + 0) * 0x1000 + 0x110, 8, 32, 0⟩
abbrev Reg.AGT_STATUS_port (a : Nat) : Fld := ⟨(0x1000 * (a + 1) + 0) * 0x1000 + 0x110, 0, 3, 0⟩
abbrev Reg.AGT_TIME_S_seconds (a : Nat) : Fld := ⟨(0x1000 * (a + 1) + 0) * 0x1000 + 0x118, 0, 48, 0⟩
abbrev Reg.AGT_TIME_NS_ns (a : Nat) : Fld := ⟨(0x1000 * (a + 1) + 0) * 0x1000 + 0x120, 16, 30, 0⟩
abbrev Reg.AGT_TIME_NS_frac (a : Nat) : Fld := ⟨(0x1000 * (a + 1) + 0) * 0x1000 + 0x120, 0, 16, 0⟩
abbrev Reg.AGT_TIME_STATUS_offset (a : Nat) : Fld := ⟨(0x1000 * (a + 1) + 0) * 0x1000 + 0x128, 32, 32, 0⟩
abbrev Reg.AGT_TIME_STATUS_jump_refused (a : Nat) : Fld := ⟨(0x1000 * (a + 1) + 0) * 0x1000 + 0x128, 2, 1, 0⟩
abbrev Reg.AGT_TIME_STATUS_holdover (a : Nat) : Fld := ⟨(0x1000 * (a + 1) + 0) * 0x1000 + 0x128, 1, 1, 0⟩
abbrev Reg.AGT_TIME_STATUS_locked (a : Nat) : Fld := ⟨(0x1000 * (a + 1) + 0) * 0x1000 + 0x128, 0, 1, 0⟩

/-! ### ASMP -/

abbrev Reg.ASMP_STATE_threshold (a : Nat) : Fld := ⟨(0x1000 * (a + 1) + 1) * 0x1000 + 0x100, 48, 13, 0⟩
abbrev Reg.ASMP_STATE_key_valid (a : Nat) : Fld := ⟨(0x1000 * (a + 1) + 1) * 0x1000 + 0x100, 40, 1, 0⟩
abbrev Reg.ASMP_STATE_step (a : Nat) : Fld := ⟨(0x1000 * (a + 1) + 1) * 0x1000 + 0x100, 0, 40, 0⟩
abbrev Reg.ASMP_SHIP_base (a : Nat) : Fld := ⟨(0x1000 * (a + 1) + 1) * 0x1000 + 0x108, 21, 43, 0⟩
abbrev Reg.ASMP_SHIP_pages (a : Nat) : Fld := ⟨(0x1000 * (a + 1) + 1) * 0x1000 + 0x108, 0, 21, 0⟩
abbrev Reg.ASMP_RESID_used (a : Nat) : Fld := ⟨(0x1000 * (a + 1) + 1) * 0x1000 + 0x110, 0, 17, 0⟩

/-! ### ASTEP -/

abbrev Reg.ASTEP_STATE_step (a : Nat) : Fld := ⟨(0x1000 * (a + 1) + 2) * 0x1000 + 0x100, 24, 40, 0⟩
abbrev Reg.ASTEP_STATE_exec (a : Nat) : Fld := ⟨(0x1000 * (a + 1) + 2) * 0x1000 + 0x100, 16, 8, 0⟩
abbrev Reg.ASTEP_STATE_state (a : Nat) : Fld := ⟨(0x1000 * (a + 1) + 2) * 0x1000 + 0x100, 0, 3, 0⟩
abbrev Reg.ASTEP_JNL_base (a : Nat) : Fld := ⟨(0x1000 * (a + 1) + 2) * 0x1000 + 0x108, 21, 43, 0⟩
abbrev Reg.ASTEP_SHARDMAP_base (a : Nat) : Fld := ⟨(0x1000 * (a + 1) + 2) * 0x1000 + 0x110, 6, 58, 0⟩
abbrev Reg.ASTEP_STAGE_base (a : Nat) : Fld := ⟨(0x1000 * (a + 1) + 2) * 0x1000 + 0x118, 21, 43, 0⟩
abbrev Reg.ASTEP_STAGE_pages (a : Nat) : Fld := ⟨(0x1000 * (a + 1) + 2) * 0x1000 + 0x118, 0, 21, 0⟩
abbrev Reg.ASTEP_CUT_cut_id (a : Nat) : Fld := ⟨(0x1000 * (a + 1) + 2) * 0x1000 + 0x120, 32, 32, 0⟩
abbrev Reg.ASTEP_CUT_status (a : Nat) : Fld := ⟨(0x1000 * (a + 1) + 2) * 0x1000 + 0x120, 24, 8, 0⟩
abbrev Reg.ASTEP_CUT_mode (a : Nat) : Fld := ⟨(0x1000 * (a + 1) + 2) * 0x1000 + 0x120, 23, 1, 0⟩
abbrev Reg.ASTEP_LIMITS_map_count (a : Nat) : Fld := ⟨(0x1000 * (a + 1) + 2) * 0x1000 + 0x128, 48, 16, 0⟩
abbrev Reg.ASTEP_LIMITS_stream_share (a : Nat) : Fld := ⟨(0x1000 * (a + 1) + 2) * 0x1000 + 0x128, 32, 8, 50⟩
abbrev Reg.ASTEP_LIMITS_cut_abandon (a : Nat) : Fld := ⟨(0x1000 * (a + 1) + 2) * 0x1000 + 0x128, 0, 32, 5000⟩

/-! ### AFLT -/

abbrev Reg.AFLT_ENG_SEL_eng (a : Nat) : Fld := ⟨(0x1000 * (a + 1) + 3) * 0x1000 + 0x100, 0, 6, 0⟩
abbrev Reg.AFLT_ENG_TIMEOUT_us (a : Nat) : Fld := ⟨(0x1000 * (a + 1) + 3) * 0x1000 + 0x108, 0, 32, 100000⟩
abbrev Reg.AFLT_ENG_HUNG_hung (a : Nat) : Fld := ⟨(0x1000 * (a + 1) + 3) * 0x1000 + 0x110, 0, 64, 0⟩

/-! ### ACMD -/

abbrev Reg.ACMD_RING_base (a : Nat) : Fld := ⟨(0x1000 * (a + 1) + 4) * 0x1000 + 0x100, 12, 52, 0⟩
abbrev Reg.ACMD_RING_log2n (a : Nat) : Fld := ⟨(0x1000 * (a + 1) + 4) * 0x1000 + 0x100, 0, 4, 8⟩
abbrev Reg.ACMD_SEL_src (a : Nat) : Fld := ⟨(0x1000 * (a + 1) + 4) * 0x1000 + 0x108, 0, 16, 12816⟩
abbrev Reg.ACMD_STATUS_index (a : Nat) : Fld := ⟨(0x1000 * (a + 1) + 4) * 0x1000 + 0x110, 16, 16, 0⟩
abbrev Reg.ACMD_STATUS_open (a : Nat) : Fld := ⟨(0x1000 * (a + 1) + 4) * 0x1000 + 0x110, 0, 6, 0⟩

/-! ### AGP -/

abbrev Reg.AGP_STATUS_committed (n : Nat) : Fld := ⟨(0x080 + n) * 0x1000 + 0x100, 24, 40, 0⟩
abbrev Reg.AGP_STATUS_state (n : Nat) : Fld := ⟨(0x080 + n) * 0x1000 + 0x100, 10, 3, 0⟩
abbrev Reg.AGP_STATUS_port (n : Nat) : Fld := ⟨(0x080 + n) * 0x1000 + 0x100, 7, 3, 0⟩
abbrev Reg.AGP_STATUS_decl (n : Nat) : Fld := ⟨(0x080 + n) * 0x1000 + 0x100, 2, 1, 0⟩
abbrev Reg.AGP_STATUS_admitted (n : Nat) : Fld := ⟨(0x080 + n) * 0x1000 + 0x100, 1, 1, 0⟩
abbrev Reg.AGP_STATUS_present (n : Nat) : Fld := ⟨(0x080 + n) * 0x1000 + 0x100, 0, 1, 0⟩
abbrev Reg.AGP_MARK_step (n : Nat) : Fld := ⟨(0x080 + n) * 0x1000 + 0x108, 24, 40, 0⟩
abbrev Reg.AGP_MARK_exec (n : Nat) : Fld := ⟨(0x080 + n) * 0x1000 + 0x108, 16, 8, 0⟩
abbrev Reg.AGP_CTRL_fence (n : Nat) : Fld := ⟨(0x080 + n) * 0x1000 + 0x110, 1, 1, 0⟩
abbrev Reg.AGP_CTRL_admit (n : Nat) : Fld := ⟨(0x080 + n) * 0x1000 + 0x110, 0, 1, 0⟩

/-! ### AGR -/

abbrev Reg.AGR_CTRL_grace_pm : Fld := ⟨0x070 * 0x1000 + 0x100, 32, 16, 20⟩
abbrev Reg.AGR_CTRL_base_thr : Fld := ⟨0x070 * 0x1000 + 0x100, 16, 13, 256⟩
abbrev Reg.AGR_CTRL_floor_log2 : Fld := ⟨0x070 * 0x1000 + 0x100, 0, 4, 4⟩
abbrev Reg.AGR_LIMITS_overdue_ms : Fld := ⟨0x070 * 0x1000 + 0x108, 48, 16, 2000⟩
abbrev Reg.AGR_LIMITS_max_replays : Fld := ⟨0x070 * 0x1000 + 0x108, 32, 8, 3⟩
abbrev Reg.AGR_LIMITS_core_suspects : Fld := ⟨0x070 * 0x1000 + 0x108, 16, 8, 2⟩
abbrev Reg.AGR_LIMITS_cache_mib : Fld := ⟨0x070 * 0x1000 + 0x108, 0, 16, 2048⟩
abbrev Reg.AGR_ACC_SEL_acc : Fld := ⟨0x070 * 0x1000 + 0x110, 0, 3, 0⟩
abbrev Reg.AGR_ACC_STATUS_debt_us : Fld := ⟨0x070 * 0x1000 + 0x118, 40, 24, 0⟩
abbrev Reg.AGR_ACC_STATUS_thr : Fld := ⟨0x070 * 0x1000 + 0x118, 24, 13, 0⟩
abbrev Reg.AGR_ACC_STATUS_base : Fld := ⟨0x070 * 0x1000 + 0x118, 11, 13, 0⟩
abbrev Reg.AGR_ACC_STATUS_watch : Fld := ⟨0x070 * 0x1000 + 0x118, 1, 1, 0⟩
abbrev Reg.AGR_ACC_STATUS_in_job : Fld := ⟨0x070 * 0x1000 + 0x118, 0, 1, 0⟩
abbrev Reg.AGR_STEP_step : Fld := ⟨0x070 * 0x1000 + 0x120, 24, 40, 0⟩
abbrev Reg.AGR_STEP_round : Fld := ⟨0x070 * 0x1000 + 0x120, 16, 8, 0⟩
abbrev Reg.AGR_STEP_gate : Fld := ⟨0x070 * 0x1000 + 0x120, 0, 3, 0⟩
abbrev Reg.AGR_VLOG_CTRL_index : Fld := ⟨0x070 * 0x1000 + 0x128, 0, 12, 0⟩
abbrev Reg.AGR_VLOG_STATUS_total : Fld := ⟨0x070 * 0x1000 + 0x130, 32, 32, 0⟩
abbrev Reg.AGR_VLOG_STATUS_head : Fld := ⟨0x070 * 0x1000 + 0x130, 0, 12, 0⟩
abbrev Reg.AGR_VLOG_W0_w : Fld := ⟨0x070 * 0x1000 + 0x140, 0, 64, 0⟩
abbrev Reg.AGR_VLOG_W1_w : Fld := ⟨0x070 * 0x1000 + 0x148, 0, 64, 0⟩
abbrev Reg.AGR_VLOG_W2_w : Fld := ⟨0x070 * 0x1000 + 0x150, 0, 64, 0⟩
abbrev Reg.AGR_VLOG_W3_w : Fld := ⟨0x070 * 0x1000 + 0x158, 0, 64, 0⟩
abbrev Reg.AGR_VLOG_W4_w : Fld := ⟨0x070 * 0x1000 + 0x160, 0, 64, 0⟩
abbrev Reg.AGR_VLOG_W5_w : Fld := ⟨0x070 * 0x1000 + 0x168, 0, 64, 0⟩
abbrev Reg.AGR_VLOG_W6_w : Fld := ⟨0x070 * 0x1000 + 0x170, 0, 64, 0⟩
abbrev Reg.AGR_VLOG_W7_w : Fld := ⟨0x070 * 0x1000 + 0x178, 0, 64, 0⟩

/-! ### FLOW -/

abbrev Reg.FLOW_SEL_record : Fld := ⟨0x062 * 0x1000 + 0x100, 0, 24, 0⟩
abbrev Reg.FLOW_STATUS_ext_used : Fld := ⟨0x062 * 0x1000 + 0x108, 32, 24, 0⟩
abbrev Reg.FLOW_STATUS_sram_used : Fld := ⟨0x062 * 0x1000 + 0x108, 0, 20, 0⟩
abbrev Reg.FLOW_W0_w : Fld := ⟨0x062 * 0x1000 + 0x140, 0, 64, 0⟩
abbrev Reg.FLOW_W1_w : Fld := ⟨0x062 * 0x1000 + 0x148, 0, 64, 0⟩
abbrev Reg.FLOW_W2_w : Fld := ⟨0x062 * 0x1000 + 0x150, 0, 64, 0⟩
abbrev Reg.FLOW_W3_w : Fld := ⟨0x062 * 0x1000 + 0x158, 0, 64, 0⟩
abbrev Reg.FLOW_W4_w : Fld := ⟨0x062 * 0x1000 + 0x160, 0, 64, 0⟩
abbrev Reg.FLOW_W5_w : Fld := ⟨0x062 * 0x1000 + 0x168, 0, 64, 0⟩
abbrev Reg.FLOW_W6_w : Fld := ⟨0x062 * 0x1000 + 0x170, 0, 64, 0⟩
abbrev Reg.FLOW_W7_w : Fld := ⟨0x062 * 0x1000 + 0x178, 0, 64, 0⟩

/-! ### STP -/

abbrev Reg.STP_CTRL_i_base : Fld := ⟨0x060 * 0x1000 + 0x100, 48, 16, 500⟩
abbrev Reg.STP_CTRL_i_min : Fld := ⟨0x060 * 0x1000 + 0x100, 40, 8, 8⟩
abbrev Reg.STP_CTRL_watch_max : Fld := ⟨0x060 * 0x1000 + 0x100, 32, 8, 64⟩
abbrev Reg.STP_CTRL_r_ref : Fld := ⟨0x060 * 0x1000 + 0x100, 16, 16, 20⟩
abbrev Reg.STP_CTRL_copy_pref : Fld := ⟨0x060 * 0x1000 + 0x100, 1, 1, 1⟩
abbrev Reg.STP_CTRL_snap_en : Fld := ⟨0x060 * 0x1000 + 0x100, 0, 1, 1⟩
abbrev Reg.STP_REGION_base_gib : Fld := ⟨0x060 * 0x1000 + 0x108, 56, 8, 0⟩
abbrev Reg.STP_REGION_rows : Fld := ⟨0x060 * 0x1000 + 0x108, 0, 32, 2097152⟩
abbrev Reg.STP_RATE_cut_wait : Fld := ⟨0x060 * 0x1000 + 0x110, 48, 16, 2000⟩
abbrev Reg.STP_RATE_write_gbps : Fld := ⟨0x060 * 0x1000 + 0x110, 0, 16, 100⟩
abbrev Reg.STP_JOB_SEL_slot : Fld := ⟨0x060 * 0x1000 + 0x118, 32, 1, 0⟩
abbrev Reg.STP_JOB_SEL_job : Fld := ⟨0x060 * 0x1000 + 0x118, 0, 32, 0⟩
abbrev Reg.STP_SLOT_step (i : Nat) : Fld := ⟨0x060 * 0x1000 + (0x120 + 8 * i), 24, 40, 0⟩
abbrev Reg.STP_SLOT_absent (i : Nat) : Fld := ⟨0x060 * 0x1000 + (0x120 + 8 * i), 8, 5, 0⟩
abbrev Reg.STP_SLOT_state (i : Nat) : Fld := ⟨0x060 * 0x1000 + (0x120 + 8 * i), 0, 3, 0⟩
abbrev Reg.STP_CUT_next_cut : Fld := ⟨0x060 * 0x1000 + 0x130, 24, 40, 0⟩
abbrev Reg.STP_CUT_interval : Fld := ⟨0x060 * 0x1000 + 0x130, 8, 16, 0⟩
abbrev Reg.STP_CUT_state : Fld := ⟨0x060 * 0x1000 + 0x130, 0, 3, 0⟩
abbrev Reg.STP_RESTORE_step : Fld := ⟨0x060 * 0x1000 + 0x138, 24, 40, 0⟩
abbrev Reg.STP_RESTORE_result : Fld := ⟨0x060 * 0x1000 + 0x138, 16, 8, 0⟩
abbrev Reg.STP_RESTORE_tried : Fld := ⟨0x060 * 0x1000 + 0x138, 8, 8, 0⟩
abbrev Reg.STP_RISK_ppm : Fld := ⟨0x060 * 0x1000 + 0x180, 0, 32, 0⟩
abbrev Reg.STP_CREC_W0_w : Fld := ⟨0x060 * 0x1000 + 0x140, 0, 64, 0⟩
abbrev Reg.STP_CREC_W1_w : Fld := ⟨0x060 * 0x1000 + 0x148, 0, 64, 0⟩
abbrev Reg.STP_CREC_W2_w : Fld := ⟨0x060 * 0x1000 + 0x150, 0, 64, 0⟩
abbrev Reg.STP_CREC_W3_w : Fld := ⟨0x060 * 0x1000 + 0x158, 0, 64, 0⟩
abbrev Reg.STP_CREC_W4_w : Fld := ⟨0x060 * 0x1000 + 0x160, 0, 64, 0⟩
abbrev Reg.STP_CREC_W5_w : Fld := ⟨0x060 * 0x1000 + 0x168, 0, 64, 0⟩
abbrev Reg.STP_CREC_W6_w : Fld := ⟨0x060 * 0x1000 + 0x170, 0, 64, 0⟩
abbrev Reg.STP_CREC_W7_w : Fld := ⟨0x060 * 0x1000 + 0x178, 0, 64, 0⟩

/-! ### MIR -/

abbrev Reg.MIR_PARTNER_chip : Fld := ⟨0x061 * 0x1000 + 0x100, 48, 16, 0⟩
abbrev Reg.MIR_PARTNER_valid : Fld := ⟨0x061 * 0x1000 + 0x100, 47, 1, 0⟩
abbrev Reg.MIR_PARTNER_correlated : Fld := ⟨0x061 * 0x1000 + 0x100, 46, 1, 0⟩
abbrev Reg.MIR_PARTNER_single : Fld := ⟨0x061 * 0x1000 + 0x100, 45, 1, 0⟩
abbrev Reg.MIR_PARTNER_epoch : Fld := ⟨0x061 * 0x1000 + 0x100, 0, 32, 0⟩
abbrev Reg.MIR_NEWEST_step : Fld := ⟨0x061 * 0x1000 + 0x108, 24, 40, 0⟩
abbrev Reg.MIR_NEWEST_held : Fld := ⟨0x061 * 0x1000 + 0x108, 0, 9, 0⟩
abbrev Reg.MIR_PIN_step (i : Nat) : Fld := ⟨0x061 * 0x1000 + (0x110 + 8 * i), 24, 40, 0⟩
abbrev Reg.MIR_PIN_partner_held (i : Nat) : Fld := ⟨0x061 * 0x1000 + (0x110 + 8 * i), 1, 1, 0⟩
abbrev Reg.MIR_PIN_valid (i : Nat) : Fld := ⟨0x061 * 0x1000 + (0x110 + 8 * i), 0, 1, 0⟩
abbrev Reg.MIR_HOSTED_n : Fld := ⟨0x061 * 0x1000 + 0x120, 0, 3, 0⟩
abbrev Reg.MIR_CTRL_ack_ms : Fld := ⟨0x061 * 0x1000 + 0x128, 0, 16, 100⟩

/-! ### PORT -/

abbrev Reg.PORT_STATUS_reason (n : Nat) : Fld := ⟨(0x090 + n) * 0x1000 + 0x100, 24, 8, 0⟩
abbrev Reg.PORT_STATUS_lanes_up (n : Nat) : Fld := ⟨(0x090 + n) * 0x1000 + 0x100, 16, 4, 0⟩
abbrev Reg.PORT_STATUS_attempts (n : Nat) : Fld := ⟨(0x090 + n) * 0x1000 + 0x100, 8, 8, 0⟩
abbrev Reg.PORT_STATUS_state (n : Nat) : Fld := ⟨(0x090 + n) * 0x1000 + 0x100, 0, 4, 0⟩
abbrev Reg.PORT_FAR_chip (n : Nat) : Fld := ⟨(0x090 + n) * 0x1000 + 0x108, 48, 16, 0⟩
abbrev Reg.PORT_FAR_port (n : Nat) : Fld := ⟨(0x090 + n) * 0x1000 + 0x108, 40, 8, 0⟩
abbrev Reg.PORT_FAR_slot (n : Nat) : Fld := ⟨(0x090 + n) * 0x1000 + 0x108, 32, 8, 0⟩
abbrev Reg.PORT_FAR_major (n : Nat) : Fld := ⟨(0x090 + n) * 0x1000 + 0x108, 24, 8, 0⟩
abbrev Reg.PORT_FAR_minor (n : Nat) : Fld := ⟨(0x090 + n) * 0x1000 + 0x108, 16, 8, 0⟩
abbrev Reg.PORT_FAR_valid (n : Nat) : Fld := ⟨(0x090 + n) * 0x1000 + 0x108, 0, 1, 0⟩
abbrev Reg.PORT_PLAN_chip (n : Nat) : Fld := ⟨(0x090 + n) * 0x1000 + 0x120, 48, 16, 0⟩
abbrev Reg.PORT_PLAN_port (n : Nat) : Fld := ⟨(0x090 + n) * 0x1000 + 0x120, 40, 8, 0⟩
abbrev Reg.PORT_PLAN_expected (n : Nat) : Fld := ⟨(0x090 + n) * 0x1000 + 0x120, 0, 1, 0⟩
abbrev Reg.PORT_LINK_delay_ns (n : Nat) : Fld := ⟨(0x090 + n) * 0x1000 + 0x128, 48, 16, 0⟩
abbrev Reg.PORT_LINK_length_m (n : Nat) : Fld := ⟨(0x090 + n) * 0x1000 + 0x128, 24, 12, 0⟩
abbrev Reg.PORT_UTIL_tx_pct (n : Nat) : Fld := ⟨(0x090 + n) * 0x1000 + 0x130, 56, 8, 0⟩
abbrev Reg.PORT_UTIL_rx_pct (n : Nat) : Fld := ⟨(0x090 + n) * 0x1000 + 0x130, 48, 8, 0⟩
abbrev Reg.PORT_CTRL_loopback (n : Nat) : Fld := ⟨(0x090 + n) * 0x1000 + 0x138, 1, 1, 0⟩
abbrev Reg.PORT_CTRL_retrain (n : Nat) : Fld := ⟨(0x090 + n) * 0x1000 + 0x138, 0, 1, 0⟩
abbrev Reg.PORT_FAR_SN0_sn (n : Nat) : Fld := ⟨(0x090 + n) * 0x1000 + 0x110, 0, 64, 0⟩
abbrev Reg.PORT_FAR_SN1_sn (n : Nat) : Fld := ⟨(0x090 + n) * 0x1000 + 0x118, 0, 64, 0⟩

/-! ### MBR -/

abbrev Reg.MBR_STATUS_epoch : Fld := ⟨0x050 * 0x1000 + 0x100, 32, 32, 0⟩
abbrev Reg.MBR_STATUS_refuse : Fld := ⟨0x050 * 0x1000 + 0x100, 24, 8, 0⟩
abbrev Reg.MBR_STATUS_members : Fld := ⟨0x050 * 0x1000 + 0x100, 16, 8, 0⟩
abbrev Reg.MBR_STATUS_racks : Fld := ⟨0x050 * 0x1000 + 0x100, 8, 8, 0⟩
abbrev Reg.MBR_STATUS_leader : Fld := ⟨0x050 * 0x1000 + 0x100, 3, 1, 0⟩
abbrev Reg.MBR_STATUS_state : Fld := ⟨0x050 * 0x1000 + 0x100, 0, 3, 0⟩
abbrev Reg.MBR_CTRL_stall_ms : Fld := ⟨0x050 * 0x1000 + 0x108, 48, 16, 10000⟩
abbrev Reg.MBR_CTRL_hold_base : Fld := ⟨0x050 * 0x1000 + 0x108, 32, 16, 1000⟩
abbrev Reg.MBR_CTRL_flap_max : Fld := ⟨0x050 * 0x1000 + 0x108, 28, 4, 4⟩
abbrev Reg.MBR_CTRL_rejoin : Fld := ⟨0x050 * 0x1000 + 0x108, 1, 1, 0⟩
abbrev Reg.MBR_CTRL_withdraw : Fld := ⟨0x050 * 0x1000 + 0x108, 0, 1, 0⟩
abbrev Reg.MBR_VIEW_SEL_chip : Fld := ⟨0x050 * 0x1000 + 0x110, 0, 13, 0⟩
abbrev Reg.MBR_VIEW_changed : Fld := ⟨0x050 * 0x1000 + 0x118, 32, 32, 0⟩
abbrev Reg.MBR_VIEW_acc_expelled : Fld := ⟨0x050 * 0x1000 + 0x118, 24, 8, 0⟩
abbrev Reg.MBR_VIEW_flaps : Fld := ⟨0x050 * 0x1000 + 0x118, 16, 8, 0⟩
abbrev Reg.MBR_VIEW_state : Fld := ⟨0x050 * 0x1000 + 0x118, 0, 3, 0⟩
abbrev Reg.MBR_BUDGET_spare_acc : Fld := ⟨0x050 * 0x1000 + 0x120, 48, 16, 0⟩
abbrev Reg.MBR_BUDGET_pending : Fld := ⟨0x050 * 0x1000 + 0x120, 32, 16, 0⟩
abbrev Reg.MBR_BUDGET_budget : Fld := ⟨0x050 * 0x1000 + 0x120, 16, 16, 0⟩
abbrev Reg.MBR_BUDGET_marginal : Fld := ⟨0x050 * 0x1000 + 0x120, 8, 8, 0⟩
abbrev Reg.MBR_BUDGET_exhausted : Fld := ⟨0x050 * 0x1000 + 0x120, 0, 1, 0⟩
abbrev Reg.MBR_HR_SEL_dev : Fld := ⟨0x050 * 0x1000 + 0x128, 0, 4, 0⟩
abbrev Reg.MBR_HR_STATUS_points : Fld := ⟨0x050 * 0x1000 + 0x130, 32, 32, 0⟩
abbrev Reg.MBR_HR_STATUS_events : Fld := ⟨0x050 * 0x1000 + 0x130, 24, 8, 0⟩
abbrev Reg.MBR_HR_STATUS_modes : Fld := ⟨0x050 * 0x1000 + 0x130, 16, 8, 0⟩
abbrev Reg.MBR_HR_STATUS_expelled : Fld := ⟨0x050 * 0x1000 + 0x130, 3, 1, 0⟩
abbrev Reg.MBR_HR_STATUS_candidate : Fld := ⟨0x050 * 0x1000 + 0x130, 2, 1, 0⟩
abbrev Reg.MBR_HR_STATUS_watch : Fld := ⟨0x050 * 0x1000 + 0x130, 1, 1, 0⟩
abbrev Reg.MBR_HR_STATUS_present : Fld := ⟨0x050 * 0x1000 + 0x130, 0, 1, 0⟩
abbrev Reg.MBR_HR_CTRL_expel_pts : Fld := ⟨0x050 * 0x1000 + 0x138, 48, 16, 5000⟩
abbrev Reg.MBR_HR_CTRL_watch_pts : Fld := ⟨0x050 * 0x1000 + 0x138, 32, 16, 2000⟩
abbrev Reg.MBR_HR_CTRL_half_life_h : Fld := ⟨0x050 * 0x1000 + 0x138, 24, 8, 24⟩
abbrev Reg.MBR_HR_CTRL_h_pt : Fld := ⟨0x050 * 0x1000 + 0x138, 16, 8, 20⟩
abbrev Reg.MBR_HR_CTRL_h_base : Fld := ⟨0x050 * 0x1000 + 0x138, 8, 8, 2⟩
abbrev Reg.MBR_HR_CTRL_reserve : Fld := ⟨0x050 * 0x1000 + 0x138, 3, 5, 8⟩
abbrev Reg.MBR_HR_CTRL_marg_max : Fld := ⟨0x050 * 0x1000 + 0x138, 0, 3, 4⟩
abbrev Reg.MBR_JOB_CTRL_len : Fld := ⟨0x050 * 0x1000 + 0x148, 32, 32, 0⟩
abbrev Reg.MBR_JOB_CTRL_end : Fld := ⟨0x050 * 0x1000 + 0x148, 9, 1, 0⟩
abbrev Reg.MBR_JOB_CTRL_go : Fld := ⟨0x050 * 0x1000 + 0x148, 8, 1, 0⟩
abbrev Reg.MBR_JOB_STATUS_job : Fld := ⟨0x050 * 0x1000 + 0x150, 32, 32, 0⟩
abbrev Reg.MBR_JOB_STATUS_covered : Fld := ⟨0x050 * 0x1000 + 0x150, 16, 16, 0⟩
abbrev Reg.MBR_JOB_STATUS_result : Fld := ⟨0x050 * 0x1000 + 0x150, 8, 8, 0⟩
abbrev Reg.MBR_JOB_STATUS_done : Fld := ⟨0x050 * 0x1000 + 0x150, 1, 1, 0⟩
abbrev Reg.MBR_JOB_STATUS_busy : Fld := ⟨0x050 * 0x1000 + 0x150, 0, 1, 0⟩
abbrev Reg.MBR_JOB_ADDR_addr : Fld := ⟨0x050 * 0x1000 + 0x140, 12, 52, 0⟩

/-! ### SPARE -/

abbrev Reg.SPARE_TRAY_SEL_slot : Fld := ⟨0x051 * 0x1000 + 0x100, 0, 5, 0⟩
abbrev Reg.SPARE_TRAY_adopted : Fld := ⟨0x051 * 0x1000 + 0x108, 16, 8, 0⟩
abbrev Reg.SPARE_TRAY_expelled : Fld := ⟨0x051 * 0x1000 + 0x108, 8, 8, 0⟩
abbrev Reg.SPARE_TRAY_due : Fld := ⟨0x051 * 0x1000 + 0x108, 2, 1, 0⟩
abbrev Reg.SPARE_TRAY_role : Fld := ⟨0x051 * 0x1000 + 0x108, 0, 2, 0⟩
abbrev Reg.SPARE_ADOPT_job : Fld := ⟨0x051 * 0x1000 + 0x110, 32, 32, 0⟩
abbrev Reg.SPARE_ADOPT_index : Fld := ⟨0x051 * 0x1000 + 0x110, 16, 16, 0⟩
abbrev Reg.SPARE_ADOPT_status : Fld := ⟨0x051 * 0x1000 + 0x110, 8, 8, 0⟩
abbrev Reg.SPARE_ADOPT_acc : Fld := ⟨0x051 * 0x1000 + 0x110, 5, 3, 0⟩
abbrev Reg.SPARE_ADOPT_state : Fld := ⟨0x051 * 0x1000 + 0x110, 0, 2, 0⟩
abbrev Reg.SPARE_CTRL_adopt_wait : Fld := ⟨0x051 * 0x1000 + 0x118, 48, 16, 600⟩
abbrev Reg.SPARE_CTRL_lead_steps : Fld := ⟨0x051 * 0x1000 + 0x118, 40, 8, 2⟩
abbrev Reg.SPARE_CTRL_ready : Fld := ⟨0x051 * 0x1000 + 0x118, 0, 1, 0⟩

/-! ### APPO -/

abbrev Reg.APPO_CTRL_prog_wait : Fld := ⟨0x052 * 0x1000 + 0x100, 48, 16, 30⟩
abbrev Reg.APPO_CTRL_max_stand : Fld := ⟨0x052 * 0x1000 + 0x100, 32, 2, 1⟩
abbrev Reg.APPO_CTRL_load : Fld := ⟨0x052 * 0x1000 + 0x100, 1, 1, 0⟩
abbrev Reg.APPO_CTRL_enable : Fld := ⟨0x052 * 0x1000 + 0x100, 0, 1, 1⟩
abbrev Reg.APPO_SEL_slot : Fld := ⟨0x052 * 0x1000 + 0x118, 0, 1, 0⟩
abbrev Reg.APPO_STATUS_job : Fld := ⟨0x052 * 0x1000 + 0x120, 32, 32, 0⟩
abbrev Reg.APPO_STATUS_index : Fld := ⟨0x052 * 0x1000 + 0x120, 16, 16, 0⟩
abbrev Reg.APPO_STATUS_rate_pm : Fld := ⟨0x052 * 0x1000 + 0x120, 6, 10, 0⟩
abbrev Reg.APPO_STATUS_reason : Fld := ⟨0x052 * 0x1000 + 0x120, 3, 3, 0⟩
abbrev Reg.APPO_STATUS_state : Fld := ⟨0x052 * 0x1000 + 0x120, 0, 3, 0⟩
abbrev Reg.APPO_STEP_step : Fld := ⟨0x052 * 0x1000 + 0x128, 24, 40, 0⟩
abbrev Reg.APPO_STEP_acc : Fld := ⟨0x052 * 0x1000 + 0x128, 0, 3, 0⟩
abbrev Reg.APPO_PROG_ADDR_addr : Fld := ⟨0x052 * 0x1000 + 0x108, 12, 52, 0⟩
abbrev Reg.APPO_PROG_LEN_len : Fld := ⟨0x052 * 0x1000 + 0x110, 0, 64, 0⟩

/-! ### DRILL -/

abbrev Reg.DRILL_CTRL_offset_s : Fld := ⟨0x043 * 0x1000 + 0x100, 48, 16, 0⟩
abbrev Reg.DRILL_CTRL_period_h : Fld := ⟨0x043 * 0x1000 + 0x100, 40, 8, 24⟩
abbrev Reg.DRILL_CTRL_lag : Fld := ⟨0x043 * 0x1000 + 0x100, 32, 8, 2⟩
abbrev Reg.DRILL_CTRL_len_s : Fld := ⟨0x043 * 0x1000 + 0x100, 16, 16, 60⟩
abbrev Reg.DRILL_CTRL_job_gap_h : Fld := ⟨0x043 * 0x1000 + 0x100, 8, 8, 24⟩
abbrev Reg.DRILL_RESULT_step : Fld := ⟨0x043 * 0x1000 + 0x118, 24, 40, 0⟩
abbrev Reg.DRILL_RESULT_result : Fld := ⟨0x043 * 0x1000 + 0x118, 16, 8, 0⟩
abbrev Reg.DRILL_RESULT_reason : Fld := ⟨0x043 * 0x1000 + 0x118, 8, 8, 0⟩
abbrev Reg.DRILL_PROG_ADDR_addr : Fld := ⟨0x043 * 0x1000 + 0x108, 12, 52, 0⟩
abbrev Reg.DRILL_NEXT_seconds : Fld := ⟨0x043 * 0x1000 + 0x110, 0, 48, 0⟩

/-! ### TIME -/

abbrev Reg.TIME_S_seconds : Fld := ⟨0x020 * 0x1000 + 0x100, 0, 48, 0⟩
abbrev Reg.TIME_NS_ns : Fld := ⟨0x020 * 0x1000 + 0x108, 16, 30, 0⟩
abbrev Reg.TIME_NS_frac : Fld := ⟨0x020 * 0x1000 + 0x108, 0, 16, 0⟩
abbrev Reg.TIME_RATE_adj : Fld := ⟨0x020 * 0x1000 + 0x110, 0, 32, 0⟩
abbrev Reg.TIME_STATUS_rack_off : Fld := ⟨0x020 * 0x1000 + 0x118, 48, 16, 0⟩
abbrev Reg.TIME_STATUS_pod_off : Fld := ⟨0x020 * 0x1000 + 0x118, 16, 32, 0⟩
abbrev Reg.TIME_STATUS_ref_missing : Fld := ⟨0x020 * 0x1000 + 0x118, 9, 1, 0⟩
abbrev Reg.TIME_STATUS_epoch_missing : Fld := ⟨0x020 * 0x1000 + 0x118, 8, 1, 0⟩
abbrev Reg.TIME_STATUS_state : Fld := ⟨0x020 * 0x1000 + 0x118, 0, 3, 0⟩
abbrev Reg.TIME_CTRL_jump_us : Fld := ⟨0x020 * 0x1000 + 0x120, 32, 16, 10⟩
abbrev Reg.TIME_CTRL_holdover_ms : Fld := ⟨0x020 * 0x1000 + 0x120, 16, 16, 500⟩
abbrev Reg.TIME_CTRL_rearm : Fld := ⟨0x020 * 0x1000 + 0x120, 0, 1, 0⟩
abbrev Reg.TIME_EPOCH_pulse : Fld := ⟨0x020 * 0x1000 + 0x128, 0, 32, 0⟩

/-! ### PTP -/

abbrev Reg.PTP_CTRL_domain : Fld := ⟨0x022 * 0x1000 + 0x100, 16, 8, 0⟩
abbrev Reg.PTP_CTRL_sync_log : Fld := ⟨0x022 * 0x1000 + 0x100, 8, 8, 252⟩
abbrev Reg.PTP_CTRL_pdelay_log : Fld := ⟨0x022 * 0x1000 + 0x100, 0, 8, 0⟩
abbrev Reg.PTP_SERVO_kp : Fld := ⟨0x022 * 0x1000 + 0x108, 48, 16, 1024⟩
abbrev Reg.PTP_SERVO_ki : Fld := ⟨0x022 * 0x1000 + 0x108, 32, 16, 64⟩
abbrev Reg.PTP_STATUS_master : Fld := ⟨0x022 * 0x1000 + 0x110, 48, 16, 0⟩
abbrev Reg.PTP_STATUS_port : Fld := ⟨0x022 * 0x1000 + 0x110, 40, 8, 0⟩
abbrev Reg.PTP_STATUS_role : Fld := ⟨0x022 * 0x1000 + 0x110, 0, 3, 0⟩
abbrev Reg.PTP_DELAY_d_in : Fld := ⟨0x022 * 0x1000 + 0x118, 0, 32, 0⟩

/-! ### TENSE -/

abbrev Reg.TENSE_SEL_inst : Fld := ⟨0x021 * 0x1000 + 0x100, 0, 3, 0⟩
abbrev Reg.TENSE_JOB_job : Fld := ⟨0x021 * 0x1000 + 0x108, 32, 32, 0⟩
abbrev Reg.TENSE_JOB_valid : Fld := ⟨0x021 * 0x1000 + 0x108, 0, 1, 0⟩
abbrev Reg.TENSE_POS_step : Fld := ⟨0x021 * 0x1000 + 0x110, 24, 40, 0⟩
abbrev Reg.TENSE_POS_phase : Fld := ⟨0x021 * 0x1000 + 0x110, 8, 16, 0⟩
abbrev Reg.TENSE_POS_round : Fld := ⟨0x021 * 0x1000 + 0x110, 0, 8, 0⟩
abbrev Reg.TENSE_PRED_pred_us : Fld := ⟨0x021 * 0x1000 + 0x118, 32, 32, 0⟩
abbrev Reg.TENSE_PRED_sample_us : Fld := ⟨0x021 * 0x1000 + 0x118, 0, 32, 0⟩
abbrev Reg.TENSE_CTRL_test_hi : Fld := ⟨0x021 * 0x1000 + 0x128, 48, 16, 57344⟩
abbrev Reg.TENSE_CTRL_test_lo : Fld := ⟨0x021 * 0x1000 + 0x128, 32, 16, 2048⟩
abbrev Reg.TENSE_CTRL_out_x : Fld := ⟨0x021 * 0x1000 + 0x128, 16, 8, 4⟩
abbrev Reg.TENSE_CTRL_regime : Fld := ⟨0x021 * 0x1000 + 0x128, 8, 4, 3⟩
abbrev Reg.TENSE_CTRL_k : Fld := ⟨0x021 * 0x1000 + 0x128, 0, 3, 3⟩
abbrev Reg.TENSE_ANCHOR_anchor : Fld := ⟨0x021 * 0x1000 + 0x120, 0, 64, 0⟩

/-! ### PULSE -/

abbrev Reg.PULSE_CFG_width_ns (i : Nat) : Fld := ⟨0x023 * 0x1000 + (0x100 + 32 * i), 32, 32, 1000⟩
abbrev Reg.PULSE_CFG_inst (i : Nat) : Fld := ⟨0x023 * 0x1000 + (0x100 + 32 * i), 8, 3, 0⟩
abbrev Reg.PULSE_CFG_pol (i : Nat) : Fld := ⟨0x023 * 0x1000 + (0x100 + 32 * i), 5, 1, 0⟩
abbrev Reg.PULSE_CFG_basis (i : Nat) : Fld := ⟨0x023 * 0x1000 + (0x100 + 32 * i), 4, 1, 0⟩
abbrev Reg.PULSE_CFG_mode (i : Nat) : Fld := ⟨0x023 * 0x1000 + (0x100 + 32 * i), 2, 2, 0⟩
abbrev Reg.PULSE_CFG_arm (i : Nat) : Fld := ⟨0x023 * 0x1000 + (0x100 + 32 * i), 0, 1, 0⟩
abbrev Reg.PULSE_T0_t0 (i : Nat) : Fld := ⟨0x023 * 0x1000 + (0x108 + 32 * i), 0, 64, 0⟩
abbrev Reg.PULSE_PER_per (i : Nat) : Fld := ⟨0x023 * 0x1000 + (0x110 + 32 * i), 0, 64, 0⟩
abbrev Reg.PULSE_STATUS_fired (i : Nat) : Fld := ⟨0x023 * 0x1000 + (0x118 + 32 * i), 32, 32, 0⟩
abbrev Reg.PULSE_STATUS_late (i : Nat) : Fld := ⟨0x023 * 0x1000 + (0x118 + 32 * i), 2, 1, 0⟩
abbrev Reg.PULSE_STATUS_active (i : Nat) : Fld := ⟨0x023 * 0x1000 + (0x118 + 32 * i), 1, 1, 0⟩
abbrev Reg.PULSE_STATUS_armed (i : Nat) : Fld := ⟨0x023 * 0x1000 + (0x118 + 32 * i), 0, 1, 0⟩
abbrev Reg.CAP_CFG_inst (i : Nat) : Fld := ⟨0x023 * 0x1000 + (0x200 + 32 * i), 8, 3, 0⟩
abbrev Reg.CAP_CFG_edge (i : Nat) : Fld := ⟨0x023 * 0x1000 + (0x200 + 32 * i), 0, 2, 0⟩
abbrev Reg.CAP_TS_S_count (i : Nat) : Fld := ⟨0x023 * 0x1000 + (0x208 + 32 * i), 56, 8, 0⟩
abbrev Reg.CAP_TS_S_rising (i : Nat) : Fld := ⟨0x023 * 0x1000 + (0x208 + 32 * i), 48, 1, 0⟩
abbrev Reg.CAP_TS_S_seconds (i : Nat) : Fld := ⟨0x023 * 0x1000 + (0x208 + 32 * i), 0, 48, 0⟩
abbrev Reg.CAP_TS_NS_ns (i : Nat) : Fld := ⟨0x023 * 0x1000 + (0x210 + 32 * i), 16, 30, 0⟩
abbrev Reg.CAP_TS_NS_frac (i : Nat) : Fld := ⟨0x023 * 0x1000 + (0x210 + 32 * i), 0, 16, 0⟩
abbrev Reg.CAP_POS_step (i : Nat) : Fld := ⟨0x023 * 0x1000 + (0x218 + 32 * i), 24, 40, 0⟩
abbrev Reg.CAP_POS_phase (i : Nat) : Fld := ⟨0x023 * 0x1000 + (0x218 + 32 * i), 8, 16, 0⟩
abbrev Reg.CAP_POS_valid (i : Nat) : Fld := ⟨0x023 * 0x1000 + (0x218 + 32 * i), 0, 1, 0⟩

/-! ### FLT -/

abbrev Reg.FLT_DEV_STATUS_part_safe : Fld := ⟨0x040 * 0x1000 + 0x100, 48, 16, 0⟩
abbrev Reg.FLT_DEV_STATUS_part_out : Fld := ⟨0x040 * 0x1000 + 0x100, 32, 16, 0⟩
abbrev Reg.FLT_DEV_STATUS_cause : Fld := ⟨0x040 * 0x1000 + 0x100, 16, 8, 0⟩
abbrev Reg.FLT_DEV_STATUS_state : Fld := ⟨0x040 * 0x1000 + 0x100, 0, 3, 0⟩
abbrev Reg.FLT_DEV_FIRST_valid : Fld := ⟨0x040 * 0x1000 + 0x108, 63, 1, 0⟩
abbrev Reg.FLT_DEV_FIRST_code : Fld := ⟨0x040 * 0x1000 + 0x108, 0, 18, 0⟩
abbrev Reg.FLT_DEV_CTRL_vector : Fld := ⟨0x040 * 0x1000 + 0x118, 32, 11, 0⟩
abbrev Reg.FLT_DEV_CTRL_release : Fld := ⟨0x040 * 0x1000 + 0x118, 0, 1, 0⟩
abbrev Reg.FLT_DRAIN_IDX_head : Fld := ⟨0x040 * 0x1000 + 0x120, 12, 4, 0⟩
abbrev Reg.FLT_DRAIN_IDX_index : Fld := ⟨0x040 * 0x1000 + 0x120, 0, 4, 0⟩
abbrev Reg.FLT_DRAIN_W0_page : Fld := ⟨0x040 * 0x1000 + 0x128, 52, 12, 0⟩
abbrev Reg.FLT_DRAIN_W0_elapsed_us : Fld := ⟨0x040 * 0x1000 + 0x128, 0, 32, 0⟩
abbrev Reg.FLT_DRAIN_W1_items : Fld := ⟨0x040 * 0x1000 + 0x130, 32, 32, 0⟩
abbrev Reg.FLT_DRAIN_W1_contexts : Fld := ⟨0x040 * 0x1000 + 0x130, 16, 16, 0⟩
abbrev Reg.FLT_DEV_CAUSE_valid : Fld := ⟨0x040 * 0x1000 + 0x138, 63, 1, 0⟩
abbrev Reg.FLT_DEV_CAUSE_code : Fld := ⟨0x040 * 0x1000 + 0x138, 0, 18, 0⟩
abbrev Reg.FLT_DEV_TIME_time : Fld := ⟨0x040 * 0x1000 + 0x110, 0, 64, 0⟩
abbrev Reg.FLT_PEND_pend (i : Nat) : Fld := ⟨0x040 * 0x1000 + (0x200 + 8 * i), 0, 64, 0⟩

/-! ### PRT -/

abbrev Reg.PRT_STATUS_resets (p : Nat) : Fld := ⟨(0x100 + 16 * p) * 0x1000 + 0x100, 40, 8, 0⟩
abbrev Reg.PRT_STATUS_out_cause (p : Nat) : Fld := ⟨(0x100 + 16 * p) * 0x1000 + 0x100, 32, 8, 0⟩
abbrev Reg.PRT_STATUS_state (p : Nat) : Fld := ⟨(0x100 + 16 * p) * 0x1000 + 0x100, 0, 3, 0⟩
abbrev Reg.PRT_CTRL_window_s (p : Nat) : Fld := ⟨(0x100 + 16 * p) * 0x1000 + 0x108, 48, 16, 600⟩
abbrev Reg.PRT_CTRL_limit (p : Nat) : Fld := ⟨(0x100 + 16 * p) * 0x1000 + 0x108, 40, 8, 3⟩
abbrev Reg.PRT_CTRL_hang_ms (p : Nat) : Fld := ⟨(0x100 + 16 * p) * 0x1000 + 0x108, 16, 16, 20⟩
abbrev Reg.PRT_CTRL_replay_ms (p : Nat) : Fld := ⟨(0x100 + 16 * p) * 0x1000 + 0x108, 4, 12, 1000⟩
abbrev Reg.PRT_CTRL_retire (p : Nat) : Fld := ⟨(0x100 + 16 * p) * 0x1000 + 0x108, 2, 1, 0⟩
abbrev Reg.PRT_CTRL_replay (p : Nat) : Fld := ⟨(0x100 + 16 * p) * 0x1000 + 0x108, 1, 1, 1⟩
abbrev Reg.PRT_CTRL_auto_reset (p : Nat) : Fld := ⟨(0x100 + 16 * p) * 0x1000 + 0x108, 0, 1, 1⟩
abbrev Reg.PRT_HANG_valid (p : Nat) : Fld := ⟨(0x100 + 16 * p) * 0x1000 + 0x110, 63, 1, 0⟩
abbrev Reg.PRT_HANG_suspects (p : Nat) : Fld := ⟨(0x100 + 16 * p) * 0x1000 + 0x110, 32, 8, 0⟩
abbrev Reg.PRT_HANG_cluster (p : Nat) : Fld := ⟨(0x100 + 16 * p) * 0x1000 + 0x110, 16, 8, 0⟩
abbrev Reg.PRT_HANG_unit (p : Nat) : Fld := ⟨(0x100 + 16 * p) * 0x1000 + 0x110, 8, 8, 0⟩
abbrev Reg.PRT_HANG_engine (p : Nat) : Fld := ⟨(0x100 + 16 * p) * 0x1000 + 0x110, 0, 4, 0⟩
abbrev Reg.PRT_REPLAY_result (p : Nat) : Fld := ⟨(0x100 + 16 * p) * 0x1000 + 0x118, 24, 8, 0⟩
abbrev Reg.PRT_REPLAY_replayed (p : Nat) : Fld := ⟨(0x100 + 16 * p) * 0x1000 + 0x118, 16, 8, 0⟩
abbrev Reg.PRT_REPLAY_class (p : Nat) : Fld := ⟨(0x100 + 16 * p) * 0x1000 + 0x118, 14, 2, 0⟩
abbrev Reg.PRT_REPLAY_ctx (p : Nat) : Fld := ⟨(0x100 + 16 * p) * 0x1000 + 0x118, 0, 10, 0⟩

/-! ### LPD -/

abbrev Reg.LPD_STATUS_rate (p : Nat) : Fld := ⟨(0x101 + 16 * p) * 0x1000 + 0x100, 32, 16, 0⟩
abbrev Reg.LPD_STATUS_trained (p : Nat) : Fld := ⟨(0x101 + 16 * p) * 0x1000 + 0x100, 0, 4, 0⟩

/-! ### CMP -/

abbrev Reg.CMP_CFG_single_us : Fld := ⟨0x031 * 0x1000 + 0x100, 32, 16, 20⟩
abbrev Reg.CMP_CFG_window_ns : Fld := ⟨0x031 * 0x1000 + 0x100, 0, 16, 2000⟩
abbrev Reg.CMP_STATUS_first_held : Fld := ⟨0x031 * 0x1000 + 0x108, 32, 32, 0⟩
abbrev Reg.CMP_STATUS_held : Fld := ⟨0x031 * 0x1000 + 0x108, 0, 16, 0⟩

/-! ### EVR -/

abbrev Reg.EVR_CUR_code : Fld := ⟨0x041 * 0x1000 + 0x100, 0, 12, 0⟩
abbrev Reg.EVR_CTRL_clear : Fld := ⟨0x041 * 0x1000 + 0x108, 9, 1, 0⟩
abbrev Reg.EVR_CTRL_hold : Fld := ⟨0x041 * 0x1000 + 0x108, 8, 1, 0⟩
abbrev Reg.EVR_CTRL_auto : Fld := ⟨0x041 * 0x1000 + 0x108, 0, 1, 1⟩
abbrev Reg.EVR_CFG_SEL_code : Fld := ⟨0x041 * 0x1000 + 0x110, 0, 12, 0⟩
abbrev Reg.EVR_CFG_cfg : Fld := ⟨0x041 * 0x1000 + 0x118, 0, 64, 0⟩
abbrev Reg.EVR_MAP_SEL_src : Fld := ⟨0x041 * 0x1000 + 0x120, 0, 15, 0⟩
abbrev Reg.EVR_MAP_en : Fld := ⟨0x041 * 0x1000 + 0x128, 15, 1, 0⟩
abbrev Reg.EVR_MAP_code : Fld := ⟨0x041 * 0x1000 + 0x128, 0, 12, 0⟩
abbrev Reg.EVR_TRACE_base : Fld := ⟨0x041 * 0x1000 + 0x130, 12, 52, 0⟩
abbrev Reg.EVR_TRACE_log2n : Fld := ⟨0x041 * 0x1000 + 0x130, 0, 5, 0⟩
abbrev Reg.EVR_TRACE_PTR_head : Fld := ⟨0x041 * 0x1000 + 0x138, 32, 32, 0⟩
abbrev Reg.EVR_TRACE_PTR_tail : Fld := ⟨0x041 * 0x1000 + 0x138, 0, 32, 0⟩
abbrev Reg.EVR_IRQ_vector : Fld := ⟨0x041 * 0x1000 + 0x140, 32, 11, 0⟩

/-! ### DBG -/

abbrev Reg.DBG_CTRL_tap_en : Fld := ⟨0x042 * 0x1000 + 0x100, 8, 1, 0⟩
abbrev Reg.DBG_CTRL_member_ok : Fld := ⟨0x042 * 0x1000 + 0x100, 0, 1, 0⟩
abbrev Reg.DBG_STOP_CTRL_code : Fld := ⟨0x042 * 0x1000 + 0x108, 32, 12, 0⟩
abbrev Reg.DBG_STOP_CTRL_resume : Fld := ⟨0x042 * 0x1000 + 0x108, 7, 1, 0⟩
abbrev Reg.DBG_STOP_CTRL_stop : Fld := ⟨0x042 * 0x1000 + 0x108, 6, 1, 0⟩
abbrev Reg.DBG_STOP_CTRL_trig_code : Fld := ⟨0x042 * 0x1000 + 0x108, 3, 1, 0⟩
abbrev Reg.DBG_STOP_CTRL_trig_fault : Fld := ⟨0x042 * 0x1000 + 0x108, 2, 1, 0⟩
abbrev Reg.DBG_STOP_CTRL_trig_pin : Fld := ⟨0x042 * 0x1000 + 0x108, 1, 1, 0⟩
abbrev Reg.DBG_STOP_CTRL_arm : Fld := ⟨0x042 * 0x1000 + 0x108, 0, 1, 0⟩
abbrev Reg.DBG_STOP_STATUS_frozen : Fld := ⟨0x042 * 0x1000 + 0x110, 16, 16, 0⟩
abbrev Reg.DBG_STOP_STATUS_refused : Fld := ⟨0x042 * 0x1000 + 0x110, 7, 1, 0⟩
abbrev Reg.DBG_STOP_STATUS_cause : Fld := ⟨0x042 * 0x1000 + 0x110, 4, 3, 0⟩
abbrev Reg.DBG_STOP_STATUS_state : Fld := ⟨0x042 * 0x1000 + 0x110, 0, 3, 0⟩
abbrev Reg.DBG_STOP_PSEL_part : Fld := ⟨0x042 * 0x1000 + 0x120, 0, 4, 0⟩
abbrev Reg.DBG_STOP_PREC0_valid : Fld := ⟨0x042 * 0x1000 + 0x128, 63, 1, 0⟩
abbrev Reg.DBG_STOP_PREC0_lag : Fld := ⟨0x042 * 0x1000 + 0x128, 48, 5, 0⟩
abbrev Reg.DBG_STOP_PREC0_cycle : Fld := ⟨0x042 * 0x1000 + 0x128, 0, 48, 0⟩
abbrev Reg.DBG_STOP_PREC1_stamp : Fld := ⟨0x042 * 0x1000 + 0x130, 0, 64, 0⟩
abbrev Reg.DBG_SCAN_SEL_part : Fld := ⟨0x042 * 0x1000 + 0x138, 16, 4, 0⟩
abbrev Reg.DBG_SCAN_SEL_chain : Fld := ⟨0x042 * 0x1000 + 0x138, 0, 10, 0⟩
abbrev Reg.DBG_SCAN_LEN_err : Fld := ⟨0x042 * 0x1000 + 0x140, 63, 1, 0⟩
abbrev Reg.DBG_SCAN_LEN_bits : Fld := ⟨0x042 * 0x1000 + 0x140, 0, 32, 0⟩
abbrev Reg.DBG_SCAN_DATA_data : Fld := ⟨0x042 * 0x1000 + 0x148, 0, 64, 0⟩
abbrev Reg.DBG_SNAP_T_t : Fld := ⟨0x042 * 0x1000 + 0x150, 0, 64, 0⟩
abbrev Reg.DBG_SNAP_CTRL_arm : Fld := ⟨0x042 * 0x1000 + 0x158, 1, 1, 0⟩
abbrev Reg.DBG_SNAP_CTRL_now : Fld := ⟨0x042 * 0x1000 + 0x158, 0, 1, 0⟩
abbrev Reg.DBG_PACK_STATUS_release : Fld := ⟨0x042 * 0x1000 + 0x160, 32, 32, 0⟩
abbrev Reg.DBG_PACK_STATUS_state : Fld := ⟨0x042 * 0x1000 + 0x160, 24, 8, 0⟩
abbrev Reg.DBG_PACK_STATUS_last : Fld := ⟨0x042 * 0x1000 + 0x160, 16, 8, 0⟩
abbrev Reg.DBG_PACK_STATUS_acks : Fld := ⟨0x042 * 0x1000 + 0x160, 0, 16, 0⟩
abbrev Reg.DBG_PACK_CTRL_discard : Fld := ⟨0x042 * 0x1000 + 0x168, 9, 1, 0⟩
abbrev Reg.DBG_PACK_CTRL_push : Fld := ⟨0x042 * 0x1000 + 0x168, 8, 1, 0⟩
abbrev Reg.DBG_PACK_CTRL_scope : Fld := ⟨0x042 * 0x1000 + 0x168, 0, 2, 0⟩
abbrev Reg.DBG_PACK_RESULT_run : Fld := ⟨0x042 * 0x1000 + 0x170, 48, 16, 0⟩
abbrev Reg.DBG_PACK_RESULT_failed : Fld := ⟨0x042 * 0x1000 + 0x170, 32, 16, 0⟩
abbrev Reg.DBG_PACK_RESULT_cluster : Fld := ⟨0x042 * 0x1000 + 0x170, 24, 8, 0⟩
abbrev Reg.DBG_PACK_RESULT_chunk : Fld := ⟨0x042 * 0x1000 + 0x170, 0, 16, 0⟩
abbrev Reg.DBG_STOP_TIME_time : Fld := ⟨0x042 * 0x1000 + 0x118, 0, 64, 0⟩

/-! ### MON -/

abbrev Reg.MON_CTRL_target_mhz (p : Nat) : Fld := ⟨(0x109 + 16 * p) * 0x1000 + 0x100, 48, 16, 2000⟩
abbrev Reg.MON_CTRL_guard_ps (p : Nat) : Fld := ⟨(0x109 + 16 * p) * 0x1000 + 0x100, 40, 8, 25⟩
abbrev Reg.MON_CTRL_period_h (p : Nat) : Fld := ⟨(0x109 + 16 * p) * 0x1000 + 0x100, 32, 8, 168⟩
abbrev Reg.MON_CTRL_plan_now (p : Nat) : Fld := ⟨(0x109 + 16 * p) * 0x1000 + 0x100, 1, 1, 0⟩
abbrev Reg.MON_CTRL_plan_en (p : Nat) : Fld := ⟨(0x109 + 16 * p) * 0x1000 + 0x100, 0, 1, 1⟩
abbrev Reg.MON_STATUS_days_left (p : Nat) : Fld := ⟨(0x109 + 16 * p) * 0x1000 + 0x108, 48, 16, 65535⟩
abbrev Reg.MON_STATUS_margin_ps (p : Nat) : Fld := ⟨(0x109 + 16 * p) * 0x1000 + 0x108, 40, 8, 0⟩
abbrev Reg.MON_STATUS_run_pt (p : Nat) : Fld := ⟨(0x109 + 16 * p) * 0x1000 + 0x108, 32, 8, 8⟩
abbrev Reg.MON_STATUS_result (p : Nat) : Fld := ⟨(0x109 + 16 * p) * 0x1000 + 0x108, 24, 8, 0⟩
abbrev Reg.MON_STATUS_state (p : Nat) : Fld := ⟨(0x109 + 16 * p) * 0x1000 + 0x108, 0, 2, 0⟩
abbrev Reg.MON_VF_SEL_pt (p : Nat) : Fld := ⟨(0x109 + 16 * p) * 0x1000 + 0x110, 0, 4, 0⟩
abbrev Reg.MON_VF_mhz (p : Nat) : Fld := ⟨(0x109 + 16 * p) * 0x1000 + 0x118, 48, 16, 0⟩
abbrev Reg.MON_VF_mv (p : Nat) : Fld := ⟨(0x109 + 16 * p) * 0x1000 + 0x118, 32, 16, 0⟩
abbrev Reg.MON_VF_slack_ps (p : Nat) : Fld := ⟨(0x109 + 16 * p) * 0x1000 + 0x118, 24, 8, 0⟩
abbrev Reg.MON_VF_usable (p : Nat) : Fld := ⟨(0x109 + 16 * p) * 0x1000 + 0x118, 0, 1, 0⟩
abbrev Reg.MON_PDM_SEL_mon (p : Nat) : Fld := ⟨(0x109 + 16 * p) * 0x1000 + 0x120, 0, 5, 0⟩
abbrev Reg.MON_PDM_slack_ps (p : Nat) : Fld := ⟨(0x109 + 16 * p) * 0x1000 + 0x128, 56, 8, 0⟩
abbrev Reg.MON_PDM_excluded (p : Nat) : Fld := ⟨(0x109 + 16 * p) * 0x1000 + 0x128, 0, 1, 0⟩
abbrev Reg.MON_RO_SEL_ro (p : Nat) : Fld := ⟨(0x109 + 16 * p) * 0x1000 + 0x130, 0, 3, 0⟩
abbrev Reg.MON_RO_count (p : Nat) : Fld := ⟨(0x109 + 16 * p) * 0x1000 + 0x138, 0, 32, 0⟩

/-! ### PCIE -/

abbrev Reg.PCIE_LINK_width : Fld := ⟨0x0C0 * 0x1000 + 0x100, 8, 8, 0⟩
abbrev Reg.PCIE_LINK_flit : Fld := ⟨0x0C0 * 0x1000 + 0x100, 4, 1, 0⟩
abbrev Reg.PCIE_LINK_gen : Fld := ⟨0x0C0 * 0x1000 + 0x100, 0, 4, 0⟩
abbrev Reg.PCIE_B2_BASE_base : Fld := ⟨0x0C0 * 0x1000 + 0x108, 28, 7, 0⟩
abbrev Reg.PCIE_FUNC_msix : Fld := ⟨0x0C0 * 0x1000 + 0x110, 16, 16, 2048⟩
abbrev Reg.PCIE_FUNC_vfs : Fld := ⟨0x0C0 * 0x1000 + 0x110, 0, 6, 0⟩

/-! ### APROF -/

abbrev Reg.APROF_W0_w (a : Nat) (i : Nat) : Fld := ⟨(0x1000 * (a + 1) + 5) * 0x1000 + (0x100 + 32 * i), 0, 64, 21474836480⟩
abbrev Reg.APROF_W1_w (a : Nat) (i : Nat) : Fld := ⟨(0x1000 * (a + 1) + 5) * 0x1000 + (0x108 + 32 * i), 0, 64, 0⟩
abbrev Reg.APROF_W2_w (a : Nat) (i : Nat) : Fld := ⟨(0x1000 * (a + 1) + 5) * 0x1000 + (0x110 + 32 * i), 0, 4, 0⟩
abbrev Reg.APROF_W3_w (a : Nat) (i : Nat) : Fld := ⟨(0x1000 * (a + 1) + 5) * 0x1000 + (0x118 + 32 * i), 0, 64, 0⟩
abbrev Reg.APROF_LOCK_lock (a : Nat) : Fld := ⟨(0x1000 * (a + 1) + 5) * 0x1000 + 0x180, 0, 1, 0⟩

/-! ### Fault sources: page and index (R29, R353) -/

abbrev Src.PWR_feed_a_lost : FltSrc := ⟨0x010, 0⟩
abbrev Src.PWR_feed_b_lost : FltSrc := ⟨0x010, 1⟩
abbrev Src.PWR_feed_lockout : FltSrc := ⟨0x010, 2⟩
abbrev Src.PWR_feeds_shared : FltSrc := ⟨0x010, 3⟩
abbrev Src.PWR_telemetry_lost : FltSrc := ⟨0x010, 4⟩
abbrev Src.PWR_over_envelope : FltSrc := ⟨0x010, 5⟩
abbrev Src.FWL_object_refused : FltSrc := ⟨0x003, 0⟩
abbrev Src.CLU_core_fail (c : Nat) : FltSrc := ⟨(0x103 + 16 * (c / 2) + c % 2), 0⟩
abbrev Src.CLU_spare_exhausted (c : Nat) : FltSrc := ⟨(0x103 + 16 * (c / 2) + c % 2), 1⟩
abbrev Src.CLU_desc_error (c : Nat) : FltSrc := ⟨(0x103 + 16 * (c / 2) + c % 2), 2⟩
abbrev Src.CLU_hold_overrun (c : Nat) : FltSrc := ⟨(0x103 + 16 * (c / 2) + c % 2), 3⟩
abbrev Src.VEC_vec_datapath (c : Nat) : FltSrc := ⟨(0x105 + 16 * (c / 2) + c % 2), 0⟩
abbrev Src.VEC_ftq_ecc (c : Nat) : FltSrc := ⟨(0x105 + 16 * (c / 2) + c % 2), 1⟩
abbrev Src.RED_red_datapath (c : Nat) : FltSrc := ⟨(0x107 + 16 * (c / 2) + c % 2), 0⟩
abbrev Src.RED_ref_ecc (c : Nat) : FltSrc := ⟨(0x107 + 16 * (c / 2) + c % 2), 1⟩
abbrev Src.AFLT_port_lost (a : Nat) : FltSrc := ⟨(0x1000 * (a + 1) + 3), 0⟩
abbrev Src.AFLT_time_holdover (a : Nat) : FltSrc := ⟨(0x1000 * (a + 1) + 3), 1⟩
abbrev Src.AFLT_time_jump_refused (a : Nat) : FltSrc := ⟨(0x1000 * (a + 1) + 3), 2⟩
abbrev Src.AFLT_engine_hang (a : Nat) : FltSrc := ⟨(0x1000 * (a + 1) + 3), 3⟩
abbrev Src.AFLT_mark_error (a : Nat) : FltSrc := ⟨(0x1000 * (a + 1) + 3), 4⟩
abbrev Src.AFLT_shard_map_error (a : Nat) : FltSrc := ⟨(0x1000 * (a + 1) + 3), 5⟩
abbrev Src.AFLT_agent_ecc (a : Nat) : FltSrc := ⟨(0x1000 * (a + 1) + 3), 6⟩
abbrev Src.AFLT_cut_abandoned (a : Nat) : FltSrc := ⟨(0x1000 * (a + 1) + 3), 7⟩
abbrev Src.AFLT_acc_fault (a i : Nat) : FltSrc := ⟨(0x1000 * (a + 1) + 3), 8 + i⟩
abbrev Src.AGP_agent_link_lost (n : Nat) : FltSrc := ⟨(0x080 + n), 0⟩
abbrev Src.AGP_agent_fault (n : Nat) : FltSrc := ⟨(0x080 + n), 1⟩
abbrev Src.AGP_decl_refused (n : Nat) : FltSrc := ⟨(0x080 + n), 2⟩
abbrev Src.AGP_mark_missing (n : Nat) : FltSrc := ⟨(0x080 + n), 3⟩
abbrev Src.AGR_disagree : FltSrc := ⟨0x070, 0⟩
abbrev Src.AGR_core_suspect : FltSrc := ⟨0x070, 1⟩
abbrev Src.AGR_verdict_overdue : FltSrc := ⟨0x070, 2⟩
abbrev Src.AGR_replay_limit : FltSrc := ⟨0x070, 3⟩
abbrev Src.AGR_agr_protocol : FltSrc := ⟨0x070, 4⟩
abbrev Src.AGR_threshold_reduced : FltSrc := ⟨0x070, 5⟩
abbrev Src.FLOW_flow_ecc : FltSrc := ⟨0x062, 0⟩
abbrev Src.FLOW_flow_unknown : FltSrc := ⟨0x062, 1⟩
abbrev Src.STP_gen_discarded : FltSrc := ⟨0x060, 0⟩
abbrev Src.STP_stripe_degraded : FltSrc := ⟨0x060, 1⟩
abbrev Src.STP_stripe_refused : FltSrc := ⟨0x060, 2⟩
abbrev Src.STP_replica_mismatch : FltSrc := ⟨0x060, 3⟩
abbrev Src.STP_restore_digest : FltSrc := ⟨0x060, 4⟩
abbrev Src.STP_restore_incomplete : FltSrc := ⟨0x060, 5⟩
abbrev Src.STP_cadence_floor : FltSrc := ⟨0x060, 6⟩
abbrev Src.MIR_mirror_correlated : FltSrc := ⟨0x061, 0⟩
abbrev Src.MIR_mirror_single : FltSrc := ⟨0x061, 1⟩
abbrev Src.MIR_mirror_lost : FltSrc := ⟨0x061, 2⟩
abbrev Src.PORT_link_down (n : Nat) : FltSrc := ⟨(0x090 + n), 0⟩
abbrev Src.PORT_crc_burst (n : Nat) : FltSrc := ⟨(0x090 + n), 1⟩
abbrev Src.PORT_auth_fail (n : Nat) : FltSrc := ⟨(0x090 + n), 2⟩
abbrev Src.PORT_neighbour_changed (n : Nat) : FltSrc := ⟨(0x090 + n), 3⟩
abbrev Src.PORT_quarantined (n : Nat) : FltSrc := ⟨(0x090 + n), 4⟩
abbrev Src.PORT_overlong (n : Nat) : FltSrc := ⟨(0x090 + n), 5⟩
abbrev Src.PORT_lane_degraded (n : Nat) : FltSrc := ⟨(0x090 + n), 6⟩
abbrev Src.MBR_self_fenced : FltSrc := ⟨0x050, 0⟩
abbrev Src.MBR_peer_expelled : FltSrc := ⟨0x050, 1⟩
abbrev Src.MBR_clause_failed : FltSrc := ⟨0x050, 2⟩
abbrev Src.MBR_budget_exhausted : FltSrc := ⟨0x050, 3⟩
abbrev Src.MBR_watch_entered : FltSrc := ⟨0x050, 4⟩
abbrev Src.MBR_job_start_failed : FltSrc := ⟨0x050, 5⟩
abbrev Src.MBR_join_blocked : FltSrc := ⟨0x050, 6⟩
abbrev Src.SPARE_adopt_request : FltSrc := ⟨0x051, 0⟩
abbrev Src.SPARE_adopt_failed : FltSrc := ⟨0x051, 1⟩
abbrev Src.SPARE_tray_due : FltSrc := ⟨0x051, 2⟩
abbrev Src.APPO_appo_request : FltSrc := ⟨0x052, 0⟩
abbrev Src.APPO_appo_refused : FltSrc := ⟨0x052, 1⟩
abbrev Src.APPO_spare_short : FltSrc := ⟨0x052, 2⟩
abbrev Src.APPO_handover_failed : FltSrc := ⟨0x052, 3⟩
abbrev Src.DRILL_drill_failed : FltSrc := ⟨0x043, 0⟩
abbrev Src.DRILL_drill_skipped : FltSrc := ⟨0x043, 1⟩
abbrev Src.TIME_pod_time_unlocked : FltSrc := ⟨0x020, 0⟩
abbrev Src.TIME_rack_time_fault : FltSrc := ⟨0x020, 1⟩
abbrev Src.TIME_holdover : FltSrc := ⟨0x020, 2⟩
abbrev Src.TIME_jump_refused : FltSrc := ⟨0x020, 3⟩
abbrev Src.TIME_ref_missing : FltSrc := ⟨0x020, 4⟩
abbrev Src.TIME_epoch_missing : FltSrc := ⟨0x020, 5⟩
abbrev Src.PTP_ptp_protocol : FltSrc := ⟨0x022, 0⟩
abbrev Src.PTP_master_changed : FltSrc := ⟨0x022, 1⟩
abbrev Src.TENSE_tense_overrun : FltSrc := ⟨0x021, 0⟩
abbrev Src.TENSE_tense_back : FltSrc := ⟨0x021, 1⟩
abbrev Src.TENSE_tense_regime : FltSrc := ⟨0x021, 2⟩
abbrev Src.PULSE_pulse_late : FltSrc := ⟨0x023, 0⟩
abbrev Src.PULSE_capture_overflow : FltSrc := ⟨0x023, 1⟩
abbrev Src.FLT_hub_ecc : FltSrc := ⟨0x040, 0⟩
abbrev Src.FLT_hub_watchdog : FltSrc := ⟨0x040, 1⟩
abbrev Src.FLT_bridge_fail : FltSrc := ⟨0x040, 2⟩
abbrev Src.FLT_two_out : FltSrc := ⟨0x040, 3⟩
abbrev Src.FLT_mgmt_none : FltSrc := ⟨0x040, 4⟩
abbrev Src.FLT_thermal_trip : FltSrc := ⟨0x040, 5⟩
abbrev Src.FLT_drain_forced : FltSrc := ⟨0x040, 6⟩
abbrev Src.PRT_engine_hang (p : Nat) : FltSrc := ⟨(0x100 + 16 * p), 0⟩
abbrev Src.PRT_clk_fault (p : Nat) : FltSrc := ⟨(0x100 + 16 * p), 1⟩
abbrev Src.PRT_part_out (p : Nat) : FltSrc := ⟨(0x100 + 16 * p), 2⟩
abbrev Src.PRT_ctx_lost (p : Nat) : FltSrc := ⟨(0x100 + 16 * p), 3⟩
abbrev Src.PRT_replay_found (p : Nat) : FltSrc := ⟨(0x100 + 16 * p), 4⟩
abbrev Src.SRM_sram_ue (p : Nat) : FltSrc := ⟨(0x102 + 16 * p), 0⟩
abbrev Src.SRM_sram_spare (p : Nat) : FltSrc := ⟨(0x102 + 16 * p), 1⟩
abbrev Src.SRM_sram_spare_out (p : Nat) : FltSrc := ⟨(0x102 + 16 * p), 2⟩
abbrev Src.LPD_lpd_ue (p : Nat) : FltSrc := ⟨(0x101 + 16 * p), 0⟩
abbrev Src.LPD_lpd_ue_data (p : Nat) : FltSrc := ⟨(0x101 + 16 * p), 1⟩
abbrev Src.LPD_lpd_retrain_fail (p : Nat) : FltSrc := ⟨(0x101 + 16 * p), 2⟩
abbrev Src.LPD_lpd_ce_rate (p : Nat) : FltSrc := ⟨(0x101 + 16 * p), 3⟩
abbrev Src.MGMT_core_offline : FltSrc := ⟨0x030, 0⟩
abbrev Src.MGMT_pair_mismatch : FltSrc := ⟨0x030, 1⟩
abbrev Src.MGMT_standby_selftest : FltSrc := ⟨0x030, 2⟩
abbrev Src.MGMT_ra_auth_fail : FltSrc := ⟨0x030, 3⟩
abbrev Src.CMP_cmp_self : FltSrc := ⟨0x031, 0⟩
abbrev Src.CMP_cmp_held : FltSrc := ⟨0x031, 1⟩
abbrev Src.EVR_evr_ecc : FltSrc := ⟨0x041, 0⟩
abbrev Src.EVR_trace_drop : FltSrc := ⟨0x041, 1⟩
abbrev Src.DBG_stop_taken : FltSrc := ⟨0x042, 0⟩
abbrev Src.DBG_stop_refused : FltSrc := ⟨0x042, 1⟩
abbrev Src.DBG_pack_fail : FltSrc := ⟨0x042, 2⟩
abbrev Src.MON_margin_low (p : Nat) : FltSrc := ⟨(0x109 + 16 * p), 0⟩
abbrev Src.MON_plan_late (p : Nat) : FltSrc := ⟨(0x109 + 16 * p), 1⟩
abbrev Src.MON_point_lowered (p : Nat) : FltSrc := ⟨(0x109 + 16 * p), 2⟩
abbrev Src.MON_mon_fault (p : Nat) : FltSrc := ⟨(0x109 + 16 * p), 3⟩
abbrev Src.PCIE_link_degraded : FltSrc := ⟨0x0C0, 0⟩
abbrev Src.PCIE_dma_error : FltSrc := ⟨0x0C0, 1⟩

/-! ### Counter slots (R29, R37) -/

abbrev Cnt.PWR_CNT_FEED_A_LOSS : Fld := ⟨0x010 * 0x1000 + 0x088, 0, 64, 0⟩
abbrev Cnt.PWR_CNT_FEED_B_LOSS : Fld := ⟨0x010 * 0x1000 + 0x090, 0, 64, 0⟩
abbrev Cnt.PWR_CNT_SINGLE : Fld := ⟨0x010 * 0x1000 + 0x098, 0, 64, 0⟩
abbrev Cnt.PWR_CNT_LIMIT : Fld := ⟨0x010 * 0x1000 + 0x0A0, 0, 64, 0⟩
abbrev Cnt.FWL_CNT_FWL_REFUSED : Fld := ⟨0x003 * 0x1000 + 0x088, 0, 64, 0⟩
abbrev Cnt.CLU_CNT_CORE_BUSY (c : Nat) : Fld := ⟨(0x103 + 16 * (c / 2) + c % 2) * 0x1000 + 0x088, 0, 64, 0⟩
abbrev Cnt.CLU_CNT_TILES_C (c : Nat) : Fld := ⟨(0x103 + 16 * (c / 2) + c % 2) * 0x1000 + 0x090, 0, 64, 0⟩
abbrev Cnt.CLU_CNT_TILES_A (c : Nat) : Fld := ⟨(0x103 + 16 * (c / 2) + c % 2) * 0x1000 + 0x098, 0, 64, 0⟩
abbrev Cnt.CLU_CNT_TILES_G (c : Nat) : Fld := ⟨(0x103 + 16 * (c / 2) + c % 2) * 0x1000 + 0x0A0, 0, 64, 0⟩
abbrev Cnt.CLU_CNT_PREEMPT (c : Nat) : Fld := ⟨(0x103 + 16 * (c / 2) + c % 2) * 0x1000 + 0x0A8, 0, 64, 0⟩
abbrev Cnt.CLU_CNT_DESC_ERR (c : Nat) : Fld := ⟨(0x103 + 16 * (c / 2) + c % 2) * 0x1000 + 0x0B0, 0, 64, 0⟩
abbrev Cnt.SRM_CNT_FILL_LPD (p : Nat) : Fld := ⟨(0x102 + 16 * p) * 0x1000 + 0x088, 0, 64, 0⟩
abbrev Cnt.SRM_CNT_FILL_HOST (p : Nat) : Fld := ⟨(0x102 + 16 * p) * 0x1000 + 0x090, 0, 64, 0⟩
abbrev Cnt.SRM_CNT_EVICT_LPD (p : Nat) : Fld := ⟨(0x102 + 16 * p) * 0x1000 + 0x098, 0, 64, 0⟩
abbrev Cnt.SRM_CNT_EVICT_HOST (p : Nat) : Fld := ⟨(0x102 + 16 * p) * 0x1000 + 0x0A0, 0, 64, 0⟩
abbrev Cnt.SRM_CNT_QUOTA_REFUSE (p : Nat) : Fld := ⟨(0x102 + 16 * p) * 0x1000 + 0x0A8, 0, 64, 0⟩
abbrev Cnt.VEC_CNT_VEC_BUSY (c : Nat) : Fld := ⟨(0x105 + 16 * (c / 2) + c % 2) * 0x1000 + 0x088, 0, 64, 0⟩
abbrev Cnt.VEC_CNT_CHAIN_TILES (c : Nat) : Fld := ⟨(0x105 + 16 * (c / 2) + c % 2) * 0x1000 + 0x090, 0, 64, 0⟩
abbrev Cnt.VEC_CNT_FTQ_STALL (c : Nat) : Fld := ⟨(0x105 + 16 * (c / 2) + c % 2) * 0x1000 + 0x098, 0, 64, 0⟩
abbrev Cnt.VEC_CNT_VEC_ERR (c : Nat) : Fld := ⟨(0x105 + 16 * (c / 2) + c % 2) * 0x1000 + 0x0A0, 0, 64, 0⟩
abbrev Cnt.RED_CNT_RED_TILES (c : Nat) : Fld := ⟨(0x107 + 16 * (c / 2) + c % 2) * 0x1000 + 0x088, 0, 64, 0⟩
abbrev Cnt.RED_CNT_CMP_TILES (c : Nat) : Fld := ⟨(0x107 + 16 * (c / 2) + c % 2) * 0x1000 + 0x090, 0, 64, 0⟩
abbrev Cnt.RED_CNT_CMP_DISAGREE (c : Nat) : Fld := ⟨(0x107 + 16 * (c / 2) + c % 2) * 0x1000 + 0x098, 0, 64, 0⟩
abbrev Cnt.RED_CNT_DIGEST_BYTES (c : Nat) : Fld := ⟨(0x107 + 16 * (c / 2) + c % 2) * 0x1000 + 0x0A0, 0, 64, 0⟩
abbrev Cnt.ASMP_CNT_TILES_SEEN (a : Nat) : Fld := ⟨(0x1000 * (a + 1) + 1) * 0x1000 + 0x088, 0, 64, 0⟩
abbrev Cnt.ASMP_CNT_TILES_SAMPLED (a : Nat) : Fld := ⟨(0x1000 * (a + 1) + 1) * 0x1000 + 0x090, 0, 64, 0⟩
abbrev Cnt.ASMP_CNT_SHIP_BYTES (a : Nat) : Fld := ⟨(0x1000 * (a + 1) + 1) * 0x1000 + 0x098, 0, 64, 0⟩
abbrev Cnt.ASMP_CNT_DEDUP_BYTES (a : Nat) : Fld := ⟨(0x1000 * (a + 1) + 1) * 0x1000 + 0x0A0, 0, 64, 0⟩
abbrev Cnt.ASMP_CNT_TAP_STALL (a : Nat) : Fld := ⟨(0x1000 * (a + 1) + 1) * 0x1000 + 0x0A8, 0, 64, 0⟩
abbrev Cnt.ASMP_CNT_NO_KEY (a : Nat) : Fld := ⟨(0x1000 * (a + 1) + 1) * 0x1000 + 0x0B0, 0, 64, 0⟩
abbrev Cnt.ASTEP_CNT_MARKS (a : Nat) : Fld := ⟨(0x1000 * (a + 1) + 2) * 0x1000 + 0x088, 0, 64, 0⟩
abbrev Cnt.ASTEP_CNT_REPLAYS (a : Nat) : Fld := ⟨(0x1000 * (a + 1) + 2) * 0x1000 + 0x090, 0, 64, 0⟩
abbrev Cnt.ASTEP_CNT_GATE_HOLD (a : Nat) : Fld := ⟨(0x1000 * (a + 1) + 2) * 0x1000 + 0x098, 0, 64, 0⟩
abbrev Cnt.ASTEP_CNT_SHARD_UP (a : Nat) : Fld := ⟨(0x1000 * (a + 1) + 2) * 0x1000 + 0x0A0, 0, 64, 0⟩
abbrev Cnt.ASTEP_CNT_SHARD_DOWN (a : Nat) : Fld := ⟨(0x1000 * (a + 1) + 2) * 0x1000 + 0x0A8, 0, 64, 0⟩
abbrev Cnt.ASTEP_CNT_STALE (a : Nat) : Fld := ⟨(0x1000 * (a + 1) + 2) * 0x1000 + 0x0B0, 0, 64, 0⟩
abbrev Cnt.AFLT_CNT_HANG (a : Nat) : Fld := ⟨(0x1000 * (a + 1) + 3) * 0x1000 + 0x088, 0, 64, 0⟩
abbrev Cnt.AFLT_CNT_FAULT_MSG (a : Nat) : Fld := ⟨(0x1000 * (a + 1) + 3) * 0x1000 + 0x090, 0, 64, 0⟩
abbrev Cnt.ACMD_CNT_CMD_ANOMALY (a : Nat) : Fld := ⟨(0x1000 * (a + 1) + 4) * 0x1000 + 0x088, 0, 64, 0⟩
abbrev Cnt.AGP_CNT_AGP_UP (n : Nat) : Fld := ⟨(0x080 + n) * 0x1000 + 0x088, 0, 64, 0⟩
abbrev Cnt.AGP_CNT_AGP_DOWN (n : Nat) : Fld := ⟨(0x080 + n) * 0x1000 + 0x090, 0, 64, 0⟩
abbrev Cnt.AGP_CNT_AGP_MARKS (n : Nat) : Fld := ⟨(0x080 + n) * 0x1000 + 0x098, 0, 64, 0⟩
abbrev Cnt.AGP_CNT_AGP_RETX (n : Nat) : Fld := ⟨(0x080 + n) * 0x1000 + 0x0A0, 0, 64, 0⟩
abbrev Cnt.AGR_CNT_AGR_TILES : Fld := ⟨0x070 * 0x1000 + 0x088, 0, 64, 0⟩
abbrev Cnt.AGR_CNT_AGR_VERDICTS : Fld := ⟨0x070 * 0x1000 + 0x090, 0, 64, 0⟩
abbrev Cnt.AGR_CNT_AGR_THIRD : Fld := ⟨0x070 * 0x1000 + 0x098, 0, 64, 0⟩
abbrev Cnt.AGR_CNT_AGR_OPND_BYTES : Fld := ⟨0x070 * 0x1000 + 0x0A0, 0, 64, 0⟩
abbrev Cnt.AGR_CNT_AGR_STEPS : Fld := ⟨0x070 * 0x1000 + 0x0A8, 0, 64, 0⟩
abbrev Cnt.AGR_CNT_AGR_DISAGREE : Fld := ⟨0x070 * 0x1000 + 0x0B0, 0, 64, 0⟩
abbrev Cnt.AGR_CNT_AGR_LATE : Fld := ⟨0x070 * 0x1000 + 0x0B8, 0, 64, 0⟩
abbrev Cnt.AGR_CNT_AGR_VOID : Fld := ⟨0x070 * 0x1000 + 0x0C0, 0, 64, 0⟩
abbrev Cnt.FLOW_CNT_FLOW_SRAM : Fld := ⟨0x062 * 0x1000 + 0x088, 0, 64, 0⟩
abbrev Cnt.FLOW_CNT_FLOW_LPD : Fld := ⟨0x062 * 0x1000 + 0x090, 0, 64, 0⟩
abbrev Cnt.STP_CNT_CUTS : Fld := ⟨0x060 * 0x1000 + 0x088, 0, 64, 0⟩
abbrev Cnt.STP_CNT_GEN_COMMIT : Fld := ⟨0x060 * 0x1000 + 0x090, 0, 64, 0⟩
abbrev Cnt.STP_CNT_UNITS_SENT : Fld := ⟨0x060 * 0x1000 + 0x098, 0, 64, 0⟩
abbrev Cnt.STP_CNT_UNITS_STORED : Fld := ⟨0x060 * 0x1000 + 0x0A0, 0, 64, 0⟩
abbrev Cnt.STP_CNT_UNITS_REBUILT : Fld := ⟨0x060 * 0x1000 + 0x0A8, 0, 64, 0⟩
abbrev Cnt.STP_CNT_GEN_DISCARD : Fld := ⟨0x060 * 0x1000 + 0x0B0, 0, 64, 0⟩
abbrev Cnt.STP_CNT_CUT_DEFER : Fld := ⟨0x060 * 0x1000 + 0x0B8, 0, 64, 0⟩
abbrev Cnt.MIR_CNT_MIR_SENT : Fld := ⟨0x061 * 0x1000 + 0x088, 0, 64, 0⟩
abbrev Cnt.MIR_CNT_MIR_HOSTED : Fld := ⟨0x061 * 0x1000 + 0x090, 0, 64, 0⟩
abbrev Cnt.MIR_CNT_MIR_VERSIONS : Fld := ⟨0x061 * 0x1000 + 0x098, 0, 64, 0⟩
abbrev Cnt.MIR_CNT_MIR_LATE : Fld := ⟨0x061 * 0x1000 + 0x0A0, 0, 64, 0⟩
abbrev Cnt.PORT_CNT_TX_FLITS (n : Nat) : Fld := ⟨(0x090 + n) * 0x1000 + 0x088, 0, 64, 0⟩
abbrev Cnt.PORT_CNT_RX_FLITS (n : Nat) : Fld := ⟨(0x090 + n) * 0x1000 + 0x090, 0, 64, 0⟩
abbrev Cnt.PORT_CNT_FEC_CORR (n : Nat) : Fld := ⟨(0x090 + n) * 0x1000 + 0x098, 0, 64, 0⟩
abbrev Cnt.PORT_CNT_CREDIT_STALL (n : Nat) : Fld := ⟨(0x090 + n) * 0x1000 + 0x0A0, 0, 64, 0⟩
abbrev Cnt.PORT_CNT_INDIRECT (n : Nat) : Fld := ⟨(0x090 + n) * 0x1000 + 0x0A8, 0, 64, 0⟩
abbrev Cnt.PORT_CNT_CRC_ERR (n : Nat) : Fld := ⟨(0x090 + n) * 0x1000 + 0x0B0, 0, 64, 0⟩
abbrev Cnt.PORT_CNT_REPLAY (n : Nat) : Fld := ⟨(0x090 + n) * 0x1000 + 0x0B8, 0, 64, 0⟩
abbrev Cnt.PORT_CNT_AUTH_FAIL (n : Nat) : Fld := ⟨(0x090 + n) * 0x1000 + 0x0C0, 0, 64, 0⟩
abbrev Cnt.MBR_CNT_HB_TX : Fld := ⟨0x050 * 0x1000 + 0x088, 0, 64, 0⟩
abbrev Cnt.MBR_CNT_HB_RX : Fld := ⟨0x050 * 0x1000 + 0x090, 0, 64, 0⟩
abbrev Cnt.MBR_CNT_CLAUSE : Fld := ⟨0x050 * 0x1000 + 0x098, 0, 64, 0⟩
abbrev Cnt.MBR_CNT_CLAUSE_FAIL : Fld := ⟨0x050 * 0x1000 + 0x0A0, 0, 64, 0⟩
abbrev Cnt.MBR_CNT_FENCE_DROP : Fld := ⟨0x050 * 0x1000 + 0x0A8, 0, 64, 0⟩
abbrev Cnt.MBR_CNT_EXPEL : Fld := ⟨0x050 * 0x1000 + 0x0B0, 0, 64, 0⟩
abbrev Cnt.SPARE_CNT_ADOPT : Fld := ⟨0x051 * 0x1000 + 0x088, 0, 64, 0⟩
abbrev Cnt.SPARE_CNT_ADOPT_FAIL : Fld := ⟨0x051 * 0x1000 + 0x090, 0, 64, 0⟩
abbrev Cnt.APPO_CNT_APPO_STEPS : Fld := ⟨0x052 * 0x1000 + 0x088, 0, 64, 0⟩
abbrev Cnt.APPO_CNT_XRELAY_BYTES : Fld := ⟨0x052 * 0x1000 + 0x090, 0, 64, 0⟩
abbrev Cnt.APPO_CNT_APPO_REFUSED : Fld := ⟨0x052 * 0x1000 + 0x098, 0, 64, 0⟩
abbrev Cnt.DRILL_CNT_DRILLS : Fld := ⟨0x043 * 0x1000 + 0x088, 0, 64, 0⟩
abbrev Cnt.DRILL_CNT_DRILL_FAIL : Fld := ⟨0x043 * 0x1000 + 0x090, 0, 64, 0⟩
abbrev Cnt.TIME_CNT_TIME_LOADS : Fld := ⟨0x020 * 0x1000 + 0x088, 0, 64, 0⟩
abbrev Cnt.TIME_CNT_TIME_REFUSED : Fld := ⟨0x020 * 0x1000 + 0x090, 0, 64, 0⟩
abbrev Cnt.TIME_CNT_EPOCH_MISS : Fld := ⟨0x020 * 0x1000 + 0x098, 0, 64, 0⟩
abbrev Cnt.PTP_CNT_SYNC_TX : Fld := ⟨0x022 * 0x1000 + 0x088, 0, 64, 0⟩
abbrev Cnt.PTP_CNT_SYNC_RX : Fld := ⟨0x022 * 0x1000 + 0x090, 0, 64, 0⟩
abbrev Cnt.PTP_CNT_PDELAY : Fld := ⟨0x022 * 0x1000 + 0x098, 0, 64, 0⟩
abbrev Cnt.PTP_CNT_PTP_DISCARD : Fld := ⟨0x022 * 0x1000 + 0x0A0, 0, 64, 0⟩
abbrev Cnt.TENSE_CNT_TENSE_SAMPLES : Fld := ⟨0x021 * 0x1000 + 0x088, 0, 64, 0⟩
abbrev Cnt.TENSE_CNT_TENSE_EXCL : Fld := ⟨0x021 * 0x1000 + 0x090, 0, 64, 0⟩
abbrev Cnt.TENSE_CNT_TENSE_OVERRUN : Fld := ⟨0x021 * 0x1000 + 0x098, 0, 64, 0⟩
abbrev Cnt.PULSE_CNT_PULSE_FIRED : Fld := ⟨0x023 * 0x1000 + 0x088, 0, 64, 0⟩
abbrev Cnt.PULSE_CNT_CAP_EDGES : Fld := ⟨0x023 * 0x1000 + 0x090, 0, 64, 0⟩
abbrev Cnt.PULSE_CNT_CAP_DROP : Fld := ⟨0x023 * 0x1000 + 0x098, 0, 64, 0⟩
abbrev Cnt.FLT_CNT_PART_SAFE : Fld := ⟨0x040 * 0x1000 + 0x088, 0, 64, 0⟩
abbrev Cnt.FLT_CNT_DEV_SAFE : Fld := ⟨0x040 * 0x1000 + 0x090, 0, 64, 0⟩
abbrev Cnt.FLT_CNT_DRAIN_FORCED : Fld := ⟨0x040 * 0x1000 + 0x098, 0, 64, 0⟩
abbrev Cnt.FLT_CNT_STALE_DISCARD : Fld := ⟨0x040 * 0x1000 + 0x0A0, 0, 64, 0⟩
abbrev Cnt.PRT_CNT_PART_RESET (p : Nat) : Fld := ⟨(0x100 + 16 * p) * 0x1000 + 0x088, 0, 64, 0⟩
abbrev Cnt.PRT_CNT_HANG (p : Nat) : Fld := ⟨(0x100 + 16 * p) * 0x1000 + 0x090, 0, 64, 0⟩
abbrev Cnt.PRT_CNT_REPLAY_RUNS (p : Nat) : Fld := ⟨(0x100 + 16 * p) * 0x1000 + 0x098, 0, 64, 0⟩
abbrev Cnt.LPD_CNT_LPD_CE (p : Nat) : Fld := ⟨(0x101 + 16 * p) * 0x1000 + 0x088, 0, 64, 0⟩
abbrev Cnt.LPD_CNT_LPD_UE (p : Nat) : Fld := ⟨(0x101 + 16 * p) * 0x1000 + 0x090, 0, 64, 0⟩
abbrev Cnt.MGMT_CNT_MGMT_TAKEOVER : Fld := ⟨0x030 * 0x1000 + 0x088, 0, 64, 0⟩
abbrev Cnt.MGMT_CNT_MGMT_RESYNC : Fld := ⟨0x030 * 0x1000 + 0x090, 0, 64, 0⟩
abbrev Cnt.MGMT_CNT_MGMT_SELFTEST : Fld := ⟨0x030 * 0x1000 + 0x098, 0, 64, 0⟩
abbrev Cnt.CMP_CNT_CMP_PAIRED : Fld := ⟨0x031 * 0x1000 + 0x088, 0, 64, 0⟩
abbrev Cnt.CMP_CNT_CMP_SINGLE : Fld := ⟨0x031 * 0x1000 + 0x090, 0, 64, 0⟩
abbrev Cnt.CMP_CNT_CMP_MISMATCH : Fld := ⟨0x031 * 0x1000 + 0x098, 0, 64, 0⟩
abbrev Cnt.EVR_CNT_EVR_EVENTS : Fld := ⟨0x041 * 0x1000 + 0x088, 0, 64, 0⟩
abbrev Cnt.EVR_CNT_EVR_COALESCED : Fld := ⟨0x041 * 0x1000 + 0x090, 0, 64, 0⟩
abbrev Cnt.EVR_CNT_TRACE_WRITTEN : Fld := ⟨0x041 * 0x1000 + 0x098, 0, 64, 0⟩
abbrev Cnt.EVR_CNT_TRACE_DROP : Fld := ⟨0x041 * 0x1000 + 0x0A0, 0, 64, 0⟩
abbrev Cnt.EVR_CNT_NOTICE_DROP : Fld := ⟨0x041 * 0x1000 + 0x0A8, 0, 64, 0⟩
abbrev Cnt.DBG_CNT_STOPS : Fld := ⟨0x042 * 0x1000 + 0x088, 0, 64, 0⟩
abbrev Cnt.DBG_CNT_SCAN_BITS : Fld := ⟨0x042 * 0x1000 + 0x090, 0, 64, 0⟩
abbrev Cnt.DBG_CNT_PACK_RUNS : Fld := ⟨0x042 * 0x1000 + 0x098, 0, 64, 0⟩
abbrev Cnt.DBG_CNT_PACK_FAIL : Fld := ⟨0x042 * 0x1000 + 0x0A0, 0, 64, 0⟩
abbrev Cnt.DBG_CNT_OBS_SHAPED : Fld := ⟨0x042 * 0x1000 + 0x0A8, 0, 64, 0⟩
abbrev Cnt.MON_CNT_PLANS (p : Nat) : Fld := ⟨(0x109 + 16 * p) * 0x1000 + 0x088, 0, 64, 0⟩
abbrev Cnt.MON_CNT_SPARE_IN (p : Nat) : Fld := ⟨(0x109 + 16 * p) * 0x1000 + 0x090, 0, 64, 0⟩
abbrev Cnt.MON_CNT_POINT_DROP (p : Nat) : Fld := ⟨(0x109 + 16 * p) * 0x1000 + 0x098, 0, 64, 0⟩
abbrev Cnt.DEV_CNT_DB_DISCARD : Fld := ⟨0x000 * 0x1000 + 0x088, 0, 64, 0⟩
abbrev Cnt.DEV_CNT_SUBMIT_ERR : Fld := ⟨0x000 * 0x1000 + 0x090, 0, 64, 0⟩
abbrev Cnt.PCIE_CNT_ACCESS_ERR : Fld := ⟨0x0C0 * 0x1000 + 0x088, 0, 64, 0⟩
abbrev Cnt.PCIE_CNT_DMA_ERR : Fld := ⟨0x0C0 * 0x1000 + 0x090, 0, 64, 0⟩
abbrev Cnt.PCIE_CNT_DMA_BYTES : Fld := ⟨0x0C0 * 0x1000 + 0x098, 0, 64, 0⟩

/-- The block-specific fields of a MGMT page. -/
def rowsMGMT : List Row :=
  [⟨0x110, 32, 16, .rw, 2000, .range 100 65535⟩,
   ⟨0x110, 2, 1, .rw, 0, .any⟩,
   ⟨0x110, 0, 1, .w1s, 0, .any⟩,
   ⟨0x118, 48, 16, .ro, 0, .any⟩,
   ⟨0x118, 8, 8, .ro, 0, .any⟩,
   ⟨0x118, 1, 1, .w1c, 0, .any⟩,
   ⟨0x118, 0, 1, .ro, 0, .any⟩,
   ⟨0x120, 32, 32, .ro, 0, .any⟩,
   ⟨0x120, 12, 4, .ro, 0, .any⟩,
   ⟨0x120, 8, 4, .ro, 0, .any⟩,
   ⟨0x120, 1, 1, .ro, 0, .any⟩,
   ⟨0x120, 0, 1, .ro, 0, .any⟩,
   ⟨0x128, 8, 1, .rw, 0, .any⟩,
   ⟨0x128, 1, 1, .w1s, 0, .any⟩,
   ⟨0x128, 0, 1, .w1s, 0, .any⟩,
   ⟨0x130, 32, 11, .rw, 0, .any⟩,
   ⟨0x130, 0, 1, .rw, 0, .any⟩,
   ⟨0x100, 3, 61, .rw, 0, .any⟩,
   ⟨0x108, 0, 64, .rw, 0, .any⟩]

/-- The block-specific fields of a PWR page. -/
def rowsPWR : List Row :=
  [⟨0x100, 6, 2, .ro, 1, .any⟩,
   ⟨0x100, 4, 2, .ro, 1, .any⟩,
   ⟨0x100, 3, 1, .ro, 0, .any⟩,
   ⟨0x100, 2, 1, .ro, 0, .any⟩,
   ⟨0x100, 1, 1, .ro, 0, .any⟩,
   ⟨0x118, 48, 8, .ro, 10, .any⟩,
   ⟨0x118, 32, 16, .ro, 820, .any⟩,
   ⟨0x118, 16, 16, .rw, 410, .range 300 410⟩,
   ⟨0x118, 0, 16, .rw, 750, .range 300 750⟩,
   ⟨0x120, 0, 32, .ro, 0, .any⟩,
   ⟨0x128, 32, 16, .rw, 100, .range 10 10000⟩,
   ⟨0x128, 8, 4, .rw, 4, .range 1 15⟩,
   ⟨0x128, 1, 1, .w1s, 0, .any⟩,
   ⟨0x128, 0, 1, .w1s, 0, .any⟩,
   ⟨0x108, 0, 64, .ro, 0, .any⟩,
   ⟨0x110, 0, 64, .ro, 0, .any⟩]

/-- The block-specific fields of a AON page. -/
def rowsAON : List Row :=
  [⟨0x100, 12, 1, .rw, 0, .any⟩,
   ⟨0x100, 11, 1, .rw, 0, .any⟩,
   ⟨0x100, 10, 1, .rw, 0, .any⟩,
   ⟨0x100, 9, 1, .rw, 1, .any⟩,
   ⟨0x100, 8, 1, .rw, 1, .any⟩,
   ⟨0x100, 0, 1, .w1s, 0, .any⟩,
   ⟨0x108, 8, 8, .ro, 0, .any⟩,
   ⟨0x108, 3, 1, .ro, 0, .any⟩,
   ⟨0x108, 0, 3, .ro, 0, .any⟩,
   ⟨0x110, 63, 1, .rw, 0, .any⟩,
   ⟨0x118, 63, 1, .rw, 0, .any⟩,
   ⟨0x110, 0, 48, .rw, 0, .any⟩,
   ⟨0x118, 0, 48, .rw, 0, .any⟩,
   ⟨0x120, 9, 1, .w1c, 0, .any⟩,
   ⟨0x120, 8, 1, .w1c, 0, .any⟩,
   ⟨0x120, 0, 5, .w1c, 0, .any⟩]

/-- The block-specific fields of a FWL page. -/
def rowsFWL : List Row :=
  [⟨0x108, 0, 32, .rw, 0, .any⟩,
   ⟨0x110, 9, 1, .w1s, 0, .any⟩,
   ⟨0x110, 8, 1, .w1s, 0, .any⟩,
   ⟨0x110, 0, 4, .rw, 0, .any⟩,
   ⟨0x118, 32, 32, .ro, 0, .any⟩,
   ⟨0x118, 16, 4, .ro, 0, .any⟩,
   ⟨0x118, 8, 8, .ro, 0, .any⟩,
   ⟨0x118, 1, 1, .w1c, 0, .any⟩,
   ⟨0x118, 0, 1, .ro, 0, .any⟩,
   ⟨0x100, 12, 52, .rw, 0, .any⟩]

/-- The block-specific fields of a SEC page. -/
def rowsSEC : List Row :=
  [⟨0x100, 9, 1, .ro, 0, .any⟩,
   ⟨0x100, 8, 1, .ro, 0, .any⟩,
   ⟨0x100, 0, 8, .ro, 0, .any⟩,
   ⟨0x108, 0, 1, .w1s, 0, .any⟩,
   ⟨0x130, 0, 1, .w1s, 0, .any⟩,
   ⟨0x138, 16, 16, .ro, 0, .any⟩,
   ⟨0x138, 1, 1, .w1c, 0, .any⟩,
   ⟨0x138, 0, 1, .ro, 0, .any⟩,
   ⟨0x110, 0, 64, .rw, 0, .any⟩,
   ⟨0x118, 0, 64, .rw, 0, .any⟩,
   ⟨0x120, 0, 64, .rw, 0, .any⟩,
   ⟨0x128, 0, 64, .rw, 0, .any⟩,
   ⟨0x140, 0, 64, .ro, 0, .any⟩]

/-- The block-specific fields of a BOOT page. -/
def rowsBOOT : List Row :=
  [⟨0x100, 25, 1, .ro, 0, .any⟩,
   ⟨0x100, 24, 1, .ro, 0, .any⟩,
   ⟨0x100, 16, 8, .ro, 0, .any⟩,
   ⟨0x100, 8, 8, .ro, 0, .any⟩,
   ⟨0x100, 0, 4, .ro, 1, .any⟩,
   ⟨0x108, 40, 8, .rw, 15, .range 1 120⟩,
   ⟨0x108, 16, 16, .rw, 2000, .range 0 60000⟩,
   ⟨0x108, 9, 1, .w1s, 0, .any⟩,
   ⟨0x108, 8, 1, .w1s, 0, .any⟩,
   ⟨0x108, 0, 4, .rw, 0, .any⟩,
   ⟨0x110, 32, 32, .ro, 0, .any⟩,
   ⟨0x110, 0, 32, .ro, 0, .any⟩,
   ⟨0x118, 40, 8, .ro, 0, .any⟩,
   ⟨0x118, 32, 8, .ro, 0, .any⟩,
   ⟨0x118, 16, 16, .ro, 0, .any⟩,
   ⟨0x118, 0, 16, .ro, 0, .any⟩]

/-- The block-specific fields of a DEV page. -/
def rowsDEV : List Row :=
  [⟨0x200, 0, 10, .rw, 0, .any⟩,
   ⟨0x208, 62, 2, .ro, 0, .any⟩,
   ⟨0x208, 48, 8, .rw, 1, .range 1 224⟩,
   ⟨0x208, 40, 7, .rw, 0, .range 0 119⟩,
   ⟨0x208, 32, 6, .rw, 0, .range 0 32⟩,
   ⟨0x208, 0, 32, .rw, 4294967295, .any⟩,
   ⟨0x210, 12, 35, .rw, 0, .any⟩,
   ⟨0x210, 0, 4, .rw, 6, .range 6 16⟩,
   ⟨0x218, 53, 11, .rw, 0, .any⟩,
   ⟨0x218, 12, 35, .rw, 0, .any⟩,
   ⟨0x220, 40, 24, .rw, 0, .any⟩,
   ⟨0x220, 16, 24, .rw, 0, .range 0 491520⟩,
   ⟨0x220, 0, 16, .rw, 64, .range 0 16384⟩,
   ⟨0x228, 21, 43, .rw, 0, .any⟩,
   ⟨0x228, 0, 21, .rw, 0, .any⟩,
   ⟨0x230, 9, 1, .w1s, 0, .any⟩,
   ⟨0x230, 8, 1, .w1s, 0, .any⟩,
   ⟨0x230, 1, 1, .w1s, 0, .any⟩,
   ⟨0x230, 0, 1, .rw, 0, .any⟩,
   ⟨0x238, 32, 16, .ro, 0, .any⟩] ++
  [⟨0x238, 16, 8, .ro, 0, .any⟩,
   ⟨0x238, 8, 8, .ro, 0, .any⟩,
   ⟨0x238, 0, 3, .ro, 0, .any⟩,
   ⟨0x240, 21, 43, .rw, 0, .any⟩,
   ⟨0x240, 0, 21, .rw, 0, .any⟩,
   ⟨0x300, 0, 8, .rw, 0, .any⟩,
   ⟨0x308, 48, 16, .rw, 0, .any⟩,
   ⟨0x308, 40, 8, .rw, 0, .any⟩,
   ⟨0x308, 32, 4, .rw, 5, .range 4 6⟩,
   ⟨0x308, 30, 2, .rw, 0, .any⟩,
   ⟨0x308, 28, 2, .rw, 0, .any⟩,
   ⟨0x308, 26, 2, .rw, 0, .any⟩,
   ⟨0x308, 25, 1, .rw, 0, .any⟩,
   ⟨0x308, 24, 1, .rw, 0, .any⟩,
   ⟨0x308, 23, 1, .rw, 0, .any⟩,
   ⟨0x308, 22, 1, .rw, 0, .any⟩,
   ⟨0x308, 21, 1, .rw, 0, .any⟩,
   ⟨0x308, 20, 1, .rw, 0, .any⟩,
   ⟨0x308, 19, 1, .rw, 0, .any⟩,
   ⟨0x310, 62, 2, .rw, 0, .threeIsZero⟩] ++
  [⟨0x310, 48, 8, .rw, 0, .any⟩,
   ⟨0x310, 0, 16, .rw, 0, .any⟩,
   ⟨0x318, 8, 8, .ro, 0, .any⟩,
   ⟨0x318, 0, 2, .ro, 0, .any⟩,
   ⟨0x400, 32, 32, .ro, 0, .any⟩,
   ⟨0x400, 16, 16, .ro, 0, .any⟩,
   ⟨0x400, 8, 8, .ro, 0, .any⟩,
   ⟨0x400, 0, 1, .ro, 0, .any⟩,
   ⟨0x408, 56, 8, .rw, 3, .range 1 15⟩,
   ⟨0x408, 48, 8, .rw, 1, .range 1 15⟩,
   ⟨0x408, 40, 8, .rw, 90, .range 50 100⟩,
   ⟨0x408, 32, 8, .rw, 50, .range 10 90⟩,
   ⟨0x408, 24, 8, .rw, 25, .range 0 25⟩,
   ⟨0x410, 56, 8, .ro, 0, .any⟩,
   ⟨0x410, 48, 8, .ro, 0, .any⟩,
   ⟨0x410, 40, 8, .ro, 0, .any⟩,
   ⟨0x410, 32, 8, .ro, 0, .any⟩,
   ⟨0x248, 8, 8, .rw, 4, .any⟩,
   ⟨0x248, 0, 8, .rw, 1, .any⟩,
   ⟨0x548, 24, 8, .rw, 80, .any⟩] ++
  [⟨0x548, 16, 8, .rw, 2, .any⟩,
   ⟨0x548, 8, 8, .rw, 1, .any⟩,
   ⟨0x548, 0, 8, .rw, 3, .any⟩,
   ⟨0x550, 0, 32, .ro, 0, .any⟩,
   ⟨0x580, 63, 1, .ro, 0, .any⟩,
   ⟨0x580, 62, 1, .ro, 0, .any⟩,
   ⟨0x580, 0, 3, .rw, 0, .any⟩,
   ⟨0x588, 32, 32, .ro, 0, .any⟩,
   ⟨0x588, 0, 32, .ro, 0, .any⟩,
   ⟨0x500, 0, 64, .ro, 0, .any⟩,
   ⟨0x508, 0, 64, .ro, 0, .any⟩,
   ⟨0x510, 0, 64, .ro, 0, .any⟩,
   ⟨0x518, 0, 64, .ro, 0, .any⟩,
   ⟨0x520, 0, 64, .ro, 0, .any⟩,
   ⟨0x528, 0, 64, .ro, 0, .any⟩,
   ⟨0x530, 0, 64, .ro, 0, .any⟩,
   ⟨0x538, 0, 64, .ro, 0, .any⟩,
   ⟨0x540, 0, 64, .ro, 0, .any⟩,
   ⟨0x590, 0, 64, .ro, 0, .any⟩,
   ⟨0x598, 0, 64, .ro, 0, .any⟩] ++
  [⟨0x5A0, 0, 64, .ro, 0, .any⟩,
   ⟨0x5A8, 0, 64, .ro, 0, .any⟩,
   ⟨0x5B0, 0, 64, .ro, 0, .any⟩,
   ⟨0x5B8, 0, 64, .ro, 0, .any⟩,
   ⟨0x5C0, 0, 64, .ro, 0, .any⟩,
   ⟨0x5C8, 0, 64, .ro, 0, .any⟩]

/-- The block-specific fields of a CLU page. -/
def rowsCLU : List Row :=
  [⟨0x100, 40, 17, .ro, 0, .any⟩,
   ⟨0x100, 32, 5, .ro, 16, .any⟩,
   ⟨0x100, 0, 17, .ro, 65535, .any⟩,
   ⟨0x108, 48, 16, .ro, 0, .any⟩,
   ⟨0x110, 48, 16, .rw, 8192, .range 1024 65535⟩,
   ⟨0x118, 48, 16, .rw, 4096, .range 1024 65535⟩,
   ⟨0x108, 32, 8, .ro, 32, .any⟩,
   ⟨0x110, 32, 8, .rw, 128, .range 1 224⟩,
   ⟨0x118, 32, 8, .rw, 96, .range 1 224⟩,
   ⟨0x108, 24, 8, .ro, 16, .any⟩,
   ⟨0x110, 24, 8, .rw, 48, .range 4 48⟩,
   ⟨0x118, 24, 8, .rw, 32, .range 4 48⟩,
   ⟨0x108, 16, 8, .ro, 32, .any⟩,
   ⟨0x110, 16, 8, .rw, 96, .range 1 96⟩,
   ⟨0x118, 16, 8, .rw, 64, .range 1 96⟩,
   ⟨0x108, 8, 8, .ro, 16, .any⟩,
   ⟨0x110, 8, 8, .rw, 48, .range 1 48⟩,
   ⟨0x118, 8, 8, .rw, 32, .range 1 48⟩,
   ⟨0x120, 0, 8, .rw, 0, .any⟩,
   ⟨0x128, 48, 8, .ro, 0, .any⟩] ++
  [⟨0x128, 32, 16, .ro, 0, .any⟩,
   ⟨0x128, 8, 10, .ro, 0, .any⟩,
   ⟨0x128, 4, 2, .ro, 0, .any⟩,
   ⟨0x128, 0, 4, .ro, 0, .any⟩]

/-- The block-specific fields of a SRM page. -/
def rowsSRM : List Row :=
  [⟨0x100, 48, 8, .rw, 40, .range 0 60⟩,
   ⟨0x100, 0, 16, .rw, 512, .evenRange 256 2048⟩,
   ⟨0x108, 48, 11, .ro, 0, .any⟩,
   ⟨0x108, 32, 11, .ro, 0, .any⟩,
   ⟨0x108, 16, 11, .ro, 0, .any⟩,
   ⟨0x108, 0, 11, .ro, 0, .any⟩]

/-- The block-specific fields of a VEC page. -/
def rowsVEC : List Row :=
  [⟨0x100, 48, 3, .rw, 0, .any⟩,
   ⟨0x100, 0, 11, .rw, 0, .any⟩,
   ⟨0x108, 0, 64, .rw, 0, .any⟩,
   ⟨0x110, 1, 1, .w1s, 0, .any⟩,
   ⟨0x110, 0, 1, .w1s, 0, .any⟩,
   ⟨0x118, 8, 8, .ro, 0, .any⟩,
   ⟨0x118, 0, 8, .ro, 1, .any⟩,
   ⟨0x120, 24, 8, .ro, 64, .any⟩,
   ⟨0x120, 16, 8, .ro, 0, .any⟩,
   ⟨0x120, 8, 8, .ro, 0, .any⟩,
   ⟨0x120, 0, 8, .ro, 0, .any⟩]

/-- The block-specific fields of a RED page. -/
def rowsRED : List Row :=
  [⟨0x100, 0, 16, .ro, 0, .any⟩]

/-- The block-specific fields of a AGT page. -/
def rowsAGT : List Row :=
  [⟨0x100, 48, 16, .ro, 1, .any⟩,
   ⟨0x100, 40, 8, .ro, 3, .any⟩,
   ⟨0x100, 32, 8, .ro, 64, .any⟩,
   ⟨0x100, 24, 8, .ro, 24, .any⟩,
   ⟨0x100, 16, 8, .ro, 4, .any⟩,
   ⟨0x100, 1, 1, .ro, 1, .any⟩,
   ⟨0x100, 0, 1, .ro, 1, .any⟩,
   ⟨0x108, 32, 16, .rw, 10, .range 1 65535⟩,
   ⟨0x108, 1, 1, .w1s, 0, .any⟩,
   ⟨0x108, 0, 1, .rw, 1, .any⟩,
   ⟨0x110, 48, 16, .ro, 0, .any⟩,
   ⟨0x110, 47, 1, .ro, 0, .any⟩,
   ⟨0x110, 44, 3, .ro, 0, .any⟩,
   ⟨0x110, 8, 32, .ro, 0, .any⟩,
   ⟨0x110, 0, 3, .ro, 0, .any⟩,
   ⟨0x118, 0, 48, .ro, 0, .any⟩,
   ⟨0x120, 16, 30, .ro, 0, .any⟩,
   ⟨0x120, 0, 16, .ro, 0, .any⟩,
   ⟨0x128, 32, 32, .ro, 0, .any⟩,
   ⟨0x128, 2, 1, .w1c, 0, .any⟩] ++
  [⟨0x128, 1, 1, .ro, 0, .any⟩,
   ⟨0x128, 0, 1, .ro, 0, .any⟩]

/-- The block-specific fields of a ASMP page. -/
def rowsASMP : List Row :=
  [⟨0x100, 48, 13, .ro, 0, .any⟩,
   ⟨0x100, 40, 1, .ro, 0, .any⟩,
   ⟨0x100, 0, 40, .ro, 0, .any⟩,
   ⟨0x108, 21, 43, .rw, 0, .any⟩,
   ⟨0x108, 0, 21, .rw, 0, .rangeOr0 32 2097151⟩,
   ⟨0x110, 0, 17, .ro, 0, .any⟩]

/-- The block-specific fields of a ASTEP page. -/
def rowsASTEP : List Row :=
  [⟨0x100, 24, 40, .ro, 0, .any⟩,
   ⟨0x100, 16, 8, .ro, 0, .any⟩,
   ⟨0x100, 0, 3, .ro, 0, .any⟩,
   ⟨0x108, 21, 43, .rw, 0, .any⟩,
   ⟨0x110, 6, 58, .rw, 0, .any⟩,
   ⟨0x118, 21, 43, .rw, 0, .any⟩,
   ⟨0x118, 0, 21, .rw, 0, .any⟩,
   ⟨0x120, 32, 32, .ro, 0, .any⟩,
   ⟨0x120, 24, 8, .ro, 0, .any⟩,
   ⟨0x120, 23, 1, .ro, 0, .any⟩,
   ⟨0x128, 48, 16, .rw, 0, .any⟩,
   ⟨0x128, 32, 8, .rw, 50, .range 10 90⟩,
   ⟨0x128, 0, 32, .rw, 5000, .range 100 600000⟩]

/-- The block-specific fields of a AFLT page. -/
def rowsAFLT : List Row :=
  [⟨0x100, 0, 6, .rw, 0, .any⟩,
   ⟨0x108, 0, 32, .rw, 100000, .rangeOr0 100 60000000⟩,
   ⟨0x110, 0, 64, .w1c, 0, .any⟩]

/-- The block-specific fields of a ACMD page. -/
def rowsACMD : List Row :=
  [⟨0x100, 12, 52, .rw, 0, .any⟩,
   ⟨0x100, 0, 4, .rw, 8, .range 6 15⟩,
   ⟨0x108, 0, 16, .rw, 12816, .any⟩,
   ⟨0x110, 16, 16, .ro, 0, .any⟩,
   ⟨0x110, 0, 6, .ro, 0, .any⟩]

/-- The block-specific fields of a AGP page. -/
def rowsAGP : List Row :=
  [⟨0x100, 24, 40, .ro, 0, .any⟩,
   ⟨0x100, 10, 3, .ro, 0, .any⟩,
   ⟨0x100, 7, 3, .ro, 0, .any⟩,
   ⟨0x100, 2, 1, .ro, 0, .any⟩,
   ⟨0x100, 1, 1, .ro, 0, .any⟩,
   ⟨0x100, 0, 1, .ro, 0, .any⟩,
   ⟨0x108, 24, 40, .ro, 0, .any⟩,
   ⟨0x108, 16, 8, .ro, 0, .any⟩,
   ⟨0x110, 1, 1, .w1s, 0, .any⟩,
   ⟨0x110, 0, 1, .rw, 0, .any⟩]

/-- The block-specific fields of a AGR page. -/
def rowsAGR : List Row :=
  [⟨0x100, 32, 16, .rw, 20, .range 5 200⟩,
   ⟨0x100, 16, 13, .rw, 256, .range 1 4096⟩,
   ⟨0x100, 0, 4, .rw, 4, .range 0 12⟩,
   ⟨0x108, 48, 16, .rw, 2000, .range 100 60000⟩,
   ⟨0x108, 32, 8, .rw, 3, .range 1 15⟩,
   ⟨0x108, 16, 8, .rw, 2, .range 1 15⟩,
   ⟨0x108, 0, 16, .rw, 2048, .range 256 4096⟩,
   ⟨0x110, 0, 3, .rw, 0, .any⟩,
   ⟨0x118, 40, 24, .ro, 0, .any⟩,
   ⟨0x118, 24, 13, .ro, 0, .any⟩,
   ⟨0x118, 11, 13, .ro, 0, .any⟩,
   ⟨0x118, 1, 1, .ro, 0, .any⟩,
   ⟨0x118, 0, 1, .ro, 0, .any⟩,
   ⟨0x120, 24, 40, .ro, 0, .any⟩,
   ⟨0x120, 16, 8, .ro, 0, .any⟩,
   ⟨0x120, 0, 3, .ro, 0, .any⟩,
   ⟨0x128, 0, 12, .rw, 0, .any⟩,
   ⟨0x130, 32, 32, .ro, 0, .any⟩,
   ⟨0x130, 0, 12, .ro, 0, .any⟩,
   ⟨0x140, 0, 64, .ro, 0, .any⟩] ++
  [⟨0x148, 0, 64, .ro, 0, .any⟩,
   ⟨0x150, 0, 64, .ro, 0, .any⟩,
   ⟨0x158, 0, 64, .ro, 0, .any⟩,
   ⟨0x160, 0, 64, .ro, 0, .any⟩,
   ⟨0x168, 0, 64, .ro, 0, .any⟩,
   ⟨0x170, 0, 64, .ro, 0, .any⟩,
   ⟨0x178, 0, 64, .ro, 0, .any⟩]

/-- The block-specific fields of a FLOW page. -/
def rowsFLOW : List Row :=
  [⟨0x100, 0, 24, .rw, 0, .any⟩,
   ⟨0x108, 32, 24, .ro, 0, .any⟩,
   ⟨0x108, 0, 20, .ro, 0, .any⟩,
   ⟨0x140, 0, 64, .ro, 0, .any⟩,
   ⟨0x148, 0, 64, .ro, 0, .any⟩,
   ⟨0x150, 0, 64, .ro, 0, .any⟩,
   ⟨0x158, 0, 64, .ro, 0, .any⟩,
   ⟨0x160, 0, 64, .ro, 0, .any⟩,
   ⟨0x168, 0, 64, .ro, 0, .any⟩,
   ⟨0x170, 0, 64, .ro, 0, .any⟩,
   ⟨0x178, 0, 64, .ro, 0, .any⟩]

/-- The block-specific fields of a STP page. -/
def rowsSTP : List Row :=
  [⟨0x100, 48, 16, .rw, 500, .range 8 65535⟩,
   ⟨0x100, 40, 8, .rw, 8, .range 1 255⟩,
   ⟨0x100, 32, 8, .rw, 64, .range 1 255⟩,
   ⟨0x100, 16, 16, .rw, 20, .range 1 65535⟩,
   ⟨0x100, 1, 1, .rw, 1, .any⟩,
   ⟨0x100, 0, 1, .rw, 1, .any⟩,
   ⟨0x108, 56, 8, .ro, 0, .any⟩,
   ⟨0x108, 0, 32, .rw, 2097152, .any⟩,
   ⟨0x110, 48, 16, .rw, 2000, .range 100 60000⟩,
   ⟨0x110, 0, 16, .rw, 100, .range 10 800⟩,
   ⟨0x118, 32, 1, .rw, 0, .any⟩,
   ⟨0x118, 0, 32, .rw, 0, .any⟩,
   ⟨0x120, 24, 40, .ro, 0, .any⟩,
   ⟨0x128, 24, 40, .ro, 0, .any⟩,
   ⟨0x120, 8, 5, .ro, 0, .any⟩,
   ⟨0x128, 8, 5, .ro, 0, .any⟩,
   ⟨0x120, 0, 3, .ro, 0, .any⟩,
   ⟨0x128, 0, 3, .ro, 0, .any⟩,
   ⟨0x130, 24, 40, .ro, 0, .any⟩,
   ⟨0x130, 8, 16, .ro, 0, .any⟩] ++
  [⟨0x130, 0, 3, .ro, 0, .any⟩,
   ⟨0x138, 24, 40, .ro, 0, .any⟩,
   ⟨0x138, 16, 8, .ro, 0, .any⟩,
   ⟨0x138, 8, 8, .ro, 0, .any⟩,
   ⟨0x180, 0, 32, .ro, 0, .any⟩,
   ⟨0x140, 0, 64, .ro, 0, .any⟩,
   ⟨0x148, 0, 64, .ro, 0, .any⟩,
   ⟨0x150, 0, 64, .ro, 0, .any⟩,
   ⟨0x158, 0, 64, .ro, 0, .any⟩,
   ⟨0x160, 0, 64, .ro, 0, .any⟩,
   ⟨0x168, 0, 64, .ro, 0, .any⟩,
   ⟨0x170, 0, 64, .ro, 0, .any⟩,
   ⟨0x178, 0, 64, .ro, 0, .any⟩]

/-- The block-specific fields of a MIR page. -/
def rowsMIR : List Row :=
  [⟨0x100, 48, 16, .ro, 0, .any⟩,
   ⟨0x100, 47, 1, .ro, 0, .any⟩,
   ⟨0x100, 46, 1, .ro, 0, .any⟩,
   ⟨0x100, 45, 1, .ro, 0, .any⟩,
   ⟨0x100, 0, 32, .ro, 0, .any⟩,
   ⟨0x108, 24, 40, .ro, 0, .any⟩,
   ⟨0x108, 0, 9, .ro, 0, .any⟩,
   ⟨0x110, 24, 40, .ro, 0, .any⟩,
   ⟨0x118, 24, 40, .ro, 0, .any⟩,
   ⟨0x110, 1, 1, .ro, 0, .any⟩,
   ⟨0x118, 1, 1, .ro, 0, .any⟩,
   ⟨0x110, 0, 1, .ro, 0, .any⟩,
   ⟨0x118, 0, 1, .ro, 0, .any⟩,
   ⟨0x120, 0, 3, .ro, 0, .any⟩,
   ⟨0x128, 0, 16, .rw, 100, .range 10 10000⟩]

/-- The block-specific fields of a PORT page. -/
def rowsPORT : List Row :=
  [⟨0x100, 24, 8, .ro, 0, .any⟩,
   ⟨0x100, 16, 4, .ro, 0, .any⟩,
   ⟨0x100, 8, 8, .ro, 0, .any⟩,
   ⟨0x100, 0, 4, .ro, 0, .any⟩,
   ⟨0x108, 48, 16, .ro, 0, .any⟩,
   ⟨0x108, 40, 8, .ro, 0, .any⟩,
   ⟨0x108, 32, 8, .ro, 0, .any⟩,
   ⟨0x108, 24, 8, .ro, 0, .any⟩,
   ⟨0x108, 16, 8, .ro, 0, .any⟩,
   ⟨0x108, 0, 1, .ro, 0, .any⟩,
   ⟨0x120, 48, 16, .ro, 0, .any⟩,
   ⟨0x120, 40, 8, .ro, 0, .any⟩,
   ⟨0x120, 0, 1, .ro, 0, .any⟩,
   ⟨0x128, 48, 16, .ro, 0, .any⟩,
   ⟨0x128, 24, 12, .ro, 0, .any⟩,
   ⟨0x130, 56, 8, .ro, 0, .any⟩,
   ⟨0x130, 48, 8, .ro, 0, .any⟩,
   ⟨0x138, 1, 1, .w1s, 0, .any⟩,
   ⟨0x138, 0, 1, .w1s, 0, .any⟩,
   ⟨0x110, 0, 64, .ro, 0, .any⟩] ++
  [⟨0x118, 0, 64, .ro, 0, .any⟩]

/-- The block-specific fields of a MBR page. -/
def rowsMBR : List Row :=
  [⟨0x100, 32, 32, .ro, 0, .any⟩,
   ⟨0x100, 24, 8, .ro, 0, .any⟩,
   ⟨0x100, 16, 8, .ro, 0, .any⟩,
   ⟨0x100, 8, 8, .ro, 0, .any⟩,
   ⟨0x100, 3, 1, .ro, 0, .any⟩,
   ⟨0x100, 0, 3, .ro, 0, .any⟩,
   ⟨0x108, 48, 16, .rw, 10000, .range 1000 60000⟩,
   ⟨0x108, 32, 16, .rw, 1000, .range 100 60000⟩,
   ⟨0x108, 28, 4, .rw, 4, .range 1 15⟩,
   ⟨0x108, 1, 1, .w1s, 0, .any⟩,
   ⟨0x108, 0, 1, .w1s, 0, .any⟩,
   ⟨0x110, 0, 13, .rw, 0, .any⟩,
   ⟨0x118, 32, 32, .ro, 0, .any⟩,
   ⟨0x118, 24, 8, .ro, 0, .any⟩,
   ⟨0x118, 16, 8, .ro, 0, .any⟩,
   ⟨0x118, 0, 3, .ro, 0, .any⟩,
   ⟨0x120, 48, 16, .ro, 0, .any⟩,
   ⟨0x120, 32, 16, .ro, 0, .any⟩,
   ⟨0x120, 16, 16, .ro, 0, .any⟩,
   ⟨0x120, 8, 8, .ro, 0, .any⟩] ++
  [⟨0x120, 0, 1, .ro, 0, .any⟩,
   ⟨0x128, 0, 4, .rw, 0, .range 0 8⟩,
   ⟨0x130, 32, 32, .ro, 0, .any⟩,
   ⟨0x130, 24, 8, .ro, 0, .any⟩,
   ⟨0x130, 16, 8, .ro, 0, .any⟩,
   ⟨0x130, 3, 1, .ro, 0, .any⟩,
   ⟨0x130, 2, 1, .ro, 0, .any⟩,
   ⟨0x130, 1, 1, .ro, 0, .any⟩,
   ⟨0x130, 0, 1, .ro, 0, .any⟩,
   ⟨0x138, 48, 16, .rw, 5000, .range 1000 65535⟩,
   ⟨0x138, 32, 16, .rw, 2000, .range 500 65535⟩,
   ⟨0x138, 24, 8, .rw, 24, .range 1 255⟩,
   ⟨0x138, 16, 8, .rw, 20, .any⟩,
   ⟨0x138, 8, 8, .rw, 2, .any⟩,
   ⟨0x138, 3, 5, .rw, 8, .range 0 16⟩,
   ⟨0x138, 0, 3, .rw, 4, .any⟩,
   ⟨0x148, 32, 32, .rw, 0, .range 64 67108864⟩,
   ⟨0x148, 9, 1, .w1s, 0, .any⟩,
   ⟨0x148, 8, 1, .w1s, 0, .any⟩,
   ⟨0x150, 32, 32, .ro, 0, .any⟩] ++
  [⟨0x150, 16, 16, .ro, 0, .any⟩,
   ⟨0x150, 8, 8, .ro, 0, .any⟩,
   ⟨0x150, 1, 1, .w1c, 0, .any⟩,
   ⟨0x150, 0, 1, .ro, 0, .any⟩,
   ⟨0x140, 12, 52, .rw, 0, .any⟩]

/-- The block-specific fields of a SPARE page. -/
def rowsSPARE : List Row :=
  [⟨0x100, 0, 5, .rw, 0, .range 0 17⟩,
   ⟨0x108, 16, 8, .ro, 0, .any⟩,
   ⟨0x108, 8, 8, .ro, 0, .any⟩,
   ⟨0x108, 2, 1, .ro, 0, .any⟩,
   ⟨0x108, 0, 2, .ro, 0, .any⟩,
   ⟨0x110, 32, 32, .ro, 0, .any⟩,
   ⟨0x110, 16, 16, .ro, 0, .any⟩,
   ⟨0x110, 8, 8, .ro, 0, .any⟩,
   ⟨0x110, 5, 3, .ro, 0, .any⟩,
   ⟨0x110, 0, 2, .ro, 0, .any⟩,
   ⟨0x118, 48, 16, .rw, 600, .range 10 3600⟩,
   ⟨0x118, 40, 8, .rw, 2, .range 1 255⟩,
   ⟨0x118, 0, 1, .w1s, 0, .any⟩]

/-- The block-specific fields of a APPO page. -/
def rowsAPPO : List Row :=
  [⟨0x100, 48, 16, .rw, 30, .range 1 600⟩,
   ⟨0x100, 32, 2, .rw, 1, .range 0 2⟩,
   ⟨0x100, 1, 1, .w1s, 0, .any⟩,
   ⟨0x100, 0, 1, .rw, 1, .any⟩,
   ⟨0x118, 0, 1, .rw, 0, .any⟩,
   ⟨0x120, 32, 32, .ro, 0, .any⟩,
   ⟨0x120, 16, 16, .ro, 0, .any⟩,
   ⟨0x120, 6, 10, .ro, 0, .any⟩,
   ⟨0x120, 3, 3, .ro, 0, .any⟩,
   ⟨0x120, 0, 3, .ro, 0, .any⟩,
   ⟨0x128, 24, 40, .ro, 0, .any⟩,
   ⟨0x128, 0, 3, .ro, 0, .any⟩,
   ⟨0x108, 12, 52, .rw, 0, .any⟩,
   ⟨0x110, 0, 64, .rw, 0, .range 64 268435456⟩]

/-- The block-specific fields of a DRILL page. -/
def rowsDRILL : List Row :=
  [⟨0x100, 48, 16, .rw, 0, .any⟩,
   ⟨0x100, 40, 8, .rw, 24, .any⟩,
   ⟨0x100, 32, 8, .rw, 2, .range 1 255⟩,
   ⟨0x100, 16, 16, .rw, 60, .range 10 600⟩,
   ⟨0x100, 8, 8, .rw, 24, .any⟩,
   ⟨0x118, 24, 40, .ro, 0, .any⟩,
   ⟨0x118, 16, 8, .ro, 0, .any⟩,
   ⟨0x118, 8, 8, .ro, 0, .any⟩,
   ⟨0x108, 12, 52, .rw, 0, .any⟩,
   ⟨0x110, 0, 48, .ro, 0, .any⟩]

/-- The block-specific fields of a TIME page. -/
def rowsTIME : List Row :=
  [⟨0x100, 0, 48, .ro, 0, .any⟩,
   ⟨0x108, 16, 30, .ro, 0, .any⟩,
   ⟨0x108, 0, 16, .ro, 0, .any⟩,
   ⟨0x110, 0, 32, .ro, 0, .any⟩,
   ⟨0x118, 48, 16, .ro, 0, .any⟩,
   ⟨0x118, 16, 32, .ro, 0, .any⟩,
   ⟨0x118, 9, 1, .ro, 0, .any⟩,
   ⟨0x118, 8, 1, .ro, 0, .any⟩,
   ⟨0x118, 0, 3, .ro, 0, .any⟩,
   ⟨0x120, 32, 16, .rw, 10, .range 1 65535⟩,
   ⟨0x120, 16, 16, .rw, 500, .range 100 10000⟩,
   ⟨0x120, 0, 1, .w1s, 0, .any⟩,
   ⟨0x128, 0, 32, .ro, 0, .any⟩]

/-- The block-specific fields of a PTP page. -/
def rowsPTP : List Row :=
  [⟨0x100, 16, 8, .rw, 0, .any⟩,
   ⟨0x100, 8, 8, .rw, 252, .signed8 (-7) 0⟩,
   ⟨0x100, 0, 8, .rw, 0, .signed8 (-4) 4⟩,
   ⟨0x108, 48, 16, .rw, 1024, .any⟩,
   ⟨0x108, 32, 16, .rw, 64, .any⟩,
   ⟨0x110, 48, 16, .ro, 0, .any⟩,
   ⟨0x110, 40, 8, .ro, 0, .any⟩,
   ⟨0x110, 0, 3, .ro, 0, .any⟩,
   ⟨0x118, 0, 32, .ro, 0, .any⟩]

/-- The block-specific fields of a TENSE page. -/
def rowsTENSE : List Row :=
  [⟨0x100, 0, 3, .rw, 0, .any⟩,
   ⟨0x108, 32, 32, .ro, 0, .any⟩,
   ⟨0x108, 0, 1, .ro, 0, .any⟩,
   ⟨0x110, 24, 40, .ro, 0, .any⟩,
   ⟨0x110, 8, 16, .ro, 0, .any⟩,
   ⟨0x110, 0, 8, .ro, 0, .any⟩,
   ⟨0x118, 32, 32, .ro, 0, .any⟩,
   ⟨0x118, 0, 32, .ro, 0, .any⟩,
   ⟨0x128, 48, 16, .rw, 57344, .any⟩,
   ⟨0x128, 32, 16, .rw, 2048, .any⟩,
   ⟨0x128, 16, 8, .rw, 4, .range 2 16⟩,
   ⟨0x128, 8, 4, .rw, 3, .range 1 15⟩,
   ⟨0x128, 0, 3, .rw, 3, .any⟩,
   ⟨0x120, 0, 64, .ro, 0, .any⟩]

/-- The block-specific fields of a PULSE page. -/
def rowsPULSE : List Row :=
  [⟨0x100, 32, 32, .rw, 1000, .range 8 1000000000⟩,
   ⟨0x120, 32, 32, .rw, 1000, .range 8 1000000000⟩,
   ⟨0x140, 32, 32, .rw, 1000, .range 8 1000000000⟩,
   ⟨0x160, 32, 32, .rw, 1000, .range 8 1000000000⟩,
   ⟨0x180, 32, 32, .rw, 1000, .range 8 1000000000⟩,
   ⟨0x1A0, 32, 32, .rw, 1000, .range 8 1000000000⟩,
   ⟨0x1C0, 32, 32, .rw, 1000, .range 8 1000000000⟩,
   ⟨0x1E0, 32, 32, .rw, 1000, .range 8 1000000000⟩,
   ⟨0x100, 8, 3, .rw, 0, .any⟩,
   ⟨0x120, 8, 3, .rw, 0, .any⟩,
   ⟨0x140, 8, 3, .rw, 0, .any⟩,
   ⟨0x160, 8, 3, .rw, 0, .any⟩,
   ⟨0x180, 8, 3, .rw, 0, .any⟩,
   ⟨0x1A0, 8, 3, .rw, 0, .any⟩,
   ⟨0x1C0, 8, 3, .rw, 0, .any⟩,
   ⟨0x1E0, 8, 3, .rw, 0, .any⟩,
   ⟨0x100, 5, 1, .rw, 0, .any⟩,
   ⟨0x120, 5, 1, .rw, 0, .any⟩,
   ⟨0x140, 5, 1, .rw, 0, .any⟩,
   ⟨0x160, 5, 1, .rw, 0, .any⟩] ++
  [⟨0x180, 5, 1, .rw, 0, .any⟩,
   ⟨0x1A0, 5, 1, .rw, 0, .any⟩,
   ⟨0x1C0, 5, 1, .rw, 0, .any⟩,
   ⟨0x1E0, 5, 1, .rw, 0, .any⟩,
   ⟨0x100, 4, 1, .rw, 0, .any⟩,
   ⟨0x120, 4, 1, .rw, 0, .any⟩,
   ⟨0x140, 4, 1, .rw, 0, .any⟩,
   ⟨0x160, 4, 1, .rw, 0, .any⟩,
   ⟨0x180, 4, 1, .rw, 0, .any⟩,
   ⟨0x1A0, 4, 1, .rw, 0, .any⟩,
   ⟨0x1C0, 4, 1, .rw, 0, .any⟩,
   ⟨0x1E0, 4, 1, .rw, 0, .any⟩,
   ⟨0x100, 2, 2, .rw, 0, .threeIsZero⟩,
   ⟨0x120, 2, 2, .rw, 0, .threeIsZero⟩,
   ⟨0x140, 2, 2, .rw, 0, .threeIsZero⟩,
   ⟨0x160, 2, 2, .rw, 0, .threeIsZero⟩,
   ⟨0x180, 2, 2, .rw, 0, .threeIsZero⟩,
   ⟨0x1A0, 2, 2, .rw, 0, .threeIsZero⟩,
   ⟨0x1C0, 2, 2, .rw, 0, .threeIsZero⟩,
   ⟨0x1E0, 2, 2, .rw, 0, .threeIsZero⟩] ++
  [⟨0x100, 0, 1, .w1s, 0, .any⟩,
   ⟨0x120, 0, 1, .w1s, 0, .any⟩,
   ⟨0x140, 0, 1, .w1s, 0, .any⟩,
   ⟨0x160, 0, 1, .w1s, 0, .any⟩,
   ⟨0x180, 0, 1, .w1s, 0, .any⟩,
   ⟨0x1A0, 0, 1, .w1s, 0, .any⟩,
   ⟨0x1C0, 0, 1, .w1s, 0, .any⟩,
   ⟨0x1E0, 0, 1, .w1s, 0, .any⟩,
   ⟨0x108, 0, 64, .rw, 0, .any⟩,
   ⟨0x128, 0, 64, .rw, 0, .any⟩,
   ⟨0x148, 0, 64, .rw, 0, .any⟩,
   ⟨0x168, 0, 64, .rw, 0, .any⟩,
   ⟨0x188, 0, 64, .rw, 0, .any⟩,
   ⟨0x1A8, 0, 64, .rw, 0, .any⟩,
   ⟨0x1C8, 0, 64, .rw, 0, .any⟩,
   ⟨0x1E8, 0, 64, .rw, 0, .any⟩,
   ⟨0x110, 0, 64, .rw, 0, .any⟩,
   ⟨0x130, 0, 64, .rw, 0, .any⟩,
   ⟨0x150, 0, 64, .rw, 0, .any⟩,
   ⟨0x170, 0, 64, .rw, 0, .any⟩] ++
  [⟨0x190, 0, 64, .rw, 0, .any⟩,
   ⟨0x1B0, 0, 64, .rw, 0, .any⟩,
   ⟨0x1D0, 0, 64, .rw, 0, .any⟩,
   ⟨0x1F0, 0, 64, .rw, 0, .any⟩,
   ⟨0x118, 32, 32, .ro, 0, .any⟩,
   ⟨0x138, 32, 32, .ro, 0, .any⟩,
   ⟨0x158, 32, 32, .ro, 0, .any⟩,
   ⟨0x178, 32, 32, .ro, 0, .any⟩,
   ⟨0x198, 32, 32, .ro, 0, .any⟩,
   ⟨0x1B8, 32, 32, .ro, 0, .any⟩,
   ⟨0x1D8, 32, 32, .ro, 0, .any⟩,
   ⟨0x1F8, 32, 32, .ro, 0, .any⟩,
   ⟨0x118, 2, 1, .w1c, 0, .any⟩,
   ⟨0x138, 2, 1, .w1c, 0, .any⟩,
   ⟨0x158, 2, 1, .w1c, 0, .any⟩,
   ⟨0x178, 2, 1, .w1c, 0, .any⟩,
   ⟨0x198, 2, 1, .w1c, 0, .any⟩,
   ⟨0x1B8, 2, 1, .w1c, 0, .any⟩,
   ⟨0x1D8, 2, 1, .w1c, 0, .any⟩,
   ⟨0x1F8, 2, 1, .w1c, 0, .any⟩] ++
  [⟨0x118, 1, 1, .ro, 0, .any⟩,
   ⟨0x138, 1, 1, .ro, 0, .any⟩,
   ⟨0x158, 1, 1, .ro, 0, .any⟩,
   ⟨0x178, 1, 1, .ro, 0, .any⟩,
   ⟨0x198, 1, 1, .ro, 0, .any⟩,
   ⟨0x1B8, 1, 1, .ro, 0, .any⟩,
   ⟨0x1D8, 1, 1, .ro, 0, .any⟩,
   ⟨0x1F8, 1, 1, .ro, 0, .any⟩,
   ⟨0x118, 0, 1, .ro, 0, .any⟩,
   ⟨0x138, 0, 1, .ro, 0, .any⟩,
   ⟨0x158, 0, 1, .ro, 0, .any⟩,
   ⟨0x178, 0, 1, .ro, 0, .any⟩,
   ⟨0x198, 0, 1, .ro, 0, .any⟩,
   ⟨0x1B8, 0, 1, .ro, 0, .any⟩,
   ⟨0x1D8, 0, 1, .ro, 0, .any⟩,
   ⟨0x1F8, 0, 1, .ro, 0, .any⟩,
   ⟨0x200, 8, 3, .rw, 0, .any⟩,
   ⟨0x220, 8, 3, .rw, 0, .any⟩,
   ⟨0x200, 0, 2, .rw, 0, .any⟩,
   ⟨0x220, 0, 2, .rw, 0, .any⟩] ++
  [⟨0x208, 56, 8, .ro, 0, .any⟩,
   ⟨0x228, 56, 8, .ro, 0, .any⟩,
   ⟨0x208, 48, 1, .ro, 0, .any⟩,
   ⟨0x228, 48, 1, .ro, 0, .any⟩,
   ⟨0x208, 0, 48, .ro, 0, .any⟩,
   ⟨0x228, 0, 48, .ro, 0, .any⟩,
   ⟨0x210, 16, 30, .ro, 0, .any⟩,
   ⟨0x230, 16, 30, .ro, 0, .any⟩,
   ⟨0x210, 0, 16, .ro, 0, .any⟩,
   ⟨0x230, 0, 16, .ro, 0, .any⟩,
   ⟨0x218, 24, 40, .ro, 0, .any⟩,
   ⟨0x238, 24, 40, .ro, 0, .any⟩,
   ⟨0x218, 8, 16, .ro, 0, .any⟩,
   ⟨0x238, 8, 16, .ro, 0, .any⟩,
   ⟨0x218, 0, 1, .ro, 0, .any⟩,
   ⟨0x238, 0, 1, .ro, 0, .any⟩]

/-- The block-specific fields of a FLT page. -/
def rowsFLT : List Row :=
  [⟨0x100, 48, 16, .ro, 0, .any⟩,
   ⟨0x100, 32, 16, .ro, 0, .any⟩,
   ⟨0x100, 16, 8, .ro, 0, .any⟩,
   ⟨0x100, 0, 3, .ro, 0, .any⟩,
   ⟨0x108, 63, 1, .ro, 0, .any⟩,
   ⟨0x108, 0, 18, .ro, 0, .any⟩,
   ⟨0x118, 32, 11, .rw, 0, .any⟩,
   ⟨0x118, 0, 1, .w1s, 0, .any⟩,
   ⟨0x120, 12, 4, .ro, 0, .any⟩,
   ⟨0x120, 0, 4, .rw, 0, .any⟩,
   ⟨0x128, 52, 12, .ro, 0, .any⟩,
   ⟨0x128, 0, 32, .ro, 0, .any⟩,
   ⟨0x130, 32, 32, .ro, 0, .any⟩,
   ⟨0x130, 16, 16, .ro, 0, .any⟩,
   ⟨0x138, 63, 1, .ro, 0, .any⟩,
   ⟨0x138, 0, 18, .ro, 0, .any⟩,
   ⟨0x110, 0, 64, .ro, 0, .any⟩]

/-- The block-specific fields of a PRT page. -/
def rowsPRT : List Row :=
  [⟨0x100, 40, 8, .ro, 0, .any⟩,
   ⟨0x100, 32, 8, .ro, 0, .any⟩,
   ⟨0x100, 0, 3, .ro, 0, .any⟩,
   ⟨0x108, 48, 16, .rw, 600, .range 60 65535⟩,
   ⟨0x108, 40, 8, .rw, 3, .range 1 15⟩,
   ⟨0x108, 16, 16, .rw, 20, .range 1 10000⟩,
   ⟨0x108, 4, 12, .rw, 1000, .range 100 4095⟩,
   ⟨0x108, 2, 1, .w1s, 0, .any⟩,
   ⟨0x108, 1, 1, .rw, 1, .any⟩,
   ⟨0x108, 0, 1, .rw, 1, .any⟩,
   ⟨0x110, 63, 1, .ro, 0, .any⟩,
   ⟨0x110, 32, 8, .ro, 0, .any⟩,
   ⟨0x110, 16, 8, .ro, 0, .any⟩,
   ⟨0x110, 8, 8, .ro, 0, .any⟩,
   ⟨0x110, 0, 4, .ro, 0, .any⟩,
   ⟨0x118, 24, 8, .ro, 0, .any⟩,
   ⟨0x118, 16, 8, .ro, 0, .any⟩,
   ⟨0x118, 14, 2, .ro, 0, .any⟩,
   ⟨0x118, 0, 10, .ro, 0, .any⟩]

/-- The block-specific fields of a LPD page. -/
def rowsLPD : List Row :=
  [⟨0x100, 32, 16, .ro, 0, .any⟩,
   ⟨0x100, 0, 4, .ro, 0, .any⟩]

/-- The block-specific fields of a CMP page. -/
def rowsCMP : List Row :=
  [⟨0x100, 32, 16, .ro, 20, .any⟩,
   ⟨0x100, 0, 16, .ro, 2000, .any⟩,
   ⟨0x108, 32, 32, .ro, 0, .any⟩,
   ⟨0x108, 0, 16, .ro, 0, .any⟩]

/-- The block-specific fields of a EVR page. -/
def rowsEVR : List Row :=
  [⟨0x100, 0, 12, .rw, 0, .any⟩,
   ⟨0x108, 9, 1, .w1s, 0, .any⟩,
   ⟨0x108, 8, 1, .rw, 0, .any⟩,
   ⟨0x108, 0, 1, .rw, 1, .any⟩,
   ⟨0x110, 0, 12, .rw, 0, .any⟩,
   ⟨0x118, 0, 64, .rw, 0, .any⟩,
   ⟨0x120, 0, 15, .rw, 0, .any⟩,
   ⟨0x128, 15, 1, .rw, 0, .any⟩,
   ⟨0x128, 0, 12, .rw, 0, .any⟩,
   ⟨0x130, 12, 52, .rw, 0, .any⟩,
   ⟨0x130, 0, 5, .rw, 0, .rangeOr0 8 20⟩,
   ⟨0x138, 32, 32, .ro, 0, .any⟩,
   ⟨0x138, 0, 32, .rw, 0, .any⟩,
   ⟨0x140, 32, 11, .rw, 0, .any⟩]

/-- The block-specific fields of a DBG page. -/
def rowsDBG : List Row :=
  [⟨0x100, 8, 1, .rw, 0, .any⟩,
   ⟨0x100, 0, 1, .rw, 0, .any⟩,
   ⟨0x108, 32, 12, .rw, 0, .any⟩,
   ⟨0x108, 7, 1, .w1s, 0, .any⟩,
   ⟨0x108, 6, 1, .w1s, 0, .any⟩,
   ⟨0x108, 3, 1, .rw, 0, .any⟩,
   ⟨0x108, 2, 1, .rw, 0, .any⟩,
   ⟨0x108, 1, 1, .rw, 0, .any⟩,
   ⟨0x108, 0, 1, .rw, 0, .any⟩,
   ⟨0x110, 16, 16, .ro, 0, .any⟩,
   ⟨0x110, 7, 1, .ro, 0, .any⟩,
   ⟨0x110, 4, 3, .ro, 0, .any⟩,
   ⟨0x110, 0, 3, .ro, 0, .any⟩,
   ⟨0x120, 0, 4, .rw, 0, .any⟩,
   ⟨0x128, 63, 1, .ro, 0, .any⟩,
   ⟨0x128, 48, 5, .ro, 0, .any⟩,
   ⟨0x128, 0, 48, .ro, 0, .any⟩,
   ⟨0x130, 0, 64, .ro, 0, .any⟩,
   ⟨0x138, 16, 4, .rw, 0, .any⟩,
   ⟨0x138, 0, 10, .rw, 0, .any⟩] ++
  [⟨0x140, 63, 1, .ro, 0, .any⟩,
   ⟨0x140, 0, 32, .ro, 0, .any⟩,
   ⟨0x148, 0, 64, .ro, 0, .any⟩,
   ⟨0x150, 0, 64, .rw, 0, .any⟩,
   ⟨0x158, 1, 1, .rw, 0, .any⟩,
   ⟨0x158, 0, 1, .w1s, 0, .any⟩,
   ⟨0x160, 32, 32, .ro, 0, .any⟩,
   ⟨0x160, 24, 8, .ro, 0, .any⟩,
   ⟨0x160, 16, 8, .ro, 0, .any⟩,
   ⟨0x160, 0, 16, .ro, 0, .any⟩,
   ⟨0x168, 9, 1, .w1s, 0, .any⟩,
   ⟨0x168, 8, 1, .w1s, 0, .any⟩,
   ⟨0x168, 0, 2, .rw, 0, .threeIsZero⟩,
   ⟨0x170, 48, 16, .ro, 0, .any⟩,
   ⟨0x170, 32, 16, .ro, 0, .any⟩,
   ⟨0x170, 24, 8, .ro, 0, .any⟩,
   ⟨0x170, 0, 16, .ro, 0, .any⟩,
   ⟨0x118, 0, 64, .ro, 0, .any⟩]

/-- The block-specific fields of a MON page. -/
def rowsMON : List Row :=
  [⟨0x100, 48, 16, .rw, 2000, .hundreds 1200 2200⟩,
   ⟨0x100, 40, 8, .rw, 25, .range 5 100⟩,
   ⟨0x100, 32, 8, .rw, 168, .range 24 255⟩,
   ⟨0x100, 1, 1, .w1s, 0, .any⟩,
   ⟨0x100, 0, 1, .rw, 1, .any⟩,
   ⟨0x108, 48, 16, .ro, 65535, .any⟩,
   ⟨0x108, 40, 8, .ro, 0, .any⟩,
   ⟨0x108, 32, 8, .ro, 8, .any⟩,
   ⟨0x108, 24, 8, .ro, 0, .any⟩,
   ⟨0x108, 0, 2, .ro, 0, .any⟩,
   ⟨0x110, 0, 4, .rw, 0, .range 0 10⟩,
   ⟨0x118, 48, 16, .ro, 0, .any⟩,
   ⟨0x118, 32, 16, .ro, 0, .any⟩,
   ⟨0x118, 24, 8, .ro, 0, .any⟩,
   ⟨0x118, 0, 1, .ro, 0, .any⟩,
   ⟨0x120, 0, 5, .rw, 0, .any⟩,
   ⟨0x128, 56, 8, .ro, 0, .any⟩,
   ⟨0x128, 0, 1, .ro, 0, .any⟩,
   ⟨0x130, 0, 3, .rw, 0, .any⟩,
   ⟨0x138, 0, 32, .ro, 0, .any⟩]

/-- The block-specific fields of a PCIE page. -/
def rowsPCIE : List Row :=
  [⟨0x100, 8, 8, .ro, 0, .any⟩,
   ⟨0x100, 4, 1, .ro, 0, .any⟩,
   ⟨0x100, 0, 4, .ro, 0, .any⟩,
   ⟨0x108, 28, 7, .rw, 0, .any⟩,
   ⟨0x110, 16, 16, .ro, 2048, .any⟩,
   ⟨0x110, 0, 6, .ro, 0, .any⟩]

/-- The block-specific fields of a APROF page. -/
def rowsAPROF : List Row :=
  [⟨0x100, 0, 64, .rw, 21474836480, .profile0⟩,
   ⟨0x120, 0, 64, .rw, 21474836480, .profile0⟩,
   ⟨0x140, 0, 64, .rw, 21474836480, .profile0⟩,
   ⟨0x160, 0, 64, .rw, 21474836480, .profile0⟩,
   ⟨0x108, 0, 64, .rw, 0, .profile1⟩,
   ⟨0x128, 0, 64, .rw, 0, .profile1⟩,
   ⟨0x148, 0, 64, .rw, 0, .profile1⟩,
   ⟨0x168, 0, 64, .rw, 0, .profile1⟩,
   ⟨0x110, 0, 4, .rw, 0, .any⟩,
   ⟨0x130, 0, 4, .rw, 0, .any⟩,
   ⟨0x150, 0, 4, .rw, 0, .any⟩,
   ⟨0x170, 0, 4, .rw, 0, .any⟩,
   ⟨0x118, 0, 64, .rw, 0, .any⟩,
   ⟨0x138, 0, 64, .rw, 0, .any⟩,
   ⟨0x158, 0, 64, .rw, 0, .any⟩,
   ⟨0x178, 0, 64, .rw, 0, .any⟩,
   ⟨0x180, 0, 1, .w1s, 0, .any⟩]

/-- The block-specific rows of a block (R22). -/
def blockRows : Block → List Row
  | .dev => rowsDEV
  | .boot => rowsBOOT
  | .sec => rowsSEC
  | .fwl => rowsFWL
  | .pwr => rowsPWR
  | .aon => rowsAON
  | .time => rowsTIME
  | .tense => rowsTENSE
  | .ptp => rowsPTP
  | .pulse => rowsPULSE
  | .mgmt => rowsMGMT
  | .cmp => rowsCMP
  | .flt => rowsFLT
  | .evr => rowsEVR
  | .dbg => rowsDBG
  | .drill => rowsDRILL
  | .mbr => rowsMBR
  | .spare => rowsSPARE
  | .appo => rowsAPPO
  | .stp => rowsSTP
  | .mir => rowsMIR
  | .flow => rowsFLOW
  | .agr => rowsAGR
  | .pcie => rowsPCIE
  | .agp => rowsAGP
  | .port => rowsPORT
  | .prt => rowsPRT
  | .lpd => rowsLPD
  | .srm => rowsSRM
  | .mon => rowsMON
  | .clu => rowsCLU
  | .vec => rowsVEC
  | .red => rowsRED
  | .agt => rowsAGT
  | .asmp => rowsASMP
  | .astep => rowsASTEP
  | .aflt => rowsAFLT
  | .acmd => rowsACMD
  | .aprof => rowsAPROF
  | .vfInfo => []
  | .vfCtx => []
  | .vfDb => []

/-- The counter slots of a block that are of the error class (R37). -/
def errorSlots : Block → List Nat
  | .dev => [0, 1]
  | .boot => []
  | .sec => []
  | .fwl => [0]
  | .pwr => [0, 1]
  | .aon => []
  | .time => [1, 2]
  | .tense => [2]
  | .ptp => [3]
  | .pulse => [2]
  | .mgmt => [0]
  | .cmp => [2]
  | .flt => [0, 1, 2]
  | .evr => [3, 4]
  | .dbg => [3]
  | .drill => [1]
  | .mbr => [3, 4, 5]
  | .spare => [1]
  | .appo => [2]
  | .stp => [5, 6]
  | .mir => [3]
  | .flow => []
  | .agr => [5, 6, 7]
  | .pcie => [0, 1]
  | .agp => [3]
  | .port => [5, 6, 7]
  | .prt => [0, 1]
  | .lpd => [0, 1]
  | .srm => [4]
  | .mon => [2]
  | .clu => [5]
  | .vec => [3]
  | .red => [2]
  | .agt => []
  | .asmp => [5]
  | .astep => [5]
  | .aflt => [0]
  | .acmd => [0]
  | .aprof => []
  | .vfInfo => []
  | .vfCtx => []
  | .vfDb => []

end Sys2Proof.Machine
end

