-- ==== Sys2Proof/Machine/Ops.lean ====
section
/-! DEFINITION. The named operations over tables, registers, memory, time and what leaves the block. Every meaning reads
and writes registers, memory and the output through these. -/

namespace Sys2Proof.Machine

/-! ### Tables -/

/-- The value listed for a key. -/
def Tab.find {α : Type} (k : Nat) : Tab α → Option α
  | [] => none
  | (k', v) :: t => if k' = k then some v else Tab.find k t

/-- The value of a key, or the table's default. -/
def Tab.getD {α : Type} (t : Tab α) (k : Nat) (d : α) : α := (Tab.find k t).getD d

/-- The table without a key. -/
def Tab.erase {α : Type} (k : Nat) (t : Tab α) : Tab α := t.filter fun e => e.1 != k

/-- The table with a value listed for a key, in rising order of keys. -/
def Tab.insert {α : Type} (k : Nat) (v : α) : Tab α → Tab α
  | [] => [(k, v)]
  | (k', v') :: t =>
    if k < k' then (k, v) :: (k', v') :: t
    else if k = k' then (k, v) :: t
    else (k', v') :: Tab.insert k v t

/-- A key set to a value; the table's default is not listed, so that equal tables are equal data. -/
def Tab.set {α : Type} [DecidableEq α] (t : Tab α) (k : Nat) (d v : α) : Tab α :=
  if v = d then Tab.erase k t else Tab.insert k v (Tab.erase k t)

/-- A key's value changed by a function. -/
def Tab.update {α : Type} [DecidableEq α] (t : Tab α) (k : Nat) (d : α) (f : α → α) : Tab α :=
  Tab.set t k d (f (Tab.getD t k d))

/-! ### Registers -/

/-- The key of a register field: its address and its lowest bit. -/
def Fld.key (f : Fld) : Nat := f.addr * 64 + f.lo

/-- The value of a register field. -/
def Dev.get (d : Dev) (f : Fld) : Nat := Tab.getD d.regs f.key f.rst

/-- A register field set to a value of its width. -/
def Dev.put (d : Dev) (f : Fld) (v : Nat) : Dev :=
  { d with regs := Tab.set d.regs f.key f.rst (v % 2 ^ f.w) }

/-- A one-bit field as a truth value. -/
def Dev.flag (d : Dev) (f : Fld) : Bool := d.get f != 0

/-- A one-bit field set to a truth value. -/
def Dev.putB (d : Dev) (f : Fld) (b : Bool) : Dev := d.put f (b2n b)

/-- Bit i of a number set. -/
def setBit (n i : Nat) : Nat := if bitAt i n then n else n + 2 ^ i

/-- Bit i of a number cleared. -/
def clrBit (n i : Nat) : Nat := if bitAt i n then n - 2 ^ i else n

/-- Bit i of a field set. -/
def Dev.setBitOf (d : Dev) (f : Fld) (i : Nat) : Dev := d.put f (setBit (d.get f) i)

/-- Bit i of a field cleared. -/
def Dev.clrBitOf (d : Dev) (f : Fld) (i : Nat) : Dev := d.put f (clrBit (d.get f) i)

/-- A value brought into a field's range (R32 and the fields' own descriptions); the words of a profile keep no reserved bit, and mode 3
acts as 0 (R130, R192). -/
def limitTo (l : Limit) (v : Nat) : Nat :=
  match l with
  | .any => v
  | .range lo hi => max lo (min hi v)
  | .rangeOr0 lo hi => if v = 0 then 0 else max lo (min hi v)
  | .evenRange lo hi => max lo (min hi ((v + 1) / 2 * 2))
  | .hundreds lo hi => max lo (min hi v) / 100 * 100
  | .signed8 lo hi => byteOfInt (clampInt lo hi (signed8 v))
  | .threeIsZero => if v = 3 then 0 else v
  | .profile0 => v &&& 0xFFFFFF0FFFF80000
  | .profile1 => let v := v &&& 0xC0FF00000000FFFF; if 3 ≤ v / 2 ^ 62 then v % 2 ^ 62 else v

/-- A utilisation counter advanced by n, modulo 2^64 (R37). -/
def Dev.addU (d : Dev) (c : Fld) (n : Nat) : Dev := d.put c (d.get c + n)

/-- A utilisation counter advanced by one (R37). -/
def Dev.incU (d : Dev) (c : Fld) : Dev := d.addU c 1

/-! ### Words of fields -/

/-- A word packed from fields: (lowest bit, width, value). -/
def pack (fs : List (Nat × Nat × Nat)) : Nat :=
  fs.foldl (fun acc f => acc + f.2.2 % 2 ^ f.2.1 * 2 ^ f.1) 0

/-! ### Time (R100 word 1, R341) -/

/-- 2^-40 ns units in a second. -/
def unitsPerSec : Nat := 1000000000 * 2 ^ 40

/-- 2^-40 ns units in a millisecond. -/
def unitsPerMs : Nat := 1000000 * 2 ^ 40

/-- 2^-40 ns units in a microsecond. -/
def unitsPerUs : Nat := 1000 * 2 ^ 40

/-- The seconds field of a time. -/
def secOf (t : Nat) : Nat := t / unitsPerSec % 2 ^ 48

/-- The nanoseconds field of a time. -/
def nsOf (t : Nat) : Nat := t / 2 ^ 40 % 1000000000

/-- The fraction field of a time, in 1/65,536 ns. -/
def fracOf (t : Nat) : Nat := t / 2 ^ 24 % 65536

/-- A time from seconds, nanoseconds and fraction. -/
def timeOf (sec ns frac : Nat) : Nat := sec * unitsPerSec + ns * 2 ^ 40 + frac * 2 ^ 24

/-- A stamp in the layout of R100 word 1: seconds bits [33:0] in [63:30], nanoseconds in [29:0]. -/
def stampOf (t : Nat) : Nat := secOf t % 2 ^ 34 * 2 ^ 30 + nsOf t

/-- The stamp of the present moment. -/
def Dev.stamp (d : Dev) : Nat := stampOf d.time

/-- The present moment in microseconds of the AON clock, whose period is 6.4 ns (R52). -/
def Dev.nowUs (d : Dev) : Nat := d.aon * 32 / 5000

/-- The time a stamp in the layout of R100 word 1 stands for. -/
def timeOfStamp (w : Nat) : Nat := timeOf (w / 2 ^ 30) (w % 2 ^ 30) 0

/-! ### Output and free values -/

/-- Something leaves the block. -/
def Dev.emit (d : Dev) (o : Out) : Dev := { d with out := d.out ++ [o] }

/-- Several things leave the block, in order. -/
def Dev.emits (d : Dev) (os : List Out) : Dev := { d with out := d.out ++ os }

/-- An output pin takes a value. -/
def Dev.pin (d : Dev) (p : Pin) (v : Nat) : Dev := d.emit (.pin p v)

/-- The next free value of the run (log entry 1). -/
def Dev.free (d : Dev) : Nat := (Config.freeWord d.fresh).toNat

/-- The free value has been taken. -/
def Dev.tick (d : Dev) : Dev := { d with fresh := d.fresh + 1 }

/-! ### Byte memory -/

/-- A memory in canonical form: addresses strictly rising, no byte equal to what an unlisted address reads as. -/
def Memory.wf : List Host.Cell → Bool
  | [] => true
  | [(_, b)] => b != 0
  | (a, b) :: (a', b') :: t => b != 0 && decide (a < a') && Memory.wf ((a', b') :: t)

/-- What an unlisted address reads as (log entry 4). -/
def Memory.blank : Byte := 0

/-- The byte at an address. -/
def Memory.read (a : Nat) : List Host.Cell → Byte
  | [] => Memory.blank
  | (a', b) :: t => if a' = a then b else Memory.read a t

/-- One byte written; the blank byte is not listed. -/
def Memory.write (a : Nat) (v : Byte) : List Host.Cell → List Host.Cell
  | [] => if v = 0 then [] else [(a, v)]
  | (a', b) :: t =>
    if a < a' then (if v = 0 then (a', b) :: t else (a, v) :: (a', b) :: t)
    else if a = a' then (if v = 0 then t else (a, v) :: t)
    else (a', b) :: Memory.write a v t

/-- Bytes written one after another. -/
def Memory.writes (ws : Writes) (m : List Host.Cell) : List Host.Cell :=
  ws.foldl (fun m w => Memory.write w.1 (BitVec.ofNat 8 w.2) m) m

/-- Bytes written from an address on. -/
def Memory.writeBytes (a : Nat) (bs : List Byte) (m : List Host.Cell) : List Host.Cell :=
  (bs.mapIdx fun i b => (a + i, b)).foldl (fun m w => Memory.write w.1 w.2 m) m

/-- The bytes at n addresses from a. -/
def Memory.readBytes (a n : Nat) (m : List Host.Cell) : List Byte :=
  (List.range n).map fun i => Memory.read (a + i) m

/-- Every byte of an address range set to the blank byte. -/
def Memory.clear (lo n : Nat) (m : List Host.Cell) : List Host.Cell :=
  m.filter fun c => decide (c.1 < lo) || decide (lo + n ≤ c.1)

/-- A little-endian number of n bytes. -/
def leNat (bs : List Byte) : Nat := bs.foldr (fun b acc => b.toNat + acc * 256) 0

/-- n bytes of a byte string from an offset, as a little-endian number; bytes beyond the end read zero. -/
def field (bs : List Byte) (off n : Nat) : Nat := leNat ((bs.drop off).take n)

/-- A number as n little-endian bytes. -/
def bytesOf (n v : Nat) : List Byte := (leBytes n v).map fun b => BitVec.ofNat 8 b

/-- Words as little-endian bytes, eight each. -/
def wordBytes (ws : List Nat) : List Nat := ws.flatMap (leBytes 8)

end Sys2Proof.Machine
end

