-- ==== Sys2Proof/Machine/Vector.lean ====
section
/-! DEFINITION. The vector engine's stages (R146 to R153), the coefficients of the Denelaros set, the reduction unit's
operations (R157 to R159) and CRC-64/XZ (R160). Nothing here touches the machine's state. -/

namespace Sys2Proof.Machine

/-- Fraction bits of the fixed-point numbers in which the Denelaros set is computed (R153). -/
def fixBits : Nat := 448

/-- 2^(1/2^i) in fixed point: i square roots of 2. -/
def rootOfTwo : Nat → Nat
  | 0 => 2 * 2 ^ fixBits
  | i + 1 => Nat.sqrt (rootOfTwo i * 2 ^ fixBits)

/-- 2^(u/512) for u up to 512, in fixed point: the product of the square roots its bits name. -/
def exp2Fix (u : Nat) : Nat :=
  if u = 512 then 2 * 2 ^ fixBits
  else (List.range 9).foldl
    (fun acc i => if bitAt (8 - i) u then acc * rootOfTwo (i + 1) / 2 ^ fixBits else acc) (2 ^ fixBits)

/-- Binary digits of log₂ x for x in [1, 2) in fixed point: n digits, most significant first. -/
def log2Digits : Nat → Nat → Nat → Nat
  | 0, _, acc => acc
  | n + 1, x, acc =>
    let y := x * x / 2 ^ fixBits
    if 2 * 2 ^ fixBits ≤ y then log2Digits n (y / 2) (2 * acc + 1) else log2Digits n y (2 * acc)

/-- log₂(u/512) for u from 512 to 1,024, with 200 fraction bits scaled to the fixed point. -/
def log2Fix (u : Nat) : Nat :=
  if u = 1024 then 2 ^ fixBits
  else log2Digits 200 (u * 2 ^ fixBits / 512) 0 * 2 ^ (fixBits - 200)

/-- 512/u in fixed point. -/
def rcpFix (u : Nat) : Nat := 512 * 2 ^ fixBits / u

/-- 1/√(u/256) in fixed point. -/
def rsqrtFix (u : Nat) : Nat := Nat.sqrt (256 * 2 ^ (2 * fixBits) / u)

/-- The function values at r = 0, h/2 and h of segment s, in fixed point, with log₂(1/h) (R153). -/
def segmentValues (f s : Nat) : (Nat × Nat × Nat) × Nat :=
  match f with
  | 0 => ((exp2Fix (2 * s), exp2Fix (2 * s + 1), exp2Fix (2 * s + 2)), 8)
  | 1 => ((log2Fix (512 + 2 * s), log2Fix (513 + 2 * s), log2Fix (514 + 2 * s)), 8)
  | 2 => ((rcpFix (512 + 2 * s), rcpFix (513 + 2 * s), rcpFix (514 + 2 * s)), 8)
  | _ =>
    if s < 128 then
      ((rsqrtFix (256 + 2 * s), rsqrtFix (257 + 2 * s), rsqrtFix (258 + 2 * s)), 7)
    else
      let j := s - 128
      ((rsqrtFix (512 + 4 * j), rsqrtFix (514 + 4 * j), rsqrtFix (516 + 4 * j)), 6)

/-- A fixed-point integer times 2^k as an FP32 encoding by RNE. -/
def fixToFp32 (i : Int) (k : Nat) : Nat :=
  fp32.encode (convert fp32 .rne false false (.fin (i < 0) i.natAbs ((k : Int) - fixBits)))

/-- The coefficients c0, c1, c2 of segment s of function f in the Denelaros set (R153): the quadratic in r through the
exact values at r = 0, h/2 and h, each coefficient rounded to FP32 with RNE. -/
def denelarosCoef (f s : Nat) : Nat × Nat × Nat :=
  let sv := segmentValues f s
  let y0 : Int := sv.1.1
  let y1 : Int := sv.1.2.1
  let y2 : Int := sv.1.2.2
  (fixToFp32 y0 0, fixToFp32 (4 * y1 - 3 * y0 - y2) sv.2, fixToFp32 (2 * (y0 - 2 * y1 + y2)) (2 * sv.2))

/-- The two 64-bit words of segment s of function f in the Denelaros set, at index 2 × (256f + s) (R153). -/
def denelarosWord (index : Nat) : Nat :=
  let fs := index / 2
  let c := denelarosCoef (fs / 256) (fs % 256)
  if index % 2 = 0 then c.1 + c.2.1 * 2 ^ 32 else c.2.2

/-- Coefficients: the word at an index of the chosen set (R153). -/
abbrev CoefWord := Nat → Nat

/-- p(r) = ((c2 × r + c1) × r) + c0, four roundings in the order written (R152). -/
def quadratic (rnd : Num → Num) (cw : CoefWord) (f s : Nat) (r : Num) : Num :=
  let w0 := cw (2 * (256 * f + s))
  let w1 := cw (2 * (256 * f + s) + 1)
  let c0 := fp32.decode (bits 0 32 w0)
  let c1 := fp32.decode (bits 32 32 w0)
  let c2 := fp32.decode (bits 0 32 w1)
  rnd ((rnd ((rnd ((rnd (c2.mul r)).add c1)).mul r)).add c0)

/-- ⌊m · 2^e⌋ with a sign. -/
def floorNum (n : Bool) (m : Nat) (e : Int) : Int :=
  if 0 ≤ e then (if n then -(m * 2 ^ e.toNat : Nat) else (m * 2 ^ e.toNat : Nat))
  else if n then -((m + 2 ^ (-e).toNat - 1) / 2 ^ (-e).toNat : Nat) else (m / 2 ^ (-e).toNat : Nat)

/-- exp2 of a stage operand (R152). -/
def exp2Stage (rnd : Num → Num) (cw : CoefWord) (a : Num) : Num :=
  match a with
  | .nan => .nan
  | .inf n => if n then Num.zero else .inf false
  | .fin n m e =>
    if !(a.lt (Num.ofNat 128)) then .inf false
    else if a.lt (Num.ofInt (-150)) then Num.zero
    else
      let fl := if m = 0 then 0 else floorNum n m e
      let f := a.add (Num.ofInt (-fl))
      let s := match f with
        | .fin _ fm fe => shift fm (fe + 8)
        | _ => 0
      let r := f.add (.fin true s (-8))
      rnd ((quadratic rnd cw 0 s r).scale fl)

/-- The mantissa in [1, 2) and the exponent of a nonzero finite magnitude. -/
def normalise (m : Nat) (e : Int) : Num × Int :=
  let E := (m.log2 : Int) + e
  (.fin false m (e - E), E)

/-- ⌊2^k (m − c)⌋ and the rest of m above c + s/2^k. -/
def segmentOf (m : Num) (c k : Nat) : Nat × Num :=
  let d := m.add (Num.ofInt (-(c : Int)))
  let s := match d with
    | .fin _ dm de => shift dm (de + k)
    | _ => 0
  (s, d.add (.fin true s (-(k : Int))))

/-- log2 of a stage operand (R152). -/
def log2Stage (rnd : Num → Num) (cw : CoefWord) (a : Num) : Num :=
  match a with
  | .nan => .nan
  | .inf n => if n then .nan else .inf false
  | .fin n m e =>
    if m = 0 then .inf true
    else if n then .nan
    else
      let me := normalise m e
      let sr := segmentOf me.1 1 8
      rnd ((Num.ofInt me.2).add (quadratic rnd cw 1 sr.1 sr.2))

/-- rcp of a stage operand (R152). -/
def rcpStage (rnd : Num → Num) (cw : CoefWord) (a : Num) : Num :=
  match a with
  | .nan => .nan
  | .inf n => .fin n 0 0
  | .fin n m e =>
    if m = 0 then .inf n
    else
      let me := normalise m e
      let sr := segmentOf me.1 1 8
      let p := (quadratic rnd cw 2 sr.1 sr.2).scale (-me.2)
      rnd (if n then p.neg else p)

/-- rsqrt of a stage operand (R152). -/
def rsqrtStage (rnd : Num → Num) (cw : CoefWord) (a : Num) : Num :=
  match a with
  | .nan => .nan
  | .inf n => if n then .nan else Num.zero
  | .fin n m e =>
    if m = 0 then .inf n
    else if n then .nan
    else
      let me := normalise m e
      let q := me.2 / 2
      if me.2 % 2 = 0 then
        let sr := segmentOf me.1 1 7
        rnd ((quadratic rnd cw 3 sr.1 sr.2).scale (-q))
      else
        let sr := segmentOf (me.1.scale 1) 2 6
        rnd ((quadratic rnd cw 3 (128 + sr.1) sr.2).scale (-q))

/-- log₂ e in FP32 (R152). -/
def log2e : Num := fp32.decode 0x3FB8AA3B
/-- Twice log₂ e in FP32 (R152). -/
def twoLog2e : Num := fp32.decode 0x4038AA3B
/-- 1. -/
def Num.one : Num := Num.ofNat 1

/-- sigmoid of a stage operand (R152); inp flushes the input of each step when in_denorm_ftz is 1. -/
def sigmoidStage (rnd inp : Num → Num) (cw : CoefWord) (a : Num) : Num :=
  let t := rnd ((inp a).mul log2e)
  let u := exp2Stage rnd cw (inp t.neg)
  rcpStage rnd cw (rnd (Num.one.add u))

/-- tanh of a stage operand (R152); inp as for sigmoid. -/
def tanhStage (rnd inp : Num → Num) (cw : CoefWord) (a : Num) : Num :=
  let t := rnd ((inp a).abs.mul twoLog2e)
  let u := exp2Stage rnd cw (inp t)
  let q := rcpStage rnd cw (rnd (u.add Num.one))
  let v := rnd (Num.one.add (rnd (q.scale 1)).neg)
  if a.sign then v.neg else v

/-- A stage of a CHAIN (R147). -/
structure Stage where
  op : Nat
  a : Nat
  b : Nat
  c : Nat
  aux : Nat
  imm : Nat
  deriving DecidableEq, Repr

/-- The stage a word spells (R147). -/
def Stage.ofWord (w : Nat) : Stage where
  op := bits 56 8 w
  a := bits 52 4 w
  b := bits 48 4 w
  c := bits 44 4 w
  aux := bits 40 4 w
  imm := bits 0 32 w

/-- The operations of R150, with how many operands each reads. -/
def stageArity : Nat → Option Nat
  | 0x01 | 0x02 | 0x03 => some 2
  | 0x04 => some 3
  | 0x05 | 0x06 => some 2
  | 0x07 | 0x08 => some 1
  | 0x10 => some 2
  | 0x11 => some 3
  | 0x18 => some 1
  | 0x19 => some 1
  | 0x1A => some 3
  | 0x20 | 0x21 | 0x22 | 0x23 | 0x24 | 0x25 => some 1
  | 0x30 => some 1
  | 0x31 => some 3
  | 0x32 => some 2
  | _ => none

/-- Whether an operation may run in packed mode (R150). -/
def stagePackable (op : Nat) : Bool :=
  [0x01, 0x02, 0x03, 0x04, 0x05, 0x06, 0x07, 0x08, 0x10, 0x11, 0x18, 0x1A].contains op

/-- Whether an operation's aux is allowed, where aux has a meaning (R150, R151). -/
def stageAuxOk (op aux : Nat) : Bool :=
  if op = 0x10 then aux ≤ 5
  else if op = 0x19 then decide (1 ≤ aux) && decide (aux ≤ 6)
  else if 0x20 ≤ op ∧ op ≤ 0x25 then aux ≤ 7
  else true

/-- Whether an operation yields the chain's remainder result (R150). -/
def stageHasRem (op : Nat) : Bool := op == 0x30 || op == 0x31

/-- The comparison cmp makes (R150): false for every condition except ≠ when an operand is a NaN. -/
def cmpStage (aux : Nat) (a b : Num) : Num :=
  let r : Bool := match aux with
    | 0 => a.eqv b
    | 1 => !(a.eqv b)
    | 2 => a.lt b
    | 3 => a.lt b || a.eqv b
    | 4 => b.lt a
    | _ => b.lt a || a.eqv b
  if r then Num.one else Num.zero

/-- The exact or rounded result of a stage, with its remainder result when it has one (R149, R150). -/
def stageResult (p : Profile) (packed : Bool) (coef : Nat → CoefWord) (st : Stage) (a b c : Num) : Num × Option Num :=
  let rnd : Num → Num := if packed then convert bf16 (Round.ofCode p.accRound) p.accFtz false else roundAcc p
  let inp : Num → Num := flushIn fp32 p.inFtz
  match st.op with
  | 0x01 => (rnd (a.add b), none)
  | 0x02 => (rnd (a.add b.neg), none)
  | 0x03 => (rnd (a.mul b), none)
  | 0x04 => (rnd ((a.mul b).add c), none)
  | 0x05 => (rnd (a.max b), none)
  | 0x06 => (rnd (a.min b), none)
  | 0x07 => (rnd a.abs, none)
  | 0x08 => (rnd a.neg, none)
  | 0x10 => (cmpStage st.aux a b, none)
  | 0x11 => (rnd (if a.isZero then c else b), none)
  | 0x18 => (rnd (a.scale (clampInt (-300) 300 (signed32 st.imm))), none)
  | 0x19 =>
    (rnd (if st.aux = 6 then Num.ofInt (convertInt8 (Round.ofCode p.outRound) a)
      else match (Fmt.ofCode st.aux).bind Fmt.float? with
        | some F => convertOut p F a
        | none => .nan), none)
  | 0x1A => (rnd ((a.max b).min c), none)
  | 0x20 => (exp2Stage rnd (coef st.aux) (inp a), none)
  | 0x21 => (log2Stage rnd (coef st.aux) (inp a), none)
  | 0x22 => (rcpStage rnd (coef st.aux) (inp a), none)
  | 0x23 => (rsqrtStage rnd (coef st.aux) (inp a), none)
  | 0x24 => (sigmoidStage rnd inp (coef st.aux) a, none)
  | 0x25 => (tanhStage rnd inp (coef st.aux) a, none)
  | 0x30 => match weightFmt st.aux with
    | some (wf, F) => let r := splitStage p wf F (bits 0 5 st.imm) a; (r.1, some r.2)
    | none => (.nan, none)
  | 0x31 => match weightFmt st.aux with
    | some (wf, F) => let r := mergeStage p wf F (bits 0 5 st.imm) a b c; (r.1, some r.2)
    | none => (.nan, none)
  | _ => match weightFmt st.aux with
    | some (wf, _) => (joinStage p wf (bits 0 5 st.imm) a b, none)
    | none => (.nan, none)

/-- What a CHAIN's stages have produced for one element: stage results so far and the remainder result. -/
structure ChainVals where
  results : List Num
  rem : Num
  deriving DecidableEq, Repr

/-- The operand a selector names (R148). -/
def selectOperand (ins : List Num) (cv : ChainVals) (imm sel : Nat) : Num :=
  if sel < 3 then ins.getD sel .nan
  else if sel = 3 then fp32.decode imm
  else if sel = 4 then cv.rem
  else cv.results.getD (sel - 8) .nan

/-- The stages run in order on one element (R147 to R150). -/
def runStages (p : Profile) (packed : Bool) (coef : Nat → CoefWord) (sts : List Stage) (ins : List Num) : ChainVals :=
  sts.foldl (fun cv st =>
    let r := stageResult p packed coef st (selectOperand ins cv st.imm st.a) (selectOperand ins cv st.imm st.b)
      (selectOperand ins cv st.imm st.c)
    { results := cv.results ++ [r.1], rem := r.2.getD cv.rem }) { results := [], rem := .nan }

/-- The body of a CHAIN (R146). -/
structure ChainBody where
  in0 : Nat
  in1 : Nat
  in2 : Nat
  out0 : Nat
  out1 : Nat
  out1Sel : Nat
  out0Sel : Nat
  fmtOut1 : Nat
  fmtOut0 : Nat
  fmtIn2 : Nat
  fmtIn1 : Nat
  fmtIn0 : Nat
  rowB2 : Bool
  rowB1 : Bool
  pack16 : Bool
  n : Nat
  m : Nat
  stages : Nat
  count : Nat
  ftqIn : Bool
  deriving DecidableEq, Repr

/-- The CHAIN body of a descriptor (R103, R146). -/
def ChainBody.ofDesc (d : Desc) : ChainBody where
  in0 := wd d 1
  in1 := wd d 2
  in2 := wd d 3
  out0 := wd d 4
  out1 := wd d 5
  out1Sel := bits 60 4 (wd d 6)
  out0Sel := bits 56 4 (wd d 6)
  fmtOut1 := bits 52 4 (wd d 6)
  fmtOut0 := bits 48 4 (wd d 6)
  fmtIn2 := bits 44 4 (wd d 6)
  fmtIn1 := bits 40 4 (wd d 6)
  fmtIn0 := bits 36 4 (wd d 6)
  rowB2 := bitAt 34 (wd d 6)
  rowB1 := bitAt 33 (wd d 6)
  pack16 := bitAt 32 (wd d 6)
  n := bits 16 16 (wd d 6)
  m := bits 0 16 (wd d 6)
  stages := bits 6 58 (wd d 7) * 64
  count := bits 0 3 (wd d 7) + 1
  ftqIn := bitAt 0 (wd d 0)

/-- A 64-bit little-endian word at an address. -/
def readWord64 (rd : Nat → Nat) (a : Nat) : Nat :=
  (List.range 8).foldr (fun i acc => rd (a + i) + acc * 256) 0

/-- A 32-bit little-endian word at an address. -/
def readWord32 (rd : Nat → Nat) (a : Nat) : Nat :=
  (List.range 4).foldr (fun i acc => rd (a + i) + acc * 256) 0

/-- The stage block of a CHAIN (R147). -/
def chainStages (rd : Nat → Nat) (d : ChainBody) : List Stage :=
  (List.range d.count).map fun i => Stage.ofWord (readWord64 rd (d.stages + 8 * i))

/-- Whether the descriptor supplies input i (R146): input 0 always, 1 and 2 when their address is not zero. -/
def chainHasInput (d : ChainBody) (i : Nat) : Bool :=
  match i with
  | 0 => true
  | 1 => d.in1 != 0
  | _ => d.in2 != 0

/-- Whether a stage's selector may be used at stage i (R148, R151). -/
def selectorOk (d : ChainBody) (hasRem : Bool) (i sel : Nat) : Bool :=
  if sel < 3 then chainHasInput d sel
  else if sel = 3 then true
  else if sel = 4 then hasRem
  else if sel < 8 then false
  else decide (sel - 8 < i)

/-- Whether an output selector is allowed (R146, R151). -/
def outSelOk (d : ChainBody) (hasRem : Bool) (sel : Nat) : Bool :=
  if sel = 0 then false
  else if sel < 3 then chainHasInput d sel
  else if sel = 4 then hasRem
  else if sel < 8 then false
  else decide (sel - 8 < d.count)

/-- The selectors of a stage, those that its operation does not read among them (R151). -/
def stageSelectors (st : Stage) : List Nat := [st.a, st.b, st.c]

/-- The error code a CHAIN ends with before it issues, if any (R137, R151, R153). matDims are m and n of the MAT before
a CHAIN with ftq_in; valid says which coefficient sets are valid. -/
def chainError (p : Profile) (d : ChainBody) (sts : List Stage) (matDims : Option (Nat × Nat)) (valid : Nat) :
    Option Nat :=
  let rems := (sts.filter fun s => stageHasRem s.op).length
  let hasRemBefore (i : Nat) : Bool := (sts.take i).any fun s => stageHasRem s.op
  let bad07 : Bool :=
    d.m == 0 || d.n == 0
    || sts.any (fun s => (stageArity s.op).isNone || !stageAuxOk s.op s.aux)
    || (sts.mapIdx fun i s => (stageSelectors s).any fun sel => !selectorOk d (hasRemBefore i) i sel).any id
    || !outSelOk d (rems != 0) d.out0Sel
    || (d.out1Sel != 0 && !outSelOk d (rems != 0) d.out1Sel)
    || (d.rowB1 && d.in1 == 0) || (d.rowB2 && d.in2 == 0)
    || decide (1 < rems)
    || (d.pack16 && sts.any fun s => !stagePackable s.op)
    || (match Fmt.ofCode d.fmtOut0 with
        | some f => f.isMx && d.n % 32 != 0
        | none => false)
    || (d.out1Sel != 0 && (match Fmt.ofCode d.fmtOut1 with
        | some f => f.isMx && d.n % 32 != 0
        | none => false))
    || ((!d.ftqIn && ((Fmt.ofCode d.fmtIn0).map Fmt.isMx).getD false
        || d.in1 != 0 && ((Fmt.ofCode d.fmtIn1).map Fmt.isMx).getD false
        || d.in2 != 0 && ((Fmt.ofCode d.fmtIn2).map Fmt.isMx).getD false) && d.n % 32 != 0)
    || (d.ftqIn && matDims != some (d.m, d.n))
  let fmtBad (c : Nat) : Bool := !bitAt c p.fmtMask || (Fmt.ofCode c).isNone
  let bad06 : Bool :=
    p.mode == 0
    || (!d.ftqIn && fmtBad d.fmtIn0) || (d.in1 != 0 && fmtBad d.fmtIn1) || (d.in2 != 0 && fmtBad d.fmtIn2)
    || (Fmt.ofCode d.fmtOut0).isNone || (d.out1Sel != 0 && (Fmt.ofCode d.fmtOut1).isNone)
    || sts.any (fun s => decide (0x20 ≤ s.op) && decide (s.op ≤ 0x25) && !bitAt s.aux valid)
    || sts.any (fun s => decide (0x30 ≤ s.op) && decide (s.op ≤ 0x32) && (weightFmt s.aux).isNone)
  if bad07 then some 0x07 else if bad06 then some 0x06 else none

/-- Input i of a CHAIN at element (r, c) (R146, R149): the queued tile, a broadcast row or a tensor. -/
def chainInput (rd : Nat → Nat) (p : Profile) (d : ChainBody) (queue : List (List Cell)) (i r c : Nat) : Num :=
  match i with
  | 0 =>
    if d.ftqIn then flushIn fp32 p.inFtz (((queue.getD r []).getD c (.num .nan)).toNum p)
    else match Fmt.ofCode d.fmtIn0 with
      | some f => loadTensor rd f p.inFtz d.in0 d.m d.n r c
      | none => .nan
  | 1 => match Fmt.ofCode d.fmtIn1 with
    | some f => if d.rowB1 then loadTensor rd f p.inFtz d.in1 1 d.n 0 c else loadTensor rd f p.inFtz d.in1 d.m d.n r c
    | none => .nan
  | _ => match Fmt.ofCode d.fmtIn2 with
    | some f => if d.rowB2 then loadTensor rd f p.inFtz d.in2 1 d.n 0 c else loadTensor rd f p.inFtz d.in2 d.m d.n r c
    | none => .nan

/-- The values of one element's stages in a CHAIN. -/
def chainElem (rd : Nat → Nat) (p : Profile) (coef : Nat → CoefWord) (d : ChainBody) (sts : List Stage)
    (queue : List (List Cell)) (r c : Nat) : List Num × ChainVals :=
  let ins := (List.range 3).map fun i => if chainHasInput d i then chainInput rd p d queue i r c else .nan
  (ins, runStages p d.pack16 coef sts ins)

/-- The tensor an output selector of a CHAIN names, row by row. -/
def chainOut (rd : Nat → Nat) (p : Profile) (coef : Nat → CoefWord) (d : ChainBody) (sts : List Stage)
    (queue : List (List Cell)) (sel : Nat) : List (List Cell) :=
  (List.range d.m).map fun r => (List.range d.n).map fun c =>
    let e := chainElem rd p coef d sts queue r c
    Cell.num (selectOperand e.1 e.2 0 sel)

/-- The bytes a CHAIN writes (R146, R149). -/
def chainWrites (rd : Nat → Nat) (p : Profile) (coef : Nat → CoefWord) (d : ChainBody) (sts : List Stage)
    (queue : List (List Cell)) : Writes :=
  let one (sel fmt base : Nat) : Writes :=
    match Fmt.ofCode fmt with
    | some f => storeTensor p f false base d.n (chainOut rd p coef d sts queue sel)
    | none => []
  one d.out0Sel d.fmtOut0 d.out0 ++ (if d.out1Sel = 0 then [] else one d.out1Sel d.fmtOut1 d.out1)

/-! ### Digests -/

/-- The reflected polynomial of CRC-64/XZ (R160). -/
def crcPoly : Nat := 0xC96C5795D7870F42

/-- n steps of the reflected CRC register. -/
def crcBits : Nat → Nat → Nat
  | 0, r => r
  | n + 1, r => crcBits n (if r % 2 = 1 then (r / 2) ^^^ crcPoly else r / 2)

/-- CRC-64/XZ over bytes (R160). -/
def crc64 (bs : List Nat) : Nat :=
  (bs.foldl (fun r b => crcBits 8 (r ^^^ (b % 256))) 0xFFFFFFFFFFFFFFFF) ^^^ 0xFFFFFFFFFFFFFFFF

/-! ### RED and the compare operation -/

/-- The body of a RED (R157). -/
structure RedBody where
  src : Nat
  dst : Nat
  m : Nat
  n : Nat
  up : Bool
  op : Nat
  axis : Nat
  fmtIn : Nat
  fmtOut : Nat
  deriving DecidableEq, Repr

/-- The RED body of a descriptor (R157). -/
def RedBody.ofDesc (d : Desc) : RedBody where
  src := wd d 1
  dst := wd d 2
  m := bits 32 32 (wd d 3)
  n := bits 0 32 (wd d 3)
  up := bitAt 16 (wd d 4)
  op := bits 12 4 (wd d 4)
  axis := bits 8 4 (wd d 4)
  fmtIn := bits 4 4 (wd d 4)
  fmtOut := bits 0 4 (wd d 4)

/-- The error code a RED ends with before it issues, if any (R157, R158). -/
def redError (p : Profile) (d : RedBody) : Option Nat :=
  if d.m = 0 ∨ d.n = 0 ∨ 5 < d.op ∨ 2 < d.axis then some 0x07
  else if d.op = 5 ∧ d.axis = 1 then some 0x07
  else if d.up && !(d.op == 4 && d.fmtOut == 1) then some 0x07
  else if p.mode = 0 || !bitAt d.fmtIn p.fmtMask then some 0x06
  else if d.op ≠ 5 ∧ 2 < d.fmtOut then some 0x06
  else match Fmt.ofCode d.fmtIn with
    | none => some 0x06
    | some f => if f.isMx && d.n % 32 != 0 then some 0x07 else none

/-- The elements a RED reduces for one result: a row, a column or everything, in the order of R158. -/
def redGroup (rd : Nat → Nat) (p : Profile) (d : RedBody) (f : Fmt) (g : Nat) : List Num :=
  let at_ (i j : Nat) : Num := loadTensor rd f p.inFtz d.src d.m d.n i j
  match d.axis with
  | 0 => (List.range d.n).map fun j => at_ g j
  | 1 => (List.range d.m).map fun i => at_ i g
  | _ => (List.range d.m).flatMap fun i => (List.range d.n).map fun j => at_ i j

/-- One result of a RED other than a digest, before output conversion (R158). -/
def redValue (p : Profile) (op : Nat) (vs : List Num) : Num :=
  match op, vs with
  | 0, _ => accumulate p Num.zero vs
  | 1, _ => accumulate p Num.zero (vs.map fun v => v.mul v)
  | 2, v :: r => r.foldl Num.max v
  | 3, v :: r => r.foldl Num.min v
  | 4, _ =>
    if vs.any Num.isNan then .nan
    else if vs.any Num.isInf then .inf false
    else maxMag vs
  | _, _ => .nan

/-- The stored bytes of row i of a tensor: its element bytes, as they lie in memory. -/
def rowBytesAt (rd : Nat → Nat) (f : Fmt) (base n i : Nat) : List Nat :=
  (List.range (f.rowBytes n)).map fun b => rd (base + i * f.rowBytes n + b)

/-- The scale bytes of row i of an MX tensor. -/
def rowScalesAt (rd : Nat → Nat) (f : Fmt) (base rows n i : Nat) : List Nat :=
  if f.isMx then (List.range (n / 32)).map fun b => rd (scaleBase base rows (f.rowBytes n) + i * (n / 32) + b) else []

/-- How many results a RED has. -/
def redCount (d : RedBody) : Nat :=
  match d.axis with
  | 0 => d.m
  | 1 => d.n
  | _ => 1

/-- The bytes digest g of a RED covers (R160). -/
def redDigestBytes (rd : Nat → Nat) (d : RedBody) (f : Fmt) (g : Nat) : List Nat :=
  if d.axis = 0 then rowBytesAt rd f d.src d.n g ++ rowScalesAt rd f d.src d.m d.n g
  else (List.range d.m).flatMap (rowBytesAt rd f d.src d.n) ++ (List.range d.m).flatMap (rowScalesAt rd f d.src d.m d.n)

/-- The bytes a RED writes, contiguously (R157, R158). -/
def redWrites (rd : Nat → Nat) (p : Profile) (d : RedBody) : Writes :=
  match Fmt.ofCode d.fmtIn with
  | none => []
  | some f =>
    let groups := List.range (redCount d)
    if d.op = 5 then
      placeBytes d.dst (groups.flatMap fun g => leBytes 8 (crc64 (redDigestBytes rd d f g)))
    else match (Fmt.ofCode d.fmtOut).bind fun g => g.float?.map fun F => (g, F) with
      | none => []
      | some (g, F) =>
        let mode := if d.up then Round.up else Round.ofCode p.outRound
        placeBytes d.dst (groups.flatMap fun i =>
          packRow g.bits [g.encodeElem (convert F mode p.outFtz false (redValue p d.op (redGroup rd p d f i)))])

/-- The result of a compare (R159): disagreeing elements, the first of them, the largest distance, the digest. -/
structure CompareResult where
  maxDist : Nat
  nDisagree : Nat
  first : Nat
  digest : Nat
  deriving DecidableEq, Repr

/-- The three words of a compare result (R159). -/
def CompareResult.words (c : CompareResult) : List Nat :=
  [c.nDisagree % 2 ^ 32 + Nat.min c.maxDist 0xFFFFFFFF * 2 ^ 32, c.first, c.digest]

/-- The comparisons of a tile against its reference, given as stored bytes of each row and its scales (R133, R159). -/
def compareTile (p : Profile) (f : Fmt) (asInt : Bool) (n : Nat) (mine ref : List (List Nat × List Nat)) :
    CompareResult :=
  let rdOf (l : List Nat) : Nat → Nat := fun a => l.getD a 0
  let elem (row : List Nat × List Nat) (j : Nat) : Nat :=
    readBits (rdOf row.1) 0 (j * (if asInt then 32 else f.bits)) (if asInt then 32 else f.bits)
  let cmpOne (a b : List Nat × List Nat) (j : Nat) : Cmp :=
    if asInt then compareInt p (signed32 (elem a j)) (signed32 (elem b j))
    else if f.isMx then
      let dec (r : List Nat × List Nat) : Nat := asFp32 (applyScale (f.decodeElem (elem r j)) (rdOf r.2 (j / 32)))
      compareFloat p fp32 32 (dec a) (dec b)
    else match f.float? with
      | some F =>
        let strip (e : Nat) : Nat := if f == .fp19 then e / 2 ^ 13 else e
        compareFloat p F (1 + F.ebits + F.mbits) (strip (elem a j)) (strip (elem b j))
      | none => compareInt p (signed8 (elem a j)) (signed8 (elem b j))
  let cmps := ((mine.zip ref).map fun ab => (List.range n).map fun j => cmpOne ab.1 ab.2 j).flatten
  let bad := cmps.filter fun c => !c.agree
  let first := match cmps.findIdx? (fun c => !c.agree) with
    | some i => i
    | none => 0xFFFFFFFF
  { maxDist := if p.mode = 2 then bad.foldl (fun a c => Nat.max a c.dist) 0 else 0
    nDisagree := bad.length
    first := first
    digest := crc64 (mine.flatMap (·.1) ++ mine.flatMap (·.2)) }

end Sys2Proof.Machine
end

