-- ==== Sys2Proof/Machine/Links.lean ====
section
/-! DEFINITION. Links of the continuity fabric (R262 to R263, R268, R278 to R281, R284, R285): flits, replay buffers, credits
and the route of a message. A message that leaves the block stands in its output; what the link does with it is state of
its port. -/

namespace Sys2Proof.Machine

/-! ### The controller's own identity -/

/-- The chip number: rack × 32 + slot once a plan is in force, 0xFFFE before (R8, R275). -/
def Dev.chip (d : Dev) : Nat :=
  if d.flag Reg.DEV_PLAN_STATUS_loaded then d.get Reg.DEV_PLAN_STATUS_rack * 32 + d.pwr.traySlot else 0xFFFE

/-- Device safe state: heartbeats, Clause traffic, verdicts and stripe traffic have stopped and lanes send idle (R370). -/
def Dev.silent (d : Dev) : Bool := decide (2 ≤ d.get Reg.FLT_DEV_STATUS_state)

/-- The rack's broadcast value (R43). -/
def Dev.rackBroadcast (d : Dev) : Nat := d.chip / 32 * 32 + 31

/-- The broadcast value of the pod (R43). -/
def podBroadcast : Nat := 0xFFFF

/-! ### Ports -/

/-- A field as it acts where a write takes effect later (R289 for DEV_FAB_CTRL, R318 for the settings that a rack shares): it
stands beside the register, at an address that no access reaches. -/
def acts (f : Fld) : Fld := { f with addr := 0x4000_0000 + f.addr }

/-- A port. -/
def Dev.port (d : Dev) (i : Nat) : PortSt := Tab.getD d.ports i PortSt.reset

/-- A port set. -/
def Dev.setPort (d : Dev) (i : Nat) (p : PortSt) : Dev := { d with ports := Tab.set d.ports i PortSt.reset p }

/-- The link of a port is up (R276), also while its keys are agreed afresh (R283). -/
def Dev.linkStands (d : Dev) (i : Nat) : Bool :=
  d.get (Reg.PORT_STATUS_state i) == 3 || (d.get (Reg.PORT_STATUS_state i) == 5 && (d.port i).rekey)

/-- A port carries new messages: its link is up and does not leave, and its page is enabled (R274, R382). -/
def Dev.portUp (d : Dev) (i : Nat) : Bool :=
  d.linkStands i && d.flag (Reg.PAGE_STATUS_enabled (0x090 + i)) && !(d.port i).leaving

/-- The lanes of a port (R266). -/
def portLanes (i : Nat) : List Nat := List.range (if i < 8 then 4 else 1)

/-- A word of a HELLO body; absent words read zero (R275). -/
def helloWord (h : List Nat) (i : Nat) : Nat := h.getD i 0

/-- The sender's chip number, port and tray slot in a HELLO (R275). -/
def helloChip (h : List Nat) : Nat := bits 48 16 (helloWord h 2)
def helloPort (h : List Nat) : Nat := bits 40 8 (helloWord h 2)
def helloSlot (h : List Nat) : Nat := bits 32 8 (helloWord h 2)

/-- The receive buffer of a VC at the far end of a port (R281), in flits. -/
def bufferOf (port vc : Nat) : Nat :=
  if port < 8 then (match vc with | 1 => 16 | 2 => 4096 | _ => 0)
  else if port < 26 then (match vc with | 0 => 64 | 1 => 16 | 2 => 256 | _ => 128)
  else (match vc with | 0 => 64 | 1 => 16 | 2 => 1024 | _ => 512)

/-- The virtual channel of a fabric message (R278, R279, R333, R334): by its kind, and of MOVE data by the descriptor's class, which bit 8 of
its first word names (log entry 48). -/
def vcOf (kind : Nat) (body : List Nat) : Nat :=
  if (0x50 ≤ kind ∧ kind ≤ 0x54) ∨ (kind = 0x58 ∧ bitAt 8 (wd body 0)) then 2
  else if kind = 0x58 ∨ kind = 0x59 then 3
  else if kind = 0x60 then 1
  else 0

/-- The flits of a message: its routing header and body, and on VC0 the frame counter and tag, 240 bytes a flit (R262,
R279, R282). -/
def flitsOf (kind : Nat) (body : List Nat) : Nat :=
  (16 + 8 * body.length + (if vcOf kind body = 0 then 24 else 0) + 239) / 240

/-- A fabric message with its routing header (R279). -/
def fabWords (dst src kind epoch : Nat) (body : List Nat) : List Nat :=
  [pack [(48, 16, dst), (32, 16, src), (24, 8, kind), (0, 24, 8 * body.length)], epoch * 2 ^ 32] ++ body

/-- The flits that the far buffer of a VC reserves for each of the hop levels 0 to 7 (R280). -/
def levelReserve (vc : Nat) : Nat := if vc = 2 then 16 else if vc = 3 then 8 else 0

/-- The credit in use at a hop level of a VC. -/
def PortSt.usedAt (p : PortSt) (vc level : Nat) : Nat := (Tab.getD p.used vc []).count level

/-- The credit in use of the flits that the levels of a VC share. -/
def PortSt.usedShared (p : PortSt) (vc : Nat) : Nat :=
  ((List.range 8).map fun l => p.usedAt vc l - levelReserve vc).foldl (· + ·) 0

/-- The far buffer has a flit free for a hop level of a VC (R280, R281): of the level's own, or of those that the levels share. -/
def PortSt.credit (p : PortSt) (i vc level : Nat) : Bool :=
  decide (p.usedAt vc level < levelReserve vc ∧ 8 * levelReserve vc ≤ bufferOf i vc) ||
    decide (p.usedShared vc + 8 * levelReserve vc < bufferOf i vc)

/-- The message of a VC that is served next: the one begun, since its flits are consecutive (R262), else the first that has credit at
its level (log entry 52). -/
def PortSt.nextOf (p : PortSt) (i vc : Nat) : Option PortQueued :=
  match p.queue.find? fun m => m.vc == vc && m.begun with
  | some m => if p.credit i vc m.level then some m else none
  | none => p.queue.find? fun m => m.vc == vc && p.credit i vc m.level

/-- What of a port's queue may leave (R276, R283): before its link is up only what is link-local, and while keys are agreed afresh no other
message of VC0 begins. -/
def Dev.sendable (d : Dev) (i : Nat) : List PortQueued :=
  let p := d.port i
  p.queue.filter fun m => m.local_ || (d.linkStands i && (!p.rekey || m.vc != 0 || m.begun))

/-- The message that a transmitter serves next (R278): of VC0, VC1, then VC2 and VC3 by weight; only with credit. -/
def Dev.nextFlit (d : Dev) (i : Nat) : Option PortQueued :=
  let p := { d.port i with queue := d.sendable i }
  let wc := max 1 (d.get (acts Reg.DEV_FAB_CTRL_w_c))
  let wa := max 1 (d.get (acts Reg.DEV_FAB_CTRL_w_a))
  let pref := if p.turn % (wc + wa) < wc then [2, 3] else [3, 2]
  ([0, 1] ++ pref).findSome? (p.nextOf i)

/-- The header of a flit (R262): VC, hop level, control or not, its number, the highest number received in order, and the buffer freed since
the last report, at most 63 flits of each VC. -/
def PortSt.header (p : PortSt) (vc level : Nat) (ctl : Bool) (seq : Nat) : Nat :=
  pack ([(62, 2, vc), (59, 3, level), (58, 1, b2n ctl), (40, 16, seq), (24, 16, (p.rxNext + 65535) % 65536)] ++
    (List.range 4).map fun v => (18 - 6 * v, 6, Nat.min 63 (Tab.getD p.freed v 0)))

/-- The freed buffer that a header has not reported. -/
def PortSt.unreported (p : PortSt) : Tab Nat := (p.freed.map fun e => (e.1, e.2 - 63)).filter fun e => e.2 != 0

/-- The lane on which a flit leaves (R267): an agent port deals its flits to the lanes that are up in rotation. -/
def PortSt.laneFor (p : PortSt) (i seq : Nat) : Nat :=
  let ups := (portLanes i).filter fun l => Tab.getD p.lanes l 0 == 2
  ups.getD (seq % max 1 ups.length) 0

/-- A flit leaves (R262): header, payload and CRC; what it reports as freed is reported, and it is counted. -/
def Dev.putFlit (d : Dev) (i vc level : Nat) (ctl : Bool) (seq : Nat) (words : List Nat) : Dev :=
  let p := d.port i
  let hdr := p.header vc level ctl seq
  let d := d.emit (.flit i (p.laneFor i seq) hdr words (crc64 (wordBytes (hdr :: words))))
  (d.setPort i { p with freed := p.unreported }).incU (Cnt.PORT_CNT_TX_FLITS i)

/-- The next flit of a message leaves: sequence number, replay buffer and credit (R262, R263, R281). -/
def Dev.sendFlit (d : Dev) (i vc level : Nat) (words : List Nat) : Dev :=
  let p := d.port i
  (d.setPort i { p with
    txSeq := (p.txSeq + 1) % 65536, unacked := p.unacked ++ [⟨p.txSeq, vc, level, words⟩]
    used := Tab.update p.used vc [] (· ++ [level]), turn := if 2 ≤ vc then p.turn + 1 else p.turn }).putFlit i vc level false p.txSeq words

/-- A control flit leaves (R262): 0 an acknowledgement, 1 a negative one (log entry 54). -/
def Dev.sendControl (d : Dev) (i code : Nat) : Dev := d.putFlit i 0 0 true 0 (code :: List.replicate 29 0)

/-- A message as it leaves (R282): a VC0 frame that is not link-local is protected with the keys of its link, the header and the frame
counter as they are, the body encrypted, the tag behind it. -/
def PortSt.protect (p : PortSt) (m : PortQueued) : List Nat :=
  if m.vc ≠ 0 ∨ m.local_ then m.words
  else
    let k := p.key.getD ⟨0, 0, 0, 0⟩
    let iv := k.txSalt * 2 ^ 64 + p.txCtr
    let open_ := m.words.take 2 ++ [p.txCtr]
    let text := (m.words.drop 2).mapIdx fun j w => w ^^^ (Config.gcmStream k.tx iv j).toNat
    let tag := Config.gcmTag k.tx iv ((open_ ++ text).flatMap (bytesOf 8))
    open_ ++ text ++ [tag % 2 ^ 64, tag / 2 ^ 64 % 2 ^ 64]

/-- A message of the queue replaced by what is left of it. -/
def takeFlit (m : PortQueued) (rest : List Nat) : List PortQueued → List PortQueued
  | [] => []
  | q :: t => if q = m then (if rest = [] then t else { q with words := rest, begun := true } :: t) else q :: takeFlit m rest t

/-- The 30 words of a flit's payload; the last flit of a message is filled with zeros. -/
def flitWords (ws : List Nat) : List Nat := (List.range 30).map fun j => ws.getD j 0

/-- Waiting flits are sent while credit and the replay buffer of 512 flits allow (R263, R281). A frame takes the next counter as its first
flit leaves (R282). -/
def Dev.pump (d : Dev) (i : Nat) : Nat → Dev
  | 0 => d
  | n + 1 =>
    if 512 ≤ (d.port i).unacked.length then d
    else match d.nextFlit i with
      | none => d
      | some m =>
        let p := d.port i
        let ws := if m.begun then m.words else p.protect m
        let ctr := if m.begun || m.vc != 0 || m.local_ then p.txCtr else p.txCtr + 1
        let d := d.setPort i { p with queue := takeFlit m (ws.drop 30) p.queue, txCtr := ctr }
        (d.sendFlit i m.vc m.level (flitWords ws)).pump i n

/-- A message is queued on a port, at its hop level (R280), and sent as far as may be. -/
def Dev.transmit (d : Dev) (i vc level : Nat) (words : List Nat) : Dev :=
  let p := d.port i
  let d := d.setPort i { p with queue := p.queue ++ [⟨vc, words, level, false, false⟩], msgs := if 2 ≤ vc then p.msgs + 1 else p.msgs }
  d.pump i (words.length + 512)

/-- A link-local message is queued on a port and sent (R275, R279, R283): on VC0, on an agent port on VC2, since it has no VC0 (R267; log entry
54). One of its length that has not begun is replaced by it. -/
def Dev.sendLocal (d : Dev) (i kind : Nat) (body : List Nat) : Dev :=
  let p := d.port i
  let words := fabWords 0 d.chip kind 0 body
  let old (m : PortQueued) : Bool := m.local_ && !m.begun && m.words.length == words.length
  let d := (d.emit (.link i kind body)).setPort i
    { p with queue := (p.queue.filter fun m => !old m) ++ [⟨if i < 8 then 2 else 0, words, 0, false, true⟩] }
  d.pump i (words.length + 512)

/-- The replay buffer, which survives a retrain, is sent again (R263). -/
def Dev.resend (d : Dev) (i : Nat) : Dev :=
  (d.port i).unacked.foldl (fun (d : Dev) f => d.putFlit i f.vc f.level false f.seq f.words) d

/-- A port's lanes train (R264, R265): no lane is up, no attempt made; what was agreed with the far end is over. The replay
buffer and the queue survive (R263). -/
def Dev.trainPort (d : Dev) (i : Nat) : Dev :=
  let d := d.setPort i { d.port i with lanes := (portLanes i).map fun l => (l, 1), tries := [], key := none, hello := none, long := false }
  ((d.put (Reg.PORT_STATUS_state i) 1).put (Reg.PORT_STATUS_lanes_up i) 0).put (Reg.PORT_STATUS_reason i) 0

/-! ### Routes (R268, R284, R285) -/

/-- The group ports, G0 to G17. -/
def gPorts : List Nat := (List.range 18).map (· + 8)

/-- The global ports, X0 to X13. -/
def xPorts : List Nat := (List.range 14).map (· + 26)

/-- The far slot and port of group port d of a tray slot (R268). -/
def gFar (slot dd : Nat) : Nat × Nat := if dd < 17 then ((slot + dd + 1) % 18, 8 + (16 - dd)) else ((slot + 9) % 18, 25)

/-- The up links to a slot of the rack, by the far end's HELLO, so a remapped port counts where it leads (R276). -/
def Dev.linksTo (d : Dev) (slot : Nat) : List Nat :=
  gPorts.filter fun i => d.portUp i && match (d.port i).hello with
    | some h => helloSlot h == slot
    | none => (gFar d.pwr.traySlot (i - 8)).1 == slot

/-- The link to a slot for a VC (R268): over the two lanes to the opposite slot VC2 and VC3 messages alternate. -/
def Dev.linkTo (d : Dev) (slot vc : Nat) : Option Nat :=
  match d.linksTo slot with
  | [] => none
  | [i] => some i
  | i :: j :: _ => if 2 ≤ vc ∧ ((d.port i).msgs + (d.port j).msgs) % 2 = 1 then some j else some i

/-- The utilisation a rack member last reported for its lane to a slot (R286); 0xFF stands for a lane that is not up. -/
def Dev.reported (d : Dev) (v t : Nat) : Option Nat :=
  match Tab.find v d.loads with
  | some l => let u := l.getD ((t + 18 - v - 1) % 18) 0xFF
              if u = 0xFF then none else some u
  | none => none

/-- The port towards a slot of the own rack (R284): the direct link, or the lowest relay slot with links to both. -/
def Dev.routeSlot (d : Dev) (slot vc : Nat) : Option Nat :=
  match d.linkTo slot vc with
  | some i => some i
  | none =>
    ((List.range 18).find? fun v => v != slot && v != d.pwr.traySlot && d.linksTo v != [] && (d.reported v slot).isSome).bind
      fun v => d.linkTo v vc

/-- The up port of this tray that leads to the far end of a global entry, by its HELLO, so a remapped port counts where it leads (R276). -/
def Dev.portTo (d : Dev) (w : Nat) : Option Nat :=
  xPorts.find? fun i => d.portUp i && match (d.port i).hello with
    | some h => helloChip h == bits 16 16 w * 32 + bits 32 8 w && helloPort h == bits 40 8 w
    | none => i == bits 8 8 w

/-- The exits to a rack: global entries of the plan as (slot, port); own ports only while up, those of other slots only while the slot can be
reached (R269, R284, log entry 52). -/
def Dev.exits (d : Dev) (rack : Nat) : List (Nat × Nat) :=
  match d.boot.plan with
  | none => []
  | some p =>
    (p.globals.filter fun w => bits 16 16 w == rack).filterMap fun w =>
      if bits 0 8 w = d.pwr.traySlot then (d.portTo w).map fun i => (bits 0 8 w, i)
      else if (d.routeSlot (bits 0 8 w) 0).isSome then some (bits 0 8 w, bits 8 8 w)
      else none

/-- Two racks have lanes between them: of the own rack its plan and the lanes' state tell, of two others the reference wiring (R269; log
entry 54). -/
def Dev.racksLinked (d : Dev) (a b : Nat) : Bool :=
  if a = d.chip / 32 then d.exits b != []
  else if b = d.chip / 32 then d.exits a != []
  else
    let n := (d.boot.plan.map PlanInfo.racks).getD 0
    a != b && decide (a < n) && decide (b < n) && decide (1 ≤ 252 / (n - 1))

/-- The relay rack between two racks (R284): the lowest-numbered one with lanes from the one and to the other. -/
def Dev.relayRack (d : Dev) (a b : Nat) : Option Nat :=
  (List.range 253).find? fun r => r != a && r != b && d.racksLinked a r && d.racksLinked r b

/-- The port towards another rack (R284): through the exit slot chosen among several by the chips' numbers (log entry 17), or by the relay
rack. -/
def Dev.routeRack (d : Dev) (rack src dst vc : Nat) : Option Nat :=
  let go (es : List (Nat × Nat)) : Option Nat :=
    match es[(src + dst) % (es.length + (if es.length = 0 then 1 else 0))]? with
    | some e => if e.1 = d.pwr.traySlot then some e.2 else d.routeSlot e.1 vc
    | none => none
  match d.exits rack with
  | [] => (d.relayRack (d.chip / 32) rack).bind fun r => go (d.exits r)
  | es => go es

/-- The ports of a broadcast in the rack (R268, R285): one for each slot with an up link. -/
def Dev.rackPorts (d : Dev) (vc : Nat) : List Nat :=
  ((List.range 18).filter (· != d.pwr.traySlot)).filterMap fun t => d.linkTo t vc

/-- The ports a message leaves on (R284, R285). -/
def Dev.route (d : Dev) (src dst vc : Nat) : List Nat :=
  if dst = podBroadcast then d.rackPorts vc ++ xPorts.filter d.portUp
  else if dst / 32 = d.chip / 32 then
    if dst % 32 = 31 then d.rackPorts vc
    else if dst % 32 = d.pwr.traySlot then []
    else (d.routeSlot (dst % 32) vc).toList
  else (d.routeRack (dst / 32) src dst vc).toList

/-! ### The indirect path (R286, R287) -/

/-- The flits of 100 µs at the group level: 18 lanes of 46.875 GB/s (R286). -/
def groupFlits : Nat := 351562

/-- The flits of STRIPEs that this controller sent indirectly in the last 100 µs. -/
def Dev.indirectNow (d : Dev) : Nat := ((d.indirect.filter fun e => decide (d.nowUs ≤ e.1 + 100)).map (·.2)).foldl (· + ·) 0

/-- The lane by which a STRIPE of so many flits for a slot goes indirectly (R286): none unless its own lane is saturated. What a relay
carries for others its sender cannot know (log entry 35). -/
def Dev.indirectPort (d : Dev) (slot flits : Nat) : Option Nat :=
  match d.linkTo slot 2 with
  | none => none
  | some i =>
    let idle := d.get (acts Reg.DEV_FAB_CTRL_idle_pct)
    if d.get (Reg.PORT_UTIL_tx_pct i) < d.get (acts Reg.DEV_FAB_CTRL_sat_pct) ∨
        d.get (acts Reg.DEV_FAB_CTRL_indirect_pct) * groupFlits < 100 * (d.indirectNow + flits) then none
    else
      let via := (List.range 18).filterMap fun v =>
        if v = slot ∨ v = d.pwr.traySlot then none
        else match d.linkTo v 2, d.reported v slot with
          | some k, some u =>
            let own := d.get (Reg.PORT_UTIL_tx_pct k)
            if own ≤ idle ∧ u ≤ idle then some (own + u, k) else none
          | _, _ => none
      match (via.map (·.1)).min? with
      | some m => (via.find? fun e => e.1 == m).map (·.2)
      | none => none

/-- The ports of a message that leaves this controller: a STRIPE may go indirectly (R284, R286). -/
def Dev.leavesOn (d : Dev) (dst kind vc flits : Nat) : List Nat × Bool :=
  match (if kind = 0x50 ∧ dst / 32 = d.chip / 32 ∧ dst % 32 ≠ 31 then d.indirectPort (dst % 32) flits else none) with
  | some k => ([k], true)
  | none => (d.route d.chip dst vc, false)

/-- Flits sent indirectly are counted (R286, R289). -/
def Dev.countIndirect (d : Dev) (port flits : Nat) : Dev :=
  { d.addU (Cnt.PORT_CNT_INDIRECT port) flits with
    indirect := (d.indirect.filter fun e => decide (d.nowUs ≤ e.1 + 100)) ++ [(d.nowUs, flits)] }

/-- A message to another controller, or to a rack or the pod by a broadcast value (R43, R279, R284): it is sent on its route; in
device safe state nothing leaves (R370). -/
def Dev.sendOn (d : Dev) (dst kind : Nat) (body : List Nat) : Dev :=
  if d.silent then d
  else
    let n := flitsOf kind body
    let vc := vcOf kind body
    let epoch := d.get Reg.MBR_STATUS_epoch
    let out := d.leavesOn dst kind vc n
    let d := d.emit (.fabric dst kind epoch body)
    let d := if out.2 then d.countIndirect (out.1.headD 0) n else d
    out.1.foldl (fun d i => d.transmit i vc 0 (fabWords dst d.chip kind epoch body)) d

/-- The racks of the pod to which this rack has no lane (R285). -/
def Dev.farRacks (d : Dev) : List Nat :=
  match d.boot.plan with
  | none => []
  | some p => (List.range p.racks).filter fun r => r != p.rack && d.exits r == []

/-- A message sent (R43, R279, R284); of one to the pod, a rack without a lane from this one gets a relayed copy (R285, log entry 52). -/
def Dev.send (d : Dev) (dst kind : Nat) (body : List Nat) : Dev :=
  let far := if dst = podBroadcast then d.farRacks else []
  far.foldl (fun d r => d.sendOn (r * 32 + 31) kind body) (d.sendOn dst kind body)

end Sys2Proof.Machine
end

