-- ==== Sys2Proof/Machine/Flags.lean ====
section
/-! DEFINITION. Counters (R37), events on their way to the recorder (R404) and the fault block of a page (R365 to
R368): what a count, an event and a raised source do to status. What a reaction contains is in Fault. -/

namespace Sys2Proof.Machine

/-! ### Events (R353, R404) -/

/-- The pending events with one more event of a source (R404): merged into the source's own entry, or a new entry last
in the order of service. The second part says whether it was merged. -/
def addPending (src v t : Nat) : List EvPending → List EvPending × Bool
  | [] => ([⟨src, 1, v, t⟩], false)
  | p :: ps =>
    if p.src = src then ({ p with m := p.m + 1, value := v, stamp := t } :: ps, true)
    else ((p :: (addPending src v t ps).1), (addPending src v t ps).2)

/-- An event of a source code reaches the recorder with a value (R353, R404): it waits there for its source's turn. -/
def Dev.event (d : Dev) (src v : Nat) : Dev :=
  let r := addPending src (v % 2 ^ 32) d.stamp d.evr.pend
  let d := { d with evr := { d.evr with pend := r.1 } }
  let d := d.incU Cnt.EVR_CNT_EVR_EVENTS
  if r.2 then d.incU Cnt.EVR_CNT_EVR_COALESCED else d

/-- The page of a counter slot. -/
def Fld.page (c : Fld) : Nat := c.addr / 0x1000

/-- The slot number of a counter (R29). -/
def Fld.slot (c : Fld) : Nat := (c.addr % 0x1000 - 0x88) / 8

/-- An error counter advanced by one (R37): it stops at 0xFFFF_FFFF; the first lost increment sets sat and is an event
of index 48 + slot (R402). -/
def Dev.incE (d : Dev) (c : Fld) : Dev :=
  let v := d.get c
  if v % 2 ^ 32 = 0xFFFFFFFF then
    if bitAt 63 v then d else (d.put c (v + 2 ^ 63)).event (c.page * 64 + 48 + c.slot) 0
  else d.put c (v + 1)

/-- An error counter advanced n times, one after another. -/
def Dev.incEs (d : Dev) (c : Fld) : Nat → Dev
  | 0 => d
  | n + 1 => (d.incE c).incEs c n

/-- A clear of an error counter: count and sat together (R37, R38). -/
def Dev.clearCounter (d : Dev) (c : Fld) : Dev := d.put c 0

/-! ### Fault sources (R365, R366) -/

/-- The source code of R353. -/
def FltSrc.code (s : FltSrc) : Nat := s.page * 64 + s.idx

/-- The partition a page belongs to (R436). -/
def pagePart (pg : Nat) : Option Nat := if 0x100 ≤ pg ∧ pg < 0x200 then some ((pg - 0x100) / 16) else none

/-- The pages of a partition (R436). -/
def partPages (p : Nat) : List Nat := (List.range 10).map fun k => 0x100 + 16 * p + k

/-- Whether the source's enable bit is 1 and the page implements it (R366, R29). -/
def Dev.srcEnabled (d : Dev) (s : FltSrc) : Bool :=
  bitAt s.idx (d.get (Reg.FLT_ENABLE_enable s.page)) &&
    ((pageBlock s.page).map fun b => decide (s.idx < nFlt b)).getD false

/-- The reaction in force: code 2 acts as code 1 on a page of no partition (R368). -/
def Dev.reactOf (d : Dev) (s : FltSrc) : Nat :=
  let r := bits (2 * s.idx) 2 (d.get (Reg.FLT_REACT_react s.page))
  if r = 2 ∧ (pagePart s.page).isNone then 1 else r

/-- A message-signalled interrupt of a function; before the link is up it is lost (R455, log entry 6). -/
def Dev.msix (d : Dev) (vf vector : Nat) : Dev := if d.boot.linkUp then d.emit (.msix vf vector) else d

/-- Bytes written to host memory by the controller's DMA (R442). -/
def Dev.hostWrite (d : Dev) (addr : Nat) (bs : List Nat) : Dev :=
  (d.emit (.hostWrite addr bs)).addU Cnt.PCIE_CNT_DMA_BYTES bs.length

/-- The fault block of a page takes a raise of an enabled source (R366): status, first source and time, or overflow. -/
def Dev.latchPage (d : Dev) (s : FltSrc) (forced : Bool) : Dev :=
  let pg := s.page
  let d' := d.setBitOf (Reg.FLT_STATUS_status pg) s.idx
  if d.flag (Reg.FLT_FIRST_valid pg) then d'.setBitOf (Reg.FLT_OVF_ovf pg) s.idx
  else
    ((((d'.put (Reg.FLT_FIRST_valid pg) 1).put (Reg.FLT_FIRST_react pg) (d.reactOf s)).putB
      (Reg.FLT_FIRST_forced pg) forced).put (Reg.FLT_FIRST_source pg) s.idx).put (Reg.FLT_TIME_time pg) d.stamp

/-- The aggregator takes a latched source (R373): the page's pending bit, and the device's first source. -/
def Dev.latchDev (d : Dev) (s : FltSrc) : Dev :=
  let d' := d.setBitOf (Reg.FLT_PEND_pend (s.page / 64)) (s.page % 64)
  if d.flag Reg.FLT_DEV_FIRST_valid then d'
  else ((d'.put Reg.FLT_DEV_FIRST_valid 1).put Reg.FLT_DEV_FIRST_code s.code).put Reg.FLT_DEV_TIME_time d.stamp

/-- A raise of a source on one of the controller's own pages, without what its reaction contains: the latch, the event
and the interrupt (R366, R368). A disabled source does nothing. -/
def Dev.latchSrc (d : Dev) (s : FltSrc) (forced : Bool) : Dev :=
  if d.srcEnabled s then
    let d' := ((d.latchPage s forced).latchDev s).event s.code 0
    let d' := if (pagePart s.page).isSome then
        { d' with unreset := Tab.update d'.unreset s.page 0 fun m => setBit m s.idx } else d'
    if d.reactOf s = 0 then d' else d'.msix 0 (d.get Reg.FLT_DEV_CTRL_vector)
  else d

/-- Every FLT_PEND bit is zero (R373). -/
def Dev.noPend (d : Dev) : Bool := (List.range 64).all fun i => d.get (Reg.FLT_PEND_pend i) == 0

/-- A fault block whose status may have become zero (R367, R373): the first-source latch and the overflow bits clear,
and with the last page the device's first source. -/
def Dev.settleBlock (d : Dev) (pg : Nat) : Dev :=
  if d.get (Reg.FLT_STATUS_status pg) = 0 then
    let d := ((d.put (Reg.FLT_FIRST_valid pg) 0).put (Reg.FLT_OVF_ovf pg) 0).clrBitOf (Reg.FLT_PEND_pend (pg / 64)) (pg % 64)
    if d.noPend then d.put Reg.FLT_DEV_FIRST_valid 0 else d
  else d

/-- The bits of FLT_STATUS with a reaction in force on a page. -/
def Dev.statusWith (d : Dev) (pg react : Nat) : Bool :=
  (List.range 32).any fun s => bitAt s (d.get (Reg.FLT_STATUS_status pg)) && d.reactOf ⟨pg, s⟩ == react

/-! ### Counter snapshots (R30, R398) -/

/-- The counter slots of a page, live, in order. -/
def Dev.slots (d : Dev) (pg : Nat) : List Nat :=
  match pageBlock pg with
  | some b => (List.range (nCnt b)).map fun k => d.get ⟨pg * 0x1000 + 0x88 + 8 * k, 0, 64, 0⟩
  | none => []

/-- A snapshot of every implemented slot of a page in the same hub cycle (R30). -/
def Dev.snapPage (d : Dev) (pg : Nat) : Dev :=
  let d := { d with snaps := Tab.set d.snaps pg [] (d.slots pg) }
  (d.put (Reg.CNT_LATCH_valid pg) 1).put (Reg.CNT_LATCH_snap_ns pg) (nsOf d.time)

end Sys2Proof.Machine
end

