-- ==== Sys2Proof/Machine/Threads.lean ====
section
/-! DEFINITION. Contexts, managed pages and hardware threads (R91 to R100, R111, R386, R399 to R401): the operations that
descriptors, drains, safe state and teardown share. -/

namespace Sys2Proof.Machine

/-! ### Access to contexts and threads -/

/-- A context's registers and state. -/
def Dev.ctx (d : Dev) (c : Nat) : Ctx := Tab.getD d.comp.ctxs c Ctx.reset

/-- A context set. -/
def Dev.setCtx (d : Dev) (c : Nat) (x : Ctx) : Dev :=
  { d with comp := { d.comp with ctxs := Tab.set d.comp.ctxs c Ctx.reset x } }

/-- The key of a hardware thread: 256 to a cluster. -/
def threadKey (cl th : Nat) : Nat := cl * 256 + th

/-- A hardware thread. -/
def Dev.thread (d : Dev) (k : Nat) : Thread := Tab.getD d.comp.threads k Thread.reset

/-- A hardware thread set. -/
def Dev.setThread (d : Dev) (k : Nat) (t : Thread) : Dev :=
  { d with comp := { d.comp with threads := Tab.set d.comp.threads k Thread.reset t } }

/-- The keys of the threads that are not idle and satisfy a condition. -/
def Dev.threadsWith (d : Dev) (f : Nat → Thread → Bool) : List Nat :=
  (d.comp.threads.filter fun e => e.2.state != .idle && f e.1 e.2).map (·.1)

/-- The keys of the threads that run commands of a context. -/
def Dev.threadsOf (d : Dev) (c : Nat) : List Nat := d.threadsWith fun _ t => t.cls != 0 && t.ctx == c

/-- The state of a partition: PRT_STATUS.state (R392). -/
def Dev.partState (d : Dev) (p : Nat) : Nat := d.get (Reg.PRT_STATUS_state p)

/-! ### Pages (R21, R34, R465) -/

/-- A page of an agent, which lies in its accelerator's package (R163, R165). -/
def agentSpace (pg : Nat) : Bool := decide (0x1000 ≤ pg) && decide (pg < 0x9000)

/-- The page answers: it is assigned, and an agent's or with the hub powered. -/
def Dev.pageThere (d : Dev) (pg : Nat) : Bool := (pageBlock pg).isSome && (d.pwr.powered.contains .hub || agentSpace pg)

/-- A page of a partition that its reset does not reach: PRT and MON (R465). -/
def keepsThroughReset (pg : Nat) : Bool := (pagePart pg).isSome && (pg % 16 == 0 || pg % 16 == 9)

/-- The page is one of a partition out of service (R377, R378). -/
def Dev.pageOut (d : Dev) (pg : Nat) : Bool := match pagePart pg with | some p => d.partState p == 4 | none => false

/-- The page's reset domain is in reset, or its partition is out of service (R27, R34). -/
def Dev.pageInReset (d : Dev) (pg : Nat) : Bool := d.flag (Reg.PAGE_STATUS_reset_active pg) || d.pageOut pg

/-- A write of a register other than PAGE_CTRL acts only where the page takes writes (R21, R34, R377). -/
def Dev.ifWritable (d : Dev) (pg : Nat) (f : Dev → Dev) : Dev :=
  if !d.pageThere pg ∨ d.pageOut pg ∨ (d.pageInReset pg ∧ !keepsThroughReset pg) then d else f d

/-- A per-thread counter of R400, source 0x01 + i, advanced. -/
def Thread.count (t : Thread) (i n : Nat) : Thread :=
  { t with counters := t.counters.mapIdx fun j v => if j = i then (v + n) % 2 ^ 64 else v }

/-- The value of a per-command counter source (R400): codes 0x01 to 0x09 of the thread, 0x10 to 0x15 of its cluster, 0
for every other code. -/
def Dev.counterSource (d : Dev) (k code : Nat) : Nat :=
  if 1 ≤ code ∧ code ≤ 9 then (d.thread k).counters.getD (code - 1) 0
  else if 0x10 ≤ code ∧ code ≤ 0x15 then
    d.get ⟨(Cnt.CLU_CNT_CORE_BUSY (k / 256)).addr + 8 * (code - 0x10), 0, 64, 0⟩
  else 0

/-! ### Context memory (R91, R92) -/

/-- The address of a context's byte in the store of all contexts. -/
def ctxAddr (c va : Nat) : Nat := c * 2 ^ 46 + va

/-- The key of a context's managed page. -/
def pageKey (c page : Nat) : Nat := c * 2 ^ 25 + page

/-- The byte at a managed context address; an untouched page reads zeros (R91). -/
def Dev.ctxRead (d : Dev) (c va : Nat) : Nat := (Memory.read (ctxAddr c va) d.ctxMem).toNat

/-- A managed page's entry. -/
def Dev.pageEnt (d : Dev) (k : Nat) : Option PageEnt := Tab.find k d.comp.pages

/-- The page table changed. -/
def Dev.setPages (d : Dev) (t : Tab PageEnt) : Dev := { d with comp := { d.comp with pages := t } }

/-- A page's entry set. -/
def Dev.setPage (d : Dev) (k : Nat) (e : PageEnt) : Dev := d.setPages (Tab.insert k e (Tab.erase k d.comp.pages))

/-- Pages become dirty: a copy in a lower level is no longer valid (R92 step 5). -/
def Dev.soil (d : Dev) (keys : List Nat) : Dev :=
  d.setPages (d.comp.pages.map fun (e : Nat × PageEnt) =>
    if keys.contains e.1 && e.2.at_ == .sram then (e.1, { e.2 with dirty := true, lower := none }) else e)

/-- Bytes written at managed addresses of a context; their pages become dirty (R92 step 5). -/
def Dev.ctxWrites (d : Dev) (c : Nat) (ws : Writes) : Dev :=
  let keys := (ws.map fun w => pageKey c (w.1 / 2 ^ 21)).eraseDups
  ({ d with ctxMem := Memory.writes (ws.map fun (w : Nat × Nat) => (ctxAddr c w.1, w.2)) d.ctxMem }).soil keys

/-- Bytes of a context at an address that may lie in its direct host window: managed bytes are read, bytes of the window, from address
bit 46 on, are what the DMA returned (R91); none when the DMA failed or the window is too small. -/
def Dev.ctxFetch (d : Dev) (c va n : Nat) (dma : Dma) : Option (List Nat) :=
  if 2 ^ 47 < va + n then none
  else if va + n ≤ 2 ^ 46 then some ((List.range n).map fun i => d.ctxRead c (va + i))
  else if (d.ctx c).winPages * 2 ^ 21 < va + n - 2 ^ 46 then none
  else dma.map fun bs => (List.range n).map fun i =>
    if va + i < 2 ^ 46 then d.ctxRead c (va + i) else (bs.getD (i - (2 ^ 46 - va)) 0).toNat

/-- The host bus address of an offset in a context's direct host window (R91, R95). -/
def Dev.hostAddr (d : Dev) (c off : Nat) : Nat := (d.ctx c).hostBase * 2 ^ 21 + off

/-- Bytes stored at a context address, in managed pages or in the direct host window; none when the window is too small or
the address is beyond the space. The controller's own accesses, to rings, records, lists and stage blocks, touch no page entry (log entry
54). -/
def Dev.ctxStore (d : Dev) (c va : Nat) (bs : List Nat) : Option Dev :=
  if 2 ^ 47 < va + bs.length then none
  else if va < 2 ^ 46 then some (d.ctxWrites c (placeBytes va bs))
  else if (d.ctx c).winPages * 2 ^ 21 < va + bs.length - 2 ^ 46 then none
  else some (d.hostWrite (d.hostAddr c (va - 2 ^ 46)) bs)

/-! ### Ends of commands (R100, R101, R401) -/

/-- The words of a completion record (R100, R401). Passes of the ring count from 0, so the first has phase 0 (log entry 47). -/
def Dev.completionWords (d : Dev) (k status index : Nat) : List Nat :=
  let t := d.thread k
  let n := 2 ^ (d.ctx t.ctx).log2n
  [pack [(32, 32, t.cmd.cmdId), (31, 1, t.cmd.slot / n % 2), (16, 8, status), (0, 16, index)],
   t.cmd.start, d.stamp, pack [(56, 8, t.cmd.sel0), (48, 8, t.cmd.sel1)],
   t.cmd.c0, d.counterSource k t.cmd.sel0, t.cmd.c1, d.counterSource k t.cmd.sel1]

/-- A context takes the error of a command (R97, R101): an enabled context enters error; a draining one records the first
error and drains on. -/
def Dev.ctxError (d : Dev) (c code : Nat) : Dev :=
  let x := d.ctx c
  match x.state with
  | .enabled => d.setCtx c { x with state := .error, error := code }
  | .draining =>
    if x.drainErr.isNone then d.setCtx c { x with drainErr := some code, error := code } else d
  | _ => d

/-- The number of entries between head and tail that wait (R99). -/
def Ctx.waiting (x : Ctx) : Nat := (x.tail + 65536 - x.taken % 65536) % 65536

/-- The interrupt of a context: DEV_CTX_CMPL.vector of the function it belongs to (R95, R455). -/
def Dev.ctxIrq (d : Dev) (c : Nat) : Dev := d.msix (d.ctx c).vf (d.ctx c).vector

/-- A record written at a command's index of the completion ring, then the interrupt (R100); a record that cannot be
written puts the context in error without an interrupt (log entry 11). -/
def Dev.writeCompletion (d : Dev) (c slot : Nat) (words : List Nat) (irq : Bool) : Dev :=
  let x := d.ctx c
  match d.ctxStore c (x.cmplBase * 4096 + slot % 2 ^ x.log2n * 64) (wordBytes words) with
  | some d => if irq then d.ctxIrq c else d
  | none => d.ctxError c 0x04

/-- A thread becomes idle: its descriptor list and queue entries are given up, its counters stay (R111, R145, R400). -/
def Dev.freeThread (d : Dev) (k : Nat) : Dev :=
  d.setThread k { Thread.reset with counters := (d.thread k).counters }

/-- A command ends with a status (R100, R101, R111): completion record, interrupt, thread idle, and the context's error
state for every code but 0x00, 0x0B and 0x0C. -/
def Dev.endCommand (d : Dev) (k status index : Nat) : Dev :=
  let t := d.thread k
  let words := d.completionWords k status index
  let d := d.freeThread k
  let d := if t.replay || t.cls == 0 then d else d.writeCompletion t.ctx t.cmd.slot words t.cmd.irq
  if status = 0x00 ∨ status = 0x0B ∨ status = 0x0C ∨ t.replay ∨ t.cls = 0 then d else d.ctxError t.ctx status

/-- Commands of several threads ended with one status, each at its present descriptor. -/
def Dev.endCommands (d : Dev) (status : Nat) (ks : List Nat) : Dev :=
  ks.foldl (fun d k => d.endCommand k status (d.thread k).idx) d

/-- The eight words of a descriptor in a context's managed pages (R103). -/
def Dev.descAt (d : Dev) (c a : Nat) : List Nat :=
  (List.range 8).map fun i => (List.range 8).foldr (fun b acc => d.ctxRead c (a + 8 * i + b) + acc * 256) 0

/-- The descriptor at an index is fetched, with the one after it, which may issue with it, where they lie in managed pages (R109, R111). -/
def Dev.fetchDesc (d : Dev) (t : Thread) (i : Nat) : Thread :=
  match t.addr with
  | none => t
  | some a => { t with list := t.list.mapIdx fun j x =>
      if (j = i ∨ j = i + 1) ∧ a + 64 * j < 2 ^ 46 then d.descAt t.ctx (a + 64 * j) else x }

/-- A descriptor retires (R109, R111, R400): the next one is fetched and waits for its engine, and a draining command ends with 0x0B at
the first descriptor not run (R382). The descriptor after a MAT with ftq_out has issued with it (R109); the MAT counts
as retired when its last tile is finished. -/
def Dev.retire (d : Dev) (k : Nat) (paired : Bool) : Dev :=
  let t := d.thread k
  let t := if paired && t.qLeft != 0 then t else t.count 8 1
  let t := { t with idx := t.idx + 1, why := .none, tile := 0, hold := [], begun := paired, profs := t.profs.drop 1
                    state := if paired then .issuing else .ready, stages := if paired then t.stages else [] }
  let t := if paired then t else d.fetchDesc t t.idx
  let d := d.setThread k t
  if t.draining && decide (t.idx < t.list.length) && !paired then d.endCommand k 0x0B t.idx else d

/-! ### Drains and fencing (R97, R382, R386) -/

/-- A drain reaches a command (R382): a thread between descriptors ends now, another at the end of its descriptor. -/
def Dev.drainThread (d : Dev) (k : Nat) : Dev :=
  let t := d.thread k
  if t.state = .ready ∧ !t.begun ∧ t.idx < t.list.length then d.endCommand k 0x0B t.idx
  else d.setThread k { t with draining := true }

/-- A context's managed pages and their bytes are released (R97). -/
def Dev.releasePages (d : Dev) (c : Nat) : Dev :=
  let d := d.setPages (d.comp.pages.filter fun e => e.1 / 2 ^ 25 != c)
  { d with ctxMem := Memory.clear (ctxAddr c 0) (2 ^ 46) d.ctxMem }

/-- A context is fenced (R386): its threads stop without a record, its pages are released, its outstanding requests stay
until they return or are abandoned. -/
def Dev.fenceCtx (d : Dev) (c : Nat) : Dev :=
  let d := (d.threadsOf c).foldl Dev.freeThread d
  let d := d.releasePages c
  d.setCtx c { d.ctx c with state := .fenced, enable := false }

/-! ### Placement of pages (R92 to R94) -/

/-- The context of a page key. -/
def keyCtx (k : Nat) : Nat := k / 2 ^ 25

/-- Whether a fill of a page is outstanding. -/
def Dev.filling (d : Dev) (k : Nat) : Bool :=
  d.comp.fills.any fun f => pageKey f.ctx f.page == k && f.gen == (d.ctx f.ctx).gen

/-- Pages that occupy SRAM: resident, or about to be. -/
def Dev.sramPages (d : Dev) : List (Nat × PageEnt) :=
  d.comp.pages.filter fun e => e.2.at_ == .sram || d.filling e.1

/-- A context's pages in SRAM. -/
def Dev.ctxSram (d : Dev) (c : Nat) : Nat := (d.sramPages.filter fun e => keyCtx e.1 == c).length

/-- A partition's SRAM pages of class A and G. -/
def Dev.partSram (d : Dev) (p : Nat) : Nat := (d.sramPages.filter fun e => e.2.part == p).length

/-- The SRAM pages of a partition that class A and G may use: 1,024 less the class C reserve (R116). -/
def Dev.sramCap (d : Dev) (p : Nat) : Nat := 1024 - d.get (Reg.SRM_RESERVE_c_sram_mib p) / 2

/-- The LPDDR4X pages of a partition that class A and G may use: 512 to a GiB, less the reserve (R116). -/
def Dev.lpdCap (d : Dev) (p : Nat) : Nat := 30720 - d.get (Reg.SRM_RESERVE_c_lpd_gib p) * 512

/-- Whether a page has a copy in LPDDR4X: it lies there, or a valid copy stayed (R92 step 5). -/
def PageEnt.inLpd (e : PageEnt) : Bool := e.at_ == .lpd || e.lower == some .lpd

/-- Whether a page has a copy in the host spill region. -/
def PageEnt.inHost (e : PageEnt) : Bool := e.at_ == .host || e.lower == some .host

/-- A context's pages in LPDDR4X; a valid copy counts (log entry 12). -/
def Dev.ctxLpd (d : Dev) (c : Nat) : Nat := (d.comp.pages.filter fun e => keyCtx e.1 == c && e.2.inLpd).length

/-- A context's pages in the host spill region. -/
def Dev.ctxHost (d : Dev) (c : Nat) : Nat := (d.comp.pages.filter fun e => keyCtx e.1 == c && e.2.inHost).length

/-- A partition's LPDDR4X pages of class A and G. -/
def Dev.partLpd (d : Dev) (p : Nat) : Nat := (d.comp.pages.filter fun e => e.2.part == p && e.2.inLpd).length

/-- The least recently used of some pages; pages marked by evict go first (R92, R106). -/
def lru (es : List (Nat × PageEnt)) : Option (Nat × PageEnt) :=
  es.foldl (fun best e => match best with
    | none => some e
    | some b =>
      if (e.2.firstOut && !b.2.firstOut) || (e.2.firstOut == b.2.firstOut && decide (e.2.lastUse < b.2.lastUse))
      then some e else some b) none

/-- A page leaves SRAM (R92 steps 4 and 5): a clean page with a valid lower copy is dropped; another goes to LPDDR4X of its
partition. At the quota the context's least recently used LPDDR4X page moves on to the host; so does one of the same partition when its
LPDDR4X is full, or else the page itself (log entry 47). None when no level has room. -/
def Dev.evict (d : Dev) (k : Nat) (e : PageEnt) : Option Dev :=
  let c := keyCtx k
  let x := d.ctx c
  let out (d : Dev) (at_ : PageAt) : Dev :=
    d.setPage k { e with at_ := at_, lower := none, dirty := false, pinned := false, firstOut := false }
  match e.lower, e.dirty with
  | some l, false => some (out d l)
  | _, _ =>
    let d0 := d.setPage k { e with lower := none }
    let toLpd (d : Dev) : Dev := (out d .lpd).incU (Cnt.SRM_CNT_EVICT_LPD e.part)
    let toHost (d : Dev) : Option Dev :=
      if x.hostPages ≤ (d.setPage k { e with lower := none }).ctxHost c ∨ x.cls = 1 then none
      else some ((out d .host).incU (Cnt.SRM_CNT_EVICT_HOST e.part))
    let full := decide (x.lpdPages ≤ d0.ctxLpd c)
    if !full && decide (d0.partLpd e.part < d.lpdCap e.part) then some (toLpd d)
    else if x.hostPages ≤ d0.ctxHost c ∨ x.cls = 1 then none
    else
      match lru (d0.comp.pages.filter fun f => keyCtx f.1 == c && f.2.at_ == .lpd && (full || f.2.part == e.part)) with
      | some (k', e') =>
        let d := (d.setPage k' { e' with at_ := .host, lower := none }).incU (Cnt.SRM_CNT_EVICT_HOST e'.part)
        if (d.setPage k { e with lower := none }).partLpd e.part < d.lpdCap e.part then some (toLpd d) else toHost d
      | none => toHost d

/-- The least recently used page that some level takes is evicted. -/
def Dev.evictOne (d : Dev) (es : List (Nat × PageEnt)) : Nat → Option Dev
  | 0 => none
  | n + 1 => match lru es with
    | none => none
    | some (k, e) => match d.evict k e with
      | some d => some d
      | none => d.evictOne (es.filter fun f => f.1 != k) n

/-- The pages that may be evicted so that a slice or a context has room (R92 steps 2 and 3): in SRAM, not held, not pinned. -/
def Dev.evictable (d : Dev) (held : List Nat) : List (Nat × PageEnt) :=
  d.comp.pages.filter fun e => e.2.at_ == .sram && !held.contains e.1 && !e.2.pinned

/-- A slice gives a page up (R92 step 3): class G pages before class A pages, least recently used first. -/
def Dev.sliceEvict (d : Dev) (p : Nat) (held : List Nat) : Option Dev :=
  let es := (d.evictable held).filter fun e => e.2.part == p
  let n := es.length + 1
  match d.evictOne (es.filter fun e => e.2.cls == 2) n with
  | some d => some d
  | none => d.evictOne (es.filter fun e => e.2.cls == 1) n

/-- Pages are evicted until a context may place one more page in a partition (R92 step 3): its own least recently used ones at its
quota, then pages of the slice; none when that cannot be (R92 step 6). -/
def Dev.makeRoom (d : Dev) (c p : Nat) (held : List Nat) : Nat → Option Dev
  | 0 => none
  | fuel + 1 =>
    let out := if (d.ctx c).sramPages ≤ d.ctxSram c then
        some (d.evictOne ((d.evictable held).filter fun e => keyCtx e.1 == c) (d.comp.pages.length + 1))
      else if d.sramCap p ≤ d.partSram p then some (d.sliceEvict p held)
      else none
    match out with
    | none => some d
    | some none => none
    | some (some d) => d.makeRoom c p held fuel

/-- The partitions a context's pages may lie in: not out of service, and a cluster of it named by the mask (R92 step 7). -/
def Dev.placeable (d : Dev) (c : Nat) : List Nat :=
  (List.range 16).filter fun p =>
    d.partState p != 4 && (bitAt (2 * p) (d.ctx c).mask || bitAt (2 * p + 1) (d.ctx c).mask)

/-- The partition a new page is placed in: round-robin by page number over those in service (R94). -/
def Dev.placeOf (d : Dev) (c page : Nat) : Option Nat :=
  let ps := (d.placeable c).filter fun p => d.partState p == 0
  if ps = [] then none else ps[page % ps.length]?

/-- The outstanding fills of a class from LPDDR4X of a partition, one request slot each (R113; log entry 47). -/
def Dev.lpdUsed (d : Dev) (p cls : Nat) : Nat :=
  (d.comp.fills.filter fun f => match d.pageEnt (pageKey f.ctx f.page) with
    | some e => e.at_ == .lpd && e.part == p && e.cls == cls
    | none => false).length

/-- The LPDDR4X request slots of a class in a partition (R113). -/
def Dev.lpdCredit (d : Dev) (p cls : Nat) : Nat :=
  match cls with
  | 0 => d.get (Reg.CLU_CREDIT_C_lpd_slots (2 * p))
  | 1 => d.get (Reg.CLU_CREDIT_A_lpd_slots (2 * p))
  | _ => d.get (Reg.CLU_CREDIT_G_lpd_slots (2 * p))

/-- A class has an LPDDR4X request slot free in a partition (R113): of its own, and for class A and G together one of the 48 that are not
reserved for class C. -/
def Dev.lpdFree (d : Dev) (p cls : Nat) : Bool :=
  decide (d.lpdUsed p cls < d.lpdCredit p cls) && (cls == 0 || decide (d.lpdUsed p 1 + d.lpdUsed p 2 < 48))

/-- The result of touching pages: there, being filled, a partition that is not in service now, no request slot, or no place. -/
inductive Touch where
  | resident (d : Dev)
  | filling (d : Dev)
  | closed (p : Nat)
  | noSlot (p : Nat)
  | refused
  deriving DecidableEq, Repr

/-- No partition that may hold a page of a context is in service: the touch waits for one, unless all are out of service (R92 step 7). -/
def Dev.noPlace (d : Dev) (c : Nat) : Touch :=
  match d.placeable c with
  | p :: _ => .closed p
  | [] => .refused

/-- A descriptor touches a managed page (R91, R92): a page never touched is created in SRAM filled with zeros; a page
below is requested; a resident page is used. A new place is in a partition in service (R92 step 7). -/
def Dev.touchPage (d : Dev) (c page : Nat) (held : List Nat) : Touch :=
  let k := pageKey c page
  let use := d.comp.uses + 1
  let fuel := d.comp.pages.length + 1
  match d.pageEnt k with
  | some e =>
    if e.at_ = .sram then
      .resident (({ d with comp := { d.comp with uses := use } }).setPage k { e with lastUse := use })
    else if d.filling k then .filling d
    else if e.at_ = .lpd ∧ !d.lpdFree e.part e.cls then .noSlot e.part
    else match (if e.at_ = .host then d.placeOf c page else some e.part) with
      | none => d.noPlace c
      | some p => match d.makeRoom c p held fuel with
        | some d => .filling (({ d with comp := { d.comp with fills := d.comp.fills ++ [FillReq.mk c (d.ctx c).gen page] } }).setPage
            k { e with part := p })
        | none => .refused
  | none =>
    match d.placeOf c page with
    | none => d.noPlace c
    | some p => match d.makeRoom c p held fuel with
      | some d =>
        .resident (({ d with comp := { d.comp with uses := use } }).setPage k
          ⟨.sram, p, true, none, false, false, use, (d.ctx c).cls⟩)
      | none => .refused

/-- Several pages touched in order: the pages that must be filled first, and what stopped the touching. -/
def Dev.touchPages (d : Dev) (c : Nat) (held : List Nat) : List Nat → List Nat → Dev × List Nat × Option Touch
  | wait, [] => (d, wait, none)
  | wait, pg :: pgs =>
    match d.touchPage c pg held with
    | .resident d => d.touchPages c held wait pgs
    | .filling d => d.touchPages c held (wait ++ [pg]) pgs
    | stop => (d, wait, some stop)

/-- The pages that descriptors of other threads hold (R92 step 2). -/
def Dev.heldPages (d : Dev) (k : Nat) : List Nat := (d.comp.threads.filter fun e => e.1 != k).flatMap fun e => e.2.hold

/-! ### Threads by cluster, class and credit (R112, R113) -/

/-- The credit fields of a class in a cluster (R113, R115). -/
def Dev.threadCredit (d : Dev) (cl cls : Nat) : Nat :=
  match cls with
  | 0 => d.get (Reg.CLU_CREDIT_C_threads_max cl)
  | 1 => d.get (Reg.CLU_CREDIT_A_threads_max cl)
  | _ => d.get (Reg.CLU_CREDIT_G_threads_max cl)

/-- The finished-tile queue credit of a class in a cluster (R113). -/
def Dev.ftqCredit (d : Dev) (cl cls : Nat) : Nat :=
  match cls with
  | 0 => d.get (Reg.CLU_CREDIT_C_ftq_max cl)
  | 1 => d.get (Reg.CLU_CREDIT_A_ftq_max cl)
  | _ => d.get (Reg.CLU_CREDIT_G_ftq_max cl)

/-- The finished-tile queue entries a class holds in a cluster (R142, R154). -/
def Dev.ftqUsed (d : Dev) (cl cls : Nat) : Nat :=
  (d.comp.threads.filter fun e => e.1 / 256 == cl && e.2.cls == cls).foldl (fun n e => n + e.2.qEntries) 0

/-- The free finished-tile queue entries that a class may take (R113, R142): its own credit, and for class A and G together all but the
sixteen reserved for class C. -/
def Dev.ftqFree (d : Dev) (cl cls : Nat) : Nat :=
  let own := d.ftqCredit cl cls - d.ftqUsed cl cls
  if cls = 0 then own else Nat.min own (48 - d.ftqUsed cl 1 - d.ftqUsed cl 2)

/-- The active matrix cores of a cluster that hold no finished tile (R86, R144). -/
def Dev.coresFree (d : Dev) (cl : Nat) : Nat :=
  ((List.range 17).filter fun c => bitAt c (d.get (Reg.CLU_CORE_MAP_active cl))).length -
    (d.comp.threads.filter fun e => e.1 / 256 == cl).foldl (fun n e => n + e.2.qHeld) 0

/-- The threads of a class that issue in a cluster. -/
def Dev.issuing (d : Dev) (cl cls : Nat) : Nat :=
  (d.threadsWith fun k t => k / 256 == cl && t.cls == cls && t.state == .issuing).length

/-- Whether class G or A may issue at all: class G is paused in single-feed operation (R56, R57) and
above 100 °C (R452), class A is held when the limiter has taken its whole rate (R57). -/
def Dev.classMayIssue (d : Dev) (cls : Nat) : Bool :=
  match cls with
  | 0 => true
  | 1 => d.pwr.classA != 0
  | _ => !d.flag Reg.PWR_FEED_STATUS_single_feed && !d.pwr.hot

/-- The pages of a cluster's thread control, vector engine and reduction unit (R436). -/
def cluPage (cl : Nat) : Nat := 0x103 + 16 * (cl / 2) + cl % 2
def vecPage (cl : Nat) : Nat := 0x105 + 16 * (cl / 2) + cl % 2
def redPage (cl : Nat) : Nat := 0x107 + 16 * (cl / 2) + cl % 2

/-- A page's block takes new work (R27, R382). -/
def Dev.pageOn (d : Dev) (pg : Nat) : Bool := d.flag (Reg.PAGE_STATUS_enabled pg)

/-! ### Records of the Agreement engine (R207) -/

/-- A record's reference entries are free again (R207). -/
def Dev.freeRefs (d : Dev) (t : TileRec) : Dev :=
  t.refs.foldl (fun (d : Dev) r => d.put (Reg.RED_REF_STATUS_held r.1) (d.get (Reg.RED_REF_STATUS_held r.1) &&& (65535 - r.2))) d

/-- Records dropped: their threads stop, and their reference entries are free (R207). -/
def Dev.dropTiles (d : Dev) (f : TileRec → Bool) : Dev :=
  let d := (d.agr.tiles.filter f).foldl (fun (d : Dev) t =>
    (match t.place with | some k => d.freeThread k | none => d).freeRefs t) d
  { d with agr := { d.agr with tiles := d.agr.tiles.filter fun t => !f t } }

/-- A record whose pair lost its thread waits to be executed again (R207). -/
def TileRec.giveUp (t : TileRec) : TileRec :=
  { t with place := none, phase := match t.phase with
      | .first => .waiting
      | .third | .compare => .waitThird
      | p => p }

/-- The pairs on some clusters lose their threads and reference entries and wait to be executed on a cluster of another partition (R145,
R161, R207). -/
def Dev.loseTiles (d : Dev) (on : Nat → Bool) : Dev :=
  let back (t : TileRec) : TileRec :=
    let t := { t with refs := t.refs.filter fun r => !on r.1 }
    if (t.place.map fun k => on (k / 256)) = some true then { t.giveUp with avoid := t.place.map (· / 512) } else t
  { d with agr := { d.agr with tiles := d.agr.tiles.map back } }

end Sys2Proof.Machine
end

