-- ==== Sys2Proof/Machine/Fault.lean ====
section
/-! DEFINITION. What the reactions contain (R368 to R372), the global stop (R410 to R412), partitions out of service
(R377 to R379) and the points of the health record (R315): raising a fault source as one operation, Dev.raise. -/

namespace Sys2Proof.Machine

/-! ### Membership and safe state as registers show them -/

/-- The controller is a member in the current epoch (R290, R318). -/
def Dev.isMember (d : Dev) : Bool := d.get Reg.MBR_STATUS_state == 2

/-- The present stage (R65). -/
def Dev.stage (d : Dev) : Nat := d.get Reg.BOOT_STATUS_stage

/-! ### Partition safe state (R369) -/

/-- A partition is frozen by the global stop (R411). -/
def Dev.frozen (d : Dev) (p : Nat) : Bool := bitAt p (d.get Reg.DBG_STOP_STATUS_frozen)

/-- The Agreement pairs that run on a partition wait to be issued elsewhere, and its reference buffers empty (R145,
R161, R207). -/
def Dev.reissueTiles (d : Dev) (p : Nat) : Dev :=
  let d := d.loseTiles fun cl => cl / 2 == p
  (d.put (Reg.RED_REF_STATUS_held (2 * p)) 0).put (Reg.RED_REF_STATUS_held (2 * p + 1)) 0

/-- The stand-ins whose step list runs on some threads are to run it again (R369). -/
def Dev.standsRedo (d : Dev) (ks : List Nat) : Dev :=
  let cs := (ks.filter fun k => !(d.thread k).replay).map fun k => (d.thread k).ctx
  { d with stand := d.stand.map fun (e : Nat × StandSt) =>
      if e.2.state = 3 ∧ !e.2.updating ∧ cs.contains e.2.ctx then (e.1, { e.2 with redo := true }) else e }

/-- Everything that runs on a partition's clusters ends with 0x0C; class C work is given back to its owner (R369). -/
def Dev.endPartition (d : Dev) (p : Nat) : Dev :=
  let ks := d.threadsWith fun k t => k / 512 == p && t.cls != 0
  let d := (d.standsRedo ks).endCommands 0x0C ks
  let d := (d.threadsWith fun k t => k / 512 == p && t.cls == 0).foldl Dev.freeThread d
  d.reissueTiles p

/-- A drain on a page is abandoned: it is over, without forced (R28, R372). -/
def Dev.abandonDrain (d : Dev) (pg : Nat) : Dev :=
  if d.flag (Reg.PAGE_STATUS_draining pg) then
    let d := { d with drains := Tab.erase pg d.drains }
    (d.put (Reg.PAGE_STATUS_draining pg) 0).put (Reg.PAGE_STATUS_idle pg) 1
  else d

/-- FLT_DEV_STATUS.state below device safe state: 1 while a partition is in safe state (R373). -/
def Dev.settleDev (d : Dev) : Dev :=
  if d.silent then d
  else d.put Reg.FLT_DEV_STATUS_state (b2n (d.get Reg.FLT_DEV_STATUS_part_safe != 0))

/-- A partition enters safe state (R369, R372). -/
def Dev.enterSafe (d : Dev) (p : Nat) : Dev :=
  let d := ((d.put (Reg.PRT_STATUS_state p) 1).setBitOf Reg.FLT_DEV_STATUS_part_safe p).incE Cnt.FLT_CNT_PART_SAFE
  let d := if d.get (Reg.PRT_REPLAY_result p) = 0x01 then d.put (Reg.PRT_REPLAY_result p) 0x04 else d
  let d := (partPages p).foldl Dev.abandonDrain d
  (d.endPartition p).settleDev

/-- Partition safe state as a reaction: nothing further when the partition is in reset, in safe state or out of service
(R372); a frozen partition reacts on resume (R414). A search in progress is abandoned (R381). -/
def Dev.partSafe (d : Dev) (p : Nat) : Dev :=
  let st := d.partState p
  if st = 0 ∨ st = 3 then
    if d.frozen p then { d with stop := { d.stop with deferred := d.stop.deferred ++ [p] } } else d.enterSafe p
  else d

/-! ### Device safe state (R370, R379) -/

/-- The sources that put the device out of service (R379). -/
def outOfService (s : FltSrc) : Bool :=
  [Src.FLT_hub_ecc, Src.FLT_hub_watchdog, Src.FLT_bridge_fail, Src.FLT_two_out, Src.FLT_mgmt_none, Src.CMP_cmp_self].contains s

/-- Device safe state as a reaction (R370, R372, R373, R379): every partition enters safe state, the lanes send the idle
pattern, and what needs membership stops. -/
def Dev.devSafe (d : Dev) (s : FltSrc) : Dev :=
  let st := if outOfService s then 3 else 2
  if d.silent then d.put Reg.FLT_DEV_STATUS_state (max st (d.get Reg.FLT_DEV_STATUS_state))
  else
    let d := (d.put Reg.FLT_DEV_STATUS_state st).put Reg.FLT_DEV_STATUS_cause (if s.page = 0x040 then s.idx else 0xFF)
    let d := ((d.put Reg.FLT_DEV_CAUSE_valid 1).put Reg.FLT_DEV_CAUSE_code s.code).incE Cnt.FLT_CNT_DEV_SAFE
    let d := (List.range 16).foldl Dev.partSafe d
    d.emit (.idle 64)

/-- What a raised source's reaction contains (R368). -/
def Dev.contain (d : Dev) (s : FltSrc) : Dev :=
  match d.reactOf s with
  | 2 => match pagePart s.page with
    | some p => d.partSafe p
    | none => d
  | 3 => d.devSafe s
  | _ => d

/-- A raise without a stop trigger: latch and containment (R366, R368). -/
def Dev.raiseBase (d : Dev) (s : FltSrc) (forced : Bool) : Dev :=
  if d.srcEnabled s then (d.latchSrc s forced).contain s else d

/-! ### The global stop (R410 to R412) -/

/-- A partition takes its stop record (R412): lag of 1 to 24 core cycles, its cycle counter, and a stamp that follows the
trigger by at most the smear. The three values are free (log entry 1). -/
def Dev.stopRecord (d : Dev) (p : Nat) : Dev :=
  let lag := 1 + d.free % 24
  let d := d.tick
  let cycle := d.free % 2 ^ 48
  let d := d.tick
  let stamp := stampOf (d.time + d.free % (22 * 2 ^ 40))
  let d := d.tick
  { d with stop := { d.stop with recs := Tab.insert p (lag, cycle, stamp) (Tab.erase p d.stop.recs) } }

/-- A trigger of the global stop (R410, R411, R414): refused for a member without member_ok; ignored when not armed or
while a stop stands; else every partition in service freezes. -/
def Dev.stopTrigger (d : Dev) (cause : Nat) : Dev :=
  if !d.flag Reg.DBG_STOP_CTRL_arm || decide (2 ≤ d.get Reg.DBG_STOP_STATUS_state) then d
  else if d.isMember && !d.flag Reg.DBG_CTRL_member_ok then
    (d.put Reg.DBG_STOP_STATUS_refused 1).raiseBase Src.DBG_stop_refused false
  else
    let ps := (List.range 16).filter fun p => d.partState p != 2 && d.partState p != 4
    let d := (d.put Reg.DBG_STOP_STATUS_refused 0).put Reg.DBG_STOP_STATUS_cause cause
    let d := (d.put Reg.DBG_STOP_TIME_time d.stamp).put Reg.DBG_STOP_STATUS_state 3
    let d := d.put Reg.DBG_STOP_STATUS_frozen (ps.foldl setBit 0)
    let d := ps.foldl Dev.stopRecord { d with stop := { d.stop with recs := [] } }
    (d.incU Cnt.DBG_CNT_STOPS).raiseBase Src.DBG_stop_taken false

/-- A raise with the fault trigger of the global stop (R366, R368, R410 cause 3). -/
def Dev.raise0 (d : Dev) (s : FltSrc) (forced : Bool) : Dev :=
  if d.srcEnabled s then
    let rising := !d.flag Reg.FLT_DEV_FIRST_valid
    let d := d.latchSrc s forced
    let d := if rising && d.flag Reg.DBG_STOP_CTRL_trig_fault then d.stopTrigger 3 else d
    d.contain s
  else d

/-! ### Points of the health record (R315, R316) -/

/-- The health record of a device: 0 to 7 an accelerator, 8 the controller. -/
def Dev.healthOf (d : Dev) (v : Nat) : Health := Tab.getD d.health v Health.reset

/-- A device's standing from its points (R316): watch begins at watch_pts and ends below half of it. -/
def Dev.standing (d : Dev) (h : Health) : Health :=
  let pts := h.points / 65536
  { h with
    watch := if d.get (acts Reg.MBR_HR_CTRL_watch_pts) ≤ pts then true
      else if pts < d.get (acts Reg.MBR_HR_CTRL_watch_pts) / 2 then false else h.watch
    candidate := decide (d.get (acts Reg.MBR_HR_CTRL_expel_pts) ≤ pts) }

/-- A device's standing follows from its points as the settings now are (R316); one that comes under watch raises watch_entered. -/
def Dev.restand (d : Dev) (v : Nat) : Dev :=
  let h := d.healthOf v
  let h' := d.standing h
  let d := { d with health := Tab.set d.health v Health.reset h' }
  if h'.watch && !h.watch then d.raise0 Src.MBR_watch_entered false else d

/-- An event of the health record (R315, R402): its time is kept, its points are added, the recorder gets it under index
32 + row, and a device that comes under watch raises watch_entered (R316). -/
def Dev.points (d : Dev) (v row pts : Nat) : Dev :=
  let h := d.healthOf v
  let h' := d.standing { h with points := h.points + pts * 65536, events := h.events ++ [secOf d.time] }
  let d := { d with health := Tab.set d.health v Health.reset h' }
  let d := d.event (0x050 * 64 + 32 + row) pts
  if h'.watch && !h.watch then d.raise0 Src.MBR_watch_entered false else d

/-! ### Partitions out of service (R377 to R379) -/

/-- The contexts with a page in SRAM or LPDDR4X of a partition (R378). -/
def Dev.ctxsIn (d : Dev) (p : Nat) : List Nat :=
  ((d.comp.pages.filter fun e => e.2.part == p && (e.2.at_ != .host || e.2.lower == some .lpd)).map
    fun e => keyCtx e.1).eraseDups

/-- The operand blocks in a partition's slice are lost (R376, log entry 53): one that agents were told of stays without its bytes until
they know, and its removal waits to be announced. -/
def Dev.loseBlocks (d : Dev) (p : Nat) : Dev :=
  let lost (b : OpndBlock) : Bool := Config.heldIn b.id % 16 == p
  let tell := d.cache.filter fun b =>
    lost b && b.told != [] && b.removed.isNone && !(d.agr.delayed.any fun r => r.2.2.contains b.id)
  let kept := d.cache.filter fun b => !(lost b && b.told == [])
  { d with cache := kept.map fun b => if lost b then { b with bytes := [] } else b
           agr := { d.agr with delayed := d.agr.delayed ++ tell.map fun b => (b.told, [], [b.id]) } }

/-- A version that a partition held is lost (R376, R378): copy tells the ring's, a pin's and the own copies apart. -/
def Version.lostWith (v : Version) (p copy : Nat) : Bool :=
  Config.heldIn (((copy * 2 ^ 32 + v.job) * 2 ^ 40 + v.step) * 2 ^ 19 + v.src * 8 + v.acc) % 16 == p

/-- The mirror versions and pins in a partition are lost (R376, R378). -/
def Dev.loseMirrors (d : Dev) (p : Nat) : Dev :=
  let m := d.mir
  let own := m.ownPins.filter fun e => !e.2.lostWith p (4 + e.1)
  let d := { d with mir := { m with ring := m.ring.filter fun v => !v.lostWith p 0
                                    pins := m.pins.filter fun e => !e.2.lostWith p (2 + e.1)
                                    own := m.own.filter fun v => !v.lostWith p 1, ownPins := own } }
  [0, 1].foldl (fun (d : Dev) s =>
    if m.ownPins.any (fun e => e.1 == s) && !own.any fun e => e.1 == s then d.put (Reg.MIR_PIN_valid s) 0 else d) d

/-- The class C stores of a partition are lost (R376, R378). -/
def Dev.loseSram (d : Dev) (p : Nat) : Dev := { d with sram := Memory.clear (p * 2 ^ 31) (2 ^ 31) d.sram }.loseBlocks p

/-- A partition's LPDDR4X contents are lost or discarded (R376, R378). -/
def Dev.loseLpd (d : Dev) (p : Nat) : Dev := { d with lpd := Memory.clear (p * 2 ^ 36) (2 ^ 36) d.lpd }.loseMirrors p

/-- The threads that waited for a partition become ready again (R369, R111). -/
def Dev.wakePart (d : Dev) (p : Nat) : Dev :=
  { d with comp := { d.comp with threads := d.comp.threads.map fun (e : Nat × Thread) =>
      if e.2.state = .blocked ∧ e.2.why = .part p then (e.1, { e.2 with state := .ready, why := .none }) else e } }

/-- The coordinator for a change that names this controller (R296, R307): the lowest other member of its rack. -/
def Dev.peer (d : Dev) : Option Nat :=
  ((List.range 18).map (d.chip / 32 * 32 + ·)).find? fun c => c != d.chip && (Tab.getD d.mbr.view c ViewEnt.absent).state == 1

/-- How many partitions are out of service. -/
def Dev.outCount (d : Dev) : Nat := ((List.range 16).filter fun p => d.partState p == 4).length

/-- A change of a Clause as a word (R297). -/
def changeWord (chip action acc reason : Nat) : Nat := pack [(48, 16, chip), (44, 4, action), (40, 4, acc), (32, 8, reason)]

/-- A pack staged in a partition is lost with it, one on its way there as soon as it is staged (R69). -/
def Dev.losePack (d : Dev) (p : Nat) : Dev :=
  let d := { d with boot := { d.boot with fetch := d.boot.fetch.map fun f => if f.obj = 2 ∧ f.part = p ∧ d.stage = 0xA then { f with part := 16 } else f } }
  if d.boot.packA.isSome ∧ d.boot.packPart = p then
    let d := { d with boot := { d.boot with packA := none }, packs := PackSt.reset }
    (d.put Reg.DBG_PACK_STATUS_state 0).put Reg.DBG_PACK_STATUS_last 0x12
  else d

/-- A partition is taken out of service with a cause of PRT_STATUS.out_cause (R377, R378): its contexts are fenced, its
stores lost, its domains powered off. A second one makes the controller name itself (R379);
in stages 0x4 and 0x5 it halts the sequence instead (R79). -/
def Dev.partOut (d : Dev) (p cause : Nat) : Dev :=
  if d.partState p = 4 then d
  else
    let lost := d.ctxsIn p
    let d := (d.endPartition p).put (Reg.PRT_STATUS_state p) 4
    let d := ((d.put (Reg.PRT_STATUS_out_cause p) cause).setBitOf Reg.FLT_DEV_STATUS_part_out p).clrBitOf
      Reg.FLT_DEV_STATUS_part_safe p
    let d := lost.foldl Dev.fenceCtx d
    let d := ((((d.loseSram p).loseLpd p).losePack p).settleDev).wakePart p
    let d := if d.get (Reg.PRT_REPLAY_result p) = 0x01 then d.put (Reg.PRT_REPLAY_result p) 0x04 else d
    let d := { d with pwr := { d.pwr with powered := d.pwr.powered.filter fun x => x != Domain.part p && x != Domain.phyD p } }
    let d := d.raise0 (Src.PRT_part_out p) false
    let d := if lost = [] then d else d.raise0 (Src.PRT_ctx_lost p) false
    let d := d.points 8 7 3000
    if d.outCount = 2 ∧ 6 ≤ d.get Reg.BOOT_STATUS_stage then
      let d := match d.peer with | some c => d.send c 0x18 [changeWord d.chip 0 0xF 0x02] | none => d
      { d with twoOut := true }
    else d

/-- A fault source is raised (R366): latch, reaction, and the sources that take a partition out of service (R87, R377). -/
def Dev.raiseSrc (d : Dev) (s : FltSrc) (forced : Bool) : Dev :=
  if d.srcEnabled s then
    let d := d.raise0 s forced
    match pagePart s.page with
    | some p =>
      if s = Src.SRM_sram_spare_out p then d.partOut p 3
      else if s = Src.LPD_lpd_retrain_fail p then d.partOut p 4
      else if s = Src.CLU_spare_exhausted (2 * p) ∨ s = Src.CLU_spare_exhausted (2 * p + 1) then d.partOut p 2
      else d
    | none => d
  else d

/-- A fault source is raised by its cause. -/
def Dev.raise (d : Dev) (s : FltSrc) : Dev := d.raiseSrc s false

/-! ### The end of safe state (R367, R371) -/

/-- A level source whose level still holds (R367, log entry 13). -/
def Dev.levelHolds (d : Dev) (s : FltSrc) : Bool :=
  (s == Src.PWR_feed_a_lost && d.get Reg.PWR_FEED_STATUS_feed_a_state == 0)
    || (s == Src.PWR_feed_b_lost && d.get Reg.PWR_FEED_STATUS_feed_b_state == 0)
    || (s == Src.TIME_ref_missing && d.flag Reg.TIME_STATUS_ref_missing)

/-- The condition of a source has ended (R367). -/
def Dev.conditionEnded (d : Dev) (s : FltSrc) : Bool :=
  if d.levelHolds s then false
  else if d.reactOf s = 2 then
    !bitAt s.idx (Tab.getD d.unreset s.page 0) && !bitAt s.idx (Tab.getD d.clearing s.page 0)
  else true

/-! ### Voltage-frequency tables (R421, R424) -/

/-- A partition's monitors and plans. -/
def Dev.mon (d : Dev) (p : Nat) : MonSt := Tab.getD d.mons p MonSt.reset

/-- A partition's monitors and plans set. -/
def Dev.setMon (d : Dev) (p : Nat) (m : MonSt) : Dev := { d with mons := Tab.set d.mons p MonSt.reset m }

/-- The usable points of a partition, rising. -/
def Dev.usable (d : Dev) (p : Nat) : List Nat :=
  (List.range 11).filter fun i => ((d.mon p).table[i]?.map VfPoint.usable).getD false

/-- The run point of a partition's table: the highest usable one within target_mhz (R421). -/
def Dev.planPoint (d : Dev) (p : Nat) : Nat :=
  ((d.usable p).filter fun i => decide (1200 + 100 * i ≤ d.get (Reg.MON_CTRL_target_mhz p))).getLast?.getD 0

/-- A waiting table takes effect on a partition (R424): under a limit the clock does not rise; the measurements of a running plan restart. -/
def Dev.tableTake (d : Dev) (p : Nat) : Dev :=
  match (d.mon p).next with
  | none => d
  | some t =>
    let old := d.get (Reg.MON_STATUS_run_pt p)
    let d := d.setMon p { d.mon p with table := t, next := none, due := false }
    let d := if (d.mon p).started.isSome then d.setMon p { d.mon p with oddNow := [], cap := 10 } else d
    let d := if d.get (Reg.MON_STATUS_state p) = 2 then d.put (Reg.MON_STATUS_state p) 0 else d
    let d := d.put (Reg.MON_STATUS_result p) 0x01
    let new := d.planPoint p
    if d.pwr.limited ∨ d.flag Reg.PWR_FEED_STATUS_single_feed then
      d.put (Reg.MON_STATUS_run_pt p) (((d.usable p).filter fun i => decide (i ≤ Nat.min old new)).getLast?.getD new)
    else d.put (Reg.MON_STATUS_run_pt p) new

/-- The clock point that a partition runs at, or takes when it returns to service (R57, R424). -/
def Dev.pointOf (d : Dev) (p : Nat) : Nat := (d.mon p).want.getD (d.get (Reg.MON_STATUS_run_pt p))

/-- A partition's clock takes a point (R57, R58, R424): at once in service, and at once downwards unless it is frozen (R372); else when it
returns to service or resumes. -/
def Dev.aimPoint (d : Dev) (p i : Nat) : Dev :=
  if !d.frozen p && (d.partState p == 0 || decide (i ≤ d.get (Reg.MON_STATUS_run_pt p))) then
    (d.setMon p { d.mon p with want := none }).put (Reg.MON_STATUS_run_pt p) i
  else d.setMon p { d.mon p with want := some i }

/-- The run point follows a new target_mhz (R421; log entry 53): under a limit the clock does not rise. -/
def Dev.retarget (d : Dev) (p : Nat) : Dev :=
  if d.partState p = 4 ∨ d.usable p = [] then d
  else if d.pwr.limited ∨ d.flag Reg.PWR_FEED_STATUS_single_feed then
    d.aimPoint p (((d.usable p).filter fun i => decide (i ≤ Nat.min (d.pointOf p) (d.planPoint p))).getLast?.getD (d.planPoint p))
  else d.aimPoint p (d.planPoint p)

/-- What waited for a partition's return to service or its resume takes effect (R424): a clock point, then a table that missed its pulse. -/
def Dev.tableDue (d : Dev) (p : Nat) : Dev :=
  let d := match (d.mon p).want with
    | some i => d.aimPoint p i
    | none => d
  if (d.mon p).due then d.tableTake p else d

/-- A partition leaves safe state when every status bit with reaction 2 on its pages is clear, and not before the device
does (R371, R372). -/
def Dev.leaveSafe (d : Dev) (p : Nat) : Dev :=
  if d.partState p = 1 ∧ !d.silent ∧ (partPages p).all (fun pg => !d.statusWith pg 2) then
    ((((d.put (Reg.PRT_STATUS_state p) 0).clrBitOf Reg.FLT_DEV_STATUS_part_safe p).settleDev).wakePart p).tableDue p
  else d

/-- One status bit is cleared if its condition has ended (R367). -/
def Dev.clearBit (d : Dev) (pg i : Nat) : Dev :=
  if bitAt i (d.get (Reg.FLT_STATUS_status pg)) && d.conditionEnded ⟨pg, i⟩ then d.clrBitOf (Reg.FLT_STATUS_status pg) i else d

/-- A write of 1 to FLT_STATUS bits of a controller page (R367, R371). -/
def Dev.clearFaults (d : Dev) (pg mask : Nat) : Dev :=
  let d := (List.range 32).foldl (fun d i => if bitAt i mask then d.clearBit pg i else d) d
  let d := if d.get (Reg.FLT_STATUS_status pg) = 0 ∧ d.flag (Reg.FLT_FIRST_valid pg) then d.settleBlock pg else d
  match pagePart pg with
  | some p => d.leaveSafe p
  | none => d

end Sys2Proof.Machine
end

