-- ==== Sys2Proof/Machine/Fence.lean ====
section
/-! DEFINITION. View entries, epochs (R290, R291) and fencing at ingress (R302): which fabric messages are taken. -/

namespace Sys2Proof.Machine

/-- A view entry. -/
def Dev.viewEnt (d : Dev) (chip : Nat) : ViewEnt := Tab.getD d.mbr.view chip ViewEnt.absent

/-- A view entry set. -/
def Dev.setView (d : Dev) (chip : Nat) (e : ViewEnt) : Dev :=
  { d with mbr := { d.mbr with view := Tab.set d.mbr.view chip ViewEnt.absent e } }

/-- A chip is a member in the view. -/
def Dev.isIn (d : Dev) (chip : Nat) : Bool := (d.viewEnt chip).state == 1

/-- The controller's epoch (R291). -/
def Dev.epoch (d : Dev) : Nat := d.get Reg.MBR_STATUS_epoch

/-- Epoch a is newer than b (R291). -/
def newer (a b : Nat) : Bool := let x := (a + 2 ^ 32 - b % 2 ^ 32) % 2 ^ 32; decide (1 ≤ x) && decide (x < 2 ^ 31)

/-- A message of a source is taken under both checks of R302: a member, whose epoch is not older than its last admission; the own
messages pass. -/
def Dev.passes (d : Dev) (h : FabHdr) : Bool :=
  let c := h.src.toNat
  c == d.chip || (d.isIn c && !newer (d.viewEnt c).admitted h.epoch.toNat)

/-- A message dropped at ingress (R302): it counts, and its source is told, at most once a millisecond. -/
def Dev.fenceDrop (d : Dev) (c : Nat) : Dev :=
  let d := d.incE Cnt.MBR_CNT_FENCE_DROP
  let due := match Tab.find c d.mbr.fencedAt with | some t => decide (t + 1000 ≤ d.nowUs) | none => true
  if due then
    { (d.send c 0x17 []) with mbr := { d.mbr with fencedAt := Tab.insert c d.nowUs (Tab.erase c d.mbr.fencedAt) } }
  else d

/-- A fabric message acts when it passes (R302). -/
def Dev.ingress (d : Dev) (h : FabHdr) (f : Dev → Dev) : Dev := if d.passes h then f d else d.fenceDrop h.src.toNat

end Sys2Proof.Machine
end

