-- ==== Sys2Proof/Machine/AgentPort.lean ====
section
/-! DEFINITION. The agents as their ports see them (R163 to R171, R180, R193): an agent's state, its up messages, and what its port
coming up or going down does. -/

namespace Sys2Proof.Machine

/-- An agent. -/
def Dev.agent (d : Dev) (a : Nat) : AgentSt := Tab.getD d.agents a AgentSt.reset

/-- An agent set. -/
def Dev.setAgent (d : Dev) (a : Nat) (x : AgentSt) : Dev := { d with agents := Tab.set d.agents a AgentSt.reset x }

/-- An agent changed by a function. -/
def Dev.onAgent (d : Dev) (a : Nat) (f : AgentSt → AgentSt) : Dev := d.setAgent a (f (d.agent a))

/-- An agent's step state (R178). -/
def Dev.stepState (d : Dev) (a : Nat) : Nat := d.get (Reg.ASTEP_STATE_state a)

/-- The words of a state record (R180), in the model's own layout (log entry 50): state, step and execution with the state before
state 6, stop and update_done; the job; one more than the last committed step; the cut; the key in force, its step and threshold. -/
def StepRec.words (r : StepRec) : List Nat :=
  let c := r.cut.getD (0, 0, 0)
  [pack [(24, 40, r.step), (16, 8, r.exec_), (8, 3, r.before), (7, 1, b2n r.stopped), (6, 1, b2n r.waitDone), (5, 1, b2n r.cut.isSome),
     (0, 3, r.state)], r.job, (match r.committed with | some n => n + 1 | none => 0),
   pack [(32, 32, c.1), (8, 8, r.cutPhase), (0, 1, c.2.2)], c.2.1, r.key.getD 0 % 2 ^ 64, r.key.getD 0 / 2 ^ 64 % 2 ^ 64,
   pack [(48, 13, r.threshold), (40, 1, b2n r.key.isSome), (0, 40, r.keyStep)]]

/-- What an agent's state record says of its state now (R180). -/
def Dev.stateRecord (d : Dev) (a : Nat) : StepRec :=
  let x := d.agent a
  { state := d.stepState a, step := d.get (Reg.ASTEP_STATE_step a), exec_ := d.get (Reg.ASTEP_STATE_exec a), before := x.before, stopped := x.stopped
    waitDone := x.waitDone, job := x.job, committed := x.committed, cut := x.cut, cutPhase := x.cutPhase, key := x.key
    keyStep := d.get (Reg.ASMP_STATE_step a), threshold := d.get (Reg.ASMP_STATE_threshold a) }

/-- The state record is written through at the start of the journal area (R180); the agent's memory holds it from then on. -/
def Dev.writeRecord (d : Dev) (a : Nat) : Dev :=
  let r := d.stateRecord a
  (d.onAgent a fun x => { x with kept := r }).emit (.accWrite a (d.get (Reg.ASTEP_JNL_base a) * 2 ^ 21) (wordBytes r.words))

/-- An agent's step state set (R178): the state record is written through before the agent acts on the new state (R180); its controller
sees the state in AGP_STATUS (R193). -/
def Dev.setStepState (d : Dev) (a st : Nat) : Dev :=
  ((d.put (Reg.ASTEP_STATE_state a) st).put (Reg.AGP_STATUS_state a) st).writeRecord a

/-- The state record is read back after an agent reset (R180): the recorded state is resumed. -/
def Dev.resumeRecord (d : Dev) (a : Nat) : Dev :=
  let r := (d.agent a).kept
  let d := d.onAgent a fun x =>
    { x with before := r.before, stopped := r.stopped, waitDone := r.waitDone, job := r.job, committed := r.committed, cut := r.cut
             cutPhase := r.cutPhase, key := r.key }
  let d := ((d.put (Reg.ASTEP_STATE_state a) r.state).put (Reg.ASTEP_STATE_step a) r.step).put (Reg.ASTEP_STATE_exec a) r.exec_
  let d := (d.put (Reg.AGP_STATUS_state a) r.state).putB (Reg.ASMP_STATE_key_valid a) r.key.isSome
  (d.put (Reg.ASMP_STATE_step a) r.keyStep).put (Reg.ASMP_STATE_threshold a) r.threshold

/-- Admission of an agent (R193): written by the management core pair, shown in AGP_STATUS. -/
def Dev.putAdmitted (d : Dev) (a : Nat) (b : Bool) : Dev := (d.putB (Reg.AGP_CTRL_admit a) b).putB (Reg.AGP_STATUS_admitted a) b

/-- The port states of AGT_STATUS. -/
def Dev.agentUp (d : Dev) (a : Nat) : Bool := d.get (Reg.AGT_STATUS_port a) == 3

/-- A reference cycle of an agent's time copy in 2^-40 ns (R189, R342): 6.4 ns. -/
def refUnits : Nat := 0x066666666666

/-- An agent's time copy (R189): advanced by the reference clock from where the last TIME message left it, at the rate it found. -/
def Dev.agentTime (d : Dev) (a : Nat) : Nat :=
  let x := d.agent a
  (x.copy + (refUnits + x.rate) * (d.aon - x.copyAt : Nat)).toNat

/-- The acknowledgement of a message that an agent has taken (R168); it has no number of its own. -/
def Dev.ackFromAgent (d : Dev) (a seq : Nat) : Dev := d.emit (.up a 0x1F 0 (d.agent a).job (d.get (Reg.AGT_STATUS_epoch a)) [seq])

/-- A message of an agent as its port sends it, with the header it first had (R168). -/
def PortMsg.up (m : PortMsg) (a : Nat) : Out := .up a m.kind m.seq m.job m.epoch m.body

/-- An up message takes the next number and leaves; it is kept until acknowledged (R168). -/
def Dev.leaveUp (d : Dev) (a : Nat) (m : PortMsg) : Dev :=
  let x := d.agent a
  let m := { m with seq := x.upSeq }
  (d.setAgent a { x with up := x.up ++ [m], upSeq := (x.upSeq + 1) % 2 ^ 24 }).emit (m.up a)

/-- An up message (R168, R171): it leaves while the port is up and waits otherwise. last: it ends the answer to a PULL. -/
def Dev.sendUpAs (d : Dev) (a kind : Nat) (body : List Nat) (last : Bool) : Dev :=
  let x := d.agent a
  let m : PortMsg := ⟨0, kind, body, 0, x.job, d.get (Reg.AGT_STATUS_epoch a), last⟩
  if d.agentUp a then d.leaveUp a m else d.setAgent a { x with wait := x.wait ++ [m] }

/-- An up message that does not end the answer to a PULL. -/
def Dev.sendUp (d : Dev) (a kind : Nat) (body : List Nat) : Dev := d.sendUpAs a kind body false

/-- The precedence of an up message (R171), the first rank first. REG and DECL, which R171 does not name, stand between DIGEST and the tiles
(log entry 50). -/
def upRank (kind : Nat) : Nat :=
  match kind with
  | 0x15 => 1
  | 0x10 => 2
  | 0x17 => 3
  | 0x13 => 4
  | 0x14 => 5
  | 0x11 | 0x12 => 7
  | 0x08 => 8
  | _ => 6

/-- The message that leaves next of those that wait (R171): the oldest of the first rank; but while tiles and shards both wait, a shard
while the shards have had less than their share, in percent, of the bytes that left since. -/
def nextUp (share tiles shards : Nat) (l : List PortMsg) : Option PortMsg :=
  let first := l.foldl (fun r m => Nat.min r (upRank m.kind)) 8
  let shard := l.find? fun m => upRank m.kind == 8
  if first = 7 ∧ shard.isSome ∧ 100 * shards < share * (tiles + shards) then shard else l.find? fun m => upRank m.kind == first

/-- The messages that wait leave in their order of precedence (R171); at most so many. -/
def Dev.flushUp (d : Dev) (a : Nat) : Nat → Nat → Nat → Dev
  | 0, _, _ => d
  | n + 1, tiles, shards =>
    match nextUp (d.get (Reg.ASTEP_LIMITS_stream_share a)) tiles shards (d.agent a).wait with
    | none => d
    | some m =>
      let bytes := 16 + 8 * m.body.length
      let d := (d.setAgent a { d.agent a with wait := (d.agent a).wait.erase m }).leaveUp a m
      d.flushUp a n (if upRank m.kind = 7 then tiles + bytes else tiles) (if upRank m.kind = 8 then shards + bytes else shards)

/-- DECL with the declarations and their coefficient tables (R192). -/
def Dev.sendDecl (d : Dev) (a : Nat) : Dev :=
  if d.flag (Reg.APROF_LOCK_lock a) then d.sendUp a 0x16 (d.agent a).decl else d

/-- An agent port's state at both ends (R167, R193): down while port_en is 0; present while it is trained and no required interface is
missing (R164). -/
def Dev.setAgentPort (d : Dev) (a st : Nat) : Dev :=
  let st := if d.flag (Reg.AGT_CTRL_port_en a) then st else 0
  ((d.put (Reg.AGT_STATUS_port a) st).put (Reg.AGP_STATUS_port a) st).putB (Reg.AGP_STATUS_present a)
    ((st == 3 || st == 4) && !(d.agent a).lacks)

/-- An agent port has come up (R167, R171, R180, R192), unless port_en holds it down: the agent knows its controller, sends again what was
not acknowledged, then what waited, and DECL while locked. -/
def Dev.agentPortUp (d : Dev) (a : Nat) : Dev :=
  if d.agentUp a ∨ !d.flag (Reg.AGT_CTRL_port_en a) then d
  else
    let d := ((d.setAgentPort a 3).put (Reg.AGT_STATUS_acc a) a).put (Reg.AGT_STATUS_chip_valid a) 1
    let d := d.put (Reg.AGT_STATUS_chip a) d.chip
    let d := d.emits ((d.agent a).up.map fun m => m.up a)
    (d.flushUp a (d.agent a).wait.length 0 0).sendDecl a

end Sys2Proof.Machine
end

