-- ==== Sys2Proof/Machine/Operands.lean ====
section
/-! DEFINITION. Operands of descriptors: the byte ranges each tile or segment touches (R93, R104, R106, R146, R157), the
access to their pages (R91, R92), profiles and coefficient sets (R129, R153), and pod addresses (R41, R42). -/

namespace Sys2Proof.Machine

/-! ### Byte ranges and pages -/

/-- A byte range: address and length. -/
abbrev Range := Nat × Nat

/-- The managed pages of some ranges. -/
def pagesOf (rs : List Range) : List Nat :=
  (rs.flatMap fun r =>
    if r.2 = 0 then [] else (List.range ((r.1 + r.2 - 1) / 2 ^ 21 + 1 - r.1 / 2 ^ 21)).map fun i => r.1 / 2 ^ 21 + i).eraseDups

/-- The starts and ends of pieces of at most s covering n. -/
def pieces (s n : Nat) : List (Nat × Nat) :=
  (List.range (ceilDiv n s)).map fun i => (i * s, Nat.min n ((i + 1) * s))

/-- The bytes of columns j0 to j1 in rows i0 to i1 of a tensor of rows of n elements of w bits. -/
def blockRanges (base rowBytes w i0 i1 j0 j1 : Nat) : List Range :=
  (List.range (i1 - i0)).map fun i => (base + (i0 + i) * rowBytes + j0 * w / 8, ((j1 - j0) * w + 7) / 8)

/-- The ranges of an operand of a MAT for rows i0 to i1 of the output side: K-contiguous rows, or K rows of a stored
transpose; and its block scales (R104, R121). -/
def matOperandRanges (f : Fmt) (base scale : Nat) (alongK : Bool) (len k i0 i1 : Nat) : List Range :=
  (if alongK then [(base + i0 * f.rowBytes k, (i1 - i0) * f.rowBytes k)]
   else blockRanges base (f.rowBytes len) f.bits 0 k i0 i1) ++
  (if f.isMx then [(scale + i0 * (k / 32), (i1 - i0) * (k / 32))] else [])

/-- What a tile of a descriptor touches, and what of it the tile writes. -/
abbrev TileRanges := List Range × List Range

/-- The regions of the output tiles of a MAT, in the order in which the model takes them (log entry 10). -/
def matTiles (b : MatBody) : List ((Nat × Nat) × (Nat × Nat)) :=
  let td := tileDims b.tile
  (pieces td.1 b.m).flatMap fun i => (pieces td.2 b.n).map fun j => (i, j)

/-- The ranges of the output tiles of a MAT, tile by tile (R93, R104); with ftq_out C is read, never written (R143). -/
def matTileRanges (p : Profile) (b : MatBody) : List TileRanges :=
  let fa := (Fmt.ofCode b.fmtA).getD .fp32
  let fb := (Fmt.ofCode b.fmtB).getD .fp32
  let fc := (Fmt.ofCode b.fmtC).getD .fp32
  let wide := b.ftqOut || matIsInt p b
  let cw := if wide then 32 else fc.bits
  let crow := (b.n * cw + 7) / 8
  (matTiles b).map fun ij =>
    let i := ij.1
    let j := ij.2
    let c := if b.ftqOut && !b.acc then []
      else blockRanges b.c crow cw i.1 i.2 j.1 j.2 ++
        (if !wide && fc.isMx then
          blockRanges (scaleBase b.c b.m crow) (b.n / 32) 8 i.1 i.2 (j.1 / 32) (j.2 / 32) else [])
    (matOperandRanges fa b.a b.aScale (!b.transA) b.m b.k i.1 i.2 ++
      matOperandRanges fb b.b b.bScale b.transB b.n b.k j.1 j.2 ++ c, if b.ftqOut then [] else c)

/-- The ranges of a tensor laid out as R146 lays it out, for a region of it. -/
def tensorRanges (f : Fmt) (base rows n : Nat) (i j : Nat × Nat) : List Range :=
  blockRanges base (f.rowBytes n) f.bits i.1 i.2 j.1 j.2 ++
  (if f.isMx then blockRanges (scaleBase base rows (f.rowBytes n)) (n / 32) 8 i.1 i.2 (j.1 / 32) (j.2 / 32) else [])

/-- The side of a chain tile (R155): the region of a queue entry, 64 after a MAT of tile code 0. -/
def chainSide (b : ChainBody) (prev : Desc) : Nat := if b.ftqIn && (MatBody.ofDesc prev).tile == 0 then 64 else 128

/-- The ranges that a CHAIN writes in a region of its tensor (R146). -/
def chainOutRanges (b : ChainBody) (i j : Nat × Nat) : List Range :=
  let fmt (c : Nat) : Fmt := (Fmt.ofCode c).getD .fp32
  tensorRanges (fmt b.fmtOut0) b.out0 b.m b.n i j ++
  (if b.out1Sel = 0 then [] else tensorRanges (fmt b.fmtOut1) b.out1 b.m b.n i j)

/-- The ranges of a region of a CHAIN's tensors (R146). -/
def chainRegion (b : ChainBody) (i j : Nat × Nat) : TileRanges :=
  let fmt (c : Nat) : Fmt := (Fmt.ofCode c).getD .fp32
  ((if b.ftqIn then [] else tensorRanges (fmt b.fmtIn0) b.in0 b.m b.n i j) ++
    (if b.in1 = 0 then [] else
      if b.rowB1 then tensorRanges (fmt b.fmtIn1) b.in1 1 b.n (0, 1) j else tensorRanges (fmt b.fmtIn1) b.in1 b.m b.n i j) ++
    (if b.in2 = 0 then [] else
      if b.rowB2 then tensorRanges (fmt b.fmtIn2) b.in2 1 b.n (0, 1) j else tensorRanges (fmt b.fmtIn2) b.in2 b.m b.n i j) ++
    chainOutRanges b i j, chainOutRanges b i j)

/-- The ranges of the chain tiles of a CHAIN, tile by tile, for tiles of a side (R146, R155). -/
def chainTileRanges (b : ChainBody) (side : Nat) : List TileRanges :=
  (pieces side b.m).flatMap fun i => (pieces side b.n).map (chainRegion b i)

/-- The elements of the first pieces of a RED (R156). -/
def redElems (b : RedBody) (n : Nat) : Nat :=
  ((((List.range b.m).flatMap fun _ => pieces 16384 b.n).take n).map fun q => q.2 - q.1).foldl (· + ·) 0

/-- The ranges of a RED, piece by piece of 16,384 elements, then its results page by page (R156, R157). -/
def redTileRanges (b : RedBody) : List TileRanges :=
  let f := (Fmt.ofCode b.fmtIn).getD .fp32
  let w := if b.op = 5 then 8 else ((Fmt.ofCode b.fmtOut).getD .fp32).bits / 8
  ((List.range b.m).flatMap fun i => (pieces 16384 b.n).map fun j =>
      (tensorRanges f b.src b.m b.n (i, i + 1) j, [])) ++
  ((pieces (2 ^ 21) (redCount b * w)).map fun r => ([(b.dst + r.1, r.2 - r.1)], [(b.dst + r.1, r.2 - r.1)]))

/-! ### Access to pages -/

/-- The outcome of a descriptor's access to its pages: every tile had them; the thread waits; or an error after so many tiles. -/
inductive Access where
  | ok (d : Dev)
  | blocked (d : Dev)
  | fail (d : Dev) (code tiles : Nat)
  deriving DecidableEq, Repr

/-- The writes that fall into some ranges. -/
def within (rs : List Range) (ws : Writes) : Writes := ws.filter fun w => rs.any fun r => decide (r.1 ≤ w.1) && decide (w.1 < r.1 + r.2)

/-- The error of an address range: beyond the context space, or in the direct host window for a descriptor that may not
name it (R91). -/
def rangeError (windowOk : Bool) (rs : List Range) : Bool :=
  rs.any fun r => r.2 != 0 && (decide (2 ^ 47 < r.1 + r.2) || (!windowOk && decide (2 ^ 46 < r.1 + r.2)))

/-- A partition that holds one of the pages and takes no new requests (R369). -/
def Dev.waitingPart (d : Dev) (c : Nat) (pgs : List Nat) : Option Nat :=
  (pgs.filterMap fun pg => (d.pageEnt (pageKey c pg)).map PageEnt.part).find? fun p =>
    d.partState p == 1 || d.partState p == 2 || d.partState p == 3

/-- A thread stops at a tile of its descriptor until something comes (R111, R112). -/
def Dev.stopAt (d : Dev) (k tile : Nat) (state : ThState) (why : Waiting) (hold : List Nat) : Dev :=
  d.setThread k { d.thread k with state := state, why := why, tile := tile, hold := hold }

/-- A page that a descriptor does not want is being filled where it takes room from a context: its own, or in a partition that it may use
(R92 steps 1 and 3). -/
def Dev.fillsOthers (d : Dev) (c : Nat) (own : List Nat) : Bool :=
  d.comp.fills.any fun f =>
    let k := pageKey f.ctx f.page
    !own.contains k && d.filling k &&
      (f.ctx == c || ((d.pageEnt k).map fun e => (d.placeable c).contains e.part) == some true)

/-- Tiles touched one after another, each with the ranges that it writes (R91 to R93, R369): a tile holds its pages while they are
filled, and pages once written are dirty. A tile whose pages other descriptors' held pages or fills keep out, or that lacks a request
slot, leaves its thread ready (log entry 47). -/
def Dev.accessTiles (d : Dev) (k : Nat) : List TileRanges → Nat → Access
  | [], _ => .ok d
  | t :: ts, i =>
    let c := (d.thread k).ctx
    let pgs := pagesOf t.1
    let own := pgs.map (pageKey c)
    if rangeError false t.1 then .fail d 0x04 i
    else match d.waitingPart c pgs with
    | some p => .blocked (d.stopAt k i .blocked (.part p) [])
    | none => match d.touchPages c (own ++ d.heldPages k) [] pgs with
      | (d, [], none) => (d.soil ((pagesOf t.2).map (pageKey c))).accessTiles k ts (i + 1)
      | (d, [], some (.closed p)) => .blocked (d.stopAt k i .blocked (.part p) [])
      | (d, [], some (.noSlot p)) => .blocked (d.stopAt k i .ready (.slot p) [])
      | (d', [], some _) => match d.touchPages c own [] pgs with
        | (_, _, some .refused) => if d.fillsOthers c own then .blocked (d'.stopAt k i .ready .room []) else .fail d 0x03 i
        | _ => .blocked (d'.stopAt k i .ready .room [])
      | (d, w, _) => .blocked (d.stopAt k i .blocked (.fill w) own)

/-- A descriptor's access to the managed pages of its tiles, from the tile it had come to (R91 to R93): the working set is checked
first. -/
def Dev.access (d : Dev) (k : Nat) (tiles : List TileRanges) : Access :=
  let i := (d.thread k).tile
  if tiles.any fun t => decide (64 < (pagesOf t.1).length) then .fail d 0x05 0
  else d.accessTiles k (tiles.drop i) i

/-! ### Profiles and coefficient sets -/

/-- A profile entry's two words (R129 to R131). -/
def Dev.profWords (d : Dev) (i : Nat) : Nat × Nat :=
  if i < 16 then builtinProfile i
  else match Tab.find i d.comp.profiles with
    | some e => (e.w0, e.w1)
    | none => (5 * 2 ^ 32, 0)

/-- The profile of an entry of the table (R129). -/
def Dev.profile (d : Dev) (i : Nat) : Profile := Profile.ofWords (d.profWords i).1 (d.profWords i).2

/-- The coefficient sets that are valid, one copy for every vector engine (R153). -/
def Dev.coefValid (d : Dev) : Nat := d.get (Reg.VEC_COEF_STATUS_valid 0)

/-- A coefficient word: set 0 is fixed, the others are as written (R153). -/
def Dev.coefWord (d : Dev) (set index : Nat) : Nat :=
  if set = 0 then denelarosWord index else Tab.getD d.comp.coef (set * 2048 + index) 0

/-! ### Descriptors -/

/-- The kind of a descriptor (R103). -/
def descKind (x : Desc) : Nat := bits 56 8 (wd x 0)

/-- The class code of a descriptor: 0 C, 1 A, 2 G (R103). -/
def descClass (x : Desc) : Nat := bits 54 2 (wd x 0)

/-- The profile index of a descriptor (R103). -/
def descProfile (x : Desc) : Nat := bits 40 8 (wd x 0)

/-- A thread's descriptor at an index. -/
def Thread.desc (t : Thread) (i : Nat) : Desc := t.list.getD i []

/-- The profile that a thread's present descriptor copied when it issued (R129). -/
def Thread.profile (t : Thread) : Profile := let w := t.profs.headD (0, 0); Profile.ofWords w.1 w.2

/-- The present descriptor of a thread that issues a descriptor of a kind, on a partition that runs (R111, R411). -/
def Dev.current (d : Dev) (k kind : Nat) : Option Desc :=
  let t := d.thread k
  if t.state = .issuing ∧ t.idx < t.list.length ∧ descKind (t.desc t.idx) = kind ∧ !d.frozen (k / 512) then
    some (t.desc t.idx)
  else none

/-- A descriptor ends with an error a cluster found (R101, R115): the command ends, CNT_DESC_ERR counts, desc_error is
raised. -/
def Dev.descError (d : Dev) (k code : Nat) : Dev :=
  let d := (d.incE (Cnt.CLU_CNT_DESC_ERR (k / 256))).endCommand k code (d.thread k).idx
  d.raise (Src.CLU_desc_error (k / 256))

/-- A refused placement counts on the SRM page of the executing cluster's partition (R116, log entry 54), and the descriptor ends with
0x03. -/
def Dev.accessError (d : Dev) (k code : Nat) : Dev :=
  (if code = 0x03 then d.incE (Cnt.SRM_CNT_QUOTA_REFUSE (k / 512)) else d).descError k code

/-- What a descriptor writes to its context, unless its run is a suspect's (R380). -/
def Dev.descWrites (d : Dev) (k : Nat) (ws : Writes) : Dev :=
  if (d.thread k).replay then d else d.ctxWrites (d.thread k).ctx ws

/-- Per-thread counters advanced: (source − 1, amount). -/
def Dev.bump (d : Dev) (k : Nat) (l : List (Nat × Nat)) : Dev :=
  d.setThread k (l.foldl (fun t p => t.count p.1 p.2) (d.thread k))

/-! ### Pod addresses (R41 to R43) -/

/-- The chip field of a pod address. -/
def podChip (a : Nat) : Nat := bits 48 16 a

/-- The space field of a pod address. -/
def podSpace (a : Nat) : Nat := bits 44 4 a

/-- The offset field of a pod address. -/
def podOffset (a : Nat) : Nat := a % 2 ^ 44

/-- A chip value names one controller: rack 0 to 252, slot 0 to 17 (R43). -/
def chipIsOne (c : Nat) : Bool := decide (c / 32 ≤ 252) && decide (c % 32 ≤ 17)

/-- A chip value is a broadcast: a rack's, or the pod's (R43). -/
def chipIsBroadcast (c : Nat) : Bool := (decide (c / 32 ≤ 252) && c % 32 == 31) || c == 0xFFFF

/-- A pod address is of this controller: its own chip number, or 0xFFFE (R43). -/
def Dev.ownChip (d : Dev) (c : Nat) : Bool := c == 0xFFFE || c == d.chip

/-- An offset of a space is a byte that exists (R42). -/
def podExists (space off : Nat) : Bool :=
  match space with
  | 0 => decide (off < 2 ^ 24)
  | 1 => decide (off < 2 ^ 35)
  | 2 => decide (off / 2 ^ 36 < 16) && decide (off % 2 ^ 36 < 60 * 2 ^ 30)
  | 3 => decide (off < 2 ^ 27)
  | _ => false

/-- A partition's class C reserve in the SRAM slice lies at its top (log entry 14). -/
def Dev.inReserve (d : Dev) (off : Nat) : Bool :=
  decide (2 ^ 31 ≤ off % 2 ^ 31 + d.get (Reg.SRM_RESERVE_c_sram_mib (off / 2 ^ 31 % 16)) * 2 ^ 20)

/-- A byte of the controller's SRAM or LPDDR4X by pod offset; an SRAM byte outside the class C reserves is a free value
(R468; log entry 1). Spaces 0x0 and 0x3 are registers. -/
def Dev.podRead (d : Dev) (space off i : Nat) : Nat :=
  if space = 1 then
    if d.inReserve off then (Memory.read off d.sram).toNat else (Config.freeWord (d.fresh + i)).toNat % 256
  else (Memory.read off d.lpd).toNat

/-- A byte of the controller's SRAM or LPDDR4X written by pod offset. A raw SRAM write outside the class C reserves changes
a byte of whichever managed page lies there, at a place the spec does not give: the byte of the store of all contexts it
falls on is a free value (R468; log entry 1). -/
def Dev.podWrite (d : Dev) (space off b : Nat) : Dev :=
  if space = 1 then
    if d.inReserve off then { d with sram := Memory.write off (BitVec.ofNat 8 b) d.sram }
    else
      let places := (d.comp.pages.filter fun e => e.2.at_ == .sram && e.2.part == off / 2 ^ 31).map (·.1)
      let pick := d.free
      let d := d.tick
      match places[pick % (places.length + 1)]? with
      | some key => { d with ctxMem := Memory.write (key * 2 ^ 21 + off % 2 ^ 21) (BitVec.ofNat 8 b) d.ctxMem }
      | none => d
  else if space = 2 then { d with lpd := Memory.write off (BitVec.ofNat 8 b) d.lpd }
  else d

end Sys2Proof.Machine
end

