-- ==== Sys2Proof/Machine/Contexts.lean ====
section
/-! DEFINITION. Software contexts (R95 to R102), submission and the start and end of commands (R98 to R101, R111), page
fills and abandoned requests (R92, R386), the SRAM reserves (R117), and functions that leave (R385). -/

namespace Sys2Proof.Machine

/-! ### The context window's actions (R97, R470) -/

/-- create: a free context becomes a created class G context of the next generation, its registers at reset (R97). -/
def Dev.ctxCreate (d : Dev) (c : Nat) : Dev :=
  let x := d.ctx c
  if x.state = .free then d.setCtx c { Ctx.reset with state := .created, cls := 2, gen := (x.gen + 1) % 256 } else d

/-- enable written to 1: only a created context is enabled (R97). -/
def Dev.ctxEnable (d : Dev) (c : Nat) : Dev :=
  let x := d.ctx c
  if x.state = .created then d.setCtx c { x with state := .enabled, enable := true } else d

/-- enable written to 0: an enabled context drains (R97, R382). -/
def Dev.ctxDisable (d : Dev) (c : Nat) : Dev :=
  let x := d.ctx c
  if x.state = .enabled then
    let d := d.setCtx c { x with state := .draining, enable := false, drainErr := none }
    (d.threadsOf c).foldl Dev.drainThread d
  else d.setCtx c { x with enable := false }

/-- err_clear: a context in error returns to created (R97). -/
def Dev.ctxErrClear (d : Dev) (c : Nat) : Dev :=
  let x := d.ctx c
  if x.state = .error then d.setCtx c { x with state := .created, error := 0, enable := false } else d

/-- destroy: a created context becomes free; an enabled, draining or failed one is fenced (R97, R386). -/
def Dev.ctxDestroy (d : Dev) (c : Nat) : Dev :=
  let x := d.ctx c
  match x.state with
  | .created => (d.releasePages c).setCtx c { x with state := .free, cls := 0, enable := false }
  | .enabled | .draining | .error => d.fenceCtx c
  | _ => d

/-- Host writes to a class A context are discarded (R91). -/
def Dev.hostCtx (d : Dev) (c : Nat) (f : Dev → Dev) : Dev := if (d.ctx c).cls = 1 then d else f d

def execCtxCreate (c : Fin 1024) (s : State) : Host.Outcome State Fault Refusal :=
  .next { s with dev := s.dev.hostCtx c fun d => d.ctxCreate c }

def execCtxEnable (c : Fin 1024) (s : State) : Host.Outcome State Fault Refusal :=
  .next { s with dev := s.dev.hostCtx c fun d => d.ctxEnable c }

def execCtxDisable (c : Fin 1024) (s : State) : Host.Outcome State Fault Refusal :=
  .next { s with dev := s.dev.hostCtx c fun d => d.ctxDisable c }

def execCtxErrClear (c : Fin 1024) (s : State) : Host.Outcome State Fault Refusal :=
  .next { s with dev := s.dev.hostCtx c fun d => d.ctxErrClear c }

def execCtxDestroy (c : Fin 1024) (s : State) : Host.Outcome State Fault Refusal :=
  .next { s with dev := s.dev.hostCtx c fun d => d.ctxDestroy c }

/-- The host pages of every context but one (R96). -/
def Dev.spillOthers (d : Dev) (c : Nat) : Nat :=
  (d.comp.ctxs.filter fun e => e.1 != c && e.2.state != .free).foldl (fun n e => n + e.2.hostPages) 0

/-- A configuration register of the window brought into range (R32, R95): 0 DEV_CTX_CFG, 1 RING, 2 CMPL, 3 QUOTA,
4 HOSTWIN, 5 CNTSEL. -/
def Ctx.configure (x : Ctx) (reg v : Nat) : Ctx :=
  match reg with
  | 0 => { x with threads := limitTo (.range 1 224) (bits 48 8 v), local_ := limitTo (.range 0 119) (bits 40 7 v),
                  vf := limitTo (.range 0 32) (bits 32 6 v), mask := bits 0 32 v }
  | 1 => { x with ringBase := bits 12 35 v, log2n := limitTo (.range 6 16) (bits 0 4 v) }
  | 2 => { x with vector := bits 53 11 v, cmplBase := bits 12 35 v }
  | 3 => { x with hostPages := bits 40 24 v, lpdPages := limitTo (.range 0 491520) (bits 16 24 v),
                  sramPages := limitTo (.range 0 16384) (bits 0 16 v) }
  | 4 => { x with hostBase := bits 21 43 v, winPages := bits 0 21 v }
  | _ => { x with sel1 := bits 8 8 v, sel0 := bits 0 8 v }

/-- A write of a configuration register: only in state 1, and a quota only within DEV_SPILL.pages (R96, R399). -/
def Dev.ctxConfig (d : Dev) (c reg v : Nat) : Dev :=
  let x := d.ctx c
  if x.state = .created ∧ (reg = 3 → bits 40 24 v + d.spillOthers c ≤ d.get Reg.DEV_SPILL_pages) then
    d.setCtx c (x.configure reg v)
  else d

def execCtxConfigWrite (c : Fin 1024) (reg : Fin 6) (v : Word) (s : State) : Host.Outcome State Fault Refusal :=
  .next { s with dev := s.dev.hostCtx c fun d => d.ctxConfig c reg v.toNat }

/-- The end of a context's drain (R97): forced, its commands end with 0x0B; without a descriptor error it is created again,
after one it is in error. -/
def Dev.ctxDrainEnd (d : Dev) (c : Nat) (forced : Bool) : Dev :=
  let d := if forced && (d.ctx c).state == .draining then d.endCommands 0x0B (d.threadsOf c) else d
  let x := d.ctx c
  if x.state = .draining ∧ d.threadsOf c = [] then
    d.setCtx c (match x.drainErr with
      | none => { x with state := .created }
      | some e => { x with state := .error, error := e, drainErr := none })
  else d

def execCtxDrainEnd (c : Fin 1024) (forced : Bool) (s : State) : Host.Outcome State Fault Refusal :=
  .next { s with dev := s.dev.ctxDrainEnd c forced }

/-- The quarantine of a fenced context ends: its number is free again (R97, R386). -/
def Dev.quarantineEnd (d : Dev) (c : Nat) : Dev :=
  let x := d.ctx c
  if x.state = .fenced then d.setCtx c { x with state := .free, cls := 0 } else d

def execQuarantineEnd (c : Fin 1024) (s : State) : Host.Outcome State Fault Refusal :=
  .next { s with dev := s.dev.quarantineEnd c }

/-- A context's outstanding request is stale: the context is fenced or free, or of another generation (R386). -/
def Dev.stale (d : Dev) (f : FillReq) : Bool :=
  (d.ctx f.ctx).state == .fenced || (d.ctx f.ctx).state == .free || (d.ctx f.ctx).gen != f.gen

/-- Requests into a fenced context that did not return in 20 ms are abandoned (R386). -/
def Dev.abandonRequests (d : Dev) (c : Nat) : Dev :=
  { d with comp := { d.comp with fills := d.comp.fills.filter fun f => !(f.ctx == c && d.stale f) } }

def execRequestAbandon (c : Fin 1024) (s : State) : Host.Outcome State Fault Refusal :=
  .next { s with dev := s.dev.abandonRequests c }

/-! ### Submission (R98 to R101) -/

/-- A doorbell (R99): discarded and counted unless the context is enabled; a tail beyond the ring puts the context in error
with 0x09. -/
def Dev.doorbell (d : Dev) (c tail : Nat) : Dev :=
  let x := d.ctx c
  if x.state ≠ .enabled then d.incE Cnt.DEV_CNT_DB_DISCARD
  else if tail = x.tail then d
  else if 2 ^ x.log2n < (tail + 65536 - x.taken % 65536) % 65536 then
    (d.incE Cnt.DEV_CNT_SUBMIT_ERR).ctxError c 0x09
  else d.setCtx c { x with tail := tail }

/-- BAR2 and BAR4 are live (R68): stage 0xA has been reached since the sequence began. -/
def Dev.barsLive (d : Dev) : Bool := d.boot.ended.isSome

/-- A doorbell through BAR4: writes before stage 0xA are discarded (R68). -/
def execDoorbell (c : Fin 1024) (tail : BitVec 16) (s : State) : Host.Outcome State Fault Refusal :=
  .next { s with dev := if s.dev.barsLive then s.dev.doorbell c tail.toNat else s.dev }

/-- A command that ends before any cluster takes it (R101): the record names the entry, index 0. -/
def Dev.endUnstarted (d : Dev) (c slot cmdId code : Nat) (irq : Bool) : Dev :=
  let n := 2 ^ (d.ctx c).log2n
  let words := [pack [(32, 32, cmdId), (31, 1, slot / n % 2), (16, 8, code)], d.stamp, d.stamp,
    pack [(56, 8, (d.ctx c).sel0), (48, 8, (d.ctx c).sel1)], 0, 0, 0, 0]
  ((d.incE Cnt.DEV_CNT_SUBMIT_ERR).writeCompletion c slot words irq).ctxError c code

/-- The words of a byte string, eight bytes each. -/
def wordsOf (bs : List Nat) : List Nat :=
  (chunksOf 8 bs.length bs).map fun w => w.foldr (fun b acc => b + acc * 256) 0

/-- A controller DMA read that ended in an error: counted and raised (R442). -/
def Dev.dmaError (d : Dev) : Dev := (d.incE Cnt.PCIE_CNT_DMA_ERR).raise Src.PCIE_dma_error

/-- A controller DMA read: an error is counted and raised, bytes are counted (R442). -/
def Dev.dmaRead (d : Dev) (dma : Dma) : Dev :=
  match dma with
  | none => d.dmaError
  | some bs => d.addU Cnt.PCIE_CNT_DMA_BYTES bs.length

/-- A thread takes a command (R100, R111, R399): its list, its context and the start latches. Descriptors after the first are fetched
again as the thread comes to them, where the list lies in managed pages. -/
def Dev.startThread (d : Dev) (k c : Nat) (addr : Option Nat) (list : List Desc) (cmdId slot : Nat) (irq : Bool) : Dev :=
  let x := d.ctx c
  let t := d.thread k
  d.setThread k { Thread.reset with
    state := .ready, cls := x.cls, ctx := c, gen := x.gen, list := list, addr := addr, counters := t.counters
    cmd := ⟨cmdId, list.length, irq, slot, d.stamp, x.sel0, x.sel1, d.counterSource k x.sel0, d.counterSource k x.sel1⟩ }

/-- A command's descriptors as its thread reads them (R91, R111), each for itself: one that cannot be read is empty, and ends the command
when the thread comes to it. Of a list in the direct host window the host returns all descriptors at the start (log entry 54). -/
def Dev.fetchList (d : Dev) (c list count : Nat) (dma : Dma) : List Desc :=
  let managed := (2 ^ 46 - list) / 64
  (List.range count).map fun j =>
    ((d.ctxFetch c (list + 64 * j) 64 (dma.map (List.drop (64 * (j - managed))))).map wordsOf).getD []

/-- A free thread of a cluster may take a command of a context (R97, R100, R113, R382). -/
def Dev.mayStart (d : Dev) (c cl th : Nat) : Bool :=
  let x := d.ctx c
  decide (32 ≤ th) && (d.thread (threadKey cl th)).state == .idle && bitAt cl x.mask && d.partState (cl / 2) == 0 &&
    !d.frozen (cl / 2) && d.pageOn (cluPage cl) && !d.silent &&
    decide ((d.threadsWith fun k t => k / 256 == cl && t.cls != 0 && t.ctx == c).length < x.threads)

/-- A command starts in ring order (R92 step 7, R98, R100, R101). dma is what the host returns when the ring or the list
lies in the direct host window: the entry's 32 bytes, then the list's. An entry that cannot be read puts the context in error with 0x04,
is not taken and leaves no record (log entry 47). -/
def Dev.dispatch (d : Dev) (c cl th : Nat) (dma : Dma) : Dev :=
  let x := d.ctx c
  let k := threadKey cl th
  let entryAddr := x.ringBase * 4096 + x.taken % 2 ^ x.log2n * 32
  let entryHost := decide (2 ^ 46 ≤ entryAddr)
  if x.state ≠ .enabled ∨ x.waiting = 0 then d
  else if d.placeable c ≠ [] ∧ d.mayStart c cl th = false then d
  else
    let d := if entryHost then d.dmaRead dma else d
    match d.ctxFetch c entryAddr 32 dma with
    | none => d.ctxError c 0x04
    | some bs =>
      let e := wordsOf bs
      let slot := x.taken
      let count := bits 0 16 (wd e 1)
      let cmdId := bits 32 32 (wd e 1)
      let irq := bitAt 0 (wd e 2)
      let list := bits 6 58 (wd e 0) * 64
      let d := d.setCtx c { d.ctx c with taken := slot + 1 }
      if d.placeable c = [] then d.endUnstarted c slot cmdId 0x03 irq
      else if count = 0 then d.endUnstarted c slot cmdId 0x07 irq
      else
        let d := if !entryHost && decide (2 ^ 46 < list + 64 * count) then d.dmaRead dma else d
        let ls := d.fetchList c list count (if entryHost then dma.map (List.drop 32) else dma)
        let d := d.startThread k c (if list < 2 ^ 46 then some list else none) ls cmdId slot irq
        if ls.headD [] = [] then d.descError k 0x04 else d

def execCommandDispatch (c : Fin 1024) (cl : Fin 32) (th : Fin 256) (dma : Dma) (s : State) :
    Host.Outcome State Fault Refusal :=
  .next { s with dev := s.dev.dispatch c cl th dma }

/-- The command of a thread whose last descriptor has retired ends (R100, R111). -/
def Dev.commandEnd (d : Dev) (k : Nat) : Dev :=
  let t := d.thread k
  if t.cls ≠ 0 ∧ (t.state = .ready ∨ t.state = .issuing) ∧ t.list.length ≤ t.idx ∧ !d.frozen (k / 512) then
    d.endCommand k 0x00 t.list.length
  else d

def execCommandEnd (cl : Fin 32) (th : Fin 256) (s : State) : Host.Outcome State Fault Refusal :=
  .next { s with dev := s.dev.commandEnd (threadKey cl th) }

/-! ### Fills (R92, R386, R394) -/

/-- A thread that waited for a page: it waits for one page less, and is ready after the last; its fill bytes count
(R111, R400). -/
def Thread.fillDone (t : Thread) (c page : Nat) (fromHost : Bool) : Thread :=
  match t.why with
  | .fill ps =>
    if t.state = .blocked ∧ t.ctx = c ∧ ps.contains page then
      let t := t.count (if fromHost then 6 else 5) (2 ^ 21)
      let ps := ps.filter (· != page)
      if ps = [] then { t with state := .ready, why := .none } else { t with why := .fill ps }
    else t
  | _ => t

/-- A returned page: resident, clean, its lower copy valid (R92 steps 1 and 5). -/
def Dev.pageFilled (d : Dev) (c page : Nat) : Dev :=
  let k := pageKey c page
  match d.pageEnt k with
  | none => d
  | some e =>
    let fromHost := e.at_ == .host
    let d := d.incU (if fromHost then Cnt.SRM_CNT_FILL_HOST e.part else Cnt.SRM_CNT_FILL_LPD e.part)
    let use := d.comp.uses + 1
    let d := ({ d with comp := { d.comp with uses := use } }).setPage k
      { e with at_ := .sram, lower := some e.at_, dirty := false, lastUse := use, firstOut := false }
    { d with comp := { d.comp with threads := d.comp.threads.map fun (x : Nat × Thread) =>
        if x.2.cls = 0 then x else (x.1, x.2.fillDone c page fromHost) } }

/-- What LPDDR4X reports for a read (R394): nothing, corrected errors, more than 1,000 corrected errors in a second, or an
uncorrectable error. -/
def Dev.lpdUpset (d : Dev) (p : Nat) (u : LpdUpset) : Dev :=
  match u with
  | .none => d
  | .corrected => d.incE (Cnt.LPD_CNT_LPD_CE p)
  | .rate => (d.incE (Cnt.LPD_CNT_LPD_CE p)).raise (Src.LPD_lpd_ce_rate p)
  | .uncorrectable => (d.incE (Cnt.LPD_CNT_LPD_UE p)).raise (Src.LPD_lpd_ue p)

/-- A return for a context (R386, R92): without an outstanding request it is discarded; a stale one is discarded and
counted; another fills its page unless LPDDR4X reports an uncorrectable error. -/
def Dev.pageFill (d : Dev) (c page gen : Nat) (u : LpdUpset) : Dev :=
  let f : FillReq := ⟨c, gen, page⟩
  if d.comp.fills.contains f then
    let d := { d with comp := { d.comp with fills := d.comp.fills.filter (· != f) } }
    if d.stale f then d.incU Cnt.FLT_CNT_STALE_DISCARD
    else
      let p := ((d.pageEnt (pageKey c page)).map PageEnt.part).getD 0
      let d := d.lpdUpset p u
      if u = .uncorrectable then d else d.pageFilled c page
  else d

def execPageFill (c : Fin 1024) (page : BitVec 25) (gen : BitVec 8) (u : LpdUpset) (s : State) :
    Host.Outcome State Fault Refusal :=
  .next { s with dev := s.dev.pageFill c page.toNat gen.toNat u }

/-! ### Reserves (R116, R117) -/

/-- SRAM pages of a partition evicted, in the order of R92 step 3 and none that is held, until the reserve is free (R117). -/
def Dev.shrinkSram (d : Dev) (p : Nat) : Nat → Dev
  | 0 => d
  | n + 1 =>
    if d.partSram p ≤ d.sramCap p then d
    else match d.sliceEvict p (d.heldPages 8192) with
      | some d => d.shrinkSram p n
      | none => d

/-- LPDDR4X pages of a partition moved to the host spill region, least recently used first, until the reserve is free
(R92 step 4, R117). -/
def Dev.shrinkLpd (d : Dev) (p : Nat) : Nat → Dev
  | 0 => d
  | n + 1 =>
    if d.partLpd p ≤ d.lpdCap p then d
    else match lru (d.comp.pages.filter fun e => e.2.part == p && e.2.at_ == .lpd &&
        decide (d.ctxHost (keyCtx e.1) < (d.ctx (keyCtx e.1)).hostPages)) with
      | some (k, e) => ((d.setPage k { e with at_ := .host, lower := none }).incU (Cnt.SRM_CNT_EVICT_HOST p)).shrinkLpd p n
      | none => d

/-- A partition's reserves come free as far as its pages can be evicted (R117). -/
def Dev.shrinkPart (d : Dev) (p : Nat) : Dev := let n := d.comp.pages.length; (d.shrinkSram p n).shrinkLpd p n

/-- Pages that stood in a raised reserve's way and were held or being filled are evicted when they are not any more (R117). -/
def Dev.shrinkDue (d : Dev) : Dev := (List.range 16).foldl Dev.shrinkPart d

/-- A write of SRM_RESERVE (R116, R117). -/
def Dev.reserveWrite (d : Dev) (p v : Nat) : Dev :=
  let d := d.put (Reg.SRM_RESERVE_c_lpd_gib p) (limitTo (.range 0 60) (bits 48 8 v))
  (d.put (Reg.SRM_RESERVE_c_sram_mib p) (limitTo (.evenRange 256 2048) (bits 0 16 v))).shrinkPart p

def execReserveWrite (p : Fin 16) (v : Word) (s : State) : Host.Outcome State Fault Refusal :=
  .next { s with dev := s.dev.ifWritable (0x102 + 16 * p) fun d => d.reserveWrite p v.toNat }

/-! ### Virtual functions (R385) -/

/-- The contexts of a virtual function. -/
def Dev.ctxsOfVf (d : Dev) (f : Nat) : List Nat :=
  (d.comp.ctxs.filter fun e => e.2.vf == f && e.2.state != .free).map (·.1)

/-- Every context of a function is drained within its limit and destroyed (R97, R385): commands that the drain did not end
end with 0x0B. -/
def Dev.vfTeardown (d : Dev) (f : Nat) : Dev :=
  (d.ctxsOfVf f).foldl (fun d c => ((d.ctxDisable c).ctxDrainEnd c true).ctxDestroy c) d

/-- Clearing VF Enable: every function of the device goes (R385, R442). -/
def Dev.vfDisable (d : Dev) : Dev :=
  ((List.range 32).foldl (fun d i => d.vfTeardown (i + 1)) d).put Reg.PCIE_FUNC_vfs 0

def execVfDisable (s : State) : Host.Outcome State Fault Refusal := .next { s with dev := s.dev.vfDisable }

def execVfFlr (f : Fin 32) (s : State) : Host.Outcome State Fault Refusal :=
  .next { s with dev := s.dev.vfTeardown (f + 1) }

end Sys2Proof.Machine
end

