-- ==== Sys2Proof/Machine/Descriptors.lean ====
section
/-! DEFINITION. The descriptors MAT, CHAIN, RED, WAIT and SIGNAL and the parts of MOVE (R103 to R109, R125, R142 to R161), and a cluster's
cores, preemption and queue entries (R86, R87, R110 to R115, R144). A descriptor acts whole, when it retires; its thread
must issue it. cycles is the number of core cycles the engine was held, which the spec does not fix. -/

namespace Sys2Proof.Machine

/-! ### Matrix cores (R86, R87) -/

/-- A matrix core fails (R86, R87): withdrawn; the idle spare is switched in, or is itself withdrawn, or there is none. A spare that
fails while it is being switched in leaves 15 active cores and none to take the place. -/
def Dev.coreFail (d : Dev) (cl core : Nat) : Dev :=
  let active := d.get (Reg.CLU_CORE_MAP_active cl)
  let spare := d.get (Reg.CLU_CORE_MAP_spare cl)
  let switching := (Tab.getD d.comp.clusters cl Cluster.reset).switching
  let d := d.setBitOf (Reg.CLU_CORE_MAP_failed cl) core
  if core = spare then
    let d := d.put (Reg.CLU_CORE_MAP_spare cl) 31
    if switching then
      ({ d with comp := { d.comp with
        clusters := Tab.update d.comp.clusters cl Cluster.reset fun c => { c with switching := false } } }).raise (Src.CLU_spare_exhausted cl)
    else d.raise (Src.CLU_core_fail cl)
  else if !bitAt core active then d
  else
    let d := d.put (Reg.CLU_CORE_MAP_active cl) (clrBit active core)
    if spare = 31 ∨ switching then d.raise (Src.CLU_spare_exhausted cl)
    else
      let d := { d with comp := { d.comp with
        clusters := Tab.update d.comp.clusters cl Cluster.reset fun c => { c with switching := true } } }
      d.raise (Src.CLU_core_fail cl)

def execCoreFail (cl : Fin 32) (core : Fin 17) (s : State) : Host.Outcome State Fault Refusal :=
  .next { s with dev := s.dev.coreFail cl core }

/-- The switch-in ends: the spare is active and no spare is idle (R86). -/
def Dev.switchInDone (d : Dev) (cl : Nat) : Dev :=
  if (Tab.getD d.comp.clusters cl Cluster.reset).switching then
    let spare := d.get (Reg.CLU_CORE_MAP_spare cl)
    let d := (d.setBitOf (Reg.CLU_CORE_MAP_active cl) spare).put (Reg.CLU_CORE_MAP_spare cl) 31
    { d with comp := { d.comp with
      clusters := Tab.update d.comp.clusters cl Cluster.reset fun c => { c with switching := false } } }
  else d

def execSwitchInDone (cl : Fin 32) (s : State) : Host.Outcome State Fault Refusal :=
  .next { s with dev := s.dev.switchInDone cl }

/-! ### The parts of a MOVE (R106) -/

/-- The body of a MOVE (R106). -/
structure MoveBody where
  src : Nat
  dst : Nat
  len : Nat
  evict : Bool
  pin : Bool
  prefetch : Bool
  dstPod : Bool
  srcPod : Bool
  rows : Nat
  srcStride : Nat
  dstStride : Nat
  deriving DecidableEq, Repr

/-- The MOVE body of a descriptor (R106): rows 0 acts as 1, and with prefetch the rows lie one after another, strides being ignored. -/
def MoveBody.ofDesc (x : Desc) : MoveBody where
  src := wd x 1
  dst := wd x 2
  len := bits 0 36 (wd x 3)
  evict := bitAt 4 (wd x 4)
  pin := bitAt 3 (wd x 4)
  prefetch := bitAt 2 (wd x 4)
  dstPod := bitAt 1 (wd x 4)
  srcPod := bitAt 0 (wd x 4)
  rows := if bits 0 32 (wd x 5) = 0 then 1 else bits 0 32 (wd x 5)
  srcStride := if bitAt 2 (wd x 4) then bits 0 36 (wd x 3) else wd x 6
  dstStride := wd x 7

/-- A context address lies in the direct host window (R91). -/
def inWindow (a : Nat) : Bool := decide (2 ^ 46 ≤ a)

/-- A piece of a MOVE: source, destination, length. -/
abbrev Segment := Nat × Nat × Nat

/-- A piece cut where a context address passes from managed pages to the direct host window (R91). -/
def cutSegment (context : Bool) (a : Nat) (s : Segment) : List Segment :=
  if context ∧ a < 2 ^ 46 ∧ 2 ^ 46 < a + s.2.2 then
    let n := 2 ^ 46 - a
    [(s.1, s.2.1, n), (s.1 + n, s.2.1 + n, s.2.2 - n)]
  else [s]

/-- The pieces of a MOVE in order: each row in pieces of at most 2 MiB (R110), of one half of the context space each. The sums of address
and stride do not wrap (log entry 54). -/
def moveSegments (b : MoveBody) : List Segment :=
  ((List.range b.rows).flatMap fun r => (pieces (2 ^ 21) b.len).map fun q =>
    (b.src + r * b.srcStride + q.1, b.dst + r * b.dstStride + q.1, q.2 - q.1)).flatMap fun s =>
      (cutSegment (!b.srcPod) s.1 s).flatMap fun s => cutSegment (!b.dstPod && !b.prefetch) s.2.1 s

/-- The managed ranges of pieces of a MOVE: source and destination as far as they are managed pages of the context. -/
def segmentTiles (b : MoveBody) (ss : List Segment) : List TileRanges :=
  ss.map fun s =>
    let dst := if b.prefetch || b.dstPod || inWindow s.2.1 then [] else [(s.2.1, s.2.2)]
    ((if b.srcPod || inWindow s.1 then [] else [(s.1, s.2.2)]) ++ dst, dst)

/-- The managed ranges of a MOVE. -/
def moveTiles (b : MoveBody) : List TileRanges := segmentTiles b (moveSegments b)

/-! ### Placing and preempting threads -/

/-- The descriptor after a MAT with ftq_out takes its tiles: a CHAIN with ftq_in (R471). -/
def takesTiles (x : Desc) : Bool := descKind x == 2 && bitAt 0 (wd x 0)

/-- The engines that a kind of descriptor runs on: 0 matrix cores, 1 vector engine, 2 reduction unit, 3 MOVE, 4 the semaphore unit. -/
def kindEngines (kind : Nat) : List Nat :=
  match kind with
  | 1 => [0] | 2 => [1] | 3 | 5 => [2] | 4 => [3] | _ => [4]

/-- The engines that a thread's present descriptor needs; a MAT with ftq_out needs also those of the descriptor that issues with it (R109,
R206). -/
def Thread.engines (t : Thread) : List Nat :=
  let x := t.desc t.idx
  kindEngines (descKind x) ++ (if descKind x = 1 ∧ (MatBody.ofDesc x).ftqOut then kindEngines (descKind (t.desc (t.idx + 1))) else [])

/-- The engine pages that a thread's next descriptor needs take new work; a CHAIN or CHECK that takes the tiles of a MAT issues with it (R109,
R206, R382). -/
def Dev.enginesOn (d : Dev) (k : Nat) : Bool :=
  let es := (d.thread k).engines
  (!es.contains 1 || d.pageOn (vecPage (k / 256))) && (!es.contains 2 || d.pageOn (redPage (k / 256)))

/-- A thread competes for its engines (R10, R112, R113, R369): ready or saved, in a partition in service or in its own search, of a class
that may issue and whose credits for the threads, queue entries and LPDDR4X slots that it needs are not used up; a MAT needs a core that holds
no finished tile (R144). -/
def Dev.competes (d : Dev) (k : Nat) (t : Thread) : Bool :=
  let cl := k / 256
  let x := t.desc t.idx
  (t.state == .ready || t.state == .preempted) && decide (t.idx < t.list.length) &&
    (d.partState (cl / 2) == 0 || (d.partState (cl / 2) == 3 && t.replay)) && d.classMayIssue t.cls &&
    decide (d.issuing cl t.cls < d.threadCredit cl t.cls) &&
    (!(descKind x == 1 && (MatBody.ofDesc x).ftqOut) || decide (0 < d.ftqFree cl t.cls)) &&
    (!t.engines.contains 0 || decide (0 < d.coresFree cl)) && (match t.why with | .slot p => d.lpdFree p t.cls | _ => true)

/-- The threads among which an engine goes round, and the cluster that keeps its turn: a cluster's 256, of MOVE the partition's 512 (R112,
R374). -/
def turnRing (k e : Nat) : Nat × Nat := if e = 3 then (512, k / 512 * 2) else (256, k / 256)

/-- The round-robin distance of a thread from the one of its class that last won its engine (R112); before the first, the lowest thread
is first (log entry 47). -/
def Dev.turnOf (d : Dev) (k : Nat) (t : Thread) : Nat :=
  let e := t.engines.headD 4
  let n := (turnRing k e).1
  let last := Tab.getD (Tab.getD d.comp.clusters (turnRing k e).2 Cluster.reset).last (t.cls * 8 + e) (n - 1)
  (k % n + (n - 1) - last) % n

/-- Two threads share one of some engines: those of their cluster, or the MOVE engine of their partition (R374). -/
def sharesEngine (k : Nat) (t : Thread) (k' : Nat) (u : Thread) (es : List Nat) : Bool :=
  u.engines.any fun e => t.engines.contains e && es.contains e && (k' / 256 == k / 256 || (e == 3 && k' / 512 == k / 512))

/-- No other thread issues on an engine that a thread needs (R112): a cluster has one vector engine and one reduction unit, a partition one
MOVE engine; its matrix cores and the semaphore unit serve many. -/
def Dev.engineFree (d : Dev) (k : Nat) (t : Thread) : Bool :=
  (d.threadsWith fun k' u => k' != k && u.state == .issuing && sharesEngine k t k' u [1, 2, 3]) == []

/-- A thread wins its engines (R10, R112): they are free, no competing thread of a higher class wants one of them, and none of its own
class is before it in the round. A thread kept back by others' held pages keeps nobody back. -/
def Dev.mayIssue (d : Dev) (k : Nat) : Bool :=
  let t := d.thread k
  d.competes k t && d.engineFree k t &&
    (d.threadsWith fun k' u => k' != k && d.competes k' u && u.why != .room && sharesEngine k t k' u [0, 1, 2, 3, 4] &&
      (decide (u.cls < t.cls) || (u.cls == t.cls && decide (d.turnOf k' u < d.turnOf k t)))) == []

/-- Saved threads of a cluster are ready again, resuming at the saved point (R111; log entry 47). -/
def Dev.resumeSaved (d : Dev) (cl : Nat) : Dev :=
  { d with comp := { d.comp with threads := d.comp.threads.map fun (e : Nat × Thread) =>
      if e.1 / 256 = cl ∧ e.2.state = .preempted then (e.1, { e.2 with state := .ready }) else e } }

/-- The bytes of a CHAIN's stage block. -/
def Dev.stageBytes (d : Dev) (c : Nat) (x : Desc) : List Nat :=
  let b := ChainBody.ofDesc x
  (List.range (8 * b.count)).map fun i => d.ctxRead c (b.stages + i)

/-- The stages that an issued CHAIN latched (R146). -/
def Thread.stageList (t : Thread) (b : ChainBody) : List Stage := chainStages (fun a => t.stages.getD (a - b.stages) 0) b

/-- A descriptor issues (R111, R112, R129, R146, R153): the profiles and the stage block of it and of the CHAIN that issues with it are
latched, and which coefficient sets are valid; it is its thread's turn no more. A descriptor that resumes keeps what it latched. -/
def Dev.placeThread (d : Dev) (k : Nat) (profs : List (Nat × Nat)) (hold : Thread → List Nat) : Dev :=
  let t := d.thread k
  let x := t.desc t.idx
  let y := t.desc (t.idx + 1)
  let paired := decide (descKind x = 1) && (MatBody.ofDesc x).ftqOut && takesTiles y
  let t := if t.begun then t else { t with
    profs := profs, begun := true, coefs := d.coefValid, stages := if t.cls = 0 then [] else if descKind x = 2 then d.stageBytes t.ctx x else if paired then d.stageBytes t.ctx y else [] }
  let t := { t with state := .issuing, why := match t.why with | .pod got => .pod got | .podWrite n c => .podWrite n c | _ => .none }
  let d := d.setThread k { t with hold := hold t }
  let ring := turnRing k (t.engines.headD 4)
  { d with comp := { d.comp with clusters := Tab.update d.comp.clusters ring.2 Cluster.reset fun c =>
      { c with last := t.engines.foldl (fun l e => Tab.insert (t.cls * 8 + e) (k % ring.1) (Tab.erase (t.cls * 8 + e) l)) c.last } } }

/-- A CHAIN ends with an error: CNT_VEC_ERR counts beside CNT_DESC_ERR (R101, R154). -/
def Dev.chainFail (d : Dev) (k code : Nat) : Dev := (d.incE (Cnt.VEC_CNT_VEC_ERR (k / 256))).accessError k code

/-- A descriptor of a wrong kind or class ends as it issues (R101, R103). -/
def Dev.issueError (d : Dev) (k code : Nat) : Dev :=
  if descKind ((d.thread k).desc (d.thread k).idx) = 2 then d.chainFail k code else d.descError k code

/-- The managed pages of the tile that a thread has come to (R92 step 2); a CHAIN counts its stage block as tile 0. -/
def Dev.tileHold (d : Dev) (t : Thread) : List Nat :=
  let x := t.desc t.idx
  let tiles : List TileRanges := if t.cls = 0 then [] else match descKind x with
    | 1 => matTileRanges t.profile (MatBody.ofDesc x)
    | 2 => (chainTileRanges (ChainBody.ofDesc x) (chainSide (ChainBody.ofDesc x) (t.desc (t.idx - 1)))).drop (t.tile - 1)
    | 3 => redTileRanges (RedBody.ofDesc x)
    | 4 => moveTiles (MoveBody.ofDesc x)
    | _ => []
  match (if descKind x = 2 then tiles else tiles.drop t.tile) with
  | r :: _ => ((pagesOf r.1).filter fun pg => decide (pg < 2 ^ 25)).map (pageKey t.ctx)
  | [] => []

/-- The managed pages of the tile that an issuing thread has come to are held (R92 step 2). -/
def Dev.holdTile (d : Dev) (k : Nat) : Dev :=
  let t := d.thread k
  if t.state = .issuing then d.setThread k { t with hold := d.tileHold t } else d

/-- A thread wins its engine (R111, R112): a fresh descriptor that could not be read ends with 0x04 (R91), one of an unknown kind ends with 0x01, one of another class and a CHECK of a
software context end with 0x02 (R101, R103). -/
def Dev.issueThread (d : Dev) (k : Nat) : Dev :=
  let d := d.resumeSaved (k / 256)
  let t := d.thread k
  let x := t.desc t.idx
  if !d.mayIssue k || d.frozen (k / 512) || !d.enginesOn k then d
  else if !t.begun && x == [] then d.descError k 0x04
  else if !t.begun && (descKind x == 0 || decide (7 < descKind x)) then d.issueError k 0x01
  else if !t.begun && (descClass x != t.cls || (descKind x == 5 && t.cls != 0)) then d.issueError k 0x02
  else d.placeThread k [d.profWords (descProfile x), d.profWords (descProfile (t.desc (t.idx + 1)))] d.tileHold

/-- A descriptor kind has preemption points (R110). -/
def preemptible (kind : Nat) : Bool := kind == 1 || kind == 2 || kind == 3 || kind == 4 || kind == 6

/-- An issuing thread is saved at a preemption point and counted (R111, R115, R400); it holds no page while it is saved. -/
def Dev.saveThread (d : Dev) (k : Nat) : Dev :=
  (d.setThread k { (d.thread k).count 2 1 with state := .preempted, hold := [] }).incU (Cnt.CLU_CNT_PREEMPT (k / 256))

/-- A holder gives its engine up at a preemption point, for a thread of a higher class that competes for it or at its hold limit (R110,
R111, R114). -/
def Dev.preempt (d : Dev) (k : Nat) (hold : Bool) : Dev :=
  let t := d.thread k
  let higher := d.threadsWith fun k' u => decide (u.cls < t.cls) && d.competes k' u && u.why != .room &&
    sharesEngine k t k' u [0, 1, 2, 3, 4]
  if t.state = .issuing ∧ t.cls ≠ 0 ∧ preemptible (descKind (t.desc t.idx)) ∧ (hold ∨ higher ≠ []) ∧
      !d.frozen (k / 512) then d.saveThread k
  else d

def execPreempt (cl : Fin 32) (th : Fin 256) (hold : Bool) (s : State) : Host.Outcome State Fault Refusal :=
  .next { s with dev := s.dev.preempt (threadKey cl th) hold }

def execHoldOverrun (cl : Fin 32) (s : State) : Host.Outcome State Fault Refusal :=
  .next { s with dev := s.dev.raise (Src.CLU_hold_overrun cl) }

/-- The cluster counter of output tiles of a class (R115). -/
def tilesCounter (cl cls : Nat) : Fld :=
  match cls with
  | 0 => Cnt.CLU_CNT_TILES_C cl
  | 1 => Cnt.CLU_CNT_TILES_A cl
  | _ => Cnt.CLU_CNT_TILES_G cl

/-- A queue entry frees and a stalled core hands its tile over; the stalled cycles count (R144). The entry is one that the thread's own
CHAIN leaves, or, where the thread has none, a free one of its class. The core then finishes the next tile of its MAT, if one is left; with
the last one the MAT has retired. -/
def Dev.ftqEntryFree (d : Dev) (k cycles : Nat) : Dev :=
  let t := d.thread k
  let per := tileEntries (MatBody.ofDesc (t.desc (t.idx - 1))).tile
  if t.qHeld = 0 ∨ (t.qEntries = 0 ∧ d.ftqFree (k / 256) t.cls < per) then d
  else
    let d := d.addU (Cnt.VEC_CNT_FTQ_STALL (k / 256)) cycles
    if t.qLeft = 0 then d.setThread k { t with qHeld := t.qHeld - 1, qEntries := max t.qEntries per }
    else
      let u := { t with qLeft := t.qLeft - 1, qEntries := max t.qEntries per }.count 3 1
      (d.setThread k (if t.qLeft = 1 then u.count 8 1 else u)).addU (tilesCounter (k / 256) t.cls) 1

def execFtqEntryFree (cl : Fin 32) (th : Fin 256) (cycles : Nat) (s : State) : Host.Outcome State Fault Refusal :=
  .next { s with dev := s.dev.ftqEntryFree (threadKey cl th) cycles }

/-! ### MAT -/

/-- An SRAM slice reports an error or a spared row (R393). -/
def Dev.sramUpset (d : Dev) (p : Nat) (u : SramUpset) : Dev :=
  match u with
  | .none => d
  | .uncorrectable => d.raise (Src.SRM_sram_ue p)
  | .spared => d.raise (Src.SRM_sram_spare p)
  | .spareOut => d.raise (Src.SRM_sram_spare_out p)

/-- Finished tiles enter the queue as far as the class's credit goes; the free cores hold one each of the others, and finish no more until an
entry frees (R142, R144). -/
def Dev.enqueue (d : Dev) (k : Nat) (dims : Nat × Nat) (tile : Nat) (cells : List (List Cell)) : Dev :=
  let t := d.thread k
  let cl := k / 256
  let per := tileEntries tile
  let n := tileCount tile dims.1 dims.2
  let fit := Nat.min n (d.ftqFree cl t.cls / per)
  let held := Nat.min (n - fit) (d.coresFree cl)
  d.setThread k { t with queue := cells, mdims := some dims, qEntries := fit * per, qHeld := held, qLeft := n - fit - held }

/-- The error that a CHAIN at an index of a thread's list ends with as it issues (R93, R101, R103, R151, R153): another class, a stage
block outside the managed pages, its stages and the coefficient sets valid at the issue, or a tile of more than 64 pages. dims is what the MAT before it makes. -/
def chainIssueError (t : Thread) (i : Nat) (dims : Option (Nat × Nat)) : Option Nat :=
  let x := t.desc i
  let b := ChainBody.ofDesc x
  let w := t.profs.getD (i - t.idx) (0, 0)
  if descClass x ≠ t.cls then some 0x02
  else if rangeError false [(b.stages, 8 * b.count)] then some 0x04
  else match chainError (Profile.ofWords w.1 w.2) b (t.stageList b) dims t.coefs with
    | some code => some code
    | none => if (chainTileRanges b (chainSide b (t.desc (i - 1)))).any fun r => decide (64 < (pagesOf r.1).length) then some 0x05 else none

/-- What a CHAIN writes for the first tiles of the MAT that issued with it (R145). -/
def Dev.queuedWrites (d : Dev) (t : Thread) (b : MatBody) (cells : List (List Cell)) (n : Nat) : Writes :=
  let cb := ChainBody.ofDesc (t.desc (t.idx + 1))
  let w := t.profs.getD 1 (0, 0)
  within (((matTiles b).take n).flatMap fun ij => chainOutRanges cb ij.1 ij.2)
    (chainWrites (d.ctxRead t.ctx) (Profile.ofWords w.1 w.2) (fun set i => d.coefWord set i) cb (t.stageList cb) cells)

/-- What the tiles that its MAT queued are in a CHAIN's tensors (R145). -/
def queuedTiles (t : Thread) (b : MatBody) (n : Nat) : List TileRanges :=
  ((matTiles b).take n).map fun ij => chainRegion (ChainBody.ofDesc (t.desc (t.idx + 1))) ij.1 ij.2

/-- A MAT that ended with an error leaves so many tiles to its CHAIN, which has the pages of some of them: they are processed, and the CHAIN
ends with the MAT's code (R145, R154). -/
def Dev.queueEnds (d : Dev) (k : Nat) (b : MatBody) (wrong : List WrongElem) (code m : Nat) : Dev :=
  let t := d.thread k
  let n := m * tileEntries b.tile
  let d := d.descWrites k (d.queuedWrites t b (spoilResult wrong (matResult (d.ctxRead t.ctx) t.profile b)) m)
  (((d.addU (Cnt.VEC_CNT_CHAIN_TILES (k / 256)) n).bump k [(4, n)]).incE (Cnt.VEC_CNT_VEC_ERR (k / 256))).accessError k code

/-- A MAT ends with an error after so many output tiles: those are in C, or, with ftq_out, its CHAIN processes them first, waiting for its
pages where it must (R91, R145). -/
def Dev.matStops (d : Dev) (k : Nat) (b : MatBody) (wrong : List WrongElem) (code n : Nat) : Dev :=
  let t := d.thread k
  let count (d : Dev) : Dev := (d.addU (tilesCounter (k / 256) t.cls) n).bump k [(3, n)]
  if b.ftqOut then
    match d.accessTiles k (queuedTiles t b n) 0 with
    | .blocked d => d.setThread k { d.thread k with tile := n }
    | .ok d => (count d).queueEnds k b wrong code n
    | .fail d _ m => (count d).queueEnds k b wrong code m
  else
    let ws := within (((matTileRanges t.profile b).take n).flatMap (·.2)) (matWrites (d.ctxRead t.ctx) t.profile b wrong)
    (count (d.descWrites k ws)).accessError k code

/-- A MAT on a thread of class A or G (R104, R109, R125 to R128, R140, R143); it waits while every core holds a finished tile (R144). An
error of the CHAIN that issued with it stops it before its first tile is done, and the command ends at the CHAIN (R145). -/
def Dev.mat (d : Dev) (k cycles : Nat) (wrong : List WrongElem) : Dev :=
  match d.current k 1 with
  | none => d
  | some x =>
    let t := d.thread k
    let p := t.profile
    let b := MatBody.ofDesc x
    if b.ftqOut && !takesTiles (t.desc (t.idx + 1)) then d.descError k 0x07
    else match matError p b with
      | some code => d.descError k code
      | none => match (if b.ftqOut then chainIssueError t (t.idx + 1) (some (b.m, b.n)) else none) with
        | some code => (d.setThread k { t with idx := t.idx + 1 }).chainFail k code
        | none =>
          if d.coresFree (k / 256) = 0 then d else
          match d.access k (matTileRanges p b) with
          | .fail d code n => d.matStops k b wrong code n
          | .blocked d => d
          | .ok d =>
            let rd := d.ctxRead t.ctx
            let n := tileCount b.tile b.m b.n
            let d1 := d.descWrites k (matWrites rd p b wrong)
            let d1 := if b.ftqOut then d1.enqueue k (b.m, b.n) b.tile (spoilResult wrong (matResult rd p b)) else d1
            let n := if b.ftqOut then n - (d1.thread k).qLeft else n
            let d1 := (d1.addU (tilesCounter (k / 256) t.cls) n).addU (Cnt.CLU_CNT_CORE_BUSY (k / 256)) cycles
            ((d1.bump k [(0, cycles), (3, n)]).retire k b.ftqOut).holdTile k

/-! ### CHAIN -/

/-- A vector engine or its queue reports an error (R154). -/
def Dev.vecUpset (d : Dev) (cl : Nat) (u : VecUpset) : Dev :=
  match u with
  | .none => d
  | .datapath => d.raise (Src.VEC_vec_datapath cl)
  | .queueEcc => d.raise (Src.VEC_ftq_ecc cl)

/-- The chain tiles of a CHAIN: a queue entry's region each (R155). -/
def chainTiles (t : Thread) (b : ChainBody) : Nat :=
  if b.ftqIn then
    let m := MatBody.ofDesc (t.desc (t.idx - 1))
    tileCount m.tile m.m m.n * tileEntries m.tile
  else ceilDiv b.m 128 * ceilDiv b.n 128

/-- A CHAIN (R109, R143, R146 to R153, R471). It acts once the cores have handed every tile of its MAT over (R144);
an access that fails ends it before that, and the tiles that its MAT has not finished are never finished (R145). -/
def Dev.chain (d : Dev) (k cycles : Nat) : Dev :=
  match d.current k 2 with
  | none => d
  | some x =>
    let t := d.thread k
    let b := ChainBody.ofDesc x
    let prev := t.desc (t.idx - 1)
    let tiles := chainTileRanges b (chainSide b prev)
    if b.ftqIn && !(t.idx != 0 && descKind prev == 1 && (MatBody.ofDesc prev).ftqOut) then d.chainFail k 0x07
    else match chainIssueError t t.idx t.mdims with
      | some code => d.chainFail k code
      | none =>
          let ws (d : Dev) : Writes :=
            chainWrites (d.ctxRead t.ctx) t.profile (fun set i => d.coefWord set i) b (t.stageList b) t.queue
          match d.access k (([(b.stages, 8 * b.count)], []) :: tiles) with
          | .fail d code n =>
            let d := (d.descWrites k (within ((tiles.take (n - 1)).flatMap (·.2)) (ws d))).addU (Cnt.VEC_CNT_VEC_BUSY (k / 256)) cycles
            ((d.addU (Cnt.VEC_CNT_CHAIN_TILES (k / 256)) (n - 1)).bump k [(0, cycles), (4, n - 1)]).chainFail k code
          | .blocked d => d
          | .ok d' =>
            if t.qHeld ≠ 0 then d else
            let d := d'
            let n := chainTiles t b
            let d1 := d.descWrites k (ws d)
            let d1 := (d1.addU (Cnt.VEC_CNT_VEC_BUSY (k / 256)) cycles).addU (Cnt.VEC_CNT_CHAIN_TILES (k / 256)) n
            let d1 := d1.bump k [(0, cycles), (4, n)]
            let d1 := d1.setThread k { d1.thread k with queue := [], mdims := none, qEntries := 0, qHeld := 0 }
            d1.retire k false

def execChain (cl : Fin 32) (th : Fin 256) (cycles : Nat) (u : VecUpset) (s : State) :
    Host.Outcome State Fault Refusal :=
  .next { s with dev := (s.dev.vecUpset cl u).chain (threadKey cl th) cycles }

/-! ### RED -/

/-- A reduction unit or its reference buffer reports an error (R159, R161). -/
def Dev.redUpset (d : Dev) (cl : Nat) (u : RedUpset) : Dev :=
  match u with
  | .none => d
  | .datapath => d.raise (Src.RED_red_datapath cl)
  | .refEcc => d.raise (Src.RED_ref_ecc cl)

/-- The bytes a digest RED covers (R160, R161). -/
def redDigested (rd : Nat → Nat) (b : RedBody) : Nat :=
  match Fmt.ofCode b.fmtIn with
  | some f => if b.op = 5 then ((List.range (redCount b)).map fun g => (redDigestBytes rd b f g).length).foldl (· + ·) 0 else 0
  | none => 0

/-- The bytes that a digest RED has covered after so many of its pieces (R160, R161). -/
def redPartBytes (b : RedBody) (n : Nat) : Nat :=
  match Fmt.ofCode b.fmtIn with
  | some f => if b.op = 5 then redElems b n * f.bits / 8 + (if f.isMx then redElems b n / 32 else 0) else 0
  | none => 0

/-- A RED (R157, R158, R160). One that fails at a piece counts what it reduced and digested before it (R161). -/
def Dev.red (d : Dev) (k cycles : Nat) : Dev :=
  match d.current k 3 with
  | none => d
  | some x =>
    let t := d.thread k
    let p := t.profile
    let b := RedBody.ofDesc x
    match redError p b with
    | some code => d.descError k code
    | none => match d.access k (redTileRanges b) with
      | .fail d code n =>
        let d := d.descWrites k (within (((redTileRanges b).take n).flatMap (·.2)) (redWrites (d.ctxRead t.ctx) p b))
        let d := d.addU (Cnt.RED_CNT_RED_TILES (k / 256)) (ceilDiv (redElems b n) 16384)
        ((d.addU (Cnt.RED_CNT_DIGEST_BYTES (k / 256)) (redPartBytes b n)).bump k [(0, cycles)]).accessError k code
      | .blocked d => d
      | .ok d =>
        let rd := d.ctxRead t.ctx
        let d1 := d.descWrites k (redWrites rd p b)
        let d1 := d1.addU (Cnt.RED_CNT_RED_TILES (k / 256)) (ceilDiv (b.m * b.n) 16384)
        let d1 := d1.addU (Cnt.RED_CNT_DIGEST_BYTES (k / 256)) (redDigested rd b)
        (d1.bump k [(0, cycles)]).retire k false

def execRed (cl : Fin 32) (th : Fin 256) (cycles : Nat) (u : RedUpset) (s : State) : Host.Outcome State Fault Refusal :=
  .next { s with dev := (s.dev.redUpset cl u).red (threadKey cl th) cycles }

/-! ### WAIT and SIGNAL (R107, R108) -/

/-- A WAIT's condition holds (R107). -/
def Dev.waitHolds (d : Dev) (c : Nat) (x : Desc) : Bool :=
  let v := Tab.getD (d.ctx c).sems (bits 0 8 (wd x 1)) 0
  if bits 8 2 (wd x 1) = 0 then decide (bits 32 32 (wd x 1) ≤ v) else v == bits 32 32 (wd x 1)

/-- A WAIT (R107, R108): it retires at once when its condition holds, or in a suspect's re-run (R380); else it blocks. -/
def Dev.wait (d : Dev) (k : Nat) : Dev :=
  match d.current k 6 with
  | none => d
  | some x =>
    let t := d.thread k
    if 1 < bits 8 2 (wd x 1) then d.descError k 0x07
    else if t.replay || d.waitHolds t.ctx x then d.retire k false
    else d.setThread k { t with state := .blocked, why := .wait }

def execWait (cl : Fin 32) (th : Fin 256) (s : State) : Host.Outcome State Fault Refusal :=
  .next { s with dev := s.dev.wait (threadKey cl th) }

/-- A WAIT still false at its timeout ends its command with 0x0A; a timeout of 0 has no limit (R107, R108). -/
def Dev.waitTimeout (d : Dev) (k : Nat) : Dev :=
  let t := d.thread k
  let x := t.desc t.idx
  if t.state = .blocked ∧ t.why = .wait ∧ bits 0 32 (wd x 2) ≠ 0 ∧ !d.waitHolds t.ctx x then d.descError k 0x0A else d

def execWaitTimeout (cl : Fin 32) (th : Fin 256) (s : State) : Host.Outcome State Fault Refusal :=
  .next { s with dev := s.dev.waitTimeout (threadKey cl th) }

/-- Every waiting WAIT of a context is evaluated again; those whose condition holds retire (R108). -/
def Dev.wakeWaits (d : Dev) (c : Nat) : Dev :=
  (d.threadsWith fun _ t => t.cls != 0 && t.ctx == c && t.state == .blocked && t.why == .wait).foldl
    (fun d k => if d.waitHolds c ((d.thread k).desc (d.thread k).idx) then d.retire k false else d) d

/-- A semaphore changed (R107, R108): op 0 adds modulo 2^32, op 1 sets. -/
def Dev.semaphore (d : Dev) (c sem op value : Nat) : Dev :=
  let x := d.ctx c
  let v := Tab.getD x.sems sem 0
  let v' := if op = 0 then (v + value) % 2 ^ 32 else value % 2 ^ 32
  (d.setCtx c { x with sems := Tab.set x.sems sem 0 v' }).wakeWaits c

/-! ### Coefficient sets and the profile window (R129, R130, R153, R154) -/

/-- The result of the last action on a VEC page. -/
def Dev.coefResult (d : Dev) (cl code : Nat) : Dev := d.put (Reg.VEC_COEF_STATUS_result cl) code

/-- A thread that has issued a CHAIN, alone or with its MAT, names a coefficient set in one of its stages (R153). -/
def Dev.namesSet (d : Dev) (set : Nat) : Bool :=
  d.threadsWith (fun _ t =>
    let x := t.desc t.idx
    let b := ChainBody.ofDesc (if descKind x = 1 then t.desc (t.idx + 1) else x)
    t.begun && t.stages != [] &&
      (t.stageList b).any fun s => decide (0x20 ≤ s.op) && decide (s.op ≤ 0x25) && s.aux == set) != []

/-- The coefficient sets that a requester may write (R153, R154): the host 6 and 7, the management core pair 1 to 5. -/
def coefWritable (who : Requester) (set : Nat) : Bool :=
  match who with
  | .host => decide (6 ≤ set)
  | .pair => decide (1 ≤ set) && decide (set ≤ 5)
  | _ => false

/-- A write of a coefficient word (R153, R154). -/
def Dev.coefData (d : Dev) (who : Requester) (cl v : Nat) : Dev :=
  let set := d.get (Reg.VEC_COEF_SEL_set cl)
  let i := d.get (Reg.VEC_COEF_SEL_index cl)
  if !coefWritable who set then d.coefResult cl 0x01
  else if bitAt set d.coefValid then d.coefResult cl 0x02
  else
    let w := if i % 2 = 1 then v % 2 ^ 32 else v
    let d := { d with comp := { d.comp with coef := Tab.set d.comp.coef (set * 2048 + i) 0 w } }
    (d.put (Reg.VEC_COEF_SEL_index cl) ((i + 1) % 2048)).coefResult cl 0x00

def execCoefDataWrite (cl : Fin 32) (v : Word) (s : State) : Host.Outcome State Fault Refusal :=
  .next { s with dev := s.dev.ifWritable (vecPage cl) fun d => d.coefData .host cl v.toNat }

/-- commit: the selected set becomes valid in every engine (R153, R154). -/
def Dev.coefCommit (d : Dev) (who : Requester) (cl : Nat) : Dev :=
  let set := d.get (Reg.VEC_COEF_SEL_set cl)
  if !coefWritable who set then d.coefResult cl 0x01
  else (d.setBitOf (Reg.VEC_COEF_STATUS_valid 0) set).coefResult cl 0x00

def execCoefCommit (cl : Fin 32) (s : State) : Host.Outcome State Fault Refusal :=
  .next { s with dev := s.dev.ifWritable (vecPage cl) fun d => d.coefCommit .host cl }

/-- invalidate: at once when no issued CHAIN names the set, else it waits (R153, R154). -/
def Dev.coefInvalidate (d : Dev) (who : Requester) (cl : Nat) : Dev :=
  let set := d.get (Reg.VEC_COEF_SEL_set cl)
  if !coefWritable who set then d.coefResult cl 0x01
  else if d.namesSet set then
    ({ d with comp := { d.comp with invalidating := d.comp.invalidating ++ [set * 32 + cl] } }).coefResult cl 0x03
  else (d.clrBitOf (Reg.VEC_COEF_STATUS_valid 0) set).coefResult cl 0x00

def execCoefInvalidate (cl : Fin 32) (s : State) : Host.Outcome State Fault Refusal :=
  .next { s with dev := s.dev.ifWritable (vecPage cl) fun d => d.coefInvalidate .host cl }

/-- The last CHAIN that named a set has retired: a waiting invalidation is done (R153). -/
def Dev.invalidationDone (d : Dev) (set : Nat) : Dev :=
  let w := d.comp.invalidating.filter fun e => e / 32 == set
  if w = [] ∨ d.namesSet set then d
  else
    let d := { d with comp := { d.comp with invalidating := d.comp.invalidating.filter fun e => e / 32 != set } }
    w.foldl (fun d e => d.coefResult (e % 32) 0x00) (d.clrBitOf (Reg.VEC_COEF_STATUS_valid 0) set)

def execInvalidationDone (set : Fin 8) (s : State) : Host.Outcome State Fault Refusal :=
  .next { s with dev := s.dev.invalidationDone set }

/-- A write of DEV_PROF_SEL selects an entry and discards a staged word 0 (R130). -/
def Dev.profSelect (d : Dev) (e : Nat) : Dev :=
  ({ d with comp := { d.comp with staged := none } }).put Reg.DEV_PROF_SEL_entry e

def execProfSelWrite (e : Fin 256) (s : State) : Host.Outcome State Fault Refusal :=
  .next { s with dev := s.dev.profSelect e }

/-- Word 0 of an entry without its reserved bits (R130). -/
def profMask0 (v : Nat) : Nat := bits 40 24 v * 2 ^ 40 + bits 32 4 v * 2 ^ 32 + bits 19 13 v * 2 ^ 19

/-- Word 1 of an entry without its reserved bits; mode 3 acts as 0 (R130). -/
def profMask1 (v : Nat) : Nat :=
  (if bits 62 2 v = 3 then 0 else bits 62 2 v) * 2 ^ 62 + bits 48 8 v * 2 ^ 48 + bits 0 16 v

/-- A write of DEV_PROF_W0 stages word 0 (R130). -/
def Dev.profStage (d : Dev) (v : Nat) : Dev := { d with comp := { d.comp with staged := some (profMask0 v) } }

def execProfW0Write (v : Word) (s : State) : Host.Outcome State Fault Refusal :=
  .next { s with dev := s.dev.profStage v.toNat }

/-- An entry of the profile table set, with its source (R130). -/
def Dev.setProfile (d : Dev) (e w0 w1 source : Nat) : Dev :=
  { d with comp := { d.comp with profiles := Tab.insert e ⟨w0, w1, source⟩ (Tab.erase e d.comp.profiles) } }

/-- A write of DEV_PROF_W1 installs, or is refused with 0x01, 0x03 or 0x02, tested in that order; word 0 stays staged after a refusal (R130,
log entry 54). -/
def Dev.profInstall (d : Dev) (v : Nat) : Dev :=
  let e := d.get Reg.DEV_PROF_SEL_entry
  if e < 128 then d.put Reg.DEV_PROF_STATUS_result 0x01
  else match d.comp.staged with
    | none => d.put Reg.DEV_PROF_STATUS_result 0x03
    | some w0 =>
      if profileOutOfRange w0 v then d.put Reg.DEV_PROF_STATUS_result 0x02
      else
        (({ d with comp := { d.comp with staged := none } }).setProfile e w0 (profMask1 v) 2).put
          Reg.DEV_PROF_STATUS_result 0x00

def execProfInstall (v : Word) (s : State) : Host.Outcome State Fault Refusal :=
  .next { s with dev := s.dev.profInstall v.toNat }

end Sys2Proof.Machine
end

