-- ==== Sys2Proof/Machine/Partition.lean ====
section
/-! DEFINITION. Partitions: hangs (R374), partition and tile resets (R375, R376, R465, R466), escalation (R377 to R379) and
the search for the guilty context (R380, R381). -/

namespace Sys2Proof.Machine

/-! ### What a reset does to a page (R465) -/

/-- The registers of a page that a reset returns to their reset values: counters, the snapshot, and the RO and W1C fields of
the block-specific registers, but for those kept. -/
def Dev.resetPage (d : Dev) (pg : Nat) (keep : List Fld) : Dev :=
  let base := pg * 0x1000
  let cnt := (List.range 16).map fun i => base + 0x80 + 8 * i
  let status := ((pageBlock pg).map blockRows).getD [] |>.filterMap fun r =>
    if 0x100 ≤ r.off ∧ (r.acc = .ro ∨ r.acc = .w1c) then some ((base + r.off) * 64 + r.lo) else none
  let kept := keep.map Fld.key
  { d with
    regs := d.regs.filter fun e => !(cnt.contains (e.1 / 64)) && (!(status.contains e.1) || kept.contains e.1)
    snaps := Tab.erase pg d.snaps }

/-- The counters of a page and their snapshot read zero (R465). -/
def Dev.clearCounters (d : Dev) (pg : Nat) : Dev :=
  let cnt := (List.range 16).map fun i => pg * 0x1000 + 0x80 + 8 * i
  { d with regs := d.regs.filter fun e => !(cnt.contains (e.1 / 64)), snaps := Tab.erase pg d.snaps }

/-- The fields of a partition that show what is built in or was found, which a reset does not lose (R86, R153). -/
def partKeeps (p : Nat) : List Fld :=
  [2 * p, 2 * p + 1].flatMap fun c =>
    [Reg.CLU_CORE_MAP_failed c, Reg.CLU_CORE_MAP_spare c, Reg.CLU_CORE_MAP_active c, Reg.VEC_COEF_STATUS_valid c]

/-- The pages of a partition whose registers its own reset returns (R465): all but PRT and MON. -/
def partResetPages (p : Nat) : List Nat := (partPages p).filter fun pg => pg % 16 != 0 && pg % 16 != 9

/-! ### The start of a partition reset (R376, R377, R466) -/

/-- A partition's part of escalation. -/
def Dev.part (d : Dev) (p : Nat) : PartSt := Tab.getD d.parts p PartSt.reset

/-- A partition's part of escalation set. -/
def Dev.setPart (d : Dev) (p : Nat) (x : PartSt) : Dev := { d with parts := Tab.set d.parts p PartSt.reset x }

/-- A source with reaction 2 is set on a page of the partition. -/
def Dev.faulted (d : Dev) (p : Nat) : Bool := (partPages p).any fun pg => d.statusWith pg 2

/-- What a partition reset does to a managed page of the partition (R466): kept, dropped to its other copy, or lost. -/
def resetPageEnt (p : Nat) (discard : Bool) (e : PageEnt) : Option PageEnt :=
  if e.part ≠ p then some e
  else match e.at_ with
    | .host => some e
    | .lpd => if discard then none else some e
    | .sram =>
      match e.lower, e.dirty with
      | some .lpd, false => if discard then none else some { e with at_ := .lpd, lower := none, pinned := false }
      | some l, false => some { e with at_ := l, lower := none, pinned := false }
      | _, _ => none

/-- The managed pages of a resetting partition (R466): the contexts with a lost page are fenced and ctx_lost is raised. -/
def Dev.resetPages (d : Dev) (p : Nat) (discard : Bool) : Dev :=
  let lost := ((d.comp.pages.filter fun e => (resetPageEnt p discard e.2).isNone).map fun e => keyCtx e.1).eraseDups
  let d := d.setPages (d.comp.pages.filterMap fun e => (resetPageEnt p discard e.2).map fun x => (e.1, x))
  let d := lost.foldl Dev.fenceCtx d
  if lost = [] then d else d.raise (Src.PRT_ctx_lost p)

/-- The sources of a partition that a reset starting now covers (R367). -/
def Dev.coverFaults (d : Dev) (p : Nat) : Dev :=
  (partPages p).foldl (fun d pg =>
    let m := Tab.getD d.unreset pg 0
    { d with unreset := Tab.erase pg d.unreset, clearing := Tab.set d.clearing pg 0 (m ||| Tab.getD d.clearing pg 0) }) d

/-- The phases of a partition reset start (R376): the controller takes its points (R315), everything on the partition ends, its SRAM is
lost, and its LPDDR4X when the cause was on the LPD page. -/
def Dev.beginReset (d : Dev) (p : Nat) (counts : Bool) : Dev :=
  let d := d.points 8 6 1000
  let discard := d.statusWith (0x101 + 16 * p) 2
  let x := d.part p
  let d := d.setPart p { x with counts := counts, discard := discard }
  let d := ((d.endPartition p).put (Reg.PRT_STATUS_state p) 2).coverFaults p
  let d := (partPages p).foldl (fun d pg =>
    let d := d.put (Reg.PAGE_STATUS_reset_active pg) 1
    if d.flag (Reg.PAGE_STATUS_draining pg) then
      ({ d with drains := Tab.erase pg d.drains }).put (Reg.PAGE_STATUS_draining pg) 0 else d) d
  let d := { d with stop := { d.stop with deferred := d.stop.deferred.filter (· != p) } }
  let d := if d.frozen p then
      let d := d.clrBitOf Reg.DBG_STOP_STATUS_frozen p
      if d.get Reg.DBG_STOP_STATUS_frozen = 0 then d.putB Reg.DBG_STOP_STATUS_state (d.flag Reg.DBG_STOP_CTRL_arm) else d
    else d
  let d := ((d.resetPages p discard).loseSram p).losePack p
  if discard then d.loseLpd p else d

/-- A partition reset is asked for (R376, R377): nothing while one runs or when the partition is out of service. A reset that
a source with reaction 2 started, on a partition that is not frozen and not in a search, counts; the one that reaches the
limit takes the partition out of service. -/
def Dev.resetPartition (d : Dev) (p : Nat) : Dev :=
  let st := d.partState p
  if st = 2 ∨ st = 4 then d
  else if d.faulted p ∧ st ≠ 3 ∧ !d.frozen p then
    let x := d.part p
    let now := secOf d.time
    let recent := x.counted.filter fun t => decide (now < t + d.get (Reg.PRT_CTRL_window_s p))
    if d.get (Reg.PRT_CTRL_limit p) ≤ recent.length + 1 then d.partOut p 1
    else
      let d := d.setPart p { x with counted := recent ++ [now] }
      let d := (d.put (Reg.PRT_STATUS_resets p) (recent.length + 1)).incE (Cnt.PRT_CNT_PART_RESET p)
      d.beginReset p true
  else
    let d := if st = 3 then d.put (Reg.PRT_REPLAY_result p) 0x04 else d
    let d := if st = 3 then d.setPart p { d.part p with search := [], hangReset := false } else d
    d.beginReset p false

/-- Firmware starts the reset of a partition in safe state (R472). -/
def Dev.autoReset (d : Dev) (p : Nat) : Dev :=
  if d.partState p = 1 ∧ d.flag (Reg.PRT_CTRL_auto_reset p) then d.resetPartition p else d

def execAutoReset (p : Fin 16) (s : State) : Host.Outcome State Fault Refusal :=
  .next { s with dev := s.dev.autoReset p }

/-- Firmware resets a tile's eight partitions together, while the other tile is in service (R375); each counts one reset. -/
def Dev.tileReset (d : Dev) (t : Nat) : Dev :=
  if (List.range 8).any fun i => d.partState (8 * (1 - t) + i) == 0 then
    (List.range 8).foldl (fun d i => d.resetPartition (8 * t + i)) d
  else d

def execTileReset (t : Fin 2) (s : State) : Host.Outcome State Fault Refusal := .next { s with dev := s.dev.tileReset t }

/-- PRT_CTRL.retire: the host takes the partition out of service (R377). -/
def execPartitionRetire (p : Fin 16) (s : State) : Host.Outcome State Fault Refusal :=
  .next { s with dev := s.dev.partOut p 7 }

/-- After the DECIDE that a second partition out of service led to, or after 2 ms (R379). -/
def Dev.twoOutWait (d : Dev) : Dev := if d.twoOut then ({ d with twoOut := false }).raise Src.FLT_two_out else d

def execTwoOutWait (s : State) : Host.Outcome State Fault Refusal := .next { s with dev := s.dev.twoOutWait }

/-! ### Hangs (R374, R392) -/

/-- The code of an engine in PRT_HANG. -/
def engineCode : Engine → Nat
  | .core => 0 | .vec => 1 | .red => 2 | .control => 3 | .move => 4 | .lpddr => 5

/-- A thread's present descriptor is of a kind an engine runs. -/
def engineRuns (e : Engine) (t : Thread) : Bool :=
  let kind := descKind (t.desc t.idx)
  match e with
  | .core => kind == 1
  | .vec => kind == 2
  | .red => kind == 3 || kind == 5
  | .control => true
  | .move => kind == 4
  | .lpddr => false

/-- A thread is involved in a hang of an engine of a cluster (R380): issuing on it, saved from it, or holding finished
tiles on it. -/
def suspected (e : Engine) (t : Thread) : Bool :=
  ((t.state == .issuing || t.state == .preempted || (t.state == .ready && t.begun)) && engineRuns e t) || (t.state != .idle && t.qEntries != 0)

/-- The engine holds accepted work (R374): a thread issues on it, or LPDDR4X has a fill outstanding. -/
def Dev.engineBusy (d : Dev) (p cl : Nat) (e : Engine) : Bool :=
  match e with
  | .lpddr => d.comp.fills.any fun f => ((d.pageEnt (pageKey f.ctx f.page)).map fun x => x.part == p) == some true
  | .move => d.threadsWith (fun k t => k / 512 == p && t.state == .issuing && engineRuns e t) != []
  | _ => d.threadsWith (fun k t => k / 256 == cl && t.state == .issuing && engineRuns e t) != []

/-- The suspects of a hang in their order, eight at most (R380): class, then context number; a class C task goes by its
number. -/
def Dev.suspects (d : Dev) (p cl : Nat) (e : Engine) : List Suspect :=
  let ks := d.threadsWith fun k t =>
    (if e = .move ∨ e = .lpddr then k / 512 == p else k / 256 == cl) && suspected e t
  let all := (ks.map fun k => let t := d.thread k
    ({ cls := t.cls, ctx := if t.cls = 0 then t.task else t.ctx, gen := t.gen, list := t.list, guilty := none } : Suspect))
  let sorted := all.mergeSort fun a b => decide (a.cls * 2 ^ 32 + a.ctx ≤ b.cls * 2 ^ 32 + b.ctx)
  (sorted.foldl (fun acc s => if acc.any fun x => x.cls == s.cls && x.ctx == s.ctx then acc else acc ++ [s]) []).take 8

/-- PRT_HANG takes a hang (R392). -/
def Dev.recordHang (d : Dev) (p cl unit : Nat) (e : Engine) (n : Nat) : Dev :=
  ((((d.put (Reg.PRT_HANG_valid p) 1).put (Reg.PRT_HANG_suspects p) n).put (Reg.PRT_HANG_cluster p) cl).put
    (Reg.PRT_HANG_unit p) (if e = .core then unit else 31)).put (Reg.PRT_HANG_engine p) (engineCode e)

/-! ### The search (R380, R381) -/

/-- The hardware thread on which a suspect's command runs again: thread 32 of the cluster that hung. -/
def Dev.searchThread (d : Dev) (p : Nat) : Nat := threadKey (d.get (Reg.PRT_HANG_cluster p)) 32

/-- The next suspect without a verdict runs its command from the first descriptor, its writes suppressed (R380). -/
def Dev.runSuspect (d : Dev) (p : Nat) : Dev :=
  match (d.part p).search.find? fun s => s.guilty.isNone with
  | none => d
  | some s =>
    if s.cls = 0 then d
    else d.setThread (d.searchThread p) { Thread.reset with
      state := .ready, cls := s.cls, ctx := s.ctx, gen := s.gen, list := s.list, replay := true
      counters := (d.thread (d.searchThread p)).counters }

/-- Firmware clears the status bits with reaction 2 on the partition's pages (R392 auto_reset). -/
def Dev.clearReaction2 (d : Dev) (p : Nat) : Dev :=
  (partPages p).foldl (fun d pg =>
    (d.clearFaults pg (((List.range 32).filter fun i => d.reactOf ⟨pg, i⟩ == 2).foldl setBit 0))) d

/-- The search ends with its result (R381). -/
def Dev.endSearch (d : Dev) (p : Nat) : Dev :=
  let x := d.part p
  let guilty := x.search.filter fun s => s.guilty == some true && s.cls != 0
  let d := d.setPart p { x with search := [], hangReset := false }
  let d := match guilty with
    | [] => d.put (Reg.PRT_REPLAY_result p) 0x03
    | g :: _ =>
      let d := ((d.put (Reg.PRT_REPLAY_result p) 0x02).put (Reg.PRT_REPLAY_class p) g.cls).put (Reg.PRT_REPLAY_ctx p) g.ctx
      let d := guilty.foldl (fun (d : Dev) (s : Suspect) => d.fenceCtx s.ctx) d
      let d := d.setPart p { d.part p with counted := (d.part p).counted.dropLast }
      let d := d.put (Reg.PRT_STATUS_resets p) (d.get (Reg.PRT_STATUS_resets p) - 1)
      let h := d.healthOf 8
      let d := { d with health := Tab.set d.health 8 Health.reset (d.standing { h with points := h.points - 1000 * 65536 }) }
      d.raise (Src.PRT_replay_found p)
  let d := (d.put (Reg.PRT_STATUS_state p) 1).setBitOf Reg.FLT_DEV_STATUS_part_safe p
  (d.clearFaults (0x100 + 16 * p) 1).settleDev

/-- The suspect under test has a verdict (R380): a guilty run resets the partition again, without counting; after the last
suspect the search ends. -/
def Dev.suspectVerdict (d : Dev) (p : Nat) (guilty : Bool) : Dev :=
  let x := d.part p
  match x.search.findIdx? fun s => s.guilty.isNone with
  | none => d
  | some i =>
    let search := x.search.mapIdx fun j s => if j = i then { s with guilty := some guilty } else s
    let d := d.setPart p { x with search := search }
    let d := (d.incU (Cnt.PRT_CNT_REPLAY_RUNS p)).put (Reg.PRT_REPLAY_replayed p) (d.get (Reg.PRT_REPLAY_replayed p) + 1)
    let d := d.freeThread (d.searchThread p)
    if guilty then ((d.latchSrc (Src.PRT_engine_hang p) false).incE (Cnt.PRT_CNT_HANG p)).beginReset p false
    else if search.all fun s => s.guilty.isSome then d.endSearch p
    else d.runSuspect p

/-- A progress watchdog reaches hang_ms (R374): an engine that holds work, on a partition in service that is not frozen. In a
search it is the verdict on the suspect (R380). -/
def Dev.engineHang (d : Dev) (p half unit : Nat) (e : Engine) : Dev :=
  let cl := 2 * p + half
  if d.frozen p then d
  else if d.partState p = 3 then d.suspectVerdict p true
  else if d.partState p ≠ 0 ∨ !d.engineBusy p cl e then d
  else
    let ss := d.suspects p cl e
    let d := (d.recordHang p cl unit e ss.length).incE (Cnt.PRT_CNT_HANG p)
    let d := d.setPart p { d.part p with hangReset := true, search := ss }
    d.raise (Src.PRT_engine_hang p)

def execEngineHang (p : Fin 16) (half : Fin 2) (unit : Fin 17) (e : Engine) (s : State) :
    Host.Outcome State Fault Refusal :=
  .next { s with dev := s.dev.engineHang p half unit e }

/-- A partition clock loses lock (R392). -/
def execClkFault (p : Fin 16) (s : State) : Host.Outcome State Fault Refusal :=
  .next { s with dev := s.dev.raise (Src.PRT_clk_fault p) }

/-- The command of the suspect under test may end: its thread has run its list, or its command ended with an error; a class C
suspect has no list of the context's. -/
def Dev.suspectDone (d : Dev) (p : Nat) : Bool :=
  let t := d.thread (d.searchThread p)
  match (d.part p).search.find? fun s => s.guilty.isNone with
  | none => false
  | some s => s.cls == 0 || t.state == .idle || decide (t.list.length ≤ t.idx)

/-- A suspect's re-run ends, or hangs again (R380). -/
def Dev.suspectRunEnd (d : Dev) (p : Nat) (hung : Bool) : Dev :=
  if d.partState p = 3 ∧ (hung ∨ d.suspectDone p) then d.suspectVerdict p hung else d

def execSuspectRunEnd (p : Fin 16) (hung : Bool) (s : State) : Host.Outcome State Fault Refusal :=
  .next { s with dev := s.dev.suspectRunEnd p hung }

/-- replay_ms elapses on a suspect's re-run: it is innocent (R380). -/
def execReplayMs (p : Fin 16) (s : State) : Host.Outcome State Fault Refusal :=
  .next { s with dev := if s.dev.partState p = 3 then s.dev.suspectVerdict p false else s.dev }

/-! ### The end of a partition reset (R79, R80, R376, R465) -/

/-- The failed cores of a cluster are applied (R79, R87): one active core is replaced by the idle spare; the answer says
whether the partition must leave service. -/
def Dev.applyCores (d : Dev) (cl failed : Nat) : Dev × Bool :=
  let active := d.get (Reg.CLU_CORE_MAP_active cl)
  let spare := d.get (Reg.CLU_CORE_MAP_spare cl)
  let bad := (List.range 17).filter fun i => bitAt i failed && bitAt i active
  let spareBad := decide (spare < 17) && bitAt spare failed
  let d := d.put (Reg.CLU_CORE_MAP_failed cl) (d.get (Reg.CLU_CORE_MAP_failed cl) ||| failed)
  let d := if spareBad then (d.put (Reg.CLU_CORE_MAP_spare cl) 31).raise (Src.CLU_core_fail cl) else d
  match bad with
  | [] => (d, false)
  | [i] =>
    if spare < 17 ∧ !spareBad then
      let d := (d.put (Reg.CLU_CORE_MAP_active cl) (setBit (clrBit active i) spare)).put (Reg.CLU_CORE_MAP_spare cl) 31
      (d.setBitOf Reg.BOOT_RESULT_part_degraded (cl / 2), false)
    else (d, true)
  | _ => (d, true)

/-- The findings of the built-in tests are applied to a partition (R79). -/
def Dev.applyFindings (d : Dev) (p : Nat) (f : Findings) : Dev :=
  let (d, out0) := d.applyCores (2 * p) f.core0.toNat
  let (d, out1) := d.applyCores (2 * p + 1) f.core1.toNat
  let d := if f.spared then d.setBitOf Reg.BOOT_RESULT_part_degraded p else d
  if out0 || out1 || f.datapath || f.beyond then (d.setBitOf Reg.BOOT_RESULT_part_out p).partOut p 5 else d

/-- The MT/s of a rate. -/
def rateOf : DdrRate → Nat
  | .r4266 => 4266 | .r3733 => 3733 | .r3200 => 3200 | .failed => 0

/-- A partition's four channels have trained, or lpd_retrain_fail is raised (R80, R394). -/
def Dev.ddrTrained (d : Dev) (p : Nat) (r : DdrRate) : Dev :=
  match r with
  | .failed => d.raise (Src.LPD_lpd_retrain_fail p)
  | _ => (d.put (Reg.LPD_STATUS_rate p) (rateOf r)).put (Reg.LPD_STATUS_trained p) 15

/-- A partition reset ends (R376): its pages return to reset values, findings and training are applied, its counted faults
may be cleared, and it returns to service, to the search, or stays in safe state. -/
def Dev.partitionResetDone (d : Dev) (p : Nat) (f : Findings) (r : DdrRate) : Dev :=
  if d.partState p ≠ 2 then d
  else
    let x := d.part p
    let d := (partResetPages p).foldl (fun d pg => d.resetPage pg (partKeeps p)) d
    let d := (partPages p).foldl (fun d pg => d.put (Reg.PAGE_STATUS_reset_active pg) 0) d
    let d := (partPages p).foldl (fun d pg => { d with clearing := Tab.erase pg d.clearing }) d
    let d := (d.applyFindings p f).ddrTrained p r
    if d.partState p = 4 then d
    else if x.hangReset ∧ d.flag (Reg.PRT_CTRL_replay p) ∧ x.search ≠ [] ∧ !d.silent then
      let first := x.search.all fun s => s.guilty.isNone
      let d := d.put (Reg.PRT_STATUS_state p) 3
      let d := if first then ((d.put (Reg.PRT_REPLAY_result p) 0x01).put (Reg.PRT_REPLAY_replayed p) 0).put
        (Reg.PRT_REPLAY_class p) 0 |>.put (Reg.PRT_REPLAY_ctx p) 0 else d
      if x.search.all fun s => s.guilty.isSome then d.endSearch p else d.runSuspect p
    else
      let d := d.setPart p { d.part p with hangReset := false, search := [] }
      let d := if d.get (Reg.PRT_REPLAY_result p) = 0x01 then d.put (Reg.PRT_REPLAY_result p) 0x04 else d
      let d := ((d.put (Reg.PRT_STATUS_state p) 1).setBitOf Reg.FLT_DEV_STATUS_part_safe p).settleDev
      let d := if d.flag (Reg.PRT_CTRL_auto_reset p) then d.clearReaction2 p else d
      d.leaveSafe p

def execPartitionResetDone (p : Fin 16) (f : Findings) (r : DdrRate) (s : State) : Host.Outcome State Fault Refusal :=
  .next { s with dev := s.dev.partitionResetDone p f r }

end Sys2Proof.Machine
end

