-- ==== Sys2Proof/Machine/Stage.lean ====
section
/-! DEFINITION. The stages of power-up (R65, R66, R85): entering, ending and halting one, the host-wait time, the end of an
object of the loader page (R70, R72), and the restart of the sequence (R67, R465). -/

namespace Sys2Proof.Machine

/-! ### Host-wait time (R66) -/

/-- Host-wait time begins. -/
def Dev.waitStart (d : Dev) : Dev :=
  if d.boot.waitFrom.isNone then { d with boot := { d.boot with waitFrom := some d.nowUs } } else d

/-- Host-wait time ends. -/
def Dev.waitEnd (d : Dev) : Dev :=
  match d.boot.waitFrom with
  | some t => { d with boot := { d.boot with waitFrom := none, hostUs := d.boot.hostUs + (d.nowUs - t) } }
  | none => d

/-- BOOT_ELAPSED (R66, R85): host-wait time, and the time from both feeds good less host-wait and held time, in ms; both stop
when stage 0xA is reached. -/
def Dev.elapsed (d : Dev) : Nat × Nat :=
  let now := d.boot.ended.getD d.nowUs
  let host := d.boot.hostUs + (match d.boot.waitFrom with | some t => now - t | none => 0)
  let held := d.boot.heldUs + (match d.boot.heldAt with | some t => now - t | none => 0)
  (host / 1000, (now - d.boot.start - host - held) / 1000)

/-! ### The loader page (R70, R72) -/

/-- An object ends with a result (R70, R72): done, and for every result but 0x00 the count and object_refused; the staged bytes
are cleared. -/
def Dev.fwlEnd (d : Dev) (result : Nat) : Dev :=
  let d := { d with boot := { d.boot with fetch := none } }
  let d := ((d.put Reg.FWL_STATUS_busy 0).put Reg.FWL_STATUS_done 1).put Reg.FWL_STATUS_result result
  if result = 0x00 then d else (d.incE Cnt.FWL_CNT_FWL_REFUSED).raise Src.FWL_object_refused

/-- A fetch of an object of a type is in progress. -/
def Dev.fetching (d : Dev) (obj : Nat) : Bool := (d.boot.fetch.map fun f => f.obj == obj) == some true

/-! ### Stages -/

/-- The last stage that ran, when the sequence is held or halted in stage 0xF (log entry 37). -/
def Dev.ranStage (d : Dev) : Nat := if d.stage = 0xF then d.boot.heldFrom else d.stage

/-- The sequence halts in stage 0xF with an error (R65, R85). -/
def Dev.halt (d : Dev) (error : Nat) : Dev :=
  let d : Dev := { d with boot := { d.boot with heldFrom := d.ranStage } }
  (((d.waitEnd).put Reg.BOOT_STATUS_error error).put Reg.BOOT_STATUS_stage 0xF).put Reg.AON_IDLE_STATUS_state 0

/-- The identity of the controller holds in its plan (R272). -/
def Dev.identityHolds (d : Dev) (p : PlanInfo) : Bool :=
  decide (d.pwr.traySlot ≤ 17) && match p.trays[d.pwr.traySlot]? with
    | some (serial, role, _) => serial == Config.serial && role != 0
    | none => false

/-- A stage is entered (R65, R66, R79, R82, R350, R451): a port whose lanes all failed their tests shows state 7 until disc_wait has passed (log
entry 54). With no firmware to check any more, stage 0x1 waits again (log entry 37). -/
def Dev.enterStage (d : Dev) (n : Nat) : Dev :=
  let d := d.put Reg.BOOT_STATUS_stage n
  if n = 2 ∧ !d.fetching 1 then (d.put Reg.BOOT_STATUS_stage 1).waitStart
  else if n = 5 then
    let d := { d with boot := { d.boot with pack3 := none } }
    if d.pwr.vddqDrop then
      ((List.range 16).foldl (fun d p => (d.setBitOf Reg.BOOT_RESULT_part_out p).partOut p 5) d).halt 0x41
    else d
  else if n = 6 then
    let d := (List.range 40).foldl Dev.trainPort d
    (List.range 64).foldl (fun d l =>
      if bitAt l d.boot.laneFail then
        let i := if l < 32 then l / 4 else l - 24
        let d := d.setPort i { d.port i with lanes := Tab.set (d.port i).lanes (if l < 32 then l % 4 else 0) 0 3 }
        if (portLanes i).all fun l => Tab.getD (d.port i).lanes l 0 == 3 then
          (d.put (Reg.PORT_STATUS_state i) 7).put (Reg.PAGE_STATUS_reset_active (0x090 + i)) 0
        else d
      else d) d
  else if n = 7 then
    match d.boot.plan with
    | none => d.waitStart
    | some p => if d.identityHolds p then d else d.halt 0x71
  else if n = 8 then
    if [0, 4, 5].contains (d.get Reg.TIME_STATUS_state) then
      { d.put Reg.TIME_STATUS_state 1 with clock := { d.clock with rackGood := none, podGood := none, integ := 0 } }
    else d
  else if n = 0xA then
    { d.put Reg.AON_IDLE_STATUS_state 0 with boot := { d.boot with ended := some (d.boot.ended.getD d.nowUs) } }
  else d

/-- The end of stage 0x3 (R66, R78): its host-wait time ends, and a pattern pack still being fetched is aborted. -/
def Dev.endDomains (d : Dev) : Dev :=
  let d := d.waitEnd
  if d.fetching 2 then d.fwlEnd 0x09 else d

/-- A stage ends without a halting error: the next one, or a hold (R65, R85). -/
def Dev.endStage (d : Dev) : Dev :=
  let n := d.stage
  let d := if n = 3 then d.endDomains else d
  if n = d.get Reg.BOOT_CTRL_hold_after then
    let d := { (d.put Reg.BOOT_STATUS_held 1).put Reg.BOOT_STATUS_stage 0xF with
      boot := { d.boot with heldFrom := n, heldAt := some d.nowUs } }
    d.put Reg.AON_IDLE_STATUS_state 0
  else d.enterStage (n + 1)

/-- BOOT_CTRL.resume continues from a hold (R85). -/
def Dev.bootResume (d : Dev) : Dev :=
  if d.flag Reg.BOOT_STATUS_held then
    let us := match d.boot.heldAt with | some t => d.nowUs - t | none => 0
    let d := { d with boot := { d.boot with heldAt := none, heldUs := d.boot.heldUs + us } }
    (d.put Reg.BOOT_STATUS_held 0).enterStage (d.boot.heldFrom + 1)
  else d

/-- Firmware runs on the management cores (R78): a held start_tests ends stage 0x3, else the wait for the host begins. -/
def Dev.firmwareRuns (d : Dev) : Dev :=
  if d.boot.fwRunning ∨ d.stage ≠ 3 then d
  else
    let d := { d with boot := { d.boot with fwRunning := true }, evr := { d.evr with map := [] } }
    if d.boot.startHeld then ({ d with boot := { d.boot with startHeld := false } }).endStage else d.waitStart

/-- BOOT_CTRL.start_tests (R78). -/
def Dev.startTests (d : Dev) : Dev :=
  if d.stage ≠ 3 then d
  else if d.boot.fwRunning then d.endStage
  else { d with boot := { d.boot with startHeld := true } }

def execStartTests (s : State) : Host.Outcome State Fault Refusal := .next { s with dev := s.dev.startTests }

/-- pack_wait elapses after firmware runs (R78). -/
def Dev.packWait (d : Dev) : Dev := if d.stage = 3 ∧ d.boot.fwRunning then d.endStage else d

def execPackWait (s : State) : Host.Outcome State Fault Refusal := .next { s with dev := s.dev.packWait }

/-! ### Restart (R67, R69, R465) -/

/-- A register of an agent, which the controller's resets do not touch; its port goes down (R165, R180). -/
def agentReg (key : Nat) : Bool :=
  decide (0x100_0000 ≤ key / 64) && decide (key / 64 < 0x1000_0000) && !(key / 64 % 0x100_0000 == 0x110 && key % 64 == 0)

/-- A register that no reset loses: those of the AON page, the master time base's rate, state and pulse number (R341, R350), the fuses, the feed monitors' states and identifiers, and what the
fault blocks have latched (R465, R367); agent registers are the agents' own. -/
def keptByReset (key : Nat) : Bool :=
  let a := key / 64
  let off := a % 0x1000
  a / 0x1000 == 0x011 || key == Reg.TIME_STATUS_state.key || a == Reg.TIME_RATE_adj.addr || a == Reg.TIME_EPOCH_pulse.addr ||
     a == Reg.SEC_FUSE_rollback.addr || a == Reg.PWR_FEED_STATUS_feed_a_state.addr ||
    a == Reg.PWR_FEED_ID_A_id.addr || a == Reg.PWR_FEED_ID_B_id.addr ||
    (decide (a < 0x100_0000) && (off == 0x40 || off == 0x48 || off == 0x50 || off == 0x70)) ||
    (decide (0x40200 ≤ a) && decide (a < 0x40400)) ||
    agentReg key

/-- Everything outside AON returns to reset (R67, R375, R465); the times of R85 count from now, whichever reset or wake it was (log
entry 46). What the fault blocks latched stays, and the resets it contains
cover the sources with reaction 2. Agent pages are in no reset of the controller: their registers, snapshots and latched words stay. -/
def Dev.resetDevice (d : Dev) : Dev :=
  { Dev.reset with
    regs := d.regs.filter fun e => keptByReset e.1
    clock := { TimeSt.reset with nextAdj := d.clock.nextAdj, atPulse := d.clock.atPulse }
    snaps := d.snaps.filter fun e => decide (0x1000 ≤ e.1) && decide (e.1 < 0x9000)
    latched := d.latched.filter fun e => decide (0x1000 ≤ e.1 / 0x1000) && decide (e.1 / 0x1000 < 0x9000)
    fresh := d.fresh, out := d.out, time := d.time, aon := d.aon, agents := d.agents, i3c := d.i3c
    aports := d.aports.map fun (e : Nat × AgentPort) => (e.1, { e.2 with down := [] })
    pwr := { d.pwr with powered := [.aon, .hub], classA := 16, limited := false, burst := false }
    boot := { BootSt.reset with start := d.nowUs, perst := d.boot.perst } }

/-- The sequence restarts at stage 0x1 (R67): lanes go down, heartbeats stop with the state they came from. -/
def Dev.restart (d : Dev) : Dev := (d.resetDevice).emit (.idle 64)

/-- A restart that the host asks for: the pins and the link are sampled only while the hub has power (R68, R455), so it never powers a
domain. -/
def Dev.hostRestart (d : Dev) : Dev := if d.pwr.powered.contains .hub then d.restart else d

/-- PERST_N asserted (R67): the level counts also where nothing restarts. -/
def execPerstAssert (s : State) : Host.Outcome State Fault Refusal :=
  .next { s with dev := let d := s.dev.hostRestart; { d with boot := { d.boot with perst := true } } }

/-- PERST_N deasserted: the boot ROM may train the link (R68). -/
def execPerstDeassert (s : State) : Host.Outcome State Fault Refusal :=
  .next { s with dev := { s.dev with boot := { s.dev.boot with perst := false } } }

def execHotReset (s : State) : Host.Outcome State Fault Refusal := .next { s with dev := s.dev.hostRestart }

def execFunctionReset (s : State) : Host.Outcome State Fault Refusal := .next { s with dev := s.dev.hostRestart }

/-- The PCIe link trains (R68, R442): width and generation; below Gen6 x16, or lower than before, link_degraded. In stage 0x1
the wait for firmware begins. -/
def Dev.linkTrained (d : Dev) (gen width : Nat) : Dev :=
  if d.boot.perst then d
  else
    let flit := b2n (gen == 6)
    let d := ((d.put Reg.PCIE_LINK_gen gen).put Reg.PCIE_LINK_width width).put Reg.PCIE_LINK_flit flit
    let d := { d with boot := { d.boot with linkUp := true } }
    let d := if gen < 6 ∨ width < 16 then d.raise Src.PCIE_link_degraded else d
    if d.stage = 1 then d.waitStart else d

/-- gen: 4, 5 or 6; width: 4, 8 or 16 lanes. -/
def execLinkTrained (gen : Fin 3) (width : Fin 3) (s : State) : Host.Outcome State Fault Refusal :=
  .next { s with dev := s.dev.linkTrained (4 + gen) (4 * 2 ^ width.val) }

end Sys2Proof.Machine
end

