-- ==== Sys2Proof/Machine/Fabric.lean ====
section
/-! DEFINITION. The continuity fabric (chapter 10): training of lanes (R264, R265, R267), discovery and classification of ports
(R275 to R277), flits (R262, R263), keys (R283), load reports (R286) and the rack plan in force (R274). -/

namespace Sys2Proof.Machine

/-! ### Training (R264, R265, R267) -/

/-- A lane's state: 0 down, 1 training, 2 up, 3 failed, 4 silent. -/
def Dev.lane (d : Dev) (i l : Nat) : Nat := Tab.getD (d.port i).lanes l 0

/-- A lane's state set. -/
def Dev.setLane (d : Dev) (i l v : Nat) : Dev := d.setPort i { d.port i with lanes := Tab.set (d.port i).lanes l 0 v }

/-- The lanes of a port in a state. -/
def Dev.lanesIn (d : Dev) (i v : Nat) : List Nat := (portLanes i).filter fun l => d.lane i l == v

/-- A port is quarantined with a reason (R276). -/
def Dev.quarantine (d : Dev) (i reason : Nat) : Dev :=
  ((d.put (Reg.PORT_STATUS_state i) 4).put (Reg.PORT_STATUS_reason i) reason).raise (Src.PORT_quarantined i)

/-- The HELLO body of this controller on a port (R275). -/
def Dev.helloBody (d : Dev) (i : Nat) : List Nat :=
  let v := (d.boot.fw.map fun f => f.word10).getD 0
  let release := (d.boot.fw.map fun f => f.release).getD 0
  let pod := (d.boot.plan.map fun p => p.pod).getD 0
  let digest := (d.boot.plan.map fun p => p.digest).getD 0
  [Config.serial % 2 ^ 64, Config.serial / 2 ^ 64 % 2 ^ 64,
   pack [(48, 16, d.chip), (40, 8, i), (32, 8, d.pwr.traySlot), (24, 8, v / 65536), (16, 8, v)],
   release % 2 ^ 32, pod, digest % 2 ^ 64, d.get Reg.PWR_FEED_ID_A_id, d.get Reg.PWR_FEED_ID_B_id,
   d.get Reg.PWR_FEED_STATUS_ids_unknown * 2 ^ 63]

/-- A HELLO leaves on a port (R275): from stage 0x7 on, on a trained port. -/
def Dev.sendHello (d : Dev) (i : Nat) : Dev :=
  if 7 ≤ d.stage ∧ d.stage ≠ 0xF ∧ d.lanesIn i 2 ≠ [] ∧ !d.silent then d.sendLocal i 0x01 (d.helloBody i) else d

/-- AGT_INFO of an agent (R167). -/
def Dev.agentInfo (d : Dev) (a : Nat) : Nat :=
  pack [(48, 16, d.get (Reg.AGT_INFO_family a)), (40, 8, d.get (Reg.AGT_INFO_version a)), (32, 8, d.get (Reg.AGT_INFO_n_eng a)),
    (24, 8, d.get (Reg.AGT_INFO_n_accflt a)), (16, 8, d.get (Reg.AGT_INFO_n_ctr a)), (1, 1, d.get (Reg.AGT_INFO_copy_cut a)),
    (0, 1, d.get (Reg.AGT_INFO_hold_cut a))]

/-- The HELLO of an agent (R275): AGT_INFO in word 2, zeros in words 4 to 8; its serial and release are not the controller's to know and read
zero (log entry 54). It leaves on a trained port that is not held down. -/
def Dev.agentHello (d : Dev) (a : Nat) : Dev :=
  if d.lanesIn a 2 ≠ [] ∧ d.flag (Reg.AGT_CTRL_port_en a) then
    d.emit (.up a 0x01 0 0 0 ([0, 0, d.agentInfo a] ++ List.replicate 6 0))
  else d

/-- HELLO_SEND: the period elapses (R275), for the controller's ports and for the agents'. -/
def execHelloSend (s : State) : Host.Outcome State Fault Refusal :=
  .next { s with dev := (List.range 8).foldl Dev.agentHello ((List.range 40).foldl Dev.sendHello s.dev) }

/-- Every lane of the package has trained, failed or stayed silent: stage 0x6 ends (R65, R81). -/
def Dev.lanesDone (d : Dev) : Dev :=
  if d.stage = 6 ∧ (List.range 40).all (fun i => d.lanesIn i 0 == [] && d.lanesIn i 1 == []) then
    let n (v : Nat) : Nat := (List.range 40).foldl (fun n i => n + (d.lanesIn i v).length) 0
    ((d.put Reg.BOOT_RESULT_lanes_failed (n 3)).put Reg.BOOT_RESULT_lanes_silent (n 4)).endStage
  else d

/-- A port page leaves reset (R465): what was counted while it was in reset does not stand. -/
def Dev.portOutOfReset (d : Dev) (i : Nat) : Dev :=
  let pg := 0x090 + i
  if d.flag (Reg.PAGE_STATUS_reset_active pg) then
    (d.clearCounters pg).put (Reg.PAGE_STATUS_reset_active pg) 0
  else d

/-- A trained port opens discovery (R265, R267, R275): HELLO is sent at once by both ends. -/
def Dev.openPort (d : Dev) (i : Nat) : Dev :=
  let d := if i < 8 then d.setAgentPort i 2 else d
  let d := (d.put (Reg.PORT_STATUS_state i) 2).sendHello i
  if i < 8 then d.agentHello i else d

/-- A lane of a port has come to an end of training (R265, R267). An agent port comes up with its first lane, and is degraded if fewer than
four pass in the end; another port waits for its lane. A lane above 160 m quarantines the port; no lane leaves it failed or silent and its
replay buffer lost (R263). An agent port that ran on its other lanes runs on; after a loopback the port trains again (log entry 52). -/
def Dev.settlePort (d : Dev) (i : Nat) : Dev :=
  let ended := d.lanesIn i 1 == []
  let up := d.lanesIn i 2
  if !ended && ((d.port i).loop || up == []) then d
  else
    let d := (d.portOutOfReset i).put (Reg.PORT_STATUS_lanes_up i) (up.foldl setBit 0)
    let d := if ended && decide (i < 8) && up != [] && decide (up.length < 4) && !(d.port i).loop then d.raise (Src.PORT_lane_degraded i) else d
    let d := if (d.port i).loop then (d.setPort i { d.port i with loop := false }).trainPort i
      else if up = [] then
        (d.setPort i { d.port i with unacked := [], used := [] }).put (Reg.PORT_STATUS_state i) (if d.lanesIn i 3 = [] then 8 else 7)
      else if (d.port i).long then
        if d.get (Reg.PORT_STATUS_state i) = 4 then d
        else (if i < 8 then d.setAgentPort i 2 else d).raise (Src.PORT_overlong i) |>.quarantine i 0x06
      else if i < 8 ∧ [2, 3, 4, 9].contains (d.get (Reg.PORT_STATUS_state i)) then d
      else d.openPort i
    d.lanesDone

/-- Signal is detected on a training lane: an attempt starts (R264). -/
def Dev.signalDetect (d : Dev) (i l : Nat) : Dev :=
  if d.lane i l = 1 then
    let p := d.port i
    let d := d.setPort i { p with tries := Tab.update p.tries l 0 (· + 1) }
    d.put (Reg.PORT_STATUS_attempts i) (Nat.min 255 (d.get (Reg.PORT_STATUS_attempts i) + 1))
  else d

def execSignalDetect (i : Fin 40) (l : Fin 4) (s : State) : Host.Outcome State Fault Refusal :=
  .next { s with dev := s.dev.signalDetect i l }

/-- An attempt of a lane fails (R265): after the third the lane is failed. -/
def Dev.attemptFails (d : Dev) (i l : Nat) : Dev :=
  if d.lane i l = 1 ∧ 3 ≤ Tab.getD (d.port i).tries l 0 then (d.setLane i l 3).settlePort i else d

/-- An attempt ends (R265): passed, with its one-way delay in ns, which a loopback does not measure (R288), or failed. -/
def Dev.attemptEnd (d : Dev) (i l : Nat) (pass : Bool) (delay : Nat) : Dev :=
  if d.lane i l ≠ 1 then d
  else if pass then
    let d := d.setPort i { d.port i with tries := Tab.erase l (d.port i).tries }
    let d := d.put (Reg.PORT_STATUS_attempts i) 0
    let d := if (d.port i).loop then d
      else
        let len := (delay - 110) / 5
        let d := d.setPort i { d.port i with long := (d.port i).long || decide (160 < len) }
        (d.put (Reg.PORT_LINK_delay_ns i) delay).put (Reg.PORT_LINK_length_m i) (Nat.min 4095 len)
    (d.setLane i l 2).settlePort i
  else d.attemptFails i l

/-- No signal 15 s after training began (R265). -/
def Dev.laneSilent (d : Dev) (i l : Nat) : Dev :=
  if d.lane i l = 1 ∧ Tab.getD (d.port i).tries l 0 = 0 then (d.setLane i l 4).settlePort i else d

/-- A lane is lost while up (R265, R267, R288): the port runs on the lanes left, or trains again. -/
def Dev.linkDown (d : Dev) (i l : Nat) : Dev :=
  if d.lane i l ≠ 2 then d
  else
    let d := (d.setLane i l 1).raise (Src.PORT_link_down i)
    let up := d.lanesIn i 2
    let d := d.put (Reg.PORT_STATUS_lanes_up i) (up.foldl setBit 0)
    if up ≠ [] then d.raise (Src.PORT_lane_degraded i)
    else
      let d := if i < 8 then d.setAgentPort i 1 else d
      (d.setPort i { d.port i with key := none, hello := none }).put (Reg.PORT_STATUS_state i) 1

def execLinkDown (i : Fin 40) (l : Fin 4) (s : State) : Host.Outcome State Fault Refusal :=
  .next { s with dev := s.dev.linkDown i l }

/-- A port reset (R375, R465): the port's lanes train, and its page is in reset until they have. What the plan expects stays. -/
def Dev.portReset (d : Dev) (i : Nat) : Dev :=
  let d := d.resetPage (0x090 + i) [Reg.PORT_PLAN_chip i, Reg.PORT_PLAN_port i, Reg.PORT_PLAN_expected i]
  let d := d.put (Reg.PAGE_STATUS_reset_active (0x090 + i)) 1
  (if i < 8 then d.setAgentPort i 1 else d).trainPort i

/-- PORT_CTRL.retrain (R288, R375): a port reset, from a failed, silent or up state, also of a failed or silent port that discovery has
classified as missing or down (R82, R276). -/
def Dev.retrain (d : Dev) (i : Nat) : Dev :=
  let st := d.get (Reg.PORT_STATUS_state i)
  if [3, 7, 8].contains st ∨ ([0, 6].contains st ∧ (d.lanesIn i 3 ≠ [] ∨ d.lanesIn i 4 ≠ [])) then d.portReset i else d

def execPortRetrain (i : Fin 40) (s : State) : Host.Outcome State Fault Refusal :=
  .next { s with dev := s.dev.ifWritable (0x090 + i) fun d => d.retrain i }

/-- PORT_CTRL.loopback: training phases 1 to 3 in near-end loopback, the port out of service meanwhile (R288); it trains
again afterwards. -/
def Dev.loopback (d : Dev) (i : Nat) : Dev := let d := (if i < 8 then d.setAgentPort i 1 else d).trainPort i; d.setPort i { d.port i with loop := true }

def execPortLoopback (i : Fin 40) (s : State) : Host.Outcome State Fault Refusal :=
  .next { s with dev := s.dev.ifWritable (0x090 + i) fun d => d.loopback i }

/-! ### Classification (R276, R277) -/

/-- The global entry of the plan for a port of this tray. -/
def Dev.globalEntry (d : Dev) (p : PlanInfo) (i : Nat) : Option Nat :=
  p.globals.find? fun w => bits 0 8 w == d.pwr.traySlot && bits 8 8 w == i

/-- The far end the plan expects of a port (R276): chip number and port, with the serial of a G port; none without an
expectation. -/
def Dev.expectation (d : Dev) (p : PlanInfo) (i : Nat) : Option (Nat × Nat × Option Nat) :=
  if i < 8 then none
  else if i < 26 then
    let f := gFar d.pwr.traySlot (i - 8)
    match p.trays[f.1]? with
    | some (serial, role, _) => if role = 0 then none else some (p.rack * 32 + f.1, f.2, some serial)
    | none => none
  else (d.globalEntry p i).map fun w => (bits 16 16 w * 32 + bits 32 8 w, bits 40 8 w, none)

/-- A HELLO's identity equals an expectation (R276): the serial on G ports; chip, port and pod on X ports. -/
def identityIs (p : PlanInfo) (h : List Nat) : Option (Nat × Nat × Option Nat) → Bool
  | none => false
  | some (_, _, some serial) => helloWord h 0 + helloWord h 1 * 2 ^ 64 == serial
  | some (chip, port, none) => helloChip h == chip && helloPort h == port && helloWord h 4 == p.pod

/-- Two ports lie in one set that the tray's perm permits to be swapped (R270, R276). -/
def permits (perm i j : Nat) : Bool :=
  (bitAt 0 perm && decide (26 ≤ i) && decide (26 ≤ j)) ||
    (bitAt 1 perm && decide (8 ≤ i) && decide (i < 25) && decide (8 ≤ j) && decide (j < 25))

/-- The classification of a port (R276): its state, 3 standing for up after KEYX, its reason, and another port that is
quarantined with it. The plan digest binds the ports of one rack, whose controllers hold one plan. -/
def Dev.classify (d : Dev) (p : PlanInfo) (i : Nat) : Nat × Nat × Option Nat :=
  let exp := d.expectation p i
  match (d.port i).hello with
  | none => if exp.isNone then (0, 0, none) else (6, 0, none)
  | some h =>
    let major := (d.boot.fw.map fun f => f.word10).getD 0 / 65536 % 256
    let perm := ((p.trays[d.pwr.traySlot]?).map fun t => t.2.2).getD 0
    let others := (gPorts ++ xPorts).filter fun j => j != i && identityIs p h (d.expectation p j)
    if bits 24 8 (helloWord h 2) ≠ major then (4, 0x03, none)
    else if helloWord h 4 ≠ p.pod ∨ (i < 26 ∧ helloWord h 5 ≠ p.digest % 2 ^ 64) then (4, 0x04, none)
    else if identityIs p h exp then (3, 0x00, none)
    else match others with
      | [] => (4, 0x01, none)
      | j :: _ => match others.find? fun j => permits perm i j with
        | some _ => (3, 0x09, none)
        | none => (4, 0x02, some j)

/-- The words of a key of 97 bytes, a nonce of 32, a certificate of 2,048 (SEC_CERT, zero-padded) and a signature of 96 (R76, R283). -/
def keyWords (k : Nat) : List Nat := (List.range 13).map fun j => k / 2 ^ (64 * j) % 2 ^ 64
def nonceWords (n : Nat) : List Nat := (List.range 4).map fun j => n / 2 ^ (64 * j) % 2 ^ 64
def certWords : List Nat := (List.range 256).map fun j => leNat ((List.range 8).map fun i => Config.certificate (8 * j + i))
def sigWords (g : Nat) : List Nat := (List.range 12).map fun j => g / 2 ^ (64 * j) % 2 ^ 64

/-- Key agreement starts on a port (R283): the port waits for the far end's KEYX, having sent its own; the signature, which covers both ends'
keys, follows once the far end's are there (log entry 54). -/
def Dev.startKeyx (d : Dev) (i reason : Nat) : Dev :=
  let eph := d.free
  let d := d.tick
  let nonce := d.free
  let d := d.tick
  let d := d.setPort i { d.port i with eph := eph, nonce := nonce, key := none, rekey := false }
  ((d.put (Reg.PORT_STATUS_state i) 5).put (Reg.PORT_STATUS_reason i) reason).sendLocal i 0x02 (keyWords eph ++ nonceWords nonce ++ certWords)

/-- What the plan expects of a port shows in its page (R276, R288): of an agent port, any agent. -/
def Dev.showPlan (d : Dev) (p : PlanInfo) (i : Nat) : Dev :=
  let exp := d.expectation p i
  let d := d.put (Reg.PORT_PLAN_expected i) (b2n (exp.isSome || decide (i < 8)))
  match exp with
  | some (chip, port, _) => (d.put (Reg.PORT_PLAN_chip i) chip).put (Reg.PORT_PLAN_port i) port
  | none => (d.put (Reg.PORT_PLAN_chip i) 0).put (Reg.PORT_PLAN_port i) 0

/-- A trained port takes its classification (R276): a link that is already up stays up. An agent port is up as soon as its
agent has been heard. -/
def Dev.classifyPort (d : Dev) (i : Nat) : Dev :=
  if i < 8 then
    let d := match d.boot.plan with | some p => d.showPlan p i | none => d
    if (d.port i).hello.isSome ∧ !(d.port i).long ∧ d.lanesIn i 2 ≠ [] ∧ d.get (Reg.PORT_STATUS_state i) ≠ 9 then
      (if d.linkStands i then d else (d.put (Reg.PORT_STATUS_state i) 3).resend i).agentPortUp i
    else d
  else match d.boot.plan with
    | none => d
    | some p =>
      let d := d.showPlan p i
      let st := d.get (Reg.PORT_STATUS_state i)
      if [1, 7, 8].contains st ∨ (st = 4 ∧ d.get (Reg.PORT_STATUS_reason i) = 0x06) then d
      else
        match d.classify p i with
        | (3, reason, _) => if st = 3 ∨ st = 5 then d.put (Reg.PORT_STATUS_reason i) reason else d.startKeyx i reason
        | (4, reason, other) =>
          let d := if st = 4 ∧ d.get (Reg.PORT_STATUS_reason i) = reason then d else d.quarantine i reason
          match other with
          | some j => if d.get (Reg.PORT_STATUS_state j) = 4 then d else d.quarantine j reason
          | none => d
        | (st', reason, _) => (d.put (Reg.PORT_STATUS_state i) st').put (Reg.PORT_STATUS_reason i) reason

/-- Every port classified. -/
def Dev.classifyAll (d : Dev) : Dev := (List.range 40).foldl Dev.classifyPort d

/-- Every port that the plan expects has been heard (R82). -/
def Dev.allHeard (d : Dev) (p : PlanInfo) : Bool :=
  (gPorts ++ xPorts).all fun i => (d.expectation p i).isNone || (d.port i).hello.isSome

/-- Discovery ends when no expected port is unheard (R82). -/
def Dev.discoveryCheck (d : Dev) : Dev :=
  match d.boot.plan with
  | some p => if d.stage = 7 ∧ d.allHeard p then d.classifyAll.endStage else d
  | none => d

/-- Another device has claimed the controller's own slot (R82): a HELLO with its chip number and another serial. -/
def Dev.slotClaimed (d : Dev) : Bool :=
  d.chip != 0xFFFE && (gPorts ++ xPorts).any fun i => match (d.port i).hello with
    | some h => helloChip h == d.chip && helloWord h 0 + helloWord h 1 * 2 ^ 64 != Config.serial
    | none => false

/-- Discovery begins or goes on in stage 0x7 (R82, R303): ports already heard are classified, and the stage ends when no expected
port is unheard. -/
def Dev.startDiscovery (d : Dev) : Dev :=
  match d.boot.plan with
  | some p =>
    if d.stage = 7 then
      if d.slotClaimed then d.halt 0x71 else
      ((List.range 40).foldl (fun (d : Dev) i => if (d.port i).hello.isSome || decide (i < 8) then d.classifyPort i else d.showPlan p i) d).discoveryCheck
    else d
  | none => d

/-- BOOT_CTRL.resume (R85). -/
def Dev.resumeBoot (d : Dev) : Dev := (d.bootResume).lanesDone.startDiscovery

def execBootResume (s : State) : Host.Outcome State Fault Refusal := .next { s with dev := s.dev.resumeBoot }

/-- A lane of the package comes to an end of training (R265): the last one ends stage 0x6, and discovery begins. -/
def execTrainingPhaseTimeout (i : Fin 40) (l : Fin 4) (_phase : Fin 4) (s : State) : Host.Outcome State Fault Refusal :=
  .next { s with dev := (s.dev.attemptFails i l).startDiscovery }

def execTrainingAttemptEnd (i : Fin 40) (l : Fin 4) (pass : Bool) (delay : BitVec 16) (s : State) :
    Host.Outcome State Fault Refusal :=
  .next { s with dev := (s.dev.attemptEnd i l pass delay.toNat).startDiscovery }

def execLaneSilent (i : Fin 40) (l : Fin 4) (s : State) : Host.Outcome State Fault Refusal :=
  .next { s with dev := (s.dev.laneSilent i l).startDiscovery }

/-- What no flit that leaves has reported is reported in a control flit (R262, R281; log entry 54). -/
def Dev.acknowledge (d : Dev) (i : Nat) : Dev := if (d.port i).freed = [] then d else d.sendControl i 0

/-- The flits of a link-local message arrive (R263, R281, R288): numbered, their buffer freed, counted and acknowledged. -/
def Dev.localFlits (d : Dev) (i n : Nat) : Dev :=
  let p := d.port i
  let p := { p with rxNext := (p.rxNext + n) % 65536, freed := Tab.update p.freed (if i < 8 then 2 else 0) 0 (· + n) }
  ((d.setPort i p).addU (Cnt.PORT_CNT_RX_FLITS i) n).acknowledge i

/-- A HELLO arrives (R276, R277, R82): the far end shows in the port page; a changed identity on an up link quarantines it; a
HELLO that changes what the port sees classifies it; another device in the controller's own slot halts discovery. -/
def Dev.hello (d : Dev) (i : Nat) (h : List Nat) : Dev :=
  if d.lanesIn i 2 = [] ∨ d.stage < 7 ∨ d.stage = 0xF then d
  else
    let old := (d.port i).hello
    let d := d.setPort i { d.port i with hello := some h }
    let d := d.localFlits i 1
    let w := helloWord h 2
    let d := (((d.put (Reg.PORT_FAR_chip i) (bits 48 16 w)).put (Reg.PORT_FAR_port i) (bits 40 8 w)).put
      (Reg.PORT_FAR_slot i) (bits 32 8 w)).put (Reg.PORT_FAR_major i) (bits 24 8 w)
    let d := ((d.put (Reg.PORT_FAR_minor i) (bits 16 8 w)).put (Reg.PORT_FAR_valid i) 1)
    let d := (d.put (Reg.PORT_FAR_SN0_sn i) (helloWord h 0)).put (Reg.PORT_FAR_SN1_sn i) (helloWord h 1)
    if old = some h then d
    else
      let idOf (h : List Nat) := if i < 26 then [helloWord h 0, helloWord h 1] else [helloChip h, helloPort h, helloWord h 4]
      let d := if d.linkStands i ∧ 8 ≤ i ∧ (old.map idOf).isSome ∧ old.map idOf ≠ some (idOf h) then
          (d.raise (Src.PORT_neighbour_changed i)).quarantine i 0x01
        else d
      if d.stage = 7 ∧ d.slotClaimed then d.halt 0x71
      else (d.classifyPort i).discoveryCheck

def execHello (i : Fin 40) (h : List Word) (s : State) : Host.Outcome State Fault Refusal :=
  .next { s with dev := s.dev.hello i (h.map BitVec.toNat) }

/-- A port still unheard is classified as having no HELLO, whatever its lanes do (R82, R276). -/
def Dev.unheardPort (d : Dev) (i : Nat) : Dev :=
  match d.boot.plan with
  | none => d
  | some p =>
    if (d.port i).hello.isSome ∨ [3, 4, 5, 9].contains (d.get (Reg.PORT_STATUS_state i)) then d
    else
      let d := d.showPlan p i
      ((d.put (Reg.PORT_STATUS_state i) (if d.flag (Reg.PORT_PLAN_expected i) then 6 else 0)).put (Reg.PORT_STATUS_reason i) 0)

/-- disc_wait has passed (R82): unheard ports are classified and discovery ends; without a plan the stage waits on. -/
def Dev.discWait (d : Dev) : Dev :=
  if d.stage = 7 ∧ d.boot.plan.isSome then
    let d := (List.range 40).foldl Dev.unheardPort d.classifyAll
    if d.stage = 7 then d.endStage else d
  else d

def execDiscWait (s : State) : Host.Outcome State Fault Refusal := .next { s with dev := s.dev.discWait }

/-- The plan in force changes in stage 0xA (R274): ports are classified again, and a link that was to leave stays when the plan expects it
again; a link no longer expected is quarantined with reason 0x08 once its queue has drained. -/
def Dev.planReplaced (d : Dev) : Dev :=
  match d.boot.plan with
  | none => d
  | some p =>
    (gPorts ++ xPorts).foldl (fun d i =>
      if d.linkStands i ∧ (d.classify p i).1 ≠ 3 ∧ (d.expectation p i).isNone then
        let d := d.setPort i { d.port i with leaving := true }
        if (d.port i).queue = [] then (d.setPort i { d.port i with leaving := false }).quarantine i 0x08 else d
      else (d.setPort i { d.port i with leaving := false }).classifyPort i) d

/-- A leaving link whose queues have drained, or whose drain limit has passed, is quarantined (R274). -/
def Dev.leavePort (d : Dev) (i : Nat) (forced : Bool) : Dev :=
  let p := d.port i
  if p.leaving ∧ (forced ∨ p.queue = []) then (d.setPort i { p with leaving := false, queue := [] }).quarantine i 0x08 else d

/-! ### Keys (R283) -/

/-- This end of a link is the lower-ordered one (R283): by chip number, or by serial while it has none. -/
def Dev.lowerEnd (d : Dev) (h : List Nat) : Bool :=
  if d.chip = 0xFFFE ∨ helloChip h = 0xFFFE then decide (Config.serial < helloWord h 0 + helloWord h 1 * 2 ^ 64)
  else decide (d.chip < helloChip h)

/-- What a KEYX signs (R283): both HELLO bodies, both ephemeral keys and both nonces, the lower-ordered end's first. -/
def Dev.keyxText (d : Dev) (i : Nat) (h : List Nat) (k : Keyx) : List Byte :=
  let both (a b : List Byte) : List Byte := if d.lowerEnd h then a ++ b else b ++ a
  let words (ws : List Nat) : List Byte := ws.flatMap fun w => bytesOf 8 w
  both (words (d.helloBody i)) (words h) ++ both (bytesOf 97 (d.port i).eph) (bytesOf 97 k.pub) ++
    both (bytesOf 32 (d.port i).nonce) (bytesOf 32 k.nonce.toNat)

/-- The salt of the derivation: both nonces in that order (R283). -/
def Dev.keyxSalt (d : Dev) (i : Nat) (h : List Nat) (k : Keyx) : Nat :=
  if d.lowerEnd h then (d.port i).nonce * 2 ^ 256 + k.nonce.toNat else k.nonce.toNat * 2 ^ 256 + (d.port i).nonce

/-- The keys that both ends derive (R283): 72 bytes, a key and a 4-byte salt for the lower-ordered end's sending direction, then those of the
other. -/
def Dev.linkKeys (d : Dev) (i : Nat) (h : List Nat) (k : Keyx) : LinkKeys :=
  let b (from_ n : Nat) : Nat := leNat ((List.range n).map fun j =>
    Config.hkdf (Config.ecdh (d.port i).eph k.pub) (d.keyxSalt i h k) ([0x4B, 0x4C, 0x4F, 0x55, 0x43, 0x2D, 0x4C, 0x31].map fun c => BitVec.ofNat 8 c)
      (from_ + j))
  if d.lowerEnd h then ⟨b 0 32, b 32 4, b 36 32, b 68 4⟩ else ⟨b 36 32, b 68 4, b 0 32, b 32 4⟩

/-- The flits of a KEYX (R262, R279, R283): 10 for key, nonce and certificate, 1 for the signature. -/
def keyxFlits : Nat := 11

/-- A KEYX is checked (R283): the certificate under the authority's key, the HELLO's serial, the signature. On success both
directions have a key and the link is up; a failure quarantines the port. -/
def Dev.keyx (d : Dev) (i : Nat) (k : Keyx) : Dev :=
  match (d.port i).hello with
  | none => d
  | some h =>
    if d.get (Reg.PORT_STATUS_state i) ≠ 5 then d
    else
      let signed := Config.sha384 (d.keyxText i h k)
      let d := (d.localFlits i keyxFlits).sendLocal i 0x02 (sigWords (Config.ecdsaSign signed))
      let p := d.port i
      if Config.ecdsaOk Config.caKey k.certKey k.certSig ∧ k.certSerial.toNat = helloWord h 0 + helloWord h 1 * 2 ^ 64 ∧
          Config.ecdsaOk k.certKey signed k.sig then
        let d := d.setPort i { p with key := some (d.linkKeys i h k), txCtr := 0, rxCtr := 0, rekey := false }
        let d := d.put (Reg.PORT_STATUS_state i) 3
        (if p.rekey then d else d.resend i).pump i 1024
      else d.quarantine i 0x05

def execKeyx (i : Fin 40) (k : Keyx) (s : State) : Host.Outcome State Fault Refusal := .next { s with dev := s.dev.keyx i k }

/-- 2^32 frames in one direction: keys are agreed afresh (R283); VC0 waits meanwhile. -/
def Dev.rekey (d : Dev) (i : Nat) : Dev :=
  if d.linkStands i ∧ 8 ≤ i then
    let d := d.startKeyx i (d.get (Reg.PORT_STATUS_reason i))
    d.setPort i { d.port i with rekey := true }
  else d

def execRekey (i : Fin 40) (s : State) : Host.Outcome State Fault Refusal := .next { s with dev := s.dev.rekey i }

/-- A VC0 frame is accepted when its counter is above the last one accepted and its tag verifies (R282): rxCtr is the least
counter still accepted; the second part says whether it was. -/
def Dev.acceptFrame (d : Dev) (i : Nat) (f : FrameCheck) : Dev × Bool :=
  let p := d.port i
  if f.tagOk ∧ p.rxCtr ≤ f.ctr.toNat then (d.setPort i { p with rxCtr := f.ctr.toNat + 1 }, true)
  else ((d.incE (Cnt.PORT_CNT_AUTH_FAIL i)).raise (Src.PORT_auth_fail i), false)

/-! ### Flits (R262, R263) -/

/-- A negative acknowledgement is sent (R262, R263). -/
def Dev.sendNak (d : Dev) (i : Nat) : Dev := d.sendControl i 1

/-- A replay from the first unacknowledged flit (R263): after eight replays of the same flit the lane trains again. -/
def Dev.replayFlits (d : Dev) (i : Nat) : Dev :=
  let p := d.port i
  if p.unacked = [] then d
  else
    let d := ((d.setPort i { p with replays := p.replays + 1 }).incE (Cnt.PORT_CNT_REPLAY i)).resend i
    if 8 ≤ p.replays + 1 then
      ((d.setPort i { d.port i with replays := 0 }).raise (Src.PORT_crc_burst i)).trainPort i
    else d

/-- The flits up to an acknowledged number leave the replay buffer (R263). -/
def Dev.takeAck (d : Dev) (i ack : Nat) : Dev :=
  let p := d.port i
  let rest := if p.unacked.any (fun f => f.seq == ack) then ((p.unacked.dropWhile fun f => f.seq != ack).drop 1) else p.unacked
  d.setPort i { p with unacked := rest, replays := if rest.length < p.unacked.length then 0 else p.replays }

/-- The credits a header reports are taken: flits freed by VC, the oldest first (R262, R281, log entry 52). -/
def Dev.takeCredits (d : Dev) (i w : Nat) : Dev :=
  let p := d.port i
  let used := (List.range 4).foldl (fun u vc => Tab.update u vc [] fun l => l.drop (bits (18 - 6 * vc) 6 w)) p.used
  d.setPort i { p with used := used }

/-- A flit arrives (R262, R263, R282): one that is not of 256 bytes or fails its CRC, or a gap, is answered with a negative acknowledgement; a
flit already received is dropped; another is taken in order, with its acknowledgement and credits. A quarantined port takes no frame (R276). -/
def Dev.flit (d : Dev) (i hdr : Nat) (payload : List Nat) (crc : Nat) (frame : Option FrameCheck) : Dev :=
  if payload.length ≠ 240 ∨ crc64 (leBytes 8 hdr ++ payload) ≠ crc then (d.incE (Cnt.PORT_CNT_CRC_ERR i)).sendNak i
  else
    let d := d.incU (Cnt.PORT_CNT_RX_FLITS i)
    let seq := bits 40 16 hdr
    let p := d.port i
    let behind := (p.rxNext + 65536 - seq) % 65536
    if bitAt 58 hdr then ((d.takeAck i (bits 24 16 hdr)).takeCredits i hdr).pump i 1024
    else if behind = 0 then
      let vc := bits 62 2 hdr
      let d := d.setPort i { p with rxNext := (seq + 1) % 65536, freed := Tab.update p.freed vc 0 (· + 1) }
      let d := (((d.takeAck i (bits 24 16 hdr)).takeCredits i hdr).pump i 1024).acknowledge i
      match frame with
      | some f => if vc = 0 ∧ d.get (Reg.PORT_STATUS_state i) ≠ 4 then (d.acceptFrame i f).1 else d
      | none => d
    else if behind < 32768 then d
    else d.sendNak i

def execFlit (i : Fin 40) (hdr : Word) (payload : List Byte) (crc : Word) (frame : Option FrameCheck) (s : State) :
    Host.Outcome State Fault Refusal :=
  .next { s with dev := s.dev.flit i hdr.toNat (payload.map BitVec.toNat) crc.toNat frame }

def execNak (i : Fin 40) (ack : BitVec 16) (s : State) : Host.Outcome State Fault Refusal :=
  .next { s with dev := ((s.dev.incU (Cnt.PORT_CNT_RX_FLITS i)).takeAck i ack.toNat).replayFlits i }

/-! ### Load reports (R286) -/

/-- A LOAD flit of a rack member is kept, and counted on the link that it came by (R286, R288). -/
def Dev.loadIn (d : Dev) (slot : Nat) (util : List Nat) : Dev :=
  let d := { d with loads := Tab.set d.loads slot [] util }
  match (d.linksTo slot).head? with | some i => d.incU (Cnt.PORT_CNT_RX_FLITS i) | none => d

/-- A LOAD flit of a rack member: the utilisation of each of its G lanes (R286; log entry 16). -/
def execLoad (slot : Fin 18) (util : List Byte) (s : State) : Host.Outcome State Fault Refusal :=
  .next { s with dev := s.dev.loadIn slot (util.map BitVec.toNat) }

/-- A 10 µs window ends (R286, R288, R289): the measured utilisation of every port is shown and its corrected symbols counted, DEV_FAB_CTRL as written acts, and
a LOAD flit goes to the rack; 0xFF stands for a lane that is not up (log entry 16). -/
def Dev.loadSend (d : Dev) (util : List PortSample) : Dev :=
  let d := (List.range 40).foldl (fun d i =>
    let u := util.getD i ⟨0, 0, 0⟩
    ((d.put (Reg.PORT_UTIL_tx_pct i) u.tx.toNat).put (Reg.PORT_UTIL_rx_pct i) u.rx.toNat).addU (Cnt.PORT_CNT_FEC_CORR i) u.fec.toNat) d
  let d := [Reg.DEV_FAB_CTRL_w_c, Reg.DEV_FAB_CTRL_w_a, Reg.DEV_FAB_CTRL_sat_pct, Reg.DEV_FAB_CTRL_idle_pct,
    Reg.DEV_FAB_CTRL_indirect_pct].foldl (fun d f => d.put (acts f) (d.get f)) d
  if d.silent then d
  else
    let body := gPorts.map fun i => if d.portUp i then d.get (Reg.PORT_UTIL_tx_pct i) else 0xFF
    (gPorts.filter d.portUp).foldl (fun d i => (d.emit (.link i 0x03 body)).incU (Cnt.PORT_CNT_TX_FLITS i)) d

def execLoadSend (util : List PortSample) (s : State) : Host.Outcome State Fault Refusal := .next { s with dev := s.dev.loadSend util }

end Sys2Proof.Machine
end

