-- ==== Sys2Proof/Machine/Pair.lean ====
section
/-! DEFINITION. The management core pair and the comparator (R387 to R391, R395, R396), and the controller's end of the agent
ports (R168), on which the pair sends. -/

namespace Sys2Proof.Machine

/-! ### Messages to agents (R168, R193) -/

/-- The controller's end of an agent port. -/
def Dev.aport (d : Dev) (a : Nat) : AgentPort := Tab.getD d.aports a AgentPort.reset

/-- The controller's end of an agent port set. -/
def Dev.setAport (d : Dev) (a : Nat) (p : AgentPort) : Dev := { d with aports := Tab.set d.aports a AgentPort.reset p }

/-- The bytes of an agent-port message with its header. -/
def portBytes (body : List Nat) : Nat := 16 + 8 * body.length

/-- The job of an accelerator in the headers of the messages it is sent; 0 outside a job (R168). -/
def Dev.portJob (d : Dev) (a : Nat) : Nat := ((d.jobs.find? fun e => (Tab.find a e.2.acc).isSome).map fun e => e.2.desc.job).getD 0

/-- A message of the controller as the port sends it, with the header it first had (R168). -/
def PortMsg.down (m : PortMsg) (a : Nat) : Out := .down a m.kind m.seq m.job m.epoch m.body

/-- The words of a message on an agent port (R168). -/
def PortMsg.words (m : PortMsg) : List Nat :=
  [pack [(56, 8, m.kind), (32, 24, m.seq), (0, 32, 8 * m.body.length)], pack [(32, 32, m.job), (0, 32, m.epoch)]] ++ m.body

/-- A message leaves on an agent port (R168, R193, R267): TIME on VC1, every other kind on VC2; its bytes are counted. -/
def Dev.downOut (d : Dev) (a : Nat) (m : PortMsg) : Dev :=
  ((d.emit (m.down a)).addU (Cnt.AGP_CNT_AGP_DOWN a) (portBytes m.body)).transmit a (if m.kind = 0x0B then 1 else 2) 0 m.words

/-- The acknowledgement of an agent's message (R168, R193): it has no number of its own. -/
def Dev.ackToAgent (d : Dev) (a seq : Nat) : Dev := d.downOut a ⟨0, 0x1F, [seq], 0, d.portJob a, d.get Reg.MBR_STATUS_epoch, false⟩

/-- An agent port takes new messages: the lanes do not send idle, and its AGP and port pages are enabled (R370, R382). -/
def Dev.downOpen (d : Dev) (a : Nat) : Bool :=
  !d.silent && d.flag (Reg.PAGE_STATUS_enabled (0x080 + a)) && d.flag (Reg.PAGE_STATUS_enabled (0x090 + a))

/-- A message to an agent (R168, R171): numbered, kept until acknowledged, counted; while the port takes no new messages it waits. -/
def Dev.sendDown (d : Dev) (a kind : Nat) (body : List Nat) : Dev :=
  let p := d.aport a
  let m : PortMsg := ⟨p.downSeq, kind, body, 0, d.portJob a, d.get Reg.MBR_STATUS_epoch, false⟩
  let d := d.setAport a { p with down := p.down ++ [m], downSeq := (p.downSeq + 1) % 2 ^ 24 }
  if !d.downOpen a then d else d.downOut a m

/-! ### Core states (R387) -/

/-- A core's state: 0 off, 1 self-test, 2 resync, 3 standby, 4 active, 5 offline. -/
def Dev.core (d : Dev) (n : Nat) : Nat := d.get (if n = 0 then Reg.MGMT_PAIR_state0 else Reg.MGMT_PAIR_state1)

/-- A core's state set; active and dual follow. -/
def Dev.setCore (d : Dev) (n st : Nat) : Dev :=
  let d := d.put (if n = 0 then Reg.MGMT_PAIR_state0 else Reg.MGMT_PAIR_state1) st
  let d := if st = 4 then d.put Reg.MGMT_PAIR_active n else d
  d.putB Reg.MGMT_PAIR_dual ((d.core 0 == 4 && d.core 1 == 3) || (d.core 0 == 3 && d.core 1 == 4))

/-- A core goes offline (R387). -/
def Dev.coreOff (d : Dev) (n : Nat) : Dev := (d.setCore n 5).raise Src.MGMT_core_offline

/-- An event of the controller's health record without points (R391). -/
def Dev.healthEvent (d : Dev) : Dev :=
  let h := d.healthOf 8
  { d with health := Tab.set d.health 8 Health.reset { h with events := h.events ++ [secOf d.time] } }

/-! ### Release (R388) -/

/-- A register write of the pair is released (R388); it acts at the end of the command (Dev.postWrites). -/
def Dev.ownWrite (d : Dev) (off v : Nat) : Dev := { d with pair := { d.pair with posted := d.pair.posted ++ [(off, v)] } }

/-- A message leaves the comparator. -/
def Dev.release (d : Dev) (c : PairCopy) : Dev :=
  let p := d.pair
  let kept := p.released.filter fun r => decide (d.nowUs < r.at_ + 1000)
  let d := { d with pair := { p with released := kept ++ [{ c with at_ := d.nowUs }] } }
  let d := d.put Reg.MGMT_PAIR_seq c.seq
  match c.msg with
  | .fabric dst kind body => d.send dst kind body
  | .down a kind body => d.sendDown a kind body
  | .write off v => d.ownWrite off.toNat v.toNat

/-- The lowest sequence number held. -/
def firstHeld (cs : List PairCopy) : Option Nat :=
  cs.foldl (fun m c => match m with | none => some c.seq | some s => some (Nat.min s c.seq)) none

/-- Messages that may be released leave in sequence order; a held one holds every later one (R388). -/
def Dev.flush (d : Dev) : Nat → Dev
  | 0 => d
  | n + 1 =>
    match firstHeld d.pair.held with
    | none => d
    | some s =>
      match d.pair.held.find? fun c => c.seq == s && c.core == 2 with
      | none => d
      | some c =>
        (({ d with pair := { d.pair with held := d.pair.held.filter fun c => c.seq != s } }).release c).flush n

/-- Every message that may leave leaves. -/
def Dev.flushAll (d : Dev) : Dev := d.flush d.pair.held.length

/-- Single mode begins (R388): copies of the core that runs on are released in order, those of the other discarded. -/
def Dev.singleMode (d : Dev) (running : Nat) : Dev :=
  let held := (d.pair.held.filter fun c => c.core == running || c.core == 2).map fun c => { c with core := 2 }
  ({ d with pair := { d.pair with held := held, mismatch := none } }).flushAll

/-- The standby takes over (R389): it becomes active, single mode begins, and messages released in the last 100 µs without an
acknowledgement are sent again. -/
def Dev.takeOver (d : Dev) (n : Nat) (acked : List Nat) : Dev :=
  let again := d.pair.released.filter fun c => decide (d.nowUs ≤ c.at_ + 100) && !acked.contains c.seq
  let d := ((d.setCore n 4).incE Cnt.MGMT_CNT_MGMT_TAKEOVER).singleMode n
  again.foldl (fun d c => match c.msg with
    | .fabric dst kind body => d.send dst kind body
    | .down a kind body => d.sendDown a kind body
    | .write off v => d.ownWrite off.toNat v.toNat) d

/-- A core has left service (R387, R388): the standby takes over, or the other core runs single; without an active core
mgmt_none. was is the state it left. -/
def Dev.coreGone (d : Dev) (n was : Nat) (acked : List Nat) : Dev :=
  let o := 1 - n
  if was = 4 then
    if d.core o = 3 then d.takeOver o acked else d.raise Src.FLT_mgmt_none
  else if was = 3 ∧ d.core o = 4 then d.singleMode o
  else if was = 1 ∧ d.pair.mismatch.isSome ∧ d.core o = 1 then
    let d := if d.get Reg.MGMT_PAIR_active = n then d.incE Cnt.MGMT_CNT_MGMT_TAKEOVER else d
    (d.setCore o 4).singleMode o
  else d

/-- A core's feed is lost (R51, R387): off at once. -/
def Dev.coreUnpowered (d : Dev) (n : Nat) : Dev :=
  let was := d.core n
  if was = 0 then d
  else
    let d := { d with pwr := { d.pwr with powered := d.pwr.powered.filter (· != Domain.mgmt n) } }
    (d.setCore n 0).coreGone n was []

/-! ### Rows -/

/-- A core that cannot run: offline, or off and without its feed. -/
def Dev.coreAbsent (d : Dev) (n : Nat) : Bool :=
  d.core n == 5 || (d.core n == 0 && d.get (if n = 0 then Reg.PWR_FEED_STATUS_feed_a_state else Reg.PWR_FEED_STATUS_feed_b_state) != 1)

/-- Firmware runs on every core that can run (R78): both, or the one whose partner is offline or without its feed (log entry
54). -/
def Dev.firmwareCheck (d : Dev) : Dev :=
  let runs (n : Nat) : Bool := d.core n == 3 || d.core n == 4
  if (runs 0 || d.coreAbsent 0) && (runs 1 || d.coreAbsent 1) && (runs 0 || runs 1) then d.firmwareRuns else d

/-- A core's self-test ends, outside a mismatch (R387). -/
def Dev.coreSelftest (d : Dev) (n : Nat) (pass : Bool) : Dev :=
  let o := 1 - n
  if d.core n ≠ 1 ∨ d.pair.mismatch.isSome then d
  else if pass then
    let d := if d.stage = 3 ∧ (d.core o = 1 ∨ d.core o = 3 ∨ d.core o = 4) then d.setCore n (if n = 0 then 4 else 3)
      else if d.core o = 4 then d.setCore n 2
      else if d.core o = 3 ∨ d.core o = 1 ∨ d.core o = 2 then d.setCore n 3
      else d.takeOver n []
    d.firmwareCheck
  else
    let alone := d.coreAbsent o
    let d := d.coreOff n
    (if alone then d.raise Src.FLT_mgmt_none else if d.core o = 3 ∧ n = 0 then d.setCore o 4 else d).firmwareCheck

/-- A resyncing core has the active core's state (R387). -/
def Dev.coreResync (d : Dev) (n : Nat) : Dev :=
  if d.core n = 2 ∧ d.core (1 - n) = 4 then (d.setCore n 3).incU Cnt.MGMT_CNT_MGMT_RESYNC else d

def execCoreResyncDone (n : Fin 2) (s : State) : Host.Outcome State Fault Refusal :=
  .next { s with dev := s.dev.coreResync n }

/-- A mismatch (R390): both cores run self-test, the message is held. -/
def Dev.mismatch (d : Dev) (seq : Nat) : Dev :=
  let act := d.get Reg.MGMT_PAIR_active
  let d := ((d.setCore 0 1).setCore 1 1).put Reg.MGMT_PAIR_active act
  (({ d with pair := { d.pair with mismatch := some seq } }).incE Cnt.CMP_CNT_CMP_MISMATCH).raise Src.MGMT_pair_mismatch

/-- A copy reaches the comparator (R388, R390). -/
def Dev.pairCopy (d : Dev) (n seq : Nat) (m : Message) : Dev :=
  let c : PairCopy := ⟨n, seq, d.nowUs, m⟩
  let hold (d : Dev) (c : PairCopy) : Dev := { d with pair := { d.pair with held := d.pair.held ++ [c] } }
  if d.core n = 3 ∨ d.core n = 4 ∨ (d.core n = 1 ∧ d.pair.mismatch.isSome) then
    match d.pair.released.find? fun r => r.seq == seq && decide (d.nowUs < r.at_ + 1000) with
    | some r => if r.msg = m ∨ d.pair.mismatch.isSome then d else hold d c |>.mismatch seq
    | none =>
      if !d.flag Reg.MGMT_PAIR_dual ∧ d.pair.mismatch.isNone then (hold d { c with core := 2 }).flushAll
      else match d.pair.held.find? fun h => h.seq == seq && h.core == 1 - n with
        | none => hold d c
        | some h =>
          if h.msg ≠ m then (hold d c).mismatch seq
          else if d.nowUs ≤ h.at_ + 2 then
            let held := d.pair.held.filter fun x => x.seq != seq
            (({ d with pair := { d.pair with held := held ++ [{ c with core := 2 }] } }).incU Cnt.CMP_CNT_CMP_PAIRED).flushAll
          else hold d c
  else d

/-- A copy without a partner after 20 µs leaves alone (R388). -/
def Dev.singleCopy (d : Dev) (seq : Nat) : Dev :=
  if d.pair.mismatch = some seq then d
  else match d.pair.held.find? fun c => c.seq == seq && c.core != 2 with
    | none => d
    | some c =>
      let held := d.pair.held.filter fun x => x.seq != seq
      (({ d with pair := { d.pair with held := held ++ [{ c with core := 2 }] } }).incU Cnt.CMP_CNT_CMP_SINGLE).flushAll

/-- No copy from the active core for 100 µs (R389): it goes offline and the standby takes over. -/
def Dev.takeoverRow (d : Dev) (acked : List Nat) : Dev :=
  let n := d.get Reg.MGMT_PAIR_active
  if d.flag Reg.MGMT_PAIR_dual then (d.coreOff n).coreGone n 4 acked else d

/-- The message that a mismatch holds leaves as a core's copy (R390). -/
def Dev.releaseHeld (d : Dev) (seq n : Nat) : Dev :=
  let held := (d.pair.held.filter fun c => !(c.seq == seq && c.core != n)).map fun c =>
    if c.seq = seq then { c with core := 2 } else c
  ({ d with pair := { d.pair with held := held, mismatch := none } }).flushAll

/-- The self-tests of a mismatch end (R390). -/
def Dev.pairSelftest (d : Dev) (ok0 ok1 : Bool) : Dev :=
  match d.pair.mismatch with
  | none => d
  | some seq =>
    let act := d.get Reg.MGMT_PAIR_active
    match ok0, ok1 with
    | false, false => ({ (d.coreOff 0).coreOff 1 with pair := { d.pair with mismatch := none } }).raise Src.FLT_mgmt_none
    | true, true =>
      let again := match d.pair.lastMismatch with | some t => decide (d.nowUs < t + 1000000) | none => false
      let d := { d with pair := { d.pair with lastMismatch := some d.nowUs } }
      let d := d.setCore act 4
      let d := if again then d.coreOff (1 - act) else d.setCore (1 - act) 2
      let d := d.releaseHeld seq act
      if again then d.singleMode act else d
    | true, false => (((d.coreOff 1).setCore 0 4).releaseHeld seq 0).singleMode 0
    | false, true => (((d.coreOff 0).setCore 1 4).releaseHeld seq 1).singleMode 1

/-- MGMT_PAIR_CTRL.offline (R395): ignored unless the other core is active or standby. -/
def Dev.coreOffline (d : Dev) (n : Nat) : Dev :=
  let was := d.core n
  if (d.core (1 - n) = 3 ∨ d.core (1 - n) = 4) ∧ was ≠ 5 then (d.coreOff n).coreGone n was [] else d

/-- MGMT_PAIR_CTRL.retry (R387, R395): an offline core on a good feed is off, its domain power-cycled. -/
def Dev.coreRetry (d : Dev) (n : Nat) : Dev :=
  let feed := d.get (if n = 0 then Reg.PWR_FEED_STATUS_feed_a_state else Reg.PWR_FEED_STATUS_feed_b_state)
  if d.core n = 5 ∧ feed = 1 then
    { d.setCore n 0 with pwr := { d.pwr with powered := d.pwr.powered.filter (· != Domain.mgmt n) } }
  else d

def execCoreRetry (n : Fin 2) (s : State) : Host.Outcome State Fault Refusal :=
  .next { s with dev := s.dev.coreRetry n }

/-- A slice of the standby's background self-test (R391): a completed pass and a failure are health events; a failure takes the
standby offline. -/
def Dev.standbySlice (d : Dev) (ok passEnds : Bool) : Dev :=
  if !d.flag Reg.MGMT_PAIR_dual then d
  else
    let act := d.get Reg.MGMT_PAIR_active
    if !ok then ((d.setCore (1 - act) 5).healthEvent.raise Src.MGMT_standby_selftest).singleMode act
    else if passEnds then d.healthEvent.incU Cnt.MGMT_CNT_MGMT_SELFTEST
    else d

/-- A message has been held for more than 5 ms (R396). -/
def execCmpHeld (s : State) : Host.Outcome State Fault Refusal :=
  .next { s with dev := if s.dev.pair.held = [] then s.dev else s.dev.raise Src.CMP_cmp_held }

end Sys2Proof.Machine
end

