-- ==== Sys2Proof/Machine/Power.lean ====
section
/-! DEFINITION. Feeds (R50 to R58, R467), power domains (R51, R52), Idle-Keep (R61 to R64), VDDQ_D (R451), PMBus (R462) and the
clock points that the limiter moves (R57, R421). -/

namespace Sys2Proof.Machine

/-! ### Clock points (R421, R424) -/

/-- The partitions whose clocks move (R57): every one but those out of service. -/
def Dev.clocked (d : Dev) : List Nat := (List.range 16).filter fun p => d.partState p != 4

/-- A partition moves down so many usable points (R57). -/
def Dev.lowerPoint (d : Dev) (p n : Nat) : Dev :=
  let below := (d.usable p).filter fun i => decide (i ≤ d.pointOf p)
  d.aimPoint p (below[below.length - 1 - n]?.getD (d.pointOf p))

/-- A partition moves one usable point towards its run point (R57). -/
def Dev.raisePoint (d : Dev) (p : Nat) : Dev :=
  match (d.usable p).find? fun i => decide (d.pointOf p < i) && decide (i ≤ d.planPoint p) with
  | some i => d.aimPoint p i
  | none => d

/-- Every limiter measure ends (R58): clocks at the run points, class A unthrottled. -/
def Dev.unlimit (d : Dev) : Dev :=
  let d := d.clocked.foldl (fun (d : Dev) p => d.aimPoint p (d.planPoint p)) d
  { d with pwr := { d.pwr with classA := 16, limited := false } }

/-! ### Feeds (R55, R56, R58) -/

/-- A feed's state: 0 absent, 1 good, 2 returning, 3 locked out. -/
def feedState : Feed → Fld
  | .a => Reg.PWR_FEED_STATUS_feed_a_state
  | .b => Reg.PWR_FEED_STATUS_feed_b_state

/-- The other feed. -/
def otherFeed : Feed → Feed
  | .a => .b
  | .b => .a

/-- The losses of a feed, in µs (R55). -/
def Dev.losses (d : Dev) (f : Feed) : List Nat := match f with | .a => d.pwr.lossA | .b => d.pwr.lossB

/-- The losses of a feed set. -/
def Dev.setLosses (d : Dev) (f : Feed) (l : List Nat) : Dev :=
  { d with pwr := match f with | .a => { d.pwr with lossA := l } | .b => { d.pwr with lossB := l } }

/-- Running descriptors of class G are suspended at their next preemption point (R56, R57). -/
def Dev.pauseG (d : Dev) : Dev :=
  (d.threadsWith fun _ t => t.state == .issuing && t.cls == 2 && preemptible (descKind (t.desc t.idx))).foldl Dev.saveThread d

/-- The package without power (R59): no domain is on, and all state but the fuses, the board's PERST# and the agents is gone. -/
def Dev.powerLoss (d : Dev) : Dev :=
  let e := { Dev.reset with
    regs := d.regs.filter fun e => agentReg e.1 || e.1 / 64 == Reg.SEC_FUSE_rollback.addr
    snaps := d.snaps.filter fun e => decide (0x1000 ≤ e.1) && decide (e.1 < 0x9000)
    latched := d.latched.filter fun e => decide (0x1000 ≤ e.1 / 0x1000) && decide (e.1 / 0x1000 < 0x9000)
    fresh := d.fresh, out := d.out, agents := d.agents, aon := d.aon
    boot := { BootSt.reset with perst := d.boot.perst } }
  let e := (e.put Reg.PWR_FEED_STATUS_feed_a_state 0).put Reg.PWR_FEED_STATUS_feed_b_state 0
  { e with pwr := { e.pwr with powered := [] } }

/-- With both feeds absent at once the package loses power (R59, R63). -/
def Dev.feedsCheck (d : Dev) : Dev :=
  if d.get (feedState .a) = 0 ∧ d.get (feedState .b) = 0 then d.powerLoss else d

/-- A feed is lost: the loss of a good feed is declared (R55, R56); in Idle-Keep it is only recorded (R63). -/
def Dev.feedLoss (d : Dev) (f : Feed) : Dev :=
  if d.get (feedState f) = 2 then d.put (feedState f) 0
  else if d.get (feedState f) ≠ 1 then d
  else
    let d := (d.put (feedState f) 0).setLosses f (d.losses f ++ [d.nowUs])
    if d.get Reg.AON_IDLE_STATUS_state = 2 then
      d.put (match f with | .a => Reg.AON_WAKE_CAUSE_feed_a_event | .b => Reg.AON_WAKE_CAUSE_feed_b_event) 1
    else
      let d := d.incE (match f with | .a => Cnt.PWR_CNT_FEED_A_LOSS | .b => Cnt.PWR_CNT_FEED_B_LOSS)
      let d := d.raise (match f with | .a => Src.PWR_feed_a_lost | .b => Src.PWR_feed_b_lost)
      let d := (d.put Reg.PWR_FEED_STATUS_single_feed 1).pauseG
      let d := { d with pwr := { d.pwr with burst := false } }
      d.coreUnpowered (match f with | .a => 0 | .b => 1)

/-- A feed is lost; with the other absent the package loses power (R55, R59). -/
def Dev.feedLost (d : Dev) (f : Feed) : Dev := (d.feedLoss f).feedsCheck

/-- An absent feed rises above threshold (R55). -/
def execFeedAboveThreshold (f : Feed) (s : State) : Host.Outcome State Fault Refusal :=
  .next { s with dev := if s.dev.get (feedState f) = 0 then s.dev.put (feedState f) 2 else s.dev }

/-- A returning feed dips below threshold (R55); with the other absent the package loses power (R59). -/
def execFeedBelowThreshold (f : Feed) (s : State) : Host.Outcome State Fault Refusal :=
  .next { s with dev := if s.dev.get (feedState f) = 2 then (s.dev.put (feedState f) 0).feedsCheck else s.dev }

/-! ### Waking (R61 to R64) -/

/-- The wake sources in the order of AON_IDLE_CTRL bits [12:8]: pin, I3C, comparators 0 and 1, feed. -/
def wakeEnable (i : Nat) : Fld :=
  match i with
  | 0 => Reg.AON_IDLE_CTRL_wake_pin
  | 1 => Reg.AON_IDLE_CTRL_wake_i3c
  | 2 => Reg.AON_IDLE_CTRL_wake_cmp0
  | 3 => Reg.AON_IDLE_CTRL_wake_cmp1
  | _ => Reg.AON_IDLE_CTRL_wake_feed

/-- The controller leaves Idle-Keep (R63, R64): power-up from stage 0x1 as a wake, in single-feed operation
while a feed is not good (R467); LPDDR4X counts as kept unless VDDQ_D dropped. -/
def Dev.wakeUp (d : Dev) : Dev :=
  let lost := d.pwr.ddrLost
  let k := d
  let d := d.resetDevice
  let d := { d with pwr := { d.pwr with ddrLost := false, wakeNow := false, keptDue := !lost } }
  let d := if lost then d else { d with lpd := k.lpd, jobs := k.jobs, mir := k.mir }
  let d := (d.put Reg.AON_IDLE_STATUS_state 3).putB Reg.AON_IDLE_STATUS_ddr_kept (!lost)
  let d := d.put Reg.BOOT_STATUS_wake 1
  let both := d.get Reg.PWR_FEED_STATUS_feed_a_state == 1 && d.get Reg.PWR_FEED_STATUS_feed_b_state == 1
  let d := d.putB Reg.PWR_FEED_STATUS_single_feed (!both)
  if d.get Reg.TIME_STATUS_state = 4 then d.raise Src.TIME_holdover else d

/-- A wake source fires (R63): while entering it is recorded and wakes at once after entry; in Idle-Keep it wakes; together with the source
that woke, at the moment of the wake, it is recorded too. -/
def Dev.wakeBy (d : Dev) (i : Nat) : Dev :=
  let st := d.get Reg.AON_IDLE_STATUS_state
  if !d.flag (wakeEnable i) ∨ st = 0 then d
  else if st = 3 then (if d.nowUs = d.boot.start then d.setBitOf Reg.AON_WAKE_CAUSE_cause i else d)
  else
    let d := d.setBitOf Reg.AON_WAKE_CAUSE_cause i
    if st = 1 then { d with pwr := { d.pwr with wakeNow := true } } else d.wakeUp

/-- An armed comparator is reached by the time base (R61). -/
def Dev.wakeCmp (d : Dev) (i : Nat) : Dev :=
  if d.flag (Reg.AON_WAKE_CMP_arm i) ∧ d.get (Reg.AON_WAKE_CMP_seconds i) ≤ secOf d.time then d.wakeBy (2 + i) else d

def execWakeCmp (i : Fin 2) (s : State) : Host.Outcome State Fault Refusal := .next { s with dev := s.dev.wakeCmp i }

/-- WAKE_N has been low for 1 µs (R460): a low level that was there at entry does not wake. -/
def execWakePin (wentHigh : Bool) (s : State) : Host.Outcome State Fault Refusal :=
  .next { s with dev := if wentHigh then s.dev.wakeBy 0 else s.dev }

def execI3cWake (s : State) : Host.Outcome State Fault Refusal := .next { s with dev := s.dev.wakeBy 1 }

/-- Idle-Keep is reached (R62, R350; what LPDDR4X holds stays, R258): pages are drained, LPDDR4X is in self-refresh, every domain but AON is off. -/
def Dev.idleEntered (d : Dev) : Dev :=
  if d.get Reg.AON_IDLE_STATUS_state ≠ 1 then d
  else
    let wakes := d.pwr.wakeNow
    let k := d
    let d := d.resetDevice
    let d := { d with lpd := k.lpd, jobs := k.jobs, mir := k.mir, pwr := { d.pwr with powered := [.aon] } }
    let st := d.get Reg.TIME_STATUS_state
    let d := if 1 ≤ st ∧ st ≤ 3 then d.put Reg.TIME_STATUS_state 4 else d
    let d := d.put Reg.AON_IDLE_STATUS_state 2
    if wakes then d.wakeUp else d

def execIdleEntryDone (s : State) : Host.Outcome State Fault Refusal := .next { s with dev := s.dev.idleEntered }

/-- A core that went offline is off again when its feed returns (R58, R387). -/
def Dev.coreReturns (d : Dev) (n : Nat) : Dev :=
  if d.core n = 5 then
    ({ d with pwr := { d.pwr with powered := d.pwr.powered.filter fun x => x != Domain.mgmt n } }).setCore n 0
  else d

/-- return_hold elapses (R55, R58): a feed that lost too often within 600 s is locked out, another is good; with both good the
limits of single-feed operation end, and the feed may be a wake source, in Idle-Keep or on the way into it (R63). -/
def Dev.returnHold (d : Dev) (f : Feed) : Dev :=
  if d.get (feedState f) ≠ 2 then d
  else
    let recent := (d.losses f).filter fun t => decide (d.nowUs ≤ t + 600000000)
    if max 1 (d.get Reg.PWR_FEED_CTRL_flap_limit) ≤ recent.length then
      (d.put (feedState f) 3).raise Src.PWR_feed_lockout
    else
      let d := d.put (feedState f) 1
      if d.get Reg.AON_IDLE_STATUS_state = 2 then d.wakeBy 4
      else
      let d := (d.coreReturns (match f with | .a => 0 | .b => 1)).wakeBy 4
      if d.get (feedState (otherFeed f)) = 1 then (d.put Reg.PWR_FEED_STATUS_single_feed 0).unlimit
      else d

def execReturnHold (f : Feed) (s : State) : Host.Outcome State Fault Refusal :=
  .next { s with dev := s.dev.returnHold f }

/-- A locked-out feed is rearmed (R55). -/
def Dev.rearm (d : Dev) (f : Feed) : Dev :=
  if d.get (feedState f) = 3 then (d.put (feedState f) 2).setLosses f [] else d

def execRearm (f : Feed) (s : State) : Host.Outcome State Fault Refusal := .next { s with dev := s.dev.rearm f }

/-- Package power is still above single_w 100 µs after a loss (R57). -/
def Dev.overEnvelope (d : Dev) : Dev :=
  let above := decide (d.get Reg.PWR_LIMIT_single_w * 1000 < d.get Reg.PWR_PKG_POWER_mw)
  if d.flag Reg.PWR_FEED_STATUS_single_feed && above then d.raise Src.PWR_over_envelope else d

def execOverEnvelope (s : State) : Host.Outcome State Fault Refusal := .next { s with dev := s.dev.overEnvelope }

/-- The burst allowance ends (R60). -/
def execBurstEnd (s : State) : Host.Outcome State Fault Refusal :=
  .next { s with dev := { s.dev with pwr := { s.dev.pwr with burst := false } } }

/-! ### Power on and off (R51 to R54, R59, R467) -/

/-- The regulator gave no identifier (R53): it did not answer, or with a block shorter than eight bytes. -/
def noFeedId (b : Option (List Byte)) : Bool :=
  match b with
  | some bs => decide (bs.length < 8)
  | none => true

/-- A feed identifier (R53): the first eight bytes of the block; 0 when the regulator did not answer or the block is shorter. -/
def feedId (b : Option (List Byte)) : Nat :=
  match b with
  | some bs => if 8 ≤ bs.length then field bs 0 8 else 0
  | none => 0

/-- A feed appears (R52 to R54, R467): AON and HUB power on; feed states, identifiers and the tray slot are taken. The level of PERST# is the
pin's, and stands (log entry 46). -/
def Dev.powerOn (d : Dev) (a b : Bool) (ida idb : Option (List Byte)) (slot : Nat) : Dev :=
  if d.pwr.powered ≠ [] then d
  else
    let e := d.powerLoss
    let e := { e with pwr := { PowerSt.reset with traySlot := slot }, boot := { e.boot with start := d.nowUs } }
    let e := (e.putB Reg.PWR_FEED_STATUS_feed_a_state a).putB Reg.PWR_FEED_STATUS_feed_b_state b
    let e := e.putB Reg.PWR_FEED_STATUS_single_feed (!(a && b))
    let x := feedId ida
    let y := feedId idb
    let e := (e.put Reg.PWR_FEED_ID_A_id x).put Reg.PWR_FEED_ID_B_id y
    let e := if x = 0 ∨ y = 0 then e.put Reg.PWR_FEED_STATUS_ids_unknown 1 else e
    let e := if noFeedId ida || noFeedId idb then e.raise Src.PWR_telemetry_lost else e
    if x ≠ 0 ∧ x = y then (e.put Reg.PWR_FEED_STATUS_ids_shared 1).raise Src.PWR_feeds_shared else e

def execPowerOn (a b : Bool) (ida idb : Option (List Byte)) (slot : BitVec 5) (s : State) :
    Host.Outcome State Fault Refusal :=
  .next { s with dev := s.dev.powerOn a b ida idb slot.toNat }

/-- The power-on order of a domain (R51). -/
def domainOrder : Domain → Nat
  | .aon => 1 | .hub => 2 | .mgmt _ => 3 | .tile _ => 4 | .sram _ => 5 | .part _ => 6
  | .phyA | .phyG | .phyX | .phyD _ => 7

/-- The domains of the package (R51). -/
def allDomains : List Domain :=
  [.aon, .hub, .mgmt 0, .mgmt 1, .tile 0, .tile 1, .sram 0, .sram 1] ++ (List.range 16).map Domain.part ++
    [.phyA, .phyG, .phyX] ++ (List.range 16).map Domain.phyD

/-- A domain cannot be powered now: its feed is absent, its core is offline, or its partition is out of service. -/
def Dev.domainOff (d : Dev) : Domain → Bool
  | .mgmt n => d.get (if n = 0 then Reg.PWR_FEED_STATUS_feed_a_state else Reg.PWR_FEED_STATUS_feed_b_state) != 1 || d.core n == 5
  | .part p => d.partState p == 4
  | .phyD p => d.partState p == 4
  | _ => false

/-- A domain has reported power-good for 10 µs (R52): those of order 3 and above only after the firmware was verified, and
only when every domain of lower order that can be powered is. A management core then begins its self-test (R387). -/
def Dev.powerGood (d : Dev) (x : Domain) : Dev :=
  let lower := allDomains.filter fun y => decide (domainOrder y < domainOrder x)
  if allDomains.contains x ∧ !d.pwr.powered.contains x ∧ d.pwr.powered ≠ [] ∧ !d.domainOff x ∧
      (domainOrder x ≤ 2 ∨ d.boot.fw.isSome) ∧ lower.all (fun y => d.pwr.powered.contains y || d.domainOff y) then
    let d := { d with pwr := { d.pwr with powered := d.pwr.powered ++ [x] } }
    match x with
    | .mgmt n => if d.core n = 0 then d.setCore n 1 else d
    | _ => d
  else d

def execPowerGood (x : Domain) (s : State) : Host.Outcome State Fault Refusal :=
  .next { s with dev := s.dev.powerGood x }

/-- Both feeds are absent (R59): the package, AON included, loses power and all state but the fuses. -/
def execPowerLoss (s : State) : Host.Outcome State Fault Refusal := .next { s with dev := s.dev.powerLoss }

/-- The PMBus controllers poll (R462): the third failure in succession of a bus raises telemetry_lost. -/
def Dev.pmbusPoll (d : Dev) (okA okB : Bool) : Dev :=
  let fa := if okA then 0 else d.pwr.pollFailA + 1
  let fb := if okB then 0 else d.pwr.pollFailB + 1
  let d := { d with pwr := { d.pwr with pollFailA := fa, pollFailB := fb } }
  if fa = 3 ∨ fb = 3 then d.raise Src.PWR_telemetry_lost else d

def execPmbusPoll (okA okB : Bool) (s : State) : Host.Outcome State Fault Refusal :=
  .next { s with dev := s.dev.pmbusPoll okA okB }

/-- VDDQ_D is below 0.54 V for 2 µs (R451); a sequence held or halted counts by the last stage that ran (log entry 37). -/
def Dev.vddqLow (d : Dev) : Dev :=
  if d.get Reg.AON_IDLE_STATUS_state = 2 then { d with pwr := { d.pwr with ddrLost := true } }
  else if 5 ≤ d.ranStage then (List.range 16).foldl (fun d p => d.raise (Src.LPD_lpd_retrain_fail p)) d
  else { d with pwr := { d.pwr with vddqDrop := true } }

def execVddqLow (s : State) : Host.Outcome State Fault Refusal := .next { s with dev := s.dev.vddqLow }

end Sys2Proof.Machine
end

