-- ==== Sys2Proof/Machine/Boot.lean ====
section
/-! DEFINITION. The loader page (R69 to R74), power-up tests (R78, R79), LPDDR4X training (R80), the time stage (R83),
anti-rollback (R75) and attestation (R77), the rack plan (R270 to R274) and the staging of pattern packs (R416). -/

namespace Sys2Proof.Machine

/-! ### Starting a fetch (R70, R71, R469) -/

/-- An object type is accepted in the present stage (R71). -/
def Dev.accepts (d : Dev) (obj : Nat) : Bool :=
  let n := d.stage
  match obj with
  | 1 => n == 1
  | 2 => (n == 3 && !d.boot.pack3Used) || n == 0xA
  | 3 => (decide (3 ≤ n) && decide (n ≤ 7)) || n == 0xA
  | _ => false

/-- The greatest length of an object type (R70). -/
def maxLen (obj : Nat) : Nat :=
  match obj with
  | 1 => 48 * 2 ^ 20
  | 2 => 256 * 2 ^ 20
  | _ => 2 ^ 20

/-- The partition in whose SRAM a pattern pack is staged (R69): partition 0 in stage 0x3, later the lowest one in service. -/
def Dev.stagingPart (d : Dev) : Nat := if d.stage = 3 then 0 else ((List.range 16).find? fun p => d.partState p == 0).getD 0

/-- FWL_CTRL.go for an object type (R70, R71, R469). A firmware object that R72 refuses at once with 0x02 counts as a download (log
entry 46). done and result of the last object stay until the new one ends (log entry 54). -/
def Dev.fwlGo (d : Dev) (obj : Nat) : Dev :=
  if d.flag Reg.FWL_STATUS_busy ∨ !d.flag (Reg.PAGE_STATUS_enabled 0x003) then d
  else
    let d := ((d.put Reg.FWL_CTRL_obj obj).put Reg.FWL_STATUS_obj obj).put Reg.FWL_STATUS_bytes 0
    let len := d.get Reg.FWL_LEN_len
    if !d.accepts obj then d.fwlEnd 0x01
    else
      let d := if obj = 1 then d.put Reg.BOOT_STATUS_attempts (Nat.min 255 (d.get Reg.BOOT_STATUS_attempts + 1)) else d
      if len = 0 ∨ maxLen obj < len then d.fwlEnd 0x02
      else
        ({ d with boot := { d.boot with fetch := some ⟨obj, d.get Reg.FWL_ADDR_addr, len, false, [], d.stagingPart⟩ } }).put
          Reg.FWL_STATUS_busy 1

def execFwlGo (obj : BitVec 4) (s : State) : Host.Outcome State Fault Refusal :=
  .next { s with dev := s.dev.fwlGo obj.toNat }

/-- FWL_CTRL.abort ends the fetch in progress (R70, R72); a package being checked leaves stage 0x1 to wait for another (log entry 37). -/
def Dev.fwlAbort (d : Dev) : Dev :=
  if d.flag Reg.FWL_STATUS_busy then
    let checked := d.stage == 2 && d.fetching 1
    let d := d.fwlEnd 0x09
    if checked then (d.put Reg.BOOT_STATUS_stage 1).waitStart else d
  else d

def execFwlAbort (s : State) : Host.Outcome State Fault Refusal := .next { s with dev := s.dev.fwlAbort }

/-! ### Checks of images (R73, R74) -/

/-- A big-endian number of n bytes at an offset. -/
def fieldBe (bs : List Byte) (off n : Nat) : Nat := ((bs.drop off).take n).foldl (fun acc b => acc * 256 + b.toNat) 0

/-- The image length a header states (R73). -/
def imageLen (bs : List Byte) : Nat := field bs 0x14 4

/-- The checks of R74 in order: the result code, 0 when all pass. -/
def Dev.checkImage (d : Dev) (magic : Nat) (bs : List Byte) : Nat :=
  let slot := field bs 6 1
  let key := fieldBe bs 0x20 97
  let img := bs.take (imageLen bs)
  if bs.length < 0x200 ∨ imageLen bs < 0x200 ∨ bs.length < imageLen bs then 0x02
  else if field bs 0 4 ≠ magic ∨ field bs 4 2 ≠ 1 ∨ 1 < slot then 0x04
  else if Config.sha384 ((bs.drop 0x20).take 97) ≠ Config.fusedKeyHash slot then 0x05
  else if d.flag (if slot = 0 then Reg.SEC_FUSE_slot0_revoked else Reg.SEC_FUSE_slot1_revoked) then 0x06
  else if field bs 8 4 < d.get Reg.SEC_FUSE_rollback then 0x07
  else if !Config.ecdsaOk key (Config.sha384 (img.take 0x100 ++ img.drop 0x200)) (fieldBe bs 0x100 96) then 0x08
  else 0x00

/-- What is kept of an accepted image (R73). -/
def objInfo (bs : List Byte) : ObjInfo :=
  let img := bs.take (imageLen bs)
  ⟨Config.sha384 img, field bs 8 4, field bs 0xC 4, field bs 0x10 4, img.map BitVec.toNat⟩

/-! ### The rack plan (R270 to R274) -/

/-- A plan's fields (R270). -/
def parsePlan (bs : List Byte) : PlanInfo where
  rack := field bs 6 2
  gen := field bs 8 4
  racks := field bs 0xC 2
  pod := field bs 0x10 8
  admitG := field bs 0x1C 1
  admitX := field bs 0x1D 1
  digest := Config.sha384 (bs.take (field bs 0x18 4))
  trays := (List.range 18).map fun s =>
    (field bs (0x40 + 32 * s) 16, field bs (0x50 + 32 * s) 1, field bs (0x51 + 32 * s) 1)
  globals := (List.range (field bs 0xE 2)).map fun e => field bs (0x280 + 8 * e) 8

/-- A global entry is malformed (R273 reason 0x03). -/
def badGlobal (p : PlanInfo) (w : Nat) : Bool :=
  decide (17 < bits 0 8 w) || decide (bits 8 8 w < 26) || decide (39 < bits 8 8 w) || decide (p.racks ≤ bits 16 16 w) ||
    bits 16 16 w == p.rack || decide (17 < bits 32 8 w) || decide (bits 40 8 w < 26) || decide (39 < bits 40 8 w)

/-- The reason a plan is rejected with, 0 when it is accepted (R273). -/
def Dev.planReject (d : Dev) (bs : List Byte) : Nat :=
  let p := parsePlan bs
  let locals := p.globals.map fun w => w % 2 ^ 16
  if field bs 0 4 ≠ 0x3150524B ∨ field bs 4 2 ≠ 1 ∨ field bs 0x18 4 ≠ 0x280 + 8 * field bs 0xE 2 then 0x01
  else if p.racks ≤ p.rack ∨ 253 < p.racks then 0x02
  else if p.globals.any (badGlobal p) then 0x03
  else if locals.eraseDups.length ≠ locals.length then 0x04
  else match d.boot.plan with
    | none => 0
    | some q =>
      if p.gen ≤ q.gen then 0x05
      else if d.stage = 0xA ∧ (p.rack ≠ q.rack ∨ p.pod ≠ q.pod) then 0x06
      else if d.stage = 0xA ∧ !d.identityHolds p then 0x07
      else 0

/-- A plan is in force (R272, R274): routes follow it; in discovery its identity is checked and the host wait ends; in stage
0xA every port is classified again. -/
def Dev.planInForce (d : Dev) (p : PlanInfo) : Dev :=
  let d := { d with boot := { d.boot with plan := some p } }
  let d := ((d.put Reg.DEV_PLAN_STATUS_generation p.gen).put Reg.DEV_PLAN_STATUS_rack p.rack).put Reg.DEV_PLAN_STATUS_loaded 1
  if d.stage = 0xA then d.planReplaced
  else if d.stage = 7 then
    let d := d.waitEnd
    if d.identityHolds p then d.startDiscovery else d.halt 0x71
  else d

/-! ### The end of a fetch (R72) -/

/-- A verified pack of stage 0xA, by FWL or by PACK (R416), in its staging partition (R69): the result for DBG_PACK_STATUS.last; staged
when it is not already held and not older than the staged one; lost when the partition was lost meanwhile. -/
def Dev.stagePack (d : Dev) (info : ObjInfo) (part : Nat) : Dev :=
  match d.boot.packA with
  | some q =>
    if q.digest = info.digest then d.put Reg.DBG_PACK_STATUS_last 0x10
    else if info.release < q.release then d.put Reg.DBG_PACK_STATUS_last 0x11
    else stage d
  | none => stage d
where
  /-- The pack is staged. -/
  stage (d : Dev) : Dev :=
    let d := { d with boot := { d.boot with packA := some info, packPart := part }, packs := PackSt.reset }
    if part = 16 then d.losePack part
    else
    let d := ((d.put Reg.DBG_PACK_STATUS_release info.release).put Reg.DBG_PACK_STATUS_state 1).put Reg.DBG_PACK_STATUS_last 0
    (d.put Reg.DBG_PACK_STATUS_acks 0)

/-- A pattern pack fetched into a staging partition (R71, R72, R78, R416). A pack of stage 0x3 that ends with 0x0A stays staged where it
was fetched, in partition 0, and is lost with it (log entry 54). -/
def Dev.packFetched (d : Dev) (part : Nat) (bs : List Byte) : Dev :=
  let code := d.checkImage 0x3150504B bs
  if code ≠ 0 then d.fwlEnd code
  else
    let info := objInfo bs
    if d.stage = 3 then
      let d := { d with boot := { d.boot with pack3Used := true } }
      if 13000 < info.word10 then (d.stagePack info part).fwlEnd 0x0A
      else ({ d with boot := { d.boot with pack3 := some info } }).fwlEnd 0x00
    else (d.stagePack info part).fwlEnd 0x00

/-- A fetched rack plan (R72, R273, R274). -/
def Dev.planFetched (d : Dev) (bs : List Byte) : Dev :=
  if bs.length < 0x280 ∨ bs.length < field bs 0x18 4 then d.fwlEnd 0x02
  else
    let reason := d.planReject bs
    if reason = 0 then (d.fwlEnd 0x00).planInForce (parsePlan bs)
    else (d.put Reg.DEV_PLAN_STATUS_reject reason).fwlEnd 0x0B

/-- The DMA of a fetch ends (R68, R72): firmware goes to stage 0x2; packs and plans are checked at once. -/
def Dev.fetchDone (d : Dev) (dma : Dma) : Dev :=
  match d.boot.fetch with
  | none => d
  | some f =>
    if f.checking then d
    else
      let d := d.dmaRead dma
      match dma with
      | none => d.fwlEnd 0x03
      | some bs =>
        let bs := bs.take f.len
        let d := d.put Reg.FWL_STATUS_bytes bs.length
        if f.obj = 1 then
          (({ d with boot := { d.boot with fetch := some { f with checking := true, bytes := bs.map BitVec.toNat } } }).waitEnd).endStage
        else if f.obj = 2 then d.packFetched f.part bs
        else d.planFetched bs

def execFwlFetchDone (dma : Dma) (s : State) : Host.Outcome State Fault Refusal :=
  .next { s with dev := s.dev.fetchDone dma }

/-- Verification of the firmware ends (R74, R75): stage 0x3, or back to stage 0x1 to wait for another package. -/
def Dev.verifyDone (d : Dev) : Dev :=
  match d.boot.fetch with
  | none => d
  | some f =>
    if !f.checking ∨ d.stage ≠ 2 then d
    else
      let bs := f.bytes.map fun b => (BitVec.ofNat 8 b : Byte)
      let code := d.checkImage 0x3150464B bs
      if code = 0 then
        (({ d with boot := { d.boot with fw := some { objInfo bs with bytes := [] } } }).fwlEnd 0x00).endStage
      else ((d.fwlEnd code).put Reg.BOOT_STATUS_stage 1).waitStart

def execVerifyDone (s : State) : Host.Outcome State Fault Refusal := .next { s with dev := s.dev.verifyDone }

/-! ### Tests and training (R69, R78 to R80) -/

/-- A partition is taken out of service at power-up (R79). -/
def Dev.bootOut (d : Dev) (p : Nat) : Dev := (d.setBitOf Reg.BOOT_RESULT_part_out p).partOut p 5

/-- The power-up tests end (R69, R78, R79, R427, R428): findings, failed lanes, the voltage-frequency tables and the idle power;
the pack counts as applied when its read-back passed. Two partitions out of service, or a failed hub test, halt. -/
def Dev.testsDone (d : Dev) (fs : List Findings) (lanes : Nat) (hubFail packOk : Bool) (vf : List (List (Nat × Int × Bool)))
    (p0 : Nat) : Dev :=
  if d.stage ≠ 4 then d
  else
    let d := (fs.take 16).zipIdx.foldl (fun d f => d.applyFindings f.2 f.1) d
    let d := (vf.take 16).zipIdx.foldl (fun d t =>
      let table := t.1.map fun e => (⟨e.1, e.2.1, e.2.2⟩ : VfPoint)
      let d := d.setMon t.2 { d.mon t.2 with table := table }
      d.put (Reg.MON_STATUS_run_pt t.2) (d.planPoint t.2)) d
    let d := { d with boot := { d.boot with laneFail := lanes } }
    let d := d.put Reg.DEV_NRG_P0_mw p0
    let d : Dev := match d.boot.pack3 with
      | some q => if packOk then { d with boot := { d.boot with applied := some q.digest } } else d
      | none => d
    if hubFail || decide (2 ≤ d.outCount) then d.halt 0x41 else d.endStage

def execTestsDone (fs : List Findings) (lanes : Word) (hubFail packOk : Bool) (vf : List (List (Nat × Int × Bool)))
    (p0 : BitVec 32) (s : State) : Host.Outcome State Fault Refusal :=
  .next { s with dev := s.dev.testsDone fs lanes.toNat hubFail packOk vf p0.toNat }

/-- LPDDR4X training of a partition ends (R64, R80): a partition that trains at no rate is out of service; every byte is zero
unless the contents were kept; the stage ends when every partition in service has trained. -/
def Dev.ddrStage (d : Dev) (p : Nat) (r : DdrRate) : Dev :=
  if d.stage ≠ 5 ∨ d.partState p = 4 then d
  else
    let kept := d.flag Reg.BOOT_STATUS_wake && d.flag Reg.AON_IDLE_STATUS_ddr_kept
    let d := if r = .failed then d.bootOut p else d.ddrTrained p r
    let d := if kept then d else d.loseLpd p
    if 2 ≤ d.outCount then d.halt 0x41
    else if (List.range 16).all fun p => d.partState p == 4 || d.get (Reg.LPD_STATUS_trained p) == 15 then
      (d.endStage).lanesDone.startDiscovery
    else d

def execDdrTrained (p : Fin 16) (r : DdrRate) (s : State) : Host.Outcome State Fault Refusal :=
  .next { s with dev := s.dev.ddrStage p r }

/-- The time stage ends (R83, R350): rack and pod are what the measurement of the last second, or of ten, found. -/
def Dev.timeStage (d : Dev) (rack pod : Bool) : Dev :=
  if d.stage ≠ 8 then d
  else if !rack then d.halt 0x81
  else
    let d := d.put Reg.TIME_STATUS_state (max 2 (d.get Reg.TIME_STATUS_state))
    if pod then (d.put Reg.TIME_STATUS_state 3).endStage
    else (d.raise Src.TIME_pod_time_unlocked).endStage

def execTimeStageEnd (rack pod : Bool) (s : State) : Host.Outcome State Fault Refusal :=
  .next { s with dev := s.dev.timeStage rack pod }

/-! ### Anti-rollback and attestation (R75 to R77) -/

/-- SEC_ROLLBACK.advance (R75): in stage 0xA, to the svn of the running image when that is greater. -/
def Dev.rollback (d : Dev) : Dev :=
  match d.boot.fw with
  | some f => if d.stage = 0xA ∧ d.get Reg.SEC_FUSE_rollback < f.svn then d.put Reg.SEC_FUSE_rollback f.svn else d
  | none => d

def execRollbackAdvance (s : State) : Host.Outcome State Fault Refusal := .next { s with dev := s.dev.rollback }

/-- The 240 signed bytes of the attestation report (R77). -/
def Dev.reportBody (d : Dev) : List Byte :=
  let member := d.isMember
  let flags := b2n member + 2 * b2n d.boot.applied.isSome + 4 * b2n d.boot.plan.isSome +
    8 * d.get Reg.BOOT_STATUS_wake + 16 * d.get Reg.AON_IDLE_STATUS_ddr_kept
  bytesOf 4 1 ++ bytesOf 4 336 ++ bytesOf 16 Config.serial ++ bytesOf 2 0x00B1 ++ bytesOf 2 d.chip ++ bytesOf 4 flags ++
    bytesOf 4 (d.get Reg.SEC_FUSE_rollback) ++ bytesOf 4 ((d.boot.fw.map ObjInfo.svn).getD 0) ++
    bytesOf 4 ((d.boot.fw.map ObjInfo.release).getD 0) ++ bytesOf 4 d.stage ++
    bytesOf 48 ((d.boot.fw.map ObjInfo.digest).getD 0) ++ bytesOf 48 (d.boot.applied.getD 0) ++
    bytesOf 48 ((d.boot.plan.map PlanInfo.digest).getD 0) ++
    (List.range 4).flatMap (fun i => bytesOf 8 (d.get (Reg.SEC_NONCE_nonce i))) ++
    bytesOf 8 (secOf d.time) ++ bytesOf 8 (nsOf d.time)

/-- SEC_ATT_CTRL.go (R77): the report of this moment, ignored while one is being built. SEC_ATT_REPORT shows it from now on (log
entry 46). -/
def Dev.attestGo (d : Dev) : Dev :=
  if d.flag Reg.SEC_ATT_STATUS_busy then d
  else
    let body := d.reportBody
    let sig := bytesOf 96 (Config.ecdsaSign (Config.sha384 body))
    ({ d with boot := { d.boot with report := (body ++ sig).map BitVec.toNat } }).put Reg.SEC_ATT_STATUS_busy 1

def execAttestGo (s : State) : Host.Outcome State Fault Refusal := .next { s with dev := s.dev.attestGo }

/-- The report is complete (R77). -/
def Dev.attestDone (d : Dev) : Dev :=
  if d.flag Reg.SEC_ATT_STATUS_busy then
    ((d.put Reg.SEC_ATT_STATUS_busy 0).put Reg.SEC_ATT_STATUS_done 1).put Reg.SEC_ATT_STATUS_len 336
  else d

def execAttestDone (s : State) : Host.Outcome State Fault Refusal := .next { s with dev := s.dev.attestDone }

end Sys2Proof.Machine
end

