-- ==== Sys2Proof/Machine/Tense.lean ====
section
/-! DEFINITION. Tense (R355, R356), the pulse outputs (R358, R359) and the capture inputs (R360). -/

namespace Sys2Proof.Machine

/-! ### The instances (R355) -/

/-- The phase of an instance (R355): it holds at 65,535 until the next mark. -/
def Dev.phase (d : Dev) (x : TenseSt) : Nat :=
  Nat.min 65535 ((d.time - x.anchor) * 65536 / (max 1 x.pred * unitsPerUs))

/-- The position of an instance as one number: step × 65,536 + phase. -/
def Dev.position (d : Dev) (x : TenseSt) : Nat := x.step * 65536 + d.phase x

/-- The instance that holds a job. -/
def Dev.instOf (d : Dev) (job : Nat) : Option Nat := (d.tense.find? fun e => e.2.job == job).map (·.1)

/-- The lowest instance that holds no job (R355). -/
def Dev.freeInst (d : Dev) : Option Nat := (List.range 8).find? fun i => (Tab.find i d.tense).isNone

/-- An instance set. -/
def Dev.setTense (d : Dev) (i : Nat) (x : TenseSt) : Dev := { d with tense := Tab.insert i x (Tab.erase i d.tense) }

/-! ### Pulses (R358, R359) -/

/-- The i-th target of an output: a time, or a Tense position (R358). -/
def PulseSt.target (p : PulseSt) (i : Nat) : Nat :=
  if p.tense then (bits 24 40 p.t0 + i * p.per) * 65536 + bits 8 16 p.t0
  else timeOfStamp p.t0 + i * p.per * 2 ^ 40

/-- Where an output stands now: the time, or the position of its instance; none while the instance holds no job. -/
def Dev.pulseNow (d : Dev) (p : PulseSt) : Option Nat :=
  if p.tense then (Tab.find p.inst d.tense).map d.position else some d.time

/-- The least target number, not below i, whose target does not lie before a moment. -/
def PulseSt.after (p : PulseSt) (i bound : Nat) : Nat :=
  let step := if p.tense then p.per * 65536 else p.per * 2 ^ 40
  max i (ceilDiv (bound - p.target 0) (max 1 step))

/-- The asserted level of an output (R364 pol). -/
def PulseSt.level (p : PulseSt) : Nat := b2n (!p.pol)

/-- An output set or disarmed. -/
def Dev.setPulse (d : Dev) (n : Nat) (p : Option PulseSt) : Dev :=
  let t := Tab.erase n d.pulses
  ({ d with pulses := match p with | some x => Tab.insert n x t | none => t }).putB (Reg.PULSE_STATUS_armed n) p.isSome

/-- An output fires (R358): a once-output disarms, a periodic one takes its next target. -/
def Dev.firePulse (d : Dev) (n : Nat) (p : PulseSt) (next : Nat) : Dev :=
  let d := (d.put (Reg.PULSE_STATUS_fired n) (d.get (Reg.PULSE_STATUS_fired n) + 1)).put (Reg.PULSE_STATUS_active n) 1
  let d := (d.incU Cnt.PULSE_CNT_PULSE_FIRED).pin (.pulse n) p.level
  d.setPulse n (if p.periodic then some { p with next := next } else none)

/-- An output whose target is past fires at once (R359), late or, after a mark, not; it goes on with the next target not past. -/
def Dev.catchUp (d : Dev) (n : Nat) (late : Bool) : Dev :=
  match Tab.find n d.pulses with
  | none => d
  | some p => match d.pulseNow p with
    | none => d
    | some now =>
      if p.target p.next < now then
        let d := d.firePulse n p (p.after (p.next + 1) now)
        if late then (d.put (Reg.PULSE_STATUS_late n) 1).raise Src.PULSE_pulse_late else d
      else d

/-- The period that acts (R32, R361): of Tense steps at least 1, of pod time at least 1,000 ns. -/
def pulsePer (tense : Bool) (v : Nat) : Nat := if tense then max 1 (v % 2 ^ 40) else max 1000 (v % 2 ^ 48)

/-- PULSE_n_CFG.arm (R358, R359, R364): T0, PER and CFG are latched; a target already past fires at once, late. -/
def Dev.pulseArm (d : Dev) (n : Nat) : Dev :=
  let mode := d.get (Reg.PULSE_CFG_mode n)
  if mode = 0 ∨ mode = 3 then d
  else
    let tense := d.flag (Reg.PULSE_CFG_basis n)
    let per := d.get (Reg.PULSE_PER_per n)
    let p : PulseSt := { tense := tense, inst := d.get (Reg.PULSE_CFG_inst n), periodic := mode == 2,
                         pol := d.flag (Reg.PULSE_CFG_pol n), t0 := d.get (Reg.PULSE_T0_t0 n)
                         per := pulsePer tense per, next := 0 }
    (d.setPulse n (some p)).catchUp n true

def execPulseArm (n : Fin 8) (s : State) : Host.Outcome State Fault Refusal := .next { s with dev := s.dev.pulseArm n }

/-- mode written to 0 while armed (R359): the output disarms, a pulse in progress completes. -/
def Dev.pulseOff (d : Dev) (n : Nat) : Dev := d.setPulse n none

/-- An armed output's target time arrives (R358; log entry 18). -/
def Dev.pulseFire (d : Dev) (n : Nat) : Dev :=
  match Tab.find n d.pulses with
  | some p => d.firePulse n p (p.next + 1)
  | none => d

def execPulseFire (n : Fin 8) (s : State) : Host.Outcome State Fault Refusal := .next { s with dev := s.dev.pulseFire n }

/-- The width of a pulse has passed (R358): the output returns to its inactive level. -/
def Dev.pulseEnd (d : Dev) (n : Nat) : Dev :=
  if d.flag (Reg.PULSE_STATUS_active n) then
    let pol := match Tab.find n d.pulses with | some p => p.pol | none => d.flag (Reg.PULSE_CFG_pol n)
    (d.put (Reg.PULSE_STATUS_active n) 0).pin (.pulse n) (b2n pol)
  else d

def execPulseEnd (n : Fin 8) (s : State) : Host.Outcome State Fault Refusal := .next { s with dev := s.dev.pulseEnd n }

/-- The time base has stepped (R359): pod-basis outputs with a past target fire at once, late. -/
def Dev.pulsesStepped (d : Dev) : Dev :=
  (List.range 8).foldl (fun d n => match Tab.find n d.pulses with
    | some p => if p.tense then d else d.catchUp n true
    | none => d) d

/-- The outputs of an instance after its position moved on by a mark: a target passed fires at once, without late (R359). -/
def Dev.pulsesMarked (d : Dev) (i : Nat) : Dev :=
  (List.range 8).foldl (fun d n => match Tab.find n d.pulses with
    | some p => if p.tense && p.inst == i then d.catchUp n false else d
    | none => d) d

/-- The outputs of an instance after its position moved back: a periodic one goes on with the next target after it (R359). -/
def Dev.pulsesBack (d : Dev) (i : Nat) : Dev :=
  (List.range 8).foldl (fun d n => match Tab.find n d.pulses with
    | some p =>
      if p.tense && p.inst == i && p.periodic then
        match d.pulseNow p with
        | some now => d.setPulse n (some { p with next := p.after 0 (now + 1) })
        | none => d
      else d
    | none => d) d

/-! ### The position (R356) -/

/-- A sample updates the prediction (R356): an outlier is left out until regime of them came one after another. -/
def Dev.tenseSample (d : Dev) (i : Nat) (x : TenseSt) (s : Nat) : Dev :=
  let ox := limitTo (.range 2 16) (d.get Reg.TENSE_CTRL_out_x)
  let x := { x with sample := s % 2 ^ 32 }
  if ox * x.pred < s ∨ s * ox < x.pred then
    let d := d.incU Cnt.TENSE_CNT_TENSE_EXCL
    if max 1 (d.get Reg.TENSE_CTRL_regime) ≤ x.run + 1 then
      (d.setTense i { x with pred := max 1 s, run := 0 }).raise Src.TENSE_tense_regime
    else d.setTense i { x with run := x.run + 1 }
  else
    let p : Int := x.pred + ((s : Int) - x.pred) / 2 ^ d.get Reg.TENSE_CTRL_k
    (d.setTense i { x with pred := max 1 p.toNat, run := 0 }).incU Cnt.TENSE_CNT_TENSE_SAMPLES

/-- A job takes the lowest free instance (R355) at the first JOB sent; with none free it runs without one (log entry 19). -/
def Dev.tenseTake (d : Dev) (job step pred : Nat) : Dev :=
  match d.instOf job, d.freeInst with
  | none, some i => d.setTense i ⟨job, step, 0, max 1 pred, d.time, 0, 0, false⟩
  | _, _ => d

/-- The job ends (R355, R359): its instance is free, and outputs on it disarm. -/
def Dev.tenseFree (d : Dev) (job : Nat) : Dev :=
  match d.instOf job with
  | none => d
  | some i =>
    let d := (List.range 8).foldl (fun d n => match Tab.find n d.pulses with
      | some p => if p.tense && p.inst == i then d.setPulse n none else d
      | none => d) d
    { d with tense := Tab.erase i d.tense }

/-- The last member of the tray has marked its round of step N, at latest mark time m (R356): the position enters N + 1. -/
def Dev.tenseMark (d : Dev) (job step m : Nat) : Dev :=
  match d.instOf job with
  | none => d
  | some i =>
    match Tab.find i d.tense with
    | none => d
    | some x =>
      if x.step ≠ step then d
      else
        let s := (m - x.anchor) / unitsPerUs
        let used := x.byMark && x.round == 0
        let d := if used then d.tenseSample i x s else d.setTense i { x with sample := s % 2 ^ 32 }
        match Tab.find i d.tense with
        | none => d
        | some x =>
          (d.setTense i { x with step := step + 1, round := 0, anchor := m, byMark := true }).pulsesMarked i

/-- The position moves back (R356): to (N, 0) of the next round, or to (M + 1, 0) after a restore. -/
def Dev.tenseBack (d : Dev) (job step round : Nat) : Dev :=
  match d.instOf job with
  | none => d
  | some i =>
    match Tab.find i d.tense with
    | none => d
    | some x =>
      let d := d.setTense i { x with step := step, round := round, anchor := d.time, byMark := false }
      (d.raise Src.TENSE_tense_back).pulsesBack i

/-- A REPLAY of a round leaves (R356): the first one moves the position back. -/
def Dev.tenseReplay (d : Dev) (job step round : Nat) : Dev :=
  match (d.instOf job).bind fun i => Tab.find i d.tense with
  | some x => if x.step = step ∧ x.round = round then d else d.tenseBack job step round
  | none => d

/-- P̂ of a job in µs; without an instance, what its descriptor predicts. -/
def Dev.predOf (d : Dev) (job dflt : Nat) : Nat :=
  (((d.instOf job).bind fun i => Tab.find i d.tense).map TenseSt.pred).getD (max 1 dflt)

/-- The phase of an instance has held at 65,535 for longer than P̂ / 4 (R355). -/
def Dev.tenseOverrun (d : Dev) (i : Nat) : Dev :=
  match Tab.find i d.tense with
  | some _ => (d.incE Cnt.TENSE_CNT_TENSE_OVERRUN).raise Src.TENSE_tense_overrun
  | none => d

def execTenseOverrun (i : Fin 8) (s : State) : Host.Outcome State Fault Refusal :=
  .next { s with dev := s.dev.tenseOverrun i }

/-- TENSE_POS as computed at a read (R363); zeros for a free instance. -/
def Dev.tensePos (d : Dev) (i : Nat) : Nat :=
  match Tab.find i d.tense with
  | some x => pack [(24, 40, x.step), (8, 16, d.phase x), (0, 8, x.round)]
  | none => 0

/-! ### Capture inputs (R360) -/

/-- A capture input. -/
def Dev.cap (d : Dev) (c : Nat) : CapSt := Tab.getD d.caps c CapSt.reset

/-- An edge on a capture input (R360): stamped when its direction is chosen, it comes 50 ns or more after the last edge of either direction, and
the FIFO has room. -/
def Dev.captureEdge (d : Dev) (c : Nat) (rising : Bool) : Dev :=
  let e := d.get (Reg.CAP_CFG_edge c)
  let x := d.cap c
  if !(if rising then bitAt 0 e else bitAt 1 e) then { d with caps := Tab.set d.caps c CapSt.reset { x with last := some d.time } }
  else
    let near := match x.last with | some t => decide (d.time < t + 50 * 2 ^ 40) | none => false
    let inst := d.get (Reg.CAP_CFG_inst c)
    let fifo := if near || decide (16 ≤ x.fifo.length) then x.fifo
      else x.fifo ++ [⟨rising, d.time, d.tensePos inst / 256 * 256 + b2n (Tab.find inst d.tense).isSome⟩]
    let d := { d with caps := Tab.set d.caps c CapSt.reset ⟨fifo, some d.time⟩ }
    if near || decide (16 ≤ x.fifo.length) then (d.incE Cnt.PULSE_CNT_CAP_DROP).raise Src.PULSE_capture_overflow
    else d.incU Cnt.PULSE_CNT_CAP_EDGES

def execCaptureEdge (c : Fin 2) (rising : Bool) (s : State) : Host.Outcome State Fault Refusal :=
  .next { s with dev := s.dev.captureEdge c rising }

/-- A read of CAP_c_TS_S (R360): the oldest entry leaves the FIFO and is latched whole; an empty FIFO latches zeros. -/
def Dev.captureRead (d : Dev) (c : Nat) : Dev :=
  let x := d.cap c
  let e := x.fifo.headD ⟨false, 0, 0⟩
  let d := { d with caps := Tab.set d.caps c CapSt.reset { x with fifo := x.fifo.drop 1 } }
  let s := pack [(56, 8, x.fifo.length), (48, 1, b2n e.rising), (0, 48, secOf e.time)]
  let d := ((d.put (Reg.CAP_TS_S_count c) x.fifo.length).putB (Reg.CAP_TS_S_rising c) e.rising).put
    (Reg.CAP_TS_S_seconds c) (secOf e.time)
  let d := (d.put (Reg.CAP_TS_NS_ns c) (nsOf e.time)).put (Reg.CAP_TS_NS_frac c) (fracOf e.time)
  let d := ((d.put (Reg.CAP_POS_step c) (bits 24 40 e.pos)).put (Reg.CAP_POS_phase c) (bits 8 16 e.pos)).put
    (Reg.CAP_POS_valid c) (bits 0 1 e.pos)
  { d with rdata := s }

def execCaptureRead (c : Fin 2) (s : State) : Host.Outcome State Fault Refusal := .next { s with dev := s.dev.captureRead c }

end Sys2Proof.Machine
end

