-- ==== Sys2Proof/Machine/View.lean ====
section
/-! DEFINITION. The view and the jobs as every later family reads them: view entries, racks and leaders (R290, R291), settings
a rack shares (R318), the job descriptor (R308), the trees (R310), the flow table (R227 to R231) and record homes (R212). -/

namespace Sys2Proof.Machine

/-! ### The view (R290, R291) -/

/-- The own rack. -/
def Dev.rack (d : Dev) : Nat := d.chip / 32

/-- The members of a rack, ascending. -/
def Dev.membersOf (d : Dev) (rack : Nat) : List Nat := ((List.range 18).map (rack * 32 + ·)).filter d.isIn

/-- The racks in the view, ascending. -/
def Dev.racksIn (d : Dev) : List Nat := ((d.mbr.view.filter fun e => e.2.state == 1).map fun e => e.1 / 32).eraseDups

/-- The leader of a rack: its member of lowest chip number. -/
def Dev.leaderOf (d : Dev) (rack : Nat) : Option Nat := (d.membersOf rack).head?

/-- This controller leads its rack. -/
def Dev.isLeader (d : Dev) : Bool := d.isMember && d.leaderOf d.rack == some d.chip

/-- The member next above the leader: the standby of R348, and the second sender of GHB (R292). -/
def Dev.isStandby (d : Dev) : Bool := d.isMember && (d.membersOf d.rack)[1]? == some d.chip

/-- The pod master in the view: the leader of the lowest-numbered rack (R346). -/
def Dev.viewMaster (d : Dev) : Option Nat := d.racksIn.head?.bind d.leaderOf

/-- The view digest: (chip, epoch of last change) of every member, 6 bytes each (R292). -/
def Dev.viewDigest (d : Dev) : Nat :=
  crc64 ((d.mbr.view.filter fun e => e.2.state == 1).flatMap fun e => leBytes 2 e.1 ++ leBytes 4 e.2.changed)

/-- MBR_STATUS follows the view (R318). -/
def Dev.showView (d : Dev) : Dev :=
  let d := d.put Reg.MBR_STATUS_members (d.membersOf d.rack).length
  (d.put Reg.MBR_STATUS_racks (Nat.min 255 d.racksIn.length)).putB Reg.MBR_STATUS_leader d.isLeader

/-- The settings that take effect in a rack at the next Clause decided in it, when every member holds the same values (R318,
R340, R362). -/
def sharedSettings : List Fld :=
  [Reg.MBR_HR_CTRL_expel_pts, Reg.MBR_HR_CTRL_watch_pts, Reg.MBR_HR_CTRL_half_life_h, Reg.MBR_HR_CTRL_h_pt,
   Reg.MBR_HR_CTRL_h_base, Reg.MBR_HR_CTRL_reserve, Reg.MBR_HR_CTRL_marg_max, Reg.MBR_CTRL_hold_base, Reg.MBR_CTRL_flap_max,
   Reg.PTP_CTRL_domain, Reg.PTP_CTRL_sync_log, Reg.PTP_CTRL_pdelay_log, Reg.PTP_SERVO_kp, Reg.PTP_SERVO_ki,
   Reg.DRILL_CTRL_offset_s, Reg.DRILL_CTRL_period_h, Reg.DRILL_CTRL_lag, Reg.DRILL_CTRL_len_s, Reg.DRILL_CTRL_job_gap_h]

/-- The settings take effect (R318), and the standings follow them (R316). -/
def Dev.settingsAct (d : Dev) : Dev :=
  if d.mbr.same then (List.range 9).foldl Dev.restand (sharedSettings.foldl (fun d f => d.put (acts f) (d.get f)) d) else d

/-- A change word's fields (R297). -/
def chChip (c : Nat) : Nat := bits 48 16 c
def chAction (c : Nat) : Nat := bits 44 4 c
def chAcc (c : Nat) : Nat := bits 40 4 c
def chReason (c : Nat) : Nat := bits 32 8 c

/-! ### The job descriptor (R308) -/

/-- Little-endian words of a byte list: the number at an offset. -/
def numAt (bs : List Nat) (off n : Nat) : Nat := ((bs.drop off).take n).foldr (fun b acc => b + acc * 256) 0

/-- n numbers of w bytes each from an offset. -/
def numsAt (bs : List Nat) (off w n : Nat) : List Nat := (chunksOf w n (bs.drop off)).take n |>.map fun c => numAt c 0 w

/-- The groups of a descriptor from an offset, and the offset after them. -/
def groupsAt (bs : List Nat) (off : Nat) : Nat → List (List Nat) × Nat
  | 0 => ([], off)
  | n + 1 =>
    let c := numAt bs off 2
    let r := groupsAt bs (off + 2 + 2 * c) n
    (numsAt bs (off + 2) 2 c :: r.1, r.2)

/-- The record entries of a descriptor from an offset, and the offset after them. -/
def recsAt (bs : List Nat) (off : Nat) : Nat → List RecDesc × Nat
  | 0 => ([], off)
  | n + 1 =>
    let w (i : Nat) : Nat := numAt bs (off + 8 * i) 8
    let h := bits 16 8 (w 1)
    let r := recsAt bs (off + 32 + (2 * h + 7) / 8 * 8) n
    (⟨bits 40 24 (w 0), bits 38 2 (w 0), bits 0 38 (w 0), bits 48 16 (w 1), bits 24 24 (w 1), bits 0 32 (w 2),
      numsAt bs (off + 32) 2 h⟩ :: r.1, r.2)

/-- A descriptor as its bytes say, when it is well formed (R308, R309 code 0x01); the table of groups is padded to a multiple of 8 bytes
in size (log entry 35). -/
def parseJob (bs : List Nat) : Option JobDesc :=
  let a := numAt bs 0x1C 2
  let g := numAt bs 0x1E 2
  let g0 := 0x30 + 4 * a
  let gs := groupsAt bs g0 g
  let r := recsAt bs (g0 + (gs.2 - g0 + 7) / 8 * 8) (numAt bs 0x24 4)
  let first := numAt bs 0x20 4 % 2 ^ 24
  let accs := (numsAt bs 0x30 4 a).map fun e => bits 16 16 e * 8 + e % 8
  let ok := numAt bs 0 4 == 0x31444A4B && numAt bs 4 4 != 0 && numAt bs 0x18 4 != 0 && decide (1 ≤ a) && decide (a ≤ 32384) &&
    decide (g ≤ 1024) && decide (r.2 ≤ bs.length) && gs.1.all (fun m => m.all fun i => decide (i < a)) && accs.eraseDups == accs &&
    r.1.all fun x => decide (first ≤ x.num) && decide (x.num < first + numAt bs 0x24 4) && x.num != 0 && x.holders != [] &&
      x.holders.all fun i => decide (i < a)
  if ok then some ⟨numAt bs 4 4, numAt bs 8 8, numAt bs 0x10 8 % 2 ^ 40, numAt bs 0x18 4, numAt bs 0x28 1, accs, gs.1, r.1, first⟩ else none

/-! ### Jobs -/

/-- A job. -/
def Dev.jobOf (d : Dev) (job : Nat) : Option JobSt := Tab.find job d.jobs

/-- A job set. -/
def Dev.setJob (d : Dev) (j : JobSt) : Dev := { d with jobs := Tab.insert j.desc.job j (Tab.erase j.desc.job d.jobs) }

/-- A job changed by a function, when it is there. -/
def Dev.onJob (d : Dev) (job : Nat) (f : JobSt → JobSt) : Dev :=
  match d.jobOf job with
  | some j => d.setJob (f j)
  | none => d

/-- A register as latched at the job's admission (R225, R259). -/
def JobSt.reg (j : JobSt) (f : Fld) : Nat := Tab.getD j.latch f.key f.rst

/-- The registers latched for a job at its admission (R225, R259). -/
def latchedFields : List Fld :=
  [Reg.AGR_CTRL_grace_pm, Reg.AGR_CTRL_base_thr, Reg.AGR_CTRL_floor_log2, Reg.AGR_LIMITS_overdue_ms, Reg.AGR_LIMITS_max_replays,
   Reg.AGR_LIMITS_core_suspects, Reg.AGR_LIMITS_cache_mib, Reg.STP_CTRL_i_base, Reg.STP_CTRL_i_min, Reg.STP_CTRL_watch_max,
   Reg.STP_CTRL_r_ref, Reg.STP_CTRL_copy_pref, Reg.STP_CTRL_snap_en, Reg.STP_RATE_cut_wait, Reg.STP_RATE_write_gbps]

/-- The chips of a job table, ascending. -/
def chipsOf (accs : List Nat) : List Nat := ((accs.map (· / 8)).mergeSort fun a b => decide (a ≤ b)).eraseDups

/-- The racks of a job. -/
def JobSt.racks (j : JobSt) : List Nat := ((chipsOf j.accs).map (· / 32)).eraseDups

/-- The job's accelerators of a chip as (job index, number). -/
def JobSt.local (j : JobSt) (chip : Nat) : List (Nat × Nat) :=
  (j.accs.zipIdx.filter fun e => e.1 / 8 == chip).map fun e => (e.2, e.1 % 8)

/-! ### Trees (R310) -/

/-- A node list: the root first, then the rest ascending. -/
def treeNodes (root : Nat) (chips : List Nat) : List Nat := root :: chips.filter (· != root)

/-- The nearest ancestor of a node that is live; without one, the live node of lowest index (R310). -/
def liveParent (nodes : List Nat) (live : Nat → Bool) (c : Nat) : Option Nat :=
  let rec up (i : Nat) : Nat → Option Nat
    | 0 => none
    | n + 1 =>
      if i = 0 then none
      else match nodes[(i - 1) / 16]? with
        | some p => if live p then some p else up ((i - 1) / 16) n
        | none => none
  match up (nodes.findIdx (· == c)) 8 with
  | some p => some p
  | none => match nodes.find? live with
    | some r => if r = c then none else some r
    | none => none

/-- The live nodes whose live parent a node is. -/
def liveChildren (nodes : List Nat) (live : Nat → Bool) (c : Nat) : List Nat :=
  nodes.filter fun n => n != c && live n && liveParent nodes live n == some c

/-- The nodes of the step tree. -/
def JobSt.stepNodes (j : JobSt) : List Nat := treeNodes j.root (chipsOf j.accs)

/-- The nodes of the start tree (R310): during a start who was a member of the job's racks at the admission epoch, later their members. -/
def Dev.startNodes (d : Dev) (j : JobSt) : List Nat :=
  treeNodes j.root ((j.racks.flatMap fun r => (List.range 18).map (r * 32 + ·)).filter fun c =>
    let e := d.viewEnt c
    (e.state == 1 && (j.phase == 2 || !newer e.admitted j.admEpoch)) ||
      (j.phase != 2 && e.state != 0 && e.state != 1 && newer e.changed j.admEpoch))

/-- Whether a node's messages reach it: it is in the view. -/
def Dev.live (d : Dev) (c : Nat) : Bool := d.isIn c

/-- The job's root now (R310): the node first in order that is in the view. -/
def Dev.rootOf (d : Dev) (j : JobSt) : Option Nat := j.stepNodes.find? d.live

/-- This controller is the job's root. -/
def Dev.isRoot (d : Dev) (j : JobSt) : Bool := d.rootOf j == some d.chip

/-- The parent and children of this controller in the step tree. -/
def Dev.stepParent (d : Dev) (j : JobSt) : Option Nat := liveParent j.stepNodes d.live d.chip
def Dev.stepChildren (d : Dev) (j : JobSt) : List Nat := liveChildren j.stepNodes d.live d.chip

/-- The parent and children of this controller in the start tree. -/
def Dev.startParent (d : Dev) (j : JobSt) : Option Nat := liveParent (d.startNodes j) d.live d.chip
def Dev.startChildren (d : Dev) (j : JobSt) : List Nat := liveChildren (d.startNodes j) d.live d.chip

/-- The seal leader of a rack for a job: the job's member controller of lowest chip number (R240). -/
def Dev.sealLeader (d : Dev) (j : JobSt) (rack : Nat) : Option Nat :=
  (chipsOf j.accs).find? fun c => c / 32 == rack && d.live c

/-- A message to several controllers. -/
def Dev.sendAll (d : Dev) (dsts : List Nat) (kind : Nat) (body : List Nat) : Dev :=
  dsts.foldl (fun d c => d.send c kind body) d

/-- A word of two 32-bit halves. -/
def word2 (hi lo : Nat) : Nat := hi % 2 ^ 32 * 2 ^ 32 + lo % 2 ^ 32

/-! ### Records (R212, R227 to R231) -/

/-- A flow-table record; one that is not held reads with job 0 and method 0 (R227), as it was cleared (R229). -/
def Dev.flowRec (d : Dev) (n : Nat) : List Nat := Tab.getD d.flow n [0, 0, 0, 0, 0, 0, 0, 0]

/-- A record looked up: the lookup counts by where the record lies (R227, R230). -/
def Dev.lookup (d : Dev) (n : Nat) : Dev :=
  d.incU (if n < 1048576 then Cnt.FLOW_CNT_FLOW_SRAM else Cnt.FLOW_CNT_FLOW_LPD)

/-- A record written, or cleared at job end (R229). -/
def Dev.setFlow (d : Dev) (n : Nat) (w : Option (List Nat)) : Dev :=
  let t := Tab.erase n d.flow
  let d := { d with flow := match w with | some x => Tab.insert n x t | none => t }
  let used (f : Nat → Bool) : Nat := (d.flow.filter fun e => f e.1).length
  (d.put Reg.FLOW_STATUS_sram_used (used (decide <| · < 1048576))).put Reg.FLOW_STATUS_ext_used (used (decide <| 1048576 ≤ ·))

/-- The record's owner (R228). -/
def recJob (w : List Nat) : Nat := bits 32 32 (wd w 1)

/-- A message names a record: one with job 0 raises flow_unknown (R230). -/
def Dev.nameRec (d : Dev) (n : Nat) : Dev :=
  let d := d.lookup n
  if recJob (d.flowRec n) = 0 then d.raise Src.FLOW_flow_unknown else d

/-- The record's method, length, local replicas and flags (R228). -/
def recMethod (w : List Nat) : Nat := bits 38 2 (wd w 0)
def recLen (w : List Nat) : Nat := bits 0 38 (wd w 0)
def recMask (w : List Nat) : Nat := bits 24 8 (wd w 1)
def recHome (w : List Nat) : Bool := bitAt 23 (wd w 1)
def recCorrelated (w : List Nat) : Bool := bitAt 20 (wd w 1)
def recDs (w : List Nat) : Bool := bitAt 31 (wd w 3)

/-- A word with a bit set or cleared. -/
def withBit (w i : Nat) (b : Bool) : Nat := if b then setBit w i else clrBit w i

/-- The history entries of a record, the most recent first (R228). -/
def recHist (w : List Nat) : List Nat := (List.range 16).map fun i => bits (16 * (i % 4)) 16 (wd w (4 + i / 4))

/-- A record with history entries. -/
def withHist (w : List Nat) (h : List Nat) : List Nat :=
  w.take 4 ++ (List.range 4).map fun k => pack ((List.range 4).map fun i => (16 * i, 16, h.getD (4 * k + i) 0xFFFF))

/-- The exponent of R135 for a record, from the controller's own history. -/
def recExp (w : List Nat) : Int :=
  delayedExp (bits 26 5 (wd w 3)) (bitAt 25 (wd w 3)) (bits 22 3 (wd w 3)) ((Fmt.ofCode (bits 18 4 (wd w 3))).getD .fp32)
    (recHist w) (signed8 (bits 10 8 (wd w 3)))

/-- The holders of a record as chip × 8 + number, from a job table. -/
def RecDesc.holdersIn (r : RecDesc) (accs : List Nat) : List Nat := r.holders.filterMap fun i => accs[i]?

/-- The home of a record (R212): the controller of its lowest-ranked replica. -/
def RecDesc.home (r : RecDesc) (accs : List Nat) : Option Nat := ((r.holdersIn accs).min?).map (· / 8)

/-- A record entry of a job. -/
def JobSt.recDesc (j : JobSt) (n : Nat) : Option RecDesc := j.desc.recs.find? fun r => r.num == n

/-- The job that owns a record on this controller. -/
def Dev.jobOfRec (d : Dev) (n : Nat) : Option JobSt := d.jobOf (recJob (d.flowRec n))

/-- The methods of a job's records (R139, R231, R332): exchange records take 0, remainder records Stripe; the choice for Mirror counts each
holder's items. -/
def methodsOf (recs : List RecDesc) : List (Nat × Nat) :=
  (recs.foldl (fun (s : List (Nat × Nat) × Tab Nat) r =>
    let item := 8 + (r.len + 7) / 8 * 8
    let fits := r.holders.all fun h => decide (Tab.getD s.2 h 0 + item ≤ 4 * 2 ^ 20)
    if r.hint = 3 ∨ r.len = 0 then (s.1 ++ [(r.num, 0)], s.2)
    else if bitAt 4 r.word3 ∨ r.hint = 1 ∨ 16 * 2 ^ 20 ≤ r.len then (s.1 ++ [(r.num, 1)], s.2)
    else if fits then (s.1 ++ [(r.num, 2)], r.holders.foldl (fun t h => Tab.update t h 0 (· + item)) s.2)
    else (s.1 ++ [(r.num, 1)], s.2)) ([], [])).1

/-- The record as it is written at admission (R229). -/
def newRecord (j : JobSt) (chip : Nat) (r : RecDesc) (method : Nat) : List Nat :=
  let mine := (r.holdersIn j.accs).filter fun a => a / 8 == chip
  [pack [(40, 24, r.num), (38, 2, method), (0, 38, r.len)],
   pack [(32, 32, j.desc.job), (24, 8, (mine.map (· % 8)).foldl setBit 0), (23, 1, b2n (r.home j.accs == some chip)), (21, 2, r.hint)],
   pack [(48, 16, r.group), (24, 24, r.pair)], bits 0 10 r.word3 + bits 18 14 r.word3 * 2 ^ 18] ++
  List.replicate 4 (2 ^ 64 - 1)

end Sys2Proof.Machine
end

