-- ==== Sys2Proof/Machine/Clock.lean ====
section
/-! DEFINITION. Pod time (R341 to R351): epoch pulses, rack time frames, Sync and peer delay, holdover and free-run. One time
base stands for the master and its copies, which agree within the accuracy the rules give (log entry 20). -/

namespace Sys2Proof.Machine

/-! ### Units -/

/-- A number as two's complement in w bits, saturated. -/
def saturateTo (w : Nat) (i : Int) : Nat :=
  (clampInt (-(2 ^ (w - 1))) (2 ^ (w - 1) - 1) i % 2 ^ w).toNat

/-- The increment of a reference cycle in 2^-40 ns (R342). -/
def increment (adj : Nat) : Nat := (0x066666666666 + signed32 adj).toNat

/-- A whole number of seconds of the AON clock in µs. -/
def usPerSec : Nat := 1000000

/-- Division rounded to the nearest integer, halves away from zero. -/
def roundDiv (a b : Int) : Int := if 0 ≤ a then (2 * a + b) / (2 * b) else -((2 * -a + b) / (2 * b))

/-- The adj of a rate correction in 2^-24 ppb (R342, R349). -/
def adjOfRate (r : Int) : Nat := (roundDiv (r * 7036874417766) (1000000000 * 2 ^ 24) % 2 ^ 32).toNat

/-! ### Roles (R346, R362) -/

/-- The time discipline changed. -/
def Dev.onClock (d : Dev) (f : TimeSt → TimeSt) : Dev := { d with clock := f d.clock }

/-- This controller is its rack's time source (R346): the leader of the view, or before membership the one that sends. -/
def Dev.timeSource (d : Dev) : Bool := if d.isMember then d.isLeader else d.clock.source

/-- This controller is the pod master (R346). -/
def Dev.podMaster (d : Dev) : Bool := if d.isMember then d.viewMaster == some d.chip else d.clock.source && d.clock.master

/-- The state of R350. -/
def Dev.timeState (d : Dev) : Nat := d.get Reg.TIME_STATUS_state

/-- The pod master changes (R362). -/
def Dev.setMaster (d : Dev) (chip : Nat) : Dev :=
  if d.get Reg.PTP_STATUS_master = chip then d
  else (d.put Reg.PTP_STATUS_master chip).raise Src.PTP_master_changed

/-- Roles as the view or the frames heard give them, and the transitions of R350 that a role makes. -/
def Dev.timeRoles (d : Dev) : Dev :=
  let role := if d.podMaster then 4 else if d.timeSource then 2 else if d.isStandby then 3
    else if d.isMember || d.timeState != 0 then 1 else 0
  let d := d.put Reg.PTP_STATUS_role role
  let d := if role < 2 then d.put Reg.TIME_STATUS_pod_off 0 else d
  let d := match (if d.isMember then d.viewMaster else if d.podMaster then some d.chip else none) with
    | some m => d.setMaster m
    | none => d
  let d := if d.timeState = 1 ∧ d.timeSource then d.put Reg.TIME_STATUS_state 2 else d
  if d.timeState = 2 ∧ d.podMaster then d.put Reg.TIME_STATUS_state 3 else d

/-- Since when an offset has been small. -/
def since (old : Option Nat) (now : Nat) (ok : Bool) : Option Nat := if ok then some (old.getD now) else none

/-- An offset has been small for 1 s. -/
def heldOneSecond (s : Option Nat) (now : Nat) : Bool := match s with | some t => decide (t + usPerSec ≤ now) | none => false

/-! ### Epoch pulses (R343, R344) -/

/-- The body of a rack time frame (R344): a new adj is announced here for the next pulse, at which every member takes it (R342). -/
def Dev.rackFrame (d : Dev) : List Nat :=
  let t := d.clock.atPulse
  let adj := d.get Reg.TIME_RATE_adj
  [pack [(56, 8, 1), (49, 1, b2n (d.timeState == 4)), (48, 1, b2n (d.timeState == 3)), (32, 16, d.chip),
     (0, 32, d.get Reg.TIME_EPOCH_pulse)],
   secOf t, nsOf t * 65536 + fracOf t, word2 adj (d.clock.nextAdj.getD adj), secOf d.time, nsOf d.time * 65536 + fracOf d.time]

/-- A time frame leaves on a port, on VC1 (R279, R344); what is forwarded keeps its source. -/
def Dev.sendTimeFrame (d : Dev) (i : Nat) (body : List Nat) (src : Nat := d.chip) : Dev :=
  if d.silent then d
  else (d.emit (.link i 0x60 body)).transmit i 1 0 (fabWords d.rackBroadcast src 0x60 (d.get Reg.MBR_STATUS_epoch) body)

/-- The voltage-frequency tables that wait for an epoch pulse take effect, on a partition out of action when it returns (R424). -/
def Dev.tablesTake (d : Dev) : Dev :=
  (List.range 16).foldl (fun d p =>
    if (d.mon p).next.isNone then d
    else if d.partState p = 0 ∧ !d.frozen p then d.tableTake p
    else d.setMon p { d.mon p with due := true }) d

/-- An epoch pulse, or the internal one that stands for it (R341 to R345, R425): the pulse number, the correction and the adj
that waited, the tables, and the source's frame, which announces the source's next adj for the pulse after this one. -/
def Dev.epochPulse (d : Dev) : Dev :=
  let d := d.put Reg.TIME_EPOCH_pulse (d.get Reg.TIME_EPOCH_pulse + 1)
  let d := match d.clock.nextAdj with
    | some a => d.put Reg.TIME_RATE_adj a
    | none => d
  let stepped := d.clock.nextLoad.isSome || d.clock.stepBy != 0
  let d := match d.clock.nextLoad with
    | some t => ({ d with time := t }).incU Cnt.TIME_CNT_TIME_LOADS
    | none => { d with time := (d.time + d.clock.stepBy).toNat }
  let d := d.onClock fun c => { c with
    nextAdj := if d.timeSource then c.wanted else none
    wanted := none, nextLoad := none, stepBy := 0, atPulse := d.time }
  let d := if stepped then d.pulsesStepped else d
  let d := d.tablesTake
  if d.timeSource then (gPorts.filter d.portUp).foldl (fun d i => d.sendTimeFrame i d.rackFrame) d else d

def execEpochPulse (s : State) : Host.Outcome State Fault Refusal := .next { s with dev := s.dev.epochPulse }

/-- No pulse within two reference cycles of the expected one (R343). -/
def Dev.epochMissing (d : Dev) : Dev :=
  let d := (d.epochPulse.onClock fun c => { c with substituted := some d.nowUs }).put Reg.TIME_STATUS_epoch_missing 1
  (d.incE Cnt.TIME_CNT_EPOCH_MISS).raise Src.TIME_epoch_missing

def execEpochMissing (s : State) : Host.Outcome State Fault Refusal := .next { s with dev := s.dev.epochMissing }

/-! ### Refusal (R350, R351) -/

/-- A correction is refused (R351): neither time nor rate changes. -/
def Dev.refuseJump (d : Dev) : Dev := (d.incE Cnt.TIME_CNT_TIME_REFUSED).raise Src.TIME_jump_refused

/-- The jump threshold in 2^-40 ns (R361). -/
def Dev.jumpLimit (d : Dev) : Int := (max 1 (d.get Reg.TIME_CTRL_jump_us) * unitsPerUs : Nat)

def execTimeRearm (s : State) : Host.Outcome State Fault Refusal :=
  .next { s with dev := s.dev.onClock fun c => { c with rearm := true } }

/-! ### Rack time (R344 to R346) -/

/-- The delay of a link in 2^-40 ns (R345, R348): the mean of the last eight peer delays, or the training delay before. -/
def Dev.linkDelay (d : Dev) (i : Nat) : Nat :=
  match Tab.find i d.clock.delays with
  | some l => if 8 ≤ l.length then l.sum * 2 ^ 24 / 8 else d.get (Reg.PORT_LINK_delay_ns i) * 2 ^ 40
  | none => d.get (Reg.PORT_LINK_delay_ns i) * 2 ^ 40

/-- A lane between two slots of the rack is up, as the own ports and the LOAD reports show (R286). -/
def Dev.laneBetween (d : Dev) (a b : Nat) : Bool :=
  if a = d.pwr.traySlot then d.linksTo b != [] else if b = d.pwr.traySlot then d.linksTo a != [] else (d.reported a b).isSome

/-- The slots of the rack for which this controller relays what a slot broadcasts (R284, R344): no lane from the source, and no
lower slot with both lanes. -/
def Dev.relaysFor (d : Dev) (src : Nat) : List Nat :=
  let own := d.pwr.traySlot
  (List.range 18).filter fun v => v != src && v != own && !d.laneBetween src v && d.laneBetween own v && d.laneBetween src own &&
    !(List.range own).any fun u => u != src && u != v && d.laneBetween src u && d.laneBetween u v

/-- The difference of two times in whole units of a frame's words, 2^-16 ns (R344, R345; log entry 54). -/
def inFrameUnits (i : Int) : Int := i.tdiv (2 ^ 24) * 2 ^ 24

/-- The rack offset of R345: it is shown, and the times since which it has been small or large go on. -/
def Dev.rackOffset (d : Dev) (off : Int) : Dev :=
  let small := decide (-(5 * 2 ^ 40) ≤ off) && decide (off ≤ 5 * 2 ^ 40)
  (d.put Reg.TIME_STATUS_rack_off (saturateTo 16 (off / 2 ^ 38))).onClock fun c => { c with
    rackGood := since c.rackGood d.nowUs small
    rackOver := !small }

/-- A rack time frame arrives (R344 to R346, R350, R351). -/
def Dev.rackTimeFrame (d : Dev) (i : Nat) (w : List Nat) : Dev :=
  let src := bits 32 16 (wd w 0)
  let now := d.nowUs
  let direct := helloChip ((d.port i).hello.getD []) == src
  let d := if direct then
      (d.relaysFor (src % 32)).foldl (fun d v => match d.linkTo v 1 with
        | some j => d.sendTimeFrame j (w.take 4 ++ [secOf d.time, nsOf d.time * 65536 + fracOf d.time]) src
        | none => d) d
    else d
  let d := if !d.isMember && d.clock.source && decide (src < d.chip) then
      d.onClock fun c => { c with source := false, master := false } else d
  if d.timeSource ∨ (d.isMember ∧ d.leaderOf d.rack ≠ some src) ∨ d.timeState = 0 then d
  else
    let dep : Nat := bits 0 48 (wd w 4) * unitsPerSec + bits 0 46 (wd w 5) * 2 ^ 24
    let off : Int := (d.time : Int) - dep - d.linkDelay i
    let d := d.rackOffset off
    let value : Nat := bits 0 48 (wd w 1) * unitsPerSec + bits 0 46 (wd w 2) * 2 ^ 24
    let diff := inFrameUnits ((d.clock.atPulse : Int) - value)
    let big := decide (d.jumpLimit < diff) || decide (diff < -d.jumpLimit)
    if d.timeState = 5 then (if big && !d.clock.rearm then d.refuseJump else d)
    else
      let d := d.put Reg.TIME_EPOCH_pulse (wd w 0)
      let st := d.timeState
      let locked := bitAt 48 (wd w 0)
      if big && !d.clock.rearm && (decide (3 ≤ st) || (locked && decide (2 ≤ st))) then d.refuseJump
      else
        let d := if d.clock.rearm && (big || (diff != 0 && decide (3 ≤ st))) then
            (d.onClock fun c => { c with rearm := false }).put Reg.TIME_STATUS_state 3 else d
        let d := d.onClock fun c => { c with
          nextAdj := some (bits 0 32 (wd w 3))
          nextLoad := if diff = 0 then c.nextLoad else some (value + 156250 * increment (bits 32 32 (wd w 3))) }
        let d := if d.timeState = 4 then d.put Reg.TIME_STATUS_state 3 else d
        let d := if d.timeState = 1 ∧ heldOneSecond d.clock.rackGood now then d.put Reg.TIME_STATUS_state 2 else d
        let d := if d.timeState = 2 ∧ locked then d.put Reg.TIME_STATUS_state 3 else d
        d.put Reg.PTP_STATUS_role (if d.isStandby then 3 else 1)

def execRackTimeFrame (i : Fin 18) (w : List Word) (s : State) : Host.Outcome State Fault Refusal :=
  .next { s with dev := s.dev.rackTimeFrame (8 + i) (w.map BitVec.toNat) }

/-- The rack offset has stayed above 5 ns for 1 ms (R345); it was not above in the last frame, nothing is raised. -/
def execRackTimeFault (s : State) : Host.Outcome State Fault Refusal :=
  .next { s with dev := if s.dev.clock.rackOver then s.dev.raise Src.TIME_rack_time_fault else s.dev }

/-- Before membership, 1 s without a rack frame from a lower chip (R346). -/
def Dev.rackFrameTimeout (d : Dev) : Dev :=
  if d.isMember ∨ d.timeState = 0 then d else (d.onClock fun c => { c with source := true }).timeRoles

def execRackFrameTimeout (s : State) : Host.Outcome State Fault Refusal := .next { s with dev := s.dev.rackFrameTimeout }

/-- A rack source that hears no Sync for 2 s (R346). -/
def Dev.syncTimeout (d : Dev) : Dev :=
  if d.isMember ∨ !d.clock.source then d else (d.onClock fun c => { c with master := true }).timeRoles

def execSyncTimeout (s : State) : Host.Outcome State Fault Refusal := .next { s with dev := s.dev.syncTimeout }

/-! ### Sync and peer delay (R347 to R349) -/

/-- A 1588 message's header against the supported subset (R347): malformed messages raise ptp_protocol, what is not supported
is discarded and counted; the answer says whether the message is used. -/
def Dev.ptpHeader (d : Dev) (h : PtpHdr) (supported : Bool) : Dev × Bool :=
  if h.malformed ∨ h.version.toNat ≠ 2 ∨ h.sdoId.toNat ≠ 0 then (d.raise Src.PTP_ptp_protocol, false)
  else if !supported ∨ h.minor.toNat ≠ 1 ∨ h.twoStep ∨ h.tlv ∨ h.domain.toNat ≠ d.get (acts Reg.PTP_CTRL_domain) then
    (d.incE Cnt.PTP_CNT_PTP_DISCARD, false)
  else (d, true)

/-- A 1588 message as a frame of subtype 0x00 (R344, R347; log entry 21): type, minorVersionPTP 1, versionPTP 2, sdoId 0, domain and
portNumber; clockIdentity; seconds; whole nanoseconds; correctionField, which takes the fraction. -/
def ptpWords (kind domain identity portNumber origin corr : Nat) : List Nat :=
  [pack [(52, 4, kind), (48, 4, 1), (44, 4, 2), (32, 12, 0), (24, 8, domain), (0, 16, portNumber)], identity, secOf origin, nsOf origin,
   (corr + fracOf origin) % 2 ^ 64]

/-- A 1588 message of this controller (R347): its serial is the identity, the port index plus 1 the port number. -/
def Dev.ptpFrame (d : Dev) (kind i origin corr : Nat) : List Nat :=
  ptpWords kind (d.get (acts Reg.PTP_CTRL_domain)) (Config.serial % 2 ^ 64) (i + 1) origin corr

/-- The slots of the rack with a global lane to a rack. -/
def Dev.exitSlots (d : Dev) (rack : Nat) : List Nat := ((d.exits rack).map (·.1)).eraseDups

/-- The slots where the Sync of a master's rack arrives (R284, R348): those with a lane to that rack, or, where none has one, to the relay
rack. -/
def Dev.arrivalSlots (d : Dev) (rack : Nat) : List Nat :=
  match d.exitSlots rack with
  | [] => ((d.relayRack rack d.rack).map d.exitSlots).getD []
  | l => l

/-- The slots of the leader and of the standby (R348), but for the own one. -/
def Dev.syncUsers (d : Dev) : List Nat :=
  (([d.leaderOf d.rack, (d.membersOf d.rack)[1]?].filterMap id).filter (· != d.chip)).map (· % 32)

/-- The racks to which this rack relays the Sync of a master's rack (R284, R348): no lane joins the two. -/
def Dev.syncRacks (d : Dev) (rack : Nat) : List Nat :=
  (List.range ((d.boot.plan.map PlanInfo.racks).getD 0)).filter fun r =>
    r != rack && r != d.rack && !d.racksLinked rack r && d.relayRack rack r == some d.rack

/-- The ports on which a controller forwards a Sync that arrived on a port, through an arrival slot (R348): from a global lane to the leader
and the standby; as their relay slot where the arrival slot has no lane to them; and in a relay rack, of the copy of its lowest arrival slot,
on every global lane to the racks it relays to. -/
def Dev.syncPorts (d : Dev) (i rack arrival : Nat) : List Nat :=
  let users := if 26 ≤ i then d.syncUsers.filterMap fun t => d.routeSlot t 1
    else (d.syncUsers.filter (d.relaysFor arrival).contains).filterMap fun t => d.linkTo t 1
  let lanes := if (d.arrivalSlots rack).min? != some arrival then []
    else (d.syncRacks rack).flatMap fun r => (d.exits r).filterMap fun e =>
      if e.1 = d.pwr.traySlot then some e.2 else if 26 ≤ i then d.routeSlot e.1 1 else none
  (users ++ lanes).eraseDups

/-- A forwarded Sync (R347, R348): the residence time and the delay of the link it came on are added to correctionField, all else stays. -/
def Dev.syncOn (d : Dev) (i : Nat) (h : PtpHdr) (origin corr : Nat) : List Nat :=
  ptpWords 0 h.domain.toNat h.identity.toNat h.portNumber.toNat (origin * 2 ^ 24)
    (corr + d.linkDelay i / 2 ^ 24 + Config.residence i d.time)

/-- A leader or standby disciplines its time on a Sync (R349). theta is in 2^-40 ns. -/
def Dev.discipline (d : Dev) (theta : Int) : Dev :=
  let now := d.nowUs
  let st := d.timeState
  let d := d.put Reg.TIME_STATUS_pod_off (saturateTo 32 (theta / 2 ^ 40))
  let big := decide (d.jumpLimit < theta) || decide (theta < -d.jumpLimit)
  if st = 0 then d
  else if st = 5 then (if big && !d.clock.rearm then d.refuseJump else d)
  else if decide (3 ≤ st) && big && !d.clock.rearm then d.refuseJump
  else
    let d := d.onClock fun c => { c with
      podGood := since c.podGood now (decide (-(1000 * 2 ^ 40) ≤ theta) && decide (theta ≤ 1000 * 2 ^ 40)) }
    if st < 3 ∨ big ∨ d.clock.rearm then
      let d := d.onClock fun c => { c with stepBy := if d.isStandby then c.stepBy else -theta, integ := 0, rearm := false }
      if 3 ≤ st then d.put Reg.TIME_STATUS_state 3
      else if st = 2 ∧ heldOneSecond d.clock.podGood now then d.put Reg.TIME_STATUS_state 3
      else d
    else
      let lim : Int := 200000 * 2 ^ 24
      let x := theta / 2 ^ 24
      let integ := clampInt (-lim) lim (d.clock.integ + d.get (acts Reg.PTP_SERVO_ki) * x)
      let rate := clampInt (-lim) lim (integ + d.get (acts Reg.PTP_SERVO_kp) * x)
      let d := d.onClock fun c => { c with integ := integ, wanted := if d.isStandby then c.wanted else some (adjOfRate rate) }
      d.put Reg.TIME_STATUS_state 3

/-- A Sync arrives (R346 to R349): it goes on as R348 says, and a leader or standby uses the copy of the lowest arrival slot with a
route to the master; what it neither uses nor forwards is dropped without being counted. corr is the correction field in 2^-16 ns. -/
def Dev.sync (d : Dev) (i : Nat) (h : PtpHdr) (src arrival origin corr : Nat) : Dev :=
  match d.ptpHeader h true with
  | (d, false) => d
  | (d, true) =>
    let d := if !d.isMember && d.clock.master && decide (src / 32 < d.rack) then
        (d.onClock fun c => { c with master := false }).setMaster src else d
    let own := d.isLeader || d.isStandby || (!d.isMember && d.clock.source)
    let used := own && !d.podMaster && (d.arrivalSlots (src / 32)).min? == some arrival && (!d.isMember || d.viewMaster == some src)
    let ports := d.syncPorts i (src / 32) arrival
    let d := if used || (!own && ports != []) then d.incU Cnt.PTP_CNT_SYNC_RX else d
    let d := ports.foldl (fun d j => d.sendTimeFrame j (d.syncOn i h origin corr) src) d
    if !used then d
    else
      let d := (d.setMaster src).put Reg.PTP_STATUS_port i
      let din := d.linkDelay i
      let d := d.put Reg.PTP_DELAY_d_in (din / 2 ^ 36)
      d.discipline ((d.time : Int) - origin * 2 ^ 24 - corr * 2 ^ 24 - din)

/-- origin: seconds and nanoseconds of the Sync in 2^-16 ns. -/
def execSync (i : Fin 40) (h : PtpHdr) (src : BitVec 16) (arrival : Fin 18) (sec : BitVec 48) (ns : BitVec 32)
    (corr : BitVec 48) (s : State) : Host.Outcome State Fault Refusal :=
  .next { s with dev := s.dev.sync i h src.toNat arrival ((sec.toNat * 1000000000 + ns.toNat) * 65536) corr.toNat }

/-- Every 2^sync_log s the members of the master's rack send Sync on their X lanes (R348). -/
def Dev.syncSend (d : Dev) : Dev :=
  let mine := if d.isMember then (d.viewMaster.map (· / 32)) == some d.rack else d.podMaster
  if mine ∧ !d.silent then
    (xPorts.filter d.portUp).foldl (fun d i => (d.sendTimeFrame i (d.ptpFrame 0 i d.time 0)).incU Cnt.PTP_CNT_SYNC_TX) d
  else d

def execSyncSend (s : State) : Host.Outcome State Fault Refusal := .next { s with dev := s.dev.syncSend }

/-- Every 2^pdelay_log s each up lane sends Pdelay_Req (R348). -/
def execPdelaySend (s : State) : Host.Outcome State Fault Refusal :=
  .next { s with dev := List.foldl (fun d i => d.sendTimeFrame i (d.ptpFrame 2 i d.time 0)) s.dev
                          ((gPorts ++ xPorts).filter s.dev.portUp) }

/-- A Pdelay_Req is answered in one step, with the turnaround in 2^-16 ns as the correction, to the port that asked (R347). -/
def Dev.pdelayReq (d : Dev) (i : Nat) (h : PtpHdr) (turn : Nat) : Dev :=
  match d.ptpHeader h true with
  | (d, true) => d.sendTimeFrame i (d.ptpFrame 3 i 0 turn ++ [h.identity.toNat, h.portNumber.toNat])
  | (d, false) => d

def execPdelayReq (i : Fin 40) (h : PtpHdr) (turn : BitVec 48) (s : State) : Host.Outcome State Fault Refusal :=
  .next { s with dev := s.dev.pdelayReq i h turn.toNat }

/-- A Pdelay_Resp gives a peer delay (R348): half of the round trip less the turnaround, in 2^-16 ns; the last eight are kept. -/
def Dev.pdelayResp (d : Dev) (i : Nat) (h : PtpHdr) (trip turn : Nat) : Dev :=
  match d.ptpHeader h true with
  | (d, true) =>
    (d.onClock fun c => { c with
      delays := Tab.update c.delays i [] fun l => (l ++ [(trip - turn) / 2]).drop (l.length + 1 - 8) }).incU Cnt.PTP_CNT_PDELAY
  | (d, false) => d

def execPdelayResp (i : Fin 40) (h : PtpHdr) (trip turn : BitVec 48) (s : State) : Host.Outcome State Fault Refusal :=
  .next { s with dev := s.dev.pdelayResp i h trip.toNat turn.toNat }

/-- An Announce, or a message of another type (R347): Announce reveals a change of master. -/
def Dev.announce (d : Dev) (h : PtpHdr) (src : Nat) : Dev :=
  match d.ptpHeader h (h.type_ == 0xB) with
  | (d, true) => if d.isMember ∧ d.viewMaster ≠ some src then d else d.setMaster src
  | (d, false) => d

def execAnnounce (h : PtpHdr) (src : BitVec 16) (s : State) : Host.Outcome State Fault Refusal :=
  .next { s with dev := s.dev.announce h src.toNat }

/-! ### Holdover and free-run (R350) -/

/-- No usable Sync or frame for holdover_ms (R350): the rate is frozen at integ, or at the last adj received. -/
def Dev.holdover (d : Dev) : Dev :=
  if d.timeState ≠ 3 ∨ d.podMaster then d
  else
    let d := if d.isLeader || d.clock.source then d.onClock fun c => { c with wanted := some (adjOfRate c.integ) } else d
    (d.put Reg.TIME_STATUS_state 4).raise Src.TIME_holdover

def execHoldover (s : State) : Host.Outcome State Fault Refusal := .next { s with dev := s.dev.holdover }

/-- The reference is absent for 2 µs (R350). -/
def execRefMissing (s : State) : Host.Outcome State Fault Refusal :=
  .next { s with dev := ((s.dev.put Reg.TIME_STATUS_state 5).put Reg.TIME_STATUS_ref_missing 1).raise Src.TIME_ref_missing }

/-- The reference is back (R350). -/
def Dev.refReturn (d : Dev) : Dev :=
  let d := d.put Reg.TIME_STATUS_ref_missing 0
  if d.timeState = 5 then d.put Reg.TIME_STATUS_state 4 else d

def execRefReturn (s : State) : Host.Outcome State Fault Refusal := .next { s with dev := s.dev.refReturn }

/-! ### TIME messages to the agents (R189) -/

/-- Every 125 µs each agent gets the hub copy (R189). -/
def Dev.agentTimeSend (d : Dev) : Dev :=
  (List.range 8).foldl (fun d a =>
    if d.portUp a then d.sendDown a 0x0B [secOf d.time, nsOf d.time * 65536 + fracOf d.time] else d) d

def execAgentTimeSend (s : State) : Host.Outcome State Fault Refusal := .next { s with dev := s.dev.agentTimeSend }

end Sys2Proof.Machine
end

