-- ==== Sys2Proof/Machine/Observe.lean ====
section
/-! DEFINITION. Observation (chapter 15): snapshots (R398), the event recorder (R402 to R409), the global stop's commands and
scan (R410 to R414), the test access port (R413, R461) and pattern packs from the fleet (R416, R417). -/

namespace Sys2Proof.Machine

/-! ### Snapshots (R398) -/

/-- A page is in service: its partition is not out of service, nor in reset. -/
def Dev.pageServes (d : Dev) (pg : Nat) : Bool :=
  !d.flag (Reg.PAGE_STATUS_reset_active pg) && match pagePart pg with
    | some p => d.partState p != 4 && d.partState p != 2
    | none => true

/-- The controller's own pages (R436). -/
def ownPages : List Nat := (List.range 0x200).filter fun pg => (pageBlock pg).isSome

/-- Every counter slot of every page in service is copied in the same hub cycle (R398). -/
def Dev.snapAll (d : Dev) : Dev := (ownPages.filter d.pageServes).foldl Dev.snapPage d

def execSnapNow (s : State) : Host.Outcome State Fault Refusal := .next { s with dev := s.dev.snapAll }

/-- The hub time reaches or has passed DBG_SNAP_T while armed (R398). -/
def Dev.snapTime (d : Dev) : Dev :=
  if d.flag Reg.DBG_SNAP_CTRL_arm ∧ timeOfStamp (d.get Reg.DBG_SNAP_T_t) ≤ d.time then
    (d.put Reg.DBG_SNAP_CTRL_arm 0).snapAll
  else d

def execSnapTime (s : State) : Host.Outcome State Fault Refusal := .next { s with dev := s.dev.snapTime }

/-! ### The recorder (R402 to R409) -/

/-- The recorder's tables changed. -/
def Dev.onEvr (d : Dev) (f : Recorder → Recorder) : Dev := { d with evr := f d.evr }

/-- A map entry (R402): what the host wrote, or the default map of the KFP image once firmware runs (log entry 22). -/
def Dev.mapEntry (d : Dev) (src : Nat) : Nat :=
  match Tab.find (src % 2 ^ 15) d.evr.map with
  | some e => e
  | none => if d.boot.fwRunning then (Config.eventMap (src % 2 ^ 15)).toNat % 65536 else 0

/-- The recorder code of a source (R402): 0 before the map is installed. -/
def Dev.codeOf (d : Dev) (src : Nat) : Nat :=
  let e := d.mapEntry src
  if d.boot.fwRunning && bitAt 15 e then e % 4096 else 0

/-- The configuration word of a code (R405). -/
def Dev.evrCfg (d : Dev) (code : Nat) : Nat := Tab.getD d.evr.cfg code (16 * 2 ^ 40 + 10)

/-- The bucket's depth; 0 acts as 1 (R405). -/
def burstOf (cfg : Nat) : Nat := max 1 (bits 40 8 cfg)

/-- The tokens of a code; a bucket nothing was taken from is full. -/
def Dev.tokensOf (d : Dev) (code : Nat) : Nat :=
  Nat.min (burstOf (d.evrCfg code)) (Tab.getD d.evr.tokens code (burstOf (d.evrCfg code)))

/-- The histogram bin of a value (R404). -/
def binOf (shift v : Nat) : Nat := if v < 2 ^ shift then 0 else Nat.min 15 (Nat.log2 v - shift + 1)

/-- A record updated by one service of a source (R403, R404). -/
def EvRecord.update (r : EvRecord) (p : EvPending) (shift : Nat) : EvRecord :=
  let fresh := r.count == 0
  let lower := fresh || decide (p.value < r.min)
  let higher := fresh || decide (r.max < p.value)
  { gen := (r.gen + 1) % 2 ^ 32, count := (r.count + p.m) % 2 ^ 64, dropped := r.dropped
    first := if fresh then p.stamp else r.first, last := p.stamp
    min := if lower then p.value else r.min, minTime := if lower then p.stamp else r.minTime
    max := if higher then p.value else r.max, maxTime := if higher then p.stamp else r.maxTime
    bins := r.bins.mapIdx fun i n => if i = binOf shift p.value then Nat.min 0xFFFF (n + 1) else n
    lastSrc := p.src, lastVal := p.value, coalesced := (r.coalesced + p.m - 1) % 2 ^ 64 }

/-- The record of a code. -/
def Dev.record (d : Dev) (code : Nat) : EvRecord := Tab.getD d.evr.records code EvRecord.empty

/-- The record of a code set. -/
def Dev.setRecord (d : Dev) (code : Nat) (r : EvRecord) : Dev :=
  d.onEvr fun e => { e with records := Tab.set e.records code EvRecord.empty r }

/-- Events of a code for which no entry or notice was issued (R403). -/
def Dev.dropEvents (d : Dev) (code n : Nat) : Dev :=
  let r := d.record code
  d.setRecord code { r with dropped := (r.dropped + n) % 2 ^ 64 }

/-- A trace entry is dropped (R406, R407, R409). -/
def Dev.traceDrop (d : Dev) : Dev := (d.incE Cnt.EVR_CNT_TRACE_DROP).raise Src.EVR_trace_drop

/-- A trace entry is written when the ring has room (R406). -/
def Dev.traceEntry (d : Dev) (code : Nat) (p : EvPending) : Dev :=
  let n := d.get Reg.EVR_TRACE_log2n
  let size := 2 ^ limitTo (.range 8 20) n
  let head := d.get Reg.EVR_TRACE_PTR_head
  if n = 0 ∨ size ≤ (head + 2 ^ 32 - d.get Reg.EVR_TRACE_PTR_tail) % 2 ^ 32 then d.traceDrop.dropEvents code 1
  else
    let w := [p.stamp, pack [(46, 18, p.src), (34, 12, code), (33, 1, head / size % 2), (0, 32, p.value)], p.m, 0]
    let d := d.hostWrite (d.get Reg.EVR_TRACE_base * 4096 + head % size * 32) (wordBytes w)
    (d.put Reg.EVR_TRACE_PTR_head (head + 1)).incU Cnt.EVR_CNT_TRACE_WRITTEN

/-- What leaves the recorder for an update (R405): one token for one entry and one notice. -/
def Dev.traceUpdate (d : Dev) (code : Nat) (p : EvPending) : Dev :=
  let cfg := d.evrCfg code
  let left := d.tokensOf code
  if left = 0 then
    let d := d.dropEvents code p.m
    let d := if bitAt 63 cfg then d.traceDrop else d
    if bitAt 62 cfg then d.incE Cnt.EVR_CNT_NOTICE_DROP else d
  else
    let d := d.onEvr fun e => { e with tokens := Tab.insert code (left - 1) (Tab.erase code e.tokens) }
    let d := d.dropEvents code (p.m - 1)
    let d := if bitAt 63 cfg then d.traceEntry code p else d
    if bitAt 62 cfg then d.msix 0 (d.get Reg.EVR_IRQ_vector) else d

/-- A code whose updates a hold keeps back (R408). -/
def Dev.heldCode (d : Dev) (code : Nat) : Bool :=
  match d.evr.held with
  | some c => code == c || code == (c + 1) % 4096
  | none => false

/-- The recorder serves the next source (R404): its record, its trace entry and notice, and the stop it may trigger (R410). An
uncorrectable error clears the record concerned (R409). -/
def Dev.eventUpdate (d : Dev) (ecc : Bool) : Dev :=
  match d.evr.pend.find? fun p => !d.heldCode (d.codeOf p.src) with
  | none => d
  | some p =>
    let code := d.codeOf p.src
    let d := d.onEvr fun e => { e with pend := e.pend.filter fun q => q.src != p.src }
    let d := if ecc then (d.setRecord code { EvRecord.empty with gen := ((d.record code).gen + 1) % 2 ^ 32 }).raise Src.EVR_evr_ecc
      else d
    let d := d.setRecord code ((d.record code).update p (bits 57 5 (d.evrCfg code)))
    let d := d.traceUpdate code p
    if d.flag Reg.DBG_STOP_CTRL_trig_code ∧ d.get Reg.DBG_STOP_CTRL_code = code then d.stopTrigger 4 else d

def execEventUpdate (ecc : Bool) (s : State) : Host.Outcome State Fault Refusal := .next { s with dev := s.dev.eventUpdate ecc }

/-- A code's bucket gains a token (R405). -/
def Dev.tokenAdd (d : Dev) (code : Nat) : Dev :=
  let left := d.tokensOf code
  if burstOf (d.evrCfg code) ≤ left + 1 then d.onEvr fun e => { e with tokens := Tab.erase code e.tokens }
  else d.onEvr fun e => { e with tokens := Tab.insert code (left + 1) (Tab.erase code e.tokens) }

def execTokenAdd (code : BitVec 12) (s : State) : Host.Outcome State Fault Refusal :=
  .next { s with dev := s.dev.tokenAdd code.toNat }

/-- EVR_CTRL.hold written 1 (R408). -/
def Dev.evrHold (d : Dev) : Dev :=
  (d.onEvr fun e => { e with held := some (d.get Reg.EVR_CUR_code) }).put Reg.EVR_CTRL_hold 1

/-- Hold ends (R408): after 10 µs, at a write of EVR_CUR, or at a write of 0. -/
def Dev.evrRelease (d : Dev) : Dev := (d.onEvr fun e => { e with held := none }).put Reg.EVR_CTRL_hold 0

def execEvrHold (s : State) : Host.Outcome State Fault Refusal := .next { s with dev := s.dev.evrHold }

def execEvrHoldExpire (s : State) : Host.Outcome State Fault Refusal := .next { s with dev := s.dev.evrRelease }

/-- EVR_CTRL.clear (R408): the record shown at 0x800 is zero except gen, which increments. -/
def Dev.evrClear (d : Dev) : Dev :=
  let code := d.get Reg.EVR_CUR_code
  d.setRecord code { EvRecord.empty with gen := ((d.record code).gen + 1) % 2 ^ 32 }

def execEvrClear (s : State) : Host.Outcome State Fault Refusal := .next { s with dev := s.dev.evrClear }

def execEvrCurWrite (code : BitVec 12) (s : State) : Host.Outcome State Fault Refusal :=
  .next { s with dev := s.dev.evrRelease.put Reg.EVR_CUR_code code.toNat }

/-- A word of a record (R403). -/
def EvRecord.word (r : EvRecord) (i : Nat) : Nat :=
  match i with
  | 0 => r.gen | 1 => r.count | 2 => r.dropped | 3 => r.first | 4 => r.last
  | 5 => word2 r.min r.max | 6 => r.minTime | 7 => r.maxTime
  | 12 => r.lastSrc * 2 ^ 28 | 13 => r.lastVal | 14 => r.coalesced | 15 => 0
  | k => pack ((List.range 4).map fun j => (16 * j, 16, r.bins.getD (4 * (k - 8) + j) 0))

/-- A word of the window at 0x800 (R408). -/
def Dev.evrWindow (d : Dev) (off : Nat) : Nat :=
  (d.record ((d.get Reg.EVR_CUR_code + off / 128) % 4096)).word (off % 128 / 8)

/-- A read of offset 0x8F8 (R408): with auto 1 the code advances by 2. -/
def Dev.evrAdvance (d : Dev) : Dev :=
  let v := d.evrWindow 0xF8
  let d := if d.flag Reg.EVR_CTRL_auto then d.put Reg.EVR_CUR_code (d.get Reg.EVR_CUR_code + 2) else d
  { d with rdata := v }

def execEvrAdvance (s : State) : Host.Outcome State Fault Refusal := .next { s with dev := s.dev.evrAdvance }

/-! ### Global stop (R410, R414, R460) -/

def execGlobalStop (s : State) : Host.Outcome State Fault Refusal := .next { s with dev := s.dev.stopTrigger 1 }

/-- STOP_N has fallen and stayed low for 10 ns (R410 cause 2, R460). -/
def execStopPin (s : State) : Host.Outcome State Fault Refusal :=
  .next { s with dev := if s.dev.flag Reg.DBG_STOP_CTRL_trig_pin then s.dev.stopTrigger 2 else s.dev }

/-- DBG_STOP_CTRL.resume (R414): every frozen partition goes on; reactions that waited act now. -/
def Dev.stopResume (d : Dev) : Dev :=
  if d.get Reg.DBG_STOP_STATUS_state < 2 then d
  else
    let ps := d.stop.deferred.eraseDups
    let d := (d.put Reg.DBG_STOP_STATUS_frozen 0).put Reg.DBG_STOP_STATUS_state (b2n (d.flag Reg.DBG_STOP_CTRL_arm))
    let d := ps.foldl Dev.partSafe { d with stop := { d.stop with deferred := [] } }
    (List.range 16).foldl (fun d p => if d.partState p = 0 then d.tableDue p else d) d

def execStopResume (s : State) : Host.Outcome State Fault Refusal := .next { s with dev := s.dev.stopResume }

/-! ### Scan (R413) -/

/-- The length of a chain in the scan map of the KFP image; 0 beyond it (log entry 22). -/
def chainBits (chain : Nat) : Nat := (Config.scanBits chain).toNat

/-- The bits of a selected chain: none when the partition is not frozen or the chain lies beyond the map. -/
def Dev.chainLen (d : Dev) (part chain : Nat) : Nat := if d.frozen part then chainBits chain else 0

/-- A chain is selected (R413): it restarts; a selection that reads zero sets err. -/
def Dev.scanSelect (d : Dev) (part chain : Nat) : Dev :=
  let n := d.chainLen part chain
  let d := (d.put Reg.DBG_SCAN_SEL_part part).put Reg.DBG_SCAN_SEL_chain chain
  let d := (d.put Reg.DBG_SCAN_LEN_bits n).putB Reg.DBG_SCAN_LEN_err (n == 0)
  { d with stop := { d.stop with scanPos := 0 } }

def execScanSelect (part : Fin 16) (chain : BitVec 10) (s : State) : Host.Outcome State Fault Refusal :=
  .next { s with dev := s.dev.scanSelect part chain.toNat }

/-- Bits of a frozen partition's chain: the scan map is not in the spec, so they are free (log entries 1 and 22). -/
def Dev.scanBits (d : Dev) (part chain n : Nat) : Dev × Nat :=
  if d.chainLen part chain = 0 then (d.put Reg.DBG_SCAN_LEN_err 1, 0)
  else (d.tick.addU Cnt.DBG_CNT_SCAN_BITS n, d.free % 2 ^ n)

/-- A read of DBG_SCAN_DATA (R413): the next 64 bits of the chain; the chain recirculates. -/
def Dev.scanRead (d : Dev) : Dev :=
  let part := d.get Reg.DBG_SCAN_SEL_part
  let chain := d.get Reg.DBG_SCAN_SEL_chain
  let len := d.chainLen part chain
  let n := Nat.min 64 (len - d.stop.scanPos)
  let (d, v) := d.scanBits part chain n
  let pos := if len ≤ d.stop.scanPos + 64 then 0 else d.stop.scanPos + 64
  { d with rdata := v, stop := { d.stop with scanPos := pos } }

def execScanRead (s : State) : Host.Outcome State Fault Refusal := .next { s with dev := s.dev.scanRead }

/-! ### The test access port (R413, R461) -/

/-- The TAP's instruction register takes a code. -/
def Dev.tapIr (d : Dev) (code : Nat) : Dev := { d with stop := { d.stop with tapIr := code } }

/-- KSCAN_SEL (R413): it acts only while tap_en is 1; a non-zero reserved bit makes the selection invalid. -/
def Dev.kscanSel (d : Dev) (v : Nat) : Dev :=
  let d := d.tapIr 0x20
  if !d.flag Reg.DBG_CTRL_tap_en then d
  else
    let bad := bits 14 2 v != 0 || d.chainLen (bits 10 4 v) (bits 0 10 v) == 0
    let d := { d with stop := { d.stop with tapSel := v, tapPos := 0 } }
    if bad then d.put Reg.DBG_SCAN_LEN_err 1 else d

def execKscanSel (v : BitVec 16) (s : State) : Host.Outcome State Fault Refusal := .next { s with dev := s.dev.kscanSel v.toNat }

/-- KSCAN_DATA shifts out bits of the selected chain (R413). -/
def Dev.kscanData (d : Dev) (n : Nat) : Dev :=
  let d := d.tapIr 0x21
  if !d.flag Reg.DBG_CTRL_tap_en then d
  else
    let v := d.stop.tapSel
    let len := d.chainLen (bits 10 4 v) (bits 0 10 v)
    if bits 14 2 v ≠ 0 ∨ len = 0 then (d.put Reg.DBG_SCAN_LEN_err 1).emit (.serial n 0)
    else
      let (d, x) := d.scanBits (bits 10 4 v) (bits 0 10 v) n
      ({ d with stop := { d.stop with tapPos := (d.stop.tapPos + n) % len } }).emit (.serial n x)

def execKscanData (n : Fin 65) (s : State) : Host.Outcome State Fault Refusal := .next { s with dev := s.dev.kscanData n }

/-- EXTEST drives the boundary chain (R413): the value shifted in stands at the sideband balls. -/
def execExtest (v : Word) (s : State) : Host.Outcome State Fault Refusal :=
  .next { s with dev := let d := s.dev.tapIr 0x00
                        { d with stop := { d.stop with boundary := v.toNat } } }

/-- IDCODE shifts out its value (R461). -/
def execIdcode (s : State) : Host.Outcome State Fault Refusal :=
  .next { s with dev := (s.dev.tapIr 0x01).emit (.serial 32 0x1D4019AB) }

/-- SAMPLE/PRELOAD (R413): the sampled balls are shifted out, which the model does not hold, so the bits are free (log entry
22); the value shifted in waits in the boundary chain. -/
def execSamplePreload (v : Word) (s : State) : Host.Outcome State Fault Refusal :=
  .next { s with dev := let d := s.dev.tapIr 0x02
                        let x := d.free
                        ({ d.tick with stop := { d.stop with boundary := v.toNat } }).emit (.serial 64 x) }

/-- BYPASS, or any other code (R413): one bit of delay, zero first. -/
def execBypass (code : Byte) (n : Fin 65) (v : Word) (s : State) : Host.Outcome State Fault Refusal :=
  .next { s with dev := (s.dev.tapIr code.toNat).emit (.serial n (v.toNat * 2 % 2 ^ n.val)) }

/-- TRST_N low for 50 ns (R461): the TAP is reset; IDCODE is selected (log entry 23). -/
def execTapReset (s : State) : Host.Outcome State Fault Refusal :=
  .next { s with dev := { s.dev with stop := { s.dev.stop with tapIr := 1, tapSel := 0, tapPos := 0 } } }

/-! ### Pattern packs (R416, R417) -/

/-- The first 8 bytes of a pack's SHA-384 as a word (R417). -/
def packWord (info : ObjInfo) : Nat := info.digest % 2 ^ 64

/-- The chunks of 64 KiB of a pack. -/
def packChunks (bs : List Nat) : List (List Nat) := chunksOf 65536 (bs.length / 65536 + 1) bs |>.filter (· != [])

/-- Chunks of the staged pack to controllers (R417). -/
def Dev.sendPack (d : Dev) (info : ObjInfo) (dsts : List Nat) : Dev :=
  let cs := packChunks info.bytes
  cs.zipIdx.foldl (fun d c => d.sendAll dsts 0x54 ([word2 c.2 cs.length, packWord info] ++ wordsOf c.1)) d

/-- The controllers a push reaches (R417): the rack's members, and in pod scope the leaders of the other racks. -/
def Dev.packTargets (d : Dev) (scope : Nat) : List Nat :=
  (if scope = 1 ∨ scope = 2 then (d.membersOf d.rack).filter (· != d.chip) else []) ++
  (if scope = 2 then ((d.racksIn.filter (· != d.rack)).filterMap d.leaderOf) else [])

/-- DBG_PACK_CTRL.push (R417). -/
def Dev.packPush (d : Dev) (scope : Nat) : Dev :=
  match d.boot.packA with
  | none => d
  | some info =>
    if scope = 0 ∨ 2 < scope then d
    else
      let d := { d with packs := { d.packs with acked := [] } }
      let dsts := d.packTargets scope
      let d := (d.put Reg.DBG_PACK_STATUS_acks 0).put Reg.DBG_PACK_STATUS_state (if dsts = [] then 1 else 2)
      d.sendPack info dsts

def execPackPush (s : State) : Host.Outcome State Fault Refusal :=
  .next { s with dev := s.dev.packPush (s.dev.get Reg.DBG_PACK_CTRL_scope) }

/-- DBG_PACK_CTRL.discard (R416). -/
def Dev.packDiscard (d : Dev) : Dev :=
  ({ d with boot := { d.boot with packA := none }, packs := PackSt.reset }).put Reg.DBG_PACK_STATUS_state 0

def execPackDiscard (s : State) : Host.Outcome State Fault Refusal := .next { s with dev := s.dev.packDiscard }

/-- A pack is complete at its receiver (R417): verified, staged, answered; a leader pushes a pack of another rack on. -/
def Dev.packArrived (d : Dev) (q : PackIn) (bs : List Byte) : Dev :=
  let code := d.checkImage 0x3150504B bs
  let d := { d with packs := { d.packs with incoming := none } }
  let answer (d : Dev) (r : Nat) : Dev := d.send q.src 0x55 [q.digest, r]
  if code ≠ 0 then answer d code
  else
    let info := objInfo bs
    let d := d.stagePack info d.stagingPart
    let d := answer d (d.get Reg.DBG_PACK_STATUS_last)
    if d.isLeader ∧ q.src / 32 ≠ d.rack ∧ (d.get Reg.DBG_PACK_STATUS_last = 0 ∨ d.get Reg.DBG_PACK_STATUS_last = 0x10) then d.packPush 1 else d

/-- A PACK chunk arrives (R417): a duplicate is dropped. -/
def Dev.packChunkIn (d : Dev) (src chunk total digest : Nat) (data : List Byte) : Dev :=
  if d.stage ≠ 0xA then d
  else
    let q : PackIn := match d.packs.incoming with
      | some q => if q.digest = digest then q else ⟨digest, total, src, []⟩
      | none => ⟨digest, total, src, []⟩
    let q := { q with chunks := Tab.insert chunk (data.map BitVec.toNat) (Tab.erase chunk q.chunks) }
    let d := { d with packs := { d.packs with incoming := some q } }
    if (List.range q.total).all fun i => (Tab.find i q.chunks).isSome then
      d.packArrived q (((List.range q.total).flatMap fun i => Tab.getD q.chunks i []).map fun b => BitVec.ofNat 8 b)
    else d

def execPack (h : FabHdr) (chunk total : BitVec 32) (digest : Word) (data : List Byte) (s : State) :
    Host.Outcome State Fault Refusal :=
  .next { s with dev := s.dev.ingress h fun d => d.packChunkIn h.src.toNat chunk.toNat total.toNat digest.toNat data }

/-- A PACKACK arrives (R417): acks counts the answers with result 0x00 or 0x10; a duplicate does not count. -/
def Dev.packAck (d : Dev) (src digest result : Nat) : Dev :=
  match d.boot.packA with
  | none => d
  | some info =>
    if packWord info ≠ digest ∨ d.packs.acked.contains src ∨ d.get Reg.DBG_PACK_STATUS_state ≠ 2 then d
    else
      let d := { d with packs := { d.packs with acked := d.packs.acked ++ [src] } }
      let d := if result = 0x00 ∨ result = 0x10 then d.put Reg.DBG_PACK_STATUS_acks (d.get Reg.DBG_PACK_STATUS_acks + 1) else d
      if (d.packTargets (d.get Reg.DBG_PACK_CTRL_scope)).all d.packs.acked.contains then d.put Reg.DBG_PACK_STATUS_state 1 else d

def execPackack (h : FabHdr) (digest : Word) (result : Byte) (s : State) : Host.Outcome State Fault Refusal :=
  .next { s with dev := s.dev.ingress h fun d => d.packAck h.src.toNat digest.toNat result.toNat }

/-- A chunk that a receiver misses is sent again after 100 ms (R417). -/
def Dev.packResend (d : Dev) (dst chunk : Nat) : Dev :=
  match d.boot.packA with
  | none => d
  | some info =>
    let cs := packChunks info.bytes
    if d.get Reg.DBG_PACK_STATUS_state = 2 ∧ chunk < cs.length ∧ !d.packs.acked.contains dst then
      d.send dst 0x54 ([word2 chunk cs.length, packWord info] ++ wordsOf (cs.getD chunk []))
    else d

def execPackResend (dst : BitVec 16) (chunk : BitVec 32) (s : State) : Host.Outcome State Fault Refusal :=
  .next { s with dev := s.dev.packResend dst.toNat chunk.toNat }

end Sys2Proof.Machine
end

