-- ==== Sys2Proof/Machine/Ageing.lean ====
section
/-! DEFINITION. The limiter and the energy accounts (R57, R60, R428, R429), the thermal limit (R452), the monitors and margin
plans (R420 to R425), test slots (R357, R418, R422) and the progress buckets (R431 to R435). -/

namespace Sys2Proof.Machine

/-! ### Energy (R428, R429) -/

/-- The weighted activity of a share of the work. -/
def Dev.activity (d : Dev) (a : Activity) : Nat :=
  a.mac + a.vec * d.get Reg.DEV_NRG_WEIGHT_w_vec + a.red * d.get Reg.DEV_NRG_WEIGHT_w_red +
    a.sram * d.get Reg.DEV_NRG_WEIGHT_w_sram + a.lpd * d.get Reg.DEV_NRG_WEIGHT_w_lpd

/-- The accounts in the order of their fractions: base, C, A, G, and Agreement and state protection as parts of C. -/
def nrgAccounts : List Fld :=
  [Reg.DEV_NRG_BASE_uj, Reg.DEV_NRG_C_uj, Reg.DEV_NRG_A_uj, Reg.DEV_NRG_G_uj, Reg.DEV_NRG_AGR_uj, Reg.DEV_NRG_STP_uj]

/-- Energy in hundredths of a µJ goes to an account, its fraction carried forward; the first four accounts make the total. -/
def Dev.charge (d : Dev) (i : Nat) (f : Fld) (e : Nat) : Dev :=
  let s := d.nrg.getD i 0 + e
  let d := { d with nrg := d.nrg.set i (s % 100) }
  let d := d.addU f (s / 100)
  if i < 4 then d.addU Reg.DEV_NRG_TOTAL_uj (s / 100) else d

/-- The energy of a window of mw mW (R428): the share of a class is rounded down to a hundredth of a µJ, what is left stays in
the base (log entry 24). -/
def Dev.energy (d : Dev) (mw : Nat) (c a g agr stp : Activity) : Dev :=
  let dyn := mw - Nat.min mw (d.get Reg.DEV_NRG_P0_mw)
  let acts := [c, a, g].map d.activity
  let total := acts.foldl (· + ·) 0
  let part (x : Nat) : Nat := if total = 0 then 0 else dyn * x / total
  let shares := acts.map part
  let base := mw - shares.foldl (· + ·) 0
  ((nrgAccounts.zip (base :: shares ++ [part (Nat.min (d.activity agr) (acts.getD 0 0)), part (Nat.min (d.activity stp) (acts.getD 0 0))])).zipIdx).foldl
    (fun (d : Dev) e => d.charge e.2 e.1.1 e.1.2) d

/-- A read of DEV_NRG_TOTAL latches 0x500 to 0x540 (R429). -/
def Dev.nrgRead (d : Dev) : Dev :=
  let d := (List.range 9).foldl (fun (d : Dev) i =>
    { d with latched := Tab.set d.latched (0x500 + 8 * i) 0 (d.get ⟨0x500 + 8 * i, 0, 64, 0⟩) }) d
  { d with rdata := d.get Reg.DEV_NRG_TOTAL_uj }

def execNrgRead (s : State) : Host.Outcome State Fault Refusal := .next { s with dev := s.dev.nrgRead }

/-! ### The limiter (R57, R60, R452) -/

/-- The envelope in force in mW (R57, R58, R60): single_w on one feed, the burst ceiling while the allowance runs, else
envelope_w. -/
def Dev.envelope (d : Dev) : Nat :=
  1000 * if d.flag Reg.PWR_FEED_STATUS_single_feed then d.get Reg.PWR_LIMIT_single_w
    else if d.pwr.burst then d.get Reg.PWR_LIMIT_burst_w else d.get Reg.PWR_LIMIT_envelope_w

/-- Whether measure 2 or 3 is in force (R60). -/
def Dev.settleLimit (d : Dev) : Dev :=
  let low := d.clocked.any fun p => decide (d.pointOf p < d.planPoint p)
  { d with pwr := { d.pwr with limited := low || decide (d.pwr.classA < 16) } }

/-- A 10 µs window of PWR_PKG_POWER (R57, R60, R428): mw is the measured power, avg its average over the 100 ms before, hold the power
that the controller holds the junction at 100 °C with, down and rate what its activity model predicts. -/
def Dev.limiterWindow (d : Dev) (mw avg hold : Nat) (down : List Nat) (rate : Nat) (c a g agr stp : Activity) : Dev :=
  let d := d.put Reg.PWR_PKG_POWER_mw mw
  let d := d.energy mw c a g agr stp
  let two := !d.flag Reg.PWR_FEED_STATUS_single_feed
  let env := 1000 * d.get Reg.PWR_LIMIT_envelope_w
  let d : Dev := if two && !d.pwr.burst && decide (env < mw) && decide (avg ≤ env) then
      { d with pwr := { d.pwr with burst := true } } else d
  let env := if d.pwr.hot then Nat.min hold d.envelope else d.envelope
  let d : Dev :=
    if env < mw then
      let d := d.clocked.foldl (fun (d : Dev) p => d.lowerPoint p (down.getD p 0)) d
      { d with pwr := { d.pwr with classA := Nat.min d.pwr.classA rate } }
    else if mw * 100 < env * 95 then
      if d.pwr.classA < 16 then { d with pwr := { d.pwr with classA := d.pwr.classA + 1 } }
      else d.clocked.foldl Dev.raisePoint d
    else d
  d.settleLimit

def execLimiterWindow (mw avg hold : BitVec 32) (down : List (Fin 11)) (rate : Fin 17) (c a g agr stp : Activity) (s : State) :
    Host.Outcome State Fault Refusal :=
  .next { s with dev := s.dev.limiterWindow mw.toNat avg.toNat hold.toNat (down.map Fin.val) rate c a g agr stp }

/-- The junction sensors are read (R452), in sixteenths of a degree; in Idle-Keep only the hub's, the last one. A second reading
in succession at or above 110 °C trips once; THERMTRIP_N goes low at 125 °C and stays. -/
def Dev.thermalSample (d : Dev) (temps : List Int) : Dev :=
  let ts := if d.get Reg.AON_IDLE_STATUS_state = 2 then temps.drop 16 else temps
  match ts.max? with
  | none => d
  | some t =>
    let before := d.pwr.junction
    let d := { d with pwr := { d.pwr with junction := t, hot := decide (100 * 16 < t) } }
    let d : Dev := if 125 * 16 ≤ t ∧ !d.pwr.thermtrip then
        ({ d with pwr := { d.pwr with thermtrip := true } }).pin .thermtrip 0 else d
    if 110 * 16 ≤ t ∧ 110 * 16 ≤ before then
      if d.pwr.trip then d else ({ d with pwr := { d.pwr with trip := true } }).raise Src.FLT_thermal_trip
    else { d with pwr := { d.pwr with trip := false } }

def execThermalSample (temps : List (BitVec 16)) (s : State) : Host.Outcome State Fault Refusal :=
  .next { s with dev := s.dev.thermalSample ((temps.take 17).map BitVec.toInt) }

/-! ### Monitors (R420) -/

/-- The median of a list. -/
def median (l : List Int) : Int := (l.mergeSort fun a b => decide (a ≤ b)).getD (l.length / 2) 0

/-- The monitors that differ by more than 40 ps from the median. -/
def oddMonitors (slacks : List Int) : List Nat :=
  (slacks.zipIdx.filter fun e => decide (40 < (e.1 - median slacks).natAbs)).map (·.2)

/-- A monitor is excluded from planning (R420). -/
def Dev.exclude (d : Dev) (p i : Nat) : Dev :=
  if bitAt i (d.mon p).excluded then d
  else (d.setMon p { d.mon p with excluded := setBit (d.mon p).excluded i }).raise (Src.MON_mon_fault p)

/-- The live values of a partition's monitors and ring oscillators (R420); while a plan measures, an inconsistent monitor is
noted, and excluded when it is the third plan in succession. -/
def Dev.monitorSample (d : Dev) (p : Nat) (slacks : List Int) (edges : List Nat) : Dev :=
  let d := d.setMon p { d.mon p with slacks := slacks, edges := edges }
  if (d.mon p).started.isNone then d
  else
    let odd := oddMonitors slacks
    let d := d.setMon p { d.mon p with oddNow := ((d.mon p).oddNow ++ odd).eraseDups }
    odd.foldl (fun (d : Dev) i => if 2 ≤ Tab.getD (d.mon p).odd i 0 then d.exclude p i else d) d

def execMonitorSample (p : Fin 16) (slacks : List (BitVec 8)) (edges : List (BitVec 32)) (s : State) :
    Host.Outcome State Fault Refusal :=
  .next { s with dev := s.dev.monitorSample p ((slacks.take 32).map BitVec.toInt) ((edges.take 8).map BitVec.toNat) }

/-! ### Margin plans (R422 to R425) -/

/-- A plan starts on a partition (R422): in stage 0xA, unless one runs. -/
def Dev.planStart (d : Dev) (p : Nat) : Dev :=
  if d.stage ≠ 0xA ∨ d.partState p = 4 ∨ (d.mon p).started.isSome then d
  else (d.setMon p { d.mon p with started := some (secOf d.time), oddNow := [], cap := 10 }).put (Reg.MON_STATUS_state p) 1

/-- The period of a partition elapses (R422): plan_en 0 suspends periodic plans. -/
def execPlanStart (p : Fin 16) (s : State) : Host.Outcome State Fault Refusal :=
  .next { s with dev := if s.dev.flag (Reg.MON_CTRL_plan_en p) then s.dev.planStart p else s.dev }

def execPlanNow (p : Fin 16) (s : State) : Host.Outcome State Fault Refusal := .next { s with dev := s.dev.planStart p }

/-- The plan is over: what MON_STATUS.state shows then. -/
def Dev.planOver (d : Dev) (p : Nat) : Dev :=
  let m := d.mon p
  (d.setMon p { m with started := none, oddNow := [], cap := 10 }).put (Reg.MON_STATUS_state p) (if m.next.isSome then 2 else 0)

/-- 24 h have passed since a plan started (R422): it is abandoned, the table in force stays. -/
def Dev.planLate (d : Dev) (p : Nat) : Dev :=
  if (d.mon p).started.isNone then d
  else ((d.planOver p).put (Reg.MON_STATUS_result p) 0x02).raise (Src.MON_plan_late p)

def execPlanLate (p : Fin 16) (s : State) : Host.Outcome State Fault Refusal := .next { s with dev := s.dev.planLate p }

/-- The smallest slack of the included monitors. -/
def leastSlack (excluded : Nat) (slacks : List Int) : Option Int :=
  ((slacks.zipIdx.filter fun e => !bitAt e.2 excluded).map (·.1)).min?

/-- The entry of a point from its sweep (R421): 51 voltages from 600 mV; the lowest that gives every included monitor guard_ps, plus
10 mV and at most 850 mV (log entry 24). -/
def vfEntry (excluded guard : Nat) (sweep : List (List Int)) : VfPoint :=
  let least (v : Nat) : Option Int := (sweep[v]?).bind (leastSlack excluded)
  match (List.range 51).find? fun v => (match least v with | some x => decide ((guard : Int) ≤ x) | none => false) with
  | some v => let w := Nat.min 50 (v + 2); ⟨600 + 5 * w, (least w).getD 0, true⟩
  | none => ⟨850, (least 50).getD 0, false⟩

/-- The highest usable point of a table within a bound; none when there is none. -/
def bestPoint (table : List VfPoint) (bound : Nat) : Option Nat :=
  ((List.range 11).filter fun i => decide (i ≤ bound) && ((table[i]?.map VfPoint.usable).getD false)).getLast?

/-- What the at-speed tests of a cluster's cores found (R423 step 2): the worst failing core is withdrawn while a spare is idle, the
others bound the proposed point. The answer has how many cores were switched in and whether one fails even at point 0. -/
def Dev.planCores (d : Dev) (p cl proposed : Nat) (cores : List (Nat × Option Nat)) : Dev × Nat × Bool :=
  let active := d.get (Reg.CLU_CORE_MAP_active cl)
  let spare := d.get (Reg.CLU_CORE_MAP_spare cl)
  let spareFails := cores.any fun e => e.1 == spare && e.2.isNone
  let d := if spareFails then d.coreFail cl spare else d
  let tested := cores.filter fun e => bitAt e.1 active
  let fails (e : Nat × Option Nat) : Bool := match e.2 with | some h => decide (h < proposed) | none => true
  let bad := (tested.filter fails).mergeSort fun a b => decide ((a.2.map (· + 1)).getD 0 ≤ (b.2.map (· + 1)).getD 0)
  let idle := decide (spare < 17) && !spareFails && !(Tab.getD d.comp.clusters cl Cluster.reset).switching
  match bad, idle with
  | [], _ => (d, 0, false)
  | e :: rest, true =>
    let d := d.coreFail cl e.1
    let more := rest ++ cores.filter fun x => x.1 == spare && fails x
    (more.foldl (fun (d : Dev) x => d.setMon p { d.mon p with cap := Nat.min (d.mon p).cap (x.2.getD 0) }) d, 1,
      more.any fun x => x.2.isNone)
  | bad, false =>
    if bad.any fun x => x.2.isNone then
      let dead := bad.find? fun x => x.2.isNone
      ((match dead with | some x => d.coreFail cl x.1 | none => d), 0, true)
    else (bad.foldl (fun (d : Dev) x => d.setMon p { d.mon p with cap := Nat.min (d.mon p).cap (x.2.getD 0) }) d, 0, false)

/-- days_left (R425): when the least-squares line through the last eight readings reaches guard_ps. -/
def daysLeft (readings : List (Int × Int)) (guard now : Int) : Nat :=
  let rs := (readings.drop (readings.length - 8)).map fun r => (r.1 - now, r.2)
  let n : Int := rs.length
  let sum (f : Int × Int → Int) : Int := (rs.map f).foldl (· + ·) 0
  let sx := sum (·.1)
  let sy := sum (·.2)
  let den := n * sum (fun r => r.1 * r.1) - sx * sx
  let num := n * sum (fun r => r.1 * r.2) - sx * sy
  if readings.length < 3 ∨ den ≤ 0 ∨ 0 ≤ num then 0xFFFF
  else
    let secs := -((guard * n - sy) * den + num * sx) / (-(n * num))
    (clampInt 0 65534 (secs / 86400)).toNat

/-- A plan ends (R423 to R425): the table waits for an epoch pulse and the margin is recorded, or the partition is retired. -/
def Dev.planComplete (d : Dev) (p : Nat) (r : PlanResult) : Dev :=
  if (d.mon p).started.isNone ∨ d.partState p = 4 then d
  else
    let guard := d.get (Reg.MON_CTRL_guard_ps p)
    let odd := ((d.mon p).oddNow ++ oddMonitors r.reference).eraseDups
    let counts := (List.range 32).foldl (fun t i => Tab.set t i 0 (if odd.contains i then Tab.getD (d.mon p).odd i 0 + 1 else 0)) []
    let d := d.setMon p { d.mon p with odd := counts, lastPlan := some (secOf d.time) }
    let d := odd.foldl (fun (d : Dev) i => if 3 ≤ Tab.getD counts i 0 then d.exclude p i else d) d
    let ex := (d.mon p).excluded
    let table := (List.range 11).map fun i => vfEntry ex guard (r.sweep.getD i [])
    let target := (d.get (Reg.MON_CTRL_target_mhz p) - 1200) / 100
    let proposed := bestPoint table target
    let cores := r.cores.zipIdx.map fun e => (e.2, e.1)
    let half (h : Nat) : List (Nat × Option Nat) := (cores.filter fun e => e.1 / 17 == h).map fun e => (e.1 % 17, e.2)
    let (d, in0, dead0) := d.planCores p (2 * p) (proposed.getD 0) (half 0)
    let (d, in1, dead1) := d.planCores p (2 * p + 1) (proposed.getD 0) (half 1)
    let d := d.addU (Cnt.MON_CNT_SPARE_IN p) (in0 + in1 + r.spared)
    let d := (List.range r.spared).foldl (fun (d : Dev) _ => d.raise (Src.SRM_sram_spare p)) d
    let final := bestPoint table (Nat.min target (d.mon p).cap)
    if d.partState p = 4 then d.planOver p
    else match proposed, final with
      | some q, some f =>
        if dead0 || dead1 then ((d.planOver p).put (Reg.MON_STATUS_result p) 0x03).partOut p 6
        else
          let d := if f < q then (d.incE (Cnt.MON_CNT_POINT_DROP p)).raise (Src.MON_point_lowered p) else d
          let table := if (d.mon p).cap < 10 then table.zipIdx.map fun e =>
              if (d.mon p).cap < e.2 then { e.1 with usable := false } else e.1 else table
          let mv := Nat.max (r.rowMv.getD 0) ((table[f]?.map VfPoint.mv).getD 0)
          if 850 < mv then (d.planOver p).raise (Src.SRM_sram_spare_out p)
          else
            let v := (mv - 600) / 5
            let slack := (((r.sweep.getD f [])[v]?).bind (leastSlack ex)).getD 0
            let table := table.zipIdx.map fun e => if e.2 = f then ⟨mv, slack, true⟩ else e.1
            let now : Int := secOf d.time
            let reading := (now, (leastSlack ex r.reference).getD 0)
            let d := d.setMon p { d.mon p with next := some table, due := false, readings := ((d.mon p).readings ++ [reading]).drop
                                                 ((d.mon p).readings.length - 7) }
            let days := daysLeft (d.mon p).readings guard now
            let d := (d.put (Reg.MON_STATUS_days_left p) days).put (Reg.MON_STATUS_margin_ps p) (byteOfInt (clampInt (-128) 127 (slack - guard)))
            let d := (d.planOver p).incU (Cnt.MON_CNT_PLANS p)
            if days < 180 then d.raise (Src.MON_margin_low p) else d
      | _, _ => ((d.planOver p).put (Reg.MON_STATUS_result p) 0x03).partOut p 6

def execPlanComplete (p : Fin 16) (r : PlanResult) (s : State) : Host.Outcome State Fault Refusal :=
  .next { s with dev := s.dev.planComplete p r }

/-! ### Test slots (R357, R418, R422) -/

/-- A test slot is open for a chunk of a bound in µs (R357). -/
def Dev.slotOpen (d : Dev) (bound : Nat) : Bool :=
  d.tense.all fun e => decide (d.get Reg.TENSE_CTRL_test_lo ≤ d.phase e.2) &&
    decide (d.phase e.2 + bound * 65536 / max 1 e.2.pred ≤ d.get Reg.TENSE_CTRL_test_hi) &&
    decide (d.phase e.2 < d.get Reg.TENSE_CTRL_test_hi)

/-- The pod second at which the rack's latest drill window started; none with drills disabled (R336, R340). -/
def Dev.drillStart (d : Dev) (sec : Nat) : Option Nat :=
  let h := d.get (acts Reg.DRILL_CTRL_period_h) * 3600
  if h = 0 then none
  else
    let off := d.get (acts Reg.DRILL_CTRL_offset_s) + d.rack * (h / 253)
    some (sec - (sec + h - off % h) % h)

/-- The rack's drill window is open (R336, R418). -/
def Dev.drillWindow (d : Dev) : Bool :=
  match d.drillStart (secOf d.time) with
  | some t => decide (t ≤ secOf d.time) && decide (secOf d.time < t + d.get (acts Reg.DRILL_CTRL_len_s))
  | none => false

/-- A cluster is given up to a test (R114, R418): its class A and G threads yield at their preemption points. -/
def Dev.yieldCluster (d : Dev) (cl : Nat) : Dev :=
  (d.threadsWith fun k t => k / 256 == cl && t.cls != 0 && t.state == .issuing && preemptible (descKind (t.desc t.idx))).foldl
    Dev.saveThread d

/-- A failing chunk raises what the same finding raises at power-up, and pack_fail (R418). -/
def Dev.chunkFails (d : Dev) (cl : Nat) (f : ChunkFail) : Dev :=
  let p := cl / 2
  let d : Dev := match f with
    | .core i => d.coreFail cl i
    | .rowSpared => d.raise (Src.SRM_sram_spare p)
    | .rowBeyond => d.raise (Src.SRM_sram_spare_out p)
    | .vector => d.raise (Src.VEC_vec_datapath cl)
    | .reduction => d.raise (Src.RED_red_datapath cl)
  let d := d.put Reg.DBG_PACK_RESULT_failed (d.get Reg.DBG_PACK_RESULT_failed + 1)
  (d.incE Cnt.DBG_CNT_PACK_FAIL).raise Src.DBG_pack_fail

/-- The cluster that the staged pack continues with (R418): the next one whose partition is not out of service. -/
def Dev.packCluster (d : Dev) : Nat :=
  let there (i : Nat) : Bool := d.partState (i / 2) != 4
  match (List.range 32).find? fun i => decide (d.packs.cluster ≤ i) && there i with
  | some i => i
  | none => ((List.range 32).find? there).getD 0

/-- The last chunk of a cluster is done (R418): the pack continues with the next cluster in the next window; all clusters are done when
none follows. -/
def Dev.packClusterDone (d : Dev) (cl : Nat) : Dev :=
  let d := { d with packs := { d.packs with chunk := 0, cluster := (cl + 1) % 32, doneIn := d.drillStart (secOf d.time) } }
  if d.packCluster ≤ cl ∧ d.get Reg.DBG_PACK_STATUS_state ≠ 2 then d.put Reg.DBG_PACK_STATUS_state 4 else d

/-- A chunk of the staged pack (R69, R418): the pack is read back before its first chunk; lost when that fails. The first failure stays
in DBG_PACK_RESULT. -/
def Dev.packChunk (d : Dev) (last readOk : Bool) (fail : Option ChunkFail) : Dev :=
  let d := { d with packs := { d.packs with readBack := true } }
  if !readOk then d.losePack d.boot.packPart
  else
    let cl := d.packCluster
    let chunk := if cl = d.packs.cluster then d.packs.chunk else 0
    let d := (d.yieldCluster cl).incU Cnt.DBG_CNT_PACK_RUNS
    let d := d.put Reg.DBG_PACK_RESULT_run (d.get Reg.DBG_PACK_RESULT_run + 1)
    let d := if d.get Reg.DBG_PACK_STATUS_state = 2 then d else d.put Reg.DBG_PACK_STATUS_state 3
    let d : Dev := match fail with
      | some f =>
        let d := if d.get Reg.DBG_PACK_RESULT_failed = 0 then (d.put Reg.DBG_PACK_RESULT_cluster cl).put Reg.DBG_PACK_RESULT_chunk chunk else d
        d.chunkFails cl f
      | none => d
    if last then d.packClusterDone cl
    else { d with packs := { d.packs with chunk := chunk + 1, cluster := cl } }

/-- A test slot opens and a chunk starts (R357). -/
def Dev.testSlot (d : Dev) : TestChunk → Dev
  | .pack bound last readOk fail =>
    if d.stage = 0xA ∧ d.boot.packA.isSome ∧ d.drillWindow ∧ d.slotOpen bound.toNat ∧
        d.packs.doneIn ≠ d.drillStart (secOf d.time) ∧ d.partState (d.packCluster / 2) = 0 then d.packChunk last (readOk || d.packs.readBack) fail else d
  | .plan cl cores =>
    let p := cl.val / 2
    if (d.mon p).started.isSome ∧ d.partState p = 0 ∧ d.slotOpen 50000 then
      let d := d.yieldCluster cl
      let q := (bestPoint (d.mon p).table ((d.get (Reg.MON_CTRL_target_mhz p) - 1200) / 100)).getD 0
      let before := (d.mon p).cap
      let (d, n, dead) := d.planCores p cl q (cores.map fun e => (e.1.val, e.2.map Fin.val))
      let d := d.addU (Cnt.MON_CNT_SPARE_IN p) n
      let d := if (d.mon p).cap < before ∧ (d.mon p).cap < q then (d.incE (Cnt.MON_CNT_POINT_DROP p)).raise (Src.MON_point_lowered p) else d
      if dead ∧ d.partState p ≠ 4 then ((d.planOver p).put (Reg.MON_STATUS_result p) 0x03).partOut p 6 else d
    else d

def execTestSlot (c : TestChunk) (s : State) : Host.Outcome State Fault Refusal := .next { s with dev := s.dev.testSlot c }

/-! ### Progress (R431 to R435) -/

/-- The present moment in µs of pod time. -/
def Dev.podUs (d : Dev) : Nat := d.time / unitsPerUs

/-- The buckets of a job's instance changed by a function. -/
def Dev.onProg (d : Dev) (job : Nat) (f : ProgSt → ProgSt) : Dev :=
  match d.instOf job with
  | none => d
  | some i => match Tab.find i d.progs with
    | some x => if x.job = job then { d with progs := Tab.insert i (f x) (Tab.erase i d.progs) } else d
    | none => d

/-- A job starts, or its instance's root changes to this controller (R431, R433). -/
def Dev.progStart (d : Dev) (job pred : Nat) : Dev :=
  match d.instOf job with
  | none => d
  | some i => { d with progs := Tab.insert i ⟨job, d.podUs, none, 0, 0, 0, 0, 0, 0, 0, max 1 pred, d.podUs, false, false, []⟩ (Tab.erase i d.progs) }

/-- COMMIT(N) leaves the root's controller (R431): mark is the latest MARK time of its tray in the round; standIn says whether a stand-in
ran in the job. -/
def Dev.progCommit (d : Dev) (job mark pred : Nat) (standIn : Bool) : Dev :=
  let now := d.podUs
  d.onProg job fun x =>
    let m := Nat.min now (Nat.max x.since (mark / unitsPerUs))
    let c := m - x.since
    let slow := c - Nat.min c x.base
    { x with useful := x.useful + Nat.min c x.base, gate := x.gate + (now - m), since := now
             degraded := if x.inDrill then x.degraded else x.degraded + slow
             drill := if x.inDrill then x.drill + slow else x.drill
             base := if standIn then x.base else max 1 pred }

/-- REPLAY leaves, or the job enters state 5: the round is replaced (R431). -/
def Dev.progReplay (d : Dev) (job : Nat) (recover : Bool) : Dev :=
  let now := d.podUs
  d.onProg job fun x =>
    if x.recovering then x
    else { x with replay := x.replay + (now - x.since), since := now, recovering := recover }

/-- RESUME leaves (R431). -/
def Dev.progResume (d : Dev) (job : Nat) : Dev :=
  let now := d.podUs
  d.onProg job fun x =>
    if !x.recovering then x
    else if x.inDrill then { x with drill := x.drill + (now - x.since), since := now, recovering := false }
    else { x with recover := x.recover + (now - x.since), since := now, recovering := false }

/-- A generation commits (R432). -/
def Dev.progLatch (d : Dev) (job gen : Nat) : Dev :=
  d.onProg job fun x => { x with latches := Tab.insert gen [x.useful, x.degraded, x.gate, x.replay] (Tab.erase gen x.latches) }

/-- RESTCOMMIT to the step of a generation (R432); without a latch, so many steps of P̂ move from useful. -/
def Dev.progLost (d : Dev) (job gen steps pred : Nat) : Dev :=
  d.onProg job fun x =>
    match Tab.find gen x.latches with
    | some [u, g, t, r] =>
      { x with useful := u, degraded := g, gate := t, replay := r
               lost := x.lost + (x.useful - u) + (x.degraded - g) + (x.gate - t) + (x.replay - r) }
    | _ => let m := Nat.min x.useful (steps * pred); { x with useful := x.useful - m, lost := x.lost + m }

/-- The job ends (R433). -/
def Dev.progEnd (d : Dev) (job : Nat) : Dev := let now := d.podUs; d.onProg job fun x => { x with stop := some now }

/-- A drill of a job begins or ends (R431). -/
def Dev.progDrill (d : Dev) (job : Nat) (on : Bool) : Dev := d.onProg job fun x => { x with inDrill := on }

/-- The progress registers of an instance in their order (R435): wall, useful, degraded, gate, replay, recover, lost, drill. -/
def Dev.progWords (d : Dev) (i : Nat) : List Nat :=
  match Tab.find i d.progs with
  | some x => [x.stop.getD d.podUs - x.start, x.useful, x.degraded, x.gate, x.replay, x.recover, x.lost, x.drill]
  | none => List.replicate 8 0

/-- A read of DEV_PROG_WALL latches 0x590 to 0x5C8 of the instance shown (R435). -/
def Dev.progRead (d : Dev) : Dev :=
  let ws := d.progWords (d.get Reg.DEV_PROG_SEL_inst)
  let d := ws.zipIdx.foldl (fun (d : Dev) e => { d with latched := Tab.set d.latched (0x590 + 8 * e.2) 0 (e.1 % 2 ^ 64) }) d
  { d with rdata := ws.headD 0 % 2 ^ 64 }

def execProgRead (s : State) : Host.Outcome State Fault Refusal := .next { s with dev := s.dev.progRead }

end Sys2Proof.Machine
end

