-- ==== Sys2Proof/Machine/Agent.lean ====
section
/-! DEFINITION. The Pliette agents (chapter 7): sampling and shipping (R172, R173, R195, R200), step marks and the step journal
(R175 to R180), cuts, pulls and restores (R181 to R184), faults and engine watch (R186, R187), time (R189), command counters (R190)
and declarations (R192). -/

namespace Sys2Proof.Machine

/-! ### SipHash-2-4 (R195) -/

/-- A 64-bit rotation to the left. -/
def rotl (n x : Nat) : Nat := (x * 2 ^ n % 2 ^ 64) + x / 2 ^ (64 - n)

/-- A round of SipHash. -/
def sipRound : Nat × Nat × Nat × Nat → Nat × Nat × Nat × Nat
  | (v0, v1, v2, v3) =>
    let v0 := (v0 + v1) % 2 ^ 64
    let v1 := rotl 13 v1 ^^^ v0
    let v0 := rotl 32 v0
    let v2 := (v2 + v3) % 2 ^ 64
    let v3 := rotl 16 v3 ^^^ v2
    let v0 := (v0 + v3) % 2 ^ 64
    let v3 := rotl 21 v3 ^^^ v0
    let v2 := (v2 + v1) % 2 ^ 64
    let v1 := rotl 17 v1 ^^^ v2
    let v2 := rotl 32 v2
    (v0, v1, v2, v3)

/-- So many rounds. -/
def sipRounds (s : Nat × Nat × Nat × Nat) : Nat → Nat × Nat × Nat × Nat
  | 0 => s
  | n + 1 => sipRounds (sipRound s) n

/-- SipHash-2-4 of a message of whole words under a key k0 + k1 × 2^64. -/
def sipHash (key : Nat) (msg : List Nat) : Nat :=
  let k0 := key % 2 ^ 64
  let k1 := key / 2 ^ 64 % 2 ^ 64
  let s := (k0 ^^^ 0x736f6d6570736575, k1 ^^^ 0x646f72616e646f6d, k0 ^^^ 0x6c7967656e657261, k1 ^^^ 0x7465646279746573)
  let absorb (s : Nat × Nat × Nat × Nat) (m : Nat) : Nat × Nat × Nat × Nat :=
    let t := sipRounds (s.1, s.2.1, s.2.2.1, s.2.2.2 ^^^ m) 2
    (t.1 ^^^ m, t.2.1, t.2.2.1, t.2.2.2)
  let s := absorb (msg.foldl absorb s) (8 * msg.length % 256 * 2 ^ 56)
  let s := sipRounds (s.1, s.2.1, s.2.2.1 ^^^ 0xFF, s.2.2.2) 4
  s.1 ^^^ s.2.1 ^^^ s.2.2.1 ^^^ s.2.2.2

/-- Whether a tile is selected (R195). -/
def sampled (key threshold job step tile : Nat) : Bool := decide (sipHash key [job, step, tile] % 65536 < threshold)

/-! ### Faults of an agent (R186) -/

/-- The AFLT page of an agent. -/
def aflt (a : Nat) : Nat := 0x1000 * (a + 1) + 3

/-- The FAULT body (R169): FLT_STATUS, FLT_FIRST and FLT_TIME. -/
def Dev.faultBody (d : Dev) (a : Nat) : List Nat :=
  let pg := aflt a
  [d.get (Reg.FLT_STATUS_status pg),
   pack [(Reg.FLT_FIRST_valid pg |>.lo, 1, d.get (Reg.FLT_FIRST_valid pg)), (Reg.FLT_FIRST_react pg |>.lo, Reg.FLT_FIRST_react pg |>.w, d.get (Reg.FLT_FIRST_react pg)),
     (Reg.FLT_FIRST_forced pg |>.lo, 1, d.get (Reg.FLT_FIRST_forced pg)), (Reg.FLT_FIRST_source pg |>.lo, Reg.FLT_FIRST_source pg |>.w, d.get (Reg.FLT_FIRST_source pg))],
   d.get (Reg.FLT_TIME_time pg)]

/-- An agent enters state 6 (R178): the state before is recorded. -/
def Dev.agentHeld (d : Dev) (a : Nat) : Dev :=
  let st := d.stepState a
  if 1 ≤ st ∧ st ≤ 5 then (d.onAgent a fun x => { x with before := st }).setStepState a 6 else d

/-- A source of an agent is raised (R186): latched with the agent's own time, then by its reaction code a FAULT with the interrupt line,
state 6, and stop. -/
def Dev.raiseAgent (d : Dev) (s : FltSrc) (a : Nat) (forced : Bool) : Dev :=
  let pg := aflt a
  if !(bitAt s.idx (d.get (Reg.FLT_ENABLE_enable pg))) || decide (8 + d.get (Reg.AGT_INFO_n_accflt a) ≤ s.idx) then d
  else
    let react := bits (2 * s.idx) 2 (d.get (Reg.FLT_REACT_react pg))
    let d' := d.setBitOf (Reg.FLT_STATUS_status pg) s.idx
    let d := if d.flag (Reg.FLT_FIRST_valid pg) then d'.setBitOf (Reg.FLT_OVF_ovf pg) s.idx
      else ((((d'.put (Reg.FLT_FIRST_valid pg) 1).put (Reg.FLT_FIRST_react pg) react).putB (Reg.FLT_FIRST_forced pg) forced).put
        (Reg.FLT_FIRST_source pg) s.idx).put (Reg.FLT_TIME_time pg) (stampOf (d.agentTime a))
    if react = 0 then d
    else
      let d := ((d.pin (.irq a) 1).sendUp a 0x15 (d.faultBody a)).incU (Cnt.AFLT_CNT_FAULT_MSG a)
      let d := if 2 ≤ react then d.agentHeld a else d
      if react = 3 then ((d.onAgent a fun x => { x with stopped := true }).writeRecord a).pin (.stop a) 1 else d

/-- A source of an agent is raised by its cause. -/
def Dev.agentRaise (d : Dev) (a : Nat) (s : FltSrc) : Dev := d.raiseAgent s a false

/-! ### The step journal (R177 to R179, R182) -/

/-- CUTACK with a cut's identifier and a status (R182). -/
def Dev.cutAck (d : Dev) (a id status : Nat) : Dev :=
  ((d.put (Reg.ASTEP_CUT_cut_id a) id).put (Reg.ASTEP_CUT_status a) status).sendUp a 0x13 [word2 id status]

/-- A key is installed (R172, R194): tiles of the new execution count from zero. -/
def Dev.installKey (d : Dev) (a key step threshold : Nat) : Dev :=
  let d := d.onAgent a fun x => { x with key := some key, seen := 0, sampled := 0 }
  ((d.put (Reg.ASMP_STATE_key_valid a) 1).put (Reg.ASMP_STATE_step a) step).put (Reg.ASMP_STATE_threshold a) threshold

/-- The key is discarded. -/
def Dev.dropKey (d : Dev) (a : Nat) : Dev :=
  let d := d.onAgent a fun x => { x with key := none }
  ((d.put (Reg.ASMP_STATE_key_valid a) 0).put (Reg.ASMP_STATE_step a) 0).put (Reg.ASMP_STATE_threshold a) 0

/-- The step an agent executes or has gated. -/
def Dev.agentStep (d : Dev) (a : Nat) : Nat := d.get (Reg.ASTEP_STATE_step a)

/-- A step is already committed at an agent. -/
def AgentSt.done (x : AgentSt) (n : Nat) : Bool := match x.committed with | some c => decide (n ≤ c) | none => false

/-- A message without effect (R179). -/
def Dev.staleMsg (d : Dev) (a : Nat) : Dev := d.incE (Cnt.ASTEP_CNT_STALE a)

/-- The recorded cut is discarded with CUTACK 0x05 (R178). -/
def Dev.dropCut (d : Dev) (a : Nat) : Dev :=
  match (d.agent a).cut with
  | some (id, _, _) => ((d.onAgent a fun x => { x with cut := none, cutPhase := 0, staged := none }).writeRecord a).cutAck a id 0x05
  | none => d.onAgent a fun x => { x with staged := none }

/-- Both journal slots are free: those of a step and of the next. -/
def Dev.freeSlots (d : Dev) (a n : Nat) : Dev := (d.pin (.slotFree a) n).pin (.slotFree a) (n + 1)

/-- COMMIT(N) (R177 to R179): one of another job commits nothing here. -/
def Dev.agentCommit (d : Dev) (a job step key threshold : Nat) : Dev :=
  let x := d.agent a
  if job ≠ x.job ∨ x.done step then d.staleMsg a
  else if d.stepState a ≠ 2 then d
  else if step ≠ d.agentStep a then d.staleMsg a
  else
    let d := (d.onAgent a fun x => { x with committed := some step, waitDone := true }).installKey a key (step + 1) threshold
    (d.writeRecord a).pin (.updateGate a) 1

/-- REPLAY(N) (R178, R179): exec numbers the replays. -/
def Dev.agentReplay (d : Dev) (a job step key threshold : Nat) : Dev :=
  let x := d.agent a
  if job ≠ x.job ∨ x.done step then d.staleMsg a
  else if d.stepState a ≠ 2 then d
  else if step ≠ d.agentStep a then d.staleMsg a
  else
    let d := (d.installKey a key step threshold).put (Reg.ASTEP_STATE_exec a) (d.get (Reg.ASTEP_STATE_exec a) + 1)
    ((d.setStepState a 3).pin (.replayStart a) step).incU (Cnt.ASTEP_CNT_REPLAYS a)

/-- CUT (R179, R182). -/
def Dev.agentCut (d : Dev) (a id step mode : Nat) : Dev :=
  let x := d.agent a
  let st := d.stepState a
  if x.done step then d.cutAck a id 0x02
  else if st = 0 ∨ st = 5 then d
  else if x.cut.isSome ∨ x.staged.isSome then d.cutAck a id 0x04
  else (((d.onAgent a fun x => { x with cut := some (id, step, mode) }).writeRecord a).put (Reg.ASTEP_CUT_cut_id a) id).put (Reg.ASTEP_CUT_mode a) mode

/-- The methods written into the shard map (R181): word 1 of every entry whose record has one, with the record and the length that the
entry holds. -/
def Dev.writeMap (d : Dev) (a : Nat) (methods map : List (Nat × Nat)) : Dev :=
  map.zipIdx.foldl (fun (d : Dev) e => match Tab.find e.1.1 methods with
    | some m => d.emit (.accWrite a (d.get (Reg.ASTEP_SHARDMAP_base a) * 64 + 16 * e.2 + 8)
        (leBytes 8 (pack [(40, 24, e.1.1), (38, 2, m), (0, 38, e.1.2)])))
    | none => d) d

/-- JOB (R178, R181): in state 0 the methods go into the shard map and the key is installed. map is what the agent reads in the entries: the
record and the length of each. -/
def Dev.agentJob (d : Dev) (a id first key threshold : Nat) (methods map : List (Nat × Nat)) : Dev :=
  if d.stepState a ≠ 0 then d
  else
    let map := map.take (d.get (Reg.ASTEP_LIMITS_map_count a))
    let here := methods.filter fun m => map.any fun e => e.1 == m.1
    let d := d.onAgent a fun x => { x with job := id, methods := here.foldl (fun t m => Tab.insert m.1 m.2 (Tab.erase m.1 t)) []
                                           committed := if first = 0 then none else some (first - 1), waitDone := false }
    let d := (d.put (Reg.ASTEP_STATE_step a) first).put (Reg.ASTEP_STATE_exec a) 0
    let d := ((d.installKey a key first threshold).setStepState a 1).writeMap a here map
    if here.length < methods.length then d.agentRaise a (Src.AFLT_shard_map_error a) else d

/-- END (R178). -/
def Dev.agentEnd (d : Dev) (a : Nat) : Dev :=
  if d.stepState a = 0 then d
  else
    let x := d.agent a
    let restoring := d.stepState a == 5
    let d := (d.dropKey a).onAgent a fun x =>
      { x with job := 0, committed := none, waitDone := false, cut := none, cutPhase := 0, staged := none, stopped := false }
    let d := ((d.setStepState a 0).pin (.updateGate a) 0).freeSlots a (d.agentStep a)
    let d := if x.cutPhase ≠ 0 ∨ restoring then d.pin (.holdReq a) 0 else d
    if x.stopped then d.pin (.stop a) 0 else d

/-- RESTORE(M) (R178): from states 1 to 4. -/
def Dev.agentRestore (d : Dev) (a step : Nat) : Dev :=
  let st := d.stepState a
  if st = 0 ∨ 5 ≤ st then d
  else
    let n := d.agentStep a
    let d := (d.onAgent a fun x => { x with stopped := true, waitDone := false }).put (Reg.ASTEP_STATE_step a) step
    let d := ((d.setStepState a 5).pin (.stop a) 1).pin (.holdReq a) 1
    ((d.pin (.updateGate a) 0).freeSlots a n).dropCut a

/-- RESUME (R178): after a cut by its identifier, after a restore by its step. -/
def Dev.agentResume (d : Dev) (a id key threshold : Nat) : Dev :=
  let x := d.agent a
  if d.stepState a = 4 then
    match x.cut with
    | some (c, _, _) =>
      if c = id then ((d.onAgent a fun x => { x with cut := none, cutPhase := 0 }).setStepState a 1).pin (.holdReq a) 0 else d
    | none => d
  else if d.stepState a = 5 ∧ id = d.agentStep a then
    let d := d.onAgent a fun x => { x with stopped := false, committed := some id }
    let d := ((d.installKey a key (id + 1) threshold).put (Reg.ASTEP_STATE_step a) (id + 1)).put (Reg.ASTEP_STATE_exec a) 0
    ((d.setStepState a 1).pin (.stop a) 0).pin (.holdReq a) 0
  else d

/-- RESID (R201): additions, then removals, then the generation. -/
def Dev.agentResid (d : Dev) (a gen : Nat) (add remove : List Nat) : Dev :=
  let table := (((d.agent a).resident ++ add).eraseDups.filter fun i => !remove.contains i).take 65536
  (d.onAgent a fun x => { x with resident := table, residGen := gen }).put (Reg.ASMP_RESID_used a) table.length

/-! ### Shards (R181, R183, R184, R333) -/

/-- The bytes of a message padded to words. -/
def wordsOfBytes (bs : List Nat) : List Nat := wordsOf (bs ++ List.replicate ((8 - bs.length % 8) % 8) 0)

/-- The first word of a SHARD or XPUT body (log entry 25): record and byte offset. -/
def shardWord (record off : Nat) : Nat := pack [(40, 24, record), (0, 38, off)]

/-- A record is answered (R183): its data in ascending pieces of 2 MiB, or one digest; a record that the map lacks, empty. last: it is the
last of its PULL. -/
def Dev.answerPull (d : Dev) (a : Nat) (p : PullItem) (last : Bool) : Dev :=
  let r := p.record.toNat
  let bs := (p.data.getD []).map BitVec.toNat
  let d : Dev := if p.data.isNone then d.agentRaise a (Src.AFLT_shard_map_error a) else d
  if p.digestOnly then d.sendUpAs a 0x14 (if p.data.isNone then [shardWord r 0] else [shardWord r 0, crc64 bs]) last
  else
    let parts := (chunksOf (2 ^ 21) (bs.length / 2 ^ 21 + 1) bs).filter (· != [])
    let d := if parts = [] then d.sendUpAs a 0x08 [shardWord r 0, 0] last else
      parts.zipIdx.foldl (fun (d : Dev) c =>
        d.sendUpAs a 0x08 ([shardWord r (c.2 * 2 ^ 21), c.1.length] ++ wordsOfBytes c.1) (last && c.2 + 1 == parts.length)) d
    d.addU (Cnt.ASTEP_CNT_SHARD_UP a) bs.length

/-- PULL (R183): its records in order; the staging area is free once every record has been answered (R182). -/
def Dev.agentPull (d : Dev) (a : Nat) (items : List PullItem) : Dev :=
  let d := items.zipIdx.foldl (fun (d : Dev) p => d.answerPull a p.1 (p.2 + 1 == items.length)) d
  let left : Option (List Nat) := match (d.agent a).staged with
    | some l => let l := l.filter fun r => !(items.any fun p => p.record.toNat == r)
                if l = [] then none else some l
    | none => none
  d.onAgent a fun x => { x with staged := left }

/-- A record's entry takes bytes at an offset (R181, R184): there is one, 64-byte aligned (log entry 50), and they lie within its length. -/
def entryTakes (entry : Option ShardEntry) (off n : Nat) : Bool :=
  match entry with
  | some e => e.addr.toNat % 64 == 0 && decide (off + n ≤ e.len.toNat)
  | none => false

/-- Bytes are written to a record in accelerator memory, when its entry takes them. -/
def Dev.writeShard (d : Dev) (a off : Nat) (data : List Nat) (entry : Option ShardEntry) (ok : Bool) : Dev :=
  if ok && entryTakes entry off data.length then d.emit (.accWrite a (((entry.map ShardEntry.addr).getD 0).toNat + off) data)
  else d.agentRaise a (Src.AFLT_shard_map_error a)

/-- A down SHARD (R181, R184): written in state 5, not into an exchange record; the bytes written are counted. In every state one that
names an exchange record, or a record that the map lacks, raises shard_map_error (R181). -/
def Dev.agentShard (d : Dev) (a record off : Nat) (data : List Nat) (entry : Option ShardEntry) : Dev :=
  let ok := Tab.getD (d.agent a).methods record 0 != 3
  if d.stepState a ≠ 5 then (if ok && entry.isSome then d else d.agentRaise a (Src.AFLT_shard_map_error a))
  else
    let d := d.writeShard a off data entry ok
    if ok && entryTakes entry off data.length then d.addU (Cnt.ASTEP_CNT_SHARD_DOWN a) data.length else d

/-- XPUT (R333): written in states 1 to 4 to an exchange record; the token goes to its last 8 bytes after the last piece. -/
def Dev.agentXput (d : Dev) (a record off : Nat) (last : Bool) (token : Nat) (data : List Nat) (entry : Option ShardEntry) : Dev :=
  let st := d.stepState a
  if 1 ≤ st ∧ st ≤ 4 ∧ Tab.getD (d.agent a).methods record 0 = 3 then
    let d := d.writeShard a off data entry true
    match entry, last with
    | some e, true => if 8 ≤ e.len.toNat then d.emit (.accWrite a (e.addr.toNat + e.len.toNat - 8) (leBytes 8 token)) else d
    | _, _ => d
  else d.agentRaise a (Src.AFLT_shard_map_error a)

/-! ### The tile tap (R172, R173, R198 to R200) -/

/-- A byte of accelerator memory as the memory port finds it. -/
def memByte (mem : List (Word × List Byte)) (x : Nat) : Nat :=
  match mem.find? fun s => decide (s.1.toNat ≤ x) && decide (x < s.1.toNat + s.2.length) with
  | some s => (s.2.getD (x - s.1.toNat) 0).toNat
  | none => 0

/-- So many bytes of accelerator memory from an address on. -/
def memBytes (mem : List (Word × List Byte)) (x n : Nat) : List Nat := (List.range n).map fun i => memByte mem ((x + i) % 2 ^ 64)

/-- The K range of an operand block (R199, log entry 50): the largest whole number of 32 elements whose rows, with their scales, fill at
most 2 MiB. -/
def blockRange (f : Fmt) (rows : Nat) : Nat :=
  let rows := max 1 rows
  32 * (if f.isMx then (2 ^ 21 - 63) / (rows * (4 * f.bits + 1)) else 2 ^ 21 / (rows * 4 * f.bits))

/-- The bytes of an operand block (R198, R199): the strided rows of a K range gathered row after row, with the scales of the range from the
next 64-byte boundary. -/
def gatherBlock (mem : List (Word × List Byte)) (p : TapPanel) (f : Fmt) (rows k k0 n : Nat) : List Nat :=
  let elems := (List.range rows).flatMap fun i => memBytes mem (p.addr.toNat + i * p.stride.toNat + k0 * f.bits / 8) (f.rowBytes n)
  if f.isMx then
    elems ++ List.replicate (scaleBase 0 rows (f.rowBytes n) - elems.length) 0 ++
      (List.range rows).flatMap fun i => memBytes mem (p.scale.toNat + i * (k / 32) + k0 / 32) (n / 32)
  else elems

/-- The content identifier of an operand block (R199). -/
def contentId (bytes : List Nat) (fmt side rows : Nat) : Nat :=
  pack [(32, 32, bytes.length), (28, 4, fmt), (27, 1, side), (18, 9, rows)] * 2 ^ 64 + crc64 bytes

/-- The operand blocks of a panel in ascending K, each under its identifier (R199); a panel needs at most 30 (R198). -/
def panelBlocks (mem : List (Word × List Byte)) (p : TapPanel) (fmt side rows k : Nat) : List (Nat × List Nat) :=
  match Fmt.ofCode fmt with
  | none => []
  | some f =>
    let seg := max 32 (blockRange f rows)
    (List.range (Nat.min 30 ((k + seg - 1) / seg))).map fun i =>
      let bytes := gatherBlock mem p f rows k (i * seg) (Nat.min seg (k - i * seg))
      (contentId bytes fmt side rows, bytes)

/-- The blocks of a tile's A panel and of its B panel. -/
def tapBlocksA (t : TapTile) : List (Nat × List Nat) := panelBlocks t.mem t.a t.fmtA.toNat 0 t.m t.k.toNat
def tapBlocksB (t : TapTile) : List (Nat × List Nat) := panelBlocks t.mem t.b t.fmtB.toNat 1 t.n t.k.toNat

/-- The bytes of an m × n tile in a format, laid out as R146 lays it out; format 6 denotes INT32 (R198). -/
def tileBytes (fmtC m n : Nat) : Nat :=
  if fmtC = 6 then 4 * m * n
  else match Fmt.ofCode fmtC with
    | some f => if f.isMx then scaleBase 0 m (f.rowBytes n) + m * (n / 32) else m * f.rowBytes n
    | none => 0

/-- An identifier as two words. -/
def idWords (i : Nat) : List Nat := [i % 2 ^ 64, i / 2 ^ 64]

/-- The TILE body (R200). -/
def Dev.tileBody (d : Dev) (a : Nat) (t : TapTile) : List Nat :=
  let x := d.agent a
  let sc := t.scale.getD (0, 0)
  let size := tileBytes t.fmtC.toNat t.m t.n
  [pack [(24, 40, d.get (Reg.ASMP_STATE_step a)), (16, 8, d.get (Reg.ASTEP_STATE_exec a)), (0, 16, x.residGen)], t.id.toNat,
   pack [(60, 4, t.fmtA.toNat), (56, 4, t.fmtB.toNat), (52, 4, t.fmtC.toNat), (50, 2, t.decl), (49, 1, b2n t.cin.isSome), (48, 1, b2n t.scale.isSome),
     (40, 8, sc.1.toNat), (31, 9, t.n), (22, 9, t.m), (16, 6, (tapBlocksA t).length), (10, 6, (tapBlocksB t).length)],
   pack [(40, 24, sc.2.toNat), (0, 32, t.k.toNat)]] ++
  ((tapBlocksA t ++ tapBlocksB t).map (·.1)).flatMap idWords ++
  (match t.cin with | some c => wordsOfBytes (memBytes t.mem c.toNat size) | none => []) ++ wordsOfBytes (memBytes t.mem t.c.toNat size)

/-- The OPND bodies of a tile (R173, R201): of the blocks whose identifiers are not resident. -/
def Dev.tileOpnds (d : Dev) (a : Nat) (t : TapTile) : List (List Nat) :=
  ((tapBlocksA t ++ tapBlocksB t).filter fun b => !(d.agent a).resident.contains b.1).map fun b => idWords b.1 ++ wordsOfBytes b.2

/-- The bytes of the shipping buffer that TILE and OPND messages not yet acknowledged fill (R173, log entry 50). -/
def AgentSt.shipped (x : AgentSt) : Nat :=
  ((x.up ++ x.wait).filter fun m => m.kind == 0x11 || m.kind == 0x12).foldl (fun n m => n + 8 * m.body.length) 0

/-- The shipping buffer has no room for a tile's messages beside those it holds (R173). -/
def Dev.shipFull (d : Dev) (a : Nat) (t : TapTile) : Bool :=
  let used := (d.agent a).shipped
  let size := ((d.tileBody a t) :: d.tileOpnds a t).foldl (fun n b => n + 8 * b.length) 0
  used != 0 && decide (d.get (Reg.ASMP_SHIP_pages a) * 2 ^ 21 < used + size)

/-- Whether a tile is selected (R172): a key is in force, sampling has not stopped (R186), and the hash says so. -/
def Dev.selects (d : Dev) (a : Nat) (t : TapTile) : Bool :=
  d.stepState a != 6 && match (d.agent a).key with
    | none => false
    | some key => sampled key (d.get (Reg.ASMP_STATE_threshold a)) (d.agent a).job (d.get (Reg.ASMP_STATE_step a)) t.id.toNat

/-- A tile is accepted (R172, R173, R178): evaluated with the key in force, shipped when selected, released. -/
def Dev.tapTake (d : Dev) (a : Nat) (t : TapTile) : Dev :=
  let release (d : Dev) : Dev := d.pin (.tileRelease a) t.id.toNat
  if d.stepState a = 6 then release d
  else if (d.agent a).key.isNone then release (d.incE (Cnt.ASMP_CNT_NO_KEY a))
  else
    let chosen := d.selects a t
    let d := (d.onAgent a fun x => { x with seen := x.seen + 1 }).incU (Cnt.ASMP_CNT_TILES_SEEN a)
    if chosen then
      let d := (d.onAgent a fun x => { x with sampled := x.sampled + 1 }).incU (Cnt.ASMP_CNT_TILES_SAMPLED a)
      let opnds := d.tileOpnds a t
      let held := (tapBlocksA t ++ tapBlocksB t).filter fun b => (d.agent a).resident.contains b.1
      let body := d.tileBody a t
      let d := d.addU (Cnt.ASMP_CNT_DEDUP_BYTES a) (held.foldl (fun n b => n + b.2.length) 0)
      let d := opnds.foldl (fun (d : Dev) b => (d.sendUp a 0x12 b).addU (Cnt.ASMP_CNT_SHIP_BYTES a) (8 * b.length)) d
      release ((d.sendUp a 0x11 body).addU (Cnt.ASMP_CNT_SHIP_BYTES a) (8 * body.length))
    else release d

/-- The descriptors at the tap, in order (R173): acceptance is withheld from a selected tile, and from what follows it, while the shipping
buffer has no room for it. -/
def Dev.tapDrain (d : Dev) (a : Nat) : List TapTile → Dev
  | [] => d.onAgent a fun x => { x with tap := [] }
  | t :: rest =>
    if d.selects a t && d.shipFull a t then d.onAgent a fun x => { x with tap := t :: rest } else (d.tapTake a t).tapDrain a rest

/-- The descriptors whose acceptance was withheld are looked at again. -/
def Dev.tapAgain (d : Dev) (a : Nat) : Dev := if (d.agent a).tap = [] then d else d.tapDrain a (d.agent a).tap

/-- A tile descriptor on the tap (R172, R173). -/
def Dev.tileTap (d : Dev) (a : Nat) (t : TapTile) (ecc : Bool) : Dev :=
  let d := if ecc then d.agentRaise a (Src.AFLT_agent_ecc a) else d
  d.tapDrain a ((d.agent a).tap ++ [t])

def execTileTap (a : Fin 8) (t : TapDesc) (mem : List (Word × List Byte)) (ecc : Bool) (s : State) : Host.Outcome State Fault Refusal :=
  .next { s with dev := s.dev.tileTap a ⟨t, mem⟩ ecc }

/-! ### Down messages (R168, R170, R178) -/

/-- A down message acts. -/
def Dev.act (d : Dev) (a : Nat) : DownMsg → Dev
  | .job id first key threshold methods map => d.agentJob a id first key threshold methods map
  | .endJob => d.agentEnd a
  | .commit job step key threshold => d.agentCommit a job step key threshold
  | .replay job step key threshold => d.agentReplay a job step key threshold
  | .cut id step mode => d.agentCut a id step mode
  | .pull items => d.agentPull a items
  | .restore step => d.agentRestore a step
  | .shard record off data entry => d.agentShard a record off data entry
  | .resume id key threshold => d.agentResume a id key threshold
  | .resid gen add remove => d.agentResid a gen add remove
  | .xput record off last token data entry => d.agentXput a record off last token data entry

/-- A SHARD that was recorded in state 6, which is acknowledged when it has been written (R184). -/
def HeldEv.isShard (seq : Nat) : HeldEv → Bool
  | .msg n (.shard ..) => n == seq
  | _ => false

/-- Whether a down message is taken (R168, R170): the port is trained; the epoch is not lower; a fenced port takes TIME and REG only; it is
the next in order. One already taken is acknowledged again, unless its acknowledgement is still to come. -/
def Dev.takes7 (d : Dev) (a : Nat) (h : PortHdr) (always : Bool) : Dev × Bool :=
  let st := d.get (Reg.AGT_STATUS_port a)
  let epoch := d.get (Reg.AGT_STATUS_epoch a)
  let x := d.agent a
  let seq := h.seq.toNat
  if st ≠ 3 ∧ st ≠ 4 then (d, false)
  else if newer epoch h.epoch.toNat then (d.staleMsg a, false)
  else if st = 4 ∧ !always then (d, false)
  else if seq = x.downNext then
    ((d.onAgent a fun x => { x with downNext := (seq + 1) % 2 ^ 24 }).put (Reg.AGT_STATUS_epoch a) h.epoch.toNat, true)
  else if (x.downNext + 2 ^ 24 - seq) % 2 ^ 24 < 2 ^ 23 ∧ !(x.held.any (HeldEv.isShard seq)) then (d.ackFromAgent a seq, false)
  else (d, false)

/-- A down message that is acknowledged when it is taken (R168). -/
def Dev.accepts7 (d : Dev) (a : Nat) (h : PortHdr) (always : Bool) : Dev × Bool :=
  match d.takes7 a h always with
  | (d, true) => (d.ackFromAgent a h.seq.toNat, true)
  | r => r

/-- A down message that changes the step state arrives (R178, R179): in state 6 it is recorded. A SHARD is acknowledged once its write is
visible (R184). -/
def Dev.receiveDown (d : Dev) (a : Nat) (h : PortHdr) (m : DownMsg) : Dev :=
  let shard := (HeldEv.msg 0 m).isShard 0
  match if shard then d.takes7 a h false else d.accepts7 a h false with
  | (d, false) => d
  | (d, true) =>
    if d.stepState a = 6 then d.onAgent a fun x => { x with held := x.held ++ [.msg h.seq.toNat m] }
    else if shard then ((d.act a m).ackFromAgent a h.seq.toNat).tapAgain a
    else (d.act a m).tapAgain a

def execJob (a : Fin 8) (h : PortHdr) (first : BitVec 40) (key : BitVec 128) (threshold : BitVec 13) (methods : List (BitVec 24 × Fin 4))
    (map : List (BitVec 24 × BitVec 38)) (s : State) : Host.Outcome State Fault Refusal :=
  .next { s with dev := s.dev.receiveDown a h (.job h.job.toNat first.toNat key.toNat threshold.toNat
    (methods.map fun m => (m.1.toNat, m.2.val)) (map.map fun e => (e.1.toNat, e.2.toNat))) }

def execEndJob (a : Fin 8) (h : PortHdr) (s : State) : Host.Outcome State Fault Refusal :=
  .next { s with dev := s.dev.receiveDown a h .endJob }

def execCommit (a : Fin 8) (h : PortHdr) (step : BitVec 40) (key : BitVec 128) (threshold : BitVec 13) (s : State) :
    Host.Outcome State Fault Refusal :=
  .next { s with dev := s.dev.receiveDown a h (.commit h.job.toNat step.toNat key.toNat threshold.toNat) }

def execReplay (a : Fin 8) (h : PortHdr) (step : BitVec 40) (key : BitVec 128) (threshold : BitVec 13) (s : State) :
    Host.Outcome State Fault Refusal :=
  .next { s with dev := s.dev.receiveDown a h (.replay h.job.toNat step.toNat key.toNat threshold.toNat) }

def execCut (a : Fin 8) (h : PortHdr) (id : BitVec 32) (step : BitVec 40) (copy : Bool) (s : State) :
    Host.Outcome State Fault Refusal :=
  .next { s with dev := s.dev.receiveDown a h (.cut id.toNat step.toNat (b2n copy)) }

/-- A PULL that was recorded in state 6. -/
def HeldEv.isPull : HeldEv → Bool
  | .msg _ (.pull _) => true
  | _ => false

/-- The PULLs that an agent holds (R183): recorded in state 6, or with the last answer not acknowledged. -/
def AgentSt.pulls (x : AgentSt) : Nat := ((x.up ++ x.wait).filter PortMsg.last).length + (x.held.filter HeldEv.isPull).length

/-- PULL (R183): a fifth PULL in progress is not taken; what R168 and R170 say of a message already taken or of a lower epoch holds for it
too. -/
def Dev.pullMsg (d : Dev) (a : Nat) (h : PortHdr) (items : List PullItem) : Dev :=
  let next := h.seq.toNat == (d.agent a).downNext && !newer (d.get (Reg.AGT_STATUS_epoch a)) h.epoch.toNat
  if 4 ≤ (d.agent a).pulls ∧ next then d else d.receiveDown a h (.pull items)

def execPull (a : Fin 8) (h : PortHdr) (items : List PullItem) (s : State) : Host.Outcome State Fault Refusal :=
  .next { s with dev := s.dev.pullMsg a h items }

def execRestore (a : Fin 8) (h : PortHdr) (step : BitVec 40) (s : State) : Host.Outcome State Fault Refusal :=
  .next { s with dev := s.dev.receiveDown a h (.restore step.toNat) }

def execShard (a : Fin 8) (h : PortHdr) (record : BitVec 24) (off : BitVec 38) (data : List Byte) (entry : Option ShardEntry)
    (s : State) : Host.Outcome State Fault Refusal :=
  .next { s with dev := s.dev.receiveDown a h (.shard record.toNat off.toNat (data.map BitVec.toNat) entry) }

def execResume (a : Fin 8) (h : PortHdr) (id : BitVec 40) (key : BitVec 128) (threshold : BitVec 13) (s : State) :
    Host.Outcome State Fault Refusal :=
  .next { s with dev := s.dev.receiveDown a h (.resume id.toNat key.toNat threshold.toNat) }

def execResid (a : Fin 8) (h : PortHdr) (gen : BitVec 16) (add remove : List (BitVec 128)) (s : State) :
    Host.Outcome State Fault Refusal :=
  .next { s with dev := s.dev.receiveDown a h (.resid gen.toNat (add.map BitVec.toNat) (remove.map BitVec.toNat)) }

def execXput (a : Fin 8) (h : PortHdr) (record : BitVec 24) (off : BitVec 38) (last : Bool) (token : Word) (data : List Byte)
    (entry : Option ShardEntry) (s : State) : Host.Outcome State Fault Refusal :=
  .next { s with dev := s.dev.receiveDown a h (.xput record.toNat off.toNat last token.toNat (data.map BitVec.toNat) entry) }

/-! ### Marks (R175, R176) -/

/-- The records of the mirror items that fill exactly so many bytes; none when they do not. -/
def mirrorItems (ws : List Nat) (bytes : Nat) : Nat → Option (List Nat)
  | 0 => if bytes = 0 then some [] else none
  | n + 1 =>
    if bytes = 0 then some []
    else match ws with
      | [] => none
      | w :: rest =>
        let len := w % 2 ^ 40
        let size := 8 + (len + 7) / 8 * 8
        if bytes < size ∨ rest.length * 8 + 8 < size then none
        else (mirrorItems (rest.drop (size / 8 - 1)) (bytes - size) n).map (w / 2 ^ 40 :: ·)

/-- The mark list passes its checks (R176): words are those from word 3 on. -/
def Dev.markOk (d : Dev) (a : Nat) (ws : List Nat) : Bool :=
  let w := wd ws 0
  let na := bits 48 16 w
  let nh := bits 32 16 w
  let ml := bits 0 32 w
  decide (na ≤ 4096) && decide (nh ≤ 4096) && decide (ml ≤ 4 * 2 ^ 20) && decide (1 + na + 2 * nh + ml / 8 ≤ ws.length) &&
    match mirrorItems ((ws.drop (1 + na + 2 * nh)).take (ml / 8)) ml ws.length with
    | some rs => rs.all fun r => Tab.getD (d.agent a).methods r 0 == 2
    | none => false

/-- step_end in states other than 6 (R178, R179), with the stamp of its moment. -/
def Dev.stepEndNow (d : Dev) (a n stamp : Nat) (ws : List Nat) : Dev :=
  let st := d.stepState a
  let x := d.agent a
  if (st ≠ 1 ∧ st ≠ 3) ∨ n ≠ d.agentStep a ∨ !d.markOk a ws then d.agentRaise a (Src.AFLT_mark_error a)
  else
    let w := wd ws 0
    let len := 1 + bits 48 16 w + 2 * bits 32 16 w + bits 0 32 w / 8
    let body := [pack [(24, 40, n), (16, 8, d.get (Reg.ASTEP_STATE_exec a))], stamp,
      word2 x.sampled (Nat.min x.seen (2 ^ 32 - 1))] ++ ws.take len
    (((d.setStepState a 2).sendUp a 0x10 body).incU (Cnt.ASTEP_CNT_MARKS a)).pin (.updateGate a) 0

/-- step_end (R175, R178): in state 6 it is recorded, with the time copy of its moment. -/
def Dev.stepEnd (d : Dev) (a n : Nat) (ws : List Nat) : Dev :=
  let stamp := stampOf (d.agentTime a)
  if d.stepState a = 6 then d.onAgent a fun x => { x with held := x.held ++ [.stepEnd n stamp ws] } else d.stepEndNow a n stamp ws

def execStepEnd (a : Fin 8) (n : BitVec 40) (list : List Word) (s : State) : Host.Outcome State Fault Refusal :=
  .next { s with dev := s.dev.stepEnd a n.toNat (list.map BitVec.toNat) }

/-! ### The accelerator's other signals (R178, R182) -/

/-- update_done after COMMIT(N) (R178): the gate falls, the slot is free, and a cut recorded for N starts. -/
def Dev.updateDoneNow (d : Dev) (a : Nat) : Dev :=
  let x := d.agent a
  if d.stepState a ≠ 2 ∨ !x.waitDone then d
  else
    let n := d.agentStep a
    let cut := match x.cut with | some (_, s, _) => decide (s ≤ n) | none => false
    let d := d.onAgent a fun x => { x with waitDone := false, cutPhase := if cut then 1 else x.cutPhase }
    let d := (d.put (Reg.ASTEP_STATE_step a) (n + 1)).put (Reg.ASTEP_STATE_exec a) 0
    let d := ((d.setStepState a (if cut then 4 else 1)).pin (.updateGate a) 0).pin (.slotFree a) n
    if cut then d.pin (.holdReq a) 1 else d

/-- hold_ack (R182): held, or the copy starts when it is supported and fits the staging area. packed is the size of the packed Stripe
entries. -/
def Dev.holdAckNow (d : Dev) (a packed : Nat) : Dev :=
  let x := d.agent a
  match x.cut with
  | some (id, _, mode) =>
    if d.stepState a ≠ 4 ∨ x.cutPhase ≠ 1 then d
    else if mode = 0 then ((d.onAgent a fun x => { x with cutPhase := 3 }).writeRecord a).cutAck a id 0x00
    else if !d.flag (Reg.AGT_INFO_copy_cut a) ∨ d.get (Reg.ASTEP_STAGE_pages a) * 2 ^ 21 < packed then
      ((d.onAgent a fun x => { x with cutPhase := 3 }).writeRecord a).cutAck a id 0x03
    else ((d.onAgent a fun x => { x with cutPhase := 2, staged := some ((x.methods.filter fun m => m.2 == 1).map (·.1)) }).writeRecord a).pin
      (.copyReq a) 1
  | none => d

/-- copy_done (R182): CUTACK 0x01, the hold is released. -/
def Dev.copyDoneNow (d : Dev) (a : Nat) : Dev :=
  let x := d.agent a
  match x.cut with
  | some (id, _, _) =>
    if d.stepState a ≠ 4 ∨ x.cutPhase ≠ 2 then d
    else (((d.cutAck a id 0x01).onAgent a fun x => { x with cut := none, cutPhase := 0 }).setStepState a 1).pin (.holdReq a) 0
  | none => d

/-- A signal of the accelerator: in state 6 it is recorded (R179). -/
def Dev.signalIn (d : Dev) (a sig v : Nat) : Dev :=
  if d.stepState a = 6 then d.onAgent a fun x => { x with held := x.held ++ [.signal sig v] }
  else if sig = 0 then d.updateDoneNow a
  else if sig = 1 then d.holdAckNow a v
  else d.copyDoneNow a

def execUpdateDone (a : Fin 8) (s : State) : Host.Outcome State Fault Refusal := .next { s with dev := s.dev.signalIn a 0 0 }

def execHoldAck (a : Fin 8) (packed : BitVec 64) (s : State) : Host.Outcome State Fault Refusal :=
  .next { s with dev := s.dev.signalIn a 1 packed.toNat }

def execCopyDone (a : Fin 8) (s : State) : Host.Outcome State Fault Refusal := .next { s with dev := s.dev.signalIn a 2 0 }

/-- cut_abandon elapses (R178). -/
def Dev.cutAbandon (d : Dev) (a : Nat) : Dev :=
  let x := d.agent a
  if d.stepState a ≠ 4 then d
  else
    let d := ((d.onAgent a fun x => { x with cut := none, cutPhase := 0 }).setStepState a 1).pin (.holdReq a) 0
    (match x.cut with | some (id, _, _) => d.cutAck a id 0x05 | none => d).agentRaise a (Src.AFLT_cut_abandoned a)

def execCutAbandon (a : Fin 8) (s : State) : Host.Outcome State Fault Refusal := .next { s with dev := s.dev.cutAbandon a }

/-! ### Leaving state 6 (R178, R187) -/

/-- What was recorded in state 6 acts (R178, R184). -/
def Dev.actHeld (d : Dev) (a : Nat) : HeldEv → Dev
  | .msg seq m => if (HeldEv.msg 0 m).isShard 0 then (d.act a m).ackFromAgent a seq else d.act a m
  | .stepEnd n stamp ws => d.stepEndNow a n stamp ws
  | .signal sig v => d.signalIn a sig v

/-- What was recorded acts in its order of arrival; when state 6 is entered again, the rest stays recorded (R178, R179). -/
def Dev.actAll (d : Dev) (a : Nat) : List HeldEv → Dev
  | [] => d
  | e :: rest => if d.stepState a = 6 then d.onAgent a fun x => { x with held := e :: rest } else (d.actHeld a e).actAll a rest

/-- State 6 is left (R178): the recorded state, then what was recorded. -/
def Dev.leaveHeld (d : Dev) (a : Nat) : Dev :=
  let x := d.agent a
  if d.stepState a ≠ 6 ∨ d.get (Reg.FLT_STATUS_status (aflt a)) ≠ 0 then d
  else
    let go := x.stopped && x.before != 5
    let d := (d.onAgent a fun x => { x with held := [], stopped := if go then false else x.stopped }).setStepState a x.before
    let d := if go then d.pin (.stop a) 0 else d
    (d.actAll a x.held).tapAgain a

/-- A write of 1 to FLT_STATUS bits of an agent (R367, R178); levels are the accelerator's fault inputs that still stand. -/
def Dev.clearAgentFaults (d : Dev) (a mask levels : Nat) : Dev :=
  let pg := aflt a
  let keep := d.get (Reg.FLT_STATUS_status pg)
  let left := (List.range 32).foldl (fun n i => if bitAt i mask && !(decide (8 ≤ i) && bitAt (i - 8) levels) then clrBit n i else n) keep
  let d := d.put (Reg.FLT_STATUS_status pg) left
  if left = 0 then
    ((((d.put (Reg.FLT_FIRST_valid pg) 0).put (Reg.FLT_OVF_ovf pg) 0).pin (.irq a) 0).leaveHeld a)
  else d

/-! ### Faults and engine watch (R186, R187) -/

def execAccFault (a : Fin 8) (i : Fin 24) (s : State) : Host.Outcome State Fault Refusal :=
  .next { s with dev := s.dev.agentRaise a (Src.AFLT_acc_fault a i) }

def execProgressPulse (a : Fin 8) (e : Fin 64) (s : State) : Host.Outcome State Fault Refusal :=
  .next { s with dev := s.dev.onAgent a fun x => { x with progress := Tab.insert e s.dev.nowUs (Tab.erase e x.progress) } }

/-- An engine's timeout in µs, limited as R188 says; 0 disables the watch. -/
def Dev.engineTimeout (d : Dev) (a e : Nat) : Nat := Tab.getD (d.agent a).timeouts e 100000

/-- A progress pulse of an engine that is more recent than its timeout. -/
def Dev.progressed (d : Dev) (a e : Nat) : Bool :=
  match Tab.find e (d.agent a).progress with
  | some t => decide (d.nowUs < t + d.engineTimeout a e)
  | none => false

/-- An engine's watchdog is due, with the level of busy (R187): an engine that is busy and made no progress for its timeout hangs. -/
def Dev.agentHang (d : Dev) (a e : Nat) (busy : Bool) : Dev :=
  if !busy ∨ d.progressed a e ∨ d.get (Reg.AGT_INFO_n_eng a) ≤ e ∨ d.engineTimeout a e = 0 ∨ bitAt e (d.get (Reg.AFLT_ENG_HUNG_hung a)) then d
  else ((d.setBitOf (Reg.AFLT_ENG_HUNG_hung a) e).incE (Cnt.AFLT_CNT_HANG a)).agentRaise a (Src.AFLT_engine_hang a)

def execAgentEngineHang (a : Fin 8) (e : EngineDue) (s : State) : Host.Outcome State Fault Refusal :=
  .next { s with dev := s.dev.agentHang a e.eng e.busy }

/-- No valid frame for 100 µs (R186). -/
def Dev.portLost (d : Dev) (a : Nat) : Dev :=
  (d.setAgentPort a 1).agentRaise a (Src.AFLT_port_lost a)

def execPortLost (a : Fin 8) (s : State) : Host.Outcome State Fault Refusal := .next { s with dev := s.dev.portLost a }

/-- A message is unacknowledged after 20 µs on a port that takes messages (R168, R382): sent again up to eight times, then the link is
lost. -/
def Dev.retransmit (d : Dev) (e : PortEnd) (a seq : Nat) : Dev :=
  let l := match e with | .controller => (d.aport a).down | .agent => (d.agent a).up
  let runs := match e with | .controller => d.downOpen a | .agent => d.agentUp a
  match l.find? fun m => m.seq == seq && runs with
  | none => d
  | some m =>
    if 8 ≤ m.tries then
      match e with
      | .controller => d.raise (Src.AGP_agent_link_lost a)
      | .agent => d.agentRaise a (Src.AFLT_port_lost a)
    else
      let l := l.map fun x => if x.seq = seq then { x with tries := x.tries + 1 } else x
      let d := d.incE (Cnt.AGP_CNT_AGP_RETX a)
      match e with
      | .controller => (d.setAport a { d.aport a with down := l }).downOut a m
      | .agent => (d.onAgent a fun x => { x with up := l }).emit (m.up a)

def execRetransmit (e : PortEnd) (a : Fin 8) (seq : BitVec 24) (s : State) : Host.Outcome State Fault Refusal :=
  .next { s with dev := s.dev.retransmit e a seq.toNat }

/-- An agent's message is acknowledged (R168); what it took of the shipping buffer is free (R173). -/
def Dev.ackUp (d : Dev) (a seq : Nat) : Dev :=
  (d.onAgent a fun x => { x with up := x.up.filter fun m => m.seq != seq }).tapAgain a

/-! ### Time (R189) -/

/-- TIME (R189): the transmit stamp and the port latency, in 2^-16 ns, correct the copy and, by what it drifted since the last one, its rate
(log entry 50); a jump is refused until rearm_time, and the copy is then not in step. -/
def Dev.agentTimeIn (d : Dev) (a stamp latency : Nat) : Dev :=
  let x := d.agent a
  let corr : Int := (stamp + latency * 2 ^ 24 : Nat) - (d.agentTime a : Int)
  let ns : Int := corr / 2 ^ 40
  let d := d.put (Reg.AGT_TIME_STATUS_offset a) (wordOfInt (clampInt (-2147483648) 2147483647 ns))
  if !x.rearm ∧ max 1 (d.get (Reg.AGT_CTRL_jump_us a)) * unitsPerUs < corr.natAbs then
    (((d.onAgent a fun x => { x with good := none }).put (Reg.AGT_TIME_STATUS_jump_refused a) 1).put (Reg.AGT_TIME_STATUS_locked a) 0).agentRaise a (Src.AFLT_time_jump_refused a)
  else
    let ok := decide (corr.natAbs ≤ 10 * 2 ^ 40)
    let good : Option Nat := if ok then some (x.good.getD d.nowUs) else none
    let locked := match good with | some t => decide (t + 1000 ≤ d.nowUs) | none => false
    let since : Nat := d.aon - x.copyAt
    let d := d.onAgent a fun x => { x with
      copy := (stamp + latency * 2 ^ 24 : Nat), copyAt := d.aon, rate := if x.rearm ∨ since = 0 then x.rate else x.rate + corr / since
      good := good, rearm := false }
    (d.put (Reg.AGT_TIME_STATUS_holdover a) 0).putB (Reg.AGT_TIME_STATUS_locked a) locked

def execTimeMsg (a : Fin 8) (h : PortHdr) (sec : BitVec 48) (ns : BitVec 30) (frac : BitVec 16) (latency : BitVec 32) (s : State) :
    Host.Outcome State Fault Refusal :=
  .next { s with dev := match s.dev.accepts7 a h true with
    | (d, true) => d.agentTimeIn a (timeOf sec.toNat ns.toNat frac.toNat) latency.toNat
    | (d, false) => d }

def execAgentTimeHoldover (a : Fin 8) (s : State) : Host.Outcome State Fault Refusal :=
  .next { s with dev := (((s.dev.onAgent a fun x => { x with good := none }).put (Reg.AGT_TIME_STATUS_holdover a) 1).put
    (Reg.AGT_TIME_STATUS_locked a) 0).agentRaise a (Src.AFLT_time_holdover a) }

def execRearmTime (a : Fin 8) (s : State) : Host.Outcome State Fault Refusal :=
  .next { s with dev := s.dev.ifWritable (0x1000 * (a + 1)) fun d => d.onAgent a fun x => { x with rearm := true } }

/-! ### Command counters (R190, R191, R333) -/

/-- The four counters chosen in ACMD_SEL; ctrs are the accelerator's counter inputs. -/
def Dev.cmdCounters (d : Dev) (a : Nat) (ctrs : List Nat) : List Nat :=
  (List.range 4).map fun i =>
    match bits (4 * i) 4 (d.get (Reg.ACMD_SEL_src a)) with
    | 0 => d.get (Cnt.ASMP_CNT_TILES_SEEN a)
    | 1 => d.get (Cnt.ASMP_CNT_TILES_SAMPLED a)
    | 2 => d.get (Cnt.ASMP_CNT_SHIP_BYTES a)
    | 3 => d.get (Cnt.ASMP_CNT_TAP_STALL a)
    | 8 => d.get (Cnt.ASTEP_CNT_GATE_HOLD a)
    | c => if 4 ≤ c ∧ c < 8 then ctrs.getD (c - 4) 0 else 0

/-- The commands open. -/
def AgentSt.open_ (x : AgentSt) : Nat := (x.cmds.filter fun c => c.start != []).length

/-- A start strobe (R190): with 32 commands open nothing is latched. -/
def Dev.cmdStart (d : Dev) (a tag : Nat) (ctrs : List Nat) : Dev :=
  let x := d.agent a
  let start := if 32 ≤ x.open_ then [] else stampOf (d.agentTime a) :: d.cmdCounters a ctrs
  let d := d.onAgent a fun x => { x with cmds := x.cmds ++ [⟨tag, start⟩] }
  d.put (Reg.ACMD_STATUS_open a) (d.agent a).open_

def execCmdStart (a : Fin 8) (tag : BitVec 32) (ctrs : List Word) (s : State) : Host.Outcome State Fault Refusal :=
  .next { s with dev := s.dev.cmdStart a tag.toNat ((ctrs.take 4).map BitVec.toNat) }

/-- The first open command of a tag is taken from the list. -/
def takeCmd (tag : Nat) : List AccCmd → Option AccCmd × List AccCmd
  | [] => (none, [])
  | c :: t => if c.tag = tag then (some c, t) else let r := takeCmd tag t; (r.1, c :: r.2)

/-- An end strobe (R190, R333): a record of 128 bytes is written; an exchange tag also sends XRDY. -/
def Dev.cmdEnd (d : Dev) (a tag : Nat) (ctrs : List Nat) : Dev :=
  let x := d.agent a
  let d := if bitAt 31 tag ∧ Tab.getD x.methods (tag % 2 ^ 24) 0 = 3 then d.sendUp a 0x17 [tag % 2 ^ 24 * 2 ^ 40] else d
  let (c, rest) := takeCmd tag x.cmds
  let n := 2 ^ d.get (Reg.ACMD_RING_log2n a)
  let index := d.get (Reg.ACMD_STATUS_index a) % n
  let start := (c.map AccCmd.start).getD []
  let w := [pack [(32, 32, tag), (2, 1, b2n c.isNone), (1, 1, b2n (c.isSome && start == [])), (0, 1, x.cmdPass)], wd start 0,
    stampOf (d.agentTime a), 0] ++ (List.range 4).map (fun i => wd start (i + 1)) ++ d.cmdCounters a ctrs ++ [0, 0, 0, 0]
  let d := d.emit (.accWrite a (d.get (Reg.ACMD_RING_base a) * 4096 + index * 128) (wordBytes w))
  let d := d.onAgent a fun x => { x with cmds := rest, cmdPass := (x.cmdPass + (index + 1) / n) % 2 }
  let d := d.put (Reg.ACMD_STATUS_index a) ((index + 1) % n)
  let d := d.put (Reg.ACMD_STATUS_open a) (d.agent a).open_
  if c.isNone ∨ start = [] then d.incE (Cnt.ACMD_CNT_CMD_ANOMALY a) else d

def execCmdEnd (a : Fin 8) (tag : BitVec 32) (ctrs : List Word) (s : State) : Host.Outcome State Fault Refusal :=
  .next { s with dev := s.dev.cmdEnd a tag.toNat ((ctrs.take 4).map BitVec.toNat) }

/-! ### Declarations (R192) -/

/-- APROF_LOCK (R192): DECL leaves with the four declarations and the coefficient tables found at their addresses. -/
def Dev.aprofLock (d : Dev) (a : Nat) (tables : List (List Nat)) : Dev :=
  if d.flag (Reg.APROF_LOCK_lock a) then d
  else
    let ws := (List.range 4).flatMap fun i => [d.get (Reg.APROF_W0_w a i), d.get (Reg.APROF_W1_w a i), d.get (Reg.APROF_W2_w a i), d.get (Reg.APROF_W3_w a i)]
    let body := ws ++ ((tables.zipIdx.filter fun t => d.get (Reg.APROF_W3_w a t.2) != 0).flatMap fun t => t.1.take 2048)
    ((d.onAgent a fun x => { x with decl := body }).put (Reg.APROF_LOCK_lock a) 1).sendDecl a

def execAprofLock (a : Fin 8) (tables : List (List Word)) (s : State) : Host.Outcome State Fault Refusal :=
  .next { s with dev := s.dev.ifWritable (0x1000 * (a + 1) + 5) fun d => d.aprofLock a (tables.map fun t => t.map BitVec.toNat) }

/-! ### Reset and fence (R170, R180, R375) -/

/-- The fields that an agent reset keeps (R180, R465): the step state record, the key in force with it, straps, and what the controller
holds outside the agent. -/
def agentKeeps (a : Nat) : List Fld :=
  [Reg.ASTEP_STATE_step a, Reg.ASTEP_STATE_exec a, Reg.ASTEP_STATE_state a, Reg.ASTEP_CUT_cut_id a, Reg.ASTEP_CUT_status a, Reg.ASTEP_CUT_mode a,
   Reg.ASMP_STATE_threshold a, Reg.ASMP_STATE_key_valid a, Reg.ASMP_STATE_step a, Reg.ASMP_RESID_used a, Reg.AGT_INFO_family a, Reg.AGT_INFO_n_eng a,
   Reg.AGT_INFO_n_accflt a, Reg.AGT_INFO_n_ctr a, Reg.AGT_INFO_copy_cut a, Reg.AGT_STATUS_epoch a, Reg.AGT_STATUS_acc a,
   Reg.AGP_STATUS_committed a, Reg.AGP_STATUS_state a, Reg.AGP_STATUS_admitted a, Reg.AGP_CTRL_admit a, Reg.AGP_MARK_step a, Reg.AGP_MARK_exec a]

/-- An agent reset has completed (R180, R375, R465): counters and status are at reset, the recorded step state is read back and resumed, the resident table is as RESIDs left it (R173), the lock of the declarations is gone, and the port trains unless port_en
holds it down (R167). -/
def Dev.agentReset (d : Dev) (a : Nat) : Dev :=
  let pages := ((List.range 6).map fun k => 0x1000 * (a + 1) + k) ++ [0x080 + a]
  let d := pages.foldl (fun (d : Dev) pg => d.resetPage pg (agentKeeps a)) d
  let d := pages.foldl (fun (d : Dev) pg => d.put (Reg.PAGE_STATUS_reset_active pg) 0) (d.put (Reg.APROF_LOCK_lock a) 0)
  let d := d.onAgent a fun x => { x with cmds := [], cmdPass := 0, progress := [], good := none, rearm := false, decl := [] }
  let d := ((d.resumeRecord a).setAgentPort a 1).leaveHeld a
  if d.flag (Reg.AGT_CTRL_port_en a) then d.trainPort a else d

def execAgentReset (a : Fin 8) (s : State) : Host.Outcome State Fault Refusal := .next { s with dev := s.dev.agentReset a }

/-- The port is not up 400 ms after an agent reset (R375). -/
def execAgentResetTimeout (a : Fin 8) (s : State) : Host.Outcome State Fault Refusal :=
  .next { s with dev := if s.dev.agentUp a then s.dev else s.dev.raise (Src.AGP_agent_link_lost a) }

/-- AGP_CTRL.fence (R170, R193): an agent whose port is up is fenced; the bit clears itself. -/
def Dev.agentFence (d : Dev) (a : Nat) : Dev :=
  let d := if d.agentUp a then d.setAgentPort a 4 else d
  d.put (Reg.AGP_CTRL_fence a) 0

def execAgentFence (a : Fin 8) (s : State) : Host.Outcome State Fault Refusal :=
  .next { s with dev := s.dev.ifWritable (0x080 + a) fun d => d.agentFence a }

end Sys2Proof.Machine
end

