-- ==== Sys2Proof/Machine/Jobs.lean ====
section
/-! DEFINITION. The job on this controller's own tray: thresholds and keys (R194, R196, R197), the messages to its agents (R169), grace
(R222), the taint set (R218) and the bodies of step reports and decisions (R214). -/

namespace Sys2Proof.Machine

/-! ### Tray accelerators of a job -/

/-- A tray accelerator's part of a job. -/
def JobSt.accOf (j : JobSt) (a : Nat) : Option AccJob := Tab.find a j.acc

/-- A tray accelerator's part set. -/
def JobSt.setAcc (j : JobSt) (a : Nat) (x : AccJob) : JobSt := { j with acc := Tab.insert a x (Tab.erase a j.acc) }

/-- A tray accelerator's part changed by a function. -/
def Dev.onAcc (d : Dev) (job a : Nat) (f : AccJob → AccJob) : Dev :=
  d.onJob job fun j => match j.accOf a with | some x => j.setAcc a (f x) | none => j

/-- The job that an accelerator of the tray is admitted to. -/
def Dev.jobOfAcc (d : Dev) (a : Nat) : Option JobSt := (d.jobs.find? fun e => (e.2.accOf a).isSome).map (·.2)

/-- The job's accelerators that agents of the tray serve, and those that stand-ins serve. -/
def JobSt.agents (j : JobSt) : List Nat := (j.acc.filter fun e => !e.2.standIn).map (·.1)
def JobSt.standIns (j : JobSt) : List Nat := (j.acc.filter fun e => e.2.standIn).map (·.1)

/-- An accelerator as chip × 8 + number. -/
def Dev.accId (d : Dev) (a : Nat) : Nat := d.chip * 8 + a

/-- The record entries that a job index holds. -/
def JobSt.recsOf (j : JobSt) (index : Nat) : List RecDesc := j.desc.recs.filter fun r => r.holders.contains index

/-- The method of a record (R231, R332). -/
def JobSt.methodOf (j : JobSt) (n : Nat) : Nat := Tab.getD (methodsOf j.desc.recs) n 0

/-- An exchange record (R332). -/
def JobSt.isExchange (j : JobSt) (n : Nat) : Bool := match j.recDesc n with | some r => r.hint == 3 | none => false

/-! ### Thresholds (R196) -/

/-- A device of the tray, or the controller itself, is under watch (R316). -/
def Dev.underWatch (d : Dev) (a : Nat) : Bool := (d.healthOf a).watch || (d.healthOf 8).watch

/-- The base of an accelerator (R196). -/
def Dev.baseOf (d : Dev) (j : JobSt) (a : Nat) : Nat :=
  if d.underWatch a then 4096 else limitTo (.range 1 4096) (j.reg Reg.AGR_CTRL_base_thr)

/-- The floor of a base (R196). -/
def floorOf (j : JobSt) (base : Nat) : Nat := max 1 (base / 2 ^ Nat.min 12 (j.reg Reg.AGR_CTRL_floor_log2))

/-- A change of base takes the threshold with it and clears the debt (R196). -/
def AccJob.rebase (x : AccJob) (base : Nat) : AccJob := if x.base = base then x else { x with base := base, thr := base, debt := 0 }

/-- The base as it now stands, before a key block is formed (R216). -/
def Dev.rebase (d : Dev) (job a : Nat) : Dev :=
  match d.jobOf job with
  | some j => d.onAcc job a fun x => x.rebase (d.baseOf j a)
  | none => d

/-- The threshold in force of an accelerator. -/
def Dev.thrOf (d : Dev) (job a : Nat) : Nat := (((d.jobOf job).bind fun j => j.accOf a).map AccJob.thr).getD 1

/-- The part of a tray accelerator that starts a job: its base in force, nothing executed. -/
def AccJob.fresh (index base : Nat) (standIn : Bool) : AccJob :=
  ⟨index, standIn, base, base, 0, 0, none, 0, [], 0, false, [], 0, [], false, none, none, none, 0⟩

/-- A tray accelerator's counts and verdicts before an execution (R215). -/
def AccJob.clean (x : AccJob) (exec : Nat) : AccJob :=
  { x with exec := exec, mark := none, tiles := 0, ids := [], finals := 0, bad := false, voids := [], lastFinal := 0, overdue := false }

/-! ### Keys and messages to agents (R169, R194, R197) -/

/-- A fresh key of the hub's random number generator (R197; log entry 1). -/
def Dev.newKey (d : Dev) : Dev × Nat :=
  let k0 := d.free
  let d := d.tick
  (d.tick, k0 + d.free * 2 ^ 64)

/-- The key block (R194). -/
def keyBlock (key step thr : Nat) : List Nat := [key % 2 ^ 64, key / 2 ^ 64, step * 2 ^ 24 + thr]

/-- 4-byte entries two to a word, the first in the low half. -/
def pairWords (es : List Nat) : List Nat := (chunksOf 2 (es.length / 2 + 1) es).filter (· != []) |>.map fun c => word2 (c.getD 1 0) (c.getD 0 0)

/-- JOB to an agent (R169): the step, a key for it, and the methods of the records it holds; the gate of its step opens (R215). While the
job waits no key is issued (R319): its words are zero, and RESUME brings one. -/
def Dev.sendJob (d : Dev) (job a step : Nat) (waits : Bool := false) : Dev :=
  let d := d.rebase job a
  match d.jobOf job with
  | none => d
  | some j => match j.accOf a with
    | none => d
    | some x =>
      let (d, key) := if waits then (d, 0) else d.newKey
      let ms := (j.recsOf x.index).map fun r => r.num * 256 + (if r.hint = 3 then 3 else j.methodOf r.num)
      let d := d.sendDown a 0x01 ([step * 2 ^ 24] ++ keyBlock key step x.thr ++ pairWords ms)
      d.putAdmitted a true

/-- COMMIT(N) to an agent, with the key block for N + 1 (R194). -/
def Dev.sendCommit (d : Dev) (job a step : Nat) : Dev :=
  let (d, key) := (d.rebase job a).newKey
  (d.sendDown a 0x03 ([step * 2 ^ 24] ++ keyBlock key (step + 1) (d.thrOf job a))).put (Reg.AGP_STATUS_committed a) step

/-- REPLAY(N) leaves for an agent (R194, R216, R219): its execution is the next, and the gate waits for the acknowledgement. A threshold
of 0 stands for the one in force under the base as it now stands. -/
def Dev.sendReplay (d : Dev) (job a step thr : Nat) : Dev :=
  let d := d.rebase job a
  let thr := if thr = 0 then d.thrOf job a else thr
  let (d, key) := d.newKey
  let seq := (d.aport a).downSeq
  let d := d.sendDown a 0x04 ([step * 2 ^ 24] ++ keyBlock key step thr)
  d.onAcc job a fun x => { x.clean (x.exec + 1) with replayHeld := none, replaySeq := some seq }

/-- RESUME(M) to an agent, with the key block for M + 1 (R256). -/
def Dev.sendResume (d : Dev) (job a step : Nat) : Dev :=
  let (d, key) := (d.rebase job a).newKey
  d.sendDown a 0x09 ([step * 2 ^ 24] ++ keyBlock key (step + 1) (d.thrOf job a))

/-! ### Deadlines (R222 to R224) -/

/-- The grace of a step in µs (R222). -/
def JobSt.grace (j : JobSt) : Nat := limitTo (.range 5 200) (j.reg Reg.AGR_CTRL_grace_pm) * j.pstep / 1000

/-- Debt and lateness after the rounds of a step (R224). -/
def debtAfter (g : Nat) (lags : List Int) (debt : Nat) : Nat × Bool :=
  lags.foldl (fun (s : Nat × Bool) v => (((s.1 : Int) + v - (g : Int)).toNat, s.2 || decide ((g : Int) < v))) (debt, false)

/-- The thresholds of R224 at COMMIT(N). -/
def Dev.threshold (d : Dev) (job a : Nat) : Dev :=
  match d.jobOf job with
  | none => d
  | some j => match j.accOf a with
    | none => d
    | some x =>
      let (debt, late) := debtAfter j.grace x.lags x.debt
      let t := if late then max (floorOf j x.base) (x.thr / 2) else if 0 < debt then x.thr else Nat.min x.base (x.thr * 2)
      let d := d.onAcc job a fun x => { x with thr := t, debt := debt, lags := [] }
      let d := if late then d.incE Cnt.AGR_CNT_AGR_LATE else d
      if t < x.thr then d.raise Src.AGR_threshold_reduced else d

/-! ### The taint set (R218) -/

/-- A set grown by every group that shares a member with it. -/
def taintOnce (groups : List (List Nat)) (s : List Nat) : List Nat :=
  groups.foldl (fun s g => if g.any s.contains then (s ++ g).eraseDups else s) s

/-- The set grown until nothing changes; a chain has no more links than there are groups. -/
def taintGrow (groups : List (List Nat)) (s : List Nat) : Nat → List Nat
  | 0 => s
  | n + 1 => taintGrow groups (taintOnce groups s) n

/-- The taint set of seeds, as job indices (R218). -/
def JobSt.taint (j : JobSt) (seeds : List Nat) (whole : Bool) : List Nat :=
  if whole then List.range j.accs.length
  else taintGrow j.desc.groups ((List.range j.accs.length).filter fun i => seeds.contains (j.accs.getD i 0)) j.desc.groups.length

/-! ### Step reports and decisions (R214) -/

/-- The first word of a body: job and epoch. -/
def Dev.jobWord (d : Dev) (job : Nat) : Nat := word2 job d.epoch

/-- Seeds as the bodies carry them: how many, and their words; more than 32 are the whole job. -/
def seedCode (seeds : List Nat) (whole : Bool) : Nat × List Nat :=
  if whole || decide (32 < seeds.length) then (0xFF, []) else (seeds.length, pairWords (seeds.map fun s => s / 8 * 65536 + s % 8))

/-- STEPREP to the parent in the step tree; the last one is kept to be sent again (R216). -/
def Dev.sendRep (d : Dev) (j : JobSt) (status covered : Nat) (seeds : List Nat) (whole : Bool) : Dev :=
  let c := seedCode seeds whole
  let rest := [pack [(24, 40, j.step), (16, 8, j.round), (8, 8, status), (0, 8, c.1)], covered] ++ c.2
  let d := d.onJob j.desc.job fun j => { j with lastRep := rest }
  match d.stepParent j with
  | some p => d.send p 0x38 (d.jobWord j.desc.job :: rest)
  | none => d

/-- The last STEPREP is sent again, to the parent after the tree has changed (R216). -/
def Dev.resendRep (d : Dev) (j : JobSt) : Dev :=
  match j.lastRep, d.stepParent j with
  | w :: ws, some p => d.send p 0x38 (d.jobWord j.desc.job :: w :: ws)
  | _, _ => d

/-- STEPDEC to the children in the step tree. -/
def Dev.sendDec (d : Dev) (j : JobSt) (step round decision : Nat) (seeds : List Nat) (whole : Bool) : Dev :=
  let c := seedCode seeds whole
  d.sendAll (d.stepChildren j) 0x39 ([d.jobWord j.desc.job, pack [(24, 40, step), (16, 8, round), (8, 8, decision), (0, 8, c.1)]] ++ c.2)

end Sys2Proof.Machine
end

