-- ==== Sys2Proof/Machine/Stripe.lean ====
section
/-! DEFINITION. The stripe (R232 to R237): where a job's units lie, what a unit holds, its parity and its rebuilding, and a rack's
generation slots with their commit records (R244). -/

namespace Sys2Proof.Machine

/-! ### Layout (R232 to R234) -/

/-- The bytes of a unit. -/
def unitBytes : Nat := 65536

/-- A home's extent (R232): its first data unit, its table units, its units in all, and its records in ascending order, each with its
first unit and how many it takes. -/
structure Extent where
  home : Nat
  first : Nat
  tables : Nat
  units : Nat
  segs : List (RecDesc × Nat × Nat)
  deriving DecidableEq, Repr

/-- Record entries in ascending record number. -/
def sortRecs (rs : List RecDesc) : List RecDesc := rs.mergeSort fun a b => decide (a.num ≤ b.num)

/-- The records homed at a chip under a job table. -/
def JobSt.homed (j : JobSt) (table : List Nat) (chip : Nat) : List RecDesc :=
  sortRecs (j.desc.recs.filter fun r => r.home table == some chip)

/-- The units that a record takes (R232). -/
def recUnits (method len : Nat) : Nat := if method = 1 ∨ method = 2 then ceilDiv len unitBytes else 0

/-- A home's extent from a first unit on. -/
def JobSt.extent (j : JobSt) (table : List Nat) (chip first : Nat) : Extent :=
  let rs := j.homed table chip
  let t := ceilDiv rs.length 512
  let ms := methodsOf j.desc.recs
  let r := (rs.filter fun r => recUnits (Tab.getD ms r.num 0) r.len != 0).foldl
    (fun (s : List (RecDesc × Nat × Nat) × Nat) r =>
      let n := recUnits (Tab.getD ms r.num 0) r.len
      (s.1 ++ [(r, s.2, n)], s.2 + n)) ([], first + t)
  ⟨chip, first, t, (r.2 - first + 15) / 16 * 16, r.1⟩

/-- The homes of a rack under a job table, ascending. -/
def JobSt.homes (j : JobSt) (table : List Nat) (rack : Nat) : List Nat :=
  (chipsOf table).filter fun c => c / 32 == rack && j.homed table c != []

/-- The extents of a rack, laid end to end (R232). -/
def JobSt.extents (j : JobSt) (table : List Nat) (rack : Nat) : List Extent :=
  ((j.homes table rack).foldl (fun (s : List Extent × Nat) c =>
    let e := j.extent table c s.2
    (s.1 ++ [e], s.2 + e.units)) ([], 0)).1

/-- The rows a job takes in a rack. -/
def JobSt.rowsIn (j : JobSt) (table : List Nat) (rack : Nat) : Nat :=
  ((j.extents table rack).map fun e => e.units / 16).foldl (· + ·) 0

/-- What a data unit of a job holds. -/
inductive UnitIs where
  | table (home k : Nat)
  | data (r : RecDesc) (k : Nat)
  | padding
  deriving DecidableEq, Repr

/-- What data unit u of a job holds in a rack. -/
def unitIs (es : List Extent) (u : Nat) : UnitIs :=
  match es.find? fun e => decide (e.first ≤ u) && decide (u < e.first + e.units) with
  | none => .padding
  | some e =>
    if u < e.first + e.tables then .table e.home (u - e.first)
    else match e.segs.find? fun s => decide (s.2.1 ≤ u) && decide (u < s.2.1 + s.2.2) with
      | some s => .data s.1 (u - s.2.1)
      | none => .padding

/-- The tray slot of a unit of row r (R234): role 0 data unit j, 1 P, 2 Q. -/
def unitSlot (r role j : Nat) : Nat := if role = 1 then r % 18 else if role = 2 then (r + 1) % 18 else (r + 2 + j) % 18

/-- The unit of row r that a tray slot holds, as (role, j). -/
def slotUnit (r slot : Nat) : Nat × Nat :=
  let k := (slot + 18 - r % 18) % 18
  if k = 0 then (1, 0) else if k = 1 then (2, 0) else (0, k - 2)

/-- STP_REGION.rows, rounded down to a multiple of 16 and to what fits the class C reserve beside the mirror region, 32 GiB over 16
partitions (R249, R259). -/
def Dev.regionRows (d : Dev) : Nat :=
  let gib := (List.range 16).foldl (fun m p => Nat.min m (d.get (Reg.SRM_RESERVE_c_lpd_gib p))) 60
  Nat.min (d.get Reg.STP_REGION_rows) ((gib - 2) * 2 ^ 30 / 8192) / 16 * 16

/-- The partition and the address of a unit on its holder (R234). -/
def Dev.unitAt (d : Dev) (slot r : Nat) : Nat × Nat :=
  let p := r % 16
  (p, p * 2 ^ 36 + d.get Reg.STP_REGION_base_gib * 2 ^ 30 + slot * d.regionRows * 4096 + r / 16 * unitBytes)

/-- A unit as this controller holds it; none while its partition is out of service. -/
def Dev.unitRead (d : Dev) (slot r : Nat) : Option (List Nat) :=
  let a := d.unitAt slot r
  if d.partState a.1 = 4 then none else some ((Memory.readBytes a.2 unitBytes d.lpd).map BitVec.toNat)

/-- A unit stored by this controller (R243). -/
def Dev.unitStore (d : Dev) (slot r : Nat) (bs : List Nat) : Dev :=
  let a := d.unitAt slot r
  { d with lpd := Memory.writeBytes a.2 (bs.map fun b => BitVec.ofNat 8 b) d.lpd }.incU Cnt.STP_CNT_UNITS_STORED

/-! ### Parity (R235, R236) -/

/-- A byte times 2 in GF(2^8) under 0x11D. -/
def gfDouble (x : Nat) : Nat := if x < 128 then 2 * x else (2 * x - 256) ^^^ 0x1D

/-- Two bytes multiplied in GF(2^8). -/
def gfMul (a b : Nat) : Nat :=
  ((List.range 8).foldl (fun (s : Nat × Nat) i => (if bitAt i b then s.1 ^^^ s.2 else s.1, gfDouble s.2)) (0, a)).1

/-- 2 to a power in GF(2^8). -/
def gfPow : Nat → Nat
  | 0 => 1
  | n + 1 => gfDouble (gfPow n)

/-- The inverse of a byte that is not zero: its 254th power. -/
def gfInv (a : Nat) : Nat := (List.range 253).foldl (fun x _ => gfMul x a) a

/-- Bytes added byte by byte; a shorter string reads zero beyond its end. -/
def gfAdd (a b : List Nat) : List Nat := (List.range (max a.length b.length)).map fun i => wd a i ^^^ wd b i

/-- Bytes multiplied by a factor. -/
def gfScale (c : Nat) (a : List Nat) : List Nat := a.map (gfMul c)

/-- P of a row's data units by index (R235). -/
def parityP (ds : List (Nat × List Nat)) : List Nat := ds.foldl (fun s e => gfAdd s e.2) (List.replicate unitBytes 0)

/-- Q of a row's data units by index (R235). -/
def parityQ (ds : List (Nat × List Nat)) : List Nat :=
  ds.foldl (fun s e => gfAdd s (gfScale (gfPow e.1) e.2)) (List.replicate unitBytes 0)

/-- The lost data units of a row rebuilt from those that survive (R236); none when too much is lost. -/
def rebuild (ds : List (Nat × List Nat)) (p q : Option (List Nat)) (lost : List Nat) : Option (List (Nat × List Nat)) :=
  match lost, p, q with
  | [], _, _ => some []
  | [a], some p, _ => some [(a, gfAdd p (parityP ds))]
  | [a], none, some q => some [(a, gfScale (gfPow (255 - a)) (gfAdd q (parityQ ds)))]
  | [a, b], some p, some q =>
    let pxy := gfAdd p (parityP ds)
    let qxy := gfAdd q (parityQ ds)
    let da := gfScale (gfInv (gfPow (b - a) ^^^ 1)) (gfAdd (gfScale (gfPow (b - a)) pxy) (gfScale (gfPow (255 - a)) qxy))
    some [(a, da), (b, gfAdd pxy da)]
  | _, _, _ => none

/-! ### Table units (R233) -/

/-- A table entry: the record after the commit of the step, the digest of its data, the step, and whether its units were written. -/
def tableEntry (w : List Nat) (digest step : Nat) (striped : Bool) : List Nat :=
  (List.range 8).map (wd w) ++ [digest, step * 2 ^ 24 + b2n striped] ++ List.replicate 6 0

/-- A byte string cut into units, the last one filled with zeros. -/
def unitsOf (bs : List Nat) : List (List Nat) :=
  ((chunksOf unitBytes (bs.length / unitBytes + 1) bs).filter (· != [])).map fun c => c ++ List.replicate (unitBytes - c.length) 0

/-- The words of the table entry of a record in its home's table units. -/
def entryAt (tables : List Nat) (i : Nat) : List Nat := (List.range 16).map fun k => numAt tables (128 * i + 8 * k) 8

/-! ### Slots and commit records (R237, R244, R245) -/

/-- A rack's generation slot of a job. -/
def JobSt.slot (j : JobSt) (rack s : Nat) : GenSt := Tab.getD j.slots (rack * 2 + s) GenSt.free

/-- A rack's generation slot set. -/
def JobSt.setSlot (j : JobSt) (rack s : Nat) (g : GenSt) : JobSt := { j with slots := Tab.set j.slots (rack * 2 + s) GenSt.free g }

/-- The slot of the next cut: a free one, else that of the older generation (R245). -/
def JobSt.nextSlot (j : JobSt) (rack : Nat) : Nat :=
  let a := j.slot rack 0
  let b := j.slot rack 1
  if a.state = 0 then 0 else if b.state = 0 then 1 else if a.gen ≤ b.gen then 0 else 1

/-- The slot of a rack's newest committed or sealed generation (R243). -/
def JobSt.newest (j : JobSt) (rack : Nat) : Option Nat :=
  let a := j.slot rack 0
  let b := j.slot rack 1
  if 3 ≤ a.state ∧ 3 ≤ b.state then (if a.gen ≤ b.gen then some 1 else some 0)
  else if 3 ≤ a.state then some 0 else if 3 ≤ b.state then some 1 else none

/-- The job table in force at a step (R325): moves at that boundary or a later one are undone, those that wait for an earlier one are
made. -/
def JobSt.tableAt (j : JobSt) (step : Nat) : List Nat :=
  let back := j.moves.foldr (fun (m : Nat × Nat × Nat) t => if step ≤ m.1 then t.set m.2.1 m.2.2 else t) j.accs
  j.adopts.foldl (fun t e => match e.2.bound with
    | some b => if b < step then t.set e.1 e.2.spare else t
    | none => t) back

/-- The job table of a cut (R325): that of its slot. -/
def Dev.cutTable (d : Dev) (j : JobSt) (c : CutSt) : List Nat := (j.slot d.rack c.slot).table

/-- The slots of the rack that no member holds, as bits (R237). -/
def Dev.absentSlots (d : Dev) : Nat := ((List.range 18).filter fun s => !d.live (d.rack * 32 + s)).foldl setBit 0

/-- How many of 18 bits are set. -/
def ones18 (m : Nat) : Nat := ((List.range 18).filter fun i => bitAt i m).length

/-- The commit record (R244). -/
def Dev.commitRecord (d : Dev) (j : JobSt) (c : CutSt) (absent : Nat) (tables : List Nat) : List Nat :=
  let t := d.cutTable j c
  let es := j.extents t d.rack
  let recs := (es.map fun e => (j.homed t e.home).length).foldl (· + ·) 0
  let w := [word2 j.desc.job c.gen, pack [(24, 40, c.step), (23, 1, c.slot), (0, 18, 2 ^ 18 - 1 - absent)],
    word2 c.step d.epoch, word2 j.row0 (j.rowsIn t d.rack), pack [(16, 24, recs), (0, 16, es.length)], crc64 tables, d.stamp]
  w ++ [crc64 (wordBytes w)]

/-- The units of a row that exist, as positions: P, Q and data units that are not padding (R232). -/
def rowUnits (es : List Extent) (row : Nat) : List (Nat × Nat) :=
  [(1, 0), (2, 0)] ++ ((List.range 16).filter fun k => unitIs es (row * 16 + k) != .padding).map fun k => (0, k)

/-- No row of a generation has more than two lost units (R255): lost positions as bits. -/
def JobSt.rowsHeld (j : JobSt) (g : GenSt) (rack : Nat) : Bool :=
  let es := j.extents g.table rack
  let m := g.absent ||| g.lost
  decide (ones18 m ≤ 2) || (List.range (j.rowsIn g.table rack)).all fun i =>
    decide (((rowUnits es i).filter fun u => bitAt (unitSlot (bits 32 32 (wd g.crec 3) + i) u.1 u.2) m).length ≤ 2)

/-- A job holds its rows (R232): it is admitted, or its start has passed this controller's checks. -/
def JobSt.holdsRows (j : JobSt) : Bool := j.phase == 2 || (j.phase == 1 && j.status == 0)

/-- The rows that other jobs take in the rack, as (first, count). -/
def Dev.rowsTaken (d : Dev) (job : Nat) : List (Nat × Nat) :=
  (d.jobs.filter fun e => e.1 != job && e.2.holdsRows).map fun e => (e.2.row0, e.2.rowsIn e.2.desc.accs d.rack)

/-- A job's first row by first fit (R232); none when it does not fit. -/
def Dev.firstFit (d : Dev) (j : JobSt) : Option Nat :=
  let n := j.rowsIn j.desc.accs d.rack
  let taken := (d.rowsTaken j.desc.job).filter fun t => t.2 != 0
  let starts := 0 :: taken.map fun t => t.1 + t.2
  let ok (r : Nat) : Bool := decide (r + n ≤ d.regionRows) && taken.all fun t => decide (r + n ≤ t.1) || decide (t.1 + t.2 ≤ r)
  (starts.filter ok).min?

end Sys2Proof.Machine
end

