-- ==== Sys2Proof/Machine/Mirror.lean ====
section
/-! DEFINITION. Mirrors (R246 to R251): pairing, versions, pins and their acknowledgements, and the amax history of a committed step
(R136, R229). -/

namespace Sys2Proof.Machine

/-! ### Pairing (R246 to R248) -/

/-- The feed identifiers of a rack member and whether they are known: the own registers, or the HELLO of a direct link. -/
def Dev.feedIds (d : Dev) (chip : Nat) : Option (List Nat) :=
  if chip = d.chip then
    if d.flag Reg.PWR_FEED_STATUS_ids_unknown then none else some [d.get Reg.PWR_FEED_ID_A_id, d.get Reg.PWR_FEED_ID_B_id]
  else
    ((gPorts.filterMap fun i => if d.linkStands i then (d.port i).hello else none).find? fun h => helloChip h == chip).bind fun h =>
      if bitAt 63 (helloWord h 8) then none else some [helloWord h 6, helloWord h 7]

/-- Controller j is feed-diverse from controller i (R246). -/
def Dev.feedDiverse (d : Dev) (i j : Nat) : Bool :=
  match d.feedIds i, d.feedIds j with
  | some a, some b => b.any fun x => !a.contains x
  | _, _ => false

/-- The pairing of the rack's members (R247). -/
def Dev.pairing (d : Dev) : Tab Nat :=
  (d.membersOf d.rack).foldl (fun (t : Tab Nat) i =>
    match ((List.range 17).map fun k => d.rack * 32 + (i % 32 + k + 1) % 18).find? fun c =>
        d.isIn c && d.feedDiverse i c && decide ((t.filter fun e => e.2 == c).length < 4) with
    | some c => Tab.insert i c t
    | none => t) []

/-- The pairing is computed anew (R247): it takes effect from the next committed step. -/
def Dev.repair (d : Dev) : Dev := { d with mir := { d.mir with next := some d.pairing } }

/-- The partner in force. -/
def Dev.partner (d : Dev) : Option Nat := Tab.find d.chip d.mir.pairs

/-! ### Versions and pins (R249, R250) -/

/-- The body of a version (R249). -/
def Dev.versionBody (d : Dev) (v : Version) : List Nat :=
  [d.jobWord v.job, pack [(24, 40, v.step), (21, 3, v.acc)], pack [(48, 16, v.src), (24, 24, v.nFlow)], v.itemBytes] ++ v.words

/-- A version leaves for the partner and waits for its acknowledgement; a newer one replaces an older of the accelerator. -/
def Dev.sendVersion (d : Dev) (v : Version) : Dev :=
  match d.partner with
  | none => d
  | some p =>
    let keep := d.mir.waiting.filter fun w => !(w.acc == v.acc && w.job == v.job && decide (w.step ≤ v.step))
    let body := d.versionBody v
    ({ d.send p 0x52 body with mir := { d.mir with waiting := keep ++ [v] } }).addU Cnt.MIR_CNT_MIR_SENT (8 * body.length)

/-- PIN for a slot (R250). -/
def Dev.sendPin (d : Dev) (job step slot : Nat) : Dev :=
  match d.partner with
  | none => d
  | some p => d.send p 0x47 [d.jobWord job, pack [(24, 40, step), (23, 1, slot)], d.chip * 2 ^ 48]

/-- MIR_PARTNER.single ends once the new partner holds what was sent (R251). -/
def Dev.settleSingle (d : Dev) : Dev :=
  let pinned := (List.range 2).all fun s => d.get (Reg.MIR_PIN_valid s) == 0 || d.get (Reg.MIR_PIN_partner_held s) == 1
  if d.flag Reg.MIR_PARTNER_single && d.mir.waiting.isEmpty && pinned then d.put Reg.MIR_PARTNER_single 0 else d

/-- The flow records homed here take correlated for their Mirror records (R229, R248). -/
def Dev.correlate (d : Dev) (on : Bool) : Dev :=
  { d with flow := d.flow.map fun (e : Nat × List Nat) =>
      if recHome e.2 && recMethod e.2 == 2 then (e.1, e.2.mapIdx fun i w => if i = 1 then withBit w 20 on else w) else e }

/-- A source whose partner is not this controller, by the pairing in force and the one that waits (R247); one without a partner is another's
too. -/
def Dev.pairedElsewhere (d : Dev) (src : Nat) : Bool :=
  let other (t : Tab Nat) : Bool := t != [] && Tab.find src t != some d.chip
  other d.mir.pairs && match d.mir.next with | some t => other t | none => true

/-- The sources hosted here (R249): those with versions here, but for sources that this controller is no longer the partner of. -/
def Dev.hostedSources (d : Dev) : List Nat := ((d.mir.ring.map Version.src).eraseDups).filter fun s => !d.pairedElsewhere s

/-- MIR_HOSTED follows the ring and the pairing. -/
def Dev.showHosted (d : Dev) : Dev := d.put Reg.MIR_HOSTED_n (Nat.min 4 d.hostedSources.length)

/-- MIR_NEWEST follows what the partner has acknowledged (R260): the newest step, and the versions it holds, whatever their accelerators. -/
def Dev.showNewest (d : Dev) : Dev :=
  let vs := d.mir.acked
  (d.put Reg.MIR_NEWEST_step (vs.foldl (fun m v => max m v.step) 0)).put Reg.MIR_NEWEST_held
    (Nat.min 256 ((vs.map fun v => (v.job, v.step)).eraseDups).length)

/-- A new partner holds nothing yet, and no old version waits for it (R251). -/
def Dev.newPartner (d : Dev) : Dev := { d with mir := { d.mir with waiting := [], acked := [] } }.showNewest

/-- The pairing that waits takes effect (R247, R248, R251): a new partner is sent both pins and the latest versions. -/
def Dev.pairUp (d : Dev) : Dev :=
  match d.mir.next with
  | none => d
  | some t =>
    let old := d.partner
    let d := { d with mir := { d.mir with pairs := t, next := none } }.showHosted
    match d.partner with
    | none =>
      let d := (((d.put Reg.MIR_PARTNER_valid 0).put Reg.MIR_PARTNER_correlated 1).put Reg.MIR_PARTNER_single 0).put Reg.MIR_PARTNER_epoch d.epoch
      (d.newPartner.correlate true).raise Src.MIR_mirror_correlated
    | some p =>
      let d := ((d.put Reg.MIR_PARTNER_chip p).put Reg.MIR_PARTNER_valid 1).put Reg.MIR_PARTNER_correlated 0 |>.put Reg.MIR_PARTNER_epoch d.epoch
      let d := d.correlate false
      if old = some p then d
      else
        let d := (d.newPartner.put (Reg.MIR_PIN_partner_held 0) 0).put (Reg.MIR_PIN_partner_held 1) 0
        let pins := d.mir.ownPins
        if pins = [] ∧ d.mir.own = [] then d.put Reg.MIR_PARTNER_single 0
        else
          let d := (d.put Reg.MIR_PARTNER_single 1).raise Src.MIR_mirror_single
          let d := pins.foldl (fun (d : Dev) e => d.sendVersion e.2) d
          let d := ((pins.map fun e => (e.2.job, e.2.step, e.1)).eraseDups).foldl (fun (d : Dev) e => d.sendPin e.1 e.2.1 e.2.2) d
          d.mir.own.foldl Dev.sendVersion d

/-- The records with delayed scaling that an accelerator of a job holds. -/
def Dev.scaledRecs (d : Dev) (j : JobSt) (index : Nat) : List Nat :=
  ((j.recsOf index).map RecDesc.num).filter fun n => recDs (d.flowRec n)

/-- The version of a committed step (R249): the mirror items of its mark and the flow entries. -/
def Dev.versionOf (d : Dev) (j : JobSt) (a : Nat) (x : AccJob) (m : MarkInfo) (step : Nat) : Version :=
  let items := m.mirror.flatMap fun e => e.2
  let recs := d.scaledRecs j x.index
  let flow := recs.flatMap fun n => (n * 2 ^ 40) :: (d.flowRec n).drop 3
  ⟨d.chip, a, j.desc.job, step, recs.length, 8 * items.length, items ++ flow⟩

/-- A committed version is kept and sent (R249). -/
def Dev.mirrorOut (d : Dev) (v : Version) : Dev :=
  let own := d.mir.own.filter fun w => !(w.acc == v.acc && w.job == v.job)
  ({ d with mir := { d.mir with own := own ++ [v] } }).sendVersion v

/-- The own versions of a step become the pin of a slot, and the partner is asked for the same (R250). -/
def Dev.pinOwn (d : Dev) (job step slot : Nat) : Dev :=
  let vs := d.mir.own.filter fun v => v.job == job && v.step == step
  let keep := d.mir.ownPins.filter fun e => !(e.1 == slot && e.2.job == job)
  let d := { d with mir := { d.mir with ownPins := keep ++ vs.map fun v => (slot, v) } }
  (((d.put (Reg.MIR_PIN_step slot) step).put (Reg.MIR_PIN_valid slot) 1).put (Reg.MIR_PIN_partner_held slot) 0).sendPin job step slot

/-- The pins of a job's slot up to a step are released on this controller (R250, R252). -/
def Dev.dropPinsTo (d : Dev) (job slot step : Nat) : Dev :=
  let gone (e : Nat × Version) : Bool := e.1 == slot && e.2.job == job && decide (e.2.step ≤ step)
  let keep (l : List (Nat × Version)) : List (Nat × Version) := l.filter fun e => !gone e
  let had := d.mir.ownPins.any gone
  let asked := d.mir.asked.filter fun p => !(p.2.1 == job && p.2.2.2 == slot && decide (p.2.2.1 ≤ step))
  let d := { d with mir := { d.mir with ownPins := keep d.mir.ownPins, pins := keep d.mir.pins, asked := asked } }
  if had then ((d.put (Reg.MIR_PIN_step slot) 0).put (Reg.MIR_PIN_valid slot) 0).put (Reg.MIR_PIN_partner_held slot) 0 else d

/-- All pins of a job's slot are released on this controller (R250, R252). -/
def Dev.dropPins (d : Dev) (job slot : Nat) : Dev := d.dropPinsTo job slot (2 ^ 40)

/-- The accelerators of a job on a controller, by its table. -/
def JobSt.accsAt (j : JobSt) (chip : Nat) : List Nat := (j.accs.filter fun x => x / 8 == chip).map (· % 8)

/-- A PIN that waits acts once the ring holds the step's version of each of the source's job accelerators (R250): they are copied into the
slot's pin, and the PIN is acknowledged. -/
def Dev.pinTry (d : Dev) (p : Nat × Nat × Nat × Nat) : Dev :=
  let (src, job, step, slot) := p
  let vs := d.mir.ring.filter fun v => v.src == src && v.job == job && v.step == step
  let wanted := match d.jobOf job with | some j => j.accsAt src | none => []
  if vs = [] ∨ !(wanted.all fun a => vs.any fun v => v.acc == a) then d
  else
    let keep := d.mir.pins.filter fun e => !(e.1 == slot && e.2.src == src && e.2.job == job)
    let d := { d with mir := { d.mir with pins := keep ++ (vs.map fun v => (slot, v)), asked := d.mir.asked.filter (· != p) } }
    d.send src 0x47 [d.jobWord job, pack [(24, 40, step), (23, 1, slot)], src * 2 ^ 48]

/-- A MIRROR arrives (R249): version N in entry N mod 256, acknowledged once stored; a fifth source is not hosted. An acknowledgement
repeats the first three words (log entry 27). A PIN that waited for the version may act. -/
def Dev.mirrorIn (d : Dev) (v : Version) : Dev :=
  if !d.hostedSources.contains v.src && decide (4 ≤ d.hostedSources.length) then d
  else
    let ring := d.mir.ring.filter fun w => !(w.src == v.src && w.acc == v.acc && w.step % 256 == v.step % 256)
    let d := ({ d with mir := { d.mir with ring := ring ++ [v] } }).showHosted
    let d := d.addU Cnt.MIR_CNT_MIR_HOSTED (8 * (4 + v.words.length))
    let d := d.send v.src 0x52 ((d.versionBody v).take 3)
    d.mir.asked.foldl Dev.pinTry d

/-- A version is acknowledged (R249, R260). -/
def Dev.mirrorAck (d : Dev) (job step a : Nat) : Dev :=
  match d.mir.waiting.find? fun v => v.job == job && v.step == step && v.acc == a with
  | some v =>
    let waiting := d.mir.waiting.filter fun v => !(v.job == job && v.step == step && v.acc == a)
    let acked := d.mir.acked.filter fun w => !(w.acc == a && w.step % 256 == step % 256)
    ({ d with mir := { d.mir with waiting := waiting, acked := acked ++ [v] } }.showNewest.incU Cnt.MIR_CNT_MIR_VERSIONS).settleSingle
  | none => d

/-- A version has not been acknowledged within ack_ms (R249): it is sent again. -/
def Dev.mirrorLost (d : Dev) (job step a : Nat) : Dev :=
  match d.mir.waiting.find? fun v => v.job == job && v.step == step && v.acc == a with
  | some v => ((d.incE Cnt.MIR_CNT_MIR_LATE).raise Src.MIR_mirror_lost).sendVersion v
  | none => d

/-- A PIN arrives (R250): it replaces one of the same slot that still waits. -/
def Dev.pinIn (d : Dev) (job step slot src : Nat) : Dev :=
  let asked := d.mir.asked.filter fun p => !(p.1 == src && p.2.1 == job && p.2.2.2 == slot)
  ({ d with mir := { d.mir with asked := asked ++ [(src, job, step, slot)] } }).pinTry (src, job, step, slot)

/-! ### The history of a committed step (R136, R229) -/

/-- A record with delayed scaling takes the amax of the committed round and the exponent used (R136, R229); an amax that is NaN or infinite
makes an invalid entry (R134). -/
def Dev.commitRec (d : Dev) (n amax : Nat) : Dev :=
  let w := d.flowRec n
  let amax := if histValid amax then amax else 0xFFFF
  let e := byteOfInt (recExp w)
  let w := withHist w ((amax :: recHist w).take 16)
  d.setFlow n (some (w.mapIdx fun i x => if i = 3 then x - bits 10 8 x * 2 ^ 10 + e * 2 ^ 10 else x))

/-- The history entries of an accelerator's committed round: its mark's entries, invalid for a record without one; a record that a
lower replica of the tray also holds is taken from that one. -/
def Dev.commitHist (d : Dev) (j : JobSt) (a : Nat) (x : AccJob) (m : MarkInfo) : Dev :=
  (d.scaledRecs j x.index).foldl (fun (d : Dev) n =>
    let w := d.flowRec n
    if (List.range a).any fun i => bitAt i (recMask w) then d
    else d.commitRec n (((m.amax.find? fun e => e.1 == n).map (·.2)).getD 0xFFFF)) d

end Sys2Proof.Machine
end

