-- ==== Sys2Proof/Machine/Snapshot.lean ====
section
/-! DEFINITION. Snapshots (R238 to R245, R252): cadence and risk, cuts, pulls, writing the stripe, sealing and committing a generation. -/

namespace Sys2Proof.Machine

/-! ### Risk and cadence (R238, R317) -/

/-- A device's hazard in ppm per hour (R317). -/
def Dev.hazardOf (d : Dev) (v : Nat) : Nat :=
  d.get (acts Reg.MBR_HR_CTRL_h_base) + d.get (acts Reg.MBR_HR_CTRL_h_pt) * ((d.healthOf v).points / 65536) / 1000

/-- The sum over the tray's devices of a job: its accelerators and the controller (R317). -/
def Dev.trayHazard (d : Dev) (j : JobSt) : Nat := ((8 :: j.acc.map (·.1)).map d.hazardOf).foldl (· + ·) 0

/-- The floor of a square root below 2^16 (R238). -/
def isqrt (n : Nat) : Nat :=
  (List.range 16).foldl (fun r i => let t := r + 2 ^ (15 - i); if t * t ≤ n then t else r) 0

/-- The interval I of R238 from the registers latched for the job and the risk; watch: an accelerator of the job is under watch. -/
def cutInterval (j : JobSt) (risk : Nat) (watch : Bool) : Nat :=
  let iBase := j.reg Reg.STP_CTRL_i_base
  let iMin := max 1 (j.reg Reg.STP_CTRL_i_min)
  let ref := max 1 (j.reg Reg.STP_CTRL_r_ref)
  let i := if risk ≤ ref then iBase else max iMin (iBase * isqrt (ref * 65536 / risk) / 256)
  if watch then Nat.min i (max 1 (j.reg Reg.STP_CTRL_watch_max)) else i

/-- A device of the tray that a job uses is under watch (R316). -/
def Dev.trayWatch (d : Dev) (j : JobSt) : Bool := j.acc.any fun e => d.underWatch e.1

/-- The root's part of a step commit: the risk over the controllers in the view, and the next cut (R238, R317); after a failed cut the next step stands (R252). Of watches in other trays HAZARD tells it (log entry 28). -/
def Dev.cadence (d : Dev) (job : Nat) : Dev :=
  match d.jobOf job with
  | none => d
  | some j =>
    let sum := (((Tab.erase d.chip j.hazards).filter fun e => d.live e.1).map (·.2)).foldl (· + ·) (d.trayHazard j)
    let risk := ceilDiv (sum * d.predOf job j.desc.pred) 3600000000
    let i := cutInterval j risk (d.trayWatch j || (j.watchers.filter d.live) != [])
    let d := (d.put Reg.STP_RISK_ppm risk).setJob { j with risk := risk, interval := i, nextCut := if j.recut then j.nextCut else j.lastCut + i }
    if i = max 1 (j.reg Reg.STP_CTRL_i_min) then d.raise Src.STP_cadence_floor else d

/-! ### Bodies (R240) -/

/-- A body of cut, seal and restore coordination. -/
def Dev.coordBody (d : Dev) (job step code gen count : Nat) : List Nat :=
  [d.jobWord job, pack [(24, 40, step), (16, 8, code)], word2 gen count]

/-- A job's cut changed by a function. -/
def Dev.onCut (d : Dev) (job : Nat) (f : CutSt → CutSt) : Dev := d.onJob job fun j => { j with cut := j.cut.map f }

/-- The cut in progress of a job. -/
def Dev.cutOf (d : Dev) (job : Nat) : Option (JobSt × CutSt) := (d.jobOf job).bind fun j => j.cut.map fun c => (j, c)

/-! ### Discard (R252) -/

/-- CUT asks an agent for a copy (R241). -/
def Dev.cutCopies (d : Dev) (c : CutSt) (a : Nat) : Bool := c.copy && d.flag (Reg.AGT_INFO_copy_cut a)

/-- A hold-mode agent still waits for RESUME after its cut (R241, R252), also one that has not yet answered CUT. -/
def Dev.heldByCut (d : Dev) (c : CutSt) (a : Nat) (x : AccJob) : Bool :=
  (x.cutAck == some 0 || x.cutAck == some 3 || (x.cutAck.isNone && c.state != 0 && !d.cutCopies c a)) && !(c.pulling.contains a && (c.pulls.filter fun p => p.1 == a).isEmpty)

/-- RESUME with the cut identifier (R241). -/
def Dev.resumeCut (d : Dev) (a step : Nat) : Dev := d.sendDown a 0x09 [step % 2 ^ 32 * 2 ^ 24]

/-- The generation being cut, written or sealed is discarded on this controller (R252); held agents go on. -/
def Dev.discardGen (d : Dev) (job gen : Nat) : Dev :=
  match d.jobOf job with
  | none => d
  | some j =>
    let mine := (List.range 2).filter fun s => (j.slot d.rack s).gen == gen && (j.slot d.rack s).state != 0
    if mine = [] then d
    else
      let held : List (Nat × Nat) := match j.cut with
        | some c => if c.gen = gen then (j.acc.filter fun (e : Nat × AccJob) => !e.2.standIn && d.heldByCut c e.1 e.2).map fun e => (e.1, c.step) else []
        | none => []
      let d := held.foldl (fun (d : Dev) e => d.resumeCut e.1 e.2) d
      let d := d.onJob job fun j =>
        let j := { j with slots := j.slots.filter fun e => e.2.gen != gen }
        if (j.cut.map CutSt.gen) = some gen then { j with cut := none, acc := j.acc.map fun (e : Nat × AccJob) => (e.1, { e.2 with cutAck := none }) } else j
      let d := mine.foldl (fun (d : Dev) s => d.dropPins job s) d
      (d.incE Cnt.STP_CNT_GEN_DISCARD).raise Src.STP_gen_discarded

/-- GENCOMMIT goes on: down the tree, and by the seal leader to its rack (R240). -/
def Dev.genForward (d : Dev) (j : JobSt) (step gen code : Nat) : Dev :=
  let body := d.coordBody j.desc.job step code gen 0
  let d := d.sendAll (d.stepChildren j) 0x43 body
  if d.sealLeader j d.rack = some d.chip then d.send d.rackBroadcast 0x43 body else d

/-- A generation that this controller knows is not yet decided. -/
def JobSt.undecided (j : JobSt) (gen : Nat) : Bool := j.slots.any fun e => e.2.gen == gen && decide (1 ≤ e.2.state) && decide (e.2.state ≤ 3)

/-! ### What was written (R241, R243, R429) -/

/-- The mirror items among words: (record, item with its header). -/
def itemsOf : List Nat → Nat → List (Nat × List Nat)
  | [], _ => []
  | _, 0 => []
  | w :: ws, n + 1 =>
    let k := (w % 2 ^ 40 + 7) / 8
    (w / 2 ^ 40, w :: ws.take k) :: itemsOf (ws.drop k) n

/-- The items of a version. -/
def Version.items (v : Version) : List (Nat × List Nat) := itemsOf (v.words.take (v.itemBytes / 8)) (v.itemBytes / 8)

/-- An item's data. -/
def itemData (w : List Nat) : List Nat := (wordBytes (w.drop 1)).take (wd w 0 % 2 ^ 40)

/-- A record's item in the own pin of a slot. -/
def Dev.pinItem (d : Dev) (job slot n : Nat) : Option (List Nat) :=
  ((d.mir.ownPins.filter fun e => e.1 == slot && e.2.job == job).flatMap fun e => e.2.items).find? (fun i => i.1 == n) |>.map (·.2)

/-- The Stripe and correlated Mirror record bytes that this controller wrote as writer in the generation being cut (R429). -/
def Dev.snapBytes (d : Dev) (j : JobSt) (gen : Nat) : Nat :=
  match j.cut with
  | none => 0
  | some c =>
    if c.gen ≠ gen ∨ !c.written then 0
    else (((j.homed (d.cutTable j c) d.chip).map fun r =>
      if j.methodOf r.num = 1 then (Tab.getD c.data r.num []).length
      else if j.methodOf r.num = 2 ∧ recCorrelated (Tab.getD c.snap r.num []) then (((d.pinItem j.desc.job c.slot r.num).map itemData).getD []).length
      else 0).foldl (· + ·) 0)

/-- GENCOMMIT code 0 (R245): the generation is committed; a drill that waits for one of the job may start (R336); the bytes written for it are counted (R429). -/
def Dev.genCommit (d : Dev) (job step gen : Nat) : Dev :=
  match d.jobOf job with
  | none => d
  | some j =>
    if !j.undecided gen then d
    else
      let bytes := d.snapBytes j gen
      let d := d.genForward j step gen 0
      let d := d.onJob job fun j =>
        let j := { j with slots := j.slots.map fun (e : Nat × GenSt) => if e.2.gen = gen ∧ e.2.state = 3 then (e.1, { e.2 with state := 4 }) else e }
        if (j.cut.map CutSt.gen) = some gen then { j with cut := none, acc := j.acc.map fun (e : Nat × AccJob) => (e.1, { e.2 with cutAck := none }) } else j
      let d := if d.drill.phase = 1 ∧ d.drill.job = job ∧ d.drill.gen = 0 then { d with drill := { d.drill with gen := step } } else d
      ((d.incU Cnt.STP_CNT_GEN_COMMIT).addU Reg.DEV_SNAP_BYTES_bytes bytes).progLatch job gen

/-- GENCOMMIT code 1 (R245, R252). -/
def Dev.genAbort (d : Dev) (job step gen : Nat) : Dev :=
  match d.jobOf job with
  | none => d
  | some j => if !j.undecided gen then d else (d.genForward j step gen 1).discardGen job gen

/-! ### Cut (R239, R241) -/

/-- CUTREP goes up, or at the root decides (R241, R245); after a failed cut the next one is due at once (R252). -/
def Dev.cutReport (d : Dev) (j : JobSt) (c : CutSt) (code count : Nat) : Dev :=
  let d := d.onCut j.desc.job fun c => { c with reported := true }
  if d.isRoot j then
    if code = 0 then d.onJob j.desc.job fun j => { j with lastCut := c.step }
    else (d.onJob j.desc.job fun j => { j with recut := true, nextCut := c.step + 1 }).genAbort j.desc.job c.step c.gen
  else match d.stepParent j with
    | some p => d.send p 0x41 (d.coordBody j.desc.job c.step code c.gen count)
    | none => d

/-- The report leaves once every status of the tray and every child's report is there (R241). -/
def Dev.cutCheck (d : Dev) (job : Nat) : Dev :=
  match d.cutOf job with
  | none => d
  | some (j, c) =>
    let kids := d.stepChildren j
    if c.reported || !(j.acc.all fun e => e.2.cutAck.isSome) || !(kids.all fun k => (Tab.find k c.reps).isSome) then d
    else
      let taken := j.acc.all fun e => e.2.cutAck == some 0 || e.2.cutAck == some 1 || e.2.cutAck == some 3
      let ok := taken && c.reps.all fun r => r.2.1 == 0
      let count := j.acc.length + (c.pulling.filter fun a => (j.accOf a).isNone).length + (c.reps.map fun r => r.2.2).foldl (· + ·) 0
      d.cutReport j c (b2n (!ok)) count

/-- CUT leaves for the agents once COMMIT(S − 1) has (R239, R241). -/
def Dev.sendCuts (d : Dev) (job : Nat) : Dev :=
  match d.cutOf job with
  | none => d
  | some (j, c) =>
    if c.state ≠ 0 ∨ c.reported ∨ j.step ≠ c.step then d
    else
      let d := d.onCut job fun c => { c with state := 1 }
      j.agents.foldl (fun (d : Dev) a =>
        let mode := b2n (d.cutCopies c a)
        d.sendDown a 0x05 [word2 (c.step % 2 ^ 32) mode, c.step * 2 ^ 24]) d

/-- Three absent positions refuse a cut (R237): nothing of the rack's generations changes, and the root hears that the cut has failed. -/
def Dev.cutRefuse (d : Dev) (j : JobSt) (step gen : Nat) : Dev :=
  let d := d.raise Src.STP_stripe_refused
  match (if d.isRoot j then none else d.stepParent j) with
  | some p => d.send p 0x41 (d.coordBody j.desc.job step 1 gen 0)
  | none => d

/-- A controller takes up a cut for a step (R237, R239, R241): its slot is overwritten; three absent positions refuse it. -/
def Dev.cutBegin (d : Dev) (job step gen : Nat) (copy : Bool) : Dev :=
  match d.jobOf job with
  | none => d
  | some j =>
    if j.cut.isSome ∨ j.gate = 0 ∨ j.gate = 5 then d
    else if 3 ≤ ones18 d.absentSlots then d.cutRefuse j step gen
    else
      let s := j.nextSlot d.rack
      let absent := d.absentSlots
      let c : CutSt := ⟨step, gen, s, copy, 0, false, [], [], [], [], [], false, [], false, false, [], [], []⟩
      let d := (d.dropPins job s).setJob { j.setSlot d.rack s ⟨gen, step, 1, absent, 0, j.tableAt step, []⟩ with
        cut := some c, genCount := gen, deferred := false, recut := false, acc := j.acc.map fun (e : Nat × AccJob) => (e.1, { e.2 with cutAck := none }) }
      let d := d.incU Cnt.STP_CNT_CUTS
      (d.sendAll (d.stepChildren j) 0x40 (d.coordBody job step (b2n copy) gen 0)).sendCuts job

/-- The root's cut with the commit of S − 1 (R239): started when due and no generation is being written or sealed, else deferred. -/
def Dev.cutDue (d : Dev) (job step : Nat) : Dev :=
  match d.jobOf job with
  | none => d
  | some j =>
    if step < j.nextCut ∨ j.reg Reg.STP_CTRL_snap_en = 0 then d
    else if j.slots.any (fun e => e.2.state == 1 || e.2.state == 2 || (e.2.state == 3 && e.2.gen == j.genCount)) || j.cut.isSome then
      if j.deferred then d else (d.incE Cnt.STP_CNT_CUT_DEFER).setJob { j with deferred := true }
    else d.cutBegin job step (j.genCount + 1) (j.reg Reg.STP_CTRL_copy_pref == 1)

/-- cut_wait passes (R241, R252): the cut has failed unless it was reported. -/
def Dev.cutWait (d : Dev) (job : Nat) : Dev :=
  match d.cutOf job with
  | some (j, c) => if c.reported then d else d.cutReport j c 1 0
  | none => d

/-! ### Seal (R244, R245) -/

/-- The root takes a rack's seal report (R245). -/
def Dev.genRep (d : Dev) (job step gen code rack : Nat) : Dev :=
  match d.jobOf job with
  | none => d
  | some j =>
    if code ≠ 0 then d.genAbort job step gen
    else
      let d := d.onCut job fun c => if c.gen = gen then { c with racks := (c.racks ++ [rack]).eraseDups } else c
      match d.cutOf job with
      | some (_, c) => if c.gen = gen ∧ j.racks.all c.racks.contains then d.genCommit job step gen else d
      | none => d

/-- GENREP to the root (R244). -/
def Dev.sendGenRep (d : Dev) (j : JobSt) (step gen code : Nat) : Dev :=
  match d.rootOf j with
  | some r => if r = d.chip then d.genRep j.desc.job step gen code d.rack else d.send r 0x42 (d.coordBody j.desc.job step code gen 1)
  | none => d

/-- The commit record awaits its Clause (R244). -/
def Dev.sealGen (d : Dev) (job : Nat) : Dev :=
  match d.cutOf job with
  | none => d
  | some (j, c) =>
    let g := j.slot d.rack c.slot
    let tables := (j.homes (d.cutTable j c) d.rack).flatMap fun h => Tab.getD c.tables h []
    let crec := d.commitRecord j c g.absent tables
    let d := (d.onCut job fun c => { c with state := 4 }).onJob job fun j => j.setSlot d.rack c.slot { g with state := 2 }
    { d with mbr := { d.mbr with crecs := d.mbr.crecs ++ [crec] } }

/-- The seal leader hears that a home's extent is complete, or that it failed (R241, R244). -/
def Dev.extentIn (d : Dev) (job gen home : Nat) (failed : Bool) (tables : List Nat) : Dev :=
  match d.cutOf job with
  | none => d
  | some (j, c) =>
    if c.gen ≠ gen ∨ c.state = 4 then d
    else if failed then d.sendGenRep j c.step gen 1
    else
      let d := d.onCut job fun c => { c with tables := Tab.insert home tables (Tab.erase home c.tables) }
      match d.cutOf job with
      | some (j, c) => if (j.homes (d.cutTable j c) d.rack).all fun h => (Tab.find h c.tables).isSome then d.sealGen job else d
      | none => d

/-- The home reports its extent to the seal leader (R241; log entry 27). -/
def Dev.extentReport (d : Dev) (j : JobSt) (c : CutSt) (failed : Bool) : Dev :=
  if c.done then d
  else
    let d := d.onCut j.desc.job fun c => { c with done := true }
    let tables := Tab.getD c.tables d.chip []
    match d.sealLeader j d.rack with
    | some l =>
      if l = d.chip then d.extentIn j.desc.job c.gen d.chip failed tables
      else d.send l 0 ([d.jobWord j.desc.job, word2 c.gen (b2n failed)] ++ (if failed then [] else wordsOfBytes tables))
    | none => d

/-- The digests of the replicated Stripe records homed here (R242): none still waited for, and whether one differs. -/
def Dev.digestsOf (d : Dev) (j : JobSt) (c : CutSt) : Bool × List (RecDesc × List (Nat × Nat)) :=
  let table := d.cutTable j c
  let rs := (j.homed table d.chip).filter fun r => j.methodOf r.num == 1 && decide (2 ≤ r.holders.length)
  let got := rs.map fun r =>
    let w := (r.holdersIn table).min?.getD 0
    (r, (w, crc64 (Tab.getD c.data r.num [])) :: ((c.digests.filter fun e => e.1 == r.num && e.2.1 != w).map fun e => (e.2.1, e.2.2)))
  (got.all fun e => decide ((e.1.holdersIn table).length ≤ e.2.length), got)

/-- The minority of some replicas' digests: the decision table of R213. -/
def erring (ds : List (Nat × Nat)) : List Nat :=
  if ds.all fun e => e.2 == (ds.headD (0, 0)).2 then []
  else match ds.find? fun e => decide (ds.length < 2 * (ds.filter fun f => f.2 == e.2).length) with
    | some e => (ds.filter fun f => f.2 != e.2).map (·.1)
    | none => ds.map (·.1)

/-- Suspects of the own tray take the points of a verdict 0x7 (R210, R213, R315). -/
def Dev.suspectsPoints (d : Dev) (accs : List Nat) : Dev :=
  accs.foldl (fun (d : Dev) a => if a / 8 = d.chip then d.points (a % 8) 0 1000 else d) d

/-- An extent is complete when it is written, acknowledged, confirmed and pinned (R241, R242). -/
def Dev.extentCheck (d : Dev) (job : Nat) : Dev :=
  match d.cutOf job with
  | none => d
  | some (j, c) =>
    if !c.written ∨ c.done then d
    else
      let g := d.digestsOf j c
      if g.1 && g.2.any fun e => erring e.2 != [] then
        let d := g.2.foldl (fun (d : Dev) e => d.suspectsPoints (erring e.2)) d
        (d.raise Src.STP_replica_mismatch).extentReport j c true
      else if g.1 && c.units.isEmpty && c.pinAck then d.extentReport j c false
      else d

/-! ### Write (R241, R243) -/

/-- A unit is sent to its holder, or stored when that is this controller; a position that is absent is not written (R237, R243). -/
def Dev.sendUnit (d : Dev) (j : JobSt) (c : CutSt) (row role k : Nat) (bs : List Nat) : Dev :=
  let s := unitSlot row role k
  let dst := d.rack * 32 + s
  if bitAt s (j.slot d.rack c.slot).absent then d
  else if dst = d.chip then
    (if d.partState (row % 16) = 4 then d.onCut j.desc.job fun c => { c with units := c.units ++ [(row, role, k)] }
     else d.unitStore c.slot row bs)
  else
    let w1 := pack [(32, 32, c.gen), (31, 1, c.slot), (29, 2, role), (24, 5, k)]
    ((d.send dst 0x50 ([d.jobWord j.desc.job, w1, row] ++ wordsOf bs)).incU Cnt.STP_CNT_UNITS_SENT).onCut j.desc.job fun c =>
      { c with units := c.units ++ [(row, role, k)] }

/-- A row of the extent: its data units in order, then P and Q (R235, R241). -/
def Dev.sendRow (d : Dev) (j : JobSt) (c : CutSt) (row : Nat) (ds : List (Nat × List Nat)) : Dev :=
  let d := ds.foldl (fun (d : Dev) e => d.sendUnit j c row 0 e.1 e.2) d
  (d.sendUnit j c row 1 0 (parityP ds)).sendUnit j c row 2 0 (parityQ ds)

/-- The table units of the own extent as bytes (R233). -/
def Dev.tableBytes (d : Dev) (j : JobSt) (c : CutSt) : List Nat :=
  let es := (j.homed (d.cutTable j c) d.chip).flatMap fun r =>
    let w := Tab.getD c.snap r.num (d.flowRec r.num)
    let m := j.methodOf r.num
    let striped := m == 1 || (m == 2 && recCorrelated w)
    let digest := if m = 1 then crc64 (Tab.getD c.data r.num [])
      else if m = 2 then crc64 (wordBytes ((d.pinItem j.desc.job c.slot r.num).getD [])) else 0
    wordBytes (tableEntry w digest c.step striped)
  (unitsOf es).flatten

/-- The extent is written (R241 step 6); a home without all its data reports that it failed. -/
def Dev.writeExtent (d : Dev) (job : Nat) : Dev :=
  match d.cutOf job with
  | none => d
  | some (j, c) =>
    let table := d.cutTable j c
    if c.written then d
    else match (j.extents table d.rack).find? fun e => e.home == d.chip with
      | none =>
        let d := d.onCut job fun c => { c with written := true, done := true, state := 3 }
        if j.homes table d.rack = [] ∧ d.sealLeader j d.rack = some d.chip then d.sealGen job else d
      | some e =>
        let whole := (j.homed table d.chip).all fun r => j.methodOf r.num != 1 || (Tab.getD c.data r.num []).length == r.len
        let tables := d.tableBytes j c
        let d := d.onCut job fun c => { c with written := true, state := 3, tables := Tab.insert d.chip tables (Tab.erase d.chip c.tables) }
        if !whole then d.extentReport j c true
        else
          let content (u : Nat) : Option (List Nat) := match unitIs [e] u with
            | .table _ k => (unitsOf tables)[k]?
            | .data r k =>
              if j.methodOf r.num = 1 then (unitsOf (Tab.getD c.data r.num []))[k]?
              else if recCorrelated (Tab.getD c.snap r.num []) then
                ((d.pinItem job c.slot r.num).map itemData).bind fun bs => (unitsOf bs)[k]?
              else none
            | .padding => none
          let d := (List.range (e.units / 16)).foldl (fun (d : Dev) i =>
            let ds := (List.range 16).filterMap fun k => (content (e.first + 16 * i + k)).map fun b => (k, b)
            d.sendRow j c (j.row0 + e.first / 16 + i) ds) d
          d.extentCheck job

/-! ### Pull (R241, R242) -/

/-- Every pull of the tray is answered: the extent is written. -/
def Dev.pullsCheck (d : Dev) (job : Nat) : Dev :=
  match d.cutOf job with
  | some (j, c) => if c.pulls.isEmpty && j.acc.all fun e => c.pulling.contains e.1 then d.writeExtent job else d
  | none => d

/-- An agent's pulls are all answered: in hold mode it goes on (R241 step 5). -/
def Dev.pullsOf (d : Dev) (job a : Nat) : Dev :=
  match d.cutOf job with
  | none => d
  | some (j, c) =>
    if c.pulls.any fun p => p.1 == a then d
    else
      let ack := (j.accOf a).bind AccJob.cutAck
      let d := if (ack = some 0 ∨ ack = some 3) ∧ !j.standIns.contains a then d.resumeCut a c.step else d
      d.pullsCheck job

/-- The records of an accelerator to pull, each with its digest_only flag (R241 step 4). -/
def Dev.pullPlan (d : Dev) (j : JobSt) (c : CutSt) (a index : Nat) : List (Nat × Bool) :=
  let table := d.cutTable j c
  ((j.recsOf index).filter fun r => j.methodOf r.num == 1).map fun r =>
    let here := ((r.holdersIn table).filter fun h => h / 8 == d.chip).map (· % 8)
    (r.num, !(r.home table == some d.chip && here.min? == some a))

/-- The pulls of an agent start (R241 step 4), 512 records to a PULL (R169). -/
def Dev.startPulls (d : Dev) (job a : Nat) : Dev :=
  match d.cutOf job with
  | none => d
  | some (j, c) => match j.accOf a with
    | none => d
    | some x =>
      if c.pulling.contains a then d
      else
        let plan := d.pullPlan j c a x.index
        let d := d.onCut job fun c => { c with state := 2, pulling := c.pulling ++ [a], pulls := c.pulls ++ plan.map fun p => (a, p.1, p.2) }
        let d := (if x.standIn then [] else (chunksOf 512 (plan.length / 512 + 1) plan).filter (· != [])).foldl (fun (d : Dev) ps =>
          d.sendDown a 0x06 (ps.map fun p => p.1 * 2 ^ 40 + b2n p.2)) d
        d.pullsOf job a

/-- CUTACK (R241, R252): a status that is taken starts the pulls; an abandoned hold fails the extent. -/
def Dev.cutAckIn (d : Dev) (job a id status : Nat) : Dev :=
  match d.cutOf job with
  | none => d
  | some (j, c) =>
    if c.step % 2 ^ 32 ≠ id then d
    else
      let before := (j.accOf a).bind AccJob.cutAck
      let d := d.onAcc job a fun x => { x with cutAck := some status }
      if before.isSome then (if status = 5 then d.extentReport j c true else d)
      else if status = 0 ∨ status = 1 ∨ status = 3 then (d.cutCheck job).startPulls job a
      else d.cutCheck job

/-- Data pulled for a cut (R241): pieces in ascending offset; the last one, or an empty one, ends the record. -/
def Dev.cutShard (d : Dev) (job a n off : Nat) (data : List Nat) : Dev :=
  match d.cutOf job with
  | none => d
  | some (j, c) =>
    if !c.pulls.contains (a, n, false) then d
    else
      let bs := (Tab.getD c.data n []).take off ++ data
      let whole := data.isEmpty || (match j.recDesc n with | some r => decide (r.len ≤ bs.length) | none => true)
      let d := d.onCut job fun c =>
        { c with data := Tab.insert n bs (Tab.erase n c.data), pulls := if whole then c.pulls.filter (· != (a, n, false)) else c.pulls }
      if whole then d.pullsOf job a else d

/-- A digest of a cut reaches the record's home (R242). -/
def Dev.cutDigest (d : Dev) (job n acc digest : Nat) : Dev :=
  (d.onCut job fun c => { c with digests := (c.digests.filter fun e => !(e.1 == n && e.2.1 == acc)) ++ [(n, acc, digest)] }).extentCheck job

/-- A pair of a HASHES body (R212). -/
def hashPair (acc n digest : Nat) : List Nat := [n * 2 ^ 40 + acc / 8 * 65536 + acc % 8, digest]

/-- A digest goes to a record's home: its own cut, or HASHES with round 0xFF (R242). -/
def Dev.digestOut (d : Dev) (j : JobSt) (c : CutSt) (n acc digest : Nat) : Dev :=
  match (j.recDesc n).bind fun r => r.home (d.cutTable j c) with
  | some h =>
    if h = d.chip then d.cutDigest j.desc.job n acc digest
    else d.send h 0x3A ([d.jobWord j.desc.job, pack [(24, 40, c.step), (16, 8, 0xFF), (0, 16, 1)]] ++ hashPair acc n digest)
  | none => d

/-- DIGEST of a pull (R242); an empty one answers without a digest. -/
def Dev.digestIn (d : Dev) (job a n : Nat) (digest : Option Nat) : Dev :=
  match d.cutOf job with
  | none => d
  | some (j, c) =>
    if !c.pulls.contains (a, n, true) then d
    else
      let d := d.onCut job fun c => { c with pulls := c.pulls.filter (· != (a, n, true)) }
      let d := match digest with | some v => d.digestOut j c n (d.accId a) v | none => d
      d.pullsOf job a

/-! ### Holders (R243, R252) -/

/-- The words 0 to 2 of a unit's acknowledgement (R243). -/
def Dev.stripeAckBody (d : Dev) (job gen slot role k row result : Nat) : List Nat :=
  [d.jobWord job, pack [(32, 32, gen), (31, 1, slot), (29, 2, role), (24, 5, k), (16, 8, result)], row]

/-- A unit arrives at its holder (R243): stored and acknowledged, or refused. -/
def Dev.stripeStore (d : Dev) (src job gen slot role k row : Nat) (bs : List Nat) : Dev :=
  match d.jobOf job with
  | none => d.send src 0x51 (d.stripeAckBody job gen slot role k row 1)
  | some j =>
    let g := j.slot d.rack slot
    if j.newest d.rack = some slot ∨ (g.state ≥ 3 ∧ g.gen = gen) ∨ d.partState (row % 16) = 4 then
      d.send src 0x51 (d.stripeAckBody job gen slot role k row 1)
    else
      let d := if g.gen = gen then d else (d.dropPinsTo job slot g.step).setJob (j.setSlot d.rack slot ⟨gen, 0, 1, 0, 0, j.accs, []⟩)
      (d.unitStore slot row bs).send src 0x51 (d.stripeAckBody job gen slot role k row 0)

/-- A unit's acknowledgement reaches its writer (R241, R243). -/
def Dev.stripeAckIn (d : Dev) (job gen role k row result : Nat) : Dev :=
  match d.cutOf job with
  | none => d
  | some (j, c) =>
    if c.gen ≠ gen ∨ !c.units.contains (row, role, k) then d
    else if result ≠ 0 then d.extentReport j c true
    else (d.onCut job fun c => { c with units := c.units.filter (· != (row, role, k)) }).extentCheck job

/-- The pin of the cut is acknowledged (R241, R250). -/
def Dev.pinAck (d : Dev) (job step slot : Nat) : Dev :=
  let d := if d.get (Reg.MIR_PIN_step slot) = step ∧ d.flag (Reg.MIR_PIN_valid slot) then (d.put (Reg.MIR_PIN_partner_held slot) 1).settleSingle else d
  match d.cutOf job with
  | some (_, c) => if c.step = step then (d.onCut job fun c => { c with pinAck := true }).extentCheck job else d
  | none => d

/-- A position of the rack is lost while generations stand (R237, R252): absent for a write, one unit lost of a sealed one. -/
def Dev.positionLost (d : Dev) (chip : Nat) : Dev :=
  let s := chip % 32
  let d := { d with jobs := d.jobs.map fun (e : Nat × JobSt) =>
    (e.1, { e.2 with slots := e.2.slots.map fun (g : Nat × GenSt) =>
      if g.1 / 2 ≠ chip / 32 then g
      else if g.2.state = 1 ∨ g.2.state = 2 then (g.1, { g.2 with absent := setBit g.2.absent s })
      else (g.1, { g.2 with lost := setBit g.2.lost s }) }) }
  if chip / 32 ≠ d.rack then d
  else (d.jobs.map (·.1)).foldl (fun (d : Dev) job =>
    match d.cutOf job with
    | none => d
    | some (j, c) =>
      if 3 ≤ ones18 (j.slot d.rack c.slot).absent then (d.raise Src.STP_stripe_refused).extentReport j c true
      else (d.onCut job fun c => { c with units := c.units.filter fun u => unitSlot u.1 u.2.1 u.2.2 != s }).extentCheck job) d

/-- A commit record that a rack's Clause has sealed (R244): kept, and reported by the seal leader. What a generation already known has
lost since, it has lost. -/
def Dev.sealed (d : Dev) (crec : List Nat) (rack : Nat) : Dev :=
  let job := bits 32 32 (wd crec 0)
  let gen := bits 0 32 (wd crec 0)
  let step := bits 24 40 (wd crec 1)
  let s := bits 23 1 (wd crec 1)
  let absent := 2 ^ 18 - 1 - bits 0 18 (wd crec 1)
  match d.jobOf job with
  | none => d
  | some j =>
    let g := j.slot rack s
    let table := if g.gen = gen ∧ g.step = step then g.table else j.tableAt step
    let g' : GenSt := if g.gen = gen then ⟨gen, step, max 3 g.state, absent, g.lost, table, crec⟩ else ⟨gen, step, 3, absent, 0, table, crec⟩
    let d := d.setJob { j.setSlot rack s g' with genCount := max gen j.genCount }
    let d := if rack = d.rack ∧ absent ≠ 0 then d.raise Src.STP_stripe_degraded else d
    if rack = d.rack ∧ d.sealLeader j rack = some d.chip then d.sendGenRep j step gen 0 else d

/-- The epoch has changed before a Clause sealed a rack's generation (R244, R252). -/
def Dev.unsealed (d : Dev) (crec : List Nat) : Dev :=
  let job := bits 32 32 (wd crec 0)
  let gen := bits 0 32 (wd crec 0)
  match d.jobOf job with
  | some j => (d.sendGenRep j (bits 24 40 (wd crec 1)) gen 1).discardGen job gen
  | none => d

/-- The part of a step's commit that a cut has (R241 step 3): at COMMIT(S) the records are kept as they stand and the pins are made. -/
def Dev.cutCommit (d : Dev) (job step : Nat) : Dev :=
  match d.cutOf job with
  | none => d
  | some (j, c) =>
    if c.step ≠ step ∨ c.reported then d
    else
      let snap := (j.homed (d.cutTable j c) d.chip).map fun r => (r.num, d.flowRec r.num)
      let d := d.onCut job fun c => { c with snap := snap, pinAck := d.partner.isNone }
      d.pinOwn job step c.slot

end Sys2Proof.Machine
end

