-- ==== Sys2Proof/Machine/Restore.lean ====
section
/-! DEFINITION. Stand-ins as memory of their records (R327 to R329), and restore (R255 to R257): choice, request, reading and rebuilding
units, applying them and reporting. -/

namespace Sys2Proof.Machine

/-! ### Stand-ins -/

/-- A stand-in slot. -/
def Dev.standSt (d : Dev) (s : Nat) : StandSt := Tab.getD d.stand s StandSt.none

/-- A stand-in slot set. -/
def Dev.setStand (d : Dev) (s : Nat) (x : StandSt) : Dev := { d with stand := Tab.set d.stand s StandSt.none x }

/-- The slot that stands in for an accelerator of the tray. -/
def Dev.standOf (d : Dev) (a : Nat) : Option Nat :=
  (List.range 2).find? fun s => decide (2 ≤ (d.standSt s).state) && (d.standSt s).acc == a

/-- A 64-bit word of a context. -/
def Dev.ctxWord (d : Dev) (c a : Nat) : Nat := leNat ((List.range 8).map fun i => BitVec.ofNat 8 (d.ctxRead c (a + i)))

/-- A record's place in a stand-in's shard map (R181, R327): context address and length. -/
def Dev.standMap (d : Dev) (x : StandSt) (n : Nat) : Option (Nat × Nat) :=
  ((List.range x.prog.mapCount).find? fun i => bits 40 24 (d.ctxWord x.ctx (x.prog.map_ + 16 * i + 8)) == n).map fun i =>
    (d.ctxWord x.ctx (x.prog.map_ + 16 * i), bits 0 38 (d.ctxWord x.ctx (x.prog.map_ + 16 * i + 8)))

/-- A record's bytes in a stand-in. -/
def Dev.standRead (d : Dev) (x : StandSt) (n : Nat) : List Nat :=
  match d.standMap x n with
  | some m => (List.range m.2).map fun i => d.ctxRead x.ctx (m.1 + i)
  | none => []

/-- A record's bytes written into a stand-in (R328 step 4). -/
def Dev.standWrite (d : Dev) (x : StandSt) (n : Nat) (bs : List Nat) : Dev :=
  match d.standMap x n with
  | some m => d.ctxWrites x.ctx (placeBytes m.1 (bs.take m.2))
  | none => d

/-- A descriptor list of a stand-in is submitted (R329): it runs on the lowest free thread of its context (log entry 29). -/
def Dev.standSubmit (d : Dev) (x : StandSt) (list count : Nat) : Dev :=
  let ks := (List.range 32).flatMap fun cl => ((List.range 256).filter fun th => d.mayStart x.ctx cl th).map fun th => threadKey cl th
  match ks.head? with
  | some k =>
    let ls := (List.range (8 * count)).map fun i => d.ctxWord x.ctx (list + 8 * i)
    d.startThread k x.ctx (some list) (chunksOf 8 (8 * count) ls) 0 0 false
  | none => d

/-- The step list of a slot starts for a step (R327, R329): the step word first. -/
def Dev.standStep (d : Dev) (s step : Nat) : Dev :=
  let x := { d.standSt s with step := step, updating := false, state := 3, began := d.nowUs, redo := false }
  let d := (d.setStand s x).ctxWrites x.ctx (placeBytes 0x40 (leBytes 8 step))
  d.standSubmit x x.prog.stepList x.prog.stepCount

/-- A step list that a partition's safe state or reset ended is submitted again with the same step word, once a thread is free (R369). -/
def Dev.standAgain (d : Dev) (s : Nat) : Dev :=
  let x := d.standSt s
  if x.state = 3 ∧ x.redo ∧ !x.updating ∧ d.threadsOf x.ctx = [] then
    let e := d.standStep s x.step
    if e.threadsOf x.ctx = [] then d else e
  else d

/-- Every running command of a stand-in is aborted (R329). -/
def Dev.standAbort (d : Dev) (s : Nat) : Dev := d.endCommands 0x0B (d.threadsOf (d.standSt s).ctx)

/-- A stand-in is over: its context is destroyed and its slot is free (R97, R314, R334). -/
def Dev.standEnd (d : Dev) (s : Nat) : Dev :=
  let x := d.standSt s
  let d := if x.state = 3 ∨ x.state = 4 ∨ x.state = 2 then d.ctxDestroy x.ctx else d
  d.setStand s { StandSt.none with reason := x.reason }

/-! ### The choice of the step (R255) -/

/-- The steps with a sealed generation in some rack, newest first. -/
def JobSt.sealedSteps (j : JobSt) : List Nat :=
  (((j.slots.filter fun e => decide (3 ≤ e.2.state)).map fun e => e.2.step).eraseDups).mergeSort fun a b => decide (b ≤ a)

/-- The newest step that a job is known to have sealed. -/
def JobSt.knownStep (j : JobSt) : Nat := (j.sealedSteps.head?).getD 0

/-- A rack's generation of a step. -/
def JobSt.genOf (j : JobSt) (rack step : Nat) : Option (Nat × GenSt) :=
  ((List.range 2).find? fun s => (j.slot rack s).step == step && decide (3 ≤ (j.slot rack s).state)).map fun s => (s, j.slot rack s)

/-- The generation number of a step in the own rack, as restore coordination names it (R240). -/
def Dev.genNumber (d : Dev) (j : JobSt) (step : Nat) : Nat := ((j.genOf d.rack step).map fun e => e.2.gen).getD 0

/-- A controller still has its copy of a home's pin (R250, R255): the own copies are looked at; another's is there while it has not been lost
since the cut. -/
def Dev.keepsPin (d : Dev) (j : JobSt) (g : GenSt) (home c : Nat) : Bool :=
  let has (l : List (Nat × Version)) : Bool := l.any fun e => e.2.src == home && e.2.job == j.desc.job && e.2.step == g.step
  if c = d.chip then has (if home = d.chip then d.mir.ownPins else d.mir.pins) else d.live c && !bitAt (c % 32) g.lost

/-- Every Mirror record of a rack has a surviving pin copy or was striped (R255): the home's or its partner's. Of another rack the root knows
no pairing: one lost position leaves a copy, two may not (log entry 28). -/
def Dev.pinsHeld (d : Dev) (j : JobSt) (g : GenSt) (rack : Nat) : Bool :=
  (j.homes g.table rack).all fun h =>
    let mirrors := (j.homed g.table h).any fun r => j.methodOf r.num == 2
    !mirrors || d.keepsPin j g h h ||
      (if rack = d.rack then (match Tab.find h d.mir.pairs with | some p => d.keepsPin j g h p | none => true) else decide (ones18 g.lost ≤ 1))

/-- A step is a candidate (R255). -/
def Dev.candidate (d : Dev) (j : JobSt) (step : Nat) : Bool :=
  !j.rest.excluded.contains step && j.racks.all fun r => match j.genOf r step with
    | some (_, g) => j.rowsHeld g r && d.pinsHeld j g r
    | none => false

/-- The restore step M (R255). -/
def Dev.restoreStep (d : Dev) (j : JobSt) : Option Nat := j.sealedSteps.find? (d.candidate j)

/-! ### Units on their way (R236, R256) -/

/-- The key of a unit among those received. -/
def unitKey (rack row k : Nat) : Nat := rack * 2 ^ 40 + row * 16 + k

/-- A job's restore changed by a function. -/
def Dev.onRest (d : Dev) (job : Nat) (f : RestSt → RestSt) : Dev := d.onJob job fun j => { j with rest := f j.rest }

/-- The controllers that consume a unit: those whose accelerators hold a replica of its record, or of a record of its table (R256). -/
def JobSt.consumers (j : JobSt) (table : List Nat) : UnitIs → List Nat
  | .table home k => chipsOf ((((j.homed table home).drop (512 * k)).take 512).flatMap fun r => r.holdersIn j.accs)
  | .data r _ => chipsOf (r.holdersIn j.accs)
  | .padding => []

/-- The first row of a generation in its rack. -/
def GenSt.row0 (g : GenSt) : Nat := bits 32 32 (wd g.crec 3)

/-- The lost units of a row, those found bad among them. -/
def JobSt.rowLost (j : JobSt) (g : GenSt) (rack row : Nat) : List (Nat × Nat) :=
  let m := g.absent ||| g.lost
  (rowUnits (j.extents g.table rack) (row - g.row0)).filter fun u =>
    let s := unitSlot row u.1 u.2
    bitAt s m || j.rest.bad.contains (row, s)

/-- The tray slot that rebuilds a row (R256): its P holder, else its Q holder, else the lowest slot that holds a unit of it. -/
def JobSt.rebuilder (j : JobSt) (g : GenSt) (rack row : Nat) : Option Nat :=
  let lost := j.rowLost g rack row
  if !lost.contains (1, 0) then some (unitSlot row 1 0)
  else if !lost.contains (2, 0) then some (unitSlot row 2 0)
  else (((rowUnits (j.extents g.table rack) (row - g.row0)).filter fun u => !lost.contains u).map fun u => unitSlot row u.1 u.2).min?

/-- A unit is kept for this controller's own records (R256 step 5). -/
def Dev.restUnit (d : Dev) (job rack row k : Nat) (bs : List Nat) : Dev :=
  d.onRest job fun r => { r with units := Tab.insert (unitKey rack row k) bs (Tab.erase (unitKey rack row k) r.units) }

/-- A data unit is delivered to every controller that consumes it (R256 step 3). -/
def Dev.deliver (d : Dev) (j : JobSt) (g : GenSt) (s row k : Nat) (bs : List Nat) : Dev :=
  let u := unitIs (j.extents g.table d.rack) ((row - g.row0) * 16 + k)
  (j.consumers g.table u).foldl (fun (d : Dev) c =>
    if c = d.chip then d.restUnit j.desc.job d.rack row k bs
    else (d.send c 0x50 ([d.jobWord j.desc.job, pack [(32, 32, g.gen), (31, 1, s), (29, 2, 3), (24, 5, k)], row] ++ wordsOf bs)).incU Cnt.STP_CNT_UNITS_SENT) d

/-- The rebuilder of a row has what survives (R236, R256 step 4): the lost data units go on as their holders would have sent them. -/
def Dev.rebuildRow (d : Dev) (job row : Nat) : Dev :=
  match d.jobOf job with
  | none => d
  | some j => match j.genOf d.rack j.rest.step with
    | none => d
    | some (s, g) =>
      let lost := j.rowLost g d.rack row
      let have_ (u : Nat × Nat) : Option (List Nat) := Tab.find (row * 32 + unitSlot row u.1 u.2) j.rest.survivors
      let alive := (rowUnits (j.extents g.table d.rack) (row - g.row0)).filter fun u => !lost.contains u
      if !(alive.all fun u => (have_ u).isSome) then d
      else
        let ds := alive.filterMap fun u => if u.1 = 0 then (have_ u).map fun b => (u.2, b) else none
        let gone := (lost.filter fun u => u.1 == 0).map (·.2)
        match rebuild ds (have_ (1, 0)) (have_ (2, 0)) gone with
        | some us => us.foldl (fun (d : Dev) u => (d.deliver j g s row u.1 u.2).incU Cnt.STP_CNT_UNITS_REBUILT) d
        | none => d.onRest job fun r => { r with failed := true }

/-- A surviving unit of a row reaches its rebuilder. -/
def Dev.restSurvivor (d : Dev) (job row slot : Nat) (bs : List Nat) : Dev :=
  (d.onRest job fun r => { r with survivors := Tab.insert (row * 32 + slot) bs (Tab.erase (row * 32 + slot) r.survivors) }).rebuildRow job row

/-- A unit that survives is sent to the row's rebuilder, with its own role (log entry 30). -/
def Dev.toRebuilder (d : Dev) (j : JobSt) (g : GenSt) (s row : Nat) (u : Nat × Nat) (bs : List Nat) : Dev :=
  match j.rebuilder g d.rack row with
  | none => d
  | some t =>
    let c := d.rack * 32 + t
    if c = d.chip then d.restSurvivor j.desc.job row (unitSlot row u.1 u.2) bs
    else (d.send c 0x50 ([d.jobWord j.desc.job, pack [(32, 32, g.gen), (31, 1, s), (29, 2, u.1), (24, 5, u.2)], row] ++ wordsOf bs)).incU Cnt.STP_CNT_UNITS_SENT

/-- A unit of this holder cannot be read (R257): it counts as lost, and the rack is told by a refused acknowledgement of it (log entry
30). -/
def Dev.badUnit (d : Dev) (j : JobSt) (g : GenSt) (s row : Nat) (u : Nat × Nat) : Dev :=
  let job := j.desc.job
  let d := d.onRest job fun r => { r with bad := (r.bad ++ [(row, d.chip % 32)]).eraseDups }
  d.send d.rackBroadcast 0x51 (d.stripeAckBody job g.gen s u.1 u.2 row 1)

/-- This holder's unit of a row is read and sent (R256 step 3). -/
def Dev.readRow (d : Dev) (job s row : Nat) (bad : Bool) : Dev :=
  match d.jobOf job with
  | none => d
  | some j =>
    let g := j.slot d.rack s
    let u := slotUnit row (d.chip % 32)
    if !(rowUnits (j.extents g.table d.rack) (row - g.row0)).contains u ∨ bitAt (d.chip % 32) (g.absent ||| g.lost) then d
    else match (if bad then none else d.unitRead s row) with
      | none => d.badUnit j g s row u
      | some bs =>
        let d := if u.1 = 0 then d.deliver j g s row u.2 bs else d
        if (j.rowLost g d.rack row).any fun l => l.1 == 0 then d.toRebuilder j g s row u bs else d

/-- A holder says that its unit of a row is lost (R257): the own unit goes to the row's rebuilder; more than two exclude the step. -/
def Dev.unitLost (d : Dev) (job row slot : Nat) : Dev :=
  match d.jobOf job with
  | none => d
  | some j =>
    let d := d.onRest job fun r => { r with bad := (r.bad ++ [(row, slot)]).eraseDups }
    match d.jobOf job, j.genOf d.rack j.rest.step with
    | some j, some (s, g) =>
      let u := slotUnit row (d.chip % 32)
      if 2 < (j.rowLost g d.rack row).length then d.onRest job fun r => { r with failed := true }
      else if (j.rowLost g d.rack row).any (fun l => l.1 == 0) && (rowUnits (j.extents g.table d.rack) (row - g.row0)).contains u then
        match d.unitRead s row with
        | some bs => d.toRebuilder j g s row u bs
        | none => d
      else d
    | _, _ => d

/-! ### Apply and report (R256 steps 5 and 6) -/

/-- RESTDONE goes up the tree once this controller and its children have finished; the answer at the root is taken there. -/
def Dev.restReport (d : Dev) (j : JobSt) : Dev :=
  let r := j.rest
  let kids := d.stepChildren j
  if r.reported || d.isRoot j || !r.applied || !r.waiting.isEmpty || !(kids.all fun k => (Tab.find k r.dones).isSome) then d
  else
    let code := b2n (r.failed || r.dones.any fun e => e.2.1 != 0)
    let d := d.onRest j.desc.job fun r => { r with reported := true }
    match d.stepParent j with
    | some p => d.send p 0x45 (d.coordBody j.desc.job r.step code (d.genNumber j r.step) (1 + (r.dones.map fun e => e.2.2).foldl (· + ·) 0))
    | none => d

/-- The bytes of units given one after another; none while one lacks. -/
def allUnits (units : Tab (List Nat)) (keys : List Nat) : Option (List Nat) :=
  if keys.all fun k => (Tab.find k units).isSome then some (keys.flatMap fun k => Tab.getD units k []) else none

/-- A record as a restore finds it: its table entry, and its data as an item or as bytes; none while something lacks. -/
def Dev.restRecord (d : Dev) (j : JobSt) (r : RecDesc) : Option (List Nat × Option (List Nat)) :=
  match j.sealedSteps.find? (· == j.rest.step) with
  | none => none
  | some m =>
    let table := ((j.genOf d.rack m).map fun e => e.2.table).getD j.accs
    match r.home table with
    | none => none
    | some h => match j.genOf (h / 32) m with
      | none => none
      | some (_, g) =>
        match (j.extents g.table (h / 32)).find? fun e => e.home == h with
        | none => none
        | some e =>
          let key (u : Nat) : Nat := unitKey (h / 32) (g.row0 + u / 16) (u % 16)
          let i := (j.homed g.table h).findIdx fun x => x.num == r.num
          match Tab.find (key (e.first + i / 512)) j.rest.units with
          | none => none
          | some t =>
            let ent := entryAt t (i % 512)
            match e.segs.find? fun s => s.1.num == r.num with
            | none => some (ent, none)
            | some s =>
              if bitAt 0 (wd ent 9) then
                (allUnits j.rest.units ((List.range s.2.2).map fun k => key (s.2.1 + k))).map fun bs => (ent, some (bs.take r.len))
              else
                let vs := (d.mir.ownPins.filter fun p => p.2.job == j.desc.job && p.2.step == m).map (·.2) ++
                  (d.mir.pins.filter fun p => p.2.job == j.desc.job && p.2.step == m).map (·.2) ++ j.rest.pins
                ((vs.flatMap Version.items).find? fun it => it.1 == r.num).map fun it => (ent, some it.2)

/-- The data of a restored record and whether its digest holds (R233, R256 step 5): of a Stripe record over its data, of a Mirror record over
its item, also when it was striped. -/
def restData (striped : Bool) (ent : List Nat) (x : List Nat) (n method : Nat) : List Nat × Bool :=
  if !striped then (itemData x, crc64 (wordBytes x) == wd ent 8)
  else if method = 2 then (x, crc64 (wordBytes ((n * 2 ^ 40 + x.length) :: wordsOfBytes x)) == wd ent 8)
  else (x, crc64 x == wd ent 8)

/-- A record's data as SHARD messages to an agent (R184), whose acknowledgements the restore waits for. -/
def Dev.shardOut (d : Dev) (job a n : Nat) (bs : List Nat) : Dev :=
  (((chunksOf (2 ^ 21) (bs.length / 2 ^ 21 + 1) bs).filter (· != [])).zipIdx).foldl (fun (d : Dev) c =>
    let seq := (d.aport a).downSeq
    (d.sendDown a 0x08 ([shardWord n (c.2 * 2 ^ 21), c.1.length] ++ wordsOfBytes c.1)).onRest job fun r => { r with waiting := r.waiting ++ [(a, seq)] }) d

/-- A record is applied: history and exponent from its entry, data to every agent and stand-in here that holds it (R229, R256). -/
def Dev.restApplyRec (d : Dev) (j : JobSt) (r : RecDesc) (ent : List Nat) (x : Option (List Nat)) : Dev :=
  let w := d.flowRec r.num
  let e := bits 10 8 (wd ent 3)
  let w3 := wd w 3
  let d := d.setFlow r.num (some (w.take 3 ++ [w3 - bits 10 8 w3 * 2 ^ 10 + e * 2 ^ 10] ++ (List.range 4).map fun i => wd ent (4 + i)))
  match x with
  | none => d
  | some x =>
    let o := restData (bitAt 0 (wd ent 9)) ent x r.num (j.methodOf r.num)
    let d := if o.2 then d else (d.raise Src.STP_restore_digest).onRest j.desc.job fun r => { r with failed := true }
    (j.acc.filter fun e => r.holders.contains e.2.index).foldl (fun (d : Dev) e =>
      if e.2.standIn then match d.standOf e.1 with
        | some s => d.standWrite (d.standSt s) r.num o.1
        | none => d
      else d.shardOut j.desc.job e.1 r.num o.1) d

/-- Once everything its records need has arrived, a controller applies it (R256 step 5). -/
def Dev.restCheck (d : Dev) (job : Nat) : Dev :=
  match d.jobOf job with
  | none => d
  | some j =>
    if !j.rest.active then d
    else if j.rest.applied then d.restReport j
    else
      let rs := j.desc.recs.filter fun r => j.acc.any fun e => r.holders.contains e.2.index
      let got := rs.map fun r => (r, d.restRecord j r)
      if !j.rest.failed && got.any fun e => e.2.isNone then d
      else
        let d := got.foldl (fun (d : Dev) e => match e.2 with | some o => d.restApplyRec j e.1 o.1 o.2 | none => d) d
        let d := d.onRest job fun r => { r with applied := true }
        match d.jobOf job with | some j => d.restReport j | none => d

/-- Pins that this partner holds go to the controller that now serves the source's index (R256; RESTREQ is the request, log entry 30). -/
def Dev.pinsOut (d : Dev) (j : JobSt) (m : Nat) : Dev :=
  let table := ((j.genOf d.rack m).map fun e => e.2.table).getD j.accs
  (d.mir.pins.filter fun p => p.2.job == j.desc.job && p.2.step == m).foldl (fun (d : Dev) p =>
    match (table.zipIdx.find? fun e => e.1 == p.2.src * 8 + p.2.acc).bind fun e => j.accs[e.2]? with
    | some now => if now / 8 = d.chip then d else d.send (now / 8) 0x52 (d.versionBody p.2)
    | none => d) d

/-- A handover that a restore meets is over: the spare is the consumer, the stand-in's context is destroyed (R334; log entry 53). -/
def Dev.handoversOver (d : Dev) (job : Nat) : Dev :=
  (List.range 2).foldl (fun (d : Dev) s => if (d.standSt s).state = 4 ∧ (d.standSt s).job = job then d.standEnd s else d) d

/-- RESTREQ acts on a controller of the rack (R256 steps 1 to 3): bad names the rows whose own unit fails its ECC. -/
def Dev.restBegin (d : Dev) (job step : Nat) (bad : List Nat) : Dev :=
  match d.jobOf job with
  | none => d
  | some j =>
    let body := d.coordBody job step 0 (d.genNumber j step) 0
    let d := d.sendAll (d.stepChildren j) 0x44 body
    let d := if d.sealLeader j d.rack = some d.chip then d.send d.rackBroadcast 0x44 body else d
    let d := match j.cut with | some c => d.discardGen job c.gen | none => d
    let s := ((j.genOf d.rack step).map (·.1)).getD 0
    let d := d.onJob job fun j =>
      { j with rest := { RestSt.none with step := step, slot := s, active := true, excluded := j.rest.excluded }, gate := if j.gate = 0 then 0 else 5
               restResult := 1, taking := [] }
    let d := d.handoversOver job
    let d := j.agents.foldl (fun (d : Dev) a => d.sendDown a 0x07 [step * 2 ^ 24]) d
    let d := j.standIns.foldl (fun (d : Dev) a => match d.standOf a with
      | some s => (d.standAbort s).setStand s { d.standSt s with state := 2, updating := false }
      | none => d) d
    let d := match d.jobOf job, j.genOf d.rack step with
      | some j, some (s, g) =>
        (List.range (j.rowsIn g.table d.rack)).foldl (fun (d : Dev) i => d.readRow job s (g.row0 + i) (bad.contains (g.row0 + i))) (d.pinsOut j step)
      | _, _ => d
    d.restCheck job

/-- The root starts a restore, or finds no step (R255, R256 step 1); which of its own units fail their ECC is free (R257; log entry 54). -/
def Dev.restStart (d : Dev) (job : Nat) : Dev :=
  match d.jobOf job with
  | none => d
  | some j => match d.restoreStep j with
    | none => (d.setJob { j with restResult := 3, rest := { j.rest with active := false } }).raise Src.STP_restore_incomplete
    | some m =>
      let bad := Config.badRows d.fresh
      (d.tick.setJob { j with tried := (if j.rest.excluded = [] then 0 else j.tried) + 1 }).restBegin job m bad

/-- A shard's acknowledgement (R256 step 6). -/
def Dev.shardAcked (d : Dev) (a seq : Nat) : Dev :=
  match d.jobOfAcc a with
  | none => d
  | some j =>
    if j.rest.waiting.contains (a, seq) then
      (d.onRest j.desc.job fun r => { r with waiting := r.waiting.filter (· != (a, seq)) }).restCheck j.desc.job
    else d

/-! ### The end (R256 step 7) -/

/-- RESTCOMMIT on a controller: newer generations and versions go, agents and stand-ins resume at the next step (R256, R329). -/
def Dev.restEnd (d : Dev) (job step : Nat) : Dev :=
  match d.jobOf job with
  | none => d
  | some j =>
    if !j.rest.active ∨ j.rest.step ≠ step then d
    else
      let body := d.coordBody job step 0 (d.genNumber j step) 0
      let d := d.sendAll (d.stepChildren j) 0x46 body
      let d := if d.sealLeader j d.rack = some d.chip then d.send d.rackBroadcast 0x46 body else d
      let newer_ := (j.slots.filter fun e => e.1 / 2 == d.rack && decide (step < e.2.step) && e.2.state != 0).map fun e => e.2.gen
      let d := newer_.foldl (fun (d : Dev) g => d.discardGen job g) d
      let old (v : Version) : Bool := v.job != job || decide (v.step ≤ step)
      let m := { d.mir with ring := d.mir.ring.filter old, own := d.mir.own.filter old, waiting := d.mir.waiting.filter old
                            acked := d.mir.acked.filter old }
      let d := { d with mir := m }.showHosted.showNewest
      let d := d.tenseBack job (step + 1) 0
      let lastStep := j.step - 1
      let gen := ((j.genOf d.rack step).map fun e => e.2.gen).getD 0
      let root := d.isRoot j
      let p := d.predOf job j.desc.pred
      let d := d.onJob job fun j =>
        { j with rest := { RestSt.none with step := step }, restResult := 2, gate := if j.acc = [] then 0 else 1, step := step + 1, round := 0, reports := [], seeds := []
                 whole := false, decided := false, hashes := [], heard := [], lastCut := step, cut := none, deferred := false, recut := false, pstep := p
                 slots := j.slots.filter fun e => decide (e.2.step ≤ step)
                 moves := j.moves.map fun m => (min m.1 step, m.2)
                 acc := j.acc.map fun (e : Nat × AccJob) => (e.1, { e.2.clean 0 with lags := [], replayHeld := none, replaySeq := none, cutAck := none }) }
      let d := j.agents.foldl (fun (d : Dev) a => d.sendResume job a step) d
      let d := j.standIns.foldl (fun (d : Dev) a => match d.standOf a with | some s => d.standStep s (step + 1) | none => d) d
      if root then ((d.progLost job gen (lastStep - step) p).progResume job) else d

/-- The root looks at the reports (R256 steps 7 and 8): commit, or the next candidate. -/
def Dev.restDecide (d : Dev) (job : Nat) : Dev :=
  match d.jobOf job with
  | none => d
  | some j =>
    let r := j.rest
    let kids := d.stepChildren j
    if !r.active || !d.isRoot j || !r.applied || !r.waiting.isEmpty || !(kids.all fun k => (Tab.find k r.dones).isSome) then d
    else if r.failed || r.dones.any fun e => e.2.1 != 0 then
      (d.onRest job fun r => { r with active := false, excluded := r.excluded ++ [r.step] }).restStart job
    else d.restEnd job r.step

/-- A child's RESTDONE (R256 step 6). -/
def Dev.restDone (d : Dev) (job step src code count : Nat) : Dev :=
  match d.jobOf job with
  | none => d
  | some j =>
    if !j.rest.active ∨ j.rest.step ≠ step ∨ (Tab.find src j.rest.dones).isSome then d
    else (d.onRest job fun r => { r with dones := Tab.insert src (code, count) r.dones }).restCheck job |>.restDecide job

end Sys2Proof.Machine
end

