-- ==== Sys2Proof/Machine/Appo.lean ====
section
/-! DEFINITION. Spares and adoption (R319 to R325), entering and running Apposition (R326 to R331), collective exchange (R332, R333)
and handing over (R334). -/

namespace Sys2Proof.Machine

/-! ### Declarations (R129, R132, R192) -/

/-- The profile entry of a declaration: four to an accelerator from entry 16 on (log entry 32). -/
def declEntry (a n : Nat) : Nat := 16 + 4 * a + n

/-- What a declaration installs (R132): none when it is refused. One whose every field is expressible is bit-exact, whatever mode it asks
for. w2 names behaviour that the fields cannot express; the nearest fields are the clamped ones, rounding code 3 as 0 (log entry 32). -/
def declInstall (w0 w1 w2 : Nat) : Option (Nat × Nat) :=
  if bits 0 4 w2 = 0 && !profileOutOfRange w0 w1 then some (profMask0 w0, bits 0 62 (profMask1 w1) + 2 ^ 62)
  else if bits 62 2 w1 ≠ 2 then none
  else
    let c0 := pack [(40, 24, bits 40 24 w0), (32, 4, max 4 (min 6 (bits 32 4 w0))), (30, 2, min 1 (bits 30 2 w0)),
      (28, 2, bits 28 2 w0 % 3), (26, 2, bits 26 2 w0 % 3), (19, 7, bits 19 7 w0)]
    some (c0, profMask1 w1 - bits 13 3 (profMask1 w1) * 2 ^ 13)

/-- The declarations that are present: index and words 0 to 3 (R192). -/
def declsOf (ws : List Nat) : List (Nat × List Nat) :=
  ((List.range 4).map fun n => (n, (ws.drop (4 * n)).take 4)).filter fun e => bits 62 2 (wd e.2 1) % 3 != 0

/-- Every declaration of an agent can be installed (R132, R324 step 3). -/
def Dev.declsOk (d : Dev) (a : Nat) : Bool :=
  (declsOf (d.aport a).decl).all fun e => (declInstall (wd e.2 0) (wd e.2 1) (wd e.2 2)).isSome

/-- A coefficient table goes to the lowest set of 1 to 5 that is not valid, unless a valid one holds it already (R153). -/
def Dev.declSet (d : Dev) (table : List Nat) : Dev :=
  let same (set : Nat) : Bool := bitAt set d.coefValid && (table.zipIdx).all fun e => Tab.getD d.comp.coef (set * 2048 + e.2) 0 == e.1
  if [1, 2, 3, 4, 5].any same then d
  else match [1, 2, 3, 4, 5].find? fun set => !bitAt set d.coefValid with
    | some set =>
      let coef := (table.zipIdx).foldl (fun (t : Tab Nat) e => Tab.set t (set * 2048 + e.2) 0 (if e.2 % 2 = 1 then e.1 % 2 ^ 32 else e.1)) d.comp.coef
      { d with comp := { d.comp with coef := coef } }.setBitOf (Reg.VEC_COEF_STATUS_valid 0) set
    | none => d

/-- A declaration's entry and its mode in the health record (R129, R132): what it installs, or, refused, none. -/
def Dev.putDecl (d : Dev) (a n : Nat) (w : Option (Nat × Nat)) : Dev :=
  let h := d.healthOf a
  let mode := match w with | some w => bits 62 2 w.2 | none => 0
  let d := { d with health := Tab.set d.health a Health.reset { h with modes := h.modes - bits (2 * n) 2 h.modes * 2 ^ (2 * n) + mode * 2 ^ (2 * n) } }
  match w with
  | some w => d.setProfile (declEntry a n) w.1 w.2 1
  | none => { d with comp := { d.comp with profiles := Tab.erase (declEntry a n) d.comp.profiles } }

/-- A declaration of an agent that cannot be installed raises decl_refused (R132); what an earlier one left is gone unless a job names
it (R129). -/
def Dev.checkDecls (d : Dev) (a : Nat) : Dev :=
  let bad := (declsOf (d.aport a).decl).filter fun e => (declInstall (wd e.2 0) (wd e.2 1) (wd e.2 2)).isNone
  if bad = [] then d
  else
    let d := if (d.jobOfAcc a).isSome then d else bad.foldl (fun (d : Dev) e => d.putDecl a e.1 none) d
    d.raise (Src.AGP_decl_refused a)

/-- The declarations of an agent are installed with their coefficient tables (R129, R132, R153). The modes are shown in the health
record. -/
def Dev.installDecls (d : Dev) (a : Nat) : Dev :=
  let ws := (d.aport a).decl
  let tables := chunksOf 2048 (ws.length / 2048 + 1) (ws.drop 16)
  let named := (declsOf ws).filter fun e => wd e.2 3 != 0
  let d := ((named.zip tables).filter fun e => e.2.length == 2048).foldl (fun (d : Dev) e => d.declSet e.2) d
  let d := (List.range 4).foldl (fun (d : Dev) n => d.putDecl a n none) d
  (declsOf ws).foldl (fun (d : Dev) e => d.putDecl a e.1 (declInstall (wd e.2 0) (wd e.2 1) (wd e.2 2))) d

/-- A prepared spare's declarations are installed (R324 step 3), unless an admitted job names its entries: a drilled accelerator's stay as
they are (R129, R337). -/
def Dev.readyDecls (d : Dev) (a : Nat) : Dev := if (d.jobOfAcc a).isSome then d else d.installDecls a

/-! ### Roles and free spares (R320 to R322) -/

/-- A controller's role: 0 absent, 1 active, 2 spare (R320): in the plan in force, of other racks as VIEW told it (log entry 54). -/
def Dev.roleOf (d : Dev) (chip : Nat) : Nat :=
  if chip / 32 = d.rack then (match d.boot.plan with | some p => (p.trays.getD (chip % 32) (0, 0, 0)).2.1 | none => 0)
  else Tab.getD d.mbr.roles chip 0

/-- An accelerator, as chip × 8 + number, is a free spare (R320, R324). -/
def Dev.isSpare (d : Dev) (x : Nat) : Bool :=
  let c := x / 8
  d.isIn c && d.roleOf c == 2 &&
    !bitAt (x % 8) ((d.viewEnt c).accExp ||| Tab.getD d.mbr.adopted c 0 ||| Tab.getD d.mbr.spoiled c 0)

/-- The free spares of a rack (R320). -/
def Dev.sparesIn (d : Dev) (rack : Nat) : List Nat := ((d.membersOf rack).flatMap fun c => (List.range 8).map (c * 8 + ·)).filter d.isSpare

/-- The free spares of the own rack, as R316 counts them. -/
def Dev.spareAcc (d : Dev) : List Nat := d.sparesIn d.rack

/-- A free spare that none of the jobs here has chosen yet. -/
def Dev.freeSpare (d : Dev) (x : Nat) : Bool := d.isSpare x && !(d.jobs.any fun j => j.2.adopts.any fun e => e.2.spare == x)

/-- The free spares of a rack that no job has chosen, ascending (R320, R322). -/
def Dev.freeSpares (d : Dev) (rack : Nat) : List Nat := (d.sparesIn rack).filter d.freeSpare

/-- The spares for lost indices of one tray, given the free ones of its rack (R322). -/
def Dev.chooseTray (d : Dev) (lost : List (Nat × Nat)) (free : List Nat) : List (Nat × Nat) :=
  let chip := (lost.headD (0, 0)).2 / 8
  let whole := if d.isIn chip then none else (chipsOf free).find? fun c => (List.range 8).all fun n => free.contains (c * 8 + n)
  match whole with
  | some c => lost.map fun e => (e.1, c * 8 + e.2 % 8)
  | none => (lost.zip free).map fun e => (e.1.1, e.2)

/-- The spares for lost indices, as (index, spare) (R322). -/
def Dev.choose (d : Dev) (lost : List (Nat × Nat)) : List (Nat × Nat) :=
  (chipsOf (lost.map (·.2))).foldl (fun (got : List (Nat × Nat)) c =>
    let free := (d.freeSpares (c / 32)).filter fun x => !(got.map (·.2)).contains x
    got ++ d.chooseTray (lost.filter fun e => e.2 / 8 == c) free) []

/-! ### The adoption exchange (R323, R324) -/

/-- An ADOPT body (R323): pairs of job index and accelerator. -/
def Dev.adoptBody (d : Dev) (job b phase : Nat) (pairs : List (Nat × Nat)) : List Nat :=
  [d.jobWord job, pack [(24, 40, b), (16, 8, phase), (0, 16, pairs.length)]] ++
    pairs.map fun p => pack [(32, 16, p.1), (16, 16, p.2 / 8), (0, 3, p.2 % 8)]

/-- ADOPT goes on down the start tree. -/
def Dev.adoptDown (d : Dev) (j : JobSt) (b phase : Nat) (pairs : List (Nat × Nat)) : Dev :=
  d.sendAll (d.startChildren j) 0x48 (d.adoptBody j.desc.job b phase pairs)

/-- An ADOPTACK body (R323). -/
def Dev.adoptAckBody (d : Dev) (job index status : Nat) : List Nat := [d.jobWord job, pack [(48, 16, index), (40, 8, status)]]

/-! ### The root's record of an adoption (R319, R322, R324) -/

/-- The indices that need a spare: waiting or standing, without an adoption, a drill's apart (R319, R337). -/
def JobSt.needSpare (j : JobSt) : List (Nat × Nat) :=
  ((j.lost ++ j.standing).filter fun i => (Tab.find i j.adopts).isNone && j.drillIdx != some i).map fun i => (i, j.accs.getD i 0)

/-- ADOPT phase 0 on the controller of a chosen spare (R324 step 1). -/
def Dev.prepareHere (d : Dev) (job root : Nat) (p : Nat × Nat) : Dev :=
  if p.2 / 8 ≠ d.chip then d
  else
    let d := ((d.put Reg.SPARE_ADOPT_job job).put Reg.SPARE_ADOPT_index p.1).put Reg.SPARE_ADOPT_status 0
    let d := (d.put Reg.SPARE_ADOPT_acc (p.2 % 8)).put Reg.SPARE_ADOPT_state 1
    ({ d with adoptReqs := d.adoptReqs ++ [(job, p.1, p.2 % 8, root)] }).raise Src.SPARE_adopt_request

/-- ADOPT phase 0 arrives or is sent (R324 step 1). -/
def Dev.adoptPrepare (d : Dev) (job : Nat) (pairs : List (Nat × Nat)) : Dev :=
  match d.jobOf job with
  | none => d
  | some j =>
    let news := pairs.filter fun p => !((Tab.find p.1 j.adopts).map AdoptSt.spare == some p.2)
    if news = [] then d
    else
      let d := d.setJob { j with adopts := news.foldl (fun t p => Tab.insert p.1 ⟨p.2, false, none⟩ (Tab.erase p.1 t)) j.adopts }
      let d := d.adoptDown j 0 0 pairs
      news.foldl (fun (d : Dev) p => d.prepareHere job j.root p) d

/-- The root asks for the spares it can choose (R322, R324). -/
def Dev.tryAdopt (d : Dev) (job : Nat) : Dev :=
  match d.jobOf job with
  | none => d
  | some j =>
    let need := j.needSpare
    let got := d.choose need
    let d := if got.length < need.length then d.raise Src.APPO_spare_short else d
    if got = [] then d else d.adoptPrepare job got

/-- The root restores once no index waits (R319); one that found no step searches again only after another loss (R255). -/
def Dev.tryRestart (d : Dev) (job : Nat) : Dev :=
  match d.jobOf job with
  | some j => if j.lost = [] ∧ j.gate = 5 ∧ !j.rest.active ∧ j.restResult ≠ 3 ∧ d.isRoot j then d.restStart job else d
  | none => d

/-- The root's part when a job loses members (R319, R335): the indices wait, and spares are asked for; an adoption that runs for one of them gets
a new boundary. -/
def Dev.rootLoss (d : Dev) (job : Nat) (idxs : List Nat) : Dev :=
  let d := d.onJob job fun j =>
    { j with lost := (j.lost ++ idxs).eraseDups, standing := j.standing.filter fun i => !idxs.contains i
             adopts := (j.adopts.filter fun e => d.isIn (e.2.spare / 8) && !bitAt (e.2.spare % 8) (d.viewEnt (e.2.spare / 8)).accExp).map fun
               (e : Nat × AdoptSt) => if idxs.contains e.1 then (e.1, { e.2 with bound := none }) else e }
  d.tryAdopt job

/-! ### Rewriting the job table (R325) -/

/-- stripe_base of a record (R228, R232): its first data unit in its home rack's job region, at its home; a record without units has
none. -/
def Dev.stripeBase (d : Dev) (j : JobSt) (r : RecDesc) : Nat :=
  match (j.extents j.accs d.rack).find? fun e => e.home == d.chip with
  | some e => ((e.segs.find? fun s => s.1.num == r.num).map fun s => s.2.1).getD 0
  | none => 0

/-- A job's record as this controller writes it at admission (R229): with its place in the stripe, and correlated while the controller is
(R248). -/
def Dev.freshRecord (d : Dev) (j : JobSt) (r : RecDesc) : List Nat :=
  let m := j.methodOf r.num
  let w := newRecord j d.chip r m
  w.mapIdx fun i x =>
    if i = 1 then withBit x 20 (recHome w && m == 2 && d.flag Reg.MIR_PARTNER_correlated)
    else if i = 3 then x + d.stripeBase j r * 2 ^ 32 else x

/-- A record's local replicas, home and place in the stripe follow the job table (R212, R228, R325). -/
def Dev.reflow (d : Dev) (j : JobSt) (r : RecDesc) : Dev :=
  let mine := (r.holdersIn j.accs).filter fun a => a / 8 == d.chip
  if mine = [] then (if (Tab.find r.num d.flow).isSome then d.setFlow r.num none else d)
  else
    let fresh := d.freshRecord j r
    match Tab.find r.num d.flow with
    | some w => d.setFlow r.num (some (w.mapIdx fun i x =>
        if i = 1 then pack [(32, 32, bits 32 32 x), (20, 12, bits 20 12 (wd fresh 1)), (0, 20, bits 0 20 x)]
        else if i = 3 then x % 2 ^ 32 + wd fresh 3 / 2 ^ 32 * 2 ^ 32 else x))
    | none => d.setFlow r.num (some fresh)

/-- The cut of the boundary step takes in the stand-in that leaves with it (R325, R329): its records are pulled after its update list. -/
def Dev.cutLeaves (d : Dev) (job a idx b : Nat) : Dev :=
  match d.cutOf job with
  | none => d
  | some (j, c) =>
    if c.step ≠ b ∨ c.pulling.contains a then d
    else
      let plan := d.pullPlan j c a idx
      (d.onCut job fun c => { c with state := 2, pulling := c.pulling ++ [a], pulls := c.pulls ++ plan.map fun p => (a, p.1, p.2) }).cutCheck job

/-- A context that stands in hands over (R334): its slot, and JOB to the spare's controller (step 2), a HANDOVER without items (log entry
31). -/
def Dev.standLeaves (d : Dev) (job idx old spare b : Nat) : Dev :=
  if old / 8 ≠ d.chip then d
  else match d.standOf (old % 8) with
    | some s =>
      let d := (d.setStand s { d.standSt s with state := 4, spare := spare }).cutLeaves job (old % 8) idx b
      if spare / 8 = d.chip then d else d.send (spare / 8) 0x53 [d.jobWord job, pack [(24, 40, b), (21, 3, old % 8)], d.chip * 2 ^ 48, 0]
    | none => d

/-- The adopted accelerator's agent starts (R324 step 6, R334 step 2): JOB, then RESTORE(B). -/
def Dev.takeStart (d : Dev) (job a b : Nat) (waits : Bool) : Dev := (d.sendJob job a (b + 1) waits).sendDown a 0x07 [b * 2 ^ 24]

/-- The adopted accelerator joins the job on its controller (R324 step 6, R334): its agent starts at once in a job that waits, else when the
stand-in's controller sends JOB. -/
def Dev.takeUp (d : Dev) (job idx old spare b : Nat) (waits : Bool) : Dev :=
  if spare / 8 ≠ d.chip then d
  else match d.jobOf job with
    | none => d
    | some j =>
      let a := spare % 8
      let p := d.predOf job j.desc.pred
      let j := if j.gate = 0 then { j with gate := if waits then 5 else 1, step := b + 1, round := 0, pstep := p } else j
      let recs := (j.recsOf idx).map RecDesc.num
      let taking := if waits then j.taking else Tab.insert a ⟨old, b, recs, []⟩ (Tab.erase a j.taking)
      let d := d.setJob { j.setAcc a (AccJob.fresh idx (d.baseOf j a) false) with taking := taking, begun := j.begun.filter (· != idx) }
      let d := (d.put Reg.SPARE_ADOPT_state 3).incU Cnt.SPARE_CNT_ADOPT
      if waits || old / 8 == d.chip || j.begun.contains idx then d.takeStart job a b waits else d

/-- An index moves to its spare (R320, R324 step 5, R325); waits: the job waits for it, and restores. -/
def Dev.rewriteIdx (d : Dev) (job idx spare b : Nat) (waits : Bool) : Dev :=
  match d.jobOf job with
  | none => d
  | some j =>
    let old := j.accs.getD idx 0
    let accs := j.accs.set idx spare
    let own := if old / 8 = d.chip then Tab.erase (old % 8) j.acc else j.acc
    let rest := j.standing.filter (· != idx)
    let d := d.setJob { j with
      accs := accs, acc := own, adopts := Tab.erase idx j.adopts, standing := rest, lost := j.lost.filter (· != idx), moves := j.moves ++ [(b, idx, old)] }
    let d : Dev := if d.roleOf (spare / 8) = 2 then
        { d with mbr := { d.mbr with adopted := Tab.update d.mbr.adopted (spare / 8) 0 fun m => setBit m (spare % 8) } } else d
    let d := { d with mbr := { d.mbr with pendingAcc := d.mbr.pendingAcc.filter (· != old) } }
    let d := if waits then d else d.standLeaves job idx old spare b
    let d := match d.jobOf job with
      | some j => (j.recsOf idx).foldl (fun (d : Dev) r => d.reflow j r) d
      | none => d
    (d.takeUp job idx old spare b waits).repair

/-- The adoptions of a job whose boundary has come (R324 step 5): a step given, those at or before its commit; without one those at a step
that is sealed, which a job waits to restore. -/
def Dev.adoptDue (d : Dev) (job : Nat) (step : Option Nat) : Dev :=
  match d.jobOf job with
  | none => d
  | some j =>
    let due := j.adopts.filter fun e => match e.2.bound with
      | some b => decide (b ≤ step.getD j.knownStep)
      | none => false
    due.foldl (fun (d : Dev) e => d.rewriteIdx job e.1 e.2.spare (e.2.bound.getD 0) step.isNone) d

/-- A controller outside the step tree learns that a step has committed (R320, R324; log entry 54). -/
def Dev.stepSeen (d : Dev) (job step : Nat) : Dev :=
  match d.jobOf job with
  | some j => if j.gate = 0 then d.adoptDue job (some step) else d
  | none => d

/-- The stand-in's controller sends JOB for the spare here (R334 step 2): the boundary step has committed there, and the agent starts once it
has here. -/
def Dev.standJob (d : Dev) (job old : Nat) : Dev :=
  match d.jobOf job with
  | none => d
  | some j => match j.adopts.find? fun e => e.2.bound.isSome && e.2.spare / 8 == d.chip && j.accs.getD e.1 0 == old with
    | some (i, e) => (d.setJob { j with begun := j.begun ++ [i] }).stepSeen job (e.bound.getD 0)
    | none => match j.taking.find? fun e => e.2.src == old with
      | some (a, t) => d.takeStart job a t.step false
      | none => d

/-- The leader of a drill sees that its accelerator is adopted back (R337 step 4). -/
def Dev.drillBack (d : Dev) (job : Nat) (pairs : List (Nat × Nat)) : Dev :=
  if d.drill.phase = 2 ∧ d.drill.job = job ∧ pairs.any (fun p => p.1 == d.drill.index) then { d with drill := { d.drill with phase := 3 } } else d

/-- ADOPT phase 1 (R324 step 5). -/
def Dev.adoptCommit (d : Dev) (job b : Nat) (pairs : List (Nat × Nat)) : Dev :=
  match d.jobOf job with
  | none => d
  | some j =>
    let news := pairs.filter fun p => !(j.accs[p.1]? == some p.2 && j.drillIdx != some p.1) && !((Tab.find p.1 j.adopts).bind AdoptSt.bound == some b)
    if news = [] then d
    else
      let d := d.setJob { j with adopts := news.foldl (fun t p => Tab.insert p.1 ⟨p.2, true, some b⟩ (Tab.erase p.1 t)) j.adopts }
      ((d.adoptDown j b 1 pairs).drillBack job pairs).adoptDue job none

/-- ADOPT phase 2 (R324): the adoption of the indices is cancelled, the spare is not free until its next power-up. -/
def Dev.adoptCancel (d : Dev) (job : Nat) (pairs : List (Nat × Nat)) : Dev :=
  match d.jobOf job with
  | none => d
  | some j =>
    let gone := pairs.filter fun p => (Tab.find p.1 j.adopts).map AdoptSt.spare == some p.2
    if gone = [] then d
    else
      let d := d.setJob { j with adopts := gone.foldl (fun t p => Tab.erase p.1 t) j.adopts }
      let d := d.adoptDown j 0 2 pairs
      gone.foldl (fun (d : Dev) p =>
        let d : Dev := { d with mbr := { d.mbr with spoiled := Tab.update d.mbr.spoiled (p.2 / 8) 0 fun m => setBit m (p.2 % 8) } }
        if p.2 / 8 = d.chip then
          let d : Dev := { d with adoptReqs := d.adoptReqs.filter fun q => !(q.1 == job && q.2.1 == p.1) }
          if d.adoptReqs = [] then d.put Reg.SPARE_ADOPT_state 0 else d
        else d) d

/-- The root chooses B once the last spare is ready (R324 step 4): the running step and lead_steps, at least M + 2 during a restore;
M for indices that wait. -/
def Dev.adoptReady (d : Dev) (job : Nat) : Dev :=
  match d.jobOf job with
  | none => d
  | some j =>
    let go (d : Dev) (idxs : List Nat) (b : Nat) : Dev :=
      let mine := j.adopts.filter fun e => idxs.contains e.1 && e.2.bound.isNone
      if mine = [] ∨ mine.any fun e => !e.2.ready then d else d.adoptCommit job b (mine.map fun e => (e.1, e.2.spare))
    let lead := max 1 (d.get Reg.SPARE_CTRL_lead_steps)
    let b := if j.rest.active then max (j.rest.step + 2) (j.rest.step + 1 + lead) else j.step + lead
    let d := go d j.standing b
    if j.rest.active then d else go d j.lost ((d.restoreStep j).getD 0)

/-! ### Apposition (R326, R327) -/

/-- The header of a program (R327), when its magic, job and job index are those of the request and its length is that of the image. -/
def progHeader (bs : List Nat) (job idx : Nat) : Option ProgHdr :=
  if numAt bs 0 4 = 0x3150414B ∧ numAt bs 4 4 = job ∧ numAt bs 8 2 = idx ∧ numAt bs 0x40 8 ≤ bs.length then
    some ⟨numAt bs 0x28 8, numAt bs 0x0A 2, numAt bs 0x0C 4, numAt bs 0x10 8, numAt bs 0x18 4, numAt bs 0x20 8, numAt bs 0x1C 4, numAt bs 0x38 8,
      numAt bs 0x30 2⟩
  else none

/-- The stand-ins that run. -/
def Dev.standsRun (d : Dev) : Nat := ((List.range 2).filter fun s => decide (2 ≤ (d.standSt s).state)).length

/-- The partitions out of service. -/
def Dev.partsOut (d : Dev) : Nat := ((List.range 16).filter fun p => d.partState p == 4).length

/-- The LPDDR4X pages that stand-ins may take: outside the class C reserves, less what other stand-ins hold (R326). -/
def Dev.standPages (d : Dev) : Nat :=
  (((List.range 16).filter fun p => d.partState p != 4).map d.lpdCap).foldl (· + ·) 0 -
    (((List.range 2).filter fun s => decide (2 ≤ (d.standSt s).state)).map fun s => (d.standSt s).prog.footprint).foldl (· + ·) 0

/-- The first condition of R326 that does not hold; bs is the program, none when the host supplied none. -/
def Dev.appoReason (d : Dev) (onLoss : Nat) (x : StandSt) (bs : Option (List Nat)) : Option Nat :=
  let h := bs.bind fun b => progHeader b x.job x.index
  if onLoss ≠ 0 ∨ d.get Reg.APPO_CTRL_enable ≠ 1 then some 1
  else if d.get Reg.APPO_CTRL_max_stand ≤ d.standsRun then some 2
  else if 1 < d.partsOut then some 3
  else match h with
    | none => some 4
    | some h =>
      if d.standPages < h.footprint then some 5
      else if (List.range 4).any fun n => bitAt n x.named && bits 62 2 (d.profWords (declEntry x.acc n)).2 % 3 == 0 then some 6
      else if d.flag Reg.PWR_FEED_STATUS_single_feed && d.pwr.classA == 0 then some 7
      else none

/-- ADOPTACK to the root about an own index (R323, R328; log entry 31). The root's own waits until the command ends. -/
def Dev.sendAdoptAck (d : Dev) (j : JobSt) (index status : Nat) : Dev :=
  match d.rootOf j with
  | some r => if r = d.chip then { d with selfAcks := d.selfAcks ++ [(j.desc.job, index, status)] } else d.send r 0x49 (d.adoptAckBody j.desc.job index status)
  | none => d

/-- A refused entry (R319, R326): the reason is shown, and the job waits. -/
def Dev.appoRefuse (d : Dev) (s reason : Nat) (j : JobSt) (index : Nat) : Dev :=
  let d := d.setStand s (if (d.standSt s).state ≤ 1 then { StandSt.none with reason := reason } else { d.standSt s with reason := reason })
  ((d.incE Cnt.APPO_CNT_APPO_REFUSED).raise Src.APPO_appo_refused).sendAdoptAck j index 3

/-- The number of the context that a slot takes: the highest that is free (log entry 31). -/
def Dev.freeCtx (d : Dev) : Option Nat := (List.range 1024).reverse.find? fun c => (d.ctx c).state == .free

/-- The context of a stand-in (R327): class A, 224 threads, the clusters in service, quotas from the footprint, the image at 0. -/
def Dev.standContext (d : Dev) (c : Nat) (h : ProgHdr) (bs : List Nat) : Dev :=
  let mask := ((List.range 32).filter fun cl => d.partState (cl / 2) != 4).foldl setBit 0
  let x : Ctx := { Ctx.reset with
    state := .enabled, cls := 1, gen := ((d.ctx c).gen + 1) % 256, threads := 224, mask := mask, enable := true
    lpdPages := min 491520 h.footprint, sramPages := min 16384 h.footprint, cmplBase := h.footprint * 512 }
  (d.setCtx c x).ctxWrites c (placeBytes 0 (bs.take (numAt bs 0x40 8)))

/-- A program for a slot that waits for one (R328 steps 2 and 3): it is checked and the index served again, by the stand-in. -/
def Dev.standLoad (d : Dev) (s : Nat) (dma : Dma) : Dev :=
  let d := d.dmaRead dma
  let x := d.standSt s
  let bs := dma.map fun b => b.map BitVec.toNat
  match d.jobOf x.job, d.freeCtx with
  | some j, some c =>
    match d.appoReason j.desc.onLoss x bs, bs.bind fun b => progHeader b x.job x.index with
    | none, some h =>
      let d := d.standContext c h (bs.getD [])
      let d := d.setStand s { x with state := 2, ctx := c, prog := h, reason := 0 }
      let d := d.setJob (j.setAcc x.acc (AccJob.fresh x.index (d.baseOf j x.acc) true))
      d.sendAdoptAck j x.index 0
    | r, _ => d.appoRefuse s (r.getD 4) j x.index
  | _, _ => d

/-- APPO_CTRL.load (R328 step 2). -/
def Dev.appoLoad (d : Dev) (dma : Dma) : Dev :=
  let d := (d.put Reg.APPO_CTRL_load 0)
  match (List.range 2).find? fun s => (d.standSt s).state == 1 with
  | none => d
  | some s => d.standLoad s dma

/-- An accelerator of the tray has been expelled from a job (R326, R328 step 1): with on-loss 0 a free slot asks for the program, else the
first condition is seen to fail. The program of a drill the controller loads itself, from DRILL_PROG_ADDR; what host memory holds there is free
(R337 step 2; log entry 54). -/
def Dev.appoRequest (d : Dev) (job idx a named : Nat) (drill : Bool) : Dev :=
  match d.jobOf job with
  | none => d
  | some j =>
    let s := ((List.range 2).find? fun s => (d.standSt s).state == 0).getD 1
    if j.desc.onLoss ≠ 0 then d.setStand s { d.standSt s with reason := 1 }
    else if d.get Reg.APPO_CTRL_enable ≠ 1 then d.appoRefuse s 1 j idx
    else if d.get Reg.APPO_CTRL_max_stand ≤ d.standsRun ∨ (d.standSt s).state ≠ 0 then d.appoRefuse s 2 j idx
    else
      let x := { StandSt.none with job := job, index := idx, acc := a, state := 1, before := d.predOf job j.desc.pred, drill := drill, named := named }
      let d := (d.setStand s x).raise Src.APPO_appo_request
      if drill then (d.tick).standLoad s (some (Config.hostImage d.fresh (d.get Reg.DRILL_PROG_ADDR_addr))) else d

/-! ### Collective exchange (R332, R333) -/

/-- The exchange entries of a program: (record, out of the stand-in, semaphore, context address). -/
def Dev.exchanges (d : Dev) (x : StandSt) : List (Nat × Bool × Nat × Nat) :=
  (List.range x.prog.exchCount).map fun i =>
    let w := d.ctxWord x.ctx (x.prog.exchList + 16 * i)
    (bits 40 24 w, bitAt 39 w, bits 0 8 w, d.ctxWord x.ctx (x.prog.exchList + 16 * i + 8))

/-- An XRELAY body (log entry 31): job, the record and offset, the length with a bit for data out of a stand-in, the token, then the data. -/
def Dev.relayBody (d : Dev) (job n off : Nat) (token : Option Nat) (bs : List Nat) : List Nat :=
  [d.jobWord job, shardWord n off, b2n token.isSome * 2 ^ 63 + bs.length, token.getD 0] ++ wordsOfBytes bs

/-- Bytes in pieces of at most 2 MiB with their offsets (R184). -/
def shardPieces (bs : List Nat) : List (Nat × List Nat) :=
  ((chunksOf (2 ^ 21) (bs.length / 2 ^ 21 + 1) bs).filter (· != [])).zipIdx.map fun c => (c.2 * 2 ^ 21, c.1)

/-- A piece of exchange data for a live accelerator of this tray: XPUT (R333). -/
def Dev.xput (d : Dev) (a n off : Nat) (last : Bool) (token : Nat) (bs : List Nat) : Dev :=
  d.sendDown a 0x0D ([shardWord n off, b2n last * 2 ^ 63 + bs.length, token] ++ wordsOfBytes bs)

/-- Exchange data reaches this controller (R333): an in-entry of a stand-in here is written, and signalled after the last piece; of data out of
a stand-in, which comes with a token, a live accelerator here that holds the record is sent XPUT. -/
def Dev.relayIn (d : Dev) (job n off : Nat) (token : Option Nat) (bs : List Nat) : Dev :=
  match d.jobOf job with
  | none => d
  | some j => match j.recDesc n with
    | none => d
    | some r =>
      let last := decide (r.len ≤ off + bs.length)
      let d := (List.range 2).foldl (fun (d : Dev) s =>
        let x := d.standSt s
        if x.job ≠ job ∨ x.state ≠ 3 then d
        else match (d.exchanges x).find? fun e => e.1 == n && !e.2.1 with
          | some e =>
            let d := d.ctxWrites x.ctx (placeBytes (e.2.2.2 + off) bs)
            if last then d.semaphore x.ctx e.2.2.1 0 1 else d
          | none => d) d
      match token with
      | some k => (j.acc.filter fun e => !e.2.standIn && r.holders.contains e.2.index).foldl (fun (d : Dev) e => d.xput e.1 n off last k bs) d
      | none => d

/-- Exchange data leaves for other controllers and is kept where this one is among them (R333). -/
def Dev.relayOut (d : Dev) (job n off : Nat) (token : Option Nat) (bs : List Nat) (chips : List Nat) : Dev :=
  let d := d.addU Cnt.APPO_CNT_XRELAY_BYTES bs.length
  let d := d.sendAll (chips.filter (· != d.chip)) 0x59 (d.relayBody job n off token bs)
  if chips.contains d.chip then d.relayIn job n off token bs else d

/-- The controllers whose stand-ins serve the job: those of table entries that the view shows as expelled (R328). -/
def Dev.standChips (d : Dev) (j : JobSt) : List Nat :=
  chipsOf (j.accs.filter fun x => bitAt (x % 8) (d.viewEnt (x / 8)).accExp)

/-- A SIGNAL of a step list has changed a semaphore (R333): its out-entries' data leave for the holders of their records. -/
def Dev.relaySignal (d : Dev) (c sem : Nat) : Dev :=
  match (List.range 2).find? fun s => (d.standSt s).state == 3 && (d.standSt s).ctx == c with
  | none => d
  | some s =>
    let x := d.standSt s
    match d.jobOf x.job with
    | none => d
    | some j =>
      ((d.exchanges x).filter fun e => e.2.1 && e.2.2.1 == sem).foldl (fun (d : Dev) e =>
        match j.recDesc e.1 with
        | none => d
        | some r =>
          let token := Tab.getD (d.ctx c).sems sem 0
          let chips := chipsOf ((r.holdersIn j.accs).filter fun h => h != d.accId x.acc)
          (shardPieces ((List.range r.len).map fun i => d.ctxRead c (e.2.2.2 + i))).foldl (fun (d : Dev) q =>
            d.relayOut x.job e.1 q.1 (some token) q.2 chips) d) d

/-- XRDY (R333): the record is pulled as data. -/
def Dev.exchangeReady (d : Dev) (a n : Nat) : Dev :=
  match d.jobOfAcc a with
  | some j => if j.isExchange n then d.sendDown a 0x06 [n * 2 ^ 40] else d
  | none => d

/-! ### Handing over (R334) -/

/-- A record of the stand-in's shard map as a HANDOVER body (R334, R249): one item and, with delayed scaling, its flow entry. -/
def Dev.handoverBody (d : Dev) (x : StandSt) (n : Nat) : List Nat :=
  let bs := d.standRead x n
  let item := (n * 2 ^ 40 + bs.length) :: wordsOfBytes bs
  let flow := if recDs (d.flowRec n) then (n * 2 ^ 40) :: (d.flowRec n).drop 3 else []
  d.versionBody ⟨d.chip, x.acc, x.job, x.step, flow.length / 6, 8 * item.length, item ++ flow⟩

/-- The records of a stand-in's shard map. -/
def Dev.standRecs (d : Dev) (x : StandSt) : List Nat :=
  ((List.range x.prog.mapCount).map fun i => bits 40 24 (d.ctxWord x.ctx (x.prog.map_ + 16 * i + 8))).eraseDups

/-- SHARDs to an agent of a record handed over, with their sequence numbers kept (R184, R334 step 4). -/
def Dev.takeShards (d : Dev) (job a n : Nat) (bs : List Nat) : Dev :=
  (shardPieces bs).foldl (fun (d : Dev) c =>
    let seq := (d.aport a).downSeq
    (d.sendDown a 0x08 ([shardWord n c.1, c.2.length] ++ wordsOfBytes c.2)).onJob job fun j =>
      { j with taking := match Tab.find a j.taking with
          | some t => Tab.insert a { t with seqs := t.seqs ++ [seq] } (Tab.erase a j.taking)
          | none => j.taking }) d

/-- The coordinator of a rack for some subjects (R296): its lowest member that is not a subject; all of them subjects, the lowest
member. -/
def Dev.coordinator (d : Dev) (rack : Nat) (subjects : List Nat) : Option Nat :=
  match (d.membersOf rack).find? fun c => !subjects.contains c with
  | some c => some c
  | none => (d.membersOf rack).head?

/-- The controller that a change names as its subject (R296): an accelerator's change names none. -/
def subjectOf (change : Nat) : List Nat := if chAcc change = 0xF then [chChip change] else []

/-- A change of the membership is asked of the coordinator of the subject's rack: queued there, or sent as EVIDENCE (R295, R307; log
entry 31). -/
def Dev.askLeader (d : Dev) (change : Nat) : Dev :=
  match d.coordinator (chChip change / 32) (subjectOf change) with
  | some c =>
    if c = d.chip then
      (if d.mbr.pending.contains (false, change) then d else { d with mbr := { d.mbr with pending := d.mbr.pending ++ [(false, change)] } })
    else d.send c 0x18 [change]
  | none => d

/-- The stand-in's controller hears that the handover is complete (R334 step 5; log entry 31): its context is destroyed. -/
def Dev.standOver (d : Dev) (job a : Nat) : Dev :=
  match (List.range 2).find? fun s => (d.standSt s).state == 4 && (d.standSt s).job == job && (d.standSt s).acc == a with
  | some s => d.standEnd s
  | none => d

/-- A handover ends (R334 step 5): the agent runs from B + 1; after a drill the accelerator is to be admitted again (R337 step 4). -/
def Dev.takeDone (d : Dev) (job a : Nat) : Dev :=
  match d.jobOf job with
  | none => d
  | some j => match Tab.find a j.taking with
    | none => d
    | some t =>
      if t.left ≠ [] ∨ t.seqs ≠ [] then d
      else
        let d := (d.setJob { j with taking := Tab.erase a j.taking }).sendResume job a t.step
        let d := if t.src / 8 = d.chip then d.standOver job (t.src % 8)
          else d.send (t.src / 8) 0x53 [d.jobWord job, pack [(24, 40, t.step), (21, 3, t.src)], t.src / 8 * 2 ^ 48, 0]
        if (j.accOf a).map AccJob.index = j.drillIdx ∧ j.drillIdx.isSome then d.askLeader (changeWord d.chip 1 a 5) else d

/-- HANDOVER reaches the spare's controller (R334 steps 3 to 5): written to the agent as SHARD, the flow entries set. digestOk: the
digest matches the stand-in's. -/
def Dev.handoverIn (d : Dev) (job src acc nFlow itemBytes : Nat) (words : List Nat) (digestOk : Bool) : Dev :=
  match d.jobOf job with
  | none => d
  | some j => match j.taking.find? fun e => e.2.src == src * 8 + acc with
    | none => d
    | some (a, t) =>
      if !digestOk then
        let idx := ((j.accOf a).map AccJob.index).getD 0
        (d.raise Src.APPO_handover_failed).sendAdoptAck j idx 3
      else
        let items := itemsOf (words.take (itemBytes / 8)) (itemBytes / 8)
        let flows := (chunksOf 6 nFlow (words.drop (itemBytes / 8))).take nFlow
        let d := flows.foldl (fun (d : Dev) f => let n := bits 40 24 (wd f 0); d.setFlow n (some ((d.flowRec n).take 3 ++ f.drop 1))) d
        let d := items.foldl (fun (d : Dev) it => d.takeShards job a it.1 (itemData it.2)) d
        let d := d.onJob job fun j =>
          { j with taking := match Tab.find a j.taking with
              | some t => Tab.insert a { t with left := t.left.filter fun n => !(items.map (·.1)).contains n } (Tab.erase a j.taking)
              | none => j.taking }
        if t.left = [] ∧ items = [] then d else d.takeDone job a

/-- A SHARD of a handover is acknowledged (R334 step 5). -/
def Dev.takeAcked (d : Dev) (a seq : Nat) : Dev :=
  match d.jobOfAcc a with
  | none => d
  | some j => match Tab.find a j.taking with
    | none => d
    | some t =>
      if t.seqs.contains seq then
        (d.setJob { j with taking := Tab.insert a { t with seqs := t.seqs.filter (· != seq) } (Tab.erase a j.taking) }).takeDone j.desc.job a
      else d

/-- The stand-in hands its records over (R334 step 3). -/
def Dev.handover (d : Dev) (s : Nat) : Dev :=
  let x := d.standSt s
  (d.standRecs x).foldl (fun (d : Dev) n =>
    let body := d.handoverBody x n
    if x.spare / 8 = d.chip then d.handoverIn x.job d.chip x.acc (bits 24 24 (wd body 2)) (wd body 3) (body.drop 4) true
    else d.send (x.spare / 8) 0x53 body) d

/-! ### Drills (R336, R337) -/

/-- A drill ends with a result and reason on the leader (R337, R340). -/
def Dev.drillResult (d : Dev) (result reason step : Nat) : Dev :=
  let d := ((d.put Reg.DRILL_RESULT_result result).put Reg.DRILL_RESULT_reason reason).put Reg.DRILL_RESULT_step step
  let d := { d with drill := DrillSt.reset }
  if result = 3 then d.raise Src.DRILL_drill_skipped
  else if result = 1 then d
  else (d.incE Cnt.DRILL_CNT_DRILL_FAIL).raise Src.DRILL_drill_failed

/-- The first commit after a generation starts the drill that waits for it, unless the lag has passed (R336). -/
def Dev.drillCommit (d : Dev) (job step : Nat) : Dev :=
  let x := d.drill
  if x.phase ≠ 1 ∨ x.job ≠ job ∨ x.gen = 0 ∨ step < x.gen then d
  else if x.gen + max 1 (d.get (acts Reg.DRILL_CTRL_lag)) < step then d.drillResult 3 2 step
  else
    let d := ({ d with drill := { x with phase := 2, startStep := step } }).incU Cnt.DRILL_CNT_DRILLS
    { d with mbr := { d.mbr with pending := d.mbr.pending ++ [(false, changeWord (x.acc / 8) 0 (x.acc % 8) 5)] } }

end Sys2Proof.Machine
end

