-- ==== Sys2Proof/Machine/Tiles.lean ====
section
/-! DEFINITION. TILE records and operand blocks as the controller holds them (R199 to R202), the class C descriptors that execute them (R204,
R205), and the verdict log (R211). -/

namespace Sys2Proof.Machine

/-! ### TILE records as the controller reads them (R200) -/

/-- A TILE body's fields. -/
structure Tile where
  step : Nat
  exec : Nat
  gen : Nat
  id : Nat
  fmtA : Nat
  fmtB : Nat
  fmtC : Nat
  decl : Nat
  acc : Bool
  ds : Bool
  scaleE : Int
  n : Nat
  m : Nat
  record : Nat
  k : Nat
  idsA : List Nat
  idsB : List Nat
  cin : List Nat
  result : List Nat
  deriving DecidableEq, Repr

/-- A TILE body read (R200). -/
def Tile.ofBody (ws : List Nat) : Tile :=
  let w2 := wd ws 2
  let na := bits 16 6 w2
  let nb := bits 10 6 w2
  let fmtC := bits 52 4 w2
  let m := bits 22 9 w2
  let n := bits 31 9 w2
  let ids := (chunksOf 2 (na + nb) ((ws.drop 4).take (2 * (na + nb)))).map fun c => wd c 0 + wd c 1 * 2 ^ 64
  let size := tileBytes fmtC m n
  let words := (size + 7) / 8
  let after := ws.drop (4 + 2 * (na + nb))
  let cw := if bitAt 49 w2 then words else 0
  { step := bits 24 40 (wd ws 0), exec := bits 16 8 (wd ws 0), gen := bits 0 16 (wd ws 0), id := wd ws 1
    fmtA := bits 60 4 w2, fmtB := bits 56 4 w2, fmtC := fmtC, decl := bits 50 2 w2, acc := bitAt 49 w2, ds := bitAt 48 w2
    scaleE := signed8 (bits 40 8 w2), n := n, m := m, record := bits 40 24 (wd ws 3), k := bits 0 32 (wd ws 3)
    idsA := ids.take na, idsB := ids.drop na
    cin := (wordBytes (after.take cw)).take size, result := (wordBytes ((after.drop cw).take words)).take size }

/-- The shipped result by rows. -/
def Tile.rows (x : Tile) : List (List Nat × List Nat) :=
  let f := (Fmt.ofCode x.fmtC).getD .fp32
  let rb := if x.fmtC = 6 then 4 * x.n else f.rowBytes x.n
  (List.range x.m).map fun i =>
    ((x.result.drop (i * rb)).take rb, if f.isMx && x.fmtC != 6 then (x.result.drop (scaleBase 0 x.m rb + i * (x.n / 32))).take (x.n / 32) else [])

/-! ### Operand blocks (R199, R202) -/

/-- The fields of a content identifier (R199). -/
def idLen (i : Nat) : Nat := bits 96 32 i
def idFmt (i : Nat) : Nat := bits 92 4 i
def idRows (i : Nat) : Nat := bits 82 9 i

/-- The K range of a block, found from its length (R199). -/
def blockK (i : Nat) : Nat :=
  match Fmt.ofCode (idFmt i) with
  | none => 0
  | some f =>
    let rows := max 1 (idRows i)
    if f.isMx then
      (((List.range (idLen i / rows + 1)).find? fun q => q != 0 && scaleBase 0 rows (f.rowBytes (32 * q)) + rows * q == idLen i).getD 0) * 32
    else idLen i / rows * 8 / f.bits

/-- The cached block of an identifier. -/
def Dev.block (d : Dev) (i : Nat) : Option OpndBlock := d.cache.find? fun b => b.id == i

/-- A block whose bytes went with a partition's slice (R376). -/
def Dev.lostBlock (d : Dev) (i : Nat) : Bool := match d.block i with | some b => b.bytes.length != idLen i | none => false

/-- A tile names a block that was lost so (R376). -/
def Dev.namesLost (d : Dev) (t : Tile) : Bool := (t.idsA ++ t.idsB).any d.lostBlock

/-- A row of a panel: its elements through every block in K order. -/
def Dev.panelRow (d : Dev) (ids : List Nat) (r : Nat) : List Nat :=
  ids.flatMap fun i => match d.block i, Fmt.ofCode (idFmt i) with
    | some b, some f => (b.bytes.drop (r * f.rowBytes (blockK i))).take (f.rowBytes (blockK i))
    | _, _ => []

/-- The block scales of a row of a panel. -/
def Dev.panelScales (d : Dev) (ids : List Nat) (r : Nat) : List Nat :=
  ids.flatMap fun i => match d.block i, Fmt.ofCode (idFmt i) with
    | some b, some f =>
      if f.isMx then (b.bytes.drop (scaleBase 0 (idRows i) (f.rowBytes (blockK i)) + r * (blockK i / 32))).take (blockK i / 32) else []
    | _, _ => []

/-- What the class C MAT reads (R204): the gathered panels and C, each in a region of its own. -/
def Dev.gather (d : Dev) (t : Tile) : Nat → Nat :=
  let a := (List.range t.m).flatMap (d.panelRow t.idsA)
  let as_ := (List.range t.m).flatMap (d.panelScales t.idsA)
  let b := (List.range t.n).flatMap (d.panelRow t.idsB)
  let bs := (List.range t.n).flatMap (d.panelScales t.idsB)
  fun x => ([a, as_, b, bs, t.cin].getD (x / 2 ^ 40) []).getD (x % 2 ^ 40) 0

/-- The smallest tile code of R104 that covers m × n (R204). -/
def tileCode (m n : Nat) : Nat :=
  if m ≤ 64 ∧ n ≤ 64 then 0 else if m ≤ 128 ∧ n ≤ 128 then 1 else if m ≤ 128 then 2 else if n ≤ 128 then 3 else 4

/-- The body of the class C MAT (R204): its operands are the gathered panels. -/
def Tile.mat (t : Tile) : MatBody where
  a := 0
  b := 2 * 2 ^ 40
  c := 4 * 2 ^ 40
  k := t.k
  n := t.n
  m := t.m
  legacy := false
  transB := true
  transA := false
  acc := t.acc
  tile := tileCode t.m t.n
  fmtC := t.fmtC
  fmtB := t.fmtB
  fmtA := t.fmtA
  aScale := 2 ^ 40
  bScale := 3 * 2 ^ 40
  ftqOut := true

/-- A removal announced to one of some agents that a generation would make ambiguous, or a RESID that waits (R202). -/
def Dev.residLate (d : Dev) (agents : List Nat) : Bool :=
  let g := (d.residGen + 1) % 65536
  d.cache.any fun b => match b.removed with
    | some (r, as_) => as_.any agents.contains && decide (32768 ≤ (g + 65536 - r % 65536) % 65536)
    | none => false

/-- RESID leaves for agents (R201, R202). -/
def Dev.residNow (d : Dev) (agents add remove : List Nat) : Dev :=
  let g := (d.residGen + 1) % 65536
  let body := pack [(48, 16, g), (32, 16, add.length), (16, 16, remove.length)] :: (add ++ remove).flatMap idWords
  let d := agents.foldl (fun (d : Dev) a => d.sendDown a 0x0A body) { d with residGen := g }
  { d with cache := d.cache.map fun (b : OpndBlock) =>
      if remove.contains b.id then { b with removed := some (g, agents), told := b.told.filter fun a => !agents.contains a }
      else if add.contains b.id then { b with told := (b.told ++ agents).eraseDups, removed := none } else b }

/-- RESID to agents (R201, R202): one that would make a generation ambiguous waits, and those after it wait behind it. -/
def Dev.sendResid (d : Dev) (agents add remove : List Nat) : Dev :=
  if d.agr.delayed ≠ [] ∨ d.residLate agents then { d with agr := { d.agr with delayed := d.agr.delayed ++ [(agents, add, remove)] } }
  else d.residNow agents add remove

/-- RESIDs that waited leave as far as no generation is ambiguous (R202). -/
def Dev.flushResid (d : Dev) : Dev :=
  d.agr.delayed.foldl (fun (d : Dev) r =>
    match d.agr.delayed with
    | _ :: rest =>
      if d.residLate r.1 ∨ r :: rest ≠ d.agr.delayed then d
      else ({ d with agr := { d.agr with delayed := rest } }).residNow r.1 r.2.1 r.2.2
    | [] => d) d

/-- The operand blocks whose removal an agent has confirmed go (R202). -/
def Dev.confirmRemovals (d : Dev) (a : Nat) (gen : Option Nat) : Dev :=
  let reached (g : Nat) : Bool := match gen with | some x => decide ((x + 65536 - g % 65536) % 65536 < 32768) | none => true
  let cache := d.cache.map fun (b : OpndBlock) => match b.removed with
    | some (g, as_) => if reached g then { b with removed := some (g, as_.filter (· != a)) } else b
    | none => b
  { d with cache := cache.filter fun b => match b.removed with | some (_, []) => false | _ => true }

/-- Blocks that the cache holds and no RESID has removed or is to remove. -/
def Dev.liveBlocks (d : Dev) : List OpndBlock :=
  d.cache.filter fun b => b.removed.isNone && !(d.agr.delayed.any fun r => r.2.2.contains b.id)

/-- Bytes of the cache that count against its size: those not announced to be removed (log entry 49). -/
def Dev.cacheBytes (d : Dev) : Nat := d.liveBlocks.foldl (fun n b => n + b.bytes.length) 0

/-- An addition that still waits is not sent (R202). -/
def Dev.withholdAdd (d : Dev) (id : Nat) : Dev :=
  let rest := (d.agr.delayed.map fun r => (r.1, r.2.1.filter (· != id), r.2.2)).filter fun r => r.2.1 != [] || r.2.2 != []
  { d with agr := { d.agr with delayed := rest } }

/-- The identifiers that an agent's resident table holds or is to hold (R202). -/
def Dev.residentOf (d : Dev) (a : Nat) : List Nat :=
  (((d.liveBlocks.filter fun b => b.told.contains a).map OpndBlock.id) ++
    ((d.agr.delayed.filter fun r => r.1.contains a).flatMap fun r => r.2.1)).eraseDups

/-- The cache makes room (R202): the block least recently named is announced to every agent that was told of it, and then goes; those that
were yet to be told of it are not. -/
def Dev.evictBlocks (d : Dev) (limit : Nat) : Nat → Dev
  | 0 => d
  | n + 1 =>
    if d.cacheBytes ≤ limit then d
    else match d.liveBlocks.find? fun b => d.liveBlocks.all fun c => decide (b.used ≤ c.used) with
      | some b =>
        let d := d.withholdAdd b.id
        let d := if b.told = [] then { d with cache := d.cache.filter fun c => c.id != b.id } else d.sendResid b.told [] [b.id]
        d.evictBlocks limit n
      | none => d

/-- The next use number of the cache. -/
def Dev.nextUse (d : Dev) : Nat := (d.cache.map OpndBlock.used).foldl max 0 + 1

/-! ### Verdict records (R211) -/

/-- A verdict record is written to the ring. -/
def Dev.logVerdict (d : Dev) (w : List Nat) : Dev :=
  let i := d.get Reg.AGR_VLOG_STATUS_head
  let d := { d with vlog := Tab.insert i w (Tab.erase i d.vlog) }
  (d.put Reg.AGR_VLOG_STATUS_head (i + 1)).put Reg.AGR_VLOG_STATUS_total (d.get Reg.AGR_VLOG_STATUS_total + 1)

/-- The words of a verdict record (R211). place1 and place3 are cluster × 32 + core. -/
def Dev.verdictWords (d : Dev) (job step exec code acc id profile place1 place3 first n1 dist3 n3 digest : Nat) : List Nat :=
  [pack [(24, 40, step), (16, 8, exec), (8, 8, code), (5, 3, acc)], word2 job d.epoch, id, d.stamp,
   pack [(56, 8, profile), (45, 5, place1 / 32), (40, 5, place1 % 32), (35, 5, place3 / 32), (30, 5, place3 % 32)],
   word2 first n1, word2 dist3 n3, digest]

/-- A verdict that counts as disagreement is raised and counted (R211, R225). -/
def Dev.disagree (d : Dev) : Dev := (d.incE Cnt.AGR_CNT_AGR_DISAGREE).raise Src.AGR_disagree

/-- A verdict that is final is counted, and logged unless its code is 0x0 (R203, R211). -/
def Dev.noteVerdict (d : Dev) (job : Nat) (t : TileRec) (code place3 n3 dist3 : Nat) : Dev :=
  let x := Tile.ofBody t.body
  let d := d.incU Cnt.AGR_CNT_AGR_VERDICTS
  let d := if code = 0 then d
    else d.logVerdict (d.verdictWords job t.step t.exec code t.acc t.id (declEntry t.acc x.decl) t.core1 place3 t.first1 t.dis1 dist3 n3
      (crc64 (x.rows.flatMap (·.1) ++ x.rows.flatMap (·.2))))
  let d := if code ≠ 6 then d
    else if d.namesLost x then d.incE Cnt.AGR_CNT_AGR_VOID
    else (d.incE Cnt.AGR_CNT_AGR_VOID).raise Src.AGR_agr_protocol
  if 2 ≤ code ∧ code ≤ 5 then d.disagree else d

/-! ### The descriptors of class C (R204, R205) -/

/-- The body of a CHECK (R205). -/
structure CheckBody where
  dst : Nat
  src : Nat
  ref : Nat
  keep : Nat
  refMask : Nat
  scaleE : Int
  ds : Bool
  keepBad : Bool
  refBuf : Bool
  srcQ : Bool
  fmt : Nat
  n : Nat
  m : Nat
  deriving DecidableEq, Repr

/-- The CHECK body of a descriptor (R205). -/
def CheckBody.ofDesc (x : Desc) : CheckBody where
  dst := wd x 1
  src := wd x 2
  ref := wd x 3
  keep := wd x 4
  refMask := bits 48 16 (wd x 5)
  scaleE := signed8 (bits 40 8 (wd x 5))
  ds := bitAt 39 (wd x 5)
  keepBad := bitAt 38 (wd x 5)
  refBuf := bitAt 37 (wd x 5)
  srcQ := bitAt 36 (wd x 5)
  fmt := bits 32 4 (wd x 5)
  n := bits 9 9 (wd x 5)
  m := bits 0 9 (wd x 5)

/-- The words of a CHECK under a profile entry (R103, R205). -/
def CheckBody.desc (b : CheckBody) (profile : Nat) : Desc :=
  [pack [(56, 8, 5), (40, 8, profile)], b.dst, b.src, b.ref, b.keep,
   pack [(48, 16, b.refMask), (40, 8, byteOfInt b.scaleE), (39, 1, b2n b.ds), (38, 1, b2n b.keepBad), (37, 1, b2n b.refBuf), (36, 1, b2n b.srcQ),
     (32, 4, b.fmt), (9, 9, b.n), (0, 9, b.m)], 0, 0]

/-- The words of the MAT of a tile under a profile entry (R103, R104, R204): its operands are gathered, so it names no address. -/
def Tile.matDesc (t : Tile) (profile : Nat) : Desc :=
  [pack [(56, 8, 1), (40, 8, profile), (1, 1, 1)], 0, 0, 0, pack [(32, 32, t.k), (16, 16, t.n), (0, 16, t.m)],
   pack [(18, 1, 1), (16, 1, b2n t.acc), (12, 4, tileCode t.m t.n), (8, 4, t.fmtC), (4, 4, t.fmtB), (0, 4, t.fmtA)], 0, 0]

/-- The area of a record in the class C SRAM of a partition: 1 MiB from the top of the slice down (log entry 49). -/
def tileArea (p slot : Nat) : Nat := p * 2 ^ 31 + 2 ^ 31 - (slot + 1) * 2 ^ 20

/-- Where the converted tile of the first execution, or the third, is kept (R209). -/
def TileRec.keepAt (t : TileRec) (cl : Nat) (third : Bool) : Nat := tileArea (cl / 2) t.slot + if third then 2 ^ 19 else 2 ^ 18

/-- The lowest area that no record has. -/
def Dev.freeSlot (d : Dev) : Nat :=
  let used := (d.agr.tiles.filter fun t => t.phase != .waiting).map TileRec.slot
  ((List.range (used.length + 1)).find? fun i => !used.contains i).getD 0

/-- The descriptors of a record's pair on a cluster (R204, R205, R209): MAT, and CHECK against the reference entries, keeping a tile that
disagrees. -/
def TileRec.pair (t : TileRec) (cl mask : Nat) : List Desc :=
  let x := Tile.ofBody t.body
  let e := declEntry t.acc x.decl
  let third := t.phase == .waitThird || t.phase == .third
  [x.matDesc e,
   (CheckBody.mk (tileArea (cl / 2) t.slot) 0 0 (t.keepAt cl third) mask x.scaleE x.ds true true true x.fmtC x.n x.m).desc e]

/-- The CHECK that compares the first converted tile with the third (R209). -/
def TileRec.secondCheck (t : TileRec) (cl : Nat) : Desc :=
  let x := Tile.ofBody t.body
  (CheckBody.mk (tileArea (cl / 2) t.slot + 64) (t.keepAt cl true) (t.keepAt (t.core1 / 32) false) 0 0 x.scaleE x.ds false false false
    x.fmtC x.n x.m).desc (declEntry t.acc x.decl)

/-- A tile at an offset of SRAM, by rows, as R146 lays it out. -/
def Dev.sramRows (d : Dev) (fmt a m n : Nat) : List (List Nat × List Nat) :=
  let f := (Fmt.ofCode fmt).getD .fp32
  let rb := if fmt = 6 then 4 * n else f.rowBytes n
  let rd (i : Nat) : Nat := (Memory.read i d.sram).toNat
  (List.range m).map fun i =>
    ((List.range rb).map fun j => rd (a + i * rb + j),
     if f.isMx && fmt != 6 then (List.range (n / 32)).map fun j => rd (scaleBase a m rb + i * (n / 32) + j) else [])

/-- Rows of a tile stored at an offset, as R146 lays them out. -/
def rowWrites (fmt a m n : Nat) (rows : List (List Nat × List Nat)) : Writes :=
  let f := (Fmt.ofCode fmt).getD .fp32
  let rb := if fmt = 6 then 4 * n else f.rowBytes n
  rows.zipIdx.flatMap fun r =>
    placeBytes (a + r.2 * rb) r.1.1 ++ placeBytes (scaleBase a m rb + r.2 * (n / 32)) r.1.2

/-- Bytes of class C written by SRAM offset. -/
def Dev.sramWrites (d : Dev) (ws : Writes) : Dev := { d with sram := Memory.writes ws d.sram }

end Sys2Proof.Machine
end

