-- ==== Sys2Proof/Machine/Gate.lean ====
section
/-! DEFINITION. The step commit gate (R212 to R224): marks, replica digests, reports and decisions, replay, commit and abandon, and a
stand-in at the gate (R329). -/

namespace Sys2Proof.Machine

/-! ### MARK (R175, R177) -/

/-- What the words of a MARK from word 3 on say (R175). -/
def markLists (ws : List Nat) : List (Nat × Nat) × List (Nat × Nat) × List (Nat × List Nat) :=
  let na := bits 48 16 (wd ws 0)
  let nh := bits 32 16 (wd ws 0)
  let ml := bits 0 32 (wd ws 0)
  let amax := ((ws.drop 1).take na).map fun w => (bits 40 24 w, bits 0 16 w)
  let hash := (chunksOf 2 nh ((ws.drop (1 + na)).take (2 * nh))).map fun c => (bits 40 24 (wd c 0), wd c 1)
  (amax, hash, itemsOf ((ws.drop (1 + na + 2 * nh)).take (ml / 8)) (ml / 8))

/-- A MARK as the gate keeps it. -/
def markOf (step exec time sampled : Nat) (ws : List Nat) : MarkInfo :=
  let l := markLists ws
  ⟨step, exec, time, sampled, l.1, l.2.1, l.2.2⟩

/-- An accelerator's round is complete (R215): its MARK and as many final verdicts as it sampled tiles. -/
def AccJob.complete (x : AccJob) : Bool := match x.mark with | some m => decide (m.sampled ≤ x.finals) | none => false

/-- The verdict lag of a round in µs (R222): without a sampled tile, to the moment the MARK is accepted; for a round replaced before all
its verdicts were final, to that moment (log entry 49). -/
def Dev.lagOf (d : Dev) (x : AccJob) : Int :=
  match x.mark with
  | some m => ((if m.sampled = 0 || !x.complete then d.time else x.lastFinal : Nat) - (m.time : Int)) / unitsPerUs
  | none => 0

/-- A round that an accelerator executed gives its lag once (R224). -/
def Dev.closeRound (d : Dev) (job a : Nat) : Dev :=
  match (d.jobOf job).bind fun j => j.accOf a with
  | some x =>
    if x.mark.isSome ∧ x.lags.length ≤ x.exec then
      let v := d.lagOf x
      d.onAcc job a fun x => { x with lags := x.lags ++ [v] }
    else d
  | none => d

/-! ### Replica digests (R212, R213) -/

/-- The replicated records homed at a chip. -/
def JobSt.replicated (j : JobSt) (chip : Nat) : List RecDesc :=
  j.desc.recs.filter fun r => r.home j.accs == some chip && decide (2 ≤ (r.holdersIn j.accs).length)

/-- The homes to which this controller reports: those of replicated records it holds (log entry 26). -/
def Dev.hashHomes (d : Dev) (j : JobSt) : List Nat :=
  (j.desc.recs.filterMap fun r =>
    if 2 ≤ (r.holdersIn j.accs).length ∧ (r.holdersIn j.accs).any fun a => a / 8 == d.chip then r.home j.accs else none).eraseDups

/-- The own digests for a home: (accelerator, record, digest). -/
def Dev.hashesFor (d : Dev) (j : JobSt) (h : Nat) : List (Nat × Nat × Nat) :=
  let recs := (j.replicated h).map RecDesc.num
  j.acc.flatMap fun e => match e.2.mark with
    | some m => (m.hashes.filter fun p => recs.contains p.1).map fun p => (d.accId e.1, p.1, p.2)
    | none => []

/-- A controller's digests of a round are noted at the home; one message of a controller is taken (R214). -/
def JobSt.noteHashes (j : JobSt) (step round chip : Nat) (ps : List (Nat × Nat × Nat)) : JobSt :=
  if j.heard.contains (step, round, chip) ∨ step < j.step then j
  else { j with heard := j.heard ++ [(step, round, chip)], hashes := j.hashes ++ ps.map fun p => ⟨step, round, p.1, p.2.1, p.2.2⟩ }

/-- The digests leave once every accelerator of the tray has marked the round (R212; log entry 26). -/
def Dev.sendHashes (d : Dev) (job : Nat) : Dev :=
  match d.jobOf job with
  | none => d
  | some j =>
    if !(j.acc.all fun e => e.2.mark.isSome) ∨ j.heard.contains (j.step, j.round, d.chip) then d
    else
      let own := d.hashesFor j d.chip
      let d := (d.hashHomes j).foldl (fun (d : Dev) h =>
        if h = d.chip then d
        else
          let ps := d.hashesFor j h
          d.send h 0x3A ([d.jobWord job, pack [(24, 40, j.step), (16, 8, j.round), (0, 16, ps.length)]] ++ ps.flatMap fun p => hashPair p.1 p.2.1 p.2.2)) d
      d.onJob job fun j => j.noteHashes j.step j.round d.chip own

/-- The decision of the home for the present round (R213): none while a controller has not reported; else for each record in
disagreement the accelerators that erred and their digests. A record that nobody reports is agreed (log entry 26). -/
def Dev.homeDecides (d : Dev) (j : JobSt) : Option (List (Nat × List (Nat × Nat))) :=
  let rs := j.replicated d.chip
  let chips := chipsOf (rs.flatMap fun r => r.holdersIn j.accs)
  if !(chips.all fun c => j.heard.contains (j.step, j.round, c)) then none
  else
    let now := j.hashes.filter fun h => h.step == j.step && h.round == j.round
    some ((rs.map fun r =>
      let given := now.filter fun h => h.rec_ == r.num
      let ds := (r.holdersIn j.accs).map fun a => (a, ((given.find? fun h => h.acc == a).map HashPair.digest).getD (2 ^ 64 + a))
      (r.num, if given = [] then [] else (erring ds).map fun a => (a, ((ds.find? fun e => e.1 == a).map (·.2)).getD 0))).filter fun e => e.2 != [])

/-! ### Verdicts of the home (R213) -/

/-- A verdict 0x7 at the home (R213): logged and raised; an accelerator of the own tray takes the points of a suspect (R210, R315). -/
def Dev.replicaVerdict (d : Dev) (j : JobSt) (n : Nat) (e : Nat × Nat) : Dev :=
  let d := d.logVerdict (d.verdictWords j.desc.job j.step j.round 7 (e.1 % 8) n 0 0 31 0xFFFFFFFF 0 0 0 (e.2 % 2 ^ 64))
  let d := (d.incU Cnt.AGR_CNT_AGR_VERDICTS).disagree
  if e.1 / 8 = d.chip then (d.points (e.1 % 8) 0 1000).onAcc j.desc.job (e.1 % 8) fun x => { x with bad := true } else d

/-! ### A stand-in at the gate (R329, R334) -/

/-- The pulls of a stand-in answer from its context (R329). -/
def Dev.standAnswer (d : Dev) (job a : Nat) (x : StandSt) : Dev :=
  match d.cutOf job with
  | some (j, c) => (c.pulls.filter fun p => p.1 == a).foldl (fun (d : Dev) p =>
      let bs := d.standRead x p.2.1
      if p.2.2 then d.digestIn job a p.2.1 (some (crc64 bs))
      else d.cutShard job a p.2.1 0 (bs.take ((j.recDesc p.2.1).map RecDesc.len |>.getD 0))) d
  | none => d

/-- The cut of a stand-in after the update list of the cut step (R329). -/
def Dev.standCut (d : Dev) (job a : Nat) : Dev :=
  match d.cutOf job, d.standOf a with
  | some (_, c), some s =>
    if c.step ≠ (d.standSt s).step then d
    else
      let d := d.cutAckIn job a (c.step % 2 ^ 32) 0
      d.standAnswer job a (d.standSt s)
  | _, _ => d

/-- The update list of a slot has ended (R329, R334): the cut of the step, then the next step, or the handover. -/
def Dev.standUpdated (d : Dev) (s : Nat) : Dev :=
  let x := d.standSt s
  if x.state = 4 then ((d.setStand s { x with updating := false }).standAnswer x.job x.acc x).handover s
  else if x.state = 3 ∧ x.updating then ((d.setStand s { x with updating := false }).standCut x.job x.acc).standStep s (x.step + 1)
  else d

/-- COMMIT(N) at a stand-in (R329, R331): the update list is submitted. -/
def Dev.standCommit (d : Dev) (a step : Nat) : Dev :=
  match d.standOf a with
  | none => d
  | some s =>
    let x := d.standSt s
    let d := d.incU Cnt.APPO_CNT_APPO_STEPS
    let x := { x with updating := true, step := step, times := (x.times ++ [d.nowUs - x.began]).drop ((x.times.length + 1) - 16) }
    let d := d.setStand s x
    if x.prog.updCount = 0 then d.standUpdated s else d.standSubmit x x.prog.updList x.prog.updCount

/-! ### Commit (R177, R215, R224) -/

/-- The accelerators' part of a commit: threshold, history, version, COMMIT or update list. -/
def Dev.commitAcc (d : Dev) (job step a : Nat) : Dev :=
  match d.jobOf job with
  | none => d
  | some j => match j.accOf a with
    | none => d
    | some x => match x.mark with
      | none => d
      | some m =>
        let d := (d.commitHist j a x m).threshold job a
        (d.mirrorOut (d.versionOf j a x m step))

/-- The latest mark of the tray in a round. -/
def JobSt.lastMark (j : JobSt) : Nat := (j.acc.filterMap fun e => e.2.mark.map MarkInfo.time).foldl max 0

/-- STEPDEC commit on a controller in state 2 (R215): everything of the committed step becomes lasting, and N + 1 is open. -/
def Dev.commit (d : Dev) (job : Nat) : Dev :=
  match d.jobOf job with
  | none => d
  | some j =>
    let n := j.step
    let root := d.isRoot j
    let d := if root then d.progCommit job j.lastMark (d.predOf job j.desc.pred) (j.standIns != [] || j.standing != []) else d
    let d := d.pairUp
    let d := (j.acc.map (·.1)).foldl (fun (d : Dev) a => d.commitAcc job n a) d
    let d := d.cutCommit job n
    let d := d.dropTiles fun t => (j.accOf t.acc).isSome
    let p := d.predOf job j.desc.pred
    let d := d.onJob job fun j =>
      { j with gate := 1, step := n + 1, round := 0, reports := [], seeds := [], whole := false, lastRep := [], decided := false, pstep := p
               hashes := j.hashes.filter fun h => decide (n < h.step), heard := j.heard.filter fun h => decide (n < h.1)
               acc := j.acc.map fun (e : Nat × AccJob) => (e.1, e.2.clean 0) }
    let d := j.agents.foldl (fun (d : Dev) a => d.sendCommit job a n) d
    let d := d.adoptDue job (some n)
    let d := j.standIns.foldl (fun (d : Dev) a => d.standCommit a n) d
    let d := d.incU Cnt.AGR_CNT_AGR_STEPS
    (d.sendCuts job).drillCommit job n

/-- The root commits a step (R215, R239): the decision goes down, and with it a cut that is due. -/
def Dev.rootCommit (d : Dev) (job : Nat) : Dev :=
  match d.jobOf job with
  | none => d
  | some j => (((d.sendDec j j.step j.round 0 [] false).cadence job).cutDue job (j.step + 1)).commit job

/-! ### Replay (R219) -/

/-- Every tainted agent has acknowledged REPLAY: round r + 1 is open (R215). -/
def JobSt.replayed (j : JobSt) : JobSt :=
  if j.gate = 4 ∧ (j.acc.all fun e => e.2.replayHeld.isNone && e.2.replaySeq.isNone) then { j with gate := 1, round := j.round + 1 } else j

/-- The round that reports are taken for: while replaying, the one that opens next. -/
def JobSt.nextRound (j : JobSt) : Nat := if j.gate = 4 then j.round + 1 else j.round

/-- REPLAY of one tainted accelerator in the replaying gate (R216, R219, R224, R329): held until its MARK; a stand-in runs its step list
again. -/
def Dev.replayAcc (d : Dev) (job a thr : Nat) : Dev :=
  match d.jobOf job with
  | none => d
  | some j => match j.accOf a with
    | none => d
    | some x =>
      let d := d.closeRound job a
      if x.mark.isNone then d.onAcc job a fun x => { x with replayHeld := some thr }
      else if x.standIn then
        let d := d.tenseReplay job j.step (j.round + 1)
        let d := d.onAcc job a fun x => { x.clean (x.exec + 1) with replayHeld := none }
        match d.standOf a with
        | some s => d.standStep s j.step
        | none => d
      else (d.tenseReplay job j.step (j.round + 1)).sendReplay job a j.step thr

/-- A drill fails when the seeds of a round name its accelerator (R337): its tiles are not sampled, so a replica digest disagreed. -/
def Dev.drillSeeds (d : Dev) (job : Nat) (seeds : List Nat) : Dev :=
  if 2 ≤ d.drill.phase ∧ d.drill.job = job ∧ seeds.contains d.drill.acc then { d with drill := { d.drill with bad := true } } else d

/-- Own accelerators that the seeds name and whose error this controller did not see itself: replicas that a home judged with code 0x7, which
are suspects (R210, R213). -/
def Dev.unseenSuspects (d : Dev) (j : JobSt) (seeds : List Nat) : Dev :=
  ((j.acc.filter fun e => seeds.contains (d.accId e.1) && !e.2.bad).map (·.1)).foldl (fun (d : Dev) a => d.points a 0 1000) d

/-- STEPDEC replay on a controller (R215, R218, R219): tainted tiles that wait are dropped, those that run go on for the health record
(R216); a seed is replayed under threshold 4,096. -/
def Dev.replay (d : Dev) (job : Nat) (seeds : List Nat) (whole : Bool) : Dev :=
  match d.jobOf job with
  | none => d
  | some j =>
    let tainted := j.taint seeds whole
    let mine := (j.acc.filter fun e => tainted.contains e.2.index).map (·.1)
    let d := (d.drillSeeds job seeds).unseenSuspects j seeds
    let waits (t : TileRec) : Bool := t.phase == .waiting && mine.contains t.acc
    let d := d.dropTiles waits
    let d := d.onJob job fun j =>
      { j with gate := 4, reports := [], seeds := [], whole := false, lastRep := [], decided := false }
    let d := if d.isRoot j then d.progReplay job false else d
    let d := mine.foldl (fun (d : Dev) a => d.replayAcc job a (if seeds.contains (d.accId a) then 4096 else 0)) d
    d.onJob job JobSt.replayed

/-! ### Abandon (R215, R220) -/

/-- State 5 of R215: no COMMIT is sent, the agents' journals are left to restore. -/
def Dev.abandon (d : Dev) (job : Nat) : Dev :=
  match d.jobOf job with
  | none => d
  | some j =>
    let d := d.dropTiles fun t => (j.accOf t.acc).isSome
    let d := if d.isRoot j then d.progReplay job true else d
    d.onJob job fun j =>
      { j with gate := 5, reports := [], seeds := [], whole := false, decided := false, lastRep := []
               acc := j.acc.map fun (e : Nat × AccJob) => (e.1, { e.2 with replayHeld := none, replaySeq := none }) }

/-- The seeds of the last round become candidates (R220): the points of a candidate for own accelerators, beside those of a suspect. -/
def Dev.candidates (d : Dev) (job : Nat) (seeds : List Nat) (whole : Bool) : Dev :=
  match d.jobOf job with
  | some j => ((j.acc.map (·.1)).filter fun a => whole || seeds.contains (d.accId a)).foldl (fun (d : Dev) a => d.points a 3 3000)
      ((d.drillSeeds job seeds).unseenSuspects j seeds)
  | none => d

/-- The root abandons a step and restores (R220). -/
def Dev.rootAbandon (d : Dev) (job : Nat) (seeds : List Nat) (whole : Bool) : Dev :=
  match d.jobOf job with
  | none => d
  | some j =>
    let d := (d.sendDec j j.step j.round 2 seeds whole).candidates job seeds whole
    (d.abandon job).tryRestart job

/-! ### Failing and reporting (R215) -/

/-- The root decides a replay, or abandons the step at the limit (R219, R220). -/
def Dev.rootReplay (d : Dev) (job : Nat) : Dev :=
  match d.jobOf job with
  | none => d
  | some j =>
    if max 1 (limitTo (.rangeOr0 1 15) (j.reg Reg.AGR_LIMITS_max_replays)) ≤ j.round then
      (d.raise Src.AGR_replay_limit).rootAbandon job j.seeds j.whole
    else (d.sendDec j j.step (j.round + 1) 1 j.seeds j.whole).replay job j.seeds j.whole

/-- The root in state 3 (R215): at once when the whole job is tainted, else once every child and its own tray have reported. -/
def Dev.rootFailed (d : Dev) (job : Nat) : Dev :=
  match d.jobOf job with
  | none => d
  | some j =>
    if !d.isRoot j ∨ j.gate ≠ 3 then d
    else
      let all := decide (j.accs.length ≤ (j.taint j.seeds j.whole).length)
      let reported := (d.stepChildren j).all (fun c => (Tab.find c j.reports).isSome) && j.acc.all fun e => e.2.complete
      if all || reported then d.rootReplay job else d

/-- A disagreement (R215): STEPREP status 1 at once; a root merges what comes later. -/
def Dev.gateFail (d : Dev) (job : Nat) (seeds : List Nat) (whole : Bool) : Dev :=
  match d.jobOf job with
  | none => d
  | some j =>
    let all := (j.seeds ++ seeds).eraseDups
    if j.gate = 1 then
      let j := { j with gate := 3, seeds := all, whole := j.whole || whole }
      ((d.setJob j).sendRep j 1 (j.acc.length) all j.whole).rootFailed job
    else if j.gate = 3 then (d.setJob { j with seeds := all, whole := j.whole || whole }).rootFailed job
    else d

/-- The home judges its records once in a round, in whatever state the gate is then (R213). -/
def Dev.homeJudge (d : Dev) (job : Nat) : Dev :=
  match d.jobOf job with
  | none => d
  | some j => match d.homeDecides j with
    | none => d
    | some bad =>
      if j.decided then d
      else
        let d := d.onJob job fun j => { j with decided := true }
        if bad = [] then d
        else
          let d := bad.foldl (fun (d : Dev) e => e.2.foldl (fun (d : Dev) v => d.replicaVerdict j e.1 v) d) d
          d.gateFail job ((bad.flatMap fun e => e.2.map (·.1)).eraseDups) false

/-- The accelerators that a report of this controller covers: its own and those of its children's reports (R214). -/
def Dev.coveredBy (d : Dev) (j : JobSt) : Nat :=
  j.acc.length + ((d.stepChildren j).map fun c => ((Tab.find c j.reports).map fun r => r.2.1).getD 0).foldl (· + ·) 0

/-- Everything on this controller and below it agrees (R215). -/
def Dev.allAgree (d : Dev) (j : JobSt) : Bool :=
  j.decided && (j.acc.all fun e => e.2.complete && !e.2.bad) && (d.stepChildren j).all fun c => (Tab.find c j.reports).map (·.1) == some 0

/-- An open round with a verdict that counts as disagreement fails (R215): that of an untainted accelerator stands, though it became final
after the decision of the round before. -/
def Dev.standingBad (d : Dev) (job : Nat) : Dev :=
  match d.jobOf job with
  | some j =>
    let bad := (j.acc.filter fun e => e.2.bad).map fun e => d.accId e.1
    if j.gate = 1 ∧ bad ≠ [] then d.gateFail job bad false else d
  | none => d

/-- The gate looked at (R212, R213, R215): digests leave and replica digests are decided in states 1 and 3; once everything agrees STEPREP
status 0 leaves; a root whose reports cover the job commits. -/
def Dev.gateCheck (d : Dev) (job : Nat) : Dev :=
  match d.jobOf job with
  | none => d
  | some j =>
    let d := if j.gate = 1 ∨ j.gate = 3 then ((d.standingBad job).sendHashes job).homeJudge job else d
    match d.jobOf job with
    | none => d
    | some j =>
      if j.gate = 3 then d.rootFailed job
      else
        let covered := d.coveredBy j
        let d := if j.gate = 1 ∧ d.allAgree j then (d.onJob job fun j => { j with gate := 2 }).sendRep j 0 covered [] false else d
        if (j.gate = 1 ∨ j.gate = 2) ∧ d.allAgree j ∧ d.isRoot j ∧ covered = j.accs.length then d.rootCommit job else d

/-! ### An accelerator's round -/

/-- After a MARK or a verdict: a complete round gives its lag (R222, R224), its execution confirms removals (R202), and the gate is
looked at. -/
def Dev.accCheck (d : Dev) (job a : Nat) : Dev :=
  match d.jobOf job with
  | none => d
  | some j => match j.accOf a with
    | none => d
    | some x =>
      let got := match x.mark with | some m => decide (m.sampled ≤ x.tiles) | none => false
      let d := if got then (d.confirmRemovals a none).flushResid else d
      let d := if x.complete then d.closeRound job a else d
      d.gateCheck job

/-- The last accelerator of the tray has marked: Tense takes it (R356). -/
def Dev.markTense (d : Dev) (job : Nat) : Dev :=
  match d.jobOf job with
  | some j => if j.acc.all fun e => e.2.mark.isSome then d.tenseMark job j.step j.lastMark else d
  | none => d

/-- The tiles of an execution beyond those that its MARK counts are void (R203): one that waits gets that verdict, one already judged is
counted as void. The verdicts of the others are those that the round waits for. -/
def Dev.voidExcess (d : Dev) (job a sampled : Nat) : Dev :=
  match (d.jobOf job).bind fun j => (j.accOf a).map fun x => (j, x) with
  | none => d
  | some (j, x) =>
    let first := x.ids.take sampled
    let excess := ((x.ids.drop sampled).filter fun i => !first.contains i).eraseDups
    let mine (t : TileRec) : Bool := t.acc == a && t.step == j.step && t.exec == x.exec
    let open_ := (d.agr.tiles.filter mine).map TileRec.id
    let tooMany (t : TileRec) : Bool := mine t && excess.contains t.id
    let judged := excess.filter fun i => !open_.contains i && !x.voids.contains i
    let d := (d.agr.tiles.filter tooMany).foldl (fun (d : Dev) t => d.noteVerdict job t 6 31 0 0) (d.dropTiles tooMany)
    let d := judged.foldl (fun (d : Dev) _ => (d.incE Cnt.AGR_CNT_AGR_VOID).raise Src.AGR_agr_protocol) d
    d.onAcc job a fun x => { x with finals := first.length - (open_.filter first.contains).length }

/-- A MARK of the present execution (R175, R203, R215, R216): the tiles beyond those it sampled are void, a held REPLAY leaves. -/
def Dev.markIn (d : Dev) (job a : Nat) (m : MarkInfo) : Dev :=
  match d.jobOf job with
  | none => d
  | some j => match j.accOf a with
    | none => d
    | some x =>
      if m.step ≠ j.step ∨ m.exec ≠ x.exec ∨ x.mark.isSome then d
      else
        let d := d.onAcc job a fun x => { x with mark := some m }
        match x.replayHeld with
        | some thr => ((d.markTense job).replayAcc job a thr).onJob job JobSt.replayed
        | none =>
          ((d.voidExcess job a m.sampled).markTense job).accCheck job a

/-- An acknowledged REPLAY (R215). -/
def Dev.replayAcked (d : Dev) (a seq : Nat) : Dev :=
  match d.jobOfAcc a with
  | none => d
  | some j =>
    if (j.accOf a).bind AccJob.replaySeq = some seq then
      ((d.onAcc j.desc.job a fun x => { x with replaySeq := none }).onJob j.desc.job JobSt.replayed).gateCheck j.desc.job
    else d

/-! ### Reports and decisions from other controllers (R214, R215) -/

/-- STEPREP from a child (R214, R215): the first of a child in a round stands. -/
def Dev.stepRep (d : Dev) (src job step round status covered : Nat) (seeds : List Nat) (whole : Bool) : Dev :=
  match d.jobOf job with
  | none => d
  | some j =>
    if step ≠ j.step ∨ round ≠ j.nextRound ∨ j.gate = 0 ∨ j.gate = 5 ∨ (Tab.find src j.reports).isSome ∨ !(d.stepChildren j).contains src then d
    else
      let d := d.setJob { j with reports := Tab.insert src (status, covered, seeds, whole) j.reports }
      if status = 1 then (if j.gate = 1 ∨ j.gate = 3 then d.gateFail job seeds whole else d) else d.gateCheck job

/-- The reports that arrived while the gate replayed are looked at once it is open again. -/
def Dev.lateReports (d : Dev) (job : Nat) : Dev :=
  match d.jobOf job with
  | some j =>
    let failed := j.reports.filter fun e => e.2.1 == 1
    if j.gate = 1 ∧ failed ≠ [] then
      d.gateFail job ((failed.flatMap fun e => e.2.2.2.1).eraseDups) (failed.any fun e => e.2.2.2.2)
    else d
  | none => d

/-- STEPDEC commit (R215). -/
def Dev.decCommit (d : Dev) (job step : Nat) : Dev :=
  match d.jobOf job with
  | some j => if j.step = step ∧ j.gate = 2 then (d.sendDec j step j.round 0 [] false).commit job else d
  | none => d

/-- STEPDEC replay for round r + 1 (R215, R219). -/
def Dev.decReplay (d : Dev) (job step round : Nat) (seeds : List Nat) (whole : Bool) : Dev :=
  match d.jobOf job with
  | some j =>
    if j.step = step ∧ round = j.round + 1 ∧ 1 ≤ j.gate ∧ j.gate ≤ 3 then
      (((d.sendDec j step round 1 seeds whole).replay job seeds whole).gateCheck job).lateReports job
    else d
  | none => d

/-- STEPDEC abandon (R215, R220). -/
def Dev.decAbandon (d : Dev) (job step : Nat) (seeds : List Nat) (whole : Bool) : Dev :=
  match d.jobOf job with
  | some j =>
    if j.step = step ∧ 1 ≤ j.gate ∧ j.gate ≤ 4 then
      ((d.sendDec j step j.round 2 seeds whole).candidates job seeds whole).abandon job
    else d
  | none => d

/-- HASHES (R212, R213): digests of a round at their home; round 0xFF brings those of a cut (R242). -/
def Dev.hashesIn (d : Dev) (src job step round : Nat) (ps : List (Nat × Nat × Nat)) : Dev :=
  if round = 0xFF then ps.foldl (fun (d : Dev) p => d.cutDigest job p.2.1 p.1 p.2.2) d
  else (d.onJob job fun j => j.noteHashes step round src ps).gateCheck job

/-- A verdict of an accelerator's round is outstanding overdue_ms after its mark (R223): raised once for the round. -/
def Dev.verdictOverdue (d : Dev) (a : Nat) : Dev :=
  match d.jobOfAcc a with
  | none => d
  | some j => match j.accOf a with
    | some x =>
      if x.mark.isSome ∧ !x.complete ∧ !x.overdue then
        (d.onAcc j.desc.job a fun x => { x with overdue := true }).raise Src.AGR_verdict_overdue
      else d
    | none => d

/-! ### The step list of a stand-in (R329, R330) -/

/-- A stand-in's step list ends (R329): its mark area is read as a MARK with sampled 0, stamped now. -/
def Dev.standMark (d : Dev) (s : Nat) : Dev :=
  let x := d.standSt s
  if x.state ≠ 3 ∨ x.updating ∨ x.redo ∨ d.threadsOf x.ctx ≠ [] then d
  else match d.jobOf x.job with
    | none => d
    | some j => match j.accOf x.acc with
      | none => d
      | some a =>
        let w := d.ctxWord x.ctx 0x1000
        let n := 1 + bits 48 16 w + 2 * bits 32 16 w + bits 0 32 w / 8
        let ws := (List.range n).map fun i => d.ctxWord x.ctx (0x1000 + 8 * i)
        d.markIn x.job x.acc (markOf x.step a.exec d.time 0 ws)

/-- The stand-in's last step in thousandths (R331): the prediction before Apposition over the mean of its last steps. -/
def StandSt.rate (x : StandSt) : Nat :=
  let total := x.times.foldl (· + ·) 0
  if total = 0 then 0 else Nat.min 1023 (x.before * 1000 * x.times.length / total)

end Sys2Proof.Machine
end

