-- ==== Sys2Proof/Machine/Agree.lean ====
section
/-! DEFINITION. The Agreement engine (R198 to R211): operand cache, TILE records, class C pairs, the three-way decision; and the rows
MAT, CHECK, SIGNAL and THREAD_ISSUE, which class C threads share with the others. -/

namespace Sys2Proof.Machine

/-! ### Operand blocks arrive (R202, R203) -/

/-- OPND (R202, R203): checked against its identifier, cached and announced. -/
def Dev.opndIn (d : Dev) (a id : Nat) (bs : List Nat) : Dev :=
  match d.jobOfAcc a with
  | none => d
  | some j =>
    let d := d.addU Cnt.AGR_CNT_AGR_OPND_BYTES bs.length
    if bs.length ≠ idLen id ∨ crc64 bs ≠ id % 2 ^ 64 then
      { d with agr := { d.agr with corrupt := (d.agr.corrupt ++ [id]).eraseDups } }
    else
      let use := d.nextUse
      let held := d.cache.filter fun b => b.id != id
      let told := match d.block id with | some b => if b.removed.isNone then b.told else [] | none => []
      let d : Dev := { d with cache := held ++ [OpndBlock.mk id bs use told none]
                              agr := { d.agr with corrupt := d.agr.corrupt.filter (· != id) } }
      let room := j.agents.filter fun a => (d.residentOf a).contains id || decide ((d.residentOf a).length < 65536)
      let d := if room = [] then d else d.sendResid room [id] []
      d.evictBlocks (limitTo (.range 256 4096) (j.reg Reg.AGR_LIMITS_cache_mib) * 2 ^ 20) d.cache.length

/-! ### Verdicts (R209 to R211) -/

/-- The record whose pair runs on a thread. -/
def Dev.tileOn (d : Dev) (k : Nat) : Option TileRec := d.agr.tiles.find? fun t => t.place == some k

/-- The same record. -/
def TileRec.same (t u : TileRec) : Bool := t.acc == u.acc && t.step == u.step && t.exec == u.exec && t.id == u.id

/-- A record changed. -/
def Dev.setTile (d : Dev) (t : TileRec) : Dev :=
  { d with agr := { d.agr with tiles := d.agr.tiles.map fun u => if t.same u then t else u } }

/-- A core of the controller is a suspect (R210): points, and withdrawal after core_suspects times in 24 hours. -/
def Dev.suspectCore (d : Dev) (job place : Nat) : Dev :=
  let now := secOf d.time
  let hits := ((Tab.getD d.coreHits place []).filter fun t => decide (now < t + 86400)) ++ [now]
  let d := { d with coreHits := Tab.insert place hits (Tab.erase place d.coreHits) }
  let d := (d.points 8 2 250).raise Src.AGR_core_suspect
  let limit := match d.jobOf job with | some j => j.reg Reg.AGR_LIMITS_core_suspects | none => 2
  if max 1 (limitTo (.rangeOr0 1 15) limit) ≤ hits.length then d.coreFail (place / 32) (place % 32) else d

/-- Suspects of a verdict take their points (R209, R210, R315). -/
def Dev.verdictPoints (d : Dev) (job a code place : Nat) (core : Bool) : Dev :=
  let d := if code = 2 then d.points a 0 1000
    else if code = 3 then (d.points a 1 500).points 8 1 500 else d
  if core then d.suspectCore job place else d

/-- A verdict is final (R211): noted, the suspects take their points, and the gate takes it when it is of the present execution. core says
that the core of the first execution is a suspect; place3 is 31 without a third execution. -/
def Dev.verdict (d : Dev) (job : Nat) (t : TileRec) (code place3 n3 dist3 : Nat) (core : Bool) : Dev :=
  let bad : Bool := decide (2 ≤ code) && decide (code ≤ 5)
  let d := (d.noteVerdict job t code place3 n3 dist3).verdictPoints job t.acc code t.core1 core
  match (d.jobOf job).bind fun j => (j.accOf t.acc).map fun a => (j, a) with
  | none => d
  | some (j, a) =>
    if j.step ≠ t.step ∨ a.exec ≠ t.exec ∨ j.gate = 5 then d
    else
      let now := d.time
      let d := d.onAcc job t.acc fun a =>
        { a with finals := a.finals + 1, bad := a.bad || bad, lastFinal := now
                 voids := if code = 6 then a.voids ++ [t.id] else a.voids }
      let d := if bad then d.gateFail job [d.accId t.acc] false else d
      d.accCheck job t.acc

/-! ### TILE (R203, R204, R208) -/

/-- The finding of R203 that makes a tile void: a block missing, K or the declaration wrong, a format refused, or a body too short. -/
def Dev.tileVoid (d : Dev) (a : Nat) (t : Tile) : Bool :=
  let p := d.profile (declEntry a t.decl)
  let sumK (ids : List Nat) : Nat := (ids.map blockK).foldl (· + ·) 0
  let mx := ((Fmt.ofCode t.fmtC).map Fmt.isMx).getD false
  !((t.idsA ++ t.idsB).all fun i => (d.block i).isSome && !d.lostBlock i) || p.mode == 0 || sumK t.idsA != t.k || sumK t.idsB != t.k ||
    (t.fmtC == 6 && !p.intAcc) || (mx && t.n % 32 != 0) || t.m == 0 || t.n == 0 || t.result.length != tileBytes t.fmtC t.m t.n ||
    (t.acc && t.cin.length != tileBytes t.fmtC t.m t.n) || (matError p t.mat).isSome

/-- A TILE arrives (R203, R204, R208): void, wrong at once, or in line for its pair. -/
def Dev.tileIn (d : Dev) (a : Nat) (ws : List Nat) : Dev :=
  let d := d.incU Cnt.AGR_CNT_AGR_TILES
  match d.jobOfAcc a with
  | none => d
  | some j => match j.accOf a with
    | none => d
    | some x =>
      let t := Tile.ofBody ws
      let d := (d.confirmRemovals a (some t.gen)).flushResid
      if t.step ≠ j.step ∨ t.exec ≠ x.exec then d.incE Cnt.AGR_CNT_AGR_VOID
      else
        let job := j.desc.job
        let use := d.nextUse
        let named := t.idsA ++ t.idsB
        let d := { d with cache := d.cache.map fun (b : OpndBlock) => if named.contains b.id then { b with used := use } else b }
        let excess := match x.mark with | some m => decide (m.sampled ≤ x.tiles) | none => false
        let r : TileRec := ⟨a, t.step, t.exec, t.id, ws, .waiting, none, [], 0, 0, 0xFFFFFFFF, 0, 31, 0, 0, none⟩
        if excess then d.noteVerdict job r 6 31 0 0
        else
          let d := d.onAcc job a fun x => { x with tiles := x.tiles + 1, ids := x.ids ++ [t.id], named := setBit x.named t.decl }
          if x.ids.contains t.id then d.verdict job r 6 31 0 0 false
          else if named.any d.agr.corrupt.contains then d.verdict job r 4 31 0 0 false
          else if d.tileVoid a t then d.verdict job r 6 31 0 0 false
          else if t.ds && recExp (d.flowRec t.record) != t.scaleE then d.verdict job r 5 31 0 0 false
          else { d with agr := { d.agr with tiles := d.agr.tiles ++ [r] } }

/-! ### Class C pairs (R204 to R209) -/

/-- Whether a tile may go to a cluster: a pair that a partition's safe state took runs in another partition, where one is in service (R207);
a third execution runs on the other tile of the package, or, when no partition of it is in service, on another cluster (R209). -/
def Dev.tileFits (d : Dev) (t : TileRec) (cl : Nat) : Bool :=
  (t.avoid != some (cl / 2) || !((List.range 16).any fun p => p != cl / 2 && d.partState p == 0)) &&
  match t.phase with
  | .waiting => true
  | .waitThird =>
    let c1 := t.core1 / 32
    let other := (List.range 16).any fun p => p / 8 != c1 / 16 && d.partState p == 0
    if other then cl / 16 != c1 / 16 else cl != c1
  | _ => false

/-- Free reference entries of a cluster for a tile, lowest first, as a mask (R142, R207). -/
def Dev.takeRefs (d : Dev) (cl n : Nat) : Option Nat :=
  let held := d.get (Reg.RED_REF_STATUS_held cl)
  let free := ((List.range 16).filter fun i => !bitAt i held).take n
  if free.length = n then some (free.foldl setBit 0) else none

/-- A cluster runs class C pairs: its partition, its threads and its reduction unit are in service (R27, R112, R382). -/
def Dev.pairsRun (d : Dev) (cl : Nat) : Bool :=
  d.partState (cl / 2) == 0 && !d.frozen (cl / 2) && d.pageOn (cluPage cl) && d.pageOn (redPage cl)

/-- A cluster could take a tile now: free reference entries and an idle class C thread (R204). -/
def Dev.tileOpen (d : Dev) (t : TileRec) (cl : Nat) : Bool :=
  let x := Tile.ofBody t.body
  d.pairsRun cl && d.tileFits t cl && (d.takeRefs cl (tileEntries (tileCode x.m x.n))).isSome &&
    (List.range 32).any fun th => (d.thread (cl * 256 + th)).state == .idle

/-- The partitions whose SRAM holds a tile's blocks (R202, R204; log entry 53). -/
def Tile.homes (t : Tile) : List Nat := ((t.idsA ++ t.idsB).map fun i => Config.heldIn i % 16).eraseDups

/-- A tile is left to a cluster of a partition whose SRAM holds its blocks, while one could take it (R204). -/
def Dev.leavesTile (d : Dev) (t : TileRec) (cl : Nat) : Bool :=
  let homes := (Tile.ofBody t.body).homes
  !homes.contains (cl / 2) && homes.any fun p => d.tileOpen t (2 * p) || d.tileOpen t (2 * p + 1)

/-- An idle class C thread takes the next tile in order of arrival (R111, R204, R207): references filled, its pair is ready. Which of the
clusters that the preference leaves takes it is the sender's choice (log entry 49). -/
def Dev.dispatchTile (d : Dev) (k : Nat) : Dev :=
  let cl := k / 256
  if !d.pairsRun cl then d
  else match d.agr.tiles.find? fun t => d.tileFits t cl && !d.namesLost (Tile.ofBody t.body) with
    | none => d
    | some t =>
      let x := Tile.ofBody t.body
      match d.takeRefs cl (tileEntries (tileCode x.m x.n)), d.leavesTile t cl with
      | none, _ | _, true => d
      | some mask, false =>
        let t := if t.phase = .waiting then { t with slot := d.freeSlot } else t
        let d := if t.phase = .waitThird then d.incU Cnt.AGR_CNT_AGR_THIRD else d
        let d := d.put (Reg.RED_REF_STATUS_held cl) (d.get (Reg.RED_REF_STATUS_held cl) ||| mask)
        let d := d.setTile { t with place := some k, phase := if t.phase = .waiting then .first else .third
                                    refs := Tab.update t.refs cl 0 fun m => m ||| mask }
        d.setThread k { Thread.reset with state := .ready, task := t.id, list := t.pair cl mask, counters := (d.thread k).counters }

/-- Tiles that wait and name a block lost with a slice are void (R376). -/
def Dev.voidLost (d : Dev) : Dev :=
  (d.agr.tiles.filter fun t => (t.phase == .waiting || t.phase == .waitThird) && d.namesLost (Tile.ofBody t.body)).foldl (fun (d : Dev) t =>
    match d.jobOfAcc t.acc with
    | some j => d.verdict j.desc.job t 6 31 0 0 false
    | none => d) d

/-- THREAD_ISSUE (R111, R112, R204): an idle class C thread is given a tile, another thread competes for its engines. -/
def execThreadIssue (cl : Fin 32) (th : Fin 256) (s : State) : Host.Outcome State Fault Refusal :=
  let k := threadKey cl th
  .next { s with dev := if th.val < 32 ∧ (s.dev.thread k).state = .idle then s.dev.dispatchTile k else s.dev.issueThread k }

/-- A class C descriptor ends with an error (R101, R115, R471): its record waits to be executed again. -/
def Dev.classCFails (d : Dev) (k : Nat) (t : TileRec) (code : Nat) : Dev := (d.setTile t.giveUp).descError k code

/-- Operations of a first or third execution count in DEV_CHK_KOPS (R429), in units of 1,024. -/
def Dev.checkedOps (d : Dev) (macs : Nat) : Dev :=
  let n := d.chkRest + 2 * macs
  { d.addU Reg.DEV_CHK_KOPS_kops (n / 1024) with chkRest := n % 1024 }

/-- The MAT of a class C pair (R104, R204, R471): its tile enters the queue. It waits while every core holds a finished tile (R144). -/
def Dev.tileMat (d : Dev) (k cycles : Nat) (wrong : List WrongElem) : Dev :=
  match d.current k 1, d.tileOn k with
  | some _, some t =>
    let u := d.thread k
    let x := Tile.ofBody t.body
    let next := u.desc (u.idx + 1)
    if !(descKind next == 5 && (CheckBody.ofDesc next).srcQ) then d.classCFails k t 0x07
    else match matError u.profile x.mat with
      | some code => d.classCFails k t code
      | none =>
        if d.coresFree (k / 256) = 0 then d else
        let n := tileCount (tileCode x.m x.n) x.m x.n
        let d := d.enqueue k (x.m, x.n) (tileCode x.m x.n) (spoilResult wrong (matResult (d.gather x) u.profile x.mat))
        let d := ((d.addU (Cnt.CLU_CNT_TILES_C (k / 256)) n).addU (Cnt.CLU_CNT_CORE_BUSY (k / 256)) cycles).checkedOps (x.m * x.n * x.k)
        (d.bump k [(0, cycles), (3, n)]).retire k true
  | _, _ => d

/-- MAT: sram is what the slice reports while it runs (R393), wrong what failing cores compute (log entry 38). -/
def execMat (cl : Fin 32) (th : Fin 256) (cycles : BitVec 32) (sram : SramUpset) (wrong : List WrongElem) (s : State) :
    Host.Outcome State Fault Refusal :=
  let d := s.dev.sramUpset (cl / 2) sram
  .next { s with dev := if th.val < 32 then d.tileMat (threadKey cl th) cycles.toNat wrong else d.mat (threadKey cl th) cycles.toNat wrong }

/-- The tile of the queue as a CHECK converts it, by rows, elements and scales (R159, R205). -/
def checkTile (p : Profile) (b : CheckBody) (cells : List (List Cell)) : List (List Nat × List Nat) :=
  let scale (c : Cell) : Cell := match c with | .num v => if b.ds then .num (v.scale b.scaleE) else .num v | .int i => .int i
  cells.map fun row => storeRow p ((Fmt.ofCode b.fmt).getD .fp32) (b.fmt == 6) (row.map scale)

/-- The error that a CHECK ends with (R101, R205, R471): no MAT before it whose tile it takes, a dimension out of range, or an MX row that is
not a multiple of 32. -/
def checkError (t : Thread) (b : CheckBody) : Option Nat :=
  let prev := t.desc (t.idx - 1)
  let mx := ((Fmt.ofCode b.fmt).map Fmt.isMx).getD false
  if b.srcQ && !(t.idx != 0 && descKind prev == 1 && (MatBody.ofDesc prev).ftqOut) then some 0x07
  else if b.m = 0 ∨ 256 < b.m ∨ b.n = 0 ∨ 256 < b.n then some 0x07
  else if mx && b.n % 32 != 0 then some 0x07
  else if (Fmt.ofCode b.fmt).isNone || t.profile.mode == 0 then some 0x06
  else none

/-- The three-way decision (R209): whether the accelerator agrees with the third, and first with third where that is compared. -/
def threeWay (accAgrees : Bool) (firstAgrees : Option Bool) : Nat × Bool :=
  match accAgrees, firstAgrees with
  | true, some true => (1, false)
  | true, _ => (1, true)
  | false, some true => (2, false)
  | false, _ => (3, true)

/-- A record is judged and leaves the engine, its thread is idle and its reference entries are free (R207, R209, R211). -/
def Dev.tileJudged (d : Dev) (t : TileRec) (code place3 n3 dist3 : Nat) (core : Bool) : Dev :=
  let d := d.dropTiles t.same
  match d.jobOfAcc t.acc with
  | none => d
  | some j => d.verdict j.desc.job t code place3 n3 dist3 core

/-- The engine takes a compare result (R206, R207, R209): place is the core that computed the tile, as cluster × 32 + core. -/
def Dev.tileNext (d : Dev) (k place mode : Nat) (t : TileRec) (r : CompareResult) : Dev :=
  match t.phase with
  | .first =>
    if r.nDisagree = 0 then d.tileJudged { t with core1 := place } 0 31 0 0 false
    else (d.setTile { t with phase := .waitThird, place := none, core1 := place, dis1 := r.nDisagree, first1 := r.first }).freeThread k
  | .third =>
    let t := { t with core3 := place, dis3 := r.nDisagree, dist3 := Nat.min r.maxDist 0xFFFFFFFF }
    if r.nDisagree = 0 ∧ mode ≠ 2 then d.tileJudged t 1 place 0 t.dist3 true
    else
      let u := d.thread k
      let d := if r.nDisagree = 0 then d.freeRefs t else d
      let t := if r.nDisagree = 0 then { t with refs := [] } else t
      (d.setTile { t with phase := .compare }).setThread k { u with
        state := .ready, begun := false, idx := 0, list := [t.secondCheck (k / 256)], queue := [], mdims := none, qEntries := 0, qHeld := 0 }
  | _ =>
    let o := threeWay (t.dis3 == 0) (some (r.nDisagree == 0))
    d.tileJudged t o.1 t.core3 t.dis3 t.dist3 o.2

/-- A CHECK (R159, R161, R205, R206): the tile of the queue or at src against the reference entries or ref; the compare result goes to dst
and a converted tile that disagrees to keep; a third execution in mode 2 is kept in any case (log entry 49). core is the physical core that
computed the tile. -/
def Dev.tileCheck (d : Dev) (k core cycles : Nat) : Dev :=
  match d.current k 5, d.tileOn k with
  | some x, some t =>
    let u := d.thread k
    let b := CheckBody.ofDesc x
    let p := u.profile
    match checkError u b with
    | some code => d.classCFails k t code
    | none =>
      if b.srcQ && u.qHeld != 0 then d
      else
        let mine := if b.srcQ then checkTile p b u.queue else d.sramRows b.fmt b.src b.m b.n
        let ref := if b.refBuf then (Tile.ofBody t.body).rows else d.sramRows b.fmt b.ref b.m b.n
        let r := compareTile p ((Fmt.ofCode b.fmt).getD .fp32) (b.fmt == 6) b.n mine ref
        let d := d.sramWrites (placeBytes b.dst (wordBytes r.words))
        let keep := b.keepBad && b.srcQ && (r.nDisagree != 0 || (t.phase == .third && p.mode == 2))
        let d := if keep then d.sramWrites (rowWrites b.fmt b.keep b.m b.n mine) else d
        let d := (d.incU (Cnt.RED_CNT_CMP_TILES (k / 256))).addU (Cnt.RED_CNT_DIGEST_BYTES (k / 256))
          ((mine.map fun r => r.1.length + r.2.length).foldl (· + ·) 0)
        let d := if r.nDisagree = 0 then d else d.incE (Cnt.RED_CNT_CMP_DISAGREE (k / 256))
        (d.bump k [(0, cycles), (8, 1)]).tileNext k (k / 256 * 32 + core) p.mode t r
  | _, _ => d

/-- A CHECK whose compare datapath or reference fails yields no result (R159, R161): it ends with 0x0C and its pair runs again. -/
def Dev.checkLost (d : Dev) (k : Nat) (u : RedUpset) : Dev :=
  match d.current k 5, d.tileOn k with
  | some _, some t => ((d.freeThread k).setTile t.giveUp).redUpset (k / 256) u
  | _, _ => d.redUpset (k / 256) u

/-- CHECK: a compare on a class C thread; no software context issues one (R103). -/
def execCheck (cl : Fin 32) (th : Fin 256) (core : Fin 17) (cycles : BitVec 32) (upset : RedUpset) (s : State) : Host.Outcome State Fault Refusal :=
  let k := threadKey cl th
  .next { s with dev := if upset = .none then s.dev.tileCheck k core cycles.toNat else s.dev.checkLost k upset }

/-- A SIGNAL (R107, R108): a semaphore is added to or set; an operation above 1 ends with 0x07; an out-entry of a stand-in is relayed
(R333). A suspect's re-run changes nothing (R380). -/
def Dev.signal (d : Dev) (k : Nat) : Dev :=
  match d.current k 7 with
  | none => d
  | some x =>
    let t := d.thread k
    let sem := bits 0 8 (wd x 1)
    if 1 < bits 8 2 (wd x 1) then d.descError k 0x07
    else if t.replay then d.retire k false
    else ((d.retire k false).semaphore t.ctx sem (bits 8 2 (wd x 1)) (bits 32 32 (wd x 1))).relaySignal t.ctx sem

def execSignal (cl : Fin 32) (th : Fin 256) (s : State) : Host.Outcome State Fault Refusal :=
  .next { s with dev := s.dev.signal (threadKey cl th) }

end Sys2Proof.Machine
end

