-- ==== Sys2Proof/Machine/Start.lean ====
section
/-! DEFINITION. Starting and ending a job (R308 to R314): the chunks of a descriptor, the checks of a node, acknowledgements, commit,
abort, and the end of a job on a controller. -/

namespace Sys2Proof.Machine

/-! ### Bodies (R311) -/

/-- The first word of a start message: job and admission epoch. -/
def JobSt.startWord (j : JobSt) : Nat := word2 j.desc.job j.admEpoch

/-- A JOBSTART body. -/
def JobSt.chunkBody (j : JobSt) (seq : Nat) (bs : List Nat) : List Nat :=
  [j.startWord, pack [(48, 16, seq), (32, 16, j.total), (16, 16, j.root)]] ++ wordsOfBytes bs

/-- A JOBGO body: go, or abort with a result. -/
def JobSt.goBody (j : JobSt) (abort : Bool) (result : Nat) : List Nat := [j.startWord, pack [(56, 8, b2n abort), (48, 8, result)]]

/-! ### The descriptor as it arrives (R312) -/

/-- A start of which nothing has arrived. -/
def JobSt.starting (job adm root total : Nat) : JobSt where
  desc := ⟨job, 0, 0, 0, 0, [], [], [], 0⟩
  accs := []
  root := root
  admEpoch := adm
  phase := 0
  chunks := []
  total := total
  acks := []
  acked := none
  reparents := []
  status := 0
  failChip := 0
  latch := []
  gate := 0
  step := 0
  round := 0
  acc := []
  reports := []
  seeds := []
  whole := false
  lastRep := []
  decided := false
  hashes := []
  heard := []
  base := 0
  lastCut := 0
  nextCut := 0
  interval := 0
  risk := 0
  hazards := []
  watchers := []
  elided := []
  genCount := 0
  deferred := false
  recut := false
  row0 := 0
  slots := []
  cut := none
  rest := RestSt.none
  restResult := 0
  tried := 0
  adopts := []
  boundary := none
  standing := []
  lost := []
  pstep := 0
  taking := []
  drillIdx := none
  sentHazard := none
  moves := []
  begun := []
  adoptSeen := []

/-- The bytes of the chunks that follow the first without a gap. -/
def JobSt.held (j : JobSt) : List Nat :=
  ((List.range j.total).takeWhile fun i => (Tab.find i j.chunks).isSome).flatMap fun i => Tab.getD j.chunks i []

/-- The accelerator table, once its bytes are held (R308): the start tree is known from it. -/
def tableOf (bs : List Nat) : List Nat :=
  let a := numAt bs 0x1C 2
  if 0x30 + 4 * a ≤ bs.length then (numsAt bs 0x30 4 a).map fun e => bits 16 16 e * 8 + e % 8 else []

/-- A descriptor in chunks of 64 KiB (R311). -/
def jobChunks (bs : List Nat) : List (List Nat) := (chunksOf 65536 (bs.length / 65536 + 1) bs).filter (· != [])

/-- Chunks to a start-tree child (R312 steps 1, 2, 5 and 6). -/
def Dev.sendChunks (d : Dev) (j : JobSt) (child from_ : Nat) : Dev :=
  (j.chunks.filter fun e => decide (from_ ≤ e.1)).foldl (fun (d : Dev) e => d.send child 0x20 (j.chunkBody e.1 e.2)) d

/-! ### The checks of a node (R309, R312) -/

/-- Links that the plan expects and that are missing among some ports (R276, R289). -/
def Dev.missingLinks (d : Dev) (ports : List Nat) : Nat :=
  (ports.filter fun i => d.flag (Reg.PORT_PLAN_expected i) && [6, 7, 8].contains (d.get (Reg.PORT_STATUS_state i))).length

/-- An accelerator of the tray can be admitted (R164, R174, R192): present, declared, with a shipping buffer, in no other job. -/
def Dev.admissible (d : Dev) (job a : Nat) : Bool :=
  d.flag (Reg.AGP_STATUS_present a) && d.flag (Reg.AGP_STATUS_decl a) && d.get (Reg.ASMP_SHIP_pages a) != 0 &&
    !(d.jobs.any fun e => e.1 != job && e.2.accs.contains (d.accId a))

/-- An accelerator of a job table is a member (R290). -/
def Dev.accIn (d : Dev) (x : Nat) : Bool := d.isIn (x / 8) && !bitAt (x % 8) (d.viewEnt (x / 8)).accExp

/-- The record range of a descriptor, from the first number up to the number after the last (R308). -/
def JobDesc.range (x : JobDesc) : Nat × Nat := (x.recFirst, x.recFirst + x.recs.length)

/-- Another job on this controller has a record range that overlaps, or the flow table does not hold the range (R227, R309 code 0x05). -/
def Dev.overlaps (d : Dev) (j : JobSt) : Bool :=
  let (a, b) := j.desc.range
  decide (2 ^ 24 < b) || d.jobs.any fun e => e.1 != j.desc.job && decide (a < e.2.desc.range.2) && decide (e.2.desc.range.1 < b)

/-- The result of a node's own checks (R309). -/
def Dev.nodeCheck (d : Dev) (j : JobSt) : Nat :=
  let mine := (j.local d.chip).map (·.2)
  let g := (d.boot.plan.map PlanInfo.admitG).getD 0
  let x := (d.boot.plan.map PlanInfo.admitX).getD 0
  if !(j.accs.all d.accIn) || mine.any fun a => !d.admissible j.desc.job a then 0x02
  else if mine.any fun a => !d.declsOk a then 0x03
  else if g < d.missingLinks gPorts ∨ x < d.missingLinks xPorts then 0x04
  else if d.overlaps j then 0x05
  else if (d.firstFit j).isNone then 0x06
  else 0x00

/-! ### Go and abort (R312, R313) -/

/-- The job is admitted on a controller that holds an accelerator of it (R215, R225, R229, R231, R232, R355); the rack's pairing is computed
(R247). -/
def Dev.admitJob (d : Dev) (job : Nat) : Dev :=
  match d.jobOf job with
  | none => d
  | some j =>
    let mine := j.local d.chip
    let j := { j with phase := 2, latch := latchedFields.map fun f => (f.key, d.get f) }
    let i := cutInterval j 0 (mine.any fun e => d.underWatch e.2)
    let j := { j with
      acc := mine.foldl (fun (t : Tab AccJob) e => Tab.insert e.2 (AccJob.fresh e.1 (d.baseOf j e.2) false) t) []
      gate := if mine = [] then 0 else 1, step := j.desc.first, pstep := j.desc.pred
      lastCut := j.desc.first, interval := i, nextCut := j.desc.first + i }
    let d := (d.setJob j).repair
    if mine = [] then d
    else
      let d := j.desc.recs.foldl (fun (d : Dev) r => d.reflow j r) d
      let d := mine.foldl (fun (d : Dev) e => d.installDecls e.2) d
      let d := d.tenseTake job j.desc.first j.desc.pred
      let d := if d.chip = j.root then d.progStart job j.desc.pred else d
      mine.foldl (fun (d : Dev) e => d.sendJob job e.2 j.desc.first) d

/-- The last start as MBR_JOB_STATUS shows it (R318). -/
def Dev.startResult (d : Dev) (job result : Nat) : Dev :=
  let d := (((d.put Reg.MBR_JOB_STATUS_job job).put Reg.MBR_JOB_STATUS_result result).put Reg.MBR_JOB_STATUS_done 1).put Reg.MBR_JOB_STATUS_busy 0
  if result = 0 then d else d.raise Src.MBR_job_start_failed

/-- JOBGO go on a node that holds the whole descriptor (R312 step 7); it acts once (R313). -/
def Dev.startGo (d : Dev) (job : Nat) : Dev :=
  match d.jobOf job with
  | none => d
  | some j =>
    if j.phase ≠ 1 then d
    else
      let d := (d.sendAll (d.startChildren j) 0x22 (j.goBody false 0)).admitJob job
      if d.chip = j.root then d.startResult job 0 else d

/-- A start is over here: its messages are duplicates from now on (R311). -/
def Dev.startOver (d : Dev) (j : JobSt) (result : Nat) : Dev :=
  { d with mbr := { d.mbr with ended := d.mbr.ended ++ [(j.desc.job, j.admEpoch, result)] } }

/-- A start ends without a job (R312 step 8, R313): the abort goes down; a controller that is not starting a job of its own shows the result. -/
def Dev.startAbort (d : Dev) (job result : Nat) : Dev :=
  match d.jobOf job with
  | none => d
  | some j =>
    if j.phase = 2 then d
    else
      let d := d.sendAll (d.startChildren j) 0x22 (j.goBody true result)
      let d := { d.startOver j result with jobs := Tab.erase job d.jobs }
      if d.chip = j.root ∨ !d.flag Reg.MBR_JOB_STATUS_busy then d.startResult job result else d.raise Src.MBR_job_start_failed

/-- The acknowledgement of a node that holds every chunk and has heard each child, sent again when what it says has changed; at the root the
decision (R312 steps 3, 4, 7 and 8, R313). -/
def Dev.startAcks (d : Dev) (job : Nat) : Dev :=
  match d.jobOf job with
  | none => d
  | some j =>
    let kids := d.startChildren j
    let got := j.acks.filter fun e => kids.contains e.1
    let bad := ((d.chip, 1, j.status, j.failChip) :: got).find? fun e => e.2.2.1 != 0
    let covered := 1 + (got.map fun e => e.2.1).foldl (· + ·) 0
    if j.phase ≠ 1 then d
    else if d.chip = j.root then
      let d := d.put Reg.MBR_JOB_STATUS_covered covered
      match bad with
      | some b => d.startAbort job b.2.2.1
      | none => if got.length = kids.length ∧ covered = ((d.startNodes j).filter d.live).length then d.startGo job else d
    else
      let (status, fail) := (bad.map fun b => b.2.2).getD (0, 0)
      if got.length ≠ kids.length ∨ j.acked = some (covered, status, fail) then d
      else
        let d := d.setJob { j with acked := some (covered, status, fail) }
        match d.startParent j with
        | some p => d.send p 0x21 [j.startWord, pack [(32, 32, covered), (24, 8, status), (0, 16, fail)]]
        | none => d

/-- Every chunk is held: the descriptor is read, the node's own checks are made (R312 step 3), and the job's rows are set aside (R232). -/
def Dev.startHeld (d : Dev) (job : Nat) : Dev :=
  match d.jobOf job with
  | none => d
  | some j =>
    if j.phase ≠ 0 ∨ j.chunks.length ≠ j.total then d
    else
      let desc := parseJob j.held
      let j := { j with phase := 1, desc := desc.getD j.desc, accs := (desc.map JobDesc.accs).getD j.accs }
      let status := if desc.isNone then 0x01 else d.nodeCheck j
      (d.setJob { j with status := status, failChip := if status = 0 then 0 else d.chip, row0 := (d.firstFit j).getD 0 }).startAcks job

/-- JOBSTART (R311, R312 steps 2 and 3): a chunk already held is a duplicate, as is one of a start that is over here. -/
def Dev.jobStart (d : Dev) (job adm seq total root : Nat) (bs : List Nat) : Dev :=
  let past := d.mbr.ended.any fun e => e.1 == job && e.2.1 == adm
  let d := if (d.jobOf job).isNone && !past then d.setJob (JobSt.starting job adm root total) else d
  match d.jobOf job with
  | none => d
  | some j =>
    if j.admEpoch ≠ adm ∨ j.phase ≠ 0 ∨ j.total ≤ seq ∨ (Tab.find seq j.chunks).isSome then d
    else
      let j' := { j with chunks := Tab.insert seq bs j.chunks }
      let j' := { j' with accs := if j.accs = [] then tableOf j'.held else j.accs }
      let d := d.setJob j'
      let d := if j'.accs = [] then d
        else if j.accs = [] then (d.startChildren j').foldl (fun (d : Dev) c => d.sendChunks j' c 0) d
        else d.sendAll (d.startChildren j') 0x20 (j'.chunkBody seq bs)
      d.startHeld job

/-- The abort of a start that is over here is sent again to a node that has not heard it (R313). -/
def Dev.abortAgain (d : Dev) (node job adm : Nat) : Dev :=
  match d.mbr.ended.find? fun e => e.1 == job && e.2.1 == adm && e.2.2 != 0 with
  | some e => if (d.jobOf job).isNone then d.send node 0x22 [word2 job adm, pack [(56, 8, 1), (48, 8, e.2.2)]] else d
  | none => d

/-- JOBACK from a child (R312 step 4): the same one again is a duplicate, a later one says what the child covers now (R313). A child that
acknowledges after the decision has not heard it. -/
def Dev.jobAck (d : Dev) (src job adm covered status fail : Nat) : Dev :=
  match d.jobOf job with
  | none => d.abortAgain src job adm
  | some j =>
    if j.admEpoch ≠ adm then d
    else if j.phase = 2 then d.send src 0x22 (j.goBody false 0)
    else if Tab.find src j.acks = some (covered, status, fail) then d
    else (d.setJob { j with acks := Tab.insert src (covered, status, fail) (Tab.erase src j.acks) }).startAcks job

/-- A start message of a job names its admission epoch (R311). -/
def Dev.withStart (d : Dev) (job adm : Nat) (f : JobSt → Dev) : Dev :=
  match d.jobOf job with
  | some j => if j.admEpoch = adm then f j else d
  | none => d

/-- JOBACK is late (R312 step 5): every chunk is sent again; once the job has started JOBGO is (R313). -/
def Dev.jobAckLate (d : Dev) (job child : Nat) : Dev :=
  match d.jobOf job with
  | some j =>
    if !(d.startChildren j).contains child then d
    else if j.phase = 2 then d.send child 0x22 (j.goBody false 0)
    else if (Tab.find child j.acks).isSome then d
    else d.sendChunks j child 0
  | none => d

/-- A node whose parent has left the view, or is silent for 20 ms, turns to its nearest live ancestor (R312 step 6): REPARENT, and its
acknowledgement, if it was given, again. -/
def Dev.orphan (d : Dev) (job : Nat) : Dev :=
  match d.jobOf job with
  | some j => match (if j.phase = 2 then none else d.startParent j) with
    | some p =>
      ((d.send p 0x23 [j.startWord, pack [(48, 16, d.chip), (32, 16, j.chunks.length)]]).setJob { j with acked := none }).startAcks job
    | none => d
  | none => d

/-- REPARENT (R312 step 6, R313): the orphan is sent the chunks it lacks, and the decision if it is made; the same one again is a duplicate
(R311). -/
def Dev.reparent (d : Dev) (job adm orphan held : Nat) : Dev :=
  match d.jobOf job with
  | none => d.abortAgain orphan job adm
  | some j =>
    if j.admEpoch ≠ adm ∨ j.reparents.contains (orphan, held) then d
    else
      let d := (d.setJob { j with reparents := j.reparents ++ [(orphan, held)] }).sendChunks j orphan held
      if j.phase = 2 then d.send orphan 0x22 (j.goBody false 0) else d

/-- A start has not ended within 2,000 ms (R309, R313): the root aborts, other nodes discard it, and a new root records 0x08. -/
def Dev.startTimeout (d : Dev) (job : Nat) : Dev :=
  match d.jobOf job with
  | none => d
  | some j =>
    if j.phase = 2 then d
    else if d.chip = j.root then d.startAbort job 0x09
    else
      let next := (d.startNodes j).find? d.live == some d.chip
      let d := { d.startOver j 0x08 with jobs := Tab.erase job d.jobs }
      if next ∧ !d.flag Reg.MBR_JOB_STATUS_busy then d.startResult job 0x08 else d

/-! ### Submitting a job (R308, R312 step 1) -/

/-- The root's own checks that end a start with 0x01 (R309). -/
def Dev.rootOk (d : Dev) (x : JobDesc) : Bool :=
  d.isMember && (d.jobOf x.job).isNone && x.accs.any fun a => a / 8 == d.chip

/-- MBR_JOB_CTRL.go (R308, R312): as many bytes as MBR_JOB_CTRL.len says are the descriptor, at most 64 MiB (R318). -/
def Dev.jobSubmit (d : Dev) (dma : Dma) : Dev :=
  let d := d.put Reg.MBR_JOB_CTRL_go 0
  if d.flag Reg.MBR_JOB_STATUS_busy then d
  else
    let d := d.dmaRead dma
    let bs := ((dma.getD []).take (limitTo (.range 64 67108864) (d.get Reg.MBR_JOB_CTRL_len))).map BitVec.toNat
    let d := ((d.put Reg.MBR_JOB_STATUS_job (numAt bs 4 4)).put Reg.MBR_JOB_STATUS_covered 0).put Reg.MBR_JOB_STATUS_result 0
    match parseJob bs with
    | none => d.startResult (numAt bs 4 4) 0x01
    | some x =>
      if !d.rootOk x then d.startResult x.job 0x01
      else
        let cs := jobChunks bs
        let j := { JobSt.starting x.job d.epoch d.chip cs.length with desc := x, accs := x.accs, phase := 1, chunks := cs.zipIdx.map fun c => (c.2, c.1) }
        let status := d.nodeCheck j
        let d := (d.put Reg.MBR_JOB_STATUS_busy 1).setJob
          { j with status := status, failChip := if status = 0 then 0 else d.chip, row0 := (d.firstFit j).getD 0 }
        let d := if status = 0 then (d.startChildren j).foldl (fun (d : Dev) c => d.sendChunks j c 0) d else d
        d.startAcks x.job

/-! ### The end of a job (R314) -/

/-- Versions and pins of a job are freed. -/
def Dev.freeMirror (d : Dev) (job : Nat) : Dev :=
  let d := (List.range 2).foldl (fun (d : Dev) s => d.dropPins job s) d
  let keep (v : Version) : Bool := v.job != job
  let m := { d.mir with ring := d.mir.ring.filter keep, own := d.mir.own.filter keep, waiting := d.mir.waiting.filter keep
                        acked := d.mir.acked.filter keep }
  { d with mir := m }.showHosted.showNewest

/-- The adopted bits of a job's accelerators are cleared (R320). -/
def Dev.freeAdopted (d : Dev) (j : JobSt) : Dev :=
  { d with mbr := { d.mbr with adopted := j.accs.foldl (fun (t : Tab Nat) x => Tab.update t (x / 8) 0 fun m => clrBit m (x % 8)) d.mbr.adopted } }

/-- The agents and the engine of a job that ends: END, and its tiles are dropped. -/
def Dev.endAgents (d : Dev) (j : JobSt) : Dev :=
  let d := j.agents.foldl (fun (d : Dev) a => (d.sendDown a 0x02 []).putAdmitted a false) d
  d.dropTiles fun t => (j.accOf t.acc).isSome

/-- The records and stand-ins of a job that ends. -/
def Dev.endRecords (d : Dev) (job : Nat) : Dev :=
  let d := ((d.flow.filter fun e => recJob e.2 == job).map (·.1)).foldl (fun (d : Dev) n => d.setFlow n none) d
  (List.range 2).foldl (fun (d : Dev) s => if (d.standSt s).job = job ∧ (d.standSt s).state ≠ 0 then d.standEnd s else d) d

/-- The job is no longer known on this controller. -/
def Dev.forget (d : Dev) (job : Nat) : Dev :=
  { d with jobs := Tab.erase job d.jobs, adoptReqs := d.adoptReqs.filter fun q => q.1 != job }

/-- A job ends on a controller (R314, R329, R355, R433): END to the agents, its records, rows, versions and stand-ins are freed. -/
def Dev.jobEnd (d : Dev) (job : Nat) : Dev :=
  match d.jobOf job with
  | none => d
  | some j =>
    let d := d.sendAll (d.startChildren j) 0x24 [j.startWord, 0]
    let d := (d.endAgents j).endRecords job
    let d := ((d.freeMirror job).progEnd job).tenseFree job
    let d := ((d.freeAdopted j).startOver j 0).forget job
    if d.drill.phase ≠ 0 ∧ d.drill.job = job then d.drillResult 2 0 d.drill.startStep else d

/-- MBR_JOB_CTRL.end (R314, R318): the job in MBR_JOB_STATUS.job, on its root. -/
def Dev.jobEndRequest (d : Dev) : Dev :=
  let d := d.put Reg.MBR_JOB_CTRL_end 0
  match d.jobOf (d.get Reg.MBR_JOB_STATUS_job) with
  | some j => if j.phase = 2 ∧ d.isRoot j then d.jobEnd j.desc.job else d
  | none => d

end Sys2Proof.Machine
end

