-- ==== Sys2Proof/Machine/Member.lean ====
section
/-! DEFINITION. Membership (R290 to R307): the budget, votes and Clauses, what a DECIDE or a VIEW does to the view, to the jobs and to the
controller itself, founding, and what is looked at after every protocol command. -/

namespace Sys2Proof.Machine

/-! ### The expulsion budget (R316) -/

/-- The membership engine changed by a function. -/
def Dev.onMbr (d : Dev) (f : MemberSt → MemberSt) : Dev := { d with mbr := f d.mbr }

/-- The rack's budget (R316). -/
def Dev.budget (d : Dev) : Int :=
  (d.spareAcc.length : Int) - d.mbr.pendingAcc.length - (limitTo (.range 0 16) (d.get (acts Reg.MBR_HR_CTRL_reserve)) : Nat)

/-- The marginal expulsions of the last 24 h. -/
def Dev.marginalDay (d : Dev) : Nat := (d.mbr.marginal.filter fun t => decide (secOf d.time < t + 86400)).length

/-- The budget permits a marginal expulsion (R316). -/
def Dev.marginalOk (d : Dev) (acc : Nat) : Bool :=
  decide ((if acc = 0xF then 8 else 1) ≤ d.budget) && decide (d.marginalDay < d.get (acts Reg.MBR_HR_CTRL_marg_max))

/-! ### Votes (R298, R299) -/

/-- The HELLO of a rack member on a direct link. -/
def Dev.helloFrom (d : Dev) (chip : Nat) : Option (List Nat) :=
  (gPorts.filterMap fun i => if d.linkStands i then (d.port i).hello else none).find? fun h => helloChip h == chip

/-- The plan digest as HELLO carries it (R271, R275). -/
def Dev.planDigest (d : Dev) : Nat := (d.boot.plan.map PlanInfo.digest).getD 0 % 2 ^ 64

/-- A controller's HELLO carries the own plan digest. -/
def Dev.samePlan (d : Dev) (chip : Nat) : Bool :=
  chip == d.chip || (match d.helloFrom chip with | some h => helloWord h 5 == d.planDigest | none => false)

/-- A JOINREQ was heard within the last 5 ms, the own one included (R305). -/
def Dev.joinHeard (d : Dev) (chip : Nat) : Bool :=
  chip == d.chip || (match Tab.find chip d.mbr.joiners with | some j => decide (d.nowUs ≤ j.1 + 5000) | none => false)

/-- A rack's GHB was heard within some µs; for founding a founding one (R298, R305). -/
def Dev.rackHeard (d : Dev) (rack us : Nat) (founding : Bool) : Bool :=
  rack == d.rack || (match Tab.find rack d.mbr.racks with
    | some r => decide (d.nowUs ≤ r.1 + us) && (!founding || r.2.1)
    | none => false)

/-- The subject may rejoin (R298, R304): its hold-off is over, and it is not blocked, or its JOINREQ carries the operator flag. -/
def Dev.mayRejoin (d : Dev) (chip : Nat) : Bool :=
  let e := d.viewEnt chip
  decide (e.hold ≤ d.nowUs) && (e.state != 4 || (match Tab.find chip d.mbr.joiners with | some j => j.2.2 | none => false))

/-- A rack may join (R298): every HELLO known from it carries the own plan digest, and the leader that its GHB names may join. -/
def Dev.rackMayJoin (d : Dev) (rack : Nat) : Bool :=
  ((xPorts.filterMap fun i => if d.linkStands i then (d.port i).hello else none).all fun h =>
    helloChip h / 32 != rack || helloWord h 5 == d.planDigest) &&
    (match Tab.find rack d.mbr.racks with | some r => d.mayRejoin r.2.2 | none => true)

/-- A job table names an accelerator of the chip. -/
def Dev.inJob (d : Dev) (chip : Nat) : Bool := d.jobs.any fun e => e.2.accs.any fun x => x / 8 == chip

/-- The condition of R298 (and R305 for founding) for a change. -/
def Dev.voteYes (d : Dev) (founding : Bool) (c : Nat) : Bool :=
  let chip := chChip c
  let isRack := chip % 32 == 31
  match chAction c with
  | 0 =>
    if chReason c = 1 then (if isRack then d.mbr.rackSuspects.contains (chip / 32) else d.mbr.suspects.contains chip)
    else if chReason c = 4 then d.marginalOk (chAcc c)
    else true
  | 1 =>
    if isRack then d.rackHeard (chip / 32) (if founding then 2000 else 1050) founding && (founding || d.rackMayJoin (chip / 32))
    else if chAcc c ≠ 0xF then true
    else if founding then d.joinHeard chip && d.samePlan chip
    else d.samePlan chip && d.mayRejoin chip
  | 2 => !d.inJob chip
  | _ => false

/-- The yes bits of a vote; a commit record has one, and every voter says yes to it (R244). -/
def Dev.yesBits (d : Dev) (founding : Bool) (changes : List Nat) (crec : List Nat) : Nat :=
  if crec ≠ [] then 1
  else ((changes.zipIdx).filter fun e => d.voteYes founding e.1).foldl (fun m e => setBit m e.2) 0

/-- The quorum of R299: more than half, or half with the lowest. -/
def quorum (voters yes : List Nat) : Bool :=
  let n := (voters.filter yes.contains).length
  decide (voters.length < 2 * n) || (voters.length == 2 * n && (voters.head?.map yes.contains).getD false)

/-- The voters of a scope (R296); of a founding Clause in rack scope the trays that the plan gives a role, in pod scope the leaders
of the racks whose founding GHB was heard (R305, log entry 33). -/
def Dev.votersOf (d : Dev) (p : Proposal) : List Nat :=
  if p.founding then
    (if p.pod then d.chip :: ((d.mbr.racks.filter fun e => e.1 != d.rack && e.2.2.1).map fun e => e.2.2.2)
     else match d.boot.plan with
      | some q => ((List.range 18).filter fun t => match q.trays[t]? with | some (_, role, _) => role != 0 | none => false).map (d.rack * 32 + ·)
      | none => [])
  else if p.pod then d.racksIn.filterMap d.leaderOf else d.membersOf d.rack

/-- What founding counts against (R305): the trays of the plan whose role is not 0, or its racks. -/
def Dev.foundingSize (d : Dev) (pod : Bool) : Nat :=
  match d.boot.plan with
  | some p => if pod then p.racks else (p.trays.filter fun t => t.2.1 != 0).length
  | none => 0

/-- Yes voters suffice for a change of a proposal (R299, R305). -/
def Dev.suffices (d : Dev) (p : Proposal) (yes : List Nat) : Bool :=
  if p.founding then decide (d.foundingSize p.pod < 2 * ((d.votersOf p).filter yes.contains).length)
  else quorum (d.votersOf p) yes

/-- The yes voters of an item. -/
def Proposal.yes (p : Proposal) (i : Nat) : List Nat := (p.votes.filter fun v => bitAt i v.2).map (·.1)

/-- The items of a proposal: its changes, or one commit record. -/
def Proposal.items (p : Proposal) : List Nat := List.range (if p.crec.isSome then 1 else p.changes.length)

/-- An item is accepted; it can still become so. -/
def Dev.accepted (d : Dev) (p : Proposal) (i : Nat) : Bool := d.suffices p (p.yes i)
def Dev.possible (d : Dev) (p : Proposal) (i : Nat) : Bool :=
  d.suffices p (p.yes i ++ (d.votersOf p).filter fun v => (Tab.find v p.votes).isNone)

/-! ### What membership does to stand-ins and the root (R319, R324, R335) -/

/-- ADOPTACK at the root (R323, R324, R328, R334; log entry 31): src is the chip it comes from. -/
def Dev.adoptAckIn (d : Dev) (job index status src : Nat) : Dev :=
  match d.jobOf job with
  | none => d
  | some j =>
    let own := j.accs.getD index 0 / 8 == src
    if j.lost.contains index && own then
      if status = 0 then
        d.setJob { j with standing := j.standing ++ [index], lost := j.lost.filter (· != index) }
      else if j.drillIdx = some index then d.askLeader (changeWord src 1 (j.accs.getD index 0 % 8) 5)
      else d
    else match Tab.find index j.adopts with
      | some e =>
        if e.spare / 8 ≠ src ∨ e.ready ∨ e.bound.isSome then
          (if j.standing.contains index && own && status != 0 then
            ((d.setJob { j with standing := j.standing.filter (· != index), lost := j.lost ++ [index] }).rootAbandon job [] false) else d)
        else if status = 0 then
          (d.setJob { j with adopts := Tab.insert index { e with ready := true } (Tab.erase index j.adopts) }).adoptReady job
        else
          ((((d.adoptCancel job [(index, e.spare)]).raise Src.SPARE_adopt_failed).incE Cnt.SPARE_CNT_ADOPT_FAIL).tryAdopt job).adoptReady job
      | none =>
        if status = 0 then d
        else if j.standing.contains index && own then
          (d.setJob { j with standing := j.standing.filter (· != index), lost := j.lost ++ [index] }).rootAbandon job [] false
        else if own || j.moves.any (fun m => m.2.1 == index && m.2.2 / 8 == src) then d.rootAbandon job [] false
        else d

/-- The ADOPTACKs that a root has for itself are taken. -/
def Dev.takeAcks (d : Dev) : Nat → Dev
  | 0 => d
  | n + 1 =>
    match d.selfAcks with
    | [] => d
    | (job, index, status) :: rest => (({ d with selfAcks := rest }).adoptAckIn job index status d.chip).takeAcks n

/-- A stand-in whose context is gone is lost (R334, R335): the root hears of it; entry is tried again under R326, unless it was handing
over. -/
def Dev.standLost (d : Dev) (s : Nat) : Dev :=
  let x := d.standSt s
  if x.state < 2 ∨ (d.ctx x.ctx).state = .enabled then d
  else
    let d := d.setStand s { StandSt.none with reason := x.reason }
    match d.jobOf x.job with
    | none => d
    | some j =>
      if x.state = 4 then d.sendAdoptAck j x.index 3
      else ((d.setJob { j with acc := Tab.erase x.acc j.acc }).sendAdoptAck j x.index 3).appoRequest x.job x.index x.acc x.named x.drill

/-! ### What a change of the view does to jobs (R215, R244, R313, R319, R328, R337) -/

/-- An accelerator is a member in a view. -/
def aliveIn (v : Tab ViewEnt) (x : Nat) : Bool :=
  let e := Tab.getD v (x / 8) ViewEnt.absent
  e.state == 1 && !bitAt (x % 8) e.accExp

/-- The accelerators of own trays that a job loses leave it, and entering Apposition is asked for (R328 step 1). -/
def Dev.ownLoss (d : Dev) (job : Nat) (idxs : List Nat) (drill : Bool) : Dev :=
  match d.jobOf job with
  | none => d
  | some j =>
    if !d.isIn d.chip then d
    else ((j.local d.chip).filter fun e => idxs.contains e.1).foldl (fun (d : Dev) e =>
      match (d.jobOf job).bind fun j => j.accOf e.2 with
      | some x => (d.onJob job fun j => { j with acc := Tab.erase e.2 j.acc }).appoRequest job e.1 e.2 x.named drill
      | none => d) d

/-- A restore that has not committed starts again (R256 step 8). -/
def JobSt.restAgain (j : JobSt) : JobSt := if j.rest.active then { j with rest := { j.rest with active := false }, restResult := 4 } else j

/-- The generations of the rack that are being cut, written or sealed are discarded with the loss of a member, and a cut and a restore are
over (R252, R256); a job without a step to restore may look for one again (R255). -/
def Dev.stopCut (d : Dev) (job : Nat) : Dev :=
  match d.jobOf job with
  | none => d
  | some j =>
    let open_ := (((List.range 2).map (j.slot d.rack)).filter fun g => g.state == 1 || g.state == 2).map GenSt.gen
    let d := open_.foldl (fun (d : Dev) g => d.discardGen job g) d
    d.onJob job fun j => let j := { j with cut := none }.restAgain; if j.restResult = 3 then { j with restResult := 4 } else j

/-- An epoch change restarts every restore that has not committed (R256 step 8). -/
def Dev.restAgain (d : Dev) : Dev := { d with jobs := d.jobs.map fun e => (e.1, e.2.restAgain) }

/-- A newer epoch is taken (R291). -/
def Dev.takeEpoch (d : Dev) (epoch : Nat) : Dev := if newer epoch d.epoch then (d.put Reg.MBR_STATUS_epoch epoch).restAgain else d

/-- A real loss ends a drill of the job (R337): the leader records it and has the accelerator admitted again. -/
def Dev.drillLost (d : Dev) (job : Nat) : Dev :=
  let x := d.drill
  if x.phase < 2 ∨ x.job ≠ job then d
  else (d.drillResult 4 0 x.startStep).askLeader (changeWord (x.acc / 8) 1 (x.acc % 8) 5)

/-- The root's part of a loss; a new root takes up every index without an accelerator, and stand-ins report to it (R310, R319). -/
def Dev.lossAtRoot (d : Dev) (job oldRoot : Nat) (idxs : List Nat) : Dev :=
  match d.jobOf job with
  | none => d
  | some j => match d.rootOf j with
    | none => d
    | some r =>
      let all := if r = oldRoot then idxs else (List.range j.accs.length).filter fun i => !d.accIn (j.accs.getD i 0)
      let d := if r = d.chip then (d.rootLoss job all).adoptReady job else d
      if r = oldRoot then d
      else (List.range 2).foldl (fun (d : Dev) s =>
        let x := d.standSt s
        if x.job = job ∧ 2 ≤ x.state then d.sendAdoptAck j x.index 0 else d) d

/-- A job when accelerators have left the view (R215, R313, R319), a controller's stand-ins with it (R335): old is the view before, drilled the
accelerator a drill expels. -/
def Dev.jobLoss (d : Dev) (job : Nat) (old : Tab ViewEnt) (drilled : List Nat) : Dev :=
  match d.jobOf job with
  | none => d
  | some j =>
    let member (x : Nat) : Bool := (Tab.getD old (x / 8) ViewEnt.absent).state == 1
    let idxs := (List.range j.accs.length).filter fun i =>
      let x := j.accs.getD i 0
      !d.accIn x && (aliveIn old x || (member x && !d.isIn (x / 8)))
    if j.phase ≠ 2 then
      (if idxs ≠ [] ∧ d.chip = j.root then d.startAbort job 0x07
       else if liveParent (d.startNodes j) (fun c => (Tab.getD old c ViewEnt.absent).state == 1) d.chip ≠ d.startParent j then d.orphan job
       else d.startAcks job)
    else if idxs = [] then
      let was := liveParent j.stepNodes (fun c => (Tab.getD old c ViewEnt.absent).state == 1) d.chip
      if was = d.stepParent j then d else (d.resendRep j).gateCheck job
    else
      let drill := idxs.all fun i => drilled.contains (j.accs.getD i 0)
      let oldRoot := (j.stepNodes.find? fun c => (Tab.getD old c ViewEnt.absent).state == 1).getD j.root
      let d := if j.gate = 0 then d else d.abandon job
      let d := ((d.stopCut job).ownLoss job idxs drill).lossAtRoot job oldRoot idxs
      if drill then d else d.drillLost job

/-- The adopted bit of an expelled accelerator is cleared (R320). -/
def Dev.unadopt (d : Dev) (x : Nat) : Dev :=
  d.onMbr fun m => { m with adopted := Tab.update m.adopted (x / 8) 0 fun b => clrBit b (x % 8) }

/-- The accelerators of a view that another no longer shows as members. -/
def lostFrom (old new : Tab ViewEnt) : List Nat :=
  (old.flatMap fun e => (List.range 8).map (e.1 * 8 + ·)).filter fun x => aliveIn old x && !aliveIn new x

/-- A handover whose stand-in's controller has left the view fails at the spare's controller (R334). -/
def Dev.handoverLost (d : Dev) (job : Nat) : Dev :=
  match d.jobOf job with
  | none => d
  | some j =>
    if j.gate = 5 then d
    else (j.taking.filter fun e => !d.isIn (e.2.src / 8)).foldl (fun (d : Dev) e =>
      ((d.onJob job fun j => { j with taking := Tab.erase e.1 j.taking }).raise Src.APPO_handover_failed).sendAdoptAck j
        (((j.accOf e.1).map AccJob.index).getD 0) 3) d

/-- The view has changed from old (R237, R251, R252, R320): positions, adopted bits and jobs follow. -/
def Dev.viewChanged (d : Dev) (old : Tab ViewEnt) (drilled : List Nat) : Dev :=
  let chips := (old.filter fun e => e.2.state == 1 && !d.isIn e.1).map (·.1)
  let d := (lostFrom old d.mbr.view).foldl Dev.unadopt d
  let d := chips.foldl Dev.positionLost d
  (d.jobs.map (·.1)).foldl (fun (d : Dev) job => (d.jobLoss job old drilled).handoverLost job) d

/-- The commit records that waited for a Clause are not sealed before the epoch changes (R244). -/
def Dev.unsealAll (d : Dev) : Dev :=
  let cs := d.mbr.crecs
  let drop (p : Proposal) : Bool := p.crec.isSome
  let d := d.onMbr fun m => { m with crecs := [], prop := m.prop.filter fun p => !drop p }
  cs.foldl Dev.unsealed d

/-- The registers and roles that follow the view (R247, R318, R346). -/
def Dev.followView (d : Dev) : Dev := (d.showView.timeRoles).repair

/-! ### The controller's own membership (R303 to R306) -/

/-- What a controller that leaves membership no longer has: its Clause and its suspicions. Its view changes only by a Clause (R293); adm is
the epoch of its own last admission, which no longer makes it a member. -/
def MemberSt.left (m : MemberSt) (adm : Nat) : MemberSt :=
  { m with heard := [], racks := [], suspects := [], rackSuspects := [], pending := [], crecs := [], prop := none, backoff := false, joiners := []
           unfounded := false, asked := [], leftAdm := some adm }

/-- The class A contexts of the controller are destroyed, its stand-ins with them (R303 step 4). -/
def Dev.dropClassA (d : Dev) : Dev :=
  let d := (List.range 2).foldl (fun (d : Dev) s => if 2 ≤ (d.standSt s).state then d.standEnd s else d) d
  ((d.comp.ctxs.filter fun e => e.2.cls == 1).map (·.1)).foldl Dev.ctxDestroy d

/-- The starts that this root has not committed end with 0x08 (R309). -/
def Dev.startsLost (d : Dev) : Dev :=
  (d.jobs.filter fun e => e.2.phase != 2 && e.2.root == d.chip).foldl (fun (d : Dev) e =>
    ({ d.startOver e.2 0x08 with jobs := Tab.erase e.1 d.jobs } : Dev).startResult e.1 0x08) d

/-- A controller leaves the view by itself (R303): its agents are fenced, its jobs' steps abandoned, its class A contexts destroyed. -/
def Dev.fenceQuiet (d : Dev) : Dev :=
  let adm := (d.viewEnt d.chip).admitted
  let d := (List.range 8).foldl Dev.agentFence (d.put Reg.MBR_STATUS_state 3)
  let d := (((d.jobs.filter fun e => e.2.gate != 0).map (·.1)).foldl Dev.abandon d).startsLost
  (d.dropClassA.onMbr fun m => m.left adm).followView

/-- The controller fences itself (R303). -/
def Dev.fenceSelf (d : Dev) : Dev := ((d.fenceQuiet.raise Src.MBR_self_fenced).enterStage 7).startDiscovery

/-- The controller has been withdrawn (R303, R306; log entry 54): it fences itself as for an expulsion, and where discovery and time lead to
stage 0x9 again it waits until MBR_CTRL.rejoin. -/
def Dev.withdrawn (d : Dev) : Dev := ((d.fenceSelf).put Reg.MBR_STATUS_state 4).put Reg.MBR_STATUS_refuse 0x05

/-- The controller has been admitted (R304): stage 0x9 is over. -/
def Dev.becomeMember (d : Dev) : Dev :=
  let d := (d.put Reg.MBR_STATUS_state 2).put Reg.MBR_STATUS_refuse 0
  let d := d.onMbr fun m => { m with unfounded := false, operator := false, joiners := [] }
  if d.stage = 9 then d.endStage else d

/-- The own entry admits the controller: newer than the admission that it has left behind (R302, R303). -/
def Dev.admittedAnew (d : Dev) : Bool :=
  (d.viewEnt d.chip).state == 1 && (match d.mbr.leftAdm with | some a => newer (d.viewEnt d.chip).admitted a | none => true)

/-- What the own view entry says of the controller takes effect. -/
def Dev.selfCheck (d : Dev) : Dev :=
  let e := d.viewEnt d.chip
  if d.isMember then (if e.state = 2 ∨ e.state = 4 then d.fenceSelf else if e.state = 3 then d.withdrawn else d)
  else if d.admittedAnew ∧ d.stage = 9 then d.becomeMember else d

/-! ### Applying a DECIDE to the view (R290, R300, R304) -/

/-- An expulsion of a controller counts (R304): its expulsions within 600 s give its hold-off, or block it while it is expelled. -/
def Dev.flap (d : Dev) (chip : Nat) : Dev :=
  let e := d.viewEnt chip
  let now := secOf d.time
  let times := (e.expels.filter fun t => decide (now < t + 600)) ++ [now]
  let k := times.length
  let hold := Nat.min 300000000 (limitTo (.range 100 60000) (d.get (acts Reg.MBR_CTRL_hold_base)) * 1000 * 2 ^ (k - 1))
  let blocked := decide (max 1 (d.get (acts Reg.MBR_CTRL_flap_max)) ≤ k) && e.state == 2
  let d := d.setView chip { e with state := if blocked then 4 else e.state, expels := times, hold := d.nowUs + hold }
  if blocked && chip / 32 == d.rack then d.raise Src.MBR_join_blocked else d

/-- A controller is expelled (R303, R304). -/
def Dev.expelChip (d : Dev) (epoch chip : Nat) (counts : Bool) : Dev :=
  let e := d.viewEnt chip
  if e.state ≠ 1 then d
  else
    let d := d.setView chip { e with state := 2, changed := epoch }
    if counts then d.flap chip else d

/-- An expulsion of a controller or rack counts, unless its reason is drill or requested (R304). -/
def chCounts (c : Nat) : Bool := chAction c == 0 && chAcc c == 0xF && chReason c != 5 && chReason c != 7

/-- A controller is admitted; where it has powered up since, as its JOINREQ at epoch 0 shows to its rack, its failed spares are free again
(R324; log entry 53). -/
def Dev.admitChip (d : Dev) (epoch chip : Nat) : Dev :=
  let e := d.viewEnt chip
  let anew := chip / 32 != d.rack || (Tab.find chip d.mbr.joiners).map (fun j => j.2.1) == some 0
  (d.setView chip { e with state := 1, changed := epoch, admitted := epoch, accExp := 0 }).onMbr fun m =>
    { m with pendingAcc := m.pendingAcc.filter fun x => x / 8 != chip, joiners := Tab.erase chip m.joiners, spoiled := if anew then Tab.erase chip m.spoiled else m.spoiled }

/-- The leader by which a rack is admitted. -/
def Dev.leaderHeard (d : Dev) (rack : Nat) : Option Nat :=
  if rack = d.rack then (if d.isMember then d.leaderOf rack else none) else (Tab.find rack d.mbr.racks).map fun r => r.2.2

/-- One accepted change (R290, R297). Of a rack that is admitted its leader is a member at once; its VIEW brings the others (R305 step
10). -/
def Dev.applyChange (d : Dev) (epoch c : Nat) : Dev :=
  let chip := chChip c
  let e := d.viewEnt chip
  let one := decide (chAcc c ≠ 0xF)
  match chAction c with
  | 0 =>
    if chip % 32 = 31 then (d.membersOf (chip / 32)).foldl (fun (d : Dev) m => d.expelChip epoch m (chCounts c)) d
    else if one then d.setView chip { e with accExp := setBit e.accExp (chAcc c), changed := epoch }
    else d.expelChip epoch chip (chCounts c)
  | 1 =>
    if chip % 32 = 31 then match d.leaderHeard (chip / 32) with
      | some l => if d.isIn l then d.setView l { d.viewEnt l with changed := epoch } else d.admitChip epoch l
      | none => d
    else if one then (d.setView chip { e with accExp := clrBit e.accExp (chAcc c), changed := epoch }).onMbr fun m =>
      { m with pendingAcc := m.pendingAcc.filter (· != chip * 8 + chAcc c) }
    else d.admitChip epoch chip
  | 2 => d.setView chip { e with state := 3, changed := epoch }
  | _ => d

/-- The accelerators that a drill expels by these changes (R337). -/
def drilledBy (changes : List Nat) : List Nat :=
  (changes.filter fun c => chAction c == 0 && chReason c == 5 && chAcc c != 0xF).map fun c => chChip c * 8 + chAcc c

/-- A drill's expulsion: every controller learns when the job was drilled (R336), and the index it stands for. -/
def Dev.drillBegins (d : Dev) (x : Nat) : Dev :=
  match (d.jobs.filter fun e => e.2.accs.contains x).head? with
  | none => d
  | some (job, j) =>
    let d := d.setJob { j with drillIdx := some (j.accs.findIdx (· == x)) }
    (d.onMbr fun m => { m with drilled := Tab.insert job (secOf d.time) (Tab.erase job m.drilled) }).progDrill job true

/-- A drilled accelerator is admitted again (R337): it serves its index, by itself if a stand-in still ran. -/
def Dev.drillEnds (d : Dev) (x : Nat) : Dev :=
  match d.jobs.find? fun e => e.2.drillIdx.isSome && e.2.drillIdx.map (fun i => e.2.accs.getD i 0) == some x with
  | none => d
  | some (job, j) =>
    let i := j.drillIdx.getD 0
    let d := d.setJob { j with drillIdx := none, lost := j.lost.filter (· != i), standing := j.standing.filter (· != i), adopts := Tab.erase i j.adopts }
    let back := x / 8 == d.chip && (match j.accOf (x % 8) with | some a => a.standIn | none => true)
    let d := if !back then d
      else
        let d := match (List.range 2).find? fun s => (d.standSt s).job == job && (d.standSt s).index == i && (d.standSt s).state != 0 with
          | some s => d.standEnd s
          | none => d
        d.onJob job fun j => j.setAcc (x % 8) (AccJob.fresh i (d.baseOf j (x % 8)) false)
    let d := d.progDrill job false
    if d.drill.phase < 2 ∨ d.drill.job ≠ job then d else d.drillResult (if d.drill.phase = 3 ∧ !d.drill.bad then 1 else 2) 0 d.drill.startStep

/-- The drilled accelerators that changes admit again (R337). -/
def Dev.drillsEnd (d : Dev) (changes : List Nat) : Dev :=
  (changes.filter fun c => chAction c == 1 && chAcc c != 0xF && chReason c == 5).foldl (fun (d : Dev) c => d.drillEnds (chChip c * 8 + chAcc c)) d

/-- The expulsions of changes in the own rack, as every controller of it raises and counts them (R300, R316, R318). -/
def Dev.countExpels (d : Dev) (old : Tab ViewEnt) (changes : List Nat) : Dev :=
  let mine := changes.filter fun c => chAction c == 0 && chChip c / 32 == d.rack
  let drilled := drilledBy changes
  let gone := (lostFrom old d.mbr.view).filter fun x => x / 8 / 32 == d.rack && !drilled.contains x && (d.viewEnt (x / 8)).state != 3
  let sec := secOf d.time
  let d := d.onMbr fun m => { m with
    pendingAcc := (m.pendingAcc ++ gone).eraseDups
    marginal := m.marginal ++ (mine.filter fun c => chReason c == 4).map fun _ => sec }
  let d := mine.foldl (fun (d : Dev) _ => (d.incE Cnt.MBR_CNT_EXPEL).raise Src.MBR_peer_expelled) d
  if mine ≠ [] ∧ d.budget < 0 then d.raise Src.MBR_budget_exhausted else d

/-- A tray of the rack is due for replacement (R321). -/
def Dev.trayDue (d : Dev) (chip : Nat) : Bool :=
  let e := d.viewEnt chip
  (e.state != 0 && e.accExp != 0) || e.state == 2 || e.state == 4

/-- tray_due is raised once for each tray (R321). -/
def Dev.raiseDue (d : Dev) : Dev :=
  let due := if d.isMember then ((List.range 18).map (d.rack * 32 + ·)).filter d.trayDue else d.mbr.due
  let news := due.filter fun c => !d.mbr.due.contains c
  news.foldl (fun (d : Dev) _ => d.raise Src.SPARE_tray_due) (d.onMbr fun m => { m with due := due })

/-- A DECIDE as it is kept for VIEW: its coordinator, then its body. -/
def decideBody (pod founding : Bool) (yes voters epoch : Nat) (changes crec : List Nat) : List Nat :=
  pack [(63, 1, b2n pod), (62, 1, b2n founding), (48, 8, yes), (40, 8, voters), (32, 7, changes.length), (0, 32, epoch)] :: changes ++ crec

/-- What is settled leaves the changes that await a Clause (R300). -/
def MemberSt.settleChanges (m : MemberSt) (pod : Bool) (changes : List Nat) : MemberSt :=
  { m with pending := m.pending.filter fun e => !(e.1 == pod && changes.contains e.2) }

/-- The rack is founded, or its leader's admission shows that it is (R305 step 6): founding of the rack is over. -/
def MemberSt.founded (m : MemberSt) : MemberSt :=
  { m with unfounded := false, prop := m.prop.filter fun p => !(p.founding && !p.pod) }

/-- The coordinator hears a DECIDE of its scope from another (R300): its proposal is abandoned. -/
def MemberSt.overtaken (m : MemberSt) (pod : Bool) : MemberSt :=
  match m.prop with
  | some p => if p.pod = pod then { m with prop := none, backoff := true } else m
  | none => m

/-- The controllers admitted since a view. -/
def Dev.joinedSince (d : Dev) (old : Tab ViewEnt) : List Nat :=
  (d.mbr.view.filter fun e => e.2.state == 1 && (Tab.getD old e.1 ViewEnt.absent).state != 1).map (·.1)

/-- A root makes controllers that join a rack of its job nodes of the start tree (R310, R322; log entry 54): each is sent the descriptor, the
decision, and the adoptions since. -/
def Dev.giveJob (d : Dev) (job : Nat) (chips : List Nat) : Dev :=
  match d.jobOf job with
  | none => d
  | some j => (chips.filter fun c => c != d.chip && j.racks.contains (c / 32)).foldl (fun (d : Dev) c =>
      let moved := (j.accs.zipIdx.filter fun e => some e.1 != j.desc.accs[e.2]? && d.accIn e.1 && e.1 / 8 != c).map fun e => (e.2, e.1)
      let d := (d.sendChunks j c 0).send c 0x22 (j.goBody false 0)
      if moved = [] then d else d.send c 0x48 (d.adoptBody job 0 1 moved)) d

/-- The changes of a DECIDE applied, with what follows for the own rack, for jobs and for drills. -/
def Dev.applyDecide (d : Dev) (epoch : Nat) (changes : List Nat) : Dev :=
  let old := d.mbr.view
  let drilled := drilledBy changes
  let d := (drilled.foldl Dev.drillBegins d)
  let d := changes.foldl (fun (d : Dev) c => d.applyChange epoch c) d
  let d := d.countExpels old changes
  let d := d.viewChanged old drilled
  let d := d.drillsEnd changes
  let joined := d.joinedSince old
  if joined = [] then d
  else (d.jobs.filter fun e => d.isRoot e.2 && e.2.phase == 2).foldl (fun (d : Dev) e =>
    let d := d.giveJob e.1 joined
    match d.jobOf e.1 with | some j => if j.needSpare = [] then d else d.tryAdopt e.1 | none => d) d

/-- A VIEW body: the entries with roles and adopted bits, the last DECIDEs, and the settings that a rack shares (R294, R318, R320; log entries
34 and 54). -/
def Dev.viewBody (d : Dev) : List Nat :=
  let chips := (d.mbr.view.map (·.1) ++ ((List.range 18).map (d.rack * 32 + ·)).filter fun c => d.roleOf c != 0).eraseDups
  [chips.length] ++ (chips.flatMap fun c =>
    let e := d.viewEnt c
    [pack [(48, 16, c), (16, 8, Tab.getD d.mbr.adopted c 0), (8, 8, e.accExp), (4, 2, d.roleOf c), (0, 3, e.state)], word2 e.changed e.admitted]) ++
  [d.mbr.decides.length] ++ (d.mbr.decides.flatMap fun b => b.length :: b) ++ sharedSettings.map d.get

/-- A leader whose rack a pod Clause admits sends VIEW to the other leaders (R305 step 10). -/
def Dev.shareView (d : Dev) (pod : Bool) (changes : List Nat) : Dev :=
  if pod && d.isLeader && changes.any (fun c => chAction c == 1 && chChip c / 32 == d.rack) then
    d.sendAll ((d.racksIn.filterMap d.leaderOf).filter (· != d.chip)) 0x1A d.viewBody
  else d

/-- A commit record sealed in a rack (R244): its step has committed (R324). -/
def Dev.sealedIn (d : Dev) (crec : List Nat) (rack : Nat) : Dev :=
  (d.sealed crec rack).stepSeen (bits 32 32 (wd crec 0)) (bits 24 40 (wd crec 1))

/-- A DECIDE (R300): the view, the epoch, and what follows. src is its coordinator; one already known is a duplicate (R285). -/
def Dev.decideIn (d : Dev) (src : Nat) (pod founding : Bool) (yes voters epoch : Nat) (changes crec : List Nat) : Dev :=
  let rec_ := src :: decideBody pod founding yes voters epoch changes crec
  if d.mbr.decides.contains rec_ then d
  else
    let mine := pod || src / 32 == d.rack
    let d := d.onMbr fun m => { m with decides := (m.decides ++ [rec_]).drop (m.decides.length + 1 - 64) }
    let d := if mine then d.onMbr fun m => ((if src = d.chip then m else m.overtaken pod).settleChanges pod changes) else d
    let admits := changes.any fun c => chAction c == 1 && chChip c / 32 == d.rack
    let d := if mine && !pod then d.onMbr fun m => { m with asked := [] } else d
    let d := if admits || (mine && !pod) then d.onMbr MemberSt.founded else d
    let d := if mine ∧ changes ≠ [] then d.unsealAll else d
    let d := d.takeEpoch epoch
    let d := d.applyDecide epoch changes
    let d := if mine && !pod then d.settingsAct else d
    let d := if changes = [] then d else (d.selfCheck.followView.raiseDue).shareView pod changes
    if crec = [] then d else (d.onMbr fun m => { m with crecs := m.crecs.filter fun c => c.take 2 != crec.take 2 }).sealedIn crec (src / 32)

/-! ### Clauses at their coordinator (R296, R300) -/

/-- A proposal ends with the items accepted so far (R300). -/
def Dev.clauseEnd (d : Dev) (p : Proposal) : Dev :=
  let done := p.items.filter fun i => d.accepted p i || !d.possible p i
  let yes := p.items.filter (d.accepted p)
  let changes := yes.filterMap fun i => p.changes[i]?
  let crec := if yes = [] then [] else p.crec.getD []
  let least := ((yes.map fun i => (p.yes i).length).min?).getD 0
  let voters := (d.votersOf p).length
  let d := d.onMbr fun m => { m.settleChanges p.pod (done.filterMap fun i => p.changes[i]?) with prop := none }
  if yes = [] then d
  else
    let joiners := if p.pod || p.founding then [] else (changes.filter fun c => chAction c == 1 && chAcc c == 0xF).map chChip
    let d := joiners.foldl (fun (d : Dev) c => d.send c 0x1A d.viewBody) d
    let d := (d.send podBroadcast 0x14 (decideBody p.pod p.founding least voters p.epoch changes crec)).incU Cnt.MBR_CNT_CLAUSE
    d.decideIn d.chip p.pod p.founding least voters p.epoch changes crec

/-- A proposal of which every item is settled is decided (R300); a founding Clause that fails backs off (R305 step 5). -/
def Dev.clauseCheck (d : Dev) : Dev :=
  match d.mbr.prop with
  | none => d
  | some p =>
    if p.items.all fun i => d.accepted p i || !d.possible p i then
      let failed := p.founding && !(p.items.any (d.accepted p))
      let d := d.clauseEnd p
      if failed then d.onMbr fun m => { m with backoff := true } else d
    else d

/-- The later of two epochs, where there are two (R291). -/
def laterEpoch (a : Nat) : Option Nat → Nat
  | some b => if newer b a then b else a
  | none => a

/-- One newer than an epoch, as proposals are numbered (R296). -/
def epochAfter (e : Nat) : Nat := (e + 1) % 2 ^ 32

/-- The newest epoch that this controller has seen: its own, those voted on, of a refusal and of founding GHBs (R305 step 8). -/
def Dev.seenEpoch (d : Dev) : Nat :=
  [d.mbr.votedRack, d.mbr.votedPod, d.mbr.refused, d.mbr.seen].foldl laterEpoch d.epoch

/-- A commit record with the epoch of its Clause and its digest (R244). -/
def stampRecord (crec : List Nat) (epoch : Nat) : List Nat :=
  if crec = [] then []
  else
    let w := (crec.take 7).mapIdx fun i x => if i = 2 then x / 2 ^ 32 * 2 ^ 32 + epoch else x
    w ++ [crc64 (wordBytes w)]

/-- The last epoch voted on in a scope is kept (R296). -/
def Dev.voted (d : Dev) (pod : Bool) (epoch : Nat) : Dev :=
  d.onMbr fun m => if pod then { m with votedPod := some epoch } else { m with votedRack := some epoch }

/-- PROPOSE leaves, the own votes counted (R296, R297, R300). -/
def Dev.propose (d : Dev) (pod founding : Bool) (epoch : Nat) (changes crec : List Nat) : Dev :=
  let crec := stampRecord crec epoch
  let body := pack [(63, 1, b2n pod), (62, 1, b2n founding), (32, 7, changes.length), (0, 32, epoch)] :: changes ++ crec
  let p : Proposal := ⟨pod, founding, epoch, changes, if crec = [] then none else some crec, [(d.chip, d.yesBits founding changes crec)]⟩
  let dsts := (d.votersOf p).filter (· != d.chip)
  let d := if pod then d.sendAll dsts 0x12 body else d.send d.rackBroadcast 0x12 body
  ((d.voted pod epoch).onMbr fun m => { m with prop := some p }).clauseCheck

/-- The subjects among the changes of a scope that await a Clause: controllers, or racks. -/
def subjectsOf (pod : Bool) (changes : List Nat) : List Nat :=
  if pod then changes.map fun c => chChip c / 32 else changes.flatMap subjectOf

/-- This controller coordinates a scope (R296). -/
def Dev.coordinates (d : Dev) (pod : Bool) (changes : List Nat) : Bool :=
  let s := subjectsOf pod changes
  if pod then
    d.isLeader && (match d.racksIn.find? fun r => !s.contains r with | some r => r == d.rack | none => d.racksIn.head? == some d.rack)
  else d.coordinator d.rack s == some d.chip

/-- The changes of a scope that await a Clause. -/
def MemberSt.waiting (m : MemberSt) (pod : Bool) : List Nat := ((m.pending.filter fun e => e.1 == pod).map (·.2)).eraseDups

/-- The coordinator in idle proposes what awaits decision (R300): changes of the rack, then of the pod, then a commit record (R244). -/
def Dev.startClause (d : Dev) : Dev :=
  if !d.isMember || d.silent || d.mbr.backoff || d.mbr.prop.isSome then d
  else
    let rs := d.mbr.waiting false
    let ps := d.mbr.waiting true
    if rs ≠ [] && d.coordinates false rs then d.propose false false (epochAfter d.epoch) (rs.take 64) []
    else if ps ≠ [] && d.coordinates true ps then d.propose true false (epochAfter d.epoch) (ps.take 64) []
    else match d.mbr.crecs.head? with
      | some c => d.propose false false (epochAfter d.epoch) [] c
      | none => d

/-! ### After every protocol command -/

/-- A candidate of the tray is proposed while the budget permits it (R316). -/
def Dev.askMarginal (d : Dev) (v : Nat) : Dev :=
  let acc := if v = 8 then 0xF else v
  let c := changeWord d.chip 0 acc 4
  let gone := v != 8 && bitAt v (d.viewEnt d.chip).accExp
  if !(d.healthOf v).candidate then d.onMbr fun m => { m with asked := m.asked.filter (· != c) }
  else if !d.isMember || gone || d.mbr.asked.contains c || !d.marginalOk acc then d
  else (d.askLeader c).onMbr fun m => { m with asked := m.asked ++ [c] }

/-! ### The end of a remote access (R44, R46) -/

/-- The remote access in progress ends with a code (R44, R46, R48): done, and the interrupt when it is enabled. An answer of an agent
that still comes for it belongs to no access. -/
def Dev.raEnd (d : Dev) (code : Nat) : Dev :=
  let d := { d with ra := { d.ra with target := none, windows := d.ra.windows.filter fun w => w.2.2.1.isSome } }
  let d := ((d.put Reg.MGMT_RA_STATUS_busy 0).put Reg.MGMT_RA_STATUS_done 1).put Reg.MGMT_RA_STATUS_error code
  if d.flag Reg.MGMT_IRQ_ra_done_en then d.msix 0 (d.get Reg.MGMT_IRQ_vector) else d

/-- The members that a broadcast value names (R43). -/
def Dev.inScope (d : Dev) (chip : Nat) : List Nat :=
  if chip = podBroadcast then d.racksIn.flatMap d.membersOf else d.membersOf (chip / 32)

/-- A broadcast write is complete when every controller that it names has acknowledged it (R48), also when the last one that had not has
left the view, and at once where the value names none. -/
def Dev.raCheck (d : Dev) : Dev :=
  match d.ra.target with
  | none => d
  | some chip => if chipIsBroadcast chip && (d.inScope chip).all d.ra.acked.contains then d.raEnd 0x00 else d

/-! ### Hazard (R317) -/

/-- HAZARD for a job leaves for its root: the tray's sum, and whether one of its devices is under watch (log entry 28). -/
def Dev.hazardOut (d : Dev) (job : Nat) (j : JobSt) : Dev :=
  let d := d.onJob job fun j => { j with sentHazard := some (d.trayHazard j) }
  match d.rootOf j with
  | some r => if r = d.chip then d else d.send r 0x25 [d.jobWord job, pack [(63, 1, b2n (d.trayWatch j)), (0, 32, d.trayHazard j)]]
  | none => d

/-- HAZARD leaves at once when the sum has changed by more than 10% since the last one (R317). -/
def Dev.hazardDue (d : Dev) : Dev :=
  (d.jobs.filter fun e => e.2.phase == 2 && e.2.acc != [] && (match e.2.sentHazard with
    | some s => decide (s < 10 * (max s (d.trayHazard e.2) - min s (d.trayHazard e.2)))
    | none => false)).foldl (fun (d : Dev) e => d.hazardOut e.1 e.2) d

/-! ### What is due -/

/-- What is due after a protocol command, and when the block idles: the root's own acknowledgements, lost stand-ins, restores that can
start or end, candidates, a HAZARD whose sum has changed, a Clause, a broadcast that no controller is left to acknowledge, and the SRAM reserves. -/
def Dev.settle (d : Dev) : Dev :=
  let d := (List.range 2).foldl Dev.standLost d
  let d := (List.range 2).foldl Dev.standAgain d.flushResid.voidLost
  let d := d.takeAcks 16
  let d := (d.jobs.map (·.1)).foldl (fun (d : Dev) job => (d.tryRestart job).restDecide job) d
  let d := (List.range 9).foldl Dev.askMarginal d
  let d := d.hazardDue
  d.startClause.raCheck.shrinkDue

end Sys2Proof.Machine
end

