-- ==== Sys2Proof/Machine/Adopt.lean ====
section
/-! DEFINITION. The commands of spares, Apposition and drills (R319 to R340). -/

namespace Sys2Proof.Machine

/-- Pairs of job index and accelerator as chip × 8 + number (R323). -/
def adoptPairs (l : List (BitVec 16 × BitVec 16 × Fin 8)) : List (Nat × Nat) := l.map fun p => (p.1.toNat, p.2.1.toNat * 8 + p.2.2.val)

/-! ### Adoption (R323, R324) -/

/-- An ADOPT acts once for its epoch, phase, boundary and pairs (R323). -/
def Dev.adoptOnce (d : Dev) (h : FabHdr) (job phase b : Nat) (pairs : List (Nat × Nat)) (f : Dev → Dev) : Dev :=
  d.ingress h fun (d : Dev) => match d.jobOf job with
    | none => d
    | some j =>
      let key := (h.epoch.toNat, phase, b, pairs)
      if j.adoptSeen.contains key then d
      else f (d.setJob { j with adoptSeen := (j.adoptSeen.filter fun k => k.1 == h.epoch.toNat) ++ [key] })

/-- ADOPTACK to a request's root, or kept for the root that this controller is. -/
def Dev.answer (d : Dev) (q : AdoptReq) (status : Nat) : Dev :=
  match d.jobOf q.1 with
  | some j => (d.put Reg.SPARE_ADOPT_status status).sendAdoptAck j q.2.1 status
  | none => d

/-- The check of a prepared spare (R324 step 3): 0 ready, 1 not present or no DECL or no shipping
buffer (R174, R192), 2 a declaration refused. -/
def Dev.spareStatus (d : Dev) (a : Nat) : Nat :=
  if !d.flag (Reg.AGP_STATUS_present a) || !d.flag (Reg.AGP_STATUS_decl a) || d.get (Reg.ASMP_SHIP_pages a) == 0 then 1 else if d.declsOk a then 0 else 2

/-- SPARE_CTRL.ready (R324 steps 2 and 3; log entry 31): every request that waits is answered. -/
def Dev.spareReady (d : Dev) : Dev :=
  let d := d.put Reg.SPARE_CTRL_ready 0
  let qs := d.adoptReqs
  let d := { d with adoptReqs := [] }
  qs.foldl (fun (d : Dev) q =>
    let st := d.spareStatus q.2.2.1
    let d := if st = 0 then (d.readyDecls q.2.2.1).put Reg.SPARE_ADOPT_state 2 else d
    d.answer q st) d

def execSpareReady (s : State) : Host.Outcome State Fault Refusal := .next { s with dev := s.dev.spareReady.settle }

/-- adopt_wait has passed without ready (R324 step 3). -/
def Dev.adoptWait (d : Dev) : Dev :=
  let qs := d.adoptReqs
  qs.foldl (fun (d : Dev) q => d.answer q 3) { d with adoptReqs := [] }

def execAdoptWait (s : State) : Host.Outcome State Fault Refusal := .next { s with dev := s.dev.adoptWait.settle }

/-- ADOPT phase 0 (R324); a drilled accelerator is its own spare, and ready is taken as written (R337 step 4). -/
def Dev.prepare (d : Dev) (job : Nat) (pairs : List (Nat × Nat)) : Dev :=
  let d := d.adoptPrepare job pairs
  match d.jobOf job with
  | some j => if pairs.any fun p => j.drillIdx == some p.1 && p.2 / 8 == d.chip then d.spareReady else d
  | none => d

def execAdoptPrepare (h : FabHdr) (job : BitVec 32) (pairs : List (BitVec 16 × BitVec 16 × Fin 8)) (s : State) : Host.Outcome State Fault Refusal :=
  .next { s with dev := (s.dev.adoptOnce h job.toNat 0 0 (adoptPairs pairs) fun (d : Dev) => d.prepare job.toNat (adoptPairs pairs)).settle }

def execAdoptCommit (h : FabHdr) (job : BitVec 32) (b : BitVec 40) (pairs : List (BitVec 16 × BitVec 16 × Fin 8)) (s : State) :
    Host.Outcome State Fault Refusal :=
  .next { s with dev := (s.dev.adoptOnce h job.toNat 1 b.toNat (adoptPairs pairs) fun (d : Dev) =>
    d.adoptCommit job.toNat b.toNat (adoptPairs pairs)).settle }

def execAdoptCancel (h : FabHdr) (job : BitVec 32) (pairs : List (BitVec 16 × BitVec 16 × Fin 8)) (s : State) : Host.Outcome State Fault Refusal :=
  .next { s with dev := (s.dev.adoptOnce h job.toNat 2 0 (adoptPairs pairs) fun (d : Dev) => d.adoptCancel job.toNat (adoptPairs pairs)).settle }

def execAdoptack (h : FabHdr) (job : BitVec 32) (index : BitVec 16) (status : Byte) (s : State) : Host.Outcome State Fault Refusal :=
  .next { s with dev := (s.dev.ingress h fun (d : Dev) => d.adoptAckIn job.toNat index.toNat status.toNat h.src.toNat).settle }

/-! ### Apposition (R326 to R330, R333, R334) -/

def execAppoLoad (dma : Dma) (s : State) : Host.Outcome State Fault Refusal := .next { s with dev := (s.dev.appoLoad dma).settle }

/-- prog_wait has passed with no program (R326): the first condition that fails, 0x04 unless one before it does. -/
def Dev.progWait (d : Dev) (slot : Nat) : Dev :=
  let x := d.standSt slot
  if x.state ≠ 1 then d
  else match d.jobOf x.job with
    | some j => d.appoRefuse slot ((d.appoReason j.desc.onLoss x none).getD 4) j x.index
    | none => d.setStand slot { StandSt.none with reason := 4 }

def execProgWait (slot : Fin 2) (s : State) : Host.Outcome State Fault Refusal := .next { s with dev := (s.dev.progWait slot).settle }

def execStandinStepEnd (slot : Fin 2) (s : State) : Host.Outcome State Fault Refusal := .next { s with dev := (s.dev.standMark slot).settle }

/-- The last command of a slot's update list has ended (R329). -/
def Dev.updateEnd (d : Dev) (slot : Nat) : Dev :=
  if (d.standSt slot).updating && (d.threadsOf (d.standSt slot).ctx).isEmpty then d.standUpdated slot else d

def execStandinUpdateEnd (slot : Fin 2) (s : State) : Host.Outcome State Fault Refusal := .next { s with dev := (s.dev.updateEnd slot).settle }

def execXrelay (h : FabHdr) (job : BitVec 32) (record : BitVec 24) (off : BitVec 38) (token : Option Word) (data : List Byte) (s : State) :
    Host.Outcome State Fault Refusal :=
  .next { s with dev := (s.dev.ingress h fun (d : Dev) =>
    d.relayIn job.toNat record.toNat off.toNat (token.map BitVec.toNat) (data.map BitVec.toNat)).settle }

/-- A HANDOVER without items (log entry 31): from the spare of a slot that hands over it ends the handover, else it is JOB. -/
def Dev.handoverWord (d : Dev) (job src a : Nat) : Dev :=
  if (List.range 2).any fun s => (d.standSt s).state == 4 && (d.standSt s).job == job && (d.standSt s).acc == a && (d.standSt s).spare / 8 == src then
    d.standOver job a
  else d.standJob job (src * 8 + a)

/-- HANDOVER (R334); one without items tells the stand-in's controller that the handover is complete, or brings its JOB to the spare's controller
(log entry 31). -/
def execHandover (h : FabHdr) (job : BitVec 32) (acc : Fin 8) (nFlow : BitVec 24) (itemBytes : BitVec 32) (words : List Word) (digestOk : Bool)
    (s : State) : Host.Outcome State Fault Refusal :=
  .next { s with dev := (s.dev.ingress h fun (d : Dev) =>
    if words = [] then d.handoverWord job.toNat h.src.toNat acc
    else d.handoverIn job.toNat h.src.toNat acc nFlow.toNat itemBytes.toNat (words.map BitVec.toNat) digestOk).settle }

/-! ### Drills (R336, R337) -/

/-- The jobs that a drill of the rack may choose, by their own conditions (R336). -/
def Dev.drillable (d : Dev) : List JobSt :=
  (d.jobs.map (·.2)).filter fun j => j.phase == 2 && j.desc.onLoss == 0 && j.racks.contains d.rack

/-- The rack holds the job's turn, and no rack has drilled it within job_gap_h hours (R336). -/
def Dev.drillTurn (d : Dev) (j : JobSt) : Bool :=
  let gap := d.get (acts Reg.DRILL_CTRL_job_gap_h) * 3600
  let rs := j.racks.mergeSort fun a b => decide (a ≤ b)
  gap == 0 || (secOf d.time / gap % (max 1 rs.length) == rs.findIdx (· == d.rack) &&
    (match Tab.find j.desc.job d.mbr.drilled with | some t => decide (t + gap ≤ secOf d.time) | none => true))

/-- The job's accelerators in the rack. -/
def Dev.rackAccs (d : Dev) (j : JobSt) : List Nat := j.accs.filter fun x => x / 8 / 32 == d.rack

/-- The chosen job: the one with the most accelerators in the rack, of several the first. -/
def Dev.drillJob (d : Dev) (js : List JobSt) : Option JobSt :=
  js.find? fun j => js.all fun k => decide ((d.rackAccs k).length ≤ (d.rackAccs j).length)

/-- The accelerator (R336): the lowest-slot active tray with no stand-in and no device under watch, of other trays as HAZARD tells a leader that is the job's root (log
entry 28), and the lowest of its accelerators in the job. -/
def Dev.drillAcc (d : Dev) (j : JobSt) : Option Nat :=
  let ok (c : Nat) : Bool := d.roleOf c == 1 && !(d.standChips j).contains c && !j.watchers.contains c && (c != d.chip || (List.range 9).all fun v => !(d.healthOf v).watch)
  ((d.rackAccs j).filter fun x => ok (x / 8)).min?

/-- The rack's drill time at the leader (R336): a drill is prepared, or skipped with its reason. -/
def Dev.drillTime (d : Dev) : Dev :=
  if !d.isLeader || d.get (acts Reg.DRILL_CTRL_period_h) == 0 || d.drill.phase != 0 then d
  else
    let js := d.drillable
    let mine := js.filter d.drillTurn
    let skip (r : Nat) : Dev := d.drillResult 3 r 0
    if js.isEmpty then skip 1
    else match d.drillJob mine with
      | none => skip 6
      | some j =>
        if d.standsRun != 0 || d.jobs.any (fun e => (d.standChips e.2).any fun c => c / 32 == d.rack) then skip 3
        else if d.budget < 1 then skip 4
        else if !(j.accs.all d.accIn) then skip 5
        else match d.drillAcc j with
          | none => skip 1
          | some x => { d with drill := ⟨1, j.desc.job, j.accs.findIdx (· == x), x, 0, 0, false⟩ }

def execDrillTime (s : State) : Host.Outcome State Fault Refusal := .next { s with dev := s.dev.drillTime.settle }

/-- len_s of standing in, and at least two committed steps, have passed (R337 steps 3 and 4; log entry 18): the root has the accelerator
adopted back. -/
def Dev.drillLen (d : Dev) (job : Nat) : Dev :=
  match d.jobOf job with
  | none => d
  | some j => match j.drillIdx with
    | some i => if d.isRoot j && j.standing.contains i then d.prepare job [(i, j.accs.getD i 0)] else d
    | none => d

def execDrillLen (job : BitVec 32) (s : State) : Host.Outcome State Fault Refusal := .next { s with dev := (s.dev.drillLen job.toNat).settle }

end Sys2Proof.Machine
end

