-- ==== Sys2Proof/Machine/Clause.lean ====
section
/-! DEFINITION. The commands of membership and job start (R290 to R318): heartbeats and suspicion, VIEW, Clauses, joining and founding,
fencing, job evidence, and the start, end and hazard messages. -/

namespace Sys2Proof.Machine

/-! ### Heartbeats (R292, R293) -/

/-- The change that a suspicion asks for: a controller, or a rack (R297). -/
def silentChip (chip : Nat) : Nat := changeWord chip 0 0xF 1
def silentRack (rack : Nat) : Nat := changeWord (rack * 32 + 31) 0 0xF 1

/-- A change awaits a Clause. -/
def MemberSt.await (m : MemberSt) (pod : Bool) (c : Nat) : MemberSt :=
  if m.pending.contains (pod, c) then m else { m with pending := m.pending ++ [(pod, c)] }

/-- A change no longer awaits one. -/
def MemberSt.drop (m : MemberSt) (pod : Bool) (c : Nat) : MemberSt := { m with pending := m.pending.filter (· != (pod, c)) }

/-- HB from a member (R293): suspicion ends. -/
def Dev.hbIn (d : Dev) (src : Nat) : Dev :=
  let now := d.nowUs
  ((d.incU Cnt.MBR_CNT_HB_RX).onMbr fun m => { m.drop false (silentChip src) with
    heard := Tab.insert src now (Tab.erase src m.heard), suspects := m.suspects.filter (· != src) })

def execHb (h : FabHdr) (_heard : BitVec 18) (_digest : Word) (s : State) : Host.Outcome State Fault Refusal :=
  .next { s with dev := (s.dev.ingress h fun (d : Dev) => if h.src.toNat / 32 = d.rack then d.hbIn h.src.toNat else d).settle }

/-- The slots from which an HB came within the last 210 µs (R292). -/
def Dev.heardMask (d : Dev) : Nat :=
  ((List.range 18).filter fun s => match Tab.find (d.rack * 32 + s) d.mbr.heard with
    | some t => decide (d.nowUs ≤ t + 210)
    | none => false).foldl setBit 0

/-- HB leaves every 50 µs (R292). -/
def Dev.hbSend (d : Dev) : Dev :=
  if !d.isMember || d.silent then d
  else (d.send d.rackBroadcast 0x10 [d.heardMask, d.viewDigest]).incU Cnt.MBR_CNT_HB_TX

def execHbSend (s : State) : Host.Outcome State Fault Refusal := .next { s with dev := s.dev.hbSend.settle }

/-- The view holds no more than half of the plan's racks (R292, R305 step 7). -/
def Dev.podFounding (d : Dev) : Bool := decide (2 * d.racksIn.length ≤ d.foundingSize true)

/-- GHB of a rack (R293, R304): suspicion ends; one that is not in the view asks for its admission, unless this rack is founding itself. -/
def Dev.ghbIn (d : Dev) (rack leader epoch : Nat) (founding : Bool) : Dev :=
  let now := d.nowUs
  let d := if founding then d.onMbr fun m => { m with seen := some (laterEpoch epoch m.seen) } else d
  let d := (d.incU Cnt.MBR_CNT_HB_RX).onMbr fun m => { m.drop true (silentRack rack) with
    racks := Tab.insert rack (now, founding, leader) (Tab.erase rack m.racks), rackSuspects := m.rackSuspects.filter (· != rack) }
  if d.isMember && !d.racksIn.contains rack && !d.podFounding then
    d.onMbr fun m => m.await true (changeWord (rack * 32 + 31) 1 0xF 7)
  else d

def execGhb (h : FabHdr) (rack leader : BitVec 16) (founding : Bool) (_members : BitVec 18) (_digest : Word) (s : State) :
    Host.Outcome State Fault Refusal :=
  .next { s with dev := (if founding then s.dev.ghbIn rack.toNat leader.toNat h.epoch.toNat true
                         else s.dev.ingress h fun (d : Dev) => d.ghbIn rack.toNat leader.toNat h.epoch.toNat false).settle }

/-- The newest epoch among those heard. -/
def newestOf (e : Nat) (es : List Nat) : Nat := es.foldl (fun a b => if newer b a then b else a) e

/-- Pod founding (R305 steps 8 to 10): the leader of the lowest rack whose founding GHB was heard proposes all of them; where they are more
than the 64 changes of a proposal, first those that are not yet in the view. -/
def Dev.foundPod (d : Dev) : Dev :=
  let rs := ((List.range 253).filter fun r => r != d.rack && (d.mbr.racks.any fun e => e.1 == r) && d.rackHeard r 2000 true)
  let all := (d.rack :: rs).mergeSort fun a b => decide (a ≤ b)
  if !d.isLeader || !d.podFounding || rs.isEmpty || all.head? != some d.rack || d.mbr.prop.isSome || d.mbr.backoff then d
  else
    let first := d.rack :: all.filter fun r => !d.racksIn.contains r
    d.propose true true (epochAfter d.seenEpoch) (((first ++ all).eraseDups.map fun r => changeWord (r * 32 + 31) 1 0xF 7).take 64) []

/-- GHB leaves every 250 µs from the leader and the member next above it (R292). -/
def Dev.ghbSend (d : Dev) : Dev :=
  if !(d.isLeader || d.isStandby) || d.silent then d
  else
    let w := pack [(48, 16, d.rack), (32, 16, (d.leaderOf d.rack).getD 0), (31, 1, b2n d.podFounding),
      (0, 18, (d.membersOf d.rack).foldl (fun m c => setBit m (c % 32)) 0)]
    ((d.send podBroadcast 0x11 [w, d.viewDigest]).incU Cnt.MBR_CNT_HB_TX).foundPod

def execGhbSend (s : State) : Host.Outcome State Fault Refusal := .next { s with dev := s.dev.ghbSend.settle }

/-- 210 µs without HB from a member (R293, R300; log entry 18). -/
def Dev.suspect (d : Dev) (chip : Nat) : Dev :=
  if !d.isMember || chip == d.chip || chip / 32 != d.rack || !d.isIn chip || d.mbr.suspects.contains chip then d
  else d.onMbr fun m => { m.await false (silentChip chip) with suspects := m.suspects ++ [chip] }

def execSuspect (chip : BitVec 16) (s : State) : Host.Outcome State Fault Refusal := .next { s with dev := (s.dev.suspect chip.toNat).settle }

/-- 1,050 µs without GHB from a rack of the view (R293, R300). -/
def Dev.suspectRack (d : Dev) (rack : Nat) : Dev :=
  if !d.isMember || rack == d.rack || !d.racksIn.contains rack || d.mbr.rackSuspects.contains rack then d
  else d.onMbr fun m => { m.await true (silentRack rack) with rackSuspects := m.rackSuspects ++ [rack] }

def execRackSuspect (rack : BitVec 16) (s : State) : Host.Outcome State Fault Refusal :=
  .next { s with dev := (s.dev.suspectRack rack.toNat).settle }

/-! ### VIEW (R294) -/

/-- The leader's digest has differed for 1 ms (R294): VIEWREQ goes to it, or from it to the next member. -/
def Dev.viewMismatch (d : Dev) : Dev :=
  if !d.isMember then d
  else match (d.membersOf d.rack).find? (· != d.chip) with
    | some c => d.send c 0x19 []
    | none => d

def execViewMismatch (s : State) : Host.Outcome State Fault Refusal := .next { s with dev := s.dev.viewMismatch.settle }

def execViewreq (h : FabHdr) (s : State) : Host.Outcome State Fault Refusal :=
  .next { s with dev := (s.dev.ingress h fun (d : Dev) => if d.isMember then d.send h.src.toNat 0x1A d.viewBody else d).settle }

/-- An entry of a VIEW is taken when it is newer, or when the own view has none for the chip (R294), the tray's adopted bits with it (R320); the
role of a tray of another rack is learnt from it. -/
def Dev.takeEntry (d : Dev) (e : ViewEntry) : Dev :=
  let c := e.chip.toNat
  let old := d.viewEnt c
  let d := if c / 32 = d.rack then d else d.onMbr fun m => { m with roles := Tab.set m.roles c 0 e.role.toNat }
  if newer e.changed.toNat old.changed || old.state == 0 then
    (d.setView c { old with state := e.state, changed := e.changed.toNat, admitted := e.admitted.toNat, accExp := e.accExp.toNat }).onMbr fun m =>
      { m with adopted := Tab.set m.adopted c 0 e.adopted.toNat }
  else d

/-- The commit record in a DECIDE's body, if it has one. -/
def decideRecord (body : List Nat) : Option (List Nat) :=
  let crec := body.drop (1 + bits 32 7 (wd body 0))
  if crec.length = 8 then some crec else none

/-- The changes in a DECIDE's body. -/
def decideChanges (body : List Nat) : List Nat := (body.drop 1).take (bits 32 7 (wd body 0))

/-- The controllers that a counted expulsion of a DECIDE took out, as the view now shows them (R304). -/
def Dev.flapped (d : Dev) (epoch c : Nat) : List Nat :=
  if !chCounts c then []
  else if chChip c % 32 = 31 then ((List.range 18).map (chChip c / 32 * 32 + ·)).filter fun m => (d.viewEnt m).changed == epoch && (d.viewEnt m).state == 2
  else [chChip c]

/-- A DECIDE that a VIEW brings (R294): what it settles, its epoch, its counted expulsions (R304), the commit record of the own rack that
it sealed (R244), and for a member that had missed it, with old the view before, what follows from its expulsions and drills. -/
def Dev.takeDecide (d : Dev) (old : Tab ViewEnt) (src : Nat) (body : List Nat) : Dev :=
  if d.mbr.decides.contains (src :: body) then d
  else
    let epoch := bits 0 32 (wd body 0)
    let pod := bitAt 63 (wd body 0)
    let changes := decideChanges body
    let d := d.onMbr fun m => { m with decides := (m.decides ++ [src :: body]).drop (m.decides.length + 1 - 64) }
    let d := if pod || src / 32 == d.rack then d.onMbr fun m => m.settleChanges pod changes else d
    let d := d.takeEpoch epoch
    let d := (changes.flatMap fun c => d.flapped epoch c).foldl Dev.flap d
    let d := if d.isMember then (((drilledBy changes).foldl Dev.drillBegins d).countExpels old changes).drillsEnd changes else d
    match decideRecord body with | some crec => d.sealedIn crec (src / 32) | none => d

/-- What LPDDR4X kept in Idle-Keep is used again where the rack still holds its commit record, with this slot among the holders and the
digest of the own copy (R258): the rack's records are those of the DECIDEs that the first VIEW brings (log entry 54). Other units count as
lost, and their pins go. -/
def Dev.keptCheck (d : Dev) (crecs : List (List Nat)) : Dev :=
  if !d.pwr.keptDue then d
  else
    let s := d.chip % 32
    let ok (g : GenSt) : Bool := crecs.any fun c => wd c 0 == wd g.crec 0 && wd c 7 == wd g.crec 7 && bitAt s (wd c 1)
    let d := { d with pwr := { d.pwr with keptDue := false } }
    (d.jobs.flatMap fun e => [(e.2, 0), (e.2, 1)]).foldl (fun (d : Dev) e =>
      let (j, k) := e
      let g := j.slot d.rack k
      if g.state < 3 then d
      else if ok g then d.onJob j.desc.job fun j => j.setSlot d.rack k { g with lost := clrBit g.lost s }
      else (d.onJob j.desc.job fun j => j.setSlot d.rack k { g with lost := setBit g.lost s }).dropPins j.desc.job k) d

/-- VIEW arrives (R294, R302, R304); same: what the management cores find of the settings (R318). -/
def Dev.viewIn (d : Dev) (es : List ViewEntry) (decides : List (Nat × List Nat)) (same : Bool) : Dev :=
  let old := d.mbr.view
  let d := es.foldl Dev.takeEntry d
  let d := d.keptCheck ((decides.filter fun e => e.1 / 32 == d.rack).filterMap fun e => decideRecord e.2)
  let drilled := (decides.filter fun e => !d.mbr.decides.contains (e.1 :: e.2)).flatMap fun e => drilledBy (decideChanges e.2)
  let d := decides.foldl (fun (d : Dev) e => d.takeDecide old e.1 e.2) d
  let d := d.onMbr fun m => { m with same := same, unfounded := false }
  ((d.viewChanged old drilled).selfCheck.followView).raiseDue

def execView (h : FabHdr) (entries : List ViewEntry) (decides : List (BitVec 16 × List Word)) (same : Bool) (s : State) :
    Host.Outcome State Fault Refusal :=
  .next { s with dev :=
    let go (d : Dev) : Dev := d.viewIn entries (decides.map fun e => (e.1.toNat, e.2.map BitVec.toNat)) same
    (if s.dev.isMember then s.dev.ingress h go else go s.dev).settle }

/-! ### Clauses (R296 to R300) -/

/-- The answer to a proposal (R296, R298): a vote, or a refusal that carries the last epoch voted on. -/
def Dev.vote (d : Dev) (src : Nat) (pod founding : Bool) (epoch : Nat) (changes crec : List Nat) : Dev :=
  let last := if pod then d.mbr.votedPod else d.mbr.votedRack
  let old := match last with | some l => !newer epoch l | none => false
  if old then d.send src 0x13 [pack [(48, 16, d.chip), (47, 1, 1), (0, 32, last.getD 0)], 0]
  else (d.send src 0x13 [pack [(48, 16, d.chip), (0, 32, epoch)], d.yesBits founding changes crec]).voted pod epoch

/-- Who votes on a proposal (R296, R305): members of the rack, leaders of racks; on a founding one in rack scope who waits in stage 0x9. -/
def Dev.mayVote (d : Dev) (src : Nat) (pod founding : Bool) : Bool :=
  !d.silent && (if pod then d.isLeader
    else src / 32 == d.rack && (if founding then !d.isMember && d.stage == 9 else d.isMember))

def execPropose (h : FabHdr) (pod founding : Bool) (epoch : BitVec 32) (changes crec : List Word) (s : State) : Host.Outcome State Fault Refusal :=
  .next { s with dev :=
    let go (d : Dev) : Dev :=
      if d.mayVote h.src.toNat pod founding then
        d.vote h.src.toNat pod founding epoch.toNat (changes.map BitVec.toNat) (crec.map BitVec.toNat)
      else d
    (if founding then go s.dev else s.dev.ingress h go).settle }

/-- A vote or a refusal at the coordinator (R300). -/
def Dev.voteIn (d : Dev) (voter : Nat) (refuse : Bool) (epoch yes : Nat) : Dev :=
  match d.mbr.prop with
  | none => d
  | some p =>
    if refuse then
      (if newer epoch p.epoch then d.onMbr fun m => { m with prop := none, backoff := true, refused := some epoch } else d)
    else if epoch ≠ p.epoch ∨ (Tab.find voter p.votes).isSome ∨ !(d.votersOf p).contains voter then d
    else (d.onMbr fun m => { m with prop := some { p with votes := Tab.insert voter yes p.votes } }).clauseCheck

def execVote (h : FabHdr) (voter : BitVec 16) (refuse : Bool) (epoch : BitVec 32) (yes : Word) (s : State) : Host.Outcome State Fault Refusal :=
  .next { s with dev :=
    let go (d : Dev) : Dev := d.voteIn voter.toNat refuse epoch.toNat yes.toNat
    let founding := match s.dev.mbr.prop with | some p => p.founding | none => false
    (if founding then go s.dev else s.dev.ingress h go).settle }

def execDecide (h : FabHdr) (pod founding : Bool) (yes voters : Byte) (epoch : BitVec 32) (changes crec : List Word) (s : State) :
    Host.Outcome State Fault Refusal :=
  .next { s with dev :=
    let go (d : Dev) : Dev :=
      d.decideIn h.src.toNat pod founding yes.toNat voters.toNat epoch.toNat (changes.map BitVec.toNat) (crec.map BitVec.toNat)
    (if founding || !s.dev.isMember then go s.dev else s.dev.ingress h go).settle }

/-- 400 µs or 2,000 µs have passed (R300). -/
def Dev.clauseTimeout (d : Dev) : Dev :=
  match d.mbr.prop with
  | none => d
  | some p =>
    let d := (d.clauseEnd p).onMbr fun m => { m with backoff := true }
    (d.incE Cnt.MBR_CNT_CLAUSE_FAIL).raise Src.MBR_clause_failed

def execClauseTimeout (s : State) : Host.Outcome State Fault Refusal := .next { s with dev := s.dev.clauseTimeout.settle }

def execBackoffEnd (s : State) : Host.Outcome State Fault Refusal :=
  .next { s with dev := (s.dev.onMbr fun m => { m with backoff := false }).settle }

/-! ### Joining and founding (R304, R305) -/

/-- JOINREQ (R304, R305): kept, and for a member a Clause when it would vote for the admission itself. -/
def Dev.joinReq (d : Dev) (src epoch : Nat) (operator : Bool) : Dev :=
  if src / 32 ≠ d.rack then d
  else
    let now := d.nowUs
    let d := d.onMbr fun m => { m with joiners := Tab.insert src (now, epoch, operator) (Tab.erase src m.joiners) }
    let c := changeWord src 1 0xF 7
    if d.isMember && !d.isIn src && d.voteYes false c then d.onMbr fun m => m.await false c else d

def execJoinreq (h : FabHdr) (operator : Bool) (s : State) : Host.Outcome State Fault Refusal :=
  .next { s with dev := (s.dev.joinReq h.src.toNat h.epoch.toNat operator).settle }

/-- The refusal code of R304 that holds for this controller, from the view it has (log entry 34). -/
def Dev.joinCode (d : Dev) : Nat :=
  let e := d.viewEnt d.chip
  if e.state = 4 ∧ !d.mbr.operator then 2
  else if e.state = 3 ∧ !d.mbr.operator then 5
  else if d.nowUs < e.hold then 1
  else if (match d.leaderOf d.rack with | some l => (d.helloFrom l).isSome && !d.samePlan l | none => false) then 3
  else 0

/-- The joining controllers heard in the last 5 ms, this one included (R305 step 2). -/
def Dev.joiningNow (d : Dev) : List Nat := ((List.range 18).map (d.rack * 32 + ·)).filter d.joinHeard

/-- Rack founding (R305 steps 1 to 5). -/
def Dev.foundRack (d : Dev) : Dev :=
  let cs := d.joiningNow
  if !d.mbr.unfounded || cs.head? != some d.chip || d.mbr.prop.isSome || d.mbr.backoff then d
  else
    let heard := newestOf d.epoch (cs.filterMap fun c => (Tab.find c d.mbr.joiners).map fun j => j.2.1)
    d.propose false true (epochAfter heard) (cs.map fun c => changeWord c 1 0xF 7) []

/-- The rack has no quorum (R304 code 0x04, log entry 34): too few trays join an unfounded rack, or the members heard within 210 µs are
no quorum of those in the view. -/
def Dev.rackShort (d : Dev) : Bool :=
  let ms := (d.membersOf d.rack).filter (· != d.chip)
  let heard := ms.filter fun c => match Tab.find c d.mbr.heard with | some t => decide (d.nowUs ≤ t + 210) | none => false
  (d.mbr.unfounded && decide (2 * d.joiningNow.length ≤ d.foundingSize false)) || (ms != [] && !quorum ms heard)

/-- Every 1 ms in stage 0x9 (R304): JOINREQ, unless a refusal stops it. -/
def Dev.joinSend (d : Dev) : Dev :=
  if d.stage ≠ 9 ∨ d.isMember ∨ d.silent then d
  else
    let code := d.joinCode
    if code ≠ 0 then
      let new := code == 2 && d.get Reg.MBR_STATUS_refuse != 2
      let d := d.put Reg.MBR_STATUS_refuse code
      if new then d.raise Src.MBR_join_blocked else d
    else
      let d := (d.put Reg.MBR_STATUS_state 1).put Reg.MBR_STATUS_refuse (if d.rackShort then 4 else 0)
      (d.send d.rackBroadcast 0x15 [b2n d.mbr.operator * 2 ^ 63]).foundRack

def execJoinreqSend (s : State) : Host.Outcome State Fault Refusal := .next { s with dev := s.dev.joinSend.settle }

/-- 20 ms in stage 0x9 without DECIDE or VIEW (R305 step 1). -/
def Dev.foundingTimeout (d : Dev) : Dev :=
  if d.stage = 9 ∧ !d.isMember then d.onMbr fun m => { m with unfounded := true } else d

def execFoundingTimeout (s : State) : Host.Outcome State Fault Refusal := .next { s with dev := s.dev.foundingTimeout.settle }

/-! ### Fencing, withdrawal and rejoining (R303, R304, R306) -/

/-- FENCED from a member (R303); from another source it is dropped as every message is (R302). -/
def execFenced (h : FabHdr) (s : State) : Host.Outcome State Fault Refusal :=
  .next { s with dev := s.dev.ingress h fun (d : Dev) => if d.isMember && d.isIn h.src.toNat then d.fenceSelf else d }

/-- Isolation of a member for 2 ms; of a leader from the pod for 10 ms (R303; log entry 18). -/
def execIsolation (pod : Bool) (s : State) : Host.Outcome State Fault Refusal :=
  .next { s with dev := if s.dev.isMember && (!pod || s.dev.isLeader) then s.dev.fenceSelf else s.dev }

/-- MBR_CTRL.withdraw (R295, R306). -/
def Dev.withdrawRequest (d : Dev) : Dev :=
  let d := d.put Reg.MBR_CTRL_withdraw 0
  if !d.isMember then d
  else if d.inJob d.chip then d.put Reg.MBR_STATUS_refuse 0x06
  else match d.coordinator d.rack [d.chip] with
    | some c => if c = d.chip then d.onMbr fun m => m.await false (changeWord d.chip 2 0xF 7) else d.send c 0x16 []
    | none => d

def execWithdrawRequest (s : State) : Host.Outcome State Fault Refusal := .next { s with dev := s.dev.withdrawRequest.settle }

def execWithdraw (h : FabHdr) (s : State) : Host.Outcome State Fault Refusal :=
  .next { s with dev := (s.dev.ingress h fun (d : Dev) =>
    if h.src.toNat / 32 = d.rack then d.onMbr fun m => m.await false (changeWord h.src.toNat 2 0xF 7) else d).settle }

/-- MBR_CTRL.rejoin (R304): refusal 0x02 or 0x05 ends, and the next JOINREQ carries the operator flag. -/
def Dev.rejoin (d : Dev) : Dev :=
  let r := d.get Reg.MBR_STATUS_refuse
  let d := d.put Reg.MBR_CTRL_rejoin 0
  if r = 2 ∨ r = 5 then
    ((d.put Reg.MBR_STATUS_refuse 0).put Reg.MBR_STATUS_state 1).onMbr fun m => { m with operator := true }
  else d

def execRejoin (s : State) : Host.Outcome State Fault Refusal := .next { s with dev := s.dev.rejoin.settle }

/-- A chip's hold-off ends (R304). -/
def Dev.holdoffEnd (d : Dev) (chip : Nat) : Dev :=
  let d := d.setView chip { d.viewEnt chip with hold := 0 }
  if chip = d.chip ∧ d.get Reg.MBR_STATUS_refuse = 1 then d.put Reg.MBR_STATUS_refuse 0 else d

def execHoldoffEnd (chip : BitVec 16) (s : State) : Host.Outcome State Fault Refusal :=
  .next { s with dev := (s.dev.holdoffEnd chip.toNat).settle }

/-! ### Job evidence (R307) -/

def execEvidence (h : FabHdr) (change : Word) (s : State) : Host.Outcome State Fault Refusal :=
  .next { s with dev := (s.dev.ingress h fun (d : Dev) =>
    if chChip change.toNat / 32 = d.rack then d.onMbr fun m => m.await false change.toNat else d).settle }

/-- An accelerator's MARK is missing for stall_ms (R307). -/
def Dev.jobStall (d : Dev) (a : Nat) : Dev :=
  match (d.jobOfAcc a).bind fun j => j.accOf a with
  | some x => if d.isMember && x.mark.isNone then d.askLeader (changeWord d.chip 0 a 3) else d
  | none => d

def execJobStall (a : Fin 8) (s : State) : Host.Outcome State Fault Refusal := .next { s with dev := (s.dev.jobStall a).settle }

/-- A step-tree child sends no STEPREP for stall_ms (R307). -/
def Dev.treeStall (d : Dev) (job child : Nat) : Dev :=
  match d.jobOf job with
  | some j =>
    if d.isMember && (d.stepChildren j).contains child && (Tab.find child j.reports).isNone then d.askLeader (changeWord child 0 0xF 3) else d
  | none => d

def execStepTreeStall (job : BitVec 32) (child : BitVec 16) (s : State) : Host.Outcome State Fault Refusal :=
  .next { s with dev := (s.dev.treeStall job.toNat child.toNat).settle }

/-- An agent port is not back within 200 ms of agent_link_lost (R307). -/
def Dev.portTimeout (d : Dev) (a : Nat) : Dev :=
  if d.isMember && !d.agentUp a then d.askLeader (changeWord d.chip 0 a 6) else d

def execAgentPortTimeout (a : Fin 8) (s : State) : Host.Outcome State Fault Refusal := .next { s with dev := (s.dev.portTimeout a).settle }

/-! ### Job start and end (R308 to R314) -/

def execJobSubmit (dma : Dma) (s : State) : Host.Outcome State Fault Refusal := .next { s with dev := (s.dev.jobSubmit dma).settle }

def execJobEndRequest (s : State) : Host.Outcome State Fault Refusal := .next { s with dev := s.dev.jobEndRequest.settle }

def execJobstart (h : FabHdr) (job adm : BitVec 32) (seq total root : BitVec 16) (data : List Byte) (s : State) : Host.Outcome State Fault Refusal :=
  .next { s with dev := (s.dev.ingress h fun (d : Dev) =>
    d.jobStart job.toNat adm.toNat seq.toNat total.toNat root.toNat (data.map BitVec.toNat)).settle }

def execJoback (h : FabHdr) (job adm : BitVec 32) (covered : BitVec 32) (status : Byte) (fail : BitVec 16) (s : State) :
    Host.Outcome State Fault Refusal :=
  .next { s with dev := (s.dev.ingress h fun (d : Dev) =>
    d.jobAck h.src.toNat job.toNat adm.toNat covered.toNat status.toNat fail.toNat).settle }

def execJobgo (h : FabHdr) (job adm : BitVec 32) (s : State) : Host.Outcome State Fault Refusal :=
  .next { s with dev := (s.dev.ingress h fun (d : Dev) => d.withStart job.toNat adm.toNat fun _ => d.startGo job.toNat).settle }

def execJobgoAbort (h : FabHdr) (job adm : BitVec 32) (result : Byte) (s : State) : Host.Outcome State Fault Refusal :=
  .next { s with dev := (s.dev.ingress h fun (d : Dev) =>
    d.withStart job.toNat adm.toNat fun _ => d.startAbort job.toNat result.toNat).settle }

def execReparent (h : FabHdr) (job adm : BitVec 32) (orphan held : BitVec 16) (s : State) : Host.Outcome State Fault Refusal :=
  .next { s with dev := (s.dev.ingress h fun (d : Dev) => d.reparent job.toNat adm.toNat orphan.toNat held.toNat).settle }

def execJobend (h : FabHdr) (job adm : BitVec 32) (s : State) : Host.Outcome State Fault Refusal :=
  .next { s with dev := (s.dev.ingress h fun (d : Dev) =>
    d.withStart job.toNat adm.toNat fun j => if j.phase = 2 then d.jobEnd job.toNat else d).settle }

def execJobackTimeout (job : BitVec 32) (child : BitVec 16) (s : State) : Host.Outcome State Fault Refusal :=
  .next { s with dev := (s.dev.jobAckLate job.toNat child.toNat).settle }

def execOrphanTimeout (job : BitVec 32) (s : State) : Host.Outcome State Fault Refusal := .next { s with dev := (s.dev.orphan job.toNat).settle }

def execStartTimeout (job : BitVec 32) (s : State) : Host.Outcome State Fault Refusal := .next { s with dev := (s.dev.startTimeout job.toNat).settle }

/-! ### Hazard and health (R315, R317) -/

/-- HAZARD at the root (R238, R317): the tray's sum, and whether one of its job devices is under watch (log entry 28). -/
def Dev.hazardIn (d : Dev) (job src sum : Nat) (watch : Bool) : Dev :=
  d.onJob job fun j =>
    { j with hazards := Tab.insert src sum (Tab.erase src j.hazards), watchers := (j.watchers.filter (· != src)) ++ if watch then [src] else [] }

def execHazard (h : FabHdr) (job : BitVec 32) (tray : TrayHazard) (s : State) : Host.Outcome State Fault Refusal :=
  .next { s with dev := (s.dev.ingress h fun (d : Dev) => d.hazardIn job.toNat h.src.toNat tray.sum.toNat tray.watch).settle }

/-- HAZARD leaves for the root of each job with devices here, every 1 s (R317). -/
def Dev.hazardSend (d : Dev) : Dev :=
  (d.jobs.filter fun e => e.2.phase == 2 && e.2.acc != []).foldl (fun (d : Dev) e => d.hazardOut e.1 e.2) d

def execHazardSend (s : State) : Host.Outcome State Fault Refusal := .next { s with dev := s.dev.hazardSend.settle }

/-- Points after 1/64 of the half-life (R315): times 2^(-1/64), as 4,248,701,965 / 2^32 (log entry 35). -/
def decay (points : Nat) : Nat := points * 4248701965 / 2 ^ 32

/-- Points decay (R315), and standings follow (R316). -/
def Dev.healthDecay (d : Dev) : Dev :=
  (List.range 9).foldl (fun (d : Dev) v =>
    let h := d.healthOf v
    { d with health := Tab.set d.health v Health.reset (d.standing { h with points := decay h.points }) }) d

def execHealthDecay (s : State) : Host.Outcome State Fault Refusal := .next { s with dev := s.dev.healthDecay.settle }

end Sys2Proof.Machine
end

