-- ==== Sys2Proof/Machine/Decision.lean ====
section
/-! DEFINITION. Messages of the job between controllers: digests, step reports and decisions (R212 to R220), cuts, stripes, mirrors and
restores (R240 to R259), and messages on their way through this controller (R284 to R286). -/

namespace Sys2Proof.Machine

/-- A message of a job acts on a controller that has admitted it, when it passes (R302). -/
def Dev.jobMsg (d : Dev) (h : FabHdr) (job : Nat) (f : Dev → JobSt → Dev) : Dev :=
  (d.ingress h fun (d : Dev) => match d.jobOf job with
    | some j => if j.phase = 2 then f d j else d
    | none => d).settle

/-- A message with the same epoch, kind, step and sender has already acted (R240). -/
def JobSt.elides (j : JobSt) (h : FabHdr) (kind step : Nat) : Bool := j.elided.contains (h.epoch.toNat, kind, step, h.src.toNat)

/-- A message is noted as one that has acted; those of other epochs are forgotten. -/
def JobSt.elide (j : JobSt) (h : FabHdr) (kind step : Nat) : JobSt :=
  { j with elided := (j.elided.filter fun x => x.1 == h.epoch.toNat) ++ [(h.epoch.toNat, kind, step, h.src.toNat)] }

/-- A cut, seal or restore message, which acts once for its epoch, kind, step and sender (R240). -/
def Dev.onceMsg (d : Dev) (h : FabHdr) (job kind step : Nat) (f : Dev → JobSt → Dev) : Dev :=
  d.jobMsg h job fun d j => if j.elides h kind step then d else f (d.setJob (j.elide h kind step)) (j.elide h kind step)

/-- Accelerators in a body as chip × 8 + number. -/
def accsOf (l : List (BitVec 16 × Fin 8)) : List Nat := l.map fun e => e.1.toNat * 8 + e.2.val

/-! ### Agreement (R212 to R220) -/

def execHashes (h : FabHdr) (job : BitVec 32) (step : BitVec 40) (round : Byte) (pairs : List (BitVec 16 × Fin 8 × BitVec 24 × Word)) (s : State) :
    Host.Outcome State Fault Refusal :=
  .next { s with dev := s.dev.jobMsg h job.toNat fun d _ =>
                     d.hashesIn h.src.toNat job.toNat step.toNat round.toNat
                       (pairs.map fun p => (p.1.toNat * 8 + p.2.1.val, p.2.2.1.toNat, p.2.2.2.toNat)) }

def execSteprep (h : FabHdr) (job : BitVec 32) (step : BitVec 40) (round status : Byte) (covered : Word) (seeds : List (BitVec 16 × Fin 8))
    (whole : Bool) (s : State) : Host.Outcome State Fault Refusal :=
  .next { s with dev := s.dev.jobMsg h job.toNat fun d _ =>
                     d.stepRep h.src.toNat job.toNat step.toNat round.toNat status.toNat covered.toNat (accsOf seeds) whole }

def execStepdecCommit (h : FabHdr) (job : BitVec 32) (step : BitVec 40) (s : State) : Host.Outcome State Fault Refusal :=
  .next { s with dev := s.dev.jobMsg h job.toNat fun d _ => d.decCommit job.toNat step.toNat }

def execStepdecReplay (h : FabHdr) (job : BitVec 32) (step : BitVec 40) (round : Byte) (seeds : List (BitVec 16 × Fin 8)) (whole : Bool)
    (s : State) : Host.Outcome State Fault Refusal :=
  .next { s with dev := s.dev.jobMsg h job.toNat fun d _ => d.decReplay job.toNat step.toNat round.toNat (accsOf seeds) whole }

def execStepdecAbandon (h : FabHdr) (job : BitVec 32) (step : BitVec 40) (seeds : List (BitVec 16 × Fin 8)) (whole : Bool) (s : State) :
    Host.Outcome State Fault Refusal :=
  .next { s with dev := s.dev.jobMsg h job.toNat fun d _ => d.decAbandon job.toNat step.toNat (accsOf seeds) whole }

/-! ### Cuts and seals (R239 to R245, R252) -/

def execCutreq (h : FabHdr) (job : BitVec 32) (step : BitVec 40) (copy : Bool) (gen : BitVec 32) (s : State) : Host.Outcome State Fault Refusal :=
  .next { s with dev := s.dev.onceMsg h job.toNat 0x40 step.toNat fun d _ => d.cutBegin job.toNat step.toNat gen.toNat copy }

def execCutWait (job : BitVec 32) (s : State) : Host.Outcome State Fault Refusal :=
  .next { s with dev := (s.dev.cutWait job.toNat).settle }

/-- CUTREP of a child (R241, R245); the first of a child stands. -/
def Dev.cutRep (d : Dev) (job src step code gen count : Nat) : Dev :=
  match d.cutOf job with
  | none => d
  | some (_, c) =>
    if c.step ≠ step ∨ c.gen ≠ gen ∨ (Tab.find src c.reps).isSome then d
    else (d.onCut job fun c => { c with reps := Tab.insert src (code, count) c.reps }).cutCheck job

def execCutrep (h : FabHdr) (job : BitVec 32) (step : BitVec 40) (code : Byte) (gen count : BitVec 32) (s : State) :
    Host.Outcome State Fault Refusal :=
  .next { s with dev := s.dev.onceMsg h job.toNat 0x41 step.toNat fun d _ => d.cutRep job.toNat h.src.toNat step.toNat code.toNat gen.toNat count.toNat }

/-- An extent report at the seal leader (R244; log entry 27): with the home's table units, or that it failed. -/
def execExtentComplete (h : FabHdr) (job gen : BitVec 32) (failed : Bool) (tables : List Byte) (s : State) : Host.Outcome State Fault Refusal :=
  .next { s with dev := s.dev.jobMsg h job.toNat fun d _ => d.extentIn job.toNat gen.toNat h.src.toNat failed (tables.map BitVec.toNat) }

def execGenrep (h : FabHdr) (job : BitVec 32) (step : BitVec 40) (code : Byte) (gen : BitVec 32) (s : State) : Host.Outcome State Fault Refusal :=
  .next { s with dev := s.dev.onceMsg h job.toNat 0x42 step.toNat fun d _ => d.genRep job.toNat step.toNat gen.toNat code.toNat (h.src.toNat / 32) }

/-- GENCOMMIT at a controller (R245): a leader outside the step tree, which sees no commit, starts the drill that waited for the generation at once
(R336; log entry 54). -/
def Dev.genSeen (d : Dev) (job step gen : Nat) : Dev :=
  let d := d.genCommit job step gen
  match d.jobOf job with
  | some j => if j.gate = 0 then d.drillCommit job step else d
  | none => d

def execGencommit (h : FabHdr) (job : BitVec 32) (step : BitVec 40) (gen : BitVec 32) (s : State) : Host.Outcome State Fault Refusal :=
  .next { s with dev := s.dev.onceMsg h job.toNat 0x43 step.toNat fun d _ => d.genSeen job.toNat step.toNat gen.toNat }

def execGencommitDiscard (h : FabHdr) (job : BitVec 32) (step : BitVec 40) (gen : BitVec 32) (s : State) : Host.Outcome State Fault Refusal :=
  .next { s with dev := s.dev.onceMsg h job.toNat 0x43 step.toNat fun d _ => d.genAbort job.toNat step.toNat gen.toNat }

/-! ### Stripes and mirrors (R243, R249, R250, R256) -/

/-- STRIPE (R243, R256; log entry 30): during a restore a unit for this controller's records, or one that survives of a row it
rebuilds; else a unit to store. -/
def Dev.stripeIn (d : Dev) (j : JobSt) (src gen slot role k row : Nat) (bs : List Nat) : Dev :=
  let job := j.desc.job
  if role = 3 then (d.restUnit job (src / 32) row k bs).restCheck job
  else if j.rest.active ∧ ((j.genOf d.rack j.rest.step).map fun e => e.2.gen) = some gen then
    (d.restSurvivor job row (unitSlot row role k) bs).restCheck job
  else d.stripeStore src job gen slot role k row bs

def execStripe (h : FabHdr) (job gen : BitVec 32) (slot : Fin 2) (role : Fin 4) (k : Fin 32) (row : Word) (data : List Byte) (s : State) :
    Host.Outcome State Fault Refusal :=
  .next { s with dev := (s.dev.ingress h fun (d : Dev) => match d.jobOf job.toNat with
    | some j => d.stripeIn j h.src.toNat gen.toNat slot role k row.toNat (data.map BitVec.toNat)
    | none => d.stripeStore h.src.toNat job.toNat gen.toNat slot role k row.toNat (data.map BitVec.toNat)).settle }

/-- STRIPEACK (R243, R257; log entry 30): during a restore a refusal says that the sender's unit of the row is lost. -/
def Dev.stripeAck (d : Dev) (j : JobSt) (src gen role k row result : Nat) : Dev :=
  let job := j.desc.job
  if j.rest.active ∧ result ≠ 0 then (d.unitLost job row (src % 32)).restCheck job else d.stripeAckIn job gen role k row result

def execStripeack (h : FabHdr) (job gen : BitVec 32) (_slot : Fin 2) (role : Fin 4) (k : Fin 32) (row : Word) (result : Byte) (s : State) :
    Host.Outcome State Fault Refusal :=
  .next { s with dev := s.dev.jobMsg h job.toNat fun d j => d.stripeAck j h.src.toNat gen.toNat role k row.toNat result.toNat }

/-- MIRROR (R249, R256): a version of its sender to store; a version of another source is a pin for a restore (log entry 30). -/
def Dev.mirrorMsg (d : Dev) (from_ : Nat) (v : Version) : Dev :=
  if v.src = from_ then (d.stepSeen v.job v.step).mirrorIn v
  else match d.jobOf v.job with
    | some j => if j.rest.active ∧ j.rest.step = v.step then (d.onRest v.job fun r => { r with pins := r.pins ++ [v] }).restCheck v.job else d
    | none => d

def execMirror (h : FabHdr) (job : BitVec 32) (step : BitVec 40) (acc : Fin 8) (source : BitVec 16) (nFlow : BitVec 24) (itemBytes : BitVec 32)
    (words : List Word) (s : State) : Host.Outcome State Fault Refusal :=
  .next { s with dev := (s.dev.ingress h fun (d : Dev) =>
    d.mirrorMsg h.src.toNat ⟨source.toNat, acc, job.toNat, step.toNat, nFlow.toNat, itemBytes.toNat, words.map BitVec.toNat⟩).settle }

def execMirrorAck (h : FabHdr) (job : BitVec 32) (step : BitVec 40) (acc : Fin 8) (s : State) : Host.Outcome State Fault Refusal :=
  .next { s with dev := s.dev.ingress h fun (d : Dev) => d.mirrorAck job.toNat step.toNat acc }

def execMirrorLost (job : BitVec 32) (step : BitVec 40) (acc : Fin 8) (s : State) : Host.Outcome State Fault Refusal :=
  .next { s with dev := s.dev.mirrorLost job.toNat step.toNat acc }

def execPin (h : FabHdr) (job : BitVec 32) (step : BitVec 40) (slot : Fin 2) (s : State) : Host.Outcome State Fault Refusal :=
  .next { s with dev := s.dev.ingress h fun (d : Dev) => (d.stepSeen job.toNat step.toNat).pinIn job.toNat step.toNat slot h.src.toNat }

def execPinAck (h : FabHdr) (job : BitVec 32) (step : BitVec 40) (slot : Fin 2) (s : State) : Host.Outcome State Fault Refusal :=
  .next { s with dev := (s.dev.ingress h fun (d : Dev) => d.pinAck job.toNat step.toNat slot).settle }

/-! ### Restore (R255 to R257) -/

/-- RESTREQ (R256); one for the restore that runs is a duplicate. bad: rows whose own unit fails its ECC when it is read (R257). -/
def Dev.restReq (d : Dev) (j : JobSt) (step : Nat) (bad : List Nat) : Dev :=
  if j.rest.active ∧ j.rest.step = step then d else d.restBegin j.desc.job step bad

def execRestreq (h : FabHdr) (job : BitVec 32) (step : BitVec 40) (bad : List Word) (s : State) : Host.Outcome State Fault Refusal :=
  .next { s with dev := s.dev.onceMsg h job.toNat 0x44 step.toNat fun d j => d.restReq j step.toNat (bad.map BitVec.toNat) }

def execRestdone (h : FabHdr) (job : BitVec 32) (step : BitVec 40) (code : Byte) (count : BitVec 32) (s : State) : Host.Outcome State Fault Refusal :=
  .next { s with dev := s.dev.onceMsg h job.toNat 0x45 step.toNat fun d _ => d.restDone job.toNat step.toNat h.src.toNat code.toNat count.toNat }

def execRestcommit (h : FabHdr) (job : BitVec 32) (step : BitVec 40) (s : State) : Host.Outcome State Fault Refusal :=
  .next { s with dev := s.dev.onceMsg h job.toNat 0x46 step.toNat fun d _ => d.restEnd job.toNat step.toNat }

/-! ### Windows that latch a record when their first word is read (R226, R230, R259, R373) -/

/-- Eight words are latched at consecutive registers, and the first is read. -/
def Dev.latchWords (d : Dev) (addr : Nat) (ws : List Nat) : Dev :=
  let d := (ws.zipIdx).foldl (fun (d : Dev) e => { d with latched := Tab.set d.latched (addr + 8 * e.2) 0 (e.1 % 2 ^ 64) }) d
  { d with rdata := ws.headD 0 % 2 ^ 64 }

/-- Eight words, zeros where there are fewer. -/
def eight (ws : List Nat) : List Nat := (List.range 8).map (wd ws)

/-- A read of AGR_VLOG_W0 (R226). -/
def Dev.vlogRead (d : Dev) : Dev :=
  d.latchWords Reg.AGR_VLOG_W0_w.addr (eight (Tab.getD d.vlog (d.get Reg.AGR_VLOG_CTRL_index) []))

def execVlogRead (s : State) : Host.Outcome State Fault Refusal := .next { s with dev := s.dev.vlogRead }

/-- The flow entry of a record in the latest version that the partner holds (R230, R249): words 3 to 7. -/
def Dev.heldEntry (d : Dev) (job n : Nat) : Option (List Nat) :=
  if d.partner.isNone then none
  else
    let entries := (d.mir.acked.filter fun v => v.job == job).flatMap fun v =>
      ((chunksOf 6 v.nFlow (v.words.drop (v.itemBytes / 8))).filter fun f => bits 40 24 (wd f 0) == n).map fun f => (v.step, f.drop 1)
    (entries.foldl (fun (best : Option (Nat × List Nat)) e =>
      match best with | some b => if b.1 ≤ e.1 then some e else best | none => some e) none).map (·.2)

/-- The step of a job is abandoned and the job restores (R220, R230): at the root at once; another controller abandons the step and tells the
root as of an index lost (log entry 54). -/
def Dev.abandonAll (d : Dev) (j : JobSt) : Dev :=
  if d.isRoot j then d.rootAbandon j.desc.job [] false
  else match (j.local d.chip).head? with
    | some e => (d.abandon j.desc.job).sendAdoptAck j e.1 3
    | none => d.abandon j.desc.job

/-- A record has an uncorrectable error (R230): it is reloaded from the flow entry that the partner holds, the rest from the job descriptor;
without one the step is abandoned, and the job restores. -/
def Dev.flowEcc (d : Dev) (n : Nat) : Dev :=
  let d := d.raise Src.FLOW_flow_ecc
  match d.jobOfRec n with
  | none => d
  | some j => match d.heldEntry j.desc.job n, j.recDesc n with
    | some f, some r => d.setFlow n (some ((d.freshRecord j r).take 3 ++ f))
    | _, _ => d.abandonAll j

/-- A read of FLOW_W0 (R230). ecc: the record has an uncorrectable error. -/
def Dev.flowRead (d : Dev) (ecc : Bool) : Dev :=
  let n := d.get Reg.FLOW_SEL_record
  let d := if ecc then d.flowEcc n else d
  d.latchWords Reg.FLOW_W0_w.addr (eight (d.flowRec n))

def execFlowRead (s : State) (ecc : Bool := false) : Host.Outcome State Fault Refusal := .next { s with dev := s.dev.flowRead ecc }

/-- The commit record of the slot shown (R259); zeros without one. -/
def Dev.crecShown (d : Dev) : List Nat :=
  match d.jobOf (d.get Reg.STP_JOB_SEL_job) with
  | some j => (j.slot d.rack (d.get Reg.STP_JOB_SEL_slot)).crec
  | none => []

/-- A read of STP_CREC_W0 (R259). -/
def Dev.crecRead (d : Dev) : Dev := d.latchWords Reg.STP_CREC_W0_w.addr (eight d.crecShown)

def execCrecRead (s : State) : Host.Outcome State Fault Refusal := .next { s with dev := s.dev.crecRead }

/-- A drain report (R373): both words are latched. -/
def Dev.drainRead (d : Dev) : Dev :=
  let r := Tab.getD d.drainLog (d.get Reg.FLT_DRAIN_IDX_index) (0, 0)
  d.latchWords Reg.FLT_DRAIN_W0_page.addr [r.1, r.2]

def execDrainReportRead (s : State) : Host.Outcome State Fault Refusal := .next { s with dev := s.dev.drainRead }

/-! ### Forwarding (R284 to R287) -/

/-- The lowest slot that relays between two slots of the rack, by the lanes they report (R284, R286). -/
def Dev.relayFor (d : Dev) (src dst : Nat) : Option Nat :=
  let up (a b : Nat) : Bool :=
    if a = d.pwr.traySlot then d.linksTo b != [] else if b = d.pwr.traySlot then d.linksTo a != [] else (d.reported a b).isSome
  (List.range 18).find? fun v => v != src && v != dst && up src v && up v dst

/-- The slots of this rack from which a broadcast spreads (R285): its source, or the slots where messages of the source's rack arrive, over a
relay rack where it has no lane to this one. -/
def Dev.spreads (d : Dev) (src : Nat) : List Nat :=
  if src / 32 = d.chip / 32 then [src % 32]
  else match d.exits (src / 32) with
    | [] => match d.relayRack (src / 32) (d.chip / 32) with
      | some r => (d.exits r).map (·.1)
      | none => []
    | es => es.map (·.1)

/-- The slots that this slot relays a broadcast to (R284, R285): those that no slot from which it spreads reaches directly, and to which this
one relays from the first of them. -/
def Dev.relayedSlots (d : Dev) (src : Nat) : List Nat :=
  let from_ := d.spreads src
  (List.range 18).filter fun t =>
    !from_.contains t && t != d.pwr.traySlot && (from_.all fun s => (d.reported s t).isNone) &&
      (match from_ with | s :: _ => d.relayFor s t == some d.pwr.traySlot | [] => false)

/-- The ports on which a message from another controller goes on (R284, R285): a broadcast to members that it reaches directly from no slot and
this slot relays to; a pod broadcast of the rack on every global lane, one that a global lane brings to the rack; a message from another
rack never to a third. -/
def Dev.forwardPorts (d : Dev) (src dst vc : Nat) (global indirect : Bool) : List Nat :=
  let own := src / 32 == d.chip / 32
  let relayed := (d.relayedSlots src).filterMap fun t => d.linkTo t vc
  if dst = podBroadcast then (if global then d.rackPorts vc else if own then xPorts.filter d.portUp ++ relayed else relayed)
  else if dst / 32 = d.chip / 32 then
    if dst % 32 = 31 then (if global then d.rackPorts vc else relayed)
    else if dst % 32 = d.pwr.traySlot then []
    else if indirect then (d.linkTo (dst % 32) vc).toList
    else (d.routeSlot (dst % 32) vc).toList
  else if own then (d.routeRack (dst / 32) src dst vc).toList
  else if d.exits (dst / 32) = [] then []
  else (d.routeRack (dst / 32) src dst vc).toList

/-- A message for another controller (R284 to R286): its header and body go on unchanged, one hop level up (R280); what no route
reaches is undeliverable. -/
def Dev.forward (d : Dev) (h : FabHdr) (dst kind level : Nat) (global indirect : Bool) (body : List Nat) : Dev :=
  if d.silent then d
  else
    let src := h.src.toNat
    let n := flitsOf kind body
    let vc := vcOf kind body
    let words := fabWords dst src kind h.epoch.toNat body
    (d.forwardPorts src dst vc global indirect).foldl (fun (d : Dev) i =>
      let d := (d.emit (.link i kind words)).transmit i vc (min 7 (level + 1)) words
      if indirect then d.addU (Cnt.PORT_CNT_INDIRECT i) n else d) d

/-- indirect: a STRIPE on the indirect path. -/
def execForward (h : FabHdr) (dst : BitVec 16) (kind : Byte) (hop : Hop) (indirect : Bool) (body : List Word) (s : State) :
    Host.Outcome State Fault Refusal :=
  .next { s with dev := s.dev.forward h dst.toNat kind.toNat hop.level.toNat hop.global (indirect && kind == 0x50) (body.map BitVec.toNat) }

end Sys2Proof.Machine
end

