-- ==== Sys2Proof/Machine/Uplink.lean ====
section
/-! DEFINITION. What the agents send, at the controller (R168, R169, R175, R193, R203, R215, R241, R333): acceptance in order, marks,
tiles, cut traffic, faults and declarations. -/

namespace Sys2Proof.Machine

/-- An up message of so many body bytes (R168): the next in order is taken and acknowledged, one already taken acknowledged again. -/
def Dev.receiveUp (d : Dev) (a : Nat) (h : PortHdr) (bytes : Nat) (f : Dev → Dev) : Dev :=
  let p := d.aport a
  let seq := h.seq.toNat
  let st := d.get (Reg.AGP_STATUS_port a)
  if st ≠ 3 ∧ st ≠ 4 then d
  else
    let d := d.addU (Cnt.AGP_CNT_AGP_UP a) (16 + bytes)
    let ack (d : Dev) : Dev := if d.silent then d else d.ackToAgent a seq
    if seq = p.upNext then f (ack (d.setAport a { p with upNext := (seq + 1) % 2 ^ 24 }))
    else if (p.upNext + 2 ^ 24 - seq) % 2 ^ 24 < 2 ^ 23 then ack d
    else d

/-- The job of an accelerator, when it is the one that the header names (R168). -/
def Dev.forJob (d : Dev) (a : Nat) (h : PortHdr) (f : JobSt → Dev) : Dev :=
  match d.jobOfAcc a with
  | some j => if j.desc.job = h.job.toNat then f j else d
  | none => d

/-- MARK (R175, R193, R215). -/
def Dev.markMsg (d : Dev) (a : Nat) (h : PortHdr) (ws : List Nat) : Dev :=
  d.receiveUp a h (8 * ws.length) fun (d : Dev) =>
    let step := bits 24 40 (wd ws 0)
    let exec_ := bits 16 8 (wd ws 0)
    let d := ((d.put (Reg.AGP_MARK_step a) step).put (Reg.AGP_MARK_exec a) exec_).incU (Cnt.AGP_CNT_AGP_MARKS a)
    d.forJob a h fun j =>
      (d.markIn j.desc.job a (markOf step exec_ (timeOfStamp (wd ws 1)) (bits 32 32 (wd ws 2)) (ws.drop 3))).lateReports j.desc.job

def execMark (a : Fin 8) (h : PortHdr) (body : List Word) (s : State) : Host.Outcome State Fault Refusal :=
  .next { s with dev := (s.dev.markMsg a h (body.map BitVec.toNat)).settle }

/-- TILE (R203, R204). -/
def Dev.tileMsg (d : Dev) (a : Nat) (h : PortHdr) (ws : List Nat) : Dev :=
  d.receiveUp a h (8 * ws.length) fun (d : Dev) => d.forJob a h fun _ => d.tileIn a ws

def execTile (a : Fin 8) (h : PortHdr) (body : List Word) (s : State) : Host.Outcome State Fault Refusal :=
  .next { s with dev := (s.dev.tileMsg a h (body.map BitVec.toNat)).settle }

/-- OPND (R199, R203). -/
def Dev.opndMsg (d : Dev) (a : Nat) (h : PortHdr) (id : Nat) (bs : List Nat) : Dev :=
  d.receiveUp a h (16 + (bs.length + 7) / 8 * 8) fun (d : Dev) => d.forJob a h fun _ => d.opndIn a id bs

def execOpnd (a : Fin 8) (h : PortHdr) (id : BitVec 128) (block : List Byte) (s : State) : Host.Outcome State Fault Refusal :=
  .next { s with dev := (s.dev.opndMsg a h id.toNat (block.map BitVec.toNat)).settle }

/-- CUTACK (R182, R241). -/
def Dev.cutAckMsg (d : Dev) (a : Nat) (h : PortHdr) (id status : Nat) : Dev :=
  d.receiveUp a h 8 fun (d : Dev) => d.forJob a h fun j => d.cutAckIn j.desc.job a id status

def execCutack (a : Fin 8) (h : PortHdr) (id : BitVec 32) (status : Byte) (s : State) : Host.Outcome State Fault Refusal :=
  .next { s with dev := (s.dev.cutAckMsg a h id.toNat status.toNat).settle }

/-- DIGEST (R183, R242); none when the agent has no entry for the record. -/
def Dev.digestMsg (d : Dev) (a : Nat) (h : PortHdr) (n : Nat) (digest : Option Nat) : Dev :=
  d.receiveUp a h (if digest.isSome then 16 else 8) fun (d : Dev) => d.forJob a h fun j => d.digestIn j.desc.job a n digest

def execDigest (a : Fin 8) (h : PortHdr) (record : BitVec 24) (digest : Option Word) (s : State) : Host.Outcome State Fault Refusal :=
  .next { s with dev := (s.dev.digestMsg a h record.toNat (digest.map BitVec.toNat)).settle }

/-- SHARD from an agent (R183, R241, R333): an exchange record goes on to the controllers that stand in, other records into the cut. -/
def Dev.shardMsg (d : Dev) (a : Nat) (h : PortHdr) (n off : Nat) (bs : List Nat) : Dev :=
  d.receiveUp a h (16 + (bs.length + 7) / 8 * 8) fun (d : Dev) => d.forJob a h fun j =>
    if j.isExchange n then d.relayOut j.desc.job n off none bs (d.standChips j) else d.cutShard j.desc.job a n off bs

def execShardUp (a : Fin 8) (h : PortHdr) (record : BitVec 24) (off : BitVec 38) (data : List Byte) (s : State) :
    Host.Outcome State Fault Refusal :=
  .next { s with dev := (s.dev.shardMsg a h record.toNat off.toNat (data.map BitVec.toNat)).settle }

/-- FAULT (R169, R193, R315): agent_fault; an engine_hang or agent_ecc that the last FAULT did not show adds its points (log entry 35). -/
def Dev.faultMsg (d : Dev) (a : Nat) (h : PortHdr) (status time : Nat) : Dev :=
  d.receiveUp a h 24 fun (d : Dev) =>
    let p := d.aport a
    let old := if p.fault.2 = time then p.fault.1 else 0
    let new (i : Nat) : Bool := bitAt i status && !bitAt i old
    let d := (d.setAport a { p with fault := (status, time) }).raise (Src.AGP_agent_fault a)
    let d := if new 3 then d.points a 4 1500 else d
    if new 6 then d.points a 5 500 else d

def execFault (a : Fin 8) (h : PortHdr) (status _first time : Word) (s : State) : Host.Outcome State Fault Refusal :=
  .next { s with dev := (s.dev.faultMsg a h status.toNat time.toNat).settle }

/-- DECL (R129, R132, R192): kept until a job is admitted, which installs it; a declaration that is refused is reported at once. -/
def Dev.declMsg (d : Dev) (a : Nat) (h : PortHdr) (ws : List Nat) : Dev :=
  d.receiveUp a h (8 * ws.length) fun (d : Dev) =>
    ((d.setAport a { d.aport a with decl := ws }).put (Reg.AGP_STATUS_decl a) 1).checkDecls a

def execDecl (a : Fin 8) (h : PortHdr) (body : List Word) (s : State) : Host.Outcome State Fault Refusal :=
  .next { s with dev := (s.dev.declMsg a h (body.map BitVec.toNat)).settle }

/-- XRDY (R333). -/
def Dev.xrdyMsg (d : Dev) (a : Nat) (h : PortHdr) (n : Nat) : Dev :=
  d.receiveUp a h 8 fun (d : Dev) => d.forJob a h fun _ => d.exchangeReady a n

def execXrdy (a : Fin 8) (h : PortHdr) (record : BitVec 24) (s : State) : Host.Outcome State Fault Refusal :=
  .next { s with dev := (s.dev.xrdyMsg a h record.toNat).settle }

/-- A down message is acknowledged (R168): what waited for it goes on: a REPLAY (R215), a restored shard (R256), a handed-over one
(R334). -/
def Dev.ackDown (d : Dev) (a seq : Nat) : Dev :=
  let p := d.aport a
  if !(p.down.any fun m => m.seq == seq) then d
  else
    let d := d.setAport a { p with down := p.down.filter fun m => m.seq != seq }
    let d := ((d.shardAcked a seq).replayAcked a seq).takeAcked a seq
    match d.jobOfAcc a with
    | some j => d.lateReports j.desc.job
    | none => d

/-- ACK at either end (R168, R193), counted by the controller. An agent drops one of a lower epoch and counts it, and while it is fenced
takes none (R170). -/
def Dev.ackMsg (d : Dev) (e : PortEnd) (a : Nat) (h : PortHdr) (seq : Nat) : Dev :=
  match e with
  | .controller =>
    let st := d.get (Reg.AGP_STATUS_port a)
    if st ≠ 3 ∧ st ≠ 4 then d else (d.addU (Cnt.AGP_CNT_AGP_UP a) (portBytes [seq])).ackDown a seq
  | .agent =>
    let st := d.get (Reg.AGT_STATUS_port a)
    if st ≠ 3 ∧ st ≠ 4 then d
    else if newer (d.get (Reg.AGT_STATUS_epoch a)) h.epoch.toNat then d.staleMsg a
    else if st = 4 then d
    else (d.put (Reg.AGT_STATUS_epoch a) h.epoch.toNat).ackUp a seq

def execAck (e : PortEnd) (a : Fin 8) (m : AckMsg) (s : State) : Host.Outcome State Fault Refusal :=
  .next { s with dev := (s.dev.ackMsg e a m.hdr m.seq.toNat).settle }

/-- No MARK arrives by the verdict deadline of the step (R193). -/
def Dev.markMissing (d : Dev) (a : Nat) : Dev :=
  match (d.jobOfAcc a).bind fun j => j.accOf a with
  | some x => if x.mark.isNone && !x.standIn then d.raise (Src.AGP_mark_missing a) else d
  | none => d

def execMarkMissing (a : Fin 8) (s : State) : Host.Outcome State Fault Refusal := .next { s with dev := s.dev.markMissing a }

def execVerdictOverdue (a : Fin 8) (s : State) : Host.Outcome State Fault Refusal := .next { s with dev := s.dev.verdictOverdue a }

end Sys2Proof.Machine
end

