-- ==== Sys2Proof/Machine/Read.lean ====
section
/-! DEFINITION. What a read of a register returns (R20 to R37): the page header, the fault block, the counters, and the fields and
windows of every block; the reads that latch; and the host's 4-byte reads (R35). -/

namespace Sys2Proof.Machine

/-- The threads that issue a descriptor of some kinds on a cluster. -/
def Dev.issuingKinds (d : Dev) (cl : Nat) (kinds : List Nat) : List Nat :=
  d.threadsWith fun k t => k / 256 == cl && t.state == .issuing && kinds.contains (descKind (t.desc t.idx))

/-- The block holds accepted work (R27, R382). Which blocks ever hold accepted work is the model's choice (log entry 45). -/
def Dev.pageBusy (d : Dev) (pg : Nat) : Bool :=
  let i := pageInstance pg
  match pageBlock pg with
  | some .clu => d.threadsWith (fun k t => k / 256 == i && t.state != .idle) != []
  | some .vec => d.issuingKinds i [2] != []
  | some .red => d.issuingKinds i [3, 5] != []
  | some .port => (d.port i).queue != []
  | some .agp => (d.aport i).down != []
  | some .mgmt => d.flag Reg.MGMT_RA_STATUS_busy
  | some .fwl => d.flag Reg.FWL_STATUS_busy
  | _ => false

/-! ### The header, the fault block and the counters (R23 to R30) -/

/-- The page's own number in its register space. -/
def ownNumber (pg : Nat) : Nat := if pg < 0x1000 then pg else if pg < 0x9000 then pg % 0x1000 else pg % 16

/-- The sources that a page implements (R25, R443). -/
def Dev.sources (d : Dev) (pg : Nat) (b : Block) : Nat :=
  if b = .aflt then 8 + Nat.min 24 (d.get (Reg.AGT_INFO_n_accflt (pg / 0x1000 - 1))) else nFlt b

/-- PAGE_ID and PAGE_CAP (R24, R25, R436, R443, R444). -/
def Dev.headerWord (d : Dev) (pg : Nat) (b : Block) (off : Nat) : Nat :=
  let inst := pageInstance pg
  if off = 0 then
    pack [(48, 16, blockType b inst), (40, 8, if 0x1000 ≤ pg ∧ pg < 0x9000 then 3 else 1), (32, 8, inst), (0, 12, ownNumber pg)]
  else
    let lanes := if b = .port then (portLanes inst).length else 0
    pack [(32, 32, lanes), (24, 3, resetDomain b), (17, 1, b2n (resetDomain b != 0)), (16, 1, b2n (drainCap b)),
      (8, 6, d.sources pg b), (0, 4, nCnt b)]

/-- Any error counter of the page has its sat bit set (R27). -/
def Dev.satAny (d : Dev) (pg : Nat) (b : Block) : Bool :=
  (List.range (nCnt b)).any fun k =>
    (errorSlots b).contains k && bitAt 63 (d.get ⟨pg * 0x1000 + 0x88 + 8 * k, 0, 64, 0⟩)

/-- PAGE_STATUS (R27, R378). -/
def Dev.statusWord (d : Dev) (pg : Nat) (b : Block) : Nat :=
  let out := d.pageOut pg
  pack [(7, 1, b2n (d.satAny pg b)), (6, 1, b2n (d.get (Reg.FLT_STATUS_status pg) != 0)), (5, 1, b2n (d.pageInReset pg)),
    (4, 1, d.get (Reg.PAGE_STATUS_forced pg)), (3, 1, b2n (out || !d.pageBusy pg)), (2, 1, d.get (Reg.PAGE_STATUS_draining pg)),
    (0, 1, if out then 0 else d.get (Reg.PAGE_STATUS_enabled pg))]

/-- The fields of a register as its row list gives them. -/
def Dev.fieldsWord (d : Dev) (addr off : Nat) (rows : List Row) : Nat :=
  pack ((rows.filter fun r => r.off == off).map fun r => (r.lo, r.w, d.get ⟨addr, r.lo, r.w, r.rst⟩))

/-- The common part of a page, below offset 0x100 (R22, R29). Virtual function pages have no fault sources (R444). While hold
is 1 and no snapshot has been taken a counter slot reads 0 (log entry 54). -/
def Dev.commonWord (d : Dev) (pg : Nat) (b : Block) (off : Nat) : Nat :=
  match off with
  | 0x00 => d.headerWord pg b 0
  | 0x08 => d.headerWord pg b 8
  | 0x10 => pack [(32, 16, d.get (Reg.PAGE_CTRL_drain_limit pg)), (1, 1, d.get (Reg.PAGE_CTRL_drain pg)),
      (0, 1, d.get (Reg.PAGE_CTRL_enable pg))]
  | 0x18 => d.statusWord pg b
  | 0x40 => d.get (Reg.FLT_STATUS_status pg)
  | 0x48 => pack [(63, 1, d.get (Reg.FLT_FIRST_valid pg)), (Reg.FLT_FIRST_react pg |>.lo, 2, d.get (Reg.FLT_FIRST_react pg)),
      (Reg.FLT_FIRST_forced pg |>.lo, 1, d.get (Reg.FLT_FIRST_forced pg)), (0, 5, d.get (Reg.FLT_FIRST_source pg))]
  | 0x50 => d.get (Reg.FLT_OVF_ovf pg)
  | 0x58 => d.get (Reg.FLT_ENABLE_enable pg)
  | 0x68 => d.get (Reg.FLT_REACT_react pg)
  | 0x70 => d.get (Reg.FLT_TIME_time pg)
  | 0x80 => if d.pageInReset pg && !keepsThroughReset pg then 0
      else pack [(32, 30, d.get (Reg.CNT_LATCH_snap_ns pg)), (2, 1, d.get (Reg.CNT_LATCH_valid pg)),
        (1, 1, d.get (Reg.CNT_LATCH_hold pg))]
  | _ =>
    if 0x88 ≤ off ∧ off < 0x100 then
      let k := (off - 0x88) / 8
      if d.pageInReset pg && !keepsThroughReset pg then 0
      else if nCnt b ≤ k then 0
      else if d.flag (Reg.CNT_LATCH_hold pg) then (Tab.getD d.snaps pg []).getD k 0
      else d.get ⟨pg * 0x1000 + off, 0, 64, 0⟩
    else 0

/-! ### Windows of the DEV page (R95, R130, R289, R398, R431) -/

/-- The code of a context's state (R97). -/
def CtxState.code : CtxState → Nat
  | .free => 0 | .created => 1 | .enabled => 2 | .draining => 3 | .error => 4 | .fenced => 5

/-- A register of a context's window (R95, R399). -/
def Ctx.window (x : Ctx) (off : Nat) : Nat :=
  match off with
  | 0x208 => pack [(62, 2, if x.state = .free then 0 else x.cls), (48, 8, x.threads), (40, 7, x.local_), (32, 6, x.vf), (0, 32, x.mask)]
  | 0x210 => pack [(12, 35, x.ringBase), (0, 4, x.log2n)]
  | 0x218 => pack [(53, 11, x.vector), (12, 35, x.cmplBase)]
  | 0x220 => pack [(40, 24, x.hostPages), (16, 24, x.lpdPages), (0, 16, x.sramPages)]
  | 0x228 => pack [(21, 43, x.hostBase), (0, 21, x.winPages)]
  | 0x230 => b2n x.enable
  | 0x238 => pack [(32, 16, x.taken % 65536), (16, 8, x.error), (8, 8, x.gen), (0, 3, x.state.code)]
  | 0x248 => pack [(8, 8, x.sel1), (0, 8, x.sel0)]
  | _ => 0

/-- Totals of the ports (R289). -/
def Dev.fabStatus (d : Dev) : Nat :=
  let ports := List.range 40
  pack [(56, 8, d.missingLinks gPorts), (48, 8, d.missingLinks xPorts),
    (40, 8, (ports.filter fun i => d.get (Reg.PORT_STATUS_state i) == 4).length),
    (32, 8, (ports.filter fun i => d.get (Reg.PORT_STATUS_reason i) == 9).length)]

/-- DEV_PROF_STATUS of the entry shown (R130): builtin 0, none 3. -/
def Dev.profStatus (d : Dev) : Nat :=
  let e := d.get Reg.DEV_PROF_SEL_entry
  let source := if e < 16 then 0 else ((Tab.find e d.comp.profiles).map ProfEnt.source).getD 3
  pack [(8, 8, d.get Reg.DEV_PROF_STATUS_result), (0, 2, source)]

/-- The progress instance shown belongs to the job's root here (R434). -/
def Dev.progRoot (d : Dev) (job : Nat) : Bool := match d.jobOf job with | some j => d.isRoot j | none => false

/-- The DEV page beyond its plain fields. -/
def Dev.devWord (d : Dev) (off : Nat) : Option Nat :=
  if (0x208 ≤ off ∧ off ≤ 0x238) ∨ off = 0x248 then some ((d.ctx (d.get Reg.DEV_CTX_SEL_ctx)).window off)
  else if (0x508 ≤ off ∧ off ≤ 0x540) ∨ (0x598 ≤ off ∧ off ≤ 0x5C8) then some (Tab.getD d.latched off 0)
  else match off with
  | 0x308 => some (d.profWords (d.get Reg.DEV_PROF_SEL_entry)).1
  | 0x310 => some (d.profWords (d.get Reg.DEV_PROF_SEL_entry)).2
  | 0x318 => some d.profStatus
  | 0x410 => some d.fabStatus
  | 0x580 =>
    let i := d.get Reg.DEV_PROG_SEL_inst
    let p := Tab.find i d.progs
    some (pack [(63, 1, b2n ((p.map fun x => d.progRoot x.job).getD false)), (62, 1, b2n p.isSome), (0, 3, i)])
  | 0x588 =>
    match Tab.find (d.get Reg.DEV_PROG_SEL_inst) d.progs with
    | some x => some (pack [(32, 32, x.job), (0, 32, x.base)])
    | none => some 0
  | 0x590 => some ((d.progWords (d.get Reg.DEV_PROG_SEL_inst)).headD 0 % 2 ^ 64)
  | _ => none

/-! ### Other blocks -/

/-- The state code of a thread (R111). -/
def ThState.code : ThState → Nat
  | .idle => 0 | .ready => 1 | .issuing => 2 | .blocked => 3 | .preempted => 4

/-- CLU_THREAD_STATUS of the thread selected (R113). -/
def Dev.threadWord (d : Dev) (c : Nat) : Nat :=
  let t := d.thread (threadKey c (d.get (Reg.CLU_THREAD_SEL_thread c)))
  pack [(48, 8, t.gen), (32, 16, t.idx), (8, 10, t.ctx), (4, 2, t.cls), (0, 4, t.state.code)]

/-- SRM_OCCUPANCY (R124): class C holds its reserve. -/
def Dev.occupancy (d : Dev) (p : Nat) : Nat :=
  let n (cls : Nat) : Nat := ((d.sramPages.filter fun e => e.2.part == p && e.2.cls == cls)).length
  let a := n 1
  let g := n 2
  pack [(48, 11, d.sramCap p - a - g), (32, 11, g), (16, 11, a), (0, 11, d.get (Reg.SRM_RESERVE_c_sram_mib p) / 2)]

/-- VEC_FTQ_STATUS (R145): entries used by class, and free of 64. -/
def Dev.ftqWord (d : Dev) (c : Nat) : Nat :=
  let x (k : Nat) : Nat := d.ftqUsed c k
  pack [(24, 8, 64 - x 0 - x 1 - x 2), (16, 8, x 2), (8, 8, x 1), (0, 8, x 0)]

/-- The job entry of the accelerator that the AGR page shows. -/
def Dev.agrShown (d : Dev) : Option (JobSt × AccJob) :=
  let a := d.get Reg.AGR_ACC_SEL_acc
  (d.jobOfAcc a).bind fun j => (j.accOf a).map fun x => (j, x)

/-- The AGR page (R226). -/
def Dev.agrWord (d : Dev) (off : Nat) : Option Nat :=
  if off = 0x118 then
    let a := d.get Reg.AGR_ACC_SEL_acc
    match d.agrShown with
    | some (_, x) => some (pack [(40, 24, Nat.min x.debt (2 ^ 24 - 1)), (24, 13, x.thr), (11, 13, x.base),
        (1, 1, b2n (d.underWatch a)), (0, 1, 1)])
    | none => some (pack [(1, 1, b2n (d.underWatch a))])
  else if off = 0x120 then
    match d.agrShown with
    | some (j, _) => some (pack [(24, 40, j.step), (16, 8, j.round), (0, 3, j.gate)])
    | none => some 0
  else if 0x140 ≤ off ∧ off ≤ 0x178 then some (Tab.getD d.latched (0x070000 + off) 0)
  else none

/-- The state of a slot as it is shown (R259): 5 while a restore runs whose commit frees the generation. -/
def JobSt.slotState (j : JobSt) (g : GenSt) : Nat := if j.rest.active && decide (3 ≤ g.state) && decide (j.rest.step < g.step) then 5 else g.state

/-- A slot of the job that the STP page shows. -/
def Dev.slotWord (d : Dev) (s : Nat) : Nat :=
  match d.jobOf (d.get Reg.STP_JOB_SEL_job) with
  | some j => let g := j.slot d.rack s; pack [(24, 40, g.step), (8, 5, ones18 g.absent), (0, 3, j.slotState g)]
  | none => 0

/-- The STP page (R259). -/
def Dev.stpWord (d : Dev) (off : Nat) : Option Nat :=
  let j := d.jobOf (d.get Reg.STP_JOB_SEL_job)
  match off with
  | 0x108 => some (pack [(56, 8, d.get Reg.STP_REGION_base_gib), (0, 32, d.regionRows)])
  | 0x120 => some (d.slotWord 0)
  | 0x128 => some (d.slotWord 1)
  | 0x130 => some (match j with
    | some j => pack [(24, 40, j.nextCut), (8, 16, j.interval), (0, 3, (j.cut.map CutSt.state).getD 0)]
    | none => 0)
  | 0x138 => some (match j with
    | some j => pack [(24, 40, j.rest.step), (16, 8, j.restResult), (8, 8, Nat.min 255 j.tried)]
    | none => 0)
  | 0x180 => some (match j with | some j => j.risk % 2 ^ 32 | none => 0)
  | _ => if 0x140 ≤ off ∧ off ≤ 0x178 then some (Tab.getD d.latched (0x060000 + off) 0) else none

/-- The MBR page (R307, R316). -/
def Dev.mbrWord (d : Dev) (off : Nat) : Option Nat :=
  match off with
  | 0x118 =>
    let e := d.viewEnt (d.get Reg.MBR_VIEW_SEL_chip)
    let flaps := (e.expels.filter fun t => decide (secOf d.time < t + 600)).length
    some (pack [(32, 32, e.changed), (24, 8, e.accExp), (16, 8, Nat.min 255 flaps), (0, 3, e.state)])
  | 0x120 =>
    let b := d.budget
    some (pack [(48, 16, d.spareAcc.length), (32, 16, (d.mbr.pendingAcc.filter fun x => x / 8 / 32 == d.rack).length),
      (16, 16, (b % 65536).toNat), (8, 8, Nat.min 255 d.marginalDay), (0, 1, b2n (decide (b < 0)))])
  | 0x130 =>
    let v := d.get Reg.MBR_HR_SEL_dev
    let h := d.healthOf v
    let expelled := if v = 8 then [2, 4].contains (d.viewEnt d.chip).state else bitAt v (d.viewEnt d.chip).accExp
    let present := v = 8 || d.flag (Reg.AGP_STATUS_present v)
    let day := (h.events.filter fun t => decide (secOf d.time < t + 86400)).length
    some (pack [(32, 32, h.points / 65536), (24, 8, Nat.min 255 day), (16, 8, h.modes), (3, 1, b2n expelled),
      (2, 1, b2n h.candidate), (1, 1, b2n h.watch), (0, 1, b2n present)])
  | _ => none

/-- The SPARE page's tray (R320, R321, R338). -/
def Dev.trayWord (d : Dev) : Nat :=
  let c := d.rack * 32 + d.get Reg.SPARE_TRAY_SEL_slot
  pack [(16, 8, Tab.getD d.mbr.adopted c 0), (8, 8, (d.viewEnt c).accExp), (2, 1, b2n (d.mbr.due.contains c)), (0, 2, d.roleOf c)]

/-- The APPO page (R335). -/
def Dev.appoWord (d : Dev) (off : Nat) : Option Nat :=
  let x := d.standSt (d.get Reg.APPO_SEL_slot)
  match off with
  | 0x120 => some (pack [(32, 32, x.job), (16, 16, x.index), (6, 10, x.rate), (3, 3, x.reason), (0, 3, x.state)])
  | 0x128 => some (pack [(24, 40, x.step), (0, 3, x.acc)])
  | _ => none

/-- The next second at which a drill may start (R336); 0 while drills are off. -/
def Dev.nextDrill (d : Dev) : Nat :=
  let hours := d.get (acts Reg.DRILL_CTRL_period_h)
  if hours = 0 then 0
  else
    let period := hours * 3600
    let phase := d.get (acts Reg.DRILL_CTRL_offset_s) + d.rack * (period / 253)
    let now := secOf d.time
    if now < phase then phase else phase + ((now - phase) / period + 1) * period

/-- TIME_STATUS.epoch_missing: an epoch pulse was substituted within the last second (R345). -/
def Dev.pulseMissing (d : Dev) : Bool :=
  match d.clock.substituted with | some t => decide (d.nowUs < t + usPerSec) | none => false

/-- The TIME page (R341, R361). -/
def Dev.timeWord (d : Dev) (off : Nat) : Option Nat :=
  match off with
  | 0x100 => some (secOf d.time)
  | 0x108 => some (Tab.getD d.latched 0x020108 0)
  | 0x118 => some (pack [(48, 16, d.get Reg.TIME_STATUS_rack_off), (16, 32, d.get Reg.TIME_STATUS_pod_off),
      (9, 1, d.get Reg.TIME_STATUS_ref_missing), (8, 1, b2n d.pulseMissing), (0, 3, d.timeState)])
  | _ => none

/-- The TENSE page (R363). -/
def Dev.tenseWord (d : Dev) (off : Nat) : Option Nat :=
  let i := d.get Reg.TENSE_SEL_inst
  let x := Tab.find i d.tense
  match off with
  | 0x108 => some (match x with | some x => pack [(32, 32, x.job), (0, 1, 1)] | none => 0)
  | 0x110 => some (d.tensePos i)
  | 0x118 => some (match x with | some x => pack [(32, 32, Nat.min x.pred (2 ^ 32 - 1)), (0, 32, Nat.min x.sample (2 ^ 32 - 1))] | none => 0)
  | 0x120 => some (match x with | some x => stampOf x.anchor | none => 0)
  | _ => none

/-- The EVR page's windows (R402, R403, R408). -/
def Dev.evrWord (d : Dev) (off : Nat) : Option Nat :=
  if off = 0x118 then some (d.evrCfg (d.get Reg.EVR_CFG_SEL_code))
  else if off = 0x128 then some (let e := d.mapEntry (d.get Reg.EVR_MAP_SEL_src); pack [(15, 1, bits 15 1 e), (0, 12, e)])
  else if 0x800 ≤ off ∧ off < 0x900 then some (d.evrWindow (off - 0x800))
  else none

/-- The PRT page's state, with the counted resets within window_s (R392). -/
def Dev.prtWord (d : Dev) (p : Nat) : Nat :=
  let n := ((d.part p).counted.filter fun t => decide (secOf d.time < t + d.get (Reg.PRT_CTRL_window_s p))).length
  pack [(40, 8, Nat.min 255 n), (32, 8, d.get (Reg.PRT_STATUS_out_cause p)), (0, 3, d.partState p)]

/-- The DBG page's stop records (R412). -/
def Dev.dbgWord (d : Dev) (off : Nat) : Option Nat :=
  let r := Tab.find (d.get Reg.DBG_STOP_PSEL_part) d.stop.recs
  match off with
  | 0x128 => some (match r with | some r => pack [(63, 1, 1), (48, 5, r.1), (0, 48, r.2.1)] | none => 0)
  | 0x130 => some (match r with | some r => r.2.2 | none => 0)
  | _ => none

/-- The MON page's tables (R420, R421). -/
def Dev.monWord (d : Dev) (p off : Nat) : Option Nat :=
  let m := d.mon p
  match off with
  | 0x118 =>
    let i := d.get (Reg.MON_VF_SEL_pt p)
    some (match m.table[i]? with
      | some e => pack [(48, 16, 1200 + 100 * i), (32, 16, e.mv), (24, 8, byteOfInt (clampInt (-128) 127 e.slack)), (0, 1, b2n e.usable)]
      | none => 0)
  | 0x128 =>
    let i := d.get (Reg.MON_PDM_SEL_mon p)
    some (pack [(56, 8, byteOfInt (clampInt (-128) 127 (m.slacks.getD i 0))), (0, 1, b2n (bitAt i m.excluded))])
  | 0x138 => some (m.edges.getD (d.get (Reg.MON_RO_SEL_ro p)) 0 % 2 ^ 32)
  | _ => none

/-- The AGT page's time (R189). -/
def Dev.agtWord (d : Dev) (a off : Nat) : Option Nat :=
  if off = 0x118 then some (secOf (d.agentTime a))
  else if off = 0x120 then some (Tab.getD d.latched (0x1000000 * (a + 1) + 0x120) 0)
  else none

/-- The bytes of a table of words or bytes shown as registers. -/
def windowWord (bs : Nat → Byte) (off : Nat) : Nat := leNat ((List.range 8).map fun i => bs (off + i))

/-- The SEC page (R76, R77). -/
def Dev.secWord (d : Dev) (off : Nat) : Option Nat :=
  if off = 0x140 then some (Nat.min 2048 Config.certificateLen)
  else if 0x400 ≤ off ∧ off < 0x550 then some (windowWord (fun i => BitVec.ofNat 8 (d.boot.report.getD i 0)) (off - 0x400))
  else if 0x800 ≤ off then
    some (windowWord (fun i => if i < Config.certificateLen then Config.certificate i else 0) (off - 0x800))
  else none

/-- The context of a function's local index (R102). -/
def Dev.localCtx (d : Dev) (f i : Nat) : Option Nat :=
  (d.ctxsOfVf f).find? fun c => (d.ctx c).local_ == i

/-- A virtual function's pages (R102, R444). -/
def Dev.vfWord (d : Dev) (f addr off : Nat) (b : Block) : Nat :=
  match b with
  | .vfInfo => if off = 0x100 then pack [(0, 6, f), (8, 7, Nat.min 120 (d.ctxsOfVf f).length)] else 0
  | .vfCtx =>
    let sel : Fld := ⟨addr / 0x1000 * 0x1000 + 0x200, 0, 10, 0⟩
    if off = 0x200 then d.get sel
    else match d.localCtx f (d.get sel) with
      | some c => (d.ctx c).window off
      | none => Ctx.reset.window off
  | _ => 0

/-- A block-specific register that is more than stored fields; none where the fields say it all. -/
def Dev.special (d : Dev) (pg off : Nat) (b : Block) : Option Nat :=
  let i := pageInstance pg
  match b with
  | .dev => d.devWord off
  | .boot => if off = 0x110 then some (let e := d.elapsed; pack [(32, 32, e.1), (0, 32, e.2)]) else none
  | .sec => d.secWord off
  | .prt => if off = 0x100 then some (d.prtWord i) else none
  | .clu => if off = 0x128 then some (d.threadWord i) else none
  | .srm => if off = 0x108 then some (d.occupancy i) else none
  | .vec =>
    if off = 0x108 then some (d.coefWord (d.get (Reg.VEC_COEF_SEL_set i)) (d.get (Reg.VEC_COEF_SEL_index i)))
    else if off = 0x118 then some (pack [(8, 8, d.get (Reg.VEC_COEF_STATUS_result i)), (0, 8, d.coefValid)])
    else if off = 0x120 then some (d.ftqWord i) else none
  | .agr => d.agrWord off
  | .flow => if 0x140 ≤ off ∧ off ≤ 0x178 then some (Tab.getD d.latched (0x062000 + off) 0) else none
  | .stp => d.stpWord off
  | .mbr => d.mbrWord off
  | .spare => if off = 0x108 then some d.trayWord else none
  | .appo => d.appoWord off
  | .drill => if off = 0x110 then some d.nextDrill else none
  | .time => d.timeWord off
  | .tense => d.tenseWord off
  | .cmp => if off = 0x108 then some (pack [(32, 32, (firstHeld d.pair.held).getD 0), (0, 16, d.pair.held.length)]) else none
  | .flt =>
    if off = 0x128 ∨ off = 0x130 then some (Tab.getD d.latched (0x040000 + off) 0)
    else if 0x200 ≤ off ∧ off < 0x400 then some (d.get (Reg.FLT_PEND_pend ((off - 0x200) / 8))) else none
  | .pulse =>
    if off < 0x200 ∧ off % 0x20 = 0x10 then
      let n := (off - 0x100) / 0x20
      let v := d.get (Reg.PULSE_PER_per n)
      some (if v = 0 then 0 else pulsePer (d.flag (Reg.PULSE_CFG_basis n)) v)
    else none
  | .evr => d.evrWord off
  | .dbg => d.dbgWord off
  | .mon => d.monWord i off
  | .agt => d.agtWord (pg / 0x1000 - 1) off
  | .aflt =>
    let a := pg / 0x1000 - 1
    if off = 0x108 then some (d.engineTimeout a (d.get (Reg.AFLT_ENG_SEL_eng a))) else none
  | .vfInfo | .vfCtx | .vfDb => some (d.vfWord i (pg * 0x1000 + off) off b)
  | _ => none

/-- A block-specific register. -/
def Dev.blockWord (d : Dev) (pg off : Nat) (b : Block) : Nat :=
  if d.pageInReset pg && !keepsThroughReset pg then 0
  else (d.special pg off b).getD (d.fieldsWord (pg * 0x1000 + off) off (blockRows b))

/-- The live value of the register at an address, as a read returns it without latching anything (R20, R21, R34). -/
def Dev.readWord (d : Dev) (addr : Nat) : Nat :=
  let pg := addr / 0x1000
  let off := addr % 0x1000 / 8 * 8
  match pageBlock pg with
  | some b =>
    if !d.pageThere pg then 0
    else (if off < 0x100 then d.commonWord pg b off else d.blockWord pg off b) % 2 ^ 64
  | none => 0

/-! ### Reads that latch (R36, R360, R408, R413) -/

/-- The lower register of a timestamp is read: seconds are returned, nanoseconds and fraction latched (R36). -/
def Dev.latchTime (d : Dev) (addr t : Nat) : Dev :=
  { d with rdata := secOf t, latched := Tab.set d.latched (addr + 8) 0 (pack [(16, 30, nsOf t), (0, 16, fracOf t)]) }

/-- A read of the register at an address: the value goes to rdata, with what the read latches or takes. -/
def Dev.readAt (d : Dev) (addr : Nat) : Dev :=
  let pg := addr / 0x1000
  let off := addr % 0x1000 / 8 * 8
  if !d.pageThere pg ∨ (d.pageInReset pg ∧ !keepsThroughReset pg) then { d with rdata := d.readWord addr }
  else match pageBlock pg, off with
  | some .dev, 0x500 => d.nrgRead
  | some .dev, 0x590 => d.progRead
  | some .agr, 0x140 => d.vlogRead
  | some .flow, 0x140 => d.flowRead false
  | some .stp, 0x140 => d.crecRead
  | some .flt, 0x128 => d.drainRead
  | some .time, 0x100 => d.latchTime 0x020100 d.time
  | some .agt, 0x118 => let a := pg / 0x1000 - 1; d.latchTime (pg * 0x1000 + 0x118) (d.agentTime a)
  | some .pulse, 0x208 => d.captureRead 0
  | some .pulse, 0x228 => d.captureRead 1
  | some .dbg, 0x148 => d.scanRead
  | some .evr, 0x8F8 => d.evrAdvance
  | _, _ => { d with rdata := d.readWord addr }

def execTimestampLatch (ts : Timestamp) (s : State) : Host.Outcome State Fault Refusal :=
  .next { s with dev := s.dev.readAt (match ts with | .pod => 0x020100 | .agent n => 0x1000000 * (n.val + 1) + 0x118) }

/-! ### 4-byte reads of the host (R35) -/

/-- The host accesses a register of a page: a half held of another register of the page is dropped (R35). -/
def Dev.touch (d : Dev) (addr : Nat) : Dev :=
  let pg := addr / 0x1000
  let keep (t : Tab (Nat × Nat)) : Tab (Nat × Nat) := t.filter fun e => e.1 != pg || e.2.1 == addr / 8 * 8
  { d with rdHold := keep d.rdHold, wrHold := keep d.wrHold }

/-- A register whose read at either half latches or takes (R36, R360): the lower register of a timestamp. -/
def latchesWhole (reg : Nat) : Bool :=
  reg == 0x020100 || reg == 0x023208 || reg == 0x023228 || (agentSpace (reg / 0x1000) && reg % 0x1000000 == 0x118)

/-- A 4-byte read of the host (R35, rules 1 to 3): of a low half, which reads the register and holds its high half; of a high half,
which returns the half held for this register, else the live one, and of a timestamp's lower register latches the whole (R36). A half
that the holding register answers does not read the register again (log entry 45). -/
def Dev.halfRead (d : Dev) (addr : Nat) : Dev :=
  let reg := addr / 8 * 8
  let pg := addr / 0x1000
  let d := d.touch addr
  if addr % 8 = 0 then
    let d := d.readAt reg
    { d with rdHold := Tab.insert pg (reg, d.rdata / 2 ^ 32) (Tab.erase pg d.rdHold), rdata := d.rdata % 2 ^ 32 }
  else match Tab.find pg d.rdHold with
    | some (_, v) => { d with rdata := v }
    | none =>
      if latchesWhole reg then let d := d.readAt reg; { d with rdata := d.rdata / 2 ^ 32 }
      else { d with rdata := d.readWord reg / 2 ^ 32 }

/-- A read of the host through BAR0 (R35): 4 bytes, or 8, which reads the register whole. -/
def Dev.hostRead (d : Dev) (addr : Nat) (wide : Bool) : Dev :=
  if wide then (d.touch addr).readAt (addr / 8 * 8) else d.halfRead addr

/-- A read through BAR4 (R39, R68): all ones until stage 0xA, then zero, since doorbells are write-only. -/
def Dev.bellRead (d : Dev) (wide : Bool) : Dev :=
  if !d.pwr.powered.contains .hub then d
  else { d with rdata := if d.barsLive then 0 else if wide then 2 ^ 64 - 1 else 2 ^ 32 - 1 }

def execLowHalfRead (r : HostRead) (s : State) : Host.Outcome State Fault Refusal :=
  .next { s with dev := if r.bell then s.dev.bellRead r.wide else s.dev.hostRead r.off.toNat r.wide }

/-- A BAR0 access of another size than 4 or 8, or not aligned to its size (R33). -/
def Dev.badAccess (d : Dev) (isWrite : Bool) (off size : Nat) : Dev :=
  if (size = 4 ∨ size = 8) ∧ off % size = 0 then d
  else
    let d := d.incE Cnt.PCIE_CNT_ACCESS_ERR
    if isWrite then d else { d with rdata := 2 ^ (8 * size) - 1 }

def execAccessError (isWrite : Bool) (off : BitVec 24) (size : Nat) (s : State) : Host.Outcome State Fault Refusal :=
  .next { s with dev := s.dev.badAccess isWrite off.toNat size }

end Sys2Proof.Machine
end

