-- ==== Sys2Proof/Machine/Pages.lean ====
section
/-! DEFINITION. PAGE_CTRL: enabling and disabling blocks, drains and force-aborts (R26, R28, R382 to R384), and reset requests by
domain (R375, R465). -/

namespace Sys2Proof.Machine

/-! ### Ending work by force (R145, R382) -/

/-- The class C pairs of a cluster are given back to their owner, and its reference buffer empties (R382, R207). -/
def Dev.giveBack (d : Dev) (cl : Nat) : Dev :=
  let d := d.loseTiles (· == cl)
  let d := (d.threadsWith fun k t => k / 256 == cl && t.cls == 0 && t.state != .idle).foldl Dev.freeThread d
  d.put (Reg.RED_REF_STATUS_held cl) 0

/-- The threads of classes A and G that a force-abort of a page ends. -/
def Dev.abortThreads (d : Dev) (pg : Nat) : List Nat :=
  let i := pageInstance pg
  let own (ks : List Nat) : List Nat := ks.filter fun k => (d.thread k).cls != 0
  match pageBlock pg with
  | some .clu => own (d.threadsWith fun k t => k / 256 == i && t.state != .idle)
  | some .vec => own (d.issuingKinds i [2])
  | some .red => own (d.issuingKinds i [3])
  | _ => []

/-- The items that a force-abort of a page ends: descriptors, messages or accesses (R373). -/
def Dev.abortItems (d : Dev) (pg : Nat) : Nat :=
  let i := pageInstance pg
  match pageBlock pg with
  | some .port => (d.port i).queue.length
  | some .agp => (d.aport i).down.length
  | some .mgmt | some .fwl => b2n (d.pageBusy pg)
  | _ => (d.abortThreads pg).length

/-- The work of a block is force-aborted (R382): commands end with 0x0B, class C work goes back to its owner, queued messages of a
port are discarded, a fetch ends with 0x09. Messages to an agent stay for their resending (R168); a remote access is ended by its
own page (Dev.forceAbort). -/
def Dev.abortWork (d : Dev) (pg : Nat) : Dev :=
  let i := pageInstance pg
  let d := d.endCommands 0x0B (d.abortThreads pg)
  match pageBlock pg with
  | some .clu | some .red => d.giveBack i
  | some .port => d.setPort i { d.port i with queue := [] }
  | some .fwl => d.fwlAbort
  | _ => d

/-- A block's work ends by force (R382). -/
def Dev.forceAbort (d : Dev) (pg : Nat) : Dev :=
  if pageBlock pg = some .mgmt then (if d.flag Reg.MGMT_RA_STATUS_busy then d.raEnd 0x02 else d) else d.abortWork pg

/-! ### Enabling (R26, R28) -/

/-- A page is enabled: messages that waited for an agent are sent (R382). -/
def Dev.pageOnNow (d : Dev) (pg : Nat) : Dev :=
  let d := (d.put (Reg.PAGE_CTRL_enable pg) 1).put (Reg.PAGE_STATUS_enabled pg) 1
  let a := pageInstance pg
  if (pageBlock pg = some .agp ∨ (pageBlock pg = some .port ∧ a < 8)) ∧ d.downOpen a then
    (d.aport a).down.foldl (fun (d : Dev) m => d.downOut a m) d
  else d

/-- enable written to 1 (R28): held while the block drains, ignored while its domain is in reset. -/
def Dev.pageEnable (d : Dev) (pg : Nat) : Dev :=
  if !d.pageThere pg ∨ d.pageInReset pg then d
  else match Tab.find pg d.drains with
    | some x => { d with drains := Tab.insert pg { x with reenable := true } (Tab.erase pg d.drains) }
    | none => if d.pageOn pg then d else d.pageOnNow pg

/-! ### Disabling and drains (R26, R382, R383) -/

/-- A job is admitted here. -/
def Dev.jobAdmitted (d : Dev) : Bool := d.jobs.any fun e => e.2.phase == 2

/-- The pages that stay enabled while a job is admitted (R384). -/
def keptForJobs : Block → Bool
  | .agr | .stp | .mir | .flow | .mbr | .time | .ptp | .tense => true
  | _ => false

/-- A drain is over (R28, R383): the block is idle, and enabled again when an enable was held. -/
def Dev.drainOver (d : Dev) (pg : Nat) : Dev :=
  let again := ((Tab.find pg d.drains).map DrainSt.reenable).getD false
  let d := ({ d with drains := Tab.erase pg d.drains }).put (Reg.PAGE_STATUS_draining pg) 0
  if again then d.pageOnNow pg else d

/-- The commands on a cluster run to their boundary (R382). -/
def Dev.drainCluster (d : Dev) (cl : Nat) : Dev :=
  (d.threadsWith fun k t => k / 256 == cl && t.state != .idle && t.cls != 0).foldl Dev.drainThread d

/-- A block is disabled (R26, R382): it refuses new work, and drains or is force-aborted at once. -/
def Dev.pageOffNow (d : Dev) (pg : Nat) (b : Block) : Dev :=
  let d := (d.put (Reg.PAGE_CTRL_enable pg) 0).put (Reg.PAGE_STATUS_enabled pg) 0
  if !drainCap b then d
  else if d.flag (Reg.PAGE_CTRL_drain pg) then
    let x : DrainSt := ⟨d.get (Reg.PAGE_CTRL_drain_limit pg), d.nowUs, false⟩
    let d := ({ d with drains := Tab.insert pg x d.drains }).put (Reg.PAGE_STATUS_draining pg) 1
    let d := d.put (Reg.PAGE_STATUS_forced pg) 0
    let d := if b = .clu then d.drainCluster (pageInstance pg) else d
    if d.pageBusy pg then d else d.drainOver pg
  else d.forceAbort pg

/-- enable written to 0: ignored in a reset (R28), and while a job is admitted on the pages of R384; a held enable is given up. -/
def Dev.pageDisable (d : Dev) (pg : Nat) : Dev :=
  match pageBlock pg with
  | none => d
  | some b =>
    if !d.pageThere pg ∨ d.pageInReset pg ∨ (keptForJobs b && d.jobAdmitted) ∨ b = .vfInfo ∨ b = .vfCtx ∨ b = .vfDb then d
    else match Tab.find pg d.drains with
      | some x => { d with drains := Tab.insert pg { x with reenable := false } (Tab.erase pg d.drains) }
      | none => if d.pageOn pg then d.pageOffNow pg b else d

def execPageEnable (pg : BitVec 17) (s : State) : Host.Outcome State Fault Refusal := .next { s with dev := s.dev.pageEnable pg.toNat }

def execPageDisable (pg : BitVec 17) (s : State) : Host.Outcome State Fault Refusal := .next { s with dev := s.dev.pageDisable pg.toNat }

/-- The accepted work of a draining block has reached its boundary (R383), or the queues of a link that leaves have drained (R274). -/
def Dev.drainIdle (d : Dev) (pg : Nat) : Dev :=
  let d := if pageBlock pg = some .port then d.leavePort (pageInstance pg) false else d
  if (Tab.find pg d.drains).isSome && !d.pageBusy pg then d.drainOver pg else d

def execDrainIdle (pg : BitVec 17) (s : State) : Host.Outcome State Fault Refusal := .next { s with dev := s.dev.drainIdle pg.toNat }

/-- A record of the drain ring (R373): page and time, items and contexts. -/
def Dev.drainReport (d : Dev) (pg elapsed items ctxs : Nat) : Dev :=
  let head := d.get Reg.FLT_DRAIN_IDX_head
  let r := (pack [(52, 12, pg), (0, 32, elapsed)], pack [(32, 32, items), (16, 16, ctxs)])
  ({ d with drainLog := Tab.set d.drainLog head (0, 0) r }).put Reg.FLT_DRAIN_IDX_head (head + 1)

/-- An uncorrectable error in a hub memory (R373). -/
def Dev.hubEcc (d : Dev) (ecc : Bool) : Dev := if ecc then d.raise Src.FLT_hub_ecc else d

/-- drain_limit passes (R383): force-abort, forced, a record in the ring, drain_forced. A port that the plan no longer expects, whose
queue has not drained within its page's limit, is quarantined (R274). -/
def Dev.drainLimit (d : Dev) (pg : Nat) : Dev :=
  match Tab.find pg d.drains with
  | none => if pageBlock pg = some .port then d.leavePort (pageInstance pg) true else d
  | some x =>
    let items := d.abortItems pg
    let ctxs := (((d.abortThreads pg).map fun k => (d.thread k).ctx).eraseDups).length
    let d := (d.forceAbort pg).put (Reg.PAGE_STATUS_forced pg) 1
    let d := (d.drainReport pg (d.nowUs - x.start) items ctxs).incE Cnt.FLT_CNT_DRAIN_FORCED
    (d.raise Src.FLT_drain_forced).drainOver pg

def execDrainLimit (pg : BitVec 17) (ecc : Bool) (s : State) : Host.Outcome State Fault Refusal :=
  .next { s with dev := (s.dev.drainLimit pg.toNat).hubEcc ecc }

/-! ### Reset requests (R26, R28, R375) -/

/-- A reset of an agent begins (R375): its pages and its AGP page are in reset, its port trains. -/
def Dev.agentResetBegin (d : Dev) (a : Nat) : Dev :=
  let pages := ((List.range 6).map fun k => 0x1000 * (a + 1) + k) ++ [0x080 + a]
  let d := pages.foldl (fun (d : Dev) pg => (d.abandonDrain pg).put (Reg.PAGE_STATUS_reset_active pg) 1) d
  (d.points a 5 500).setAgentPort a 1

/-- PAGE_CTRL.reset_req (R26, R28): ignored while the domain is in reset or where the page has none; a drain in progress is abandoned. -/
def Dev.resetReq (d : Dev) (pg : Nat) : Dev :=
  match pageBlock pg with
  | none => d
  | some b =>
    if !d.pageThere pg ∨ d.pageInReset pg then d
    else match resetDomain b with
      | 1 | 2 => d.restart
      | 4 => (match pagePart pg with | some p => (d.abandonDrain pg).resetPartition p | none => d)
      | 5 => (d.abandonDrain pg).portReset (pageInstance pg)
      | 6 => d.agentResetBegin (if b = .agp then pageInstance pg else pg / 0x1000 - 1)
      | _ => d

def execResetReq (pg : BitVec 17) (s : State) : Host.Outcome State Fault Refusal := .next { s with dev := s.dev.resetReq pg.toNat }

end Sys2Proof.Machine
end

