-- ==== Sys2Proof/Machine/Write.lean ====
section
/-! DEFINITION. What a 64-bit write of a register does (R26 to R32 and the field tables of every block): RW fields take the value within
their range, W1C bits clear, and the actions of the other bits follow, the lowest bit first (log entry 36). Starting a remote access and
what it leads to is in Remote. -/

namespace Sys2Proof.Machine

/-- The RW and W1C fields of a register take a written value (R31, R32). -/
def Dev.writeFields (d : Dev) (pg off v : Nat) (b : Block) : Dev :=
  let addr := pg * 0x1000 + off
  ((blockRows b).filter fun r => r.off == off).foldl (fun (d : Dev) r =>
    let f : Fld := ⟨addr, r.lo, r.w, r.rst⟩
    match r.acc with
    | .rw => d.put f (limitTo r.lim (bits r.lo r.w v))
    | .w1c => d.put f (d.get f - (d.get f &&& bits r.lo r.w v))
    | _ => d) d

/-! ### The common part of a page (R26 to R30, R366, R367) -/

/-- A write of PAGE_CTRL (R26, R28). -/
def Dev.pageCtrl (d : Dev) (pg v : Nat) : Dev :=
  let d := (d.put (Reg.PAGE_CTRL_drain_limit pg) (limitTo (.range 100 65535) (bits 32 16 v))).putB (Reg.PAGE_CTRL_drain pg) (bitAt 1 v)
  let d := if bitAt 0 v then d.pageEnable pg else d.pageDisable pg
  if bitAt 8 v then d.resetReq pg else d

/-- A write of FLT_STATUS (R367); for an agent, levels are the accelerator's fault inputs that still stand. -/
def Dev.fltClear (d : Dev) (pg mask levels : Nat) : Dev :=
  match pageBlock pg with
  | some .aflt => d.clearAgentFaults (pg / 0x1000 - 1) mask levels
  | some .vfInfo | some .vfCtx | some .vfDb | none => d
  | some _ => d.clearFaults pg mask

/-- A write of FLT_FORCE (R366). -/
def Dev.fltForce (d : Dev) (pg mask : Nat) : Dev :=
  match pageBlock pg with
  | none => d
  | some b => ((List.range (d.sources pg b)).filter fun i => bitAt i mask).foldl (fun (d : Dev) i =>
      if b = .aflt then d.raiseAgent ⟨pg, i⟩ (pg / 0x1000 - 1) true else d.raiseSrc ⟨pg, i⟩ true) d

/-- A write of FLT_REACT (R366): a reaction whose default is 2 or 3 is not lowered. -/
def Dev.fltReact (d : Dev) (pg v n : Nat) : Dev :=
  let code (s : Nat) : Nat :=
    let dflt := bits (2 * s) 2 (reactReset pg)
    let x := bits (2 * s) 2 v
    if 2 ≤ dflt then max dflt x else x
  d.put (Reg.FLT_REACT_react pg) (pack ((List.range n).map fun s => (2 * s, 2, code s)))

/-- The pages of a virtual function hold no registers in the counter area (R444). -/
def functionPage : Block → Bool
  | .vfInfo | .vfCtx | .vfDb => true
  | _ => false

/-- A write of CNT_LATCH (R30). -/
def Dev.cntLatch (d : Dev) (pg v : Nat) : Dev :=
  let d := d.putB (Reg.CNT_LATCH_hold pg) (bitAt 1 v)
  if bitAt 0 v then d.snapPage pg else d

/-- A write of a counter slot (R37): bit 63 clears an error counter. -/
def Dev.cntWrite (d : Dev) (pg k v : Nat) (b : Block) : Dev :=
  if bitAt 63 v ∧ (errorSlots b).contains k ∧ k < nCnt b then d.clearCounter ⟨pg * 0x1000 + 0x88 + 8 * k, 0, 64, 0⟩ else d

/-- A write below offset 0x100. -/
def Dev.commonWrite (d : Dev) (pg off v : Nat) (b : Block) : Dev :=
  let n := d.sources pg b
  if off = 0x10 then d.pageCtrl pg v
  else if off = 0x18 then (if bitAt 4 v then d.put (Reg.PAGE_STATUS_forced pg) 0 else d)
  else if n = 0 ∧ off < 0x80 then d
  else match off with
  | 0x40 => d.tick.fltClear pg (v % 2 ^ 32) (d.free % 2 ^ 24)
  | 0x50 => d.put (Reg.FLT_OVF_ovf pg) (d.get (Reg.FLT_OVF_ovf pg) - (d.get (Reg.FLT_OVF_ovf pg) &&& v % 2 ^ 32))
  | 0x58 => d.put (Reg.FLT_ENABLE_enable pg) (v % 2 ^ n)
  | 0x60 => d.fltForce pg v
  | 0x68 => d.fltReact pg v n
  | 0x80 => if functionPage b then d else d.cntLatch pg v
  | _ => if 0x88 ≤ off then d.cntWrite pg ((off - 0x88) / 8) v b else d

/-! ### The DEV page and virtual functions (R95, R102, R130, R289, R399) -/

/-- A write of DEV_CTX_CTRL (R470); a virtual function cannot create or destroy (R102). -/
def Dev.ctxCtrl (d : Dev) (c v : Nat) (full : Bool) : Dev :=
  let d := if full ∧ bitAt 8 v then d.ctxCreate c else d
  let d := if bitAt 1 v then d.ctxErrClear c else d
  let d := if bitAt 0 v = (d.ctx c).enable then d else if bitAt 0 v then d.ctxEnable c else d.ctxDisable c
  if full ∧ bitAt 9 v then d.ctxDestroy c else d

/-- The configuration register of a window offset (R95, R399). -/
def ctxReg : Nat → Option Nat
  | 0x208 => some 0 | 0x210 => some 1 | 0x218 => some 2 | 0x220 => some 3 | 0x228 => some 4 | 0x248 => some 5
  | _ => none

/-- A write of the DEV page. The windows at 0x200 to 0x3FF serve the local host (R47, R95). DEV_SPILL.pages is taken as written, also below
the sum of host_pages already given (R96, log entry 54). -/
def Dev.devWrite (d : Dev) (who : Requester) (off v : Nat) : Dev :=
  let c := d.get Reg.DEV_CTX_SEL_ctx
  if 0x200 ≤ off ∧ off < 0x400 ∧ who ≠ .host then d
  else match ctxReg off with
  | some reg => d.hostCtx c fun d => d.ctxConfig c reg v
  | none => match off with
    | 0x230 => d.hostCtx c fun d => d.ctxCtrl c v true
    | 0x300 => d.profSelect (v % 256)
    | 0x308 => d.profStage v
    | 0x310 => d.profInstall v
    | 0x408 =>
      let d := d.writeFields 0 0x408 v .dev
      d.put Reg.DEV_FAB_CTRL_idle_pct (Nat.min (d.get Reg.DEV_FAB_CTRL_idle_pct) (d.get Reg.DEV_FAB_CTRL_sat_pct - 10))
    | _ => d.writeFields 0 off v .dev

/-- A write of a virtual function's context window (R102). -/
def Dev.vfCtxWrite (d : Dev) (pg f off v : Nat) : Dev :=
  let sel : Fld := ⟨pg * 0x1000 + 0x200, 0, 10, 0⟩
  if off = 0x200 then d.put sel v
  else match d.localCtx f (d.get sel) with
  | none => d
  | some c =>
    if off = 0x230 then d.hostCtx c fun d => d.ctxCtrl c v false
    else match ctxReg off with
      | some reg => if reg = 0 ∨ reg = 3 then d else d.hostCtx c fun d => d.ctxConfig c reg v
      | none => d

/-- A write of a virtual function's doorbell page (R99, R102). One at a local index that the function does not hold is discarded and not
counted (log entry 47). -/
def Dev.vfDoorbell (d : Dev) (pg f off v : Nat) : Dev :=
  if off < 0x100 ∨ off % 0x100 ≠ 0 then d
  else match d.localCtx f ((pg % 16 - 2) * 15 + (off - 0x100) / 0x100) with
  | some c => d.doorbell c (v % 65536)
  | none => d

/-! ### Boot, security, power (R70, R76, R77, R85, R55, R62) -/

/-- AON_IDLE_CTRL.enter (R62): refused with 0x01 for a member, 0x02 without a wake source, 0x03 during power-up or a reset; else every
block drains. The order of the codes, and that a sequence held or halted in stage 0xF is a power-up in progress, are the model's choice
(log entry 46). -/
def Dev.idleEnter (d : Dev) : Dev :=
  let wakes := (List.range 5).any fun i => d.flag (wakeEnable i)
  let waits := d.stage = 9 ∧ d.get Reg.MBR_STATUS_refuse = 0x05
  let resets := (List.range 16).any (fun p => d.partState p == 2) || ownPages.any fun pg => d.flag (Reg.PAGE_STATUS_reset_active pg)
  if d.get Reg.AON_IDLE_STATUS_state = 1 ∨ d.get Reg.AON_IDLE_STATUS_state = 2 then d
  else if d.isMember then d.put Reg.AON_IDLE_STATUS_refuse 0x01
  else if !wakes then d.put Reg.AON_IDLE_STATUS_refuse 0x02
  else if (d.stage ≠ 0xA ∧ !waits) ∨ resets then d.put Reg.AON_IDLE_STATUS_refuse 0x03
  else
    let d := (d.put Reg.AON_IDLE_STATUS_refuse 0).put Reg.AON_IDLE_STATUS_state 1
    (ownPages.filter d.pageOn).foldl (fun (d : Dev) pg => match pageBlock pg with | some b => d.pageOffNow pg b | none => d) d

/-- A write of the FWL page (R70, R469). Idle, a write with go and abort both 1 starts the fetch: abort has nothing to end (log entry
46). -/
def Dev.fwlWrite (d : Dev) (off v : Nat) : Dev :=
  if d.flag Reg.FWL_STATUS_busy then
    if off = 0x110 then (if bitAt 9 v then d.fwlAbort else d) else if off = 0x118 then d.writeFields 0x003 off v .fwl else d
  else
    let d := d.writeFields 0x003 off v .fwl
    if off = 0x110 ∧ bitAt 8 v then d.fwlGo (v % 16) else d

/-- A write of the BOOT page (R85). -/
def Dev.bootWrite (d : Dev) (off v : Nat) : Dev :=
  let d := d.writeFields 0x001 off v .boot
  if off ≠ 0x108 then d
  else
    let d := if bitAt 8 v then d.resumeBoot else d
    if bitAt 9 v then d.startTests else d

/-- A write of the SEC page (R75, R77). -/
def Dev.secWrite (d : Dev) (off v : Nat) : Dev :=
  let d := d.writeFields 0x002 off v .sec
  if off = 0x108 ∧ bitAt 0 v then d.rollback else if off = 0x130 ∧ bitAt 0 v then d.attestGo else d

/-- A write of the PWR page (R55). -/
def Dev.pwrWrite (d : Dev) (off v : Nat) : Dev :=
  let d := d.writeFields 0x010 off v .pwr
  if off ≠ 0x128 then d
  else
    let d := if bitAt 0 v then d.rearm .a else d
    if bitAt 1 v then d.rearm .b else d

/-! ### Time (R342, R358) -/

/-- A write of the PULSE page (R358 to R360): an output's CFG with mode 0, or 3 which acts as 0, disarms it; arm latches its registers. -/
def Dev.pulseWrite (d : Dev) (off v : Nat) : Dev :=
  let d := d.writeFields 0x023 off v .pulse
  let n := (off - 0x100) / 0x20
  if 0x200 ≤ off then d
  else if off % 0x20 = 0x10 then d.put (Reg.PULSE_PER_per n) (pulsePer (d.flag (Reg.PULSE_CFG_basis n)) v)
  else if off % 0x20 ≠ 0 then d
  else
    let d := if d.get (Reg.PULSE_CFG_mode n) % 3 = 0 then d.pulseOff n else d
    if bitAt 0 v then d.pulseArm n else d

/-! ### Observation (R402 to R418) -/

/-- A map entry's bits (R402). -/
def mapBits (e : Nat) : Nat := pack [(15, 1, bits 15 1 e), (0, 12, e)]

/-- A configuration word without its reserved bits, burst within its range (R32, R405). -/
def cfgBits (v : Nat) : Nat := pack [(57, 7, bits 57 7 v), (40, 8, max 1 (bits 40 8 v)), (0, 5, v)]

/-- A write of the EVR page (R402 to R409). -/
def Dev.evrWrite (d : Dev) (off v : Nat) : Dev :=
  match off with
  | 0x100 => d.evrRelease.writeFields 0x041 off v .evr
  | 0x108 =>
    let d := d.putB Reg.EVR_CTRL_auto (bitAt 0 v)
    let d := if bitAt 8 v then d.evrHold else d.evrRelease
    if bitAt 9 v then d.evrClear else d
  | 0x118 => let c := d.get Reg.EVR_CFG_SEL_code; d.onEvr fun e => { e with cfg := Tab.insert c (cfgBits v) (Tab.erase c e.cfg) }
  | 0x128 => let s := d.get Reg.EVR_MAP_SEL_src; d.onEvr fun e => { e with map := Tab.insert s (mapBits v) (Tab.erase s e.map) }
  | _ => d.writeFields 0x041 off v .evr

/-- A write of the DBG page (R410, R413, R414, R416). tap_en is written by the local host alone (R413). -/
def Dev.dbgWrite (d : Dev) (who : Requester) (off v : Nat) : Dev :=
  let old := d.get Reg.DBG_CTRL_tap_en
  if off = 0x138 then d.scanSelect (bits 16 4 v) (bits 0 10 v)
  else
    let d := d.writeFields 0x042 off v .dbg
    match off with
    | 0x100 => if who = .host then d else d.put Reg.DBG_CTRL_tap_en old
    | 0x108 =>
      let d := if d.get Reg.DBG_STOP_STATUS_state < 2 then d.put Reg.DBG_STOP_STATUS_state (b2n (bitAt 0 v)) else d
      let d := if bitAt 6 v then d.stopTrigger 1 else d
      if bitAt 7 v then d.stopResume else d
    | 0x158 => if bitAt 0 v then d.snapAll else d
    | 0x168 =>
      let d := if bitAt 8 v then d.packPush (d.get Reg.DBG_PACK_CTRL_scope) else d
      if bitAt 9 v then d.packDiscard else d
    | _ => d

/-! ### Leaving device safe state (R371) -/

/-- FLT_DEV_CTRL.release (R371): once no status bit with reaction 3 is set, a device that is not out of service leaves safe state; each
partition follows when its own bits allow, and the controller leaves the rack's view and finds its neighbours again (R303). A sequence
that has not reached stage 0x7, or that is held or halted, goes on as it was (R65, R85). -/
def Dev.fltRelease (d : Dev) : Dev :=
  if d.get Reg.FLT_DEV_STATUS_state ≠ 2 ∨ ownPages.any (fun pg => d.statusWith pg 3) then d
  else
    let d := ((d.put Reg.FLT_DEV_STATUS_state 1).put Reg.FLT_DEV_STATUS_cause 0).put Reg.FLT_DEV_CAUSE_valid 0
    let d := (d.put Reg.FLT_DEV_CAUSE_code 0).settleDev
    let d := (List.range 16).foldl Dev.leaveSafe d
    let d := if d.isMember then d.fenceQuiet else d
    if 7 ≤ d.stage ∧ d.stage ≠ 0xF then (d.enterStage 7).startDiscovery else d

/-! ### Membership, jobs, spares (R306, R309, R318, R338) -/

/-- A write of the MBR page. -/
def Dev.mbrWrite (d : Dev) (off v : Nat) (dma : Dma) : Dev :=
  let d := d.writeFields 0x050 off v .mbr
  match off with
  | 0x108 =>
    let d := if bitAt 0 v then d.withdrawRequest else d
    if bitAt 1 v then d.rejoin else d
  | 0x138 => d.put Reg.MBR_HR_CTRL_watch_pts (Nat.min (d.get Reg.MBR_HR_CTRL_watch_pts) (d.get Reg.MBR_HR_CTRL_expel_pts))
  | 0x148 =>
    let d := if bitAt 8 v then d.jobSubmit dma else d
    if bitAt 9 v then d.jobEndRequest else d
  | _ => d

/-- A write of the STP page (R259): rows are rounded down to 16 and discarded while a job is admitted. -/
def Dev.stpWrite (d : Dev) (off v : Nat) : Dev :=
  if off = 0x108 then (if d.jobAdmitted then d else d.put Reg.STP_REGION_rows (v % 2 ^ 32 / 16 * 16)) else d.writeFields 0x060 off v .stp

/-! ### Ports, partitions and clusters (R288, R377, R116, R153) -/

/-- A write of a port page (R288). -/
def Dev.portWrite (d : Dev) (i off v : Nat) : Dev :=
  if off ≠ 0x138 then d
  else
    let d := if bitAt 0 v then d.retrain i else d
    if bitAt 1 v then d.loopback i else d

/-- A write of an AGP page (R193). -/
def Dev.agpWrite (d : Dev) (a off v : Nat) : Dev :=
  if off ≠ 0x110 then d
  else
    let d := d.putAdmitted a (bitAt 0 v)
    if bitAt 1 v then d.agentFence a else d

/-- A write of a CLU page (R113, R116): the lpd_slots of a class are one setting of the partition. -/
def Dev.cluWrite (d : Dev) (pg c off v : Nat) : Dev :=
  let d := d.writeFields pg off v .clu
  let other := c / 2 * 2 + (1 - c % 2)
  match off with
  | 0x110 => d.put (Reg.CLU_CREDIT_A_lpd_slots other) (d.get (Reg.CLU_CREDIT_A_lpd_slots c))
  | 0x118 => d.put (Reg.CLU_CREDIT_G_lpd_slots other) (d.get (Reg.CLU_CREDIT_G_lpd_slots c))
  | _ => d

/-- A write of a VEC page (R153, R154). -/
def Dev.vecWrite (d : Dev) (who : Requester) (pg c off v : Nat) : Dev :=
  match off with
  | 0x108 => d.coefData who c v
  | 0x110 =>
    let d := if bitAt 0 v then d.coefCommit who c else d
    if bitAt 1 v then d.coefInvalidate who c else d
  | _ => d.writeFields pg off v .vec

/-! ### Agents (R166, R167, R188, R192) -/

/-- The coefficient tables of the declarations that have one, as they lie in what was read, by declaration. -/
def Dev.declTables (d : Dev) (a : Nat) (dma : Dma) : List (List Nat) :=
  let ws := wordsOf ((dma.getD []).map BitVec.toNat)
  (List.range 4).map fun i =>
    let before := ((List.range i).filter fun k => d.get (Reg.APROF_W3_w a k) != 0).length
    if d.get (Reg.APROF_W3_w a i) = 0 then [] else (ws.drop (2048 * before)).take 2048

/-- A write of the AGT page (R167): port_en takes the port down or lets it train. -/
def Dev.agtWrite (d : Dev) (pg a off v : Nat) : Dev :=
  let was := d.flag (Reg.AGT_CTRL_port_en a)
  let d := d.writeFields pg off v .agt
  if off = 0x108 then
    let d := if was && !bitAt 0 v then d.setAgentPort a 0 else if !was && bitAt 0 v then d.setAgentPort a 1 else d
    if bitAt 1 v then d.onAgent a fun x => { x with rearm := true } else d
  else d

/-- A write of the AFLT page (R187, R188): the timeout of the engine selected is written by the accelerator alone (R166). -/
def Dev.afltWrite (d : Dev) (pg a off v : Nat) (acc : Bool) : Dev :=
  match off with
  | 0x100 => d.put (Reg.AFLT_ENG_SEL_eng a) (Nat.min (v % 64) (d.get (Reg.AGT_INFO_n_eng a) - 1))
  | 0x108 =>
    if acc then
      let e := d.get (Reg.AFLT_ENG_SEL_eng a)
      d.onAgent a fun x => { x with timeouts := Tab.insert e (limitTo (.rangeOr0 100 60000000) (v % 2 ^ 32)) (Tab.erase e x.timeouts) }
    else d
  | _ => d.writeFields pg off v .aflt

/-- A write of an agent's other pages (R166, R181, R182, R191, R192). -/
def Dev.agentWrite (d : Dev) (pg a off v : Nat) (b : Block) (acc : Bool) (dma : Dma) : Dev :=
  match b with
  | .asmp => if off = 0x108 ∧ !acc then d else d.writeFields pg off v .asmp
  | .astep =>
    if off = 0x128 then
      let old := d.get (Reg.ASTEP_LIMITS_map_count a)
      let d := d.writeFields pg off v .astep
      if acc then d else d.put (Reg.ASTEP_LIMITS_map_count a) old
    else if acc then d.writeFields pg off v .astep
    else d
  | .acmd => if acc then d.writeFields pg off v .acmd else d
  | .aprof =>
    if off = 0x180 then (if bitAt 0 v then d.aprofLock a (d.declTables a dma) else d)
    else if acc ∧ !d.flag (Reg.APROF_LOCK_lock a) then d.writeFields pg off v .aprof
    else d
  | _ => d

/-- A write of a MON page (R421, R422): the run point follows a new target. -/
def Dev.monWrite (d : Dev) (i off v : Nat) : Dev :=
  let old := d.get (Reg.MON_CTRL_target_mhz i)
  let d := d.writeFields (0x109 + 16 * i) off v .mon
  let d := if d.get (Reg.MON_CTRL_target_mhz i) = old then d else d.retarget i
  if off = 0x100 ∧ bitAt 1 v then d.planStart i else d

/-! ### One write -/

/-- A block-specific write, but for the MGMT page's remote access engine and the comparator's releases (Remote). -/
def Dev.blockWrite (d : Dev) (who : Requester) (pg off v : Nat) (b : Block) (dma : Dma) : Dev :=
  let i := pageInstance pg
  let a := pg / 0x1000 - 1
  let acc := who = .acc (Fin.ofNat 8 a)
  match b with
  | .dev => d.devWrite who off v
  | .boot => d.bootWrite off v
  | .sec => d.secWrite off v
  | .fwl => d.fwlWrite off v
  | .pwr => d.pwrWrite off v
  | .aon => let d := d.writeFields pg off v b; if off = 0x100 ∧ bitAt 0 v then d.idleEnter else d
  | .time => let d := d.writeFields pg off v b; if off = 0x120 ∧ bitAt 0 v then d.onClock fun c => { c with rearm := true } else d
  | .pulse => d.pulseWrite off v
  | .mgmt =>
    if d.flag Reg.MGMT_RA_STATUS_busy ∧ off ≤ 0x110 then d
    else
      let d := d.writeFields pg off v b
      if off ≠ 0x128 then d
      else
        let n := d.get Reg.MGMT_PAIR_CTRL_core
        let d := if bitAt 0 v then d.coreRetry n else d
        if bitAt 1 v then d.coreOffline n else d
  | .flt => let d := d.writeFields pg off v b; if off = 0x118 ∧ bitAt 0 v then d.fltRelease.settle else d
  | .evr => d.evrWrite off v
  | .dbg => d.dbgWrite who off v
  | .mbr => (d.mbrWrite off v dma).settle
  | .spare => let d := d.writeFields pg off v b; if off = 0x118 ∧ bitAt 0 v then d.spareReady.settle else d
  | .appo => let d := d.writeFields pg off v b; if off = 0x100 ∧ bitAt 1 v then (d.appoLoad dma).settle else d
  | .stp => d.stpWrite off v
  | .port => d.portWrite i off v
  | .agp => d.agpWrite i off v
  | .prt => let d := d.writeFields pg off v b; if off = 0x108 ∧ bitAt 2 v then d.partOut i 7 else d
  | .srm => if off = 0x100 then d.reserveWrite i v else d
  | .mon => d.monWrite i off v
  | .clu => d.cluWrite pg i off v
  | .vec => d.vecWrite who pg i off v
  | .agt => d.agtWrite pg a off v
  | .aflt => d.afltWrite pg a off v acc
  | .asmp | .astep | .acmd | .aprof => d.agentWrite pg a off v b acc dma
  | .vfCtx => d.vfCtxWrite pg i off v
  | .vfDb => d.vfDoorbell pg ((pg - 0x10000) / 16) off v
  | .tense | .ptp | .cmp | .drill | .mir | .flow | .agr | .pcie | .lpd | .red | .vfInfo => d.writeFields pg off v b

/-- A 64-bit write of the register at an address: nothing on an absent page (R21); on a page in reset only PAGE_CTRL (R28, R34), and on a
page of a partition out of service only clears of FLT_STATUS (R377); elsewhere by area. Only the local host reaches the SEC page (R75, R77). -/
def Dev.writeAt (d : Dev) (who : Requester) (addr v : Nat) (dma : Dma) : Dev :=
  let pg := addr / 0x1000
  let off := addr % 0x1000 / 8 * 8
  match pageBlock pg with
  | none => d
  | some b =>
    if !d.pageThere pg ∨ (b = .sec ∧ who ≠ .host) then d
    else if d.pageOut pg then (if off = 0x40 then d.clearFaults pg (v % 2 ^ 32) else d)
    else if d.pageInReset pg && !keepsThroughReset pg then (if off = 0x10 then d.pageCtrl pg v else d)
    else if off < 0x100 then d.commonWrite pg off v b
    else d.blockWrite who pg off v b dma

end Sys2Proof.Machine
end

