-- ==== Sys2Proof/Machine/Remote.lean ====
section
/-! DEFINITION. The remote access engine (R44 to R48), window accesses to agents (R443), the register write as a whole, the host's 4-byte
writes (R35), the comparator's releases that write registers (R388), the BAR2 window (R39) and the I3C target (R463). -/

namespace Sys2Proof.Machine

/-! ### Serving an access (R42, R46, R47) -/

/-- Registers that no remote access reaches (R47). -/
def closedToRemote (off : Nat) : Bool :=
  let pg := off / 0x1000
  (decide (0x001 ≤ pg) && decide (pg ≤ 0x00F)) || pg == 0x0C0 || (pg == 0 && decide (0x200 ≤ off) && decide (off < 0x400))

/-- n bytes of SRAM or LPDDR4X at a pod offset, as a number; each raw byte takes its own free value (R468). -/
def Dev.podNumber (d : Dev) (space off n : Nat) : Dev × Nat :=
  ({ d with fresh := d.fresh + n }, leNat ((List.range n).map fun i => BitVec.ofNat 8 (d.podRead space (off + i) i)))

/-- n bytes written at a pod offset. -/
def Dev.podStore (d : Dev) (space off : Nat) (bs : List Nat) : Dev :=
  bs.zipIdx.foldl (fun (d : Dev) e => d.podWrite space (off + e.2) e.1) d

/-- A REG request leaves for an agent (R443): the operation and offset, and the data; the entry tells whose it is. -/
def Dev.regSend (d : Dev) (a : Nat) (write : Bool) (off v : Nat) (from_ : Option (Nat × Nat)) : Dev :=
  let seq := (d.aport a).downSeq
  let d := d.sendDown a 0x0C [b2n write * 2 ^ 63 + off, v]
  { d with ra := { d.ra with windows := d.ra.windows ++ [(a, seq, from_, write)] } }

/-- An access meets a page in reset (R46): of PRT and MON pages it completes normally (R440, R465), and of a page of a partition out of
service only the counters and the block-specific registers are away (R440). An absent page is in no reset (R21). -/
def Dev.accessInReset (d : Dev) (off : Nat) : Bool :=
  let pg := off / 0x1000
  (pageBlock pg).isSome && d.pageInReset pg && !keepsThroughReset pg && (!d.pageOut pg || decide (0x80 ≤ off % 0x1000))

/-- An access to a space of this controller (R42, R46, R47): the code and the data, or none when the answer comes from an agent later. -/
def Dev.raServe (d : Dev) (who : Requester) (from_ : Option (Nat × Nat)) (write : Bool) (space off v : Nat) : Dev × Option (Nat × Nat) :=
  if !podExists space off ∨ (space = 0 ∧ closedToRemote off) then (d, some (0x04, 0))
  else match space with
  | 0 =>
    let code := if d.accessInReset off then 0x06 else 0x00
    if write then (d.writeAt who off v none, some (code, 0)) else let d := d.readAt off; (d, some (code, d.rdata))
  | 3 => (d.regSend (off / 2 ^ 24) write (off % 2 ^ 24) v from_, none)
  | _ =>
    if write then (d.podStore space off (leBytes 8 v), some (0x00, 0))
    else let r := d.podNumber space off 8; (r.1, some (0x00, r.2))

/-! ### The requester (R45, R46, R48) -/

/-- A management core runs firmware. -/
def Dev.pairRuns (d : Dev) : Bool := d.boot.fwRunning && (d.core 0 == 4 || d.core 1 == 4)

/-- The access in progress ends with a code; a read that completed shows its data (R46), a write that completed was acknowledged by the
one controller it went to (R44). -/
def Dev.raFinish (d : Dev) (code data : Nat) : Dev :=
  let d := if code ≠ 0x00 then d else if d.ra.write then d.put Reg.MGMT_RA_STATUS_acks 1 else d.put Reg.MGMT_RA_DATA_data data
  d.raEnd code

/-- A controller has acknowledged a broadcast write (R48): with the last one the access is complete. -/
def Dev.raAck (d : Dev) (src : Nat) : Dev :=
  let acked := if d.ra.acked.contains src then d.ra.acked else d.ra.acked ++ [src]
  ({ d with ra := { d.ra with acked := acked } }).put Reg.MGMT_RA_STATUS_acks acked.length |>.raCheck

/-- The request goes out (R45): body of operation, address and data under the access's number. -/
def Dev.raSend (d : Dev) (chip : Nat) (write : Bool) (addr data : Nat) : Dev :=
  d.send chip 0x30 [word2 d.ra.seq (b2n write), addr, data]

/-- A refusal that needs no answer from elsewhere (R46, R47), in the order of log entry 45. -/
def Dev.raRefusal (d : Dev) (chip space off : Nat) (write : Bool) : Option Nat :=
  if chip = 0xFFFE then none
  else if !(chipIsOne chip || chipIsBroadcast chip) || (chipIsOne chip && !d.isIn chip) then some 0x01
  else if (chipIsBroadcast chip && !write) || !podExists space off || (space == 0 && closedToRemote off) then some 0x04
  else if !d.pairRuns then some 0x07
  else if !d.isMember then some 0x03
  else none

/-- MGMT_RA_CTRL.go (R45): the access starts; this controller's own is served at once. -/
def Dev.raStart (d : Dev) (write : Bool) : Dev :=
  let addr := d.get Reg.MGMT_RA_ADDR_addr * 8
  let data := d.get Reg.MGMT_RA_DATA_data
  let chip := podChip addr
  let space := podSpace addr
  let off := podOffset addr
  let d := (d.put Reg.MGMT_RA_STATUS_busy 1).put Reg.MGMT_RA_STATUS_done 0
  let d := if write then d.put Reg.MGMT_RA_STATUS_acks 0 else d
  let d := { d with ra := { d.ra with seq := (d.ra.seq + 1) % 2 ^ 32, target := some chip, write := write, acked := [] } }
  match d.raRefusal chip space off write with
  | some code => d.raEnd code
  | none =>
    let own := d.ownChip chip
    if own ∨ (chipIsBroadcast chip ∧ (d.inScope chip).contains d.chip) then
      let d := if own then d else d.raSend chip write addr data
      match d.raServe .pair none write space off data with
      | (d, some (code, x)) => if own then d.raFinish code x else if code = 0x00 then d.raAck d.chip else d
      | (d, none) => d
    else (d.raSend chip write addr data).raCheck

/-- MGMT_RA_CTRL.go acts while no access is in progress and the page is enabled (R45, R382). -/
def Dev.raGo (d : Dev) (write : Bool) : Dev :=
  if d.flag Reg.MGMT_RA_STATUS_busy ∨ !d.pageOn 0x030 ∨ d.pageInReset 0x030 ∨ !d.pageThere 0x030 then d else d.raStart write

/-- A read or write is started with a timeout (R32, R44). -/
def Dev.raCommand (d : Dev) (timeout : Nat) (write : Bool) : Dev :=
  if d.flag Reg.MGMT_RA_STATUS_busy ∨ !d.pageThere 0x030 ∨ d.pageInReset 0x030 then d
  else ((d.put Reg.MGMT_RA_CTRL_timeout (limitTo (.range 100 65535) timeout)).putB Reg.MGMT_RA_CTRL_op write).raGo write

def execRaRead (timeout : BitVec 16) (s : State) : Host.Outcome State Fault Refusal :=
  .next { s with dev := s.dev.raCommand timeout.toNat false }

def execRaWrite (timeout : BitVec 16) (s : State) : Host.Outcome State Fault Refusal :=
  .next { s with dev := s.dev.raCommand timeout.toNat true }

/-! ### Register writes as a whole -/

/-- A 64-bit register write by a requester, with the start of a remote access when it sets go (R31, R44, R45). -/
def Dev.regWrite (d : Dev) (who : Requester) (addr v : Nat) (dma : Dma) : Dev :=
  let was := d.flag Reg.MGMT_RA_STATUS_busy
  let d := d.writeAt who addr v dma
  if addr / 8 * 8 = 0x030110 ∧ bitAt 0 v ∧ !was then d.raGo (bitAt 2 v) else d

/-- The register writes that the comparator released act (R388). -/
def Dev.postWrites (d : Dev) : Dev :=
  let ps := d.pair.posted
  ps.foldl (fun (d : Dev) p => d.regWrite .pair p.1 p.2 none) { d with pair := { d.pair with posted := [] } }

/-- A requester's view of the register space (R20, R40, R165). -/
def spaceOf (who : Requester) (off : Nat) : Option Nat :=
  match who with
  | .host | .pair => some (off % 2 ^ 24)
  | .remote _ => if closedToRemote (off % 2 ^ 24) then none else some (off % 2 ^ 24)
  | .acc n => some (0x1000000 * (n.val + 1) + off % 2 ^ 24)
  | .vf f => if f.val = 0 ∨ 2 ^ 16 ≤ off then none else some (0x10000000 + f.val * 0x10000 + off)

/-- REGISTER_WRITE (R31): a write of 8 bytes; the host's drops the halves held of other registers of the page (R35). -/
def Dev.registerWrite (d : Dev) (who : Requester) (off v : Nat) (dma : Dma) : Dev :=
  match spaceOf who off with
  | none => d
  | some addr => ((if who = .host then d.touch addr else d).regWrite who addr v dma).postWrites

def execRegisterWrite (who : Requester) (off : BitVec 24) (v : Word) (dma : Dma) (s : State) : Host.Outcome State Fault Refusal :=
  .next { s with dev := s.dev.registerWrite who off.toNat v.toNat dma }

/-! ### The host's 4-byte writes (R35) -/

/-- A register has at least one RW field (R35); PAGE_CTRL, FLT_ENABLE, FLT_REACT and CNT_LATCH of every page do. -/
def hasRw (addr : Nat) : Bool :=
  let off := addr % 0x1000
  if off < 0x100 then [0x10, 0x58, 0x68, 0x80].contains off
  else match pageBlock (addr / 0x1000) with
  | some b => (blockRows b).any fun r => r.off == off && r.acc == .rw
  | none => false

/-- The current value of the RW fields of a register, 0 in every other bit (R35). -/
def Dev.rwLow (d : Dev) (addr : Nat) : Nat :=
  let v := d.readWord addr % 2 ^ 32
  let off := addr % 0x1000
  let mask := if off = 0x10 then 0x3 else if off = 0x80 then 0x2 else if off < 0x100 then 2 ^ 32 - 1
    else match pageBlock (addr / 0x1000) with
    | some b => ((blockRows b).filter fun r => r.off == off && r.acc == .rw).foldl (fun m r => m ||| (2 ^ r.w - 1) * 2 ^ r.lo) 0
    | none => 0
  v &&& mask

/-- A 4-byte write of a low half (R35): held when the register has an RW field, else at once. -/
def Dev.lowWrite (d : Dev) (addr v : Nat) (dma : Dma) : Dev :=
  let reg := addr / 8 * 8
  let pg := addr / 0x1000
  let d := d.touch reg
  if hasRw reg then { d with wrHold := Tab.insert pg (reg, v) (Tab.erase pg d.wrHold) }
  else (d.regWrite .host reg v dma).postWrites

/-- A 4-byte write of a high half (R35): with the low half held for this register, or the current RW fields of it, one 64-bit write. -/
def Dev.highWrite (d : Dev) (addr v : Nat) (dma : Dma) : Dev :=
  let reg := addr / 8 * 8
  let pg := addr / 0x1000
  let d := d.touch reg
  let low := if hasRw reg then ((Tab.find pg d.wrHold).map fun h => h.2).getD (d.rwLow reg) else 0
  let d := { d with wrHold := Tab.erase pg d.wrHold }
  (d.regWrite .host reg (v * 2 ^ 32 + low) dma).postWrites

def execLowHalfWrite (off : BitVec 24) (v : BitVec 32) (dma : Dma) (s : State) : Host.Outcome State Fault Refusal :=
  .next { s with dev := s.dev.lowWrite off.toNat v.toNat dma }

def execHighHalfWrite (off : BitVec 24) (v : BitVec 32) (dma : Dma) (s : State) : Host.Outcome State Fault Refusal :=
  .next { s with dev := s.dev.highWrite off.toNat v.toNat dma }

/-! ### Fault block and counter rows (R30, R37, R366, R367) -/

def execFltClear (pg : BitVec 17) (mask : BitVec 32) (levels : BitVec 24) (s : State) : Host.Outcome State Fault Refusal :=
  .next { s with dev :=
    if s.dev.pageOut pg.toNat then s.dev.clearFaults pg.toNat mask.toNat
    else s.dev.ifWritable pg.toNat fun d => d.fltClear pg.toNat mask.toNat levels.toNat }

def execFltForce (pg : BitVec 17) (mask : BitVec 32) (s : State) : Host.Outcome State Fault Refusal :=
  .next { s with dev := s.dev.ifWritable pg.toNat fun d => d.fltForce pg.toNat mask.toNat }

def execSnap (pg : BitVec 17) (s : State) : Host.Outcome State Fault Refusal :=
  .next { s with dev := s.dev.ifWritable pg.toNat fun d =>
    if ((pageBlock pg.toNat).map functionPage).getD true then d else d.snapPage pg.toNat }

def execCntClear (pg : BitVec 17) (slot : Fin 15) (s : State) : Host.Outcome State Fault Refusal :=
  .next { s with dev := s.dev.ifWritable pg.toNat fun d => match pageBlock pg.toNat with
    | some b => d.cntWrite pg.toNat slot (2 ^ 63) b
    | none => d }

/-- AON_IDLE_CTRL.enter (R62). -/
def execIdleEnter (s : State) : Host.Outcome State Fault Refusal :=
  .next { s with dev := if s.dev.pageThere 0x011 then s.dev.idleEnter else s.dev }

def execFltRelease (ecc : Bool) (s : State) : Host.Outcome State Fault Refusal :=
  .next { s with dev := (s.dev.fltRelease.settle).hubEcc ecc }

/-- A hub engine has made no progress for 10 ms (R373). -/
def execHubWatchdog (ecc : Bool) (s : State) : Host.Outcome State Fault Refusal :=
  .next { s with dev := (s.dev.raise Src.FLT_hub_watchdog).hubEcc ecc }

/-- A die-to-die bridge is lost (R373). -/
def execBridgeFail (ecc : Bool) (s : State) : Host.Outcome State Fault Refusal :=
  .next { s with dev := (s.dev.raise Src.FLT_bridge_fail).hubEcc ecc }

/-! ### The target (R45, R46) -/

/-- An answer to a remote access leaves (R46). -/
def Dev.raAnswer (d : Dev) (dst seq code data : Nat) : Dev := d.send dst 0x31 [word2 seq code, data]

/-- A remote access request arrives (R45, R302): executed once, a sender that epoch fencing refuses is told so. -/
def Dev.raReq (d : Dev) (h : FabHdr) (seq : Nat) (write : Bool) (addr data : Nat) : Dev :=
  let src := h.src.toNat
  if !d.passes h then (d.fenceDrop src).raAnswer src seq 0x03 0
  else if Tab.find src d.ra.served = some seq then d
  else
    let d := { d with ra := { d.ra with served := Tab.insert src seq (Tab.erase src d.ra.served) } }
    match d.raServe (.remote h.src) (some (src, seq)) write (podSpace addr) (podOffset addr) data with
    | (d, some (code, x)) =>
      let go := write && podSpace addr == 0 && podOffset addr / 8 * 8 == 0x030110 && bitAt 0 data
      ((if go then d.raGo (bitAt 2 data) else d).raAnswer src seq code x).postWrites
    | (d, none) => d

def execRaReq (h : FabHdr) (seq : BitVec 32) (op : Bool) (addr data : Word) (s : State) : Host.Outcome State Fault Refusal :=
  .next { s with dev := s.dev.raReq h seq.toNat op addr.toNat data.toNat }

/-- The reply arrives (R46, R48); one whose authentication fails ends the access with 0x05. -/
def Dev.raRsp (d : Dev) (src seq code data : Nat) (authOk : Bool) : Dev :=
  match d.ra.target with
  | none => d
  | some chip =>
    if seq ≠ d.ra.seq then d
    else if !authOk then (d.raise Src.MGMT_ra_auth_fail).raEnd 0x05
    else if chipIsBroadcast chip then (if code = 0x00 then d.raAck src else d)
    else if src = chip then d.raFinish code data
    else d

def execRaRsp (h : FabHdr) (seq : BitVec 32) (code : Byte) (data : Word) (authOk : Bool) (s : State) : Host.Outcome State Fault Refusal :=
  .next { s with dev := s.dev.ingress h fun d => d.raRsp h.src.toNat seq.toNat code.toNat data.toNat authOk }

/-- The timeout of the access in progress (R46). -/
def execRaTimeout (s : State) : Host.Outcome State Fault Refusal :=
  .next { s with dev := if s.dev.flag Reg.MGMT_RA_STATUS_busy then s.dev.raEnd 0x02 else s.dev }

/-! ### Agent windows (R165, R166, R443) -/

/-- A REG request reaches the agent (R170, R443): a controller-side access to its registers, answered with the value. -/
def Dev.regRequest (d : Dev) (a : Nat) (h : PortHdr) (write : Bool) (off v : Nat) (dma : Dma) : Dev :=
  match d.accepts7 a h true with
  | (d, false) => d
  | (d, true) =>
    let addr := 0x1000000 * (a + 1) + off
    let code := if d.pageInReset (addr / 0x1000) then 0x06 else 0x00
    let d := if write then d.writeAt .pair addr v dma else d.readAt addr
    d.sendUp a 0x0C [word2 code h.seq.toNat, if write then 0 else d.rdata]

def execRegRequest (a : Fin 8) (h : PortHdr) (op : Bool) (off : BitVec 24) (v : Word) (dma : Dma) (s : State) :
    Host.Outcome State Fault Refusal :=
  .next { s with dev := s.dev.regRequest a h op off.toNat v.toNat dma }

/-- A REG response reaches the controller (R443): the access that the window's entry names ends. -/
def Dev.regResponse (d : Dev) (a : Nat) (h : PortHdr) (req code data : Nat) : Dev :=
  d.receiveUp a h 16 fun (d : Dev) =>
    match d.ra.windows.find? fun w => w.1 == a && w.2.1 == req with
    | none => d
    | some (_, _, from_, _) =>
      let d := { d with ra := { d.ra with windows := d.ra.windows.filter fun w => !(w.1 == a && w.2.1 == req) } }
      match from_ with
      | some (chip, seq) => d.raAnswer chip seq code data
      | none => match d.ra.target with
        | some chip => if chipIsBroadcast chip then (if code = 0x00 then d.raAck d.chip else d) else d.raFinish code data
        | none => d

def execRegResponse (a : Fin 8) (h : PortHdr) (req : BitVec 24) (ans : RegAnswer) (s : State) : Host.Outcome State Fault Refusal :=
  .next { s with dev := s.dev.regResponse a h req.toNat ans.code.toNat ans.data.toNat }

/-! ### BAR2 (R39, R442, R468) -/

/-- The SRAM offset of a BAR2 offset for a window of 2^k bytes (R39, R442). -/
def Dev.bar2Offset (d : Dev) (k off : Nat) : Nat := d.get Reg.PCIE_B2_BASE_base * 2 ^ 28 / 2 ^ k * 2 ^ k + off

/-- A host access through BAR2: up to 64 bytes, raw (R468). Before stage 0xA reads return all ones and writes are discarded (R68). -/
def Dev.bar2 (d : Dev) (write : Bool) (off k : Nat) (data : List Nat) (n : Nat) : Dev :=
  let a := d.bar2Offset k off
  let n := if write then data.length else n
  if 2 ^ k < off + n ∨ !d.pwr.powered.contains .hub then d
  else if !d.barsLive then (if write then d else { d with rdata := 2 ^ (8 * n) - 1 })
  else if write then d.podStore 1 a data
  else let r := d.podNumber 1 a n; { r.1 with rdata := r.2 }

def execBar2Access (isWrite : Bool) (off : BitVec 35) (size : Fin 8) (data : List Byte) (n : Fin 65) (s : State) :
    Host.Outcome State Fault Refusal :=
  .next { s with dev := s.dev.bar2 isWrite off.toNat (28 + size.val) (data.map BitVec.toNat) n }

/-! ### Releases of the comparator (R387 to R391, R396) -/

/-- COMPARATOR_COPY: selfOk says whether the comparator's own check passes (R396). -/
def execComparatorCopy (n : Fin 2) (seq : BitVec 32) (m : Message) (selfOk : Bool) (s : State) :
    Host.Outcome State Fault Refusal :=
  .next { s with dev := (if selfOk then s.dev.pairCopy n seq.toNat m else s.dev.raise Src.CMP_cmp_self).postWrites }

def execCoreSelftestDone (n : Fin 2) (pass : Bool) (s : State) : Host.Outcome State Fault Refusal :=
  .next { s with dev := (s.dev.coreSelftest n pass).postWrites }

def execSingleCopy (seq : BitVec 32) (s : State) : Host.Outcome State Fault Refusal :=
  .next { s with dev := (s.dev.singleCopy seq.toNat).postWrites }

def execTakeover (acked : List (BitVec 32)) (s : State) : Host.Outcome State Fault Refusal :=
  .next { s with dev := (s.dev.takeoverRow (acked.map BitVec.toNat)).postWrites }

def execPairSelftestDone (ok0 ok1 : Bool) (s : State) : Host.Outcome State Fault Refusal :=
  .next { s with dev := (s.dev.pairSelftest ok0 ok1).postWrites }

def execCoreOffline (n : Fin 2) (s : State) : Host.Outcome State Fault Refusal :=
  .next { s with dev := (s.dev.coreOffline n).postWrites }

def execStandbySlice (ok passEnds : Bool) (s : State) : Host.Outcome State Fault Refusal :=
  .next { s with dev := (s.dev.standbySlice ok passEnds).postWrites }

def execFeedLost (f : Feed) (s : State) : Host.Outcome State Fault Refusal := .next { s with dev := (s.dev.feedLost f).postWrites }

/-! ### The I3C target (R463) -/

/-- What a private read at an index returns (R463); an index whose domain is off reads zero. -/
def Dev.i3cWord (d : Dev) (index : Nat) : Nat :=
  let hub (v : Nat) : Nat := if d.pwr.powered.contains .hub then v else 0
  match index with
  | 0x00 => (d.pwr.junction % 2 ^ 64).toNat
  | 0x01 => hub (d.readWord 0x010120)
  | 0x02 => hub (d.readWord 0x010100)
  | 0x03 => d.fieldsWord 0x011108 0x108 rowsAON
  | 0x04 => hub (d.readWord 0x001100)
  | 0x05 => hub (d.readWord 0x040100)
  | _ => 0

def execI3cRead (index : Byte) (s : State) : Host.Outcome State Fault Refusal :=
  .next { s with dev := s.dev.emit (.serial 64 (s.dev.i3cWord index.toNat)) }

/-- ENTDAA: a target without a dynamic address takes one. -/
def execEntdaa (addr : BitVec 7) (s : State) : Host.Outcome State Fault Refusal :=
  .next { s with dev := if s.dev.i3c = none then { s.dev with i3c := some addr.toNat } else s.dev }

/-- SETDASA to the static address 0x4C: a target without a dynamic address takes the one given. -/
def execSetdasa (static_ dynamic : BitVec 7) (s : State) : Host.Outcome State Fault Refusal :=
  .next { s with dev :=
    if static_ = 0x4C ∧ s.dev.i3c = none then { s.dev with i3c := some dynamic.toNat } else s.dev }

/-- RSTDAA: the dynamic address is given up. -/
def execRstdaa (s : State) : Host.Outcome State Fault Refusal := .next { s with dev := { s.dev with i3c := none } }

/-- GETPID: the 48-bit provisioned identifier, which the spec does not give (log entry 36). -/
def execGetpid (s : State) : Host.Outcome State Fault Refusal := .next { s with dev := s.dev.emit (.serial 48 Config.i3cPid.toNat) }

def execGetbcr (s : State) : Host.Outcome State Fault Refusal := .next { s with dev := s.dev.emit (.serial 8 Config.i3cBcr.toNat) }

def execGetdcr (s : State) : Host.Outcome State Fault Refusal := .next { s with dev := s.dev.emit (.serial 8 Config.i3cDcr.toNat) }

/-- GETSTATUS: 16 bits that the spec does not lay out: a free value (log entries 1 and 36). -/
def execGetstatus (s : State) : Host.Outcome State Fault Refusal :=
  .next { s with dev := (s.dev.emit (.serial 16 (s.dev.free % 2 ^ 16))).tick }

end Sys2Proof.Machine
end

