-- ==== Sys2Proof/Machine/Move.lean ====
section
/-! DEFINITION. MOVE (R91, R94, R100, R106, R109, R111): its errors, the bytes it reads and writes in managed pages, the direct host
window, this controller's memory and registers and other controllers', and the messages between controllers (R279). -/

namespace Sys2Proof.Machine

/-! ### Errors (R91, R101, R106) -/

/-- The error a MOVE ends with before any access (R101, R106): a length of 0, a pod address in class G, a broadcast or unassigned chip
value (R43). -/
def moveError (cls : Nat) (b : MoveBody) : Option Nat :=
  let noChip (a : Nat) : Bool := !(chipIsOne (podChip a) || podChip a == 0xFFFE)
  if b.len = 0 then some 0x07
  else if (b.srcPod || (b.dstPod && !b.prefetch)) && cls == 2 then some 0x08
  else if (b.srcPod && noChip b.src) || (b.dstPod && !b.prefetch && noChip b.dst) then some 0x07
  else none

/-- A piece of n bytes at a pod address is refused (R42, R47): not the space that the MOVE names, a hole, or a register that no remote
access reaches. -/
def podRefused (base a n : Nat) : Bool :=
  let space := podSpace a
  let off := podOffset a
  let last := off + n - 1
  a / 2 ^ 44 != base / 2 ^ 44 || !podExists space off || !podExists space last || (space == 2 && off / 2 ^ 36 != last / 2 ^ 36) ||
    (space == 0 && (List.range (n / 8 + 2)).any fun i => decide (off / 8 * 8 + 8 * i ≤ last) && closedToRemote (off / 8 * 8 + 8 * i))

/-- The error of a piece of a MOVE: a context address beyond the space or beyond win_pages, 0x04 (R91, R101); a refused pod address,
0x07 (log entry 47). -/
def segmentError (winPages : Nat) (b : MoveBody) (s : Segment) : Option Nat :=
  let n := s.2.2
  let bad (a : Nat) : Bool := decide (2 ^ 47 < a + n) || (inWindow a && decide (winPages * 2 ^ 21 < a + n - 2 ^ 46))
  if (!b.srcPod && bad s.1) || (!b.prefetch && !b.dstPod && bad s.2.1) then some 0x04
  else if (b.srcPod && podRefused b.src s.1 n) || (!b.prefetch && b.dstPod && podRefused b.dst s.2.1 n) then some 0x07
  else none

/-- A piece is read through host DMA. -/
def fromHost (b : MoveBody) (s : Segment) : Bool := !b.prefetch && !b.srcPod && inWindow s.1

/-- Where a MOVE stops: its pieces before the first access that fails, and the error; a host DMA that failed ends it with 0x04 (R91,
R101). -/
def moveStop (winPages : Nat) (dmaOk : Bool) (b : MoveBody) (ss : List Segment) : List Segment × Option Nat :=
  let err (s : Segment) : Option Nat :=
    match segmentError winPages b s with
    | some e => some e
    | none => if fromHost b s && !dmaOk then some 0x04 else none
  (ss.takeWhile fun s => (err s).isNone, (ss.dropWhile fun s => (err s).isNone).head?.bind err)

/-- Rows of source and destination of one MOVE overlap in one address space (R106). -/
def Dev.moveOverlap (d : Dev) (b : MoveBody) : Bool :=
  let home (a : Nat) : Nat := if d.ownChip (podChip a) then 0xFFFE else podChip a
  let same := if b.srcPod then home b.src == home b.dst && podSpace b.src == podSpace b.dst else true
  let src (r : Nat) : Nat := (if b.srcPod then podOffset b.src else b.src) + r * b.srcStride
  let dst (r : Nat) : Nat := (if b.dstPod then podOffset b.dst else b.dst) + r * b.dstStride
  b.srcPod == b.dstPod && !b.prefetch && same &&
    (List.range b.rows).any fun r => (List.range b.rows).any fun q => decide (src r < dst q + b.len) && decide (dst q < src r + b.len)

/-! ### Bytes by pod address (R41, R42, R468) -/

/-- The pieces of a byte range in 8-byte registers: offset and length. -/
def regPieces (off n : Nat) : List Range :=
  (List.range ((off + n + 7) / 8 - off / 8)).map fun i =>
    (Nat.max off ((off / 8 + i) * 8), Nat.min (off + n) ((off / 8 + i + 1) * 8) - Nat.max off ((off / 8 + i) * 8))

/-- The register address of an offset of space 0x0 or 0x3 (R42, R443). -/
def spaceReg (space off : Nat) : Nat := if space = 0 then off else 0x1000000 * (off / 2 ^ 24 + 1) + off % 2 ^ 24

/-- Registers read by a MOVE (log entry 48): whole registers; a part of one is an access that is not executed and reads all ones
(R33). -/
def Dev.regBytes (d : Dev) (space : Nat) : List Range → Dev × List Nat
  | [] => (d, [])
  | r :: rs =>
    let e := if r.2 = 8 then d.readAt (spaceReg space r.1) else { d.incE Cnt.PCIE_CNT_ACCESS_ERR with rdata := 2 ^ 64 - 1 }
    let rest := ({ e with rdata := d.rdata }).regBytes space rs
    (rest.1, leBytes r.2 e.rdata ++ rest.2)

/-- Registers written by a MOVE (log entry 48): whole registers; a part of one is not written (R33). -/
def Dev.regStore (d : Dev) (who : Requester) (space : Nat) : List Range → List Nat → Dev
  | [], _ => d
  | r :: rs, bs =>
    let v := (bs.take r.2).foldr (fun b acc => b + acc * 256) 0
    let d := if r.2 = 8 then d.regWrite who (spaceReg space r.1) v none else d.incE Cnt.PCIE_CNT_ACCESS_ERR
    d.regStore who space rs (bs.drop r.2)

/-- n bytes at a pod address of this controller. -/
def Dev.podBytes (d : Dev) (a n : Nat) : Dev × List Nat :=
  let space := podSpace a
  let off := podOffset a
  if space = 1 ∨ space = 2 then ({ d with fresh := d.fresh + n }, (List.range n).map fun i => d.podRead space (off + i) i)
  else d.regBytes space (regPieces off n)

/-- Bytes written at a pod address of this controller. -/
def Dev.podWrites (d : Dev) (who : Requester) (a : Nat) (bs : List Nat) : Dev :=
  let space := podSpace a
  if space = 1 ∨ space = 2 then d.podStore space (podOffset a) bs
  else (d.regStore who space (regPieces (podOffset a) bs.length) bs).postWrites

/-! ### The copy (R106) -/

/-- The fabric kind of MOVE data (R279). Its body: word 0 is 0 for data, 1 for a request of a MOVE's source, 2 for the bytes that answer
one and for the acknowledgement of data, with bit 8 for a descriptor of class C; the spec gives the body no layout (log entries 15 and
48). -/
def moveKind : Nat := 0x58

/-- The first word of MOVE data: what it is, and whether it uses VC2 (R278). -/
def moveWord (what : Nat) (bulk : Bool) : Nat := what + 256 * b2n bulk

/-- A MOVE's source, or its destination, is memory of another controller. -/
def Dev.remoteSrc (d : Dev) (b : MoveBody) : Bool := b.srcPod && !b.prefetch && !d.ownChip (podChip b.src)
def Dev.remoteDst (d : Dev) (b : MoveBody) : Bool := b.dstPod && !b.prefetch && !d.ownChip (podChip b.dst)

/-- The bytes of a MOVE's pieces: managed bytes, this controller's own by pod address, or what the host or another controller
returned. -/
def Dev.moveRead (d : Dev) (c : Nat) (b : MoveBody) : List Segment → List Nat → Dev × List (List Nat)
  | [], _ => (d, [])
  | s :: ss, got =>
    let n := s.2.2
    if d.remoteSrc b || fromHost b s then
      let rest := d.moveRead c b ss (got.drop n)
      (rest.1, ((List.range n).map fun i => got.getD i 0) :: rest.2)
    else
      let r := if b.srcPod then d.podBytes s.1 n else (d, (List.range n).map fun i => d.ctxRead c (s.1 + i))
      let rest := r.1.moveRead c b ss got
      (rest.1, r.2 :: rest.2)

/-- Bytes placed at a MOVE's destination pieces: managed pages, the host window, this controller by pod address, or a message to another
controller (R278, R279). -/
def Dev.moveWrite (d : Dev) (k : Nat) (b : MoveBody) (ws : List (Segment × List Nat)) : Dev :=
  let t := d.thread k
  ws.foldl (fun d w =>
    let a := w.1.2.1
    if b.dstPod then
      if d.ownChip (podChip a) then d.podWrites .pair a w.2
      else d.send (podChip a) moveKind ([moveWord 0 (t.cls == 0), a, w.2.length, k, t.gen] ++ wordsOf w.2)
    else if inWindow a then d.hostWrite (d.hostAddr t.ctx (a - 2 ^ 46)) w.2
    else d.ctxWrites t.ctx (placeBytes a w.2)) d

/-- n bytes that the spec leaves undefined (log entry 1). -/
def Dev.freeBytes (d : Dev) (n : Nat) : List Nat := (List.range n).map fun i => (Config.freeWord (d.fresh + i)).toNat % 256

/-- Pieces paired with free bytes. -/
def Dev.freeSegs (d : Dev) : List Segment → Dev × List (List Nat)
  | [] => (d, [])
  | s :: ss =>
    let rest := ({ d with fresh := d.fresh + s.2.2 }).freeSegs ss
    (rest.1, d.freeBytes s.2.2 :: rest.2)

/-- Managed pages of a MOVE's source marked: pinned up to sram_pages for class A, or first to be evicted (R94, R106). -/
def Dev.markPages (d : Dev) (c : Nat) (b : MoveBody) : Dev :=
  let src := (moveSegments b).filter fun s => !b.srcPod && !inWindow s.1
  let keys := (pagesOf (src.map fun s => (s.1, s.2.2))).map (pageKey c)
  let d := if b.pin && (d.ctx c).cls == 1 then
      keys.foldl (fun d k =>
        let pinned := (d.comp.pages.filter fun e => keyCtx e.1 == c && e.2.pinned).length
        match d.pageEnt k with
        | some e => if pinned < (d.ctx c).sramPages then d.setPage k { e with pinned := true } else d
        | none => d) d
    else d
  if b.evict then
    d.setPages (d.comp.pages.map fun (e : Nat × PageEnt) => if keys.contains e.1 then (e.1, { e.2 with firstOut := true }) else e)
  else d

/-- Pieces of a MOVE copied; overlapping rows leave free values (R106). A suspect's re-run writes nothing (R380). -/
def Dev.moveCopy (d : Dev) (k : Nat) (b : MoveBody) (ss : List Segment) (got : List Nat) : Dev :=
  if b.prefetch || (d.thread k).replay then d
  else
    let r := if d.moveOverlap b then d.freeSegs ss else d.moveRead (d.thread k).ctx b ss got
    r.1.moveWrite k b (ss.zip r.2)

/-- A MOVE retires: its marks and its counters (R94, R106, R400). -/
def Dev.moveEnd (d : Dev) (k : Nat) (b : MoveBody) (cycles : Nat) : Dev :=
  ((d.markPages (d.thread k).ctx b).bump k [(0, cycles), (7, if b.prefetch then 0 else b.rows * b.len)]).retire k false

/-- A MOVE whose pages and data are there (R100, R106, R109): the copy; writes to another controller are awaited before it retires. -/
def Dev.moveRun (d : Dev) (k : Nat) (b : MoveBody) (got : List Nat) (cycles : Nat) : Dev :=
  let ss := moveSegments b
  let d1 := d.moveCopy k b ss got
  if d.remoteDst b && !(d.thread k).replay then
    d1.setThread k { d1.thread k with state := .blocked, why := .podWrite ss.length none, hold := [] }
  else d1.moveEnd k b cycles

/-- A MOVE stops at an access that failed: the pieces before it are copied, and what they wrote to another controller is awaited before the
command ends (R100, R106). -/
def Dev.moveFails (d : Dev) (k : Nat) (b : MoveBody) (ss : List Segment) (got : List Nat) (code : Nat) : Dev :=
  let d1 := d.moveCopy k b ss got
  if d.remoteDst b && !(d.thread k).replay && ss != [] then
    d1.setThread k { d1.thread k with state := .blocked, why := .podWrite ss.length (some code), hold := [] }
  else d1.accessError k code

/-- A MOVE (R91, R94, R106, R110). dma is what the host returns for source pieces in the direct host window, in order. An access that
fails ends it after the pieces before it. -/
def Dev.move (d : Dev) (k cycles : Nat) (dma : Dma) : Dev :=
  match d.current k 4 with
  | none => d
  | some x =>
    let t := d.thread k
    let b := MoveBody.ofDesc x
    match moveError t.cls b with
    | some code => d.descError k code
    | none =>
      match t.why with
      | .podWrite _ none => d.moveEnd k b cycles
      | .podWrite _ (some code) => d.accessError k code
      | _ =>
        let host := (moveSegments b).any (fromHost b)
        let m := moveStop (d.ctx t.ctx).winPages dma.isSome b (moveSegments b)
        let got : List Nat := match t.why with
          | .pod got => got
          | _ => (dma.getD []).map BitVec.toNat
        match d.access k (segmentTiles b m.1) with
        | .fail d code n => d.moveFails k b ((moveSegments b).take n) got code
        | .blocked d => d
        | .ok d =>
          let d := if host then d.dmaRead dma else d
          let here := match t.why with
            | .pod _ => true
            | _ => t.replay || m.1 == [] || !d.remoteSrc b
          if !here then
            (d.send (podChip b.src) moveKind [moveWord 1 (t.cls == 0), b.src, b.len, b.rows, b.srcStride, k, t.gen]).setThread k
              { d.thread k with state := .blocked, why := .pod [], hold := [] }
          else match m.2 with
            | some code => d.moveFails k b m.1 got code
            | none => d.moveRun k b got cycles

def execMove (cl : Fin 32) (th : Fin 256) (cycles : Nat) (dma : Dma) (s : State) : Host.Outcome State Fault Refusal :=
  .next { s with dev := s.dev.move (threadKey cl th) cycles dma }

/-! ### MOVE data (R42, R106, R279, R386) -/

/-- The rows of a request read one after another. -/
def Dev.podRows (d : Dev) (a len stride : Nat) : Nat → Dev × List Nat
  | 0 => (d, [])
  | n + 1 =>
    let r := d.podBytes a len
    let rest := r.1.podRows (a + stride) len stride n
    (rest.1, r.2 ++ rest.2)

/-- What a thread that waits on another controller waits for after one more answer (R106, R111): the bytes of its source, or the
acknowledgement of the pieces it wrote. -/
def waitAnswered (w : Waiting) (got : List Nat) : Option (ThState × Waiting) :=
  match w with
  | .pod _ => some (.ready, .pod got)
  | .podWrite n c => some (if n ≤ 1 then .ready else .blocked, .podWrite (n - 1) c)
  | _ => none

/-- MOVE data arrives (R42, R47, R106, R279, R386): data is written and acknowledged; a request is answered, without data where any of
its rows is refused; an answer goes to the thread that
waits for it, and is discarded and counted when its context's generation has passed. -/
def Dev.moveData (d : Dev) (src : BitVec 16) : MoveMsg → Dev
  | .data a bs k g bulk =>
    let d := if podRefused a.toNat a.toNat bs.length then d else d.podWrites (.remote src) a.toNat (bs.map BitVec.toNat)
    d.send src.toNat moveKind [moveWord 2 bulk, k.val, g.toNat]
  | .request a len rows stride k g bulk =>
    if (List.range rows).any fun r => podRefused a.toNat (a.toNat + r * stride) len then d.send src.toNat moveKind [moveWord 2 bulk, k.val, g.toNat]
    else
      let r := d.podRows a.toNat len stride rows
      r.1.send src.toNat moveKind ([moveWord 2 bulk, k.val, g.toNat] ++ wordsOf r.2)
  | .answer k g bs =>
    let t := d.thread k
    match waitAnswered t.why (bs.map BitVec.toNat) with
    | some w =>
      if t.state ≠ .blocked then d
      else if t.gen ≠ g.toNat ∨ (d.ctx t.ctx).gen ≠ g.toNat then d.incU Cnt.FLT_CNT_STALE_DISCARD
      else d.setThread k { t with state := w.1, why := w.2 }
    | none => d.incU Cnt.FLT_CNT_STALE_DISCARD

def execMoveData (h : FabHdr) (m : MoveMsg) (s : State) : Host.Outcome State Fault Refusal :=
  .next { s with dev := s.dev.ingress h fun d => d.moveData h.src m }

end Sys2Proof.Machine
end

