-- ==== Sys2Proof/Machine/Dispatch.lean ====
section
/-! DEFINITION. The dispatch: one arm per command, each a direct call of its meaning. -/

namespace Sys2Proof.Machine

/-- The effect of a command on everything but the queue. -/
def exec (i : Instr) (s : State) : Host.Outcome State Fault Refusal :=
  match i with
  | .registerWrite who off v dma => Sys2Proof.Machine.execRegisterWrite who off v dma s
  | .accessError isWrite off size => Sys2Proof.Machine.execAccessError isWrite off size s
  | .lowHalfRead r => Sys2Proof.Machine.execLowHalfRead r s
  | .lowHalfWrite off v dma => Sys2Proof.Machine.execLowHalfWrite off v dma s
  | .highHalfWrite off v dma => Sys2Proof.Machine.execHighHalfWrite off v dma s
  | .timestampLatch ts => Sys2Proof.Machine.execTimestampLatch ts s
  | .pageEnable pg => Sys2Proof.Machine.execPageEnable pg s
  | .pageDisable pg => Sys2Proof.Machine.execPageDisable pg s
  | .resetReq pg => Sys2Proof.Machine.execResetReq pg s
  | .drainIdle pg => Sys2Proof.Machine.execDrainIdle pg s
  | .drainLimit pg ecc => Sys2Proof.Machine.execDrainLimit pg ecc s
  | .fltClear pg mask levels => Sys2Proof.Machine.execFltClear pg mask levels s
  | .fltForce pg mask => Sys2Proof.Machine.execFltForce pg mask s
  | .snap pg => Sys2Proof.Machine.execSnap pg s
  | .cntClear pg slot => Sys2Proof.Machine.execCntClear pg slot s
  | .raRead timeout => Sys2Proof.Machine.execRaRead timeout s
  | .raWrite timeout => Sys2Proof.Machine.execRaWrite timeout s
  | .raReq h seq op addr data => Sys2Proof.Machine.execRaReq h seq op addr data s
  | .raRsp h seq code data authOk => Sys2Proof.Machine.execRaRsp h seq code data authOk s
  | .raTimeout => Sys2Proof.Machine.execRaTimeout s
  | .bar2Access isWrite off size data n => Sys2Proof.Machine.execBar2Access isWrite off size data n s
  | .feedLost f => Sys2Proof.Machine.execFeedLost f s
  | .feedAboveThreshold f => Sys2Proof.Machine.execFeedAboveThreshold f s
  | .feedBelowThreshold f => Sys2Proof.Machine.execFeedBelowThreshold f s
  | .returnHold f => Sys2Proof.Machine.execReturnHold f s
  | .rearm f => Sys2Proof.Machine.execRearm f s
  | .limiterWindow mw avg hold down rate c a g agr stp => Sys2Proof.Machine.execLimiterWindow mw avg hold down rate c a g agr stp s
  | .overEnvelope => Sys2Proof.Machine.execOverEnvelope s
  | .burstEnd => Sys2Proof.Machine.execBurstEnd s
  | .powerOn a b ida idb slot => Sys2Proof.Machine.execPowerOn a b ida idb slot s
  | .powerGood x => Sys2Proof.Machine.execPowerGood x s
  | .pmbusPoll okA okB => Sys2Proof.Machine.execPmbusPoll okA okB s
  | .powerLoss => Sys2Proof.Machine.execPowerLoss s
  | .vddqLow => Sys2Proof.Machine.execVddqLow s
  | .thermalSample temps => Sys2Proof.Machine.execThermalSample temps s
  | .idleEnter => Sys2Proof.Machine.execIdleEnter s
  | .idleEntryDone => Sys2Proof.Machine.execIdleEntryDone s
  | .wakeCmp n => Sys2Proof.Machine.execWakeCmp n s
  | .wakePin wentHigh => Sys2Proof.Machine.execWakePin wentHigh s
  | .i3cWake => Sys2Proof.Machine.execI3cWake s
  | .perstAssert => Sys2Proof.Machine.execPerstAssert s
  | .perstDeassert => Sys2Proof.Machine.execPerstDeassert s
  | .hotReset => Sys2Proof.Machine.execHotReset s
  | .functionReset => Sys2Proof.Machine.execFunctionReset s
  | .linkTrained gen width => Sys2Proof.Machine.execLinkTrained gen width s
  | .fwlGo obj => Sys2Proof.Machine.execFwlGo obj s
  | .fwlAbort => Sys2Proof.Machine.execFwlAbort s
  | .fwlFetchDone dma => Sys2Proof.Machine.execFwlFetchDone dma s
  | .verifyDone => Sys2Proof.Machine.execVerifyDone s
  | .startTests => Sys2Proof.Machine.execStartTests s
  | .packWait => Sys2Proof.Machine.execPackWait s
  | .testsDone fs lanes hubFail packOk vf p0 => Sys2Proof.Machine.execTestsDone fs lanes hubFail packOk vf p0 s
  | .ddrTrained p r => Sys2Proof.Machine.execDdrTrained p r s
  | .signalDetect port l => Sys2Proof.Machine.execSignalDetect port l s
  | .trainingPhaseTimeout port l phase => Sys2Proof.Machine.execTrainingPhaseTimeout port l phase s
  | .trainingAttemptEnd port l pass delay => Sys2Proof.Machine.execTrainingAttemptEnd port l pass delay s
  | .laneSilent port l => Sys2Proof.Machine.execLaneSilent port l s
  | .linkDown port l => Sys2Proof.Machine.execLinkDown port l s
  | .discWait => Sys2Proof.Machine.execDiscWait s
  | .timeStageEnd rack pod => Sys2Proof.Machine.execTimeStageEnd rack pod s
  | .bootResume => Sys2Proof.Machine.execBootResume s
  | .rollbackAdvance => Sys2Proof.Machine.execRollbackAdvance s
  | .attestGo => Sys2Proof.Machine.execAttestGo s
  | .attestDone => Sys2Proof.Machine.execAttestDone s
  | .coreFail cl core => Sys2Proof.Machine.execCoreFail cl core s
  | .switchInDone cl => Sys2Proof.Machine.execSwitchInDone cl s
  | .ctxCreate c => Sys2Proof.Machine.execCtxCreate c s
  | .ctxEnable c => Sys2Proof.Machine.execCtxEnable c s
  | .ctxDisable c => Sys2Proof.Machine.execCtxDisable c s
  | .ctxErrClear c => Sys2Proof.Machine.execCtxErrClear c s
  | .ctxDestroy c => Sys2Proof.Machine.execCtxDestroy c s
  | .ctxConfigWrite c reg v => Sys2Proof.Machine.execCtxConfigWrite c reg v s
  | .ctxDrainEnd c forced => Sys2Proof.Machine.execCtxDrainEnd c forced s
  | .quarantineEnd c => Sys2Proof.Machine.execQuarantineEnd c s
  | .requestAbandon c => Sys2Proof.Machine.execRequestAbandon c s
  | .doorbell c tail => Sys2Proof.Machine.execDoorbell c tail s
  | .commandDispatch c cl th dma => Sys2Proof.Machine.execCommandDispatch c cl th dma s
  | .commandEnd cl th => Sys2Proof.Machine.execCommandEnd cl th s
  | .mat cl th cycles sram wrong => Sys2Proof.Machine.execMat cl th cycles sram wrong s
  | .chain cl th cycles u => Sys2Proof.Machine.execChain cl th cycles u s
  | .red cl th cycles u => Sys2Proof.Machine.execRed cl th cycles u s
  | .move cl th cycles dma => Sys2Proof.Machine.execMove cl th cycles dma s
  | .check cl th core cycles upset => Sys2Proof.Machine.execCheck cl th core cycles upset s
  | .wait cl th => Sys2Proof.Machine.execWait cl th s
  | .signal cl th => Sys2Proof.Machine.execSignal cl th s
  | .waitTimeout cl th => Sys2Proof.Machine.execWaitTimeout cl th s
  | .threadIssue cl th => Sys2Proof.Machine.execThreadIssue cl th s
  | .preempt cl th hold => Sys2Proof.Machine.execPreempt cl th hold s
  | .holdOverrun cl => Sys2Proof.Machine.execHoldOverrun cl s
  | .pageFill c page gen u => Sys2Proof.Machine.execPageFill c page gen u s
  | .reserveWrite p v => Sys2Proof.Machine.execReserveWrite p v s
  | .ftqEntryFree cl th cycles => Sys2Proof.Machine.execFtqEntryFree cl th cycles s
  | .profSelWrite e => Sys2Proof.Machine.execProfSelWrite e s
  | .profW0Write v => Sys2Proof.Machine.execProfW0Write v s
  | .profInstall v => Sys2Proof.Machine.execProfInstall v s
  | .coefDataWrite cl v => Sys2Proof.Machine.execCoefDataWrite cl v s
  | .coefCommit cl => Sys2Proof.Machine.execCoefCommit cl s
  | .coefInvalidate cl => Sys2Proof.Machine.execCoefInvalidate cl s
  | .invalidationDone set => Sys2Proof.Machine.execInvalidationDone set s
  | .tileTap a t mem ecc => Sys2Proof.Machine.execTileTap a t mem ecc s
  | .stepEnd a n list => Sys2Proof.Machine.execStepEnd a n list s
  | .updateDone a => Sys2Proof.Machine.execUpdateDone a s
  | .holdAck a packed => Sys2Proof.Machine.execHoldAck a packed s
  | .copyDone a => Sys2Proof.Machine.execCopyDone a s
  | .cmdStart a tag ctrs => Sys2Proof.Machine.execCmdStart a tag ctrs s
  | .cmdEnd a tag ctrs => Sys2Proof.Machine.execCmdEnd a tag ctrs s
  | .accFault a src => Sys2Proof.Machine.execAccFault a src s
  | .progressPulse a e => Sys2Proof.Machine.execProgressPulse a e s
  | .agentEngineHang a e => Sys2Proof.Machine.execAgentEngineHang a e s
  | .cutAbandon a => Sys2Proof.Machine.execCutAbandon a s
  | .retransmit e a seq => Sys2Proof.Machine.execRetransmit e a seq s
  | .portLost a => Sys2Proof.Machine.execPortLost a s
  | .agentTimeHoldover a => Sys2Proof.Machine.execAgentTimeHoldover a s
  | .rearmTime a => Sys2Proof.Machine.execRearmTime a s
  | .aprofLock a tables => Sys2Proof.Machine.execAprofLock a tables s
  | .agentReset a => Sys2Proof.Machine.execAgentReset a s
  | .agentFence a => Sys2Proof.Machine.execAgentFence a s
  | .markMissing a => Sys2Proof.Machine.execMarkMissing a s
  | .job a h first key threshold methods map => Sys2Proof.Machine.execJob a h first key threshold methods map s
  | .endJob a h => Sys2Proof.Machine.execEndJob a h s
  | .commit a h step key threshold => Sys2Proof.Machine.execCommit a h step key threshold s
  | .replay a h step key threshold => Sys2Proof.Machine.execReplay a h step key threshold s
  | .cut a h id step copy => Sys2Proof.Machine.execCut a h id step copy s
  | .pull a h items => Sys2Proof.Machine.execPull a h items s
  | .restore a h step => Sys2Proof.Machine.execRestore a h step s
  | .shard a h record off data entry => Sys2Proof.Machine.execShard a h record off data entry s
  | .resume a h id key threshold => Sys2Proof.Machine.execResume a h id key threshold s
  | .resid a h gen add remove => Sys2Proof.Machine.execResid a h gen add remove s
  | .timeMsg a h sec ns frac latency => Sys2Proof.Machine.execTimeMsg a h sec ns frac latency s
  | .regRequest a h op off v dma => Sys2Proof.Machine.execRegRequest a h op off v dma s
  | .regResponse a h req ans => Sys2Proof.Machine.execRegResponse a h req ans s
  | .xput a h record off last token data entry => Sys2Proof.Machine.execXput a h record off last token data entry s
  | .ack e a m => Sys2Proof.Machine.execAck e a m s
  | .mark a h body => Sys2Proof.Machine.execMark a h body s
  | .tile a h body => Sys2Proof.Machine.execTile a h body s
  | .opnd a h id block => Sys2Proof.Machine.execOpnd a h id block s
  | .cutack a h id status => Sys2Proof.Machine.execCutack a h id status s
  | .digest a h record digest => Sys2Proof.Machine.execDigest a h record digest s
  | .shardUp a h record off data => Sys2Proof.Machine.execShardUp a h record off data s
  | .fault a h status first time => Sys2Proof.Machine.execFault a h status first time s
  | .decl a h body => Sys2Proof.Machine.execDecl a h body s
  | .xrdy a h record => Sys2Proof.Machine.execXrdy a h record s
  | .verdictOverdue a => Sys2Proof.Machine.execVerdictOverdue a s
  | .hashes h job step round pairs => Sys2Proof.Machine.execHashes h job step round pairs s
  | .steprep h job step round status covered seeds whole => Sys2Proof.Machine.execSteprep h job step round status covered seeds whole s
  | .stepdecCommit h job step => Sys2Proof.Machine.execStepdecCommit h job step s
  | .stepdecReplay h job step round seeds whole => Sys2Proof.Machine.execStepdecReplay h job step round seeds whole s
  | .stepdecAbandon h job step seeds whole => Sys2Proof.Machine.execStepdecAbandon h job step seeds whole s
  | .vlogRead => Sys2Proof.Machine.execVlogRead s
  | .flowRead ecc => Sys2Proof.Machine.execFlowRead s ecc
  | .cutreq h job step copy gen => Sys2Proof.Machine.execCutreq h job step copy gen s
  | .cutWait job => Sys2Proof.Machine.execCutWait job s
  | .cutrep h job step code gen count => Sys2Proof.Machine.execCutrep h job step code gen count s
  | .stripe h job gen slot role k row data => Sys2Proof.Machine.execStripe h job gen slot role k row data s
  | .stripeack h job gen slot role k row result => Sys2Proof.Machine.execStripeack h job gen slot role k row result s
  | .extentComplete h job gen failed tables => Sys2Proof.Machine.execExtentComplete h job gen failed tables s
  | .genrep h job step code gen => Sys2Proof.Machine.execGenrep h job step code gen s
  | .gencommit h job step gen => Sys2Proof.Machine.execGencommit h job step gen s
  | .gencommitDiscard h job step gen => Sys2Proof.Machine.execGencommitDiscard h job step gen s
  | .mirror h job step acc source nFlow itemBytes words => Sys2Proof.Machine.execMirror h job step acc source nFlow itemBytes words s
  | .mirrorAck h job step acc => Sys2Proof.Machine.execMirrorAck h job step acc s
  | .mirrorLost job step acc => Sys2Proof.Machine.execMirrorLost job step acc s
  | .pin h job step slot => Sys2Proof.Machine.execPin h job step slot s
  | .restreq h job step bad => Sys2Proof.Machine.execRestreq h job step bad s
  | .restdone h job step code count => Sys2Proof.Machine.execRestdone h job step code count s
  | .restcommit h job step => Sys2Proof.Machine.execRestcommit h job step s
  | .crecRead => Sys2Proof.Machine.execCrecRead s
  | .flit port hdr payload crc frame => Sys2Proof.Machine.execFlit port hdr payload crc frame s
  | .nak port ack => Sys2Proof.Machine.execNak port ack s
  | .hello port h => Sys2Proof.Machine.execHello port h s
  | .helloSend => Sys2Proof.Machine.execHelloSend s
  | .keyx port k => Sys2Proof.Machine.execKeyx port k s
  | .rekey port => Sys2Proof.Machine.execRekey port s
  | .forward h dst kind hop indirect body => Sys2Proof.Machine.execForward h dst kind hop indirect body s
  | .load slot util => Sys2Proof.Machine.execLoad slot util s
  | .loadSend util => Sys2Proof.Machine.execLoadSend util s
  | .moveData h m => Sys2Proof.Machine.execMoveData h m s
  | .portRetrain port => Sys2Proof.Machine.execPortRetrain port s
  | .portLoopback port => Sys2Proof.Machine.execPortLoopback port s
  | .hb h heard digest => Sys2Proof.Machine.execHb h heard digest s
  | .hbSend => Sys2Proof.Machine.execHbSend s
  | .ghb h rack leader founding members digest => Sys2Proof.Machine.execGhb h rack leader founding members digest s
  | .ghbSend => Sys2Proof.Machine.execGhbSend s
  | .suspect chip => Sys2Proof.Machine.execSuspect chip s
  | .rackSuspect rack => Sys2Proof.Machine.execRackSuspect rack s
  | .viewMismatch => Sys2Proof.Machine.execViewMismatch s
  | .viewreq h => Sys2Proof.Machine.execViewreq h s
  | .view h entries decides same => Sys2Proof.Machine.execView h entries decides same s
  | .propose h pod founding epoch changes crec => Sys2Proof.Machine.execPropose h pod founding epoch changes crec s
  | .vote h voter refuse epoch yes => Sys2Proof.Machine.execVote h voter refuse epoch yes s
  | .decide h pod founding yes voters epoch changes crec => Sys2Proof.Machine.execDecide h pod founding yes voters epoch changes crec s
  | .clauseTimeout => Sys2Proof.Machine.execClauseTimeout s
  | .backoffEnd => Sys2Proof.Machine.execBackoffEnd s
  | .joinreq h operator => Sys2Proof.Machine.execJoinreq h operator s
  | .joinreqSend => Sys2Proof.Machine.execJoinreqSend s
  | .foundingTimeout => Sys2Proof.Machine.execFoundingTimeout s
  | .fenced h => Sys2Proof.Machine.execFenced h s
  | .isolation pod => Sys2Proof.Machine.execIsolation pod s
  | .withdrawRequest => Sys2Proof.Machine.execWithdrawRequest s
  | .withdraw h => Sys2Proof.Machine.execWithdraw h s
  | .rejoin => Sys2Proof.Machine.execRejoin s
  | .holdoffEnd chip => Sys2Proof.Machine.execHoldoffEnd chip s
  | .evidence h change => Sys2Proof.Machine.execEvidence h change s
  | .jobStall a => Sys2Proof.Machine.execJobStall a s
  | .stepTreeStall job child => Sys2Proof.Machine.execStepTreeStall job child s
  | .agentPortTimeout a => Sys2Proof.Machine.execAgentPortTimeout a s
  | .jobSubmit dma => Sys2Proof.Machine.execJobSubmit dma s
  | .jobEndRequest => Sys2Proof.Machine.execJobEndRequest s
  | .jobstart h job adm seq total root data => Sys2Proof.Machine.execJobstart h job adm seq total root data s
  | .joback h job adm covered status fail => Sys2Proof.Machine.execJoback h job adm covered status fail s
  | .jobgo h job adm => Sys2Proof.Machine.execJobgo h job adm s
  | .jobgoAbort h job adm result => Sys2Proof.Machine.execJobgoAbort h job adm result s
  | .reparent h job adm orphan held => Sys2Proof.Machine.execReparent h job adm orphan held s
  | .jobend h job adm => Sys2Proof.Machine.execJobend h job adm s
  | .jobackTimeout job child => Sys2Proof.Machine.execJobackTimeout job child s
  | .orphanTimeout job => Sys2Proof.Machine.execOrphanTimeout job s
  | .startTimeout job => Sys2Proof.Machine.execStartTimeout job s
  | .hazard h job tray => Sys2Proof.Machine.execHazard h job tray s
  | .hazardSend => Sys2Proof.Machine.execHazardSend s
  | .healthDecay => Sys2Proof.Machine.execHealthDecay s
  | .adoptPrepare h job pairs => Sys2Proof.Machine.execAdoptPrepare h job pairs s
  | .adoptCommit h job b pairs => Sys2Proof.Machine.execAdoptCommit h job b pairs s
  | .adoptCancel h job pairs => Sys2Proof.Machine.execAdoptCancel h job pairs s
  | .adoptack h job index status => Sys2Proof.Machine.execAdoptack h job index status s
  | .spareReady => Sys2Proof.Machine.execSpareReady s
  | .adoptWait => Sys2Proof.Machine.execAdoptWait s
  | .appoLoad dma => Sys2Proof.Machine.execAppoLoad dma s
  | .progWait slot => Sys2Proof.Machine.execProgWait slot s
  | .standinStepEnd slot => Sys2Proof.Machine.execStandinStepEnd slot s
  | .standinUpdateEnd slot => Sys2Proof.Machine.execStandinUpdateEnd slot s
  | .xrelay h job record off token data => Sys2Proof.Machine.execXrelay h job record off token data s
  | .handover h job acc nFlow itemBytes words digestOk => Sys2Proof.Machine.execHandover h job acc nFlow itemBytes words digestOk s
  | .drillTime => Sys2Proof.Machine.execDrillTime s
  | .drillLen job => Sys2Proof.Machine.execDrillLen job s
  | .epochPulse => Sys2Proof.Machine.execEpochPulse s
  | .epochMissing => Sys2Proof.Machine.execEpochMissing s
  | .rackTimeFrame port w => Sys2Proof.Machine.execRackTimeFrame port w s
  | .rackTimeFault => Sys2Proof.Machine.execRackTimeFault s
  | .rackFrameTimeout => Sys2Proof.Machine.execRackFrameTimeout s
  | .syncTimeout => Sys2Proof.Machine.execSyncTimeout s
  | .sync port h src arrival sec ns corr => Sys2Proof.Machine.execSync port h src arrival sec ns corr s
  | .syncSend => Sys2Proof.Machine.execSyncSend s
  | .pdelaySend => Sys2Proof.Machine.execPdelaySend s
  | .pdelayReq port h turn => Sys2Proof.Machine.execPdelayReq port h turn s
  | .pdelayResp port h trip turn => Sys2Proof.Machine.execPdelayResp port h trip turn s
  | .announce h src => Sys2Proof.Machine.execAnnounce h src s
  | .holdover => Sys2Proof.Machine.execHoldover s
  | .refMissing => Sys2Proof.Machine.execRefMissing s
  | .refReturn => Sys2Proof.Machine.execRefReturn s
  | .timeRearm => Sys2Proof.Machine.execTimeRearm s
  | .agentTimeSend => Sys2Proof.Machine.execAgentTimeSend s
  | .tenseOverrun acc => Sys2Proof.Machine.execTenseOverrun acc s
  | .testSlot c => Sys2Proof.Machine.execTestSlot c s
  | .pulseArm n => Sys2Proof.Machine.execPulseArm n s
  | .pulseFire n => Sys2Proof.Machine.execPulseFire n s
  | .pulseEnd n => Sys2Proof.Machine.execPulseEnd n s
  | .captureEdge c rising => Sys2Proof.Machine.execCaptureEdge c rising s
  | .captureRead c => Sys2Proof.Machine.execCaptureRead c s
  | .fltRelease ecc => Sys2Proof.Machine.execFltRelease ecc s
  | .engineHang p half unit e => Sys2Proof.Machine.execEngineHang p half unit e s
  | .hubWatchdog ecc => Sys2Proof.Machine.execHubWatchdog ecc s
  | .bridgeFail ecc => Sys2Proof.Machine.execBridgeFail ecc s
  | .clkFault p => Sys2Proof.Machine.execClkFault p s
  | .autoReset p => Sys2Proof.Machine.execAutoReset p s
  | .partitionResetDone p f r => Sys2Proof.Machine.execPartitionResetDone p f r s
  | .tileReset t => Sys2Proof.Machine.execTileReset t s
  | .partitionRetire p => Sys2Proof.Machine.execPartitionRetire p s
  | .twoOutWait => Sys2Proof.Machine.execTwoOutWait s
  | .suspectRunEnd p hung => Sys2Proof.Machine.execSuspectRunEnd p hung s
  | .replayMs p => Sys2Proof.Machine.execReplayMs p s
  | .vfDisable => Sys2Proof.Machine.execVfDisable s
  | .vfFlr f => Sys2Proof.Machine.execVfFlr f s
  | .coreSelftestDone n pass => Sys2Proof.Machine.execCoreSelftestDone n pass s
  | .coreResyncDone n => Sys2Proof.Machine.execCoreResyncDone n s
  | .comparatorCopy n seq m selfOk => Sys2Proof.Machine.execComparatorCopy n seq m selfOk s
  | .singleCopy seq => Sys2Proof.Machine.execSingleCopy seq s
  | .takeover acked => Sys2Proof.Machine.execTakeover acked s
  | .pairSelftestDone ok0 ok1 => Sys2Proof.Machine.execPairSelftestDone ok0 ok1 s
  | .coreOffline n => Sys2Proof.Machine.execCoreOffline n s
  | .coreRetry n => Sys2Proof.Machine.execCoreRetry n s
  | .standbySlice ok passEnds => Sys2Proof.Machine.execStandbySlice ok passEnds s
  | .cmpHeld => Sys2Proof.Machine.execCmpHeld s
  | .snapNow => Sys2Proof.Machine.execSnapNow s
  | .snapTime => Sys2Proof.Machine.execSnapTime s
  | .eventUpdate ecc => Sys2Proof.Machine.execEventUpdate ecc s
  | .tokenAdd code => Sys2Proof.Machine.execTokenAdd code s
  | .evrHold => Sys2Proof.Machine.execEvrHold s
  | .evrHoldExpire => Sys2Proof.Machine.execEvrHoldExpire s
  | .evrClear => Sys2Proof.Machine.execEvrClear s
  | .evrCurWrite code => Sys2Proof.Machine.execEvrCurWrite code s
  | .evrAdvance => Sys2Proof.Machine.execEvrAdvance s
  | .globalStop => Sys2Proof.Machine.execGlobalStop s
  | .stopPin => Sys2Proof.Machine.execStopPin s
  | .stopResume => Sys2Proof.Machine.execStopResume s
  | .scanSelect part chain => Sys2Proof.Machine.execScanSelect part chain s
  | .scanRead => Sys2Proof.Machine.execScanRead s
  | .kscanSel v => Sys2Proof.Machine.execKscanSel v s
  | .kscanData n => Sys2Proof.Machine.execKscanData n s
  | .extest v => Sys2Proof.Machine.execExtest v s
  | .idcode => Sys2Proof.Machine.execIdcode s
  | .samplePreload v => Sys2Proof.Machine.execSamplePreload v s
  | .bypass code n v => Sys2Proof.Machine.execBypass code n v s
  | .tapReset => Sys2Proof.Machine.execTapReset s
  | .packPush => Sys2Proof.Machine.execPackPush s
  | .packDiscard => Sys2Proof.Machine.execPackDiscard s
  | .pack h chunk total digest data => Sys2Proof.Machine.execPack h chunk total digest data s
  | .packack h digest result => Sys2Proof.Machine.execPackack h digest result s
  | .packResend dst chunk => Sys2Proof.Machine.execPackResend dst chunk s
  | .planStart p => Sys2Proof.Machine.execPlanStart p s
  | .planNow p => Sys2Proof.Machine.execPlanNow p s
  | .planComplete p r => Sys2Proof.Machine.execPlanComplete p r s
  | .planLate p => Sys2Proof.Machine.execPlanLate p s
  | .monitorSample p slacks edges => Sys2Proof.Machine.execMonitorSample p slacks edges s
  | .nrgRead => Sys2Proof.Machine.execNrgRead s
  | .progRead => Sys2Proof.Machine.execProgRead s
  | .i3cRead index => Sys2Proof.Machine.execI3cRead index s
  | .entdaa addr => Sys2Proof.Machine.execEntdaa addr s
  | .setdasa static_ dynamic => Sys2Proof.Machine.execSetdasa static_ dynamic s
  | .rstdaa => Sys2Proof.Machine.execRstdaa s
  | .getpid => Sys2Proof.Machine.execGetpid s
  | .getbcr => Sys2Proof.Machine.execGetbcr s
  | .getdcr => Sys2Proof.Machine.execGetdcr s
  | .getstatus => Sys2Proof.Machine.execGetstatus s
  | .drainReportRead => Sys2Proof.Machine.execDrainReportRead s
  | .pinAck h job step slot => Sys2Proof.Machine.execPinAck h job step slot s
  | .agentResetTimeout a => Sys2Proof.Machine.execAgentResetTimeout a s

end Sys2Proof.Machine
end

