-- ==== Sys2Proof/Machine/Idle.lean ====
section
/-! DEFINITION. What the block does when no command waits: its clocks run (R37, R341, R342) and what is due is done (log entries 18
and 20). -/

namespace Sys2Proof.Machine

/-- Reference cycles of an idle step: five, which are 32 hub cycles and 32 agent cycles (log entry 20). -/
def idleRef : Nat := 5

/-- Hub cycles, and agent cycles, of an idle step. -/
def idleCycles : Nat := 32

/-- The time base and the AON counter advance by the reference cycles of an idle step (R52, R341, R342). -/
def Dev.runClocks (d : Dev) : Dev :=
  { d with time := d.time + idleRef * increment (d.get Reg.TIME_RATE_adj), aon := d.aon + idleRef }

/-- A flit waits for credit on a port (R280, R281, R288). -/
def Dev.creditStalled (d : Dev) (i : Nat) : Bool :=
  d.linkStands i && (d.port i).queue.any fun m => !(d.port i).credit i m.vc m.level

/-- A utilisation counter of cycles advances while its condition holds. -/
def Dev.countCycles (d : Dev) (holds : Bool) (c : Fld) : Dev := if holds then d.addU c idleCycles else d

/-- The counters of cycles in the hub (R60, R288): single-feed operation, the limiter, and flits that wait for credit. -/
def Dev.countHub (d : Dev) : Dev :=
  if !d.pwr.powered.contains .hub then d
  else
    let d := d.countCycles (d.flag Reg.PWR_FEED_STATUS_single_feed) Cnt.PWR_CNT_SINGLE
    let d := d.countCycles d.pwr.limited Cnt.PWR_CNT_LIMIT
    (List.range 40).foldl (fun (d : Dev) i => d.countCycles (d.creditStalled i) (Cnt.PORT_CNT_CREDIT_STALL i)) d

/-- The counters of agent cycles in state 2 gated and with the tap withheld (R173, R185). -/
def Dev.countAgents (d : Dev) : Dev :=
  (List.range 8).foldl (fun (d : Dev) a =>
    (d.countCycles (d.get (Reg.ASTEP_STATE_state a) == 2) (Cnt.ASTEP_CNT_GATE_HOLD a)).countCycles ((d.agent a).tap != [])
      (Cnt.ASMP_CNT_TAP_STALL a)) d

/-- An idle step. -/
def Dev.idle (d : Dev) : Dev := ((d.runClocks.countHub).countAgents).settle

end Sys2Proof.Machine
end

