-- ==== Sys2Proof/WellFormed.lean ====
section
/-! DEFINITION. Which commands are well formed: what the spec says of an operand beyond its type. The machine gives every command a
meaning, well formed or not; a command that is not well formed is one that the spec's senders never send. -/

namespace Sys2Proof

/-- A number is a multiple of a size (R33, R35). -/
def aligned (n off : Nat) : Bool := off % n == 0

/-- A nanoseconds field is below a second (R341). -/
def subSecond (ns : Nat) : Bool := decide (ns < 1000000000)

/-- The most records that a PULL names (R169). -/
def maxPull : Nat := 512

/-- The most data that SHARD and XPUT carry: 2 MiB (R169). -/
def maxData : Nat := 2 ^ 21

/-- The words of a rack time frame (R344). -/
def frameWords : Nat := 6

/-- A requester exists: virtual functions are numbered from 1 (R40). -/
def Requester.exists : Requester → Bool
  | .host | .pair | .remote _ | .acc _ => true
  | .vf f => f.val != 0

/-- A power domain exists (R51). -/
def Domain.exists : Domain → Bool
  | .aon | .hub | .phyA | .phyG | .phyX => true
  | .mgmt n | .tile n | .sram n => decide (n < 2)
  | .part n | .phyD n => decide (n < 16)

/-- A command is well formed. -/
def Instr.wf : Instr → Bool
  | .registerWrite who off _ _ => who.exists && aligned 8 off.toNat
  | .accessError _ off size => !((size == 4 || size == 8) && aligned size off.toNat)
  | .lowHalfRead r => aligned (if r.wide then 8 else 4) r.off.toNat && (!r.bell || r.off.toNat / 2 ^ 18 == 0)
  | .lowHalfWrite off _ _ => aligned 8 off.toNat
  | .highHalfWrite off _ _ => !aligned 8 off.toNat && aligned 4 off.toNat
  | .raReq _ _ _ addr _ => aligned 8 addr.toNat
  | .powerGood x => x.exists
  | .pull _ _ items => Nat.ble items.length maxPull
  | .shard _ _ _ _ data _ => Nat.ble data.length maxData
  | .timeMsg _ _ _ ns _ _ => subSecond ns.toNat
  | .regRequest _ _ _ off _ _ => aligned 8 off.toNat
  | .xput _ _ _ _ _ _ data _ => Nat.ble data.length maxData
  | .shardUp _ _ _ _ data => Nat.ble data.length maxData
  | .rackTimeFrame _ w => w.length == frameWords
  | .sync _ _ _ _ _ ns _ => subSecond ns.toNat
  | .timestampLatch .. | .pageEnable .. | .pageDisable .. | .resetReq .. | .drainIdle .. | .drainLimit .. | .fltClear ..
  | .fltForce .. | .snap .. | .cntClear .. | .raRead .. | .raWrite .. | .raRsp .. | .raTimeout .. | .bar2Access .. | .feedLost ..
  | .feedAboveThreshold .. | .feedBelowThreshold .. | .returnHold .. | .rearm .. | .limiterWindow .. | .overEnvelope ..
  | .burstEnd .. | .powerOn .. | .pmbusPoll .. | .powerLoss .. | .vddqLow .. | .thermalSample .. | .idleEnter ..
  | .idleEntryDone .. | .wakeCmp .. | .wakePin .. | .i3cWake .. | .perstAssert .. | .perstDeassert .. | .hotReset ..
  | .functionReset .. | .linkTrained .. | .fwlGo .. | .fwlAbort .. | .fwlFetchDone .. | .verifyDone .. | .startTests ..
  | .packWait .. | .testsDone .. | .ddrTrained .. | .signalDetect .. | .trainingPhaseTimeout .. | .trainingAttemptEnd ..
  | .laneSilent .. | .linkDown .. | .discWait .. | .timeStageEnd .. | .bootResume .. | .rollbackAdvance .. | .attestGo ..
  | .attestDone .. | .coreFail .. | .switchInDone .. | .ctxCreate .. | .ctxEnable .. | .ctxDisable .. | .ctxErrClear ..
  | .ctxDestroy .. | .ctxConfigWrite .. | .ctxDrainEnd .. | .quarantineEnd .. | .requestAbandon .. | .doorbell ..
  | .commandDispatch .. | .commandEnd .. | .mat .. | .chain .. | .red .. | .move .. | .check .. | .wait .. | .signal ..
  | .waitTimeout .. | .threadIssue .. | .preempt .. | .holdOverrun .. | .pageFill .. | .reserveWrite .. | .ftqEntryFree ..
  | .profSelWrite .. | .profW0Write .. | .profInstall .. | .coefDataWrite .. | .coefCommit .. | .coefInvalidate ..
  | .invalidationDone .. | .tileTap .. | .stepEnd .. | .updateDone .. | .holdAck .. | .copyDone .. | .cmdStart .. | .cmdEnd ..
  | .accFault .. | .progressPulse .. | .agentEngineHang .. | .cutAbandon .. | .retransmit .. | .portLost .. | .agentTimeHoldover ..
  | .rearmTime .. | .aprofLock .. | .agentReset .. | .agentFence .. | .markMissing .. | .job .. | .endJob .. | .commit ..
  | .replay .. | .cut .. | .restore .. | .resume .. | .resid .. | .regResponse .. | .ack .. | .mark .. | .tile .. | .opnd ..
  | .cutack .. | .digest .. | .fault .. | .decl .. | .xrdy .. | .verdictOverdue .. | .hashes .. | .steprep .. | .stepdecCommit ..
  | .stepdecReplay .. | .stepdecAbandon .. | .vlogRead .. | .flowRead .. | .cutreq .. | .cutWait .. | .cutrep .. | .stripe ..
  | .stripeack .. | .extentComplete .. | .genrep .. | .gencommit .. | .gencommitDiscard .. | .mirror .. | .mirrorAck ..
  | .mirrorLost .. | .pin .. | .restreq .. | .restdone .. | .restcommit .. | .crecRead .. | .flit .. | .nak .. | .hello ..
  | .helloSend .. | .keyx .. | .rekey .. | .forward .. | .load .. | .loadSend .. | .moveData .. | .portRetrain ..
  | .portLoopback .. | .hb .. | .hbSend .. | .ghb .. | .ghbSend .. | .suspect .. | .rackSuspect .. | .viewMismatch .. | .viewreq ..
  | .view .. | .propose .. | .vote .. | .decide .. | .clauseTimeout .. | .backoffEnd .. | .joinreq .. | .joinreqSend ..
  | .foundingTimeout .. | .fenced .. | .isolation .. | .withdrawRequest .. | .withdraw .. | .rejoin .. | .holdoffEnd ..
  | .evidence .. | .jobStall .. | .stepTreeStall .. | .agentPortTimeout .. | .jobSubmit .. | .jobEndRequest .. | .jobstart ..
  | .joback .. | .jobgo .. | .jobgoAbort .. | .reparent .. | .jobend .. | .jobackTimeout .. | .orphanTimeout .. | .startTimeout ..
  | .hazard .. | .hazardSend .. | .healthDecay .. | .adoptPrepare .. | .adoptCommit .. | .adoptCancel .. | .adoptack ..
  | .spareReady .. | .adoptWait .. | .appoLoad .. | .progWait .. | .standinStepEnd .. | .standinUpdateEnd .. | .xrelay ..
  | .handover .. | .drillTime .. | .drillLen .. | .epochPulse .. | .epochMissing .. | .rackTimeFault .. | .rackFrameTimeout ..
  | .syncTimeout .. | .syncSend .. | .pdelaySend .. | .pdelayReq .. | .pdelayResp .. | .announce .. | .holdover .. | .refMissing ..
  | .refReturn .. | .timeRearm .. | .agentTimeSend .. | .tenseOverrun .. | .testSlot .. | .pulseArm .. | .pulseFire ..
  | .pulseEnd .. | .captureEdge .. | .captureRead .. | .fltRelease .. | .engineHang .. | .hubWatchdog .. | .bridgeFail ..
  | .clkFault .. | .autoReset .. | .partitionResetDone .. | .tileReset .. | .partitionRetire .. | .twoOutWait ..
  | .suspectRunEnd .. | .replayMs .. | .vfDisable .. | .vfFlr .. | .coreSelftestDone .. | .coreResyncDone .. | .comparatorCopy ..
  | .singleCopy .. | .takeover .. | .pairSelftestDone .. | .coreOffline .. | .coreRetry .. | .standbySlice .. | .cmpHeld ..
  | .snapNow .. | .snapTime .. | .eventUpdate .. | .tokenAdd .. | .evrHold .. | .evrHoldExpire .. | .evrClear .. | .evrCurWrite ..
  | .evrAdvance .. | .globalStop .. | .stopPin .. | .stopResume .. | .scanSelect .. | .scanRead .. | .kscanSel .. | .kscanData ..
  | .extest .. | .idcode .. | .samplePreload .. | .bypass .. | .tapReset .. | .packPush .. | .packDiscard .. | .pack ..
  | .packack .. | .packResend .. | .planStart .. | .planNow .. | .planComplete .. | .planLate .. | .monitorSample .. | .nrgRead ..
  | .progRead .. | .i3cRead .. | .entdaa .. | .setdasa .. | .rstdaa .. | .getpid .. | .getbcr .. | .getdcr .. | .getstatus ..
  | .drainReportRead .. | .pinAck .. | .agentResetTimeout .. => true

/-- Every command of a queue is well formed. -/
def wfQueue (q : List Instr) : Bool := q.all Instr.wf

end Sys2Proof
end

