-- ==== Sys2Proof/Safety.lean ====
section
/-! DEFINITION. What counts as a sound state and a safe step, in the terms the statements use: the block's memories are in
their canonical form, and the queue holds well-formed commands. -/

namespace Sys2Proof.Machine

/-- The three memories of the block are in canonical form: managed SRAM and reserve, LPDDR4X, and the memory of the contexts. -/
def Dev.memWf (d : Dev) : Bool := Memory.wf d.sram && Memory.wf d.lpd && Memory.wf d.ctxMem

/-- Every command that waits is well formed. -/
def State.queueWf (s : State) : Bool := wfQueue s.pending

/-- A sound state: memories canonical and every waiting command well formed. -/
def State.sound (s : State) : Bool := s.dev.memWf && s.queueWf

/-- The state with another device and the same queue. -/
def State.withDev (s : State) (d : Dev) : State := { s with dev := d }

/-- An outcome is a next state with a property: no fault and no refusal. -/
def Safe (o : Host.Outcome State Fault Refusal) (P : State → Prop) : Prop :=
  match o with
  | .next s => P s
  | .fault _ => False
  | .refused _ => False

/-- The state that a run of n steps from a state reaches, when no step stops. -/
def runs : Nat → State → Option State
  | 0, s => some s
  | n + 1, s =>
    match step s with
    | .next s' => runs n s'
    | .fault _ => none
    | .refused _ => none

/-- The state that commands leave when they run one after another on a state, with its own queue untouched. -/
def runAll : List Instr → State → Option State
  | [], s => some s
  | c :: cs, s =>
    match exec c s with
    | .next s' => runAll cs s'
    | .fault _ => none
    | .refused _ => none

/-- The register table is in canonical form: keys strictly rising, so that equal registers are equal data. -/
def Dev.regsWf (d : Dev) : Bool :=
  (d.regs.zip (d.regs.drop 1)).all fun e => decide (e.1.1 < e.2.1)

/-- The header that R302 checks of a message between controllers, where it does check one: not of JOINREQ, of the founding messages (a VOTE
answers a founding PROPOSE while the proposal here is one), of DECIDE and VIEW where this controller is no member, nor of a message that only passes
through. RA_REQ is answered as well when it is dropped (R46). -/
def checkedHeader (member founding : Bool) : Instr → Option FabHdr
  | .raRsp h _ _ _ _ => some h
  | .hashes h _ _ _ _ => some h
  | .steprep h _ _ _ _ _ _ _ => some h
  | .stepdecCommit h _ _ => some h
  | .stepdecReplay h _ _ _ _ _ => some h
  | .stepdecAbandon h _ _ _ _ => some h
  | .cutreq h _ _ _ _ => some h
  | .cutrep h _ _ _ _ _ => some h
  | .stripe h _ _ _ _ _ _ _ => some h
  | .stripeack h _ _ _ _ _ _ _ => some h
  | .extentComplete h _ _ _ _ => some h
  | .genrep h _ _ _ _ => some h
  | .gencommit h _ _ _ => some h
  | .gencommitDiscard h _ _ _ => some h
  | .mirror h _ _ _ _ _ _ _ => some h
  | .mirrorAck h _ _ _ => some h
  | .pin h _ _ _ => some h
  | .restreq h _ _ _ => some h
  | .restdone h _ _ _ _ => some h
  | .restcommit h _ _ => some h
  | .moveData h _ => some h
  | .hb h _ _ => some h
  | .ghb h _ _ f _ _ => if f then none else some h
  | .viewreq h => some h
  | .view h _ _ _ => if member then some h else none
  | .propose h _ f _ _ _ => if f then none else some h
  | .vote h _ _ _ _ => if founding then none else some h
  | .decide h _ f _ _ _ _ _ => if f || !member then none else some h
  | .fenced h => some h
  | .withdraw h => some h
  | .evidence h _ => some h
  | .jobstart h _ _ _ _ _ _ => some h
  | .joback h _ _ _ _ _ => some h
  | .jobgo h _ _ => some h
  | .jobgoAbort h _ _ _ => some h
  | .reparent h _ _ _ _ => some h
  | .jobend h _ _ => some h
  | .hazard h _ _ => some h
  | .adoptPrepare h _ _ => some h
  | .adoptCommit h _ _ _ => some h
  | .adoptCancel h _ _ => some h
  | .adoptack h _ _ _ => some h
  | .xrelay h _ _ _ _ _ => some h
  | .handover h _ _ _ _ _ _ => some h
  | .pack h _ _ _ _ => some h
  | .packack h _ _ => some h
  | .pinAck h _ _ _ => some h
  | _ => none

end Sys2Proof.Machine
end

