-- ==== Sys2Proof/Certificates/Slice0/Obligations.lean ====
section
/-! DEFINITION. The statements for the provers. -/

open Sys2Proof Sys2Proof.Machine

/-- A step takes the command at the front of the queue and is that command's effect on the state with the queue's rest (the model's queue:
the spec gives the block commands and no order of its own among senders; log entry 20). -/
def Obligations.StepRunsFrontCommand : Prop :=
  ∀ (c : Instr) (s : State), step (s.push c) = exec c s

/-- On an empty queue the block idles: the time base and the AON counter advance by five reference cycles, the counters of cycles count, and
what is due is done; the queue stays empty (the model's choice of the idle step, log entry 20). -/
def Obligations.IdleStepRunsClocks : Prop :=
  ∀ (s : State), s.pending = [] →
    step s = .next { s with dev := ({ s.dev with
      time := s.dev.time + 5 * increment (s.dev.get Reg.TIME_RATE_adj), aon := s.dev.aon + 5 }.countHub.countAgents).settle }

/-- Every command of the table completes in every state: it answers a next state, changes only the device, and does so alike whatever
commands wait behind it. -/
def Obligations.EveryCommandCompletes : Prop :=
  ∀ (c : Instr) (d : Dev), ∃ d' : Dev, ∀ q : List Instr, exec c ⟨d, q⟩ = .next ⟨d', q⟩

/-- A run of as many steps as commands wait in front runs exactly those, in order, and leaves the commands behind them waiting. -/
def Obligations.QueueRunsInOrder : Prop :=
  ∀ (cs rest : List Instr) (d : Dev), ∃ d' : Dev,
    runAll cs ⟨d, []⟩ = some ⟨d', []⟩ ∧ runs cs.length ⟨d, cs ++ rest⟩ = some ⟨d', rest⟩

/-- From every state whose waiting commands are well formed, a step leads to such a state. -/
def Obligations.QueueStaysWellFormed : Prop :=
  ∀ (s s' : State), s.queueWf = true → step s = .next s' → s'.queueWf = true

/-- The state after reset meets the invariants that every step keeps: the memories and the register table are canonical, and the empty queue
is well formed. -/
def Obligations.ResetIsSound : Prop :=
  State.reset.sound = true ∧ State.reset.dev.regsWf = true ∧ State.reset.pending = []

/-- In a memory in canonical form a byte written is read back, every other byte reads as before, and the memory stays canonical. -/
def Obligations.MemoryReadsBackWhatWasWritten : Prop :=
  ∀ (m : List Host.Cell) (a : Nat) (v : Byte), Memory.wf m = true →
    Memory.wf (Memory.write a v m) = true ∧
    ∀ a' : Nat, Memory.read a' (Memory.write a v m) = if a' = a then v else Memory.read a' m

/-- From every state whose memories (class C SRAM and reserve, LPDDR4X, the contexts' memory) are in canonical form, whatever command runs
or none, the next state's memories are: addresses strictly rising and no blank byte listed, so that equal memories are equal data. -/
def Obligations.MemoriesStayCanonical : Prop :=
  ∀ (s s' : State), s.dev.memWf = true → step s = .next s' → s'.dev.memWf = true

/-- Whatever a step does (a reset and a loss of power among them), the messages, interrupts, host writes and pin levels that have left the
block are a prefix of those that have left it afterwards. -/
def Obligations.WhatLeftTheBlockStaysSent : Prop :=
  ∀ (s s' : State), step s = .next s' → s.dev.out <+: s'.dev.out

/-- No step, a reset or a loss of power included, takes the counter of free values back, so that a free value once used is never the value
of another open point (the model's own field, log entry 1). -/
def Obligations.FreeValuesAreNeverReused : Prop :=
  ∀ (s s' : State), step s = .next s' → s.dev.fresh ≤ s'.dev.fresh

/-- From every state whose register table lists its keys strictly rising, whatever command runs or none, the next state's table does: each
register field has one home and one value. -/
def Obligations.RegistersStayCanonical : Prop :=
  ∀ (s s' : State), s.dev.regsWf = true → step s = .next s' → s'.dev.regsWf = true

/-- FEED_LOST, FEED_ABOVE_THRESHOLD, FEED_BELOW_THRESHOLD, RETURN_HOLD and REARM move a feed through its states: a good feed that is lost
outside Idle-Keep is absent, counted and raised, single-feed operation begins and class G is paused; an absent feed above threshold
returns; a returning feed below threshold is absent again; with both absent the package loses power (Dev.feedsCheck); return_hold ends in
good or, at flap_limit losses within 600 s, in lockout; rearm clears the history. -/
def Obligations.FeedStateMachine : Prop :=
  (∀ (s : State), s.dev.get (feedState .a) = 1 → s.dev.get Reg.AON_IDLE_STATUS_state ≠ 2 →
    exec (.feedLost .a) s = .next (s.withDev (
      let d := (s.dev.put (feedState .a) 0).setLosses .a (s.dev.losses .a ++ [s.dev.nowUs]);
      let d := ((d.incE Cnt.PWR_CNT_FEED_A_LOSS).raise Src.PWR_feed_a_lost).put Reg.PWR_FEED_STATUS_single_feed 1;
      let d := d.pauseG;
      ({ d with pwr := { d.pwr with burst := false } }.coreUnpowered 0).feedsCheck.postWrites))) ∧
  (∀ (s : State), s.dev.get (feedState .b) = 1 → s.dev.get Reg.AON_IDLE_STATUS_state = 2 →
    exec (.feedLost .b) s = .next (s.withDev ((((s.dev.put (feedState .b) 0).setLosses .b (s.dev.losses .b ++ [s.dev.nowUs])).put Reg.AON_WAKE_CAUSE_feed_b_event 1).feedsCheck.postWrites))) ∧
  (∀ (f : Feed) (s : State), s.dev.get (feedState f) = 2 →
    exec (.feedLost f) s = .next (s.withDev ((s.dev.put (feedState f) 0).feedsCheck.postWrites))) ∧
  (∀ (f : Feed) (s : State), s.dev.get (feedState f) = 0 →
    exec (.feedAboveThreshold f) s = .next (s.withDev (s.dev.put (feedState f) 2))) ∧
  (∀ (f : Feed) (s : State), s.dev.get (feedState f) = 2 →
    exec (.feedBelowThreshold f) s = .next (s.withDev (s.dev.put (feedState f) 0).feedsCheck)) ∧
  (∀ (f : Feed) (s : State), s.dev.get (feedState f) = 2 →
    max 1 (s.dev.get Reg.PWR_FEED_CTRL_flap_limit) ≤ ((s.dev.losses f).filter fun t => decide (s.dev.nowUs ≤ t + 600000000)).length →
    exec (.returnHold f) s = .next (s.withDev ((s.dev.put (feedState f) 3).raise Src.PWR_feed_lockout))) ∧
  (∀ (s : State), let e := (s.dev.put (feedState .a) 1)
    let d := (e.coreReturns 0).wakeBy 4
    s.dev.get (feedState .a) = 2 → d.get (feedState .b) = 1 → e.get Reg.AON_IDLE_STATUS_state ≠ 2 →
    ((s.dev.losses .a).filter fun t => decide (s.dev.nowUs ≤ t + 600000000)).length < max 1 (s.dev.get Reg.PWR_FEED_CTRL_flap_limit) →
    exec (.returnHold .a) s = .next (s.withDev ((d.put Reg.PWR_FEED_STATUS_single_feed 0).unlimit))) ∧
  (∀ (f : Feed) (s : State), s.dev.get (feedState f) = 3 →
    exec (.rearm f) s = .next (s.withDev ((s.dev.put (feedState f) 2).setLosses f [])))

/-- The commands of a context's life: a free context is created with the next generation and its registers at reset; a created one is
enabled; an enabled one drains; one in error returns to created; a created one that is destroyed releases its pages and is free, another
is fenced; a drained one is created again or in error; a fenced one is free after its quarantine. A context of class A is not the host's
to command. Nothing else changes. -/
def Obligations.ContextLifecycle : Prop :=
  (∀ (c : Fin 1024) (s : State), (s.dev.ctx c).cls ≠ 1 → (s.dev.ctx c).state = .free →
    exec (.ctxCreate c) s = .next (s.withDev (s.dev.setCtx c { Ctx.reset with state := .created, cls := 2, gen := ((s.dev.ctx c).gen + 1) % 256 }))) ∧
  (∀ (c : Fin 1024) (s : State), (s.dev.ctx c).cls ≠ 1 → (s.dev.ctx c).state = .created →
    exec (.ctxEnable c) s = .next (s.withDev (s.dev.setCtx c { s.dev.ctx c with state := .enabled, enable := true }))) ∧
  (∀ (c : Fin 1024) (s : State), (s.dev.ctx c).cls ≠ 1 → (s.dev.ctx c).state = .enabled →
    exec (.ctxDisable c) s = .next (s.withDev (
      let d := s.dev.setCtx c { s.dev.ctx c with state := .draining, enable := false, drainErr := none };
      (d.threadsOf c).foldl Dev.drainThread d))) ∧
  (∀ (c : Fin 1024) (s : State), (s.dev.ctx c).cls ≠ 1 → (s.dev.ctx c).state = .error →
    exec (.ctxErrClear c) s = .next (s.withDev (s.dev.setCtx c { s.dev.ctx c with state := .created, error := 0, enable := false }))) ∧
  (∀ (c : Fin 1024) (s : State), (s.dev.ctx c).cls ≠ 1 → (s.dev.ctx c).state = .created →
    exec (.ctxDestroy c) s = .next (s.withDev ((s.dev.releasePages c).setCtx c { s.dev.ctx c with state := .free, cls := 0, enable := false }))) ∧
  (∀ (c : Fin 1024) (s : State), (s.dev.ctx c).cls ≠ 1 → (s.dev.ctx c).state = .enabled →
    exec (.ctxDestroy c) s = .next (s.withDev (s.dev.fenceCtx c))) ∧
  (∀ (c : Fin 1024) (s : State), (s.dev.ctx c).state = .draining → s.dev.threadsOf c = [] → (s.dev.ctx c).drainErr = none →
    exec (.ctxDrainEnd c false) s = .next (s.withDev (s.dev.setCtx c { s.dev.ctx c with state := .created }))) ∧
  (∀ (c : Fin 1024) (e : Nat) (s : State), (s.dev.ctx c).state = .draining → s.dev.threadsOf c = [] → (s.dev.ctx c).drainErr = some e →
    exec (.ctxDrainEnd c false) s = .next (s.withDev (s.dev.setCtx c { s.dev.ctx c with state := .error, error := e, drainErr := none }))) ∧
  (∀ (c : Fin 1024) (s : State), (s.dev.ctx c).state = .fenced →
    exec (.quarantineEnd c) s = .next (s.withDev (s.dev.setCtx c { s.dev.ctx c with state := .free, cls := 0 }))) ∧
  (∀ (c : Fin 1024) (s : State), (s.dev.ctx c).cls = 1 →
    exec (.ctxCreate c) s = .next (s.withDev (s.dev)))

/-- A configuration register of a created context takes its value in range; a doorbell of an enabled context moves the tail within the ring,
is discarded and counted for another, and is discarded before stage 0xA; a command with descriptors in managed memory starts on a free thread in ring order; a command
whose descriptors have retired ends with its record; a returned page is resident and clean; requests into a fenced context are
abandoned. Nothing else changes. -/
def Obligations.SubmissionAndCommands : Prop :=
  (∀ (c : Fin 1024) (reg : Fin 6) (v : Word) (s : State), (s.dev.ctx c).cls ≠ 1 → (s.dev.ctx c).state = .created → reg ≠ 3 →
    exec (.ctxConfigWrite c reg v) s = .next (s.withDev (s.dev.setCtx c ((s.dev.ctx c).configure reg v.toNat)))) ∧
  (∀ (c : Fin 1024) (v : Word) (s : State), (s.dev.ctx c).cls ≠ 1 → (s.dev.ctx c).state = .created →
    bits 40 24 v.toNat + s.dev.spillOthers c ≤ s.dev.get Reg.DEV_SPILL_pages →
    exec (.ctxConfigWrite c 3 v) s = .next (s.withDev (s.dev.setCtx c ((s.dev.ctx c).configure 3 v.toNat)))) ∧
  (∀ (c : Fin 1024) (t : BitVec 16) (s : State), s.dev.barsLive = true → (s.dev.ctx c).state = .enabled → t.toNat ≠ (s.dev.ctx c).tail →
    (t.toNat + 65536 - (s.dev.ctx c).taken % 65536) % 65536 ≤ 2 ^ (s.dev.ctx c).log2n →
    exec (.doorbell c t) s = .next (s.withDev (s.dev.setCtx c { s.dev.ctx c with tail := t.toNat }))) ∧
  (∀ (c : Fin 1024) (t : BitVec 16) (s : State), s.dev.barsLive = true → (s.dev.ctx c).state ≠ .enabled →
    exec (.doorbell c t) s = .next (s.withDev (s.dev.incE Cnt.DEV_CNT_DB_DISCARD))) ∧
  (∀ (c : Fin 1024) (t : BitVec 16) (s : State), s.dev.barsLive = false →
    exec (.doorbell c t) s = .next (s.withDev (s.dev))) ∧
  (∀ (c : Fin 1024) (cl : Fin 32) (th : Fin 256) (bs : List Nat) (s : State),
    let x := s.dev.ctx c
    let at_ := x.ringBase * 4096 + x.taken % 2 ^ x.log2n * 32
    let e := wordsOf bs
    let d := s.dev.setCtx c { x with taken := x.taken + 1 }
    let list := bits 6 58 (wd e 0) * 64
    let n := bits 0 16 (wd e 1)
    let ls := d.fetchList c list n none
    x.state = .enabled → x.waiting ≠ 0 → s.dev.placeable c ≠ [] → s.dev.mayStart c cl th = true → at_ < 2 ^ 46 →
    s.dev.ctxFetch c at_ 32 none = some bs → d.placeable c ≠ [] → n ≠ 0 → list + 64 * n ≤ 2 ^ 46 → ls.headD [] ≠ [] →
    exec (.commandDispatch c cl th none) s = .next (s.withDev (d.startThread (threadKey cl th) c (some list) ls (bits 32 32 (wd e 1))
      x.taken (bitAt 0 (wd e 2))))) ∧
  (∀ (cl : Fin 32) (th : Fin 256) (s : State), (s.dev.thread (threadKey cl th)).cls ≠ 0 →
    (s.dev.thread (threadKey cl th)).state = .ready → (s.dev.thread (threadKey cl th)).list.length ≤ (s.dev.thread (threadKey cl th)).idx →
    s.dev.frozen (threadKey cl th / 512) = false →
    exec (.commandEnd cl th) s = .next (s.withDev (s.dev.endCommand (threadKey cl th) 0x00 (s.dev.thread (threadKey cl th)).list.length))) ∧
  (∀ (c : Fin 1024) (page : BitVec 25) (gen : BitVec 8) (s : State),
    s.dev.comp.fills.contains ⟨c, gen.toNat, page.toNat⟩ = true → s.dev.stale ⟨c, gen.toNat, page.toNat⟩ = false →
    exec (.pageFill c page gen .none) s = .next (s.withDev ({ s.dev with comp := { s.dev.comp with fills := s.dev.comp.fills.filter (· != (⟨c, gen.toNat, page.toNat⟩ : FillReq)) } }.pageFilled c page.toNat))) ∧
  (∀ (c : Fin 1024) (s : State),
    exec (.requestAbandon c) s = .next (s.withDev ({ s.dev with comp := { s.dev.comp with fills := s.dev.comp.fills.filter fun f => !(f.ctx == c && s.dev.stale f) } })))

/-- A core that fails is withdrawn and the idle spare is switched in, or with none idle spare_exhausted is raised; the switch-in makes the
spare active; a holder gives its engine up to a ready thread of a higher class or at its hold limit; a hold overrun is raised; a queue
entry that frees takes a held tile; a thread that wins its engine issues, one whose descriptor has an unknown kind ends with 0x01 and one
whose MOVE has another class with 0x02.
Nothing else changes. -/
def Obligations.CoresAndPreemption : Prop :=
  (∀ (cl : Fin 32) (core : Fin 17) (s : State), core ≠ s.dev.get (Reg.CLU_CORE_MAP_spare cl) → s.dev.get (Reg.CLU_CORE_MAP_spare cl) ≠ 31 →
    (Tab.getD s.dev.comp.clusters cl Cluster.reset).switching = false → bitAt core (s.dev.get (Reg.CLU_CORE_MAP_active cl)) = true →
    exec (.coreFail cl core) s = .next (s.withDev (
      let d := (s.dev.setBitOf (Reg.CLU_CORE_MAP_failed cl) core).put (Reg.CLU_CORE_MAP_active cl)
        (clrBit (s.dev.get (Reg.CLU_CORE_MAP_active cl)) core);
      { d with comp := { d.comp with
        clusters := Tab.update d.comp.clusters cl Cluster.reset fun c => { c with switching := true } } }.raise (Src.CLU_core_fail cl)))) ∧
  (∀ (cl : Fin 32) (core : Fin 17) (s : State), s.dev.get (Reg.CLU_CORE_MAP_spare cl) = 31 →
    bitAt core (s.dev.get (Reg.CLU_CORE_MAP_active cl)) = true →
    exec (.coreFail cl core) s = .next (s.withDev (((s.dev.setBitOf (Reg.CLU_CORE_MAP_failed cl) core).put (Reg.CLU_CORE_MAP_active cl)
        (clrBit (s.dev.get (Reg.CLU_CORE_MAP_active cl)) core)).raise (Src.CLU_spare_exhausted cl)))) ∧
  (∀ (cl : Fin 32) (s : State), (Tab.getD s.dev.comp.clusters cl Cluster.reset).switching = true →
    exec (.switchInDone cl) s = .next (s.withDev (
      let d := (s.dev.setBitOf (Reg.CLU_CORE_MAP_active cl) (s.dev.get (Reg.CLU_CORE_MAP_spare cl))).put
        (Reg.CLU_CORE_MAP_spare cl) 31;
      { d with comp := { d.comp with
        clusters := Tab.update d.comp.clusters cl Cluster.reset fun c => { c with switching := false } } }))) ∧
  (∀ (cl : Fin 32) (th : Fin 256) (s : State), (s.dev.thread (threadKey cl th)).state = .issuing → (s.dev.thread (threadKey cl th)).cls ≠ 0 →
    preemptible (descKind ((s.dev.thread (threadKey cl th)).desc (s.dev.thread (threadKey cl th)).idx)) = true →
    s.dev.frozen (threadKey cl th / 512) = false →
    exec (.preempt cl th true) s = .next (s.withDev ((s.dev.setThread (threadKey cl th) { (s.dev.thread (threadKey cl th)).count 2 1 with state := .preempted, hold := [] }).incU
      (Cnt.CLU_CNT_PREEMPT (threadKey cl th / 256))))) ∧
  (∀ (cl : Fin 32) (s : State),
    exec (.holdOverrun cl) s = .next (s.withDev (s.dev.raise (Src.CLU_hold_overrun cl)))) ∧
  (∀ (cl : Fin 32) (th : Fin 256) (n : Nat) (s : State),
    let k := threadKey cl th
    let t := s.dev.thread k
    let per := tileEntries (MatBody.ofDesc (t.desc (t.idx - 1))).tile
    t.qHeld ≠ 0 → t.qEntries ≠ 0 ∨ per ≤ s.dev.ftqFree (k / 256) t.cls → t.qLeft = 0 →
    exec (.ftqEntryFree cl th n) s = .next (s.withDev ((s.dev.addU (Cnt.VEC_CNT_FTQ_STALL (k / 256)) n).setThread k
      { t with qHeld := t.qHeld - 1, qEntries := max t.qEntries per }))) ∧
  (∀ (cl : Fin 32) (th : Fin 256) (n : Nat) (s : State),
    let k := threadKey cl th
    let t := s.dev.thread k
    let per := tileEntries (MatBody.ofDesc (t.desc (t.idx - 1))).tile
    t.qHeld ≠ 0 → t.qEntries ≠ 0 ∨ per ≤ s.dev.ftqFree (k / 256) t.cls → 1 < t.qLeft →
    exec (.ftqEntryFree cl th n) s = .next (s.withDev (((s.dev.addU (Cnt.VEC_CNT_FTQ_STALL (k / 256)) n).setThread k
      ({ t with qLeft := t.qLeft - 1, qEntries := max t.qEntries per }.count 3 1)).addU (tilesCounter (k / 256) t.cls) 1))) ∧
  (∀ (cl : Fin 32) (th : Fin 256) (n : Nat) (s : State),
    let k := threadKey cl th
    let t := s.dev.thread k
    let per := tileEntries (MatBody.ofDesc (t.desc (t.idx - 1))).tile
    t.qHeld ≠ 0 → t.qEntries ≠ 0 ∨ per ≤ s.dev.ftqFree (k / 256) t.cls → t.qLeft = 1 →
    exec (.ftqEntryFree cl th n) s = .next (s.withDev (((s.dev.addU (Cnt.VEC_CNT_FTQ_STALL (k / 256)) n).setThread k
      (({ t with qLeft := 0, qEntries := max t.qEntries per }.count 3 1).count 8 1)).addU (tilesCounter (k / 256) t.cls) 1))) ∧
  (∀ (cl : Fin 32) (th : Fin 256) (s : State),
    let k := threadKey cl th
    let d := s.dev.resumeSaved (k / 256)
    let t := d.thread k
    let e := d.placeThread k [d.profWords (descProfile (t.desc t.idx)), d.profWords (descProfile (t.desc (t.idx + 1)))] d.tileHold
    32 ≤ th.val → d.mayIssue k = true → d.frozen (k / 512) = false → d.enginesOn k = true →
    t.begun = true ∨ (1 ≤ descKind (t.desc t.idx) ∧ descKind (t.desc t.idx) ≤ 7 ∧ descKind (t.desc t.idx) ≠ 5 ∧
      descClass (t.desc t.idx) = t.cls) →
    exec (.threadIssue cl th) s = .next (s.withDev e) ∧ (e.thread k).state = .issuing) ∧
  (∀ (cl : Fin 32) (th : Fin 256) (s : State),
    let k := threadKey cl th
    let d := s.dev.resumeSaved (k / 256)
    let t := d.thread k
    32 ≤ th.val → d.mayIssue k = true → d.frozen (k / 512) = false → d.enginesOn k = true →
    t.begun = false → 7 < descKind (t.desc t.idx) →
    exec (.threadIssue cl th) s = .next (s.withDev (d.descError k 0x01))) ∧
  (∀ (cl : Fin 32) (th : Fin 256) (s : State),
    let k := threadKey cl th
    let d := s.dev.resumeSaved (k / 256)
    let t := d.thread k
    32 ≤ th.val → d.mayIssue k = true → d.frozen (k / 512) = false → d.enginesOn k = true →
    t.begun = false → descKind (t.desc t.idx) = 4 → descClass (t.desc t.idx) ≠ t.cls →
    exec (.threadIssue cl th) s = .next (s.withDev (d.descError k 0x02)))

/-- A MAT, CHAIN, RED or MOVE of a software context that finds its pages resident and its operands in order writes its results to the
context's memory, counts its tiles and cycles, and retires: the next descriptor of the thread is ready. A MOVE whose writes another controller has
acknowledged retires. A descriptor in error ends its command with the code of R101. Nothing else changes. -/
def Obligations.EngineDescriptors : Prop :=
  (∀ (cl : Fin 32) (th : Fin 256) (n : BitVec 32) (w : List WrongElem) (x : Desc) (s : State) (d : Dev),
    let k := threadKey cl th
    let p := (s.dev.thread k).profile
    let b := MatBody.ofDesc x
    32 ≤ th.val → s.dev.current k 1 = some x → b.ftqOut = false → matError p b = none → 0 < s.dev.coresFree (k / 256) →
    s.dev.access k (matTileRanges p b) = .ok d →
    exec (.mat cl th n .none w) s = .next (s.withDev (
      let e := ((d.descWrites k (matWrites (d.ctxRead (s.dev.thread k).ctx) p b w)).addU
        (tilesCounter (k / 256) (s.dev.thread k).cls) (tileCount b.tile b.m b.n)).addU (Cnt.CLU_CNT_CORE_BUSY (k / 256)) n.toNat;
      ((e.bump k [(0, n.toNat), (3, tileCount b.tile b.m b.n)]).retire k false).holdTile k))) ∧
  (∀ (cl : Fin 32) (th : Fin 256) (n : BitVec 32) (w : List WrongElem) (x : Desc) (s : State),
    let k := threadKey cl th
    let b := MatBody.ofDesc x
    32 ≤ th.val → s.dev.current k 1 = some x → b.ftqOut = false → matError (s.dev.thread k).profile b = none →
    s.dev.coresFree (k / 256) = 0 →
    exec (.mat cl th n .none w) s = .next (s.withDev s.dev)) ∧
  (∀ (cl : Fin 32) (th : Fin 256) (n : BitVec 32) (w : List WrongElem) (x : Desc) (e : Nat) (s : State),
    let k := threadKey cl th
    let b := MatBody.ofDesc x
    32 ≤ th.val → s.dev.current k 1 = some x → b.ftqOut = false → matError (s.dev.thread k).profile b = some e →
    exec (.mat cl th n .none w) s = .next (s.withDev (s.dev.descError k e))) ∧
  (∀ (cl : Fin 32) (th : Fin 256) (n : Nat) (x : Desc) (s : State) (e : Dev),
    let k := threadKey cl th
    let t := s.dev.thread k
    let b := ChainBody.ofDesc x
    s.dev.current k 2 = some x → b.ftqIn = false → chainIssueError t t.idx t.mdims = none → t.qHeld = 0 →
    s.dev.access k (([(b.stages, 8 * b.count)], []) :: chainTileRanges b (chainSide b (t.desc (t.idx - 1)))) = .ok e →
    exec (.chain cl th n .none) s = .next (s.withDev (
      let f := ((e.descWrites k (chainWrites (e.ctxRead t.ctx) t.profile (fun set i => e.coefWord set i) b (t.stageList b) t.queue)).addU
        (Cnt.VEC_CNT_VEC_BUSY (k / 256)) n).addU (Cnt.VEC_CNT_CHAIN_TILES (k / 256)) (chainTiles t b);
      let f := f.bump k [(0, n), (4, chainTiles t b)];
      (f.setThread k { f.thread k with queue := [], mdims := none, qEntries := 0, qHeld := 0 }).retire k false))) ∧
  (∀ (cl : Fin 32) (th : Fin 256) (n : Nat) (x : Desc) (s : State) (d : Dev),
    let k := threadKey cl th
    let p := (s.dev.thread k).profile
    let b := RedBody.ofDesc x
    s.dev.current k 3 = some x → redError p b = none → s.dev.access k (redTileRanges b) = .ok d →
    exec (.red cl th n .none) s = .next (s.withDev (
      let rd := d.ctxRead (s.dev.thread k).ctx;
      let e := ((d.descWrites k (redWrites rd p b)).addU (Cnt.RED_CNT_RED_TILES (k / 256)) (ceilDiv (b.m * b.n) 16384)).addU
        (Cnt.RED_CNT_DIGEST_BYTES (k / 256)) (redDigested rd b);
      (e.bump k [(0, n)]).retire k false))) ∧
  (∀ (cl : Fin 32) (th : Fin 256) (n : Nat) (dma : Dma) (x : Desc) (s : State) (d : Dev),
    let k := threadKey cl th
    let t := s.dev.thread k
    let b := MoveBody.ofDesc x
    let ss := moveSegments b
    s.dev.current k 4 = some x → moveError t.cls b = none → t.why = .none → (moveStop (s.dev.ctx t.ctx).winPages dma.isSome b ss).2 = none →
    (moveStop (s.dev.ctx t.ctx).winPages dma.isSome b ss).1 = ss →
    s.dev.access k (segmentTiles b ss) = .ok d → b.srcPod = false → b.dstPod = false → ss.any (fromHost b) = false → b.prefetch = false →
    d.moveOverlap b = false → (d.thread k).replay = false →
    exec (.move cl th n dma) s = .next (s.withDev (
      let r := d.moveRead (d.thread k).ctx b ss ((dma.getD []).map BitVec.toNat);
      let e := r.1.moveWrite k b (ss.zip r.2);
      ((e.markPages (e.thread k).ctx b).bump k [(0, n), (7, b.rows * b.len)]).retire k false))) ∧
  (∀ (cl : Fin 32) (th : Fin 256) (n : Nat) (dma : Dma) (x : Desc) (g : Nat) (s : State),
    let k := threadKey cl th
    let b := MoveBody.ofDesc x
    s.dev.current k 4 = some x → moveError (s.dev.thread k).cls b = none → (s.dev.thread k).why = .podWrite g none →
    exec (.move cl th n dma) s = .next (s.withDev (
      ((s.dev.markPages (s.dev.thread k).ctx b).bump k [(0, n), (7, if b.prefetch then 0 else b.rows * b.len)]).retire k false)))

/-- A WAIT whose condition holds retires at once and another blocks; one still false at its timeout ends its command with 0x0A; a SIGNAL
retires, adds to or sets its semaphore modulo 2^32, and every WAIT of the context whose condition then holds retires. -/
def Obligations.WaitAndSignal : Prop :=
  (∀ (cl : Fin 32) (th : Fin 256) (x : Desc) (s : State), s.dev.current (threadKey cl th) 6 = some x → bits 8 2 (wd x 1) ≤ 1 →
    s.dev.waitHolds (s.dev.thread (threadKey cl th)).ctx x = true →
    exec (.wait cl th) s = .next (s.withDev (s.dev.retire (threadKey cl th) false))) ∧
  (∀ (cl : Fin 32) (th : Fin 256) (x : Desc) (s : State), s.dev.current (threadKey cl th) 6 = some x → bits 8 2 (wd x 1) ≤ 1 →
    s.dev.waitHolds (s.dev.thread (threadKey cl th)).ctx x = false → (s.dev.thread (threadKey cl th)).replay = false →
    exec (.wait cl th) s = .next (s.withDev (s.dev.setThread (threadKey cl th) { s.dev.thread (threadKey cl th) with state := .blocked, why := .wait }))) ∧
  (∀ (cl : Fin 32) (th : Fin 256) (s : State), let t := s.dev.thread (threadKey cl th)
    t.state = .blocked → t.why = .wait → bits 0 32 (wd (t.desc t.idx) 2) ≠ 0 → s.dev.waitHolds t.ctx (t.desc t.idx) = false →
    exec (.waitTimeout cl th) s = .next (s.withDev (s.dev.descError (threadKey cl th) 0x0A))) ∧
  (∀ (cl : Fin 32) (th : Fin 256) (x : Desc) (s : State), let k := threadKey cl th
    s.dev.current k 7 = some x → bits 8 2 (wd x 1) ≤ 1 → (s.dev.thread k).replay = false →
    exec (.signal cl th) s = .next (s.withDev (((s.dev.retire k false).semaphore (s.dev.thread k).ctx (bits 0 8 (wd x 1)) (bits 8 2 (wd x 1))
      (bits 32 32 (wd x 1))).relaySignal (s.dev.thread k).ctx (bits 0 8 (wd x 1))))) ∧
  (∀ (cl : Fin 32) (th : Fin 256) (x : Desc) (s : State), s.dev.current (threadKey cl th) 7 = some x → 1 < bits 8 2 (wd x 1) →
    exec (.signal cl th) s = .next (s.withDev (s.dev.descError (threadKey cl th) 0x07)))

/-- A coefficient word of a set that is not valid is stored and the index moves on; commit makes the selected set valid; invalidate ends its
validity at once, or when the last CHAIN that names it retires; the sets below 6 refuse with 0x01; a page in reset takes none of the three. A profile entry takes two words: the
first is staged, the second installs both, or refuses with 0x01, 0x02 or 0x03. Nothing else changes. -/
def Obligations.CoefficientAndProfileWindows : Prop :=
  (∀ (cl : Fin 32) (v : Word) (s : State), let set := s.dev.get (Reg.VEC_COEF_SEL_set cl)
    let i := s.dev.get (Reg.VEC_COEF_SEL_index cl)
    s.dev.pageThere (vecPage cl) = true → s.dev.pageInReset (vecPage cl) = false → 6 ≤ set → bitAt set s.dev.coefValid = false →
    exec (.coefDataWrite cl v) s = .next (s.withDev (
      let d := { s.dev with comp := { s.dev.comp with
        coef := Tab.set s.dev.comp.coef (set * 2048 + i) 0 (if i % 2 = 1 then v.toNat % 2 ^ 32 else v.toNat) } };
      (d.put (Reg.VEC_COEF_SEL_index cl) ((i + 1) % 2048)).put (Reg.VEC_COEF_STATUS_result cl) 0x00))) ∧
  (∀ (cl : Fin 32) (v : Word) (s : State), s.dev.pageThere (vecPage cl) = true → s.dev.pageInReset (vecPage cl) = false →
    s.dev.get (Reg.VEC_COEF_SEL_set cl) < 6 →
    exec (.coefDataWrite cl v) s = .next (s.withDev (s.dev.put (Reg.VEC_COEF_STATUS_result cl) 0x01))) ∧
  (∀ (cl : Fin 32) (s : State), s.dev.pageThere (vecPage cl) = true → s.dev.pageInReset (vecPage cl) = false →
    6 ≤ s.dev.get (Reg.VEC_COEF_SEL_set cl) →
    exec (.coefCommit cl) s = .next (s.withDev ((s.dev.setBitOf (Reg.VEC_COEF_STATUS_valid 0) (s.dev.get (Reg.VEC_COEF_SEL_set cl))).put (Reg.VEC_COEF_STATUS_result cl) 0x00))) ∧
  (∀ (cl : Fin 32) (v : Word) (s : State), s.dev.pageInReset (vecPage cl) = true →
    exec (.coefDataWrite cl v) s = .next (s.withDev s.dev) ∧ exec (.coefCommit cl) s = .next (s.withDev s.dev) ∧
      exec (.coefInvalidate cl) s = .next (s.withDev s.dev)) ∧
  (∀ (cl : Fin 32) (s : State), s.dev.pageThere (vecPage cl) = true → s.dev.pageInReset (vecPage cl) = false →
    6 ≤ s.dev.get (Reg.VEC_COEF_SEL_set cl) → s.dev.namesSet (s.dev.get (Reg.VEC_COEF_SEL_set cl)) = false →
    exec (.coefInvalidate cl) s = .next (s.withDev ((s.dev.clrBitOf (Reg.VEC_COEF_STATUS_valid 0) (s.dev.get (Reg.VEC_COEF_SEL_set cl))).put
      (Reg.VEC_COEF_STATUS_result cl) 0x00))) ∧
  (∀ (set : Fin 8) (s : State), let w := s.dev.comp.invalidating.filter fun e => e / 32 == set.val
    w ≠ [] → s.dev.namesSet set = false →
    exec (.invalidationDone set) s = .next (s.withDev (
      let d := { s.dev with comp := { s.dev.comp with invalidating := s.dev.comp.invalidating.filter fun e => e / 32 != set.val } };
      w.foldl (fun (d : Dev) e => d.put (Reg.VEC_COEF_STATUS_result (e % 32)) 0x00) (d.clrBitOf (Reg.VEC_COEF_STATUS_valid 0) set)))) ∧
  (∀ (e : Fin 256) (s : State),
    exec (.profSelWrite e) s = .next (s.withDev (({ s.dev with comp := { s.dev.comp with staged := none } }).put Reg.DEV_PROF_SEL_entry e))) ∧
  (∀ (v : Word) (s : State),
    exec (.profW0Write v) s = .next (s.withDev ({ s.dev with comp := { s.dev.comp with staged := some (profMask0 v.toNat) } }))) ∧
  (∀ (v : Word) (w0 : Nat) (s : State), 128 ≤ s.dev.get Reg.DEV_PROF_SEL_entry → s.dev.comp.staged = some w0 → profileOutOfRange w0 v.toNat = false →
    exec (.profInstall v) s = .next (s.withDev ((({ s.dev with comp := { s.dev.comp with staged := none } }).setProfile (s.dev.get Reg.DEV_PROF_SEL_entry) w0
      (profMask1 v.toNat) 2).put Reg.DEV_PROF_STATUS_result 0x00))) ∧
  (∀ (v : Word) (s : State), s.dev.get Reg.DEV_PROF_SEL_entry < 128 →
    exec (.profInstall v) s = .next (s.withDev (s.dev.put Reg.DEV_PROF_STATUS_result 0x01)))

/-- Firmware resets a partition in safe state; a reset that a reaction 2 source started counts, the one that reaches the limit takes the partition out of service instead, and one that no reaction 2 source started does not
count; a tile's eight partitions reset together while the other tile is in service; retire takes a partition out of service for reason
7; the second partition out of service is raised after its wait; a clock that loses lock is raised; a reset without a search ends in
safe state, with its pages at reset values, findings and training applied. -/
def Obligations.PartitionResetsAndEscalation : Prop :=
  (∀ (p : Fin 16) (s : State), s.dev.partState p = 1 → s.dev.get (Reg.PRT_CTRL_auto_reset p) ≠ 0 → s.dev.faulted p = true → s.dev.frozen p = false →
    ((s.dev.part p).counted.filter fun t => decide (secOf s.dev.time < t + s.dev.get (Reg.PRT_CTRL_window_s p))).length + 1 <
      s.dev.get (Reg.PRT_CTRL_limit p) →
    exec (.autoReset p) s = .next (s.withDev (
      let recent := (s.dev.part p).counted.filter fun t => decide (secOf s.dev.time < t + s.dev.get (Reg.PRT_CTRL_window_s p));
      let d := s.dev.setPart p { s.dev.part p with counted := recent ++ [secOf s.dev.time] };
      let d := (d.put (Reg.PRT_STATUS_resets p) (recent.length + 1)).incE (Cnt.PRT_CNT_PART_RESET p);
      d.beginReset p true))) ∧
  (∀ (p : Fin 16) (s : State), s.dev.partState p = 1 → s.dev.get (Reg.PRT_CTRL_auto_reset p) ≠ 0 → s.dev.faulted p = true → s.dev.frozen p = false →
    s.dev.get (Reg.PRT_CTRL_limit p) ≤
      ((s.dev.part p).counted.filter fun t => decide (secOf s.dev.time < t + s.dev.get (Reg.PRT_CTRL_window_s p))).length + 1 →
    exec (.autoReset p) s = .next (s.withDev (s.dev.partOut p 1))) ∧
  (∀ (p : Fin 16) (s : State), s.dev.partState p = 1 → s.dev.get (Reg.PRT_CTRL_auto_reset p) ≠ 0 → s.dev.faulted p = false →
    exec (.autoReset p) s = .next (s.withDev (s.dev.beginReset p false))) ∧
  (∀ (p : Fin 16) (s : State), s.dev.partState p ≠ 1 →
    exec (.autoReset p) s = .next (s.withDev (s.dev))) ∧
  (∀ (t : Fin 2) (s : State), ((List.range 8).any fun i => s.dev.partState (8 * (1 - t) + i) == 0) = true →
    exec (.tileReset t) s = .next (s.withDev ((List.range 8).foldl (fun d i => d.resetPartition (8 * t + i)) s.dev))) ∧
  (∀ (p : Fin 16) (s : State),
    exec (.partitionRetire p) s = .next (s.withDev (s.dev.partOut p 7))) ∧
  (∀ (s : State), s.dev.twoOut = true →
    exec .twoOutWait s = .next (s.withDev (({ s.dev with twoOut := false }).raise Src.FLT_two_out))) ∧
  (∀ (p : Fin 16) (s : State),
    exec (.clkFault p) s = .next (s.withDev (s.dev.raise (Src.PRT_clk_fault p)))) ∧
  (∀ (p : Fin 16) (f : Findings) (r : DdrRate) (s : State),
    let d := (partResetPages p).foldl (fun d pg => d.resetPage pg (partKeeps p)) s.dev
    let d := (partPages p).foldl (fun d pg => d.put (Reg.PAGE_STATUS_reset_active pg) 0) d
    let d := (partPages p).foldl (fun d pg => { d with clearing := Tab.erase pg d.clearing }) d
    let d := (d.applyFindings p f).ddrTrained p r
    s.dev.partState p = 2 → (s.dev.part p).hangReset = false → d.partState p ≠ 4 →
    exec (.partitionResetDone p f r) s = .next (s.withDev (
      let d := d.setPart p { d.part p with hangReset := false, search := [] };
      let d := if d.get (Reg.PRT_REPLAY_result p) = 0x01 then d.put (Reg.PRT_REPLAY_result p) 0x04 else d;
      let d := ((d.put (Reg.PRT_STATUS_state p) 1).setBitOf Reg.FLT_DEV_STATUS_part_safe p).settleDev;
      (if d.get (Reg.PRT_CTRL_auto_reset p) ≠ 0 then d.clearReaction2 p else d).leaveSafe p)))

/-- A watchdog on an engine that holds work, in a partition in service that is not frozen, records the hang, keeps its suspects and raises
engine_hang; in a search a hang is a guilty verdict, which resets the partition again without counting; an innocent verdict of the last
suspect ends the search, and of an earlier one runs the next. -/
def Obligations.HangsAndTheSearch : Prop :=
  (∀ (p : Fin 16) (half : Fin 2) (unit : Fin 17) (e : Engine) (s : State), s.dev.frozen p = false → s.dev.partState p = 0 →
    s.dev.engineBusy p (2 * p + half) e = true →
    exec (.engineHang p half unit e) s = .next (s.withDev (
      let ss := s.dev.suspects p (2 * p + half) e;
      let d := (s.dev.recordHang p (2 * p + half) unit e ss.length).incE (Cnt.PRT_CNT_HANG p);
      (d.setPart p { d.part p with hangReset := true, search := ss }).raise (Src.PRT_engine_hang p)))) ∧
  (∀ (p : Fin 16) (half : Fin 2) (unit : Fin 17) (e : Engine) (i : Nat) (s : State), s.dev.frozen p = false → s.dev.partState p = 3 →
    ((s.dev.part p).search.findIdx? fun x => x.guilty.isNone) = some i →
    exec (.engineHang p half unit e) s = .next (s.withDev (
      let d := s.dev.setPart p { s.dev.part p with search := (s.dev.part p).search.mapIdx fun j x =>
        if j = i then { x with guilty := some true } else x };
      let d := (d.incU (Cnt.PRT_CNT_REPLAY_RUNS p)).put (Reg.PRT_REPLAY_replayed p) (d.get (Reg.PRT_REPLAY_replayed p) + 1);
      (((d.freeThread (d.searchThread p)).latchSrc (Src.PRT_engine_hang p) false).incE (Cnt.PRT_CNT_HANG p)).beginReset p false))) ∧
  (∀ (p : Fin 16) (i : Nat) (s : State), s.dev.partState p = 3 → s.dev.suspectDone p = true →
    ((s.dev.part p).search.findIdx? fun x => x.guilty.isNone) = some i →
    ((s.dev.part p).search.mapIdx fun j x => if j = i then { x with guilty := some false } else x).all (fun x => x.guilty.isSome) = true →
    exec (.suspectRunEnd p false) s = .next (s.withDev (
      let d := s.dev.setPart p { s.dev.part p with search := (s.dev.part p).search.mapIdx fun j x =>
        if j = i then { x with guilty := some false } else x };
      let d := (d.incU (Cnt.PRT_CNT_REPLAY_RUNS p)).put (Reg.PRT_REPLAY_replayed p) (d.get (Reg.PRT_REPLAY_replayed p) + 1);
      (d.freeThread (d.searchThread p)).endSearch p))) ∧
  (∀ (p : Fin 16) (i : Nat) (s : State), s.dev.partState p = 3 →
    ((s.dev.part p).search.findIdx? fun x => x.guilty.isNone) = some i →
    ((s.dev.part p).search.mapIdx fun j x => if j = i then { x with guilty := some false } else x).all (fun x => x.guilty.isSome) = false →
    exec (.replayMs p) s = .next (s.withDev (
      let d := s.dev.setPart p { s.dev.part p with search := (s.dev.part p).search.mapIdx fun j x =>
        if j = i then { x with guilty := some false } else x };
      let d := (d.incU (Cnt.PRT_CNT_REPLAY_RUNS p)).put (Reg.PRT_REPLAY_replayed p) (d.get (Reg.PRT_REPLAY_replayed p) + 1);
      (d.freeThread (d.searchThread p)).runSuspect p))) ∧
  (∀ (p : Fin 16) (s : State), s.dev.partState p ≠ 3 →
    exec (.replayMs p) s = .next (s.withDev (s.dev)))

/-- ROLLBACK_ADVANCE (R75): in stage 0xA with a running image of a greater svn the counter takes that svn; in every other case nothing
changes; an image passes exactly when it passes against a counter of 0 and its svn is equal to or greater than the counter; a failed
verification waits again in stage 0x1. -/
def Obligations.AntiRollback : Prop :=
  (∀ (f : ObjInfo) (s : State), s.dev.boot.fw = some f → s.dev.stage = 0xA → s.dev.get Reg.SEC_FUSE_rollback < f.svn →
    exec .rollbackAdvance s = .next (s.withDev (s.dev.put Reg.SEC_FUSE_rollback f.svn))) ∧
  (∀ (f : ObjInfo) (s : State), s.dev.boot.fw = some f → f.svn ≤ s.dev.get Reg.SEC_FUSE_rollback →
    exec .rollbackAdvance s = .next (s.withDev (s.dev))) ∧
  (∀ (s : State), s.dev.stage ≠ 0xA →
    exec .rollbackAdvance s = .next (s.withDev (s.dev))) ∧
  (∀ (f : FetchSt) (s : State), s.dev.stage = 2 → s.dev.boot.fetch = some f → f.checking = true →
    s.dev.checkImage 0x3150464B (f.bytes.map fun b => BitVec.ofNat 8 b) ≠ 0 →
    exec .verifyDone s = .next (s.withDev (((s.dev.fwlEnd (s.dev.checkImage 0x3150464B (f.bytes.map fun b => BitVec.ofNat 8 b))).put Reg.BOOT_STATUS_stage 1).waitStart))) ∧
  (∀ (magic : Nat) (bs : List Byte) (d : Dev),
    d.checkImage magic bs = 0 ↔ (d.put Reg.SEC_FUSE_rollback 0).checkImage magic bs = 0 ∧ d.get Reg.SEC_FUSE_rollback ≤ field bs 8 4)

/-- A go for an object the stage accepts, of a length in range, starts the fetch; for one it does not accept ends with 0x01, of a bad length
with 0x02; an abort ends the fetch with 0x09; the end of a DMA that failed gives 0x03, of a firmware object starts its checks and ends
stage 0x1, of a plan applies or rejects it; a firmware that verifies is kept and its stage ends. -/
def Obligations.LoaderPage : Prop :=
  (∀ (obj : BitVec 4) (s : State),
    let d := ((s.dev.put Reg.FWL_CTRL_obj obj.toNat).put Reg.FWL_STATUS_obj obj.toNat).put Reg.FWL_STATUS_bytes 0
    s.dev.get Reg.FWL_STATUS_busy = 0 → s.dev.get (Reg.PAGE_STATUS_enabled 0x003) ≠ 0 → obj = 1 → d.accepts 1 = true →
    d.get Reg.FWL_LEN_len ≠ 0 → d.get Reg.FWL_LEN_len ≤ 48 * 2 ^ 20 →
    (d.put Reg.BOOT_STATUS_attempts (Nat.min 255 (d.get Reg.BOOT_STATUS_attempts + 1))).get Reg.FWL_ADDR_addr = d.get Reg.FWL_ADDR_addr →
    exec (.fwlGo obj) s = .next (s.withDev (
      let d := d.put Reg.BOOT_STATUS_attempts (Nat.min 255 (d.get Reg.BOOT_STATUS_attempts + 1));
      ({ d with boot := { d.boot with fetch := some ⟨1, d.get Reg.FWL_ADDR_addr, s.dev.get Reg.FWL_LEN_len, false, [], d.stagingPart⟩ } }).put Reg.FWL_STATUS_busy 1))) ∧
  (∀ (obj : BitVec 4) (s : State),
    let d := ((s.dev.put Reg.FWL_CTRL_obj obj.toNat).put Reg.FWL_STATUS_obj obj.toNat).put Reg.FWL_STATUS_bytes 0
    s.dev.get Reg.FWL_STATUS_busy = 0 → s.dev.get (Reg.PAGE_STATUS_enabled 0x003) ≠ 0 → d.accepts obj.toNat = false →
    exec (.fwlGo obj) s = .next (s.withDev (d.fwlEnd 0x01))) ∧
  (∀ (obj : BitVec 4) (s : State), s.dev.get Reg.FWL_STATUS_busy ≠ 0 →
    exec (.fwlGo obj) s = .next (s.withDev (s.dev))) ∧
  (∀ (s : State), s.dev.get Reg.FWL_STATUS_busy ≠ 0 → s.dev.stage ≠ 2 →
    exec .fwlAbort s = .next (s.withDev (s.dev.fwlEnd 0x09))) ∧
  (∀ (s : State), s.dev.get Reg.FWL_STATUS_busy = 0 →
    exec .fwlAbort s = .next (s.withDev (s.dev))) ∧
  (∀ (f : FetchSt) (s : State), s.dev.boot.fetch = some f → f.checking = false →
    exec (.fwlFetchDone none) s = .next (s.withDev ((s.dev.dmaRead none).fwlEnd 0x03))) ∧
  (∀ (f : FetchSt) (bs : List Byte) (s : State), s.dev.boot.fetch = some f → f.checking = false → f.obj = 1 →
    exec (.fwlFetchDone (some bs)) s = .next (s.withDev (
      let d := (s.dev.dmaRead (some bs)).put Reg.FWL_STATUS_bytes (bs.take f.len).length;
      let x := { f with checking := true, bytes := (bs.take f.len).map BitVec.toNat };
      (({ d with boot := { d.boot with fetch := some x } }).waitEnd).endStage))) ∧
  (∀ (f : FetchSt) (bs : List Byte) (s : State),
    let d := (s.dev.dmaRead (some bs)).put Reg.FWL_STATUS_bytes (bs.take f.len).length
    s.dev.boot.fetch = some f → f.checking = false → f.obj = 2 →
    exec (.fwlFetchDone (some bs)) s = .next (s.withDev (d.packFetched f.part (bs.take f.len)))) ∧
  (∀ (f : FetchSt) (bs : List Byte) (s : State),
    let d := (s.dev.dmaRead (some bs)).put Reg.FWL_STATUS_bytes (bs.take f.len).length
    s.dev.boot.fetch = some f → f.checking = false → f.obj = 3 → 0x280 ≤ (bs.take f.len).length →
    field (bs.take f.len) 0x18 4 ≤ (bs.take f.len).length →
    exec (.fwlFetchDone (some bs)) s = .next (s.withDev (if d.planReject (bs.take f.len) = 0 then (d.fwlEnd 0x00).planInForce (parsePlan (bs.take f.len))
      else (d.put Reg.DEV_PLAN_STATUS_reject (d.planReject (bs.take f.len))).fwlEnd 0x0B))) ∧
  (∀ (f : FetchSt) (s : State),
    let bs : List Byte := f.bytes.map fun b => BitVec.ofNat 8 b
    s.dev.stage = 2 → s.dev.boot.fetch = some f → f.checking = true →
    exec .verifyDone s = .next (s.withDev (if s.dev.checkImage 0x3150464B bs = 0 then
        (({ s.dev with boot := { s.dev.boot with fw := some { objInfo bs with bytes := [] } } }).fwlEnd 0x00).endStage
      else ((s.dev.fwlEnd (s.dev.checkImage 0x3150464B bs)).put Reg.BOOT_STATUS_stage 1).waitStart)))

/-- In stage 0x3 start_tests ends the stage once firmware runs and is held before; pack_wait ends it too; in stage 0x4 the findings are
applied, and two partitions out of service or a failed hub test halt with 0x41; in stage 0x5 a partition trains, and the stage ends with
the last; stage 0x8 halts with 0x81 without rack time and ends with it; resume continues a held sequence at the next stage; the link's
rate and width are shown and degradation raised; the resets of the host restart the sequence of a hub that has power, and PERST# holds
training off. -/
def Obligations.PowerUpSequence : Prop :=
  (∀ (s : State), s.dev.stage = 3 → s.dev.boot.fwRunning = true →
    exec .startTests s = .next (s.withDev (s.dev.endStage))) ∧
  (∀ (s : State), s.dev.stage = 3 → s.dev.boot.fwRunning = false →
    exec .startTests s = .next (s.withDev ({ s.dev with boot := { s.dev.boot with startHeld := true } }))) ∧
  (∀ (s : State), s.dev.stage = 3 → s.dev.boot.fwRunning = true →
    exec .packWait s = .next (s.withDev (s.dev.endStage))) ∧
  (∀ (fs : List Findings) (lanes : Word) (hub ok : Bool) (vf : List (List (Nat × Int × Bool))) (p0 : BitVec 32) (s : State),
    let d : Dev := (fs.take 16).zipIdx.foldl (fun (d : Dev) f => d.applyFindings f.2 f.1) s.dev
    let d : Dev := (vf.take 16).zipIdx.foldl (fun (d : Dev) t => (d.setMon t.2 { d.mon t.2 with table := t.1.map fun e => (⟨e.1, e.2.1, e.2.2⟩ : VfPoint) }).put (Reg.MON_STATUS_run_pt t.2) ((d.setMon t.2 { d.mon t.2 with table := t.1.map fun e => (⟨e.1, e.2.1, e.2.2⟩ : VfPoint) }).planPoint t.2)) d
    let d : Dev := ({ d with boot := { d.boot with laneFail := lanes.toNat } }).put Reg.DEV_NRG_P0_mw p0.toNat
    s.dev.stage = 4 → d.boot.pack3 = none →
    exec (.testsDone fs lanes hub ok vf p0) s = .next (s.withDev (if hub || decide (2 ≤ d.outCount) then d.halt 0x41 else d.endStage))) ∧
  (∀ (p : Fin 16) (r : DdrRate) (s : State),
    let d := (if r = .failed then s.dev.bootOut p else s.dev.ddrTrained p r).loseLpd p
    s.dev.stage = 5 → s.dev.partState p ≠ 4 → s.dev.get Reg.BOOT_STATUS_wake = 0 →
    exec (.ddrTrained p r) s = .next (s.withDev (if 2 ≤ d.outCount then d.halt 0x41
      else if ((List.range 16).all fun q => d.partState q == 4 || d.get (Reg.LPD_STATUS_trained q) == 15) = true then d.endStage.lanesDone.startDiscovery
      else d))) ∧
  (∀ (pod : Bool) (s : State), s.dev.stage = 8 →
    exec (.timeStageEnd false pod) s = .next (s.withDev (s.dev.halt 0x81))) ∧
  (∀ (s : State), s.dev.stage = 8 →
    exec (.timeStageEnd true true) s = .next (s.withDev (((s.dev.put Reg.TIME_STATUS_state (max 2 (s.dev.get Reg.TIME_STATUS_state))).put Reg.TIME_STATUS_state 3).endStage))) ∧
  (∀ (s : State), s.dev.stage = 8 →
    exec (.timeStageEnd true false) s = .next (s.withDev (((s.dev.put Reg.TIME_STATUS_state (max 2 (s.dev.get Reg.TIME_STATUS_state))).raise Src.TIME_pod_time_unlocked).endStage))) ∧
  (∀ (t : Nat) (s : State), s.dev.get Reg.BOOT_STATUS_held ≠ 0 → s.dev.boot.heldAt = some t →
    exec .bootResume s = .next (s.withDev (
      let d := { s.dev with boot := { s.dev.boot with heldAt := none, heldUs := s.dev.boot.heldUs + (s.dev.nowUs - t) } };
      ((d.put Reg.BOOT_STATUS_held 0).enterStage (s.dev.boot.heldFrom + 1)).lanesDone.startDiscovery))) ∧
  (∀ (gen width : Fin 3) (s : State), s.dev.boot.perst = false → s.dev.stage ≠ 1 →
    exec (.linkTrained gen width) s = .next (s.withDev (
      let d := ((s.dev.put Reg.PCIE_LINK_gen (4 + gen)).put Reg.PCIE_LINK_width (4 * 2 ^ width.val)).put Reg.PCIE_LINK_flit (b2n (4 + gen.val == 6));
      let d := { d with boot := { d.boot with linkUp := true } };
      if gen < 2 ∨ width < 2 then d.raise Src.PCIE_link_degraded else d))) ∧
  (∀ (gen width : Fin 3) (s : State), s.dev.boot.perst = true →
    exec (.linkTrained gen width) s = .next (s.withDev (s.dev))) ∧
  (∀ (s : State), s.dev.pwr.powered.contains .hub = true →
    exec .perstAssert s = .next (s.withDev ({ s.dev.restart with boot := { s.dev.restart.boot with perst := true } }))) ∧
  (∀ (s : State), s.dev.pwr.powered.contains .hub = false →
    exec .perstAssert s = .next (s.withDev ({ s.dev with boot := { s.dev.boot with perst := true } }))) ∧
  (∀ (s : State),
    exec .perstDeassert s = .next (s.withDev ({ s.dev with boot := { s.dev.boot with perst := false } }))) ∧
  (∀ (s : State), s.dev.pwr.powered.contains .hub = true →
    exec .hotReset s = .next (s.withDev (s.dev.restart)) ∧ exec .functionReset s = .next (s.withDev (s.dev.restart))) ∧
  (∀ (s : State), s.dev.pwr.powered.contains .hub = false →
    exec .hotReset s = .next (s.withDev s.dev) ∧ exec .functionReset s = .next (s.withDev s.dev))

/-- A go while no report is being built takes the 240 bytes of the moment and their signature as the report, and shows busy; the completion
shows done and the length of 336 bytes; a go while one is being built is ignored. -/
def Obligations.Attestation : Prop :=
  (∀ (s : State), s.dev.get Reg.SEC_ATT_STATUS_busy = 0 →
    exec .attestGo s = .next (s.withDev (
      let sig := bytesOf 96 (Config.ecdsaSign (Config.sha384 s.dev.reportBody));
      ({ s.dev with boot := { s.dev.boot with report := (s.dev.reportBody ++ sig).map BitVec.toNat } }).put Reg.SEC_ATT_STATUS_busy 1))) ∧
  (∀ (s : State), s.dev.get Reg.SEC_ATT_STATUS_busy ≠ 0 →
    exec .attestGo s = .next (s.withDev (s.dev))) ∧
  (∀ (s : State), s.dev.get Reg.SEC_ATT_STATUS_busy ≠ 0 →
    exec .attestDone s = .next (s.withDev (((s.dev.put Reg.SEC_ATT_STATUS_busy 0).put Reg.SEC_ATT_STATUS_done 1).put Reg.SEC_ATT_STATUS_len 336)))

/-- A window above the envelope lowers the clock points of the partitions in service and limits class A; one more than 5 % below it first
gives class A back, then the points; power above single_w on one feed raises over_envelope; the burst ends; power-on takes feed states,
identifiers and slot; a domain whose lower ones are powered is powered, a management core then tests itself; with both feeds lost
everything but the fuses, the agents and the AON counter is at reset; the third failed poll in succession raises telemetry_lost; a drop
of VDDQ_D in Idle-Keep loses the kept memory, before training is noted, and later raises lpd_retrain_fail of every partition; a second
reading at or above 110 degrees trips. -/
def Obligations.SingleFeedAndLimits : Prop :=
  (∀ (mw avg hold : BitVec 32) (down : List (Fin 11)) (rate : Fin 17) (c a g agr stp : Activity) (s : State),
    let d := (s.dev.put Reg.PWR_PKG_POWER_mw mw.toNat).energy mw.toNat c a g agr stp
    d.get Reg.PWR_FEED_STATUS_single_feed ≠ 0 → d.pwr.hot = false → 1000 * d.get Reg.PWR_LIMIT_single_w < mw.toNat →
    exec (.limiterWindow mw avg hold down rate c a g agr stp) s = .next (s.withDev (
      let e := d.clocked.foldl (fun (d : Dev) p => d.lowerPoint p ((down.map Fin.val).getD p 0)) d;
      ({ e with pwr := { e.pwr with classA := Nat.min e.pwr.classA rate } }).settleLimit))) ∧
  (∀ (mw avg hold : BitVec 32) (down : List (Fin 11)) (rate : Fin 17) (c a g agr stp : Activity) (s : State),
    let d := (s.dev.put Reg.PWR_PKG_POWER_mw mw.toNat).energy mw.toNat c a g agr stp
    d.get Reg.PWR_FEED_STATUS_single_feed ≠ 0 → d.pwr.hot = false → mw.toNat * 100 < 1000 * d.get Reg.PWR_LIMIT_single_w * 95 → d.pwr.classA < 16 →
    exec (.limiterWindow mw avg hold down rate c a g agr stp) s = .next (s.withDev (({ d with pwr := { d.pwr with classA := d.pwr.classA + 1 } }).settleLimit))) ∧
  (∀ (s : State), s.dev.get Reg.PWR_FEED_STATUS_single_feed ≠ 0 → s.dev.get Reg.PWR_LIMIT_single_w * 1000 < s.dev.get Reg.PWR_PKG_POWER_mw →
    exec .overEnvelope s = .next (s.withDev (s.dev.raise Src.PWR_over_envelope))) ∧
  (∀ (s : State),
    exec .burstEnd s = .next (s.withDev ({ s.dev with pwr := { s.dev.pwr with burst := false } }))) ∧
  (∀ (ida idb : List Byte) (slot : BitVec 5) (s : State), s.dev.pwr.powered = [] → feedId (some ida) ≠ 0 → feedId (some idb) ≠ 0 →
    feedId (some ida) ≠ feedId (some idb) →
    exec (.powerOn true true (some ida) (some idb) slot) s = .next (s.withDev (
      let e := s.dev.powerLoss;
      let e := { e with pwr := { PowerSt.reset with traySlot := slot.toNat }, boot := { e.boot with start := s.dev.nowUs } };
      let e := ((e.put (feedState .a) 1).put (feedState .b) 1).put Reg.PWR_FEED_STATUS_single_feed 0;
      (e.put Reg.PWR_FEED_ID_A_id (feedId (some ida))).put Reg.PWR_FEED_ID_B_id (feedId (some idb))))) ∧
  (∀ (p : Fin 16) (s : State), s.dev.pwr.powered ≠ [] → s.dev.pwr.powered.contains (Domain.part p) = false → s.dev.partState p ≠ 4 → s.dev.boot.fw.isSome = true →
    ((allDomains.filter fun y => decide (domainOrder y < 6)).all fun y => s.dev.pwr.powered.contains y || s.dev.domainOff y) = true →
    exec (.powerGood (.part p)) s = .next (s.withDev ({ s.dev with pwr := { s.dev.pwr with powered := s.dev.pwr.powered ++ [Domain.part p] } }))) ∧
  (∀ (n : Fin 2) (s : State), s.dev.pwr.powered.contains Domain.aon = true → s.dev.pwr.powered.contains Domain.hub = true → s.dev.pwr.powered.contains (Domain.mgmt n) = false →
    s.dev.domainOff (Domain.mgmt n) = false → s.dev.boot.fw.isSome = true → s.dev.core n = 0 →
    exec (.powerGood (.mgmt n)) s = .next (s.withDev (({ s.dev with pwr := { s.dev.pwr with powered := s.dev.pwr.powered ++ [Domain.mgmt n] } }).setCore n 1))) ∧
  (∀ (s : State),
    exec .powerLoss s = .next (s.withDev (
      let e := { Dev.reset with
        regs := s.dev.regs.filter fun e => agentReg e.1 || e.1 / 64 == Reg.SEC_FUSE_rollback.addr
        snaps := s.dev.snaps.filter fun e => decide (0x1000 ≤ e.1) && decide (e.1 < 0x9000)
        latched := s.dev.latched.filter fun e => decide (0x1000 ≤ e.1 / 0x1000) && decide (e.1 / 0x1000 < 0x9000)
        fresh := s.dev.fresh, out := s.dev.out, agents := s.dev.agents, aon := s.dev.aon
        boot := { BootSt.reset with perst := s.dev.boot.perst } };
      let e := (e.put (feedState .a) 0).put (feedState .b) 0;
      { e with pwr := { e.pwr with powered := [] } }))) ∧
  (∀ (s : State), s.dev.pwr.pollFailA = 2 →
    exec (.pmbusPoll false true) s = .next (s.withDev (({ s.dev with pwr := { s.dev.pwr with pollFailA := 3, pollFailB := 0 } }).raise Src.PWR_telemetry_lost))) ∧
  (∀ (s : State),
    exec (.pmbusPoll true true) s = .next (s.withDev ({ s.dev with pwr := { s.dev.pwr with pollFailA := 0, pollFailB := 0 } }))) ∧
  (∀ (s : State), s.dev.get Reg.AON_IDLE_STATUS_state = 2 →
    exec .vddqLow s = .next (s.withDev ({ s.dev with pwr := { s.dev.pwr with ddrLost := true } }))) ∧
  (∀ (s : State), s.dev.get Reg.AON_IDLE_STATUS_state ≠ 2 → s.dev.ranStage < 5 →
    exec .vddqLow s = .next (s.withDev ({ s.dev with pwr := { s.dev.pwr with vddqDrop := true } }))) ∧
  (∀ (s : State), s.dev.get Reg.AON_IDLE_STATUS_state ≠ 2 → 5 ≤ s.dev.ranStage →
    exec .vddqLow s = .next (s.withDev ((List.range 16).foldl (fun (d : Dev) p => d.raise (Src.LPD_lpd_retrain_fail p)) s.dev))) ∧
  (∀ (temps : List (BitVec 16)) (t : Int) (s : State), s.dev.get Reg.AON_IDLE_STATUS_state ≠ 2 → ((temps.take 17).map BitVec.toInt).max? = some t → t < 110 * 16 →
    exec (.thermalSample temps) s = .next (s.withDev ({ s.dev with pwr := { s.dev.pwr with junction := t, hot := decide (100 * 16 < t), trip := false } }))) ∧
  (∀ (temps : List (BitVec 16)) (t : Int) (s : State), s.dev.get Reg.AON_IDLE_STATUS_state ≠ 2 → ((temps.take 17).map BitVec.toInt).max? = some t → 110 * 16 ≤ t → t < 125 * 16 →
    110 * 16 ≤ s.dev.pwr.junction → s.dev.pwr.trip = false →
    exec (.thermalSample temps) s = .next (s.withDev (({ s.dev with pwr := { s.dev.pwr with junction := t, hot := true, trip := true } }).raise Src.FLT_thermal_trip)))

/-- Entry into Idle-Keep is refused to a member with 0x01, without a wake source with 0x02, outside stage 0xA with 0x03, and otherwise
begins by disabling the pages; at its end all but AON is off, with the contents of LPDDR4X kept; an enabled wake source that fires in
Idle-Keep records its cause and wakes, while entering it is kept for the end of the entry, and disabled it does nothing. -/
def Obligations.IdleKeepAndWaking : Prop :=
  (∀ (s : State), s.dev.pageThere 0x011 = true → s.dev.get Reg.AON_IDLE_STATUS_state = 0 → s.dev.isMember = true →
    exec .idleEnter s = .next (s.withDev (s.dev.put Reg.AON_IDLE_STATUS_refuse 0x01))) ∧
  (∀ (s : State), s.dev.pageThere 0x011 = true → s.dev.get Reg.AON_IDLE_STATUS_state = 0 → s.dev.isMember = false →
    ((List.range 5).any fun i => s.dev.flag (wakeEnable i)) = true → s.dev.stage = 0xA → ((List.range 16).any fun p => s.dev.partState p == 2) = false →
    (ownPages.any fun pg => s.dev.flag (Reg.PAGE_STATUS_reset_active pg)) = false →
    exec .idleEnter s = .next (s.withDev (
      let d := (s.dev.put Reg.AON_IDLE_STATUS_refuse 0).put Reg.AON_IDLE_STATUS_state 1;
      (ownPages.filter d.pageOn).foldl (fun (d : Dev) pg => match pageBlock pg with | some b => d.pageOffNow pg b | none => d) d))) ∧
  (∀ (s : State), s.dev.get Reg.AON_IDLE_STATUS_state = 1 → s.dev.pwr.wakeNow = false → s.dev.resetDevice.get Reg.TIME_STATUS_state = 3 →
    exec .idleEntryDone s = .next (s.withDev (
      let d := { s.dev.resetDevice with lpd := s.dev.lpd, jobs := s.dev.jobs, mir := s.dev.mir, pwr := { s.dev.resetDevice.pwr with powered := [.aon] } };
      (d.put Reg.TIME_STATUS_state 4).put Reg.AON_IDLE_STATUS_state 2))) ∧
  (∀ (i : Fin 2) (s : State), s.dev.get (Reg.AON_WAKE_CMP_arm i) ≠ 0 → s.dev.get (Reg.AON_WAKE_CMP_seconds i) ≤ secOf s.dev.time →
    s.dev.get (wakeEnable (2 + i)) ≠ 0 → s.dev.get Reg.AON_IDLE_STATUS_state = 2 →
    exec (.wakeCmp i) s = .next (s.withDev ((s.dev.setBitOf Reg.AON_WAKE_CAUSE_cause (2 + i)).wakeUp))) ∧
  (∀ (s : State), s.dev.get (wakeEnable 0) ≠ 0 → s.dev.get Reg.AON_IDLE_STATUS_state = 1 →
    exec (.wakePin true) s = .next (s.withDev (
      let d := s.dev.setBitOf Reg.AON_WAKE_CAUSE_cause 0;
      { d with pwr := { d.pwr with wakeNow := true } }))) ∧
  (∀ (s : State),
    exec (.wakePin false) s = .next (s.withDev (s.dev))) ∧
  (∀ (s : State), s.dev.get (wakeEnable 1) ≠ 0 → s.dev.get Reg.AON_IDLE_STATUS_state = 2 →
    exec .i3cWake s = .next (s.withDev ((s.dev.setBitOf Reg.AON_WAKE_CAUSE_cause 1).wakeUp))) ∧
  (∀ (s : State), s.dev.get (wakeEnable 1) = 0 →
    exec .i3cWake s = .next (s.withDev (s.dev)))

/-- A page that is there and not in reset is enabled, its enable held while it drains; it is disabled, or keeps its enable while a job is
admitted where the rule says so; a drain that has come to its boundary is over, one that reaches its limit is forced, recorded and
raised; a reset request starts the reset of the page's domain, and is ignored while the page is in reset. -/
def Obligations.PagesAndDrains : Prop :=
  (∀ (pg : BitVec 17) (s : State), s.dev.pageThere pg.toNat = true → s.dev.pageInReset pg.toNat = false → Tab.find pg.toNat s.dev.drains = none → s.dev.pageOn pg.toNat = false →
    exec (.pageEnable pg) s = .next (s.withDev (s.dev.pageOnNow pg.toNat))) ∧
  (∀ (pg : BitVec 17) (x : DrainSt) (s : State), s.dev.pageThere pg.toNat = true → s.dev.pageInReset pg.toNat = false → Tab.find pg.toNat s.dev.drains = some x →
    exec (.pageEnable pg) s = .next (s.withDev ({ s.dev with drains := Tab.insert pg.toNat { x with reenable := true } (Tab.erase pg.toNat s.dev.drains) }))) ∧
  (∀ (pg : BitVec 17) (s : State), s.dev.pageInReset pg.toNat = true →
    exec (.pageEnable pg) s = .next (s.withDev (s.dev))) ∧
  (∀ (pg : BitVec 17) (b : Block) (s : State), pageBlock pg.toNat = some b → s.dev.pageThere pg.toNat = true → s.dev.pageInReset pg.toNat = false → s.dev.jobAdmitted = false →
    b ≠ .vfInfo → b ≠ .vfCtx → b ≠ .vfDb → Tab.find pg.toNat s.dev.drains = none → s.dev.pageOn pg.toNat = true →
    exec (.pageDisable pg) s = .next (s.withDev (s.dev.pageOffNow pg.toNat b))) ∧
  (∀ (pg : BitVec 17) (b : Block) (s : State), pageBlock pg.toNat = some b → keptForJobs b = true → s.dev.jobAdmitted = true →
    exec (.pageDisable pg) s = .next (s.withDev (s.dev))) ∧
  (∀ (pg : BitVec 17) (x : DrainSt) (s : State), pageBlock pg.toNat ≠ some .port → Tab.find pg.toNat s.dev.drains = some x → s.dev.pageBusy pg.toNat = false →
    exec (.drainIdle pg) s = .next (s.withDev (s.dev.drainOver pg.toNat))) ∧
  (∀ (pg : BitVec 17) (x : DrainSt) (s : State), Tab.find pg.toNat s.dev.drains = some x →
    exec (.drainLimit pg false) s = .next (s.withDev (
      let n := ((s.dev.abortThreads pg.toNat).map fun k => (s.dev.thread k).ctx).eraseDups.length;
      let d := (s.dev.forceAbort pg.toNat).put (Reg.PAGE_STATUS_forced pg.toNat) 1;
      let d := (d.drainReport pg.toNat (d.nowUs - x.start) (s.dev.abortItems pg.toNat) n).incE Cnt.FLT_CNT_DRAIN_FORCED;
      (d.raise Src.FLT_drain_forced).drainOver pg.toNat))) ∧
  (∀ (pg : BitVec 17) (b : Block) (p : Nat) (s : State), pageBlock pg.toNat = some b → s.dev.pageThere pg.toNat = true → s.dev.pageInReset pg.toNat = false →
    resetDomain b = 4 → pagePart pg.toNat = some p →
    exec (.resetReq pg) s = .next (s.withDev ((s.dev.abandonDrain pg.toNat).resetPartition p))) ∧
  (∀ (pg : BitVec 17) (b : Block) (s : State), pageBlock pg.toNat = some b → s.dev.pageThere pg.toNat = true → s.dev.pageInReset pg.toNat = false →
    resetDomain b = 5 →
    exec (.resetReq pg) s = .next (s.withDev ((s.dev.abandonDrain pg.toNat).portReset (pageInstance pg.toNat)))) ∧
  (∀ (pg : BitVec 17) (b : Block) (s : State), pageBlock pg.toNat = some b → s.dev.pageThere pg.toNat = true → s.dev.pageInReset pg.toNat = false →
    resetDomain b = 1 →
    exec (.resetReq pg) s = .next (s.withDev (s.dev.restart))) ∧
  (∀ (pg : BitVec 17) (s : State), s.dev.pageInReset pg.toNat = true →
    exec (.resetReq pg) s = .next (s.withDev (s.dev)))

/-- A write of the reserve, where the page takes writes, takes both values in range and evicts what no longer fits; clearing VF Enable drains and destroys every context
of every function and shows none, a function's reset those of that function; a CHECK of a class C pair writes its result; a first
execution that agrees with the accelerator is judged, and one that disagrees is kept and waits for its third execution. -/
def Obligations.ReservesAndFunctions : Prop :=
  (∀ (p : Fin 16) (v : Word) (s : State), s.dev.pageThere (0x102 + 16 * p) = true → s.dev.pageInReset (0x102 + 16 * p) = false →
    exec (.reserveWrite p v) s = .next (s.withDev (
      let d := s.dev.put (Reg.SRM_RESERVE_c_lpd_gib p) (limitTo (.range 0 60) (bits 48 8 v.toNat));
      let d := d.put (Reg.SRM_RESERVE_c_sram_mib p) (limitTo (.evenRange 256 2048) (bits 0 16 v.toNat));
      (d.shrinkSram p d.comp.pages.length).shrinkLpd p d.comp.pages.length))) ∧
  (∀ (s : State),
    exec .vfDisable s = .next (s.withDev (((List.range 32).foldl (fun (d : Dev) i => d.vfTeardown (i + 1)) s.dev).put Reg.PCIE_FUNC_vfs 0))) ∧
  (∀ (f : Fin 32) (s : State),
    exec (.vfFlr f) s = .next (s.withDev ((s.dev.ctxsOfVf (f + 1)).foldl (fun (d : Dev) c => ((d.ctxDisable c).ctxDrainEnd c true).ctxDestroy c) s.dev))) ∧
  (∀ (cl : Fin 32) (th : Fin 256) (core : Fin 17) (cycles : BitVec 32) (x : Desc) (t : TileRec) (s : State),
    let k := threadKey cl th
    let u := s.dev.thread k
    let b := CheckBody.ofDesc x
    let mine := checkTile u.profile b u.queue
    let r := compareTile u.profile ((Fmt.ofCode b.fmt).getD .fp32) (b.fmt == 6) b.n mine (Tile.ofBody t.body).rows
    s.dev.current k 5 = some x → s.dev.tileOn k = some t → t.phase = .first → checkError u b = none → b.srcQ = true → b.refBuf = true → u.qHeld = 0 →
    r.nDisagree = 0 →
    exec (.check cl th core cycles .none) s = .next (s.withDev (
      let d := s.dev.sramWrites (placeBytes b.dst (wordBytes r.words));
      let d := (d.incU (Cnt.RED_CNT_CMP_TILES (k / 256))).addU (Cnt.RED_CNT_DIGEST_BYTES (k / 256))
        ((mine.map fun r => r.1.length + r.2.length).foldl (· + ·) 0);
      (d.bump k [(0, cycles.toNat), (8, 1)]).tileJudged { t with core1 := k / 256 * 32 + core } 0 31 0 0 false))) ∧
  (∀ (cl : Fin 32) (th : Fin 256) (core : Fin 17) (cycles : BitVec 32) (x : Desc) (t : TileRec) (s : State),
    let k := threadKey cl th
    let u := s.dev.thread k
    let b := CheckBody.ofDesc x
    let mine := checkTile u.profile b u.queue
    let r := compareTile u.profile ((Fmt.ofCode b.fmt).getD .fp32) (b.fmt == 6) b.n mine (Tile.ofBody t.body).rows
    s.dev.current k 5 = some x → s.dev.tileOn k = some t → t.phase = .first → checkError u b = none → b.srcQ = true → b.refBuf = true → u.qHeld = 0 →
    b.keepBad = true → r.nDisagree ≠ 0 →
    exec (.check cl th core cycles .none) s = .next (s.withDev (
      let d := (s.dev.sramWrites (placeBytes b.dst (wordBytes r.words))).sramWrites (rowWrites b.fmt b.keep b.m b.n mine);
      let d := (d.incU (Cnt.RED_CNT_CMP_TILES (k / 256))).addU (Cnt.RED_CNT_DIGEST_BYTES (k / 256))
        ((mine.map fun r => r.1.length + r.2.length).foldl (· + ·) 0);
      let d := (d.incE (Cnt.RED_CNT_CMP_DISAGREE (k / 256))).bump k [(0, cycles.toNat), (8, 1)];
      (d.setTile { t with phase := .waitThird, place := none, core1 := k / 256 * 32 + core, dis1 := r.nDisagree, first1 := r.first }).freeThread k)))

/-- Signal on a training lane starts an attempt; an attempt that passes brings the lane up with its delay and length, the third that fails
makes it failed, no signal makes it silent; a lane lost while up trains again and is raised, the last one takes the port down; a retrain
from failed, silent or up and a loopback train the port, but not while its page is in reset; a HELLO shows the far end in the page, and one unlike the last classifies the
port; the period sends one on every port and one of every agent; the end of disc_wait classifies every port, also those still unheard, and
ends the stage. -/
def Obligations.PortTrainingAndDiscovery : Prop :=
  (∀ (i : Fin 40) (l : Fin 4) (s : State), s.dev.lane i l = 1 →
    exec (.signalDetect i l) s = .next (s.withDev (
      let d := s.dev.setPort i { s.dev.port i with tries := Tab.update (s.dev.port i).tries l 0 (· + 1) };
      d.put (Reg.PORT_STATUS_attempts i) (Nat.min 255 (d.get (Reg.PORT_STATUS_attempts i) + 1))))) ∧
  (∀ (i : Fin 40) (l : Fin 4) (ph : Fin 4) (s : State), s.dev.lane i l = 1 → 3 ≤ Tab.getD (s.dev.port i).tries l 0 →
    exec (.trainingPhaseTimeout i l ph) s = .next (s.withDev (((s.dev.setLane i l 3).settlePort i).startDiscovery))) ∧
  (∀ (i : Fin 40) (l : Fin 4) (delay : BitVec 16) (s : State), s.dev.lane i l = 1 →
    exec (.trainingAttemptEnd i l true delay) s = .next (s.withDev (
      let d := s.dev.setPort i { s.dev.port i with tries := Tab.erase l (s.dev.port i).tries };
      let d := d.put (Reg.PORT_STATUS_attempts i) 0;
      let d := if (d.port i).loop then d
        else
          let e := d.setPort i { d.port i with long := (d.port i).long || decide (160 < (delay.toNat - 110) / 5) };
          (e.put (Reg.PORT_LINK_delay_ns i) delay.toNat).put (Reg.PORT_LINK_length_m i) (Nat.min 4095 ((delay.toNat - 110) / 5));
      ((d.setLane i l 2).settlePort i).startDiscovery))) ∧
  (∀ (i : Fin 40) (l : Fin 4) (delay : BitVec 16) (s : State), s.dev.lane i l = 1 → 3 ≤ Tab.getD (s.dev.port i).tries l 0 →
    exec (.trainingAttemptEnd i l false delay) s = .next (s.withDev (((s.dev.setLane i l 3).settlePort i).startDiscovery))) ∧
  (∀ (i : Fin 40) (l : Fin 4) (s : State), s.dev.lane i l = 1 → Tab.getD (s.dev.port i).tries l 0 = 0 →
    exec (.laneSilent i l) s = .next (s.withDev (((s.dev.setLane i l 4).settlePort i).startDiscovery))) ∧
  (∀ (i : Fin 40) (l : Fin 4) (s : State),
    let d := (s.dev.setLane i l 1).raise (Src.PORT_link_down i)
    let d := d.put (Reg.PORT_STATUS_lanes_up i) ((d.lanesIn i 2).foldl setBit 0)
    8 ≤ i.val → s.dev.lane i l = 2 → d.lanesIn i 2 = [] → ((s.dev.setLane i l 1).raise (Src.PORT_link_down i)).lanesIn i 2 = [] →
    exec (.linkDown i l) s = .next (s.withDev ((d.setPort i { d.port i with key := none, hello := none }).put (Reg.PORT_STATUS_state i) 1))) ∧
  (∀ (i : Fin 40) (s : State), s.dev.get (Reg.PORT_STATUS_state i) = 3 ∨ s.dev.get (Reg.PORT_STATUS_state i) = 7 ∨ s.dev.get (Reg.PORT_STATUS_state i) = 8 →
    s.dev.pageInReset (0x090 + i) = false →
    exec (.portRetrain i) s = .next (s.withDev (s.dev.portReset i))) ∧
  (∀ (i : Fin 40) (s : State), s.dev.get (Reg.PORT_STATUS_state i) = 6 → s.dev.lanesIn i 3 ≠ [] → s.dev.pageInReset (0x090 + i) = false →
    exec (.portRetrain i) s = .next (s.withDev (s.dev.portReset i))) ∧
  (∀ (i : Fin 40) (s : State), s.dev.get (Reg.PORT_STATUS_state i) = 1 →
    exec (.portRetrain i) s = .next (s.withDev (s.dev))) ∧
  (∀ (i : Fin 40) (s : State), s.dev.pageInReset (0x090 + i) = true →
    exec (.portRetrain i) s = .next (s.withDev s.dev) ∧ exec (.portLoopback i) s = .next (s.withDev s.dev)) ∧
  (∀ (i : Fin 40) (s : State), 8 ≤ i.val → s.dev.pageInReset (0x090 + i) = false →
    exec (.portLoopback i) s = .next (s.withDev ((s.dev.trainPort i).setPort i { (s.dev.trainPort i).port i with loop := true }))) ∧
  (∀ (i : Fin 40) (h : List Word) (s : State),
    let x := h.map BitVec.toNat
    let d := (s.dev.setPort i { s.dev.port i with hello := some x }).localFlits i 1
    let w := helloWord x 2
    let d := (d.put (Reg.PORT_FAR_chip i) (bits 48 16 w)).put (Reg.PORT_FAR_port i) (bits 40 8 w)
    let d := (d.put (Reg.PORT_FAR_slot i) (bits 32 8 w)).put (Reg.PORT_FAR_major i) (bits 24 8 w)
    let d := (d.put (Reg.PORT_FAR_minor i) (bits 16 8 w)).put (Reg.PORT_FAR_valid i) 1
    let d := (d.put (Reg.PORT_FAR_SN0_sn i) (helloWord x 0)).put (Reg.PORT_FAR_SN1_sn i) (helloWord x 1)
    s.dev.lanesIn i 2 ≠ [] → 8 ≤ s.dev.stage → s.dev.stage ≠ 0xF → (s.dev.port i).hello = none → d.stage = s.dev.stage →
    exec (.hello i h) s = .next (s.withDev ((d.classifyPort i).discoveryCheck))) ∧
  (∀ (i : Fin 40) (h : List Word) (s : State), s.dev.stage < 7 →
    exec (.hello i h) s = .next (s.withDev (s.dev))) ∧
  (∀ (s : State),
    exec .helloSend s = .next (s.withDev ((List.range 8).foldl Dev.agentHello ((List.range 40).foldl Dev.sendHello s.dev)))) ∧
  (∀ (p : PlanInfo) (s : State), let e := (List.range 40).foldl Dev.unheardPort s.dev.classifyAll
    s.dev.stage = 7 → s.dev.boot.plan = some p → e.stage = 7 →
    exec .discWait s = .next (s.withDev e.endStage))

/-- A KEYX on a port that waits for it brings the link up with its keys, or quarantines the port with 0x05 when it does not verify; a rekey
starts the agreement again; a flit in order is taken with its acknowledgement and credits, one with a bad CRC is answered by a negative
acknowledgement, one already received is dropped, one behind a gap asks for a replay; a negative acknowledgement replays; a load report is
kept, and the window's end shows the utilisation, counts corrected symbols and sends one; MOVE data that passes ingress is written and
acknowledged, answered, or completes its thread; data and requests at an address that is refused are answered without effect or data. -/
def Obligations.LinksAndMessages : Prop :=
  (∀ (i : Fin 40) (k : Keyx) (h : List Nat) (s : State),
    let signed := Config.sha384 (s.dev.keyxText i h k)
    let d := (s.dev.localFlits i keyxFlits).sendLocal i 0x02 (sigWords (Config.ecdsaSign signed))
    let p := d.port i
    let up := (d.setPort i { p with key := some (d.linkKeys i h k), txCtr := 0, rxCtr := 0, rekey := false }).put (Reg.PORT_STATUS_state i) 3
    (s.dev.port i).hello = some h → s.dev.get (Reg.PORT_STATUS_state i) = 5 →
    exec (.keyx i k) s = .next (s.withDev (if Config.ecdsaOk Config.caKey k.certKey k.certSig ∧ k.certSerial.toNat = helloWord h 0 + helloWord h 1 * 2 ^ 64 ∧
          Config.ecdsaOk k.certKey signed k.sig then
        (if p.rekey then up else up.resend i).pump i 1024
      else d.quarantine i 0x05))) ∧
  (∀ (i : Fin 40) (s : State), 8 ≤ i.val → s.dev.get (Reg.PORT_STATUS_state i) = 3 →
    exec (.rekey i) s = .next (s.withDev (
      let d := s.dev.startKeyx i (s.dev.get (Reg.PORT_STATUS_reason i));
      d.setPort i { d.port i with rekey := true }))) ∧
  (∀ (i : Fin 40) (hdr : Word) (payload : List Byte) (crc : Word) (frame : Option FrameCheck) (s : State),
    payload.length ≠ 240 ∨ crc64 (leBytes 8 hdr.toNat ++ payload.map BitVec.toNat) ≠ crc.toNat →
    exec (.flit i hdr payload crc frame) s = .next (s.withDev ((s.dev.incE (Cnt.PORT_CNT_CRC_ERR i)).sendNak i))) ∧
  (∀ (i : Fin 40) (hdr : Word) (payload : List Byte) (crc : Word) (f : FrameCheck) (s : State),
    let d := s.dev.incU (Cnt.PORT_CNT_RX_FLITS i)
    payload.length = 240 → crc64 (leBytes 8 hdr.toNat ++ payload.map BitVec.toNat) = crc.toNat → bitAt 58 hdr.toNat = false →
    (d.port i).rxNext = bits 40 16 hdr.toNat →
    exec (.flit i hdr payload crc (some f)) s = .next (s.withDev (
      let d := d.setPort i { d.port i with rxNext := (bits 40 16 hdr.toNat + 1) % 65536, freed := Tab.update (d.port i).freed (bits 62 2 hdr.toNat) 0 (· + 1) };
      let d := (((d.takeAck i (bits 24 16 hdr.toNat)).takeCredits i hdr.toNat).pump i 1024).acknowledge i;
      if bits 62 2 hdr.toNat = 0 ∧ d.get (Reg.PORT_STATUS_state i) ≠ 4 then (d.acceptFrame i f).1 else d))) ∧
  (∀ (i : Fin 40) (hdr : Word) (payload : List Byte) (crc : Word) (frame : Option FrameCheck) (s : State),
    let d := s.dev.incU (Cnt.PORT_CNT_RX_FLITS i)
    payload.length = 240 → crc64 (leBytes 8 hdr.toNat ++ payload.map BitVec.toNat) = crc.toNat → bitAt 58 hdr.toNat = true →
    exec (.flit i hdr payload crc frame) s = .next (s.withDev (
      ((d.takeAck i (bits 24 16 hdr.toNat)).takeCredits i hdr.toNat).pump i 1024))) ∧
  (∀ (i : Fin 40) (hdr : Word) (payload : List Byte) (crc : Word) (frame : Option FrameCheck) (s : State),
    let d := s.dev.incU (Cnt.PORT_CNT_RX_FLITS i)
    payload.length = 240 → crc64 (leBytes 8 hdr.toNat ++ payload.map BitVec.toNat) = crc.toNat → bitAt 58 hdr.toNat = false →
    32768 ≤ ((d.port i).rxNext + 65536 - bits 40 16 hdr.toNat) % 65536 →
    exec (.flit i hdr payload crc frame) s = .next (s.withDev (d.sendNak i))) ∧
  (∀ (i : Fin 40) (hdr : Word) (payload : List Byte) (crc : Word) (frame : Option FrameCheck) (s : State),
    let d := s.dev.incU (Cnt.PORT_CNT_RX_FLITS i)
    payload.length = 240 → crc64 (leBytes 8 hdr.toNat ++ payload.map BitVec.toNat) = crc.toNat → bitAt 58 hdr.toNat = false →
    (d.port i).rxNext = bits 40 16 hdr.toNat + 1 →
    exec (.flit i hdr payload crc frame) s = .next (s.withDev (d))) ∧
  (∀ (i : Fin 40) (ack : BitVec 16) (s : State),
    exec (.nak i ack) s = .next (s.withDev (((s.dev.incU (Cnt.PORT_CNT_RX_FLITS i)).takeAck i ack.toNat).replayFlits i))) ∧
  (∀ (slot : Fin 18) (util : List Byte) (s : State),
    exec (.load slot util) s = .next (s.withDev (
      let d := { s.dev with loads := Tab.set s.dev.loads slot [] (util.map BitVec.toNat) };
      match (d.linksTo slot).head? with
      | some i => d.incU (Cnt.PORT_CNT_RX_FLITS i)
      | none => d))) ∧
  (∀ (util : List PortSample) (s : State),
    let d := (List.range 40).foldl (fun (d : Dev) i =>
      let u := util.getD i ⟨0, 0, 0⟩;
      ((d.put (Reg.PORT_UTIL_tx_pct i) u.tx.toNat).put (Reg.PORT_UTIL_rx_pct i) u.rx.toNat).addU (Cnt.PORT_CNT_FEC_CORR i) u.fec.toNat) s.dev
    let fs := [Reg.DEV_FAB_CTRL_w_c, Reg.DEV_FAB_CTRL_w_a, Reg.DEV_FAB_CTRL_sat_pct, Reg.DEV_FAB_CTRL_idle_pct, Reg.DEV_FAB_CTRL_indirect_pct]
    let d := fs.foldl (fun (d : Dev) f => d.put (acts f) (d.get f)) d
    d.silent = false →
    exec (.loadSend util) s = .next (s.withDev (
      let body := gPorts.map fun i => if d.portUp i then d.get (Reg.PORT_UTIL_tx_pct i) else 0xFF;
      (gPorts.filter d.portUp).foldl (fun (d : Dev) i => (d.emit (.link i 0x03 body)).incU (Cnt.PORT_CNT_TX_FLITS i)) d))) ∧
  (∀ (h : FabHdr) (a : Word) (bs : List Byte) (k : Fin 8192) (g : Byte) (bulk : Bool) (s : State), s.dev.passes h = true →
    podRefused a.toNat a.toNat bs.length = false →
    exec (.moveData h (.data a bs k g bulk)) s = .next (s.withDev (
      (s.dev.podWrites (.remote h.src) a.toNat (bs.map BitVec.toNat)).send h.src.toNat moveKind [moveWord 2 bulk, k.val, g.toNat]))) ∧
  (∀ (h : FabHdr) (a : Word) (bs : List Byte) (k : Fin 8192) (g : Byte) (bulk : Bool) (s : State), s.dev.passes h = true →
    podRefused a.toNat a.toNat bs.length = true →
    exec (.moveData h (.data a bs k g bulk)) s = .next (s.withDev (s.dev.send h.src.toNat moveKind [moveWord 2 bulk, k.val, g.toNat]))) ∧
  (∀ (h : FabHdr) (a : Word) (len rows stride : Nat) (k : Fin 8192) (g : Byte) (bulk : Bool) (s : State), s.dev.passes h = true →
    ((List.range rows).any fun r => podRefused a.toNat (a.toNat + r * stride) len) = false →
    exec (.moveData h (.request a len rows stride k g bulk)) s = .next (s.withDev (
      let r := s.dev.podRows a.toNat len stride rows;
      r.1.send h.src.toNat moveKind ([moveWord 2 bulk, k.val, g.toNat] ++ wordsOf r.2)))) ∧
  (∀ (h : FabHdr) (a : Word) (len rows stride : Nat) (k : Fin 8192) (g : Byte) (bulk : Bool) (s : State), s.dev.passes h = true →
    ((List.range rows).any fun r => podRefused a.toNat (a.toNat + r * stride) len) = true →
    exec (.moveData h (.request a len rows stride k g bulk)) s = .next (s.withDev (
      s.dev.send h.src.toNat moveKind [moveWord 2 bulk, k.val, g.toNat]))) ∧
  (∀ (h : FabHdr) (k : Fin 8192) (g : Byte) (n : Nat) (c : Option Nat) (bs : List Byte) (s : State), s.dev.passes h = true →
    (s.dev.thread k).why = .podWrite n c →
    (s.dev.thread k).state = .blocked → (s.dev.thread k).gen = g.toNat → (s.dev.ctx (s.dev.thread k).ctx).gen = g.toNat →
    exec (.moveData h (.answer k g bs)) s = .next (s.withDev (
      s.dev.setThread k { s.dev.thread k with state := if n ≤ 1 then .ready else .blocked, why := .podWrite (n - 1) c }))) ∧
  (∀ (h : FabHdr) (k : Fin 8192) (g : Byte) (bs : List Byte) (ws : List Nat) (s : State), s.dev.passes h = true → (s.dev.thread k).why = .pod ws →
    (s.dev.thread k).state = .blocked → (s.dev.thread k).gen = g.toNat → (s.dev.ctx (s.dev.thread k).ctx).gen = g.toNat →
    exec (.moveData h (.answer k g bs)) s = .next (s.withDev (s.dev.setThread k { s.dev.thread k with state := .ready, why := .pod (bs.map BitVec.toNat) }))) ∧
  (∀ (h : FabHdr) (m : MoveMsg) (s : State), s.dev.passes h = false →
    exec (.moveData h m) s = .next (s.withDev (s.dev.fenceDrop h.src.toNat)))

/-- R21: a read of a page that no block owns returns zero and a write to it, of any requester, is discarded; block type 0x0000 is never
assigned, so that PAGE_ID reads zero on an absent page and on no page that is there. -/
def Obligations.AbsentPages : Prop :=
  (∀ (addr : Nat) (d : Dev),
    pageBlock (addr / 0x1000) = none →
    d.readWord addr = 0) ∧
  (∀ (addr : Nat) (d : Dev),
    pageBlock (addr / 0x1000) = none →
    d.readAt addr = { d with rdata := 0 }) ∧
  (∀ (who : Requester) (addr v : Nat) (dma : Dma) (d : Dev),
    pageBlock (addr / 0x1000) = none →
    d.writeAt who addr v dma = d) ∧
  (∀ (pg : Nat) (d : Dev),
    pg < 0x1000 →
    d.pageThere pg = true →
    d.readWord (pg * 0x1000) ≠ 0) ∧
  (∀ (pg : Nat) (b : Block),
    pageBlock pg = some b →
    blockType b (pageInstance pg) ≠ 0)

/-- R33: the access changes no register but the access-error counter of the PCIE page, which advances by one below its limit (R37); a read
returns all ones in every byte of its size; the command completes. -/
def Obligations.AccessError : Prop :=
  (∀ (isWrite : Bool) (off : BitVec 24) (size : Nat) (s : State),
    (¬((size = 4 ∨ size = 8) ∧ off.toNat % size = 0)) →
    exec (.accessError isWrite off size) s = .next (s.withDev (
      let d := s.dev.incE Cnt.PCIE_CNT_ACCESS_ERR;
      if isWrite then d else { d with rdata := 2 ^ (8 * size) - 1 }))) ∧
  (∀ (d : Dev),
    d.get Cnt.PCIE_CNT_ACCESS_ERR < 2 ^ 32 - 1 →
    d.regsWf = true →
    (d.incE Cnt.PCIE_CNT_ACCESS_ERR).get Cnt.PCIE_CNT_ACCESS_ERR = d.get Cnt.PCIE_CNT_ACCESS_ERR + 1)

/-- A write by the pair to a block-specific register whose fields are all plain takes each RW field within its range and clears each W1C bit
that is 1 (R31, R32); a function 0 has no virtual page and a remote requester none of the closed ones. The host's 4-byte read of a low
half holds the high half, which the next read of it returns; its 8-byte read reads the register whole; a low half with an RW field is held until the high half is written, when one
64-bit write acts, or with the current RW fields where nothing is held; a register without an RW field takes a low half at once (R35). A
read of the lower register of a timestamp latches the rest (R36). A read through BAR4 returns all ones until stage 0xA and then zero (R39,
R68). Nothing else changes. -/
def Obligations.RegisterAccess : Prop :=
  (∀ (off : BitVec 24) (v : Word) (b : Block) (s : State),
    let pg := off.toNat / 0x1000
    pageBlock pg = some b →
    [Block.tense, .ptp, .cmp, .drill, .mir, .flow, .agr, .pcie, .lpd, .red].contains b = true →
    s.dev.pageThere pg = true →
    s.dev.pageInReset pg = false →
    0x100 ≤ off.toNat % 0x1000 →
    exec (.registerWrite .pair off v none) s = .next (s.withDev ((s.dev.writeFields pg (off.toNat % 0x1000 / 8 * 8) v.toNat b).postWrites))) ∧
  (∀ (off : BitVec 24) (v : Word) (dma : Dma) (s : State),
    exec (.registerWrite (.vf 0) off v dma) s = .next (s.withDev (s.dev))) ∧
  (∀ (src : BitVec 16) (off : BitVec 24) (v : Word) (dma : Dma) (s : State),
    closedToRemote off.toNat = true →
    exec (.registerWrite (.remote src) off v dma) s = .next (s.withDev (s.dev))) ∧
  (∀ (off : BitVec 24) (s : State),
    let pg := off.toNat / 0x1000
    off.toNat % 8 = 0 →
    exec (.lowHalfRead ⟨off, false, false⟩) s = .next (s.withDev (
      let d := (s.dev.touch off.toNat).readAt off.toNat;
      { d with rdHold := Tab.insert pg (off.toNat, d.rdata / 2 ^ 32) (Tab.erase pg d.rdHold), rdata := d.rdata % 2 ^ 32 }))) ∧
  (∀ (off : BitVec 24) (reg x : Nat) (s : State),
    let pg := off.toNat / 0x1000
    off.toNat % 8 ≠ 0 →
    Tab.find pg (s.dev.touch off.toNat).rdHold = some (reg, x) →
    exec (.lowHalfRead ⟨off, false, false⟩) s = .next (s.withDev ({ s.dev.touch off.toNat with rdata := x }))) ∧
  (∀ (off : BitVec 24) (s : State),
    let reg := off.toNat / 8 * 8
    let d := (s.dev.touch off.toNat).readAt reg
    off.toNat % 8 ≠ 0 →
    Tab.find (off.toNat / 0x1000) (s.dev.touch off.toNat).rdHold = none →
    latchesWhole reg = true →
    exec (.lowHalfRead ⟨off, false, false⟩) s = .next (s.withDev { d with rdata := d.rdata / 2 ^ 32 })) ∧
  (∀ (off : BitVec 24) (s : State),
    off.toNat % 8 = 0 →
    exec (.lowHalfRead ⟨off, true, false⟩) s = .next (s.withDev ((s.dev.touch off.toNat).readAt off.toNat))) ∧
  (∀ (off : BitVec 24) (wide : Bool) (s : State),
    s.dev.pwr.powered.contains .hub = true →
    exec (.lowHalfRead ⟨off, wide, true⟩) s = .next (s.withDev { s.dev with
      rdata := if s.dev.barsLive then 0 else if wide then 2 ^ 64 - 1 else 2 ^ 32 - 1 })) ∧
  (∀ (off : BitVec 24) (v : BitVec 32) (dma : Dma) (s : State),
    let reg := off.toNat / 8 * 8
    hasRw reg = true →
    exec (.lowHalfWrite off v dma) s = .next (s.withDev (
      let d := s.dev.touch reg;
      { d with wrHold := Tab.insert (off.toNat / 0x1000) (reg, v.toNat) (Tab.erase (off.toNat / 0x1000) d.wrHold) }))) ∧
  (∀ (off : BitVec 24) (v : BitVec 32) (dma : Dma) (s : State),
    let reg := off.toNat / 8 * 8
    hasRw reg = false →
    exec (.lowHalfWrite off v dma) s = .next (s.withDev (((s.dev.touch reg).regWrite .host reg v.toNat dma).postWrites))) ∧
  (∀ (off : BitVec 24) (v : BitVec 32) (low : Nat) (dma : Dma) (s : State),
    let pg := off.toNat / 0x1000
    let reg := off.toNat / 8 * 8
    let d := s.dev.touch reg
    hasRw reg = true →
    Tab.find pg d.wrHold = some (reg, low) →
    exec (.highHalfWrite off v dma) s = .next (s.withDev (
      (({ d with wrHold := Tab.erase pg d.wrHold }).regWrite .host reg (v.toNat * 2 ^ 32 + low) dma).postWrites))) ∧
  (∀ (off : BitVec 24) (v : BitVec 32) (dma : Dma) (s : State),
    let pg := off.toNat / 0x1000
    let reg := off.toNat / 8 * 8
    let d := s.dev.touch reg
    hasRw reg = true →
    Tab.find pg d.wrHold = none →
    exec (.highHalfWrite off v dma) s = .next (s.withDev (
      (({ d with wrHold := Tab.erase pg d.wrHold }).regWrite .host reg (v.toNat * 2 ^ 32 + d.rwLow reg) dma).postWrites))) ∧
  (∀ (s : State),
    s.dev.pageThere 0x020 = true →
    s.dev.pageInReset 0x020 = false →
    exec (.timestampLatch .pod) s = .next (s.withDev ({ s.dev with
      rdata := secOf s.dev.time
      latched := Tab.set s.dev.latched 0x020108 0 (pack [(16, 30, nsOf s.dev.time), (0, 16, fracOf s.dev.time)]) }))) ∧
  (∀ (n : Fin 8) (s : State),
    let a := 0x1000000 * (n.val + 1) + 0x118
    s.dev.pageInReset (a / 0x1000) = false →
    exec (.timestampLatch (.agent n)) s = .next (s.withDev (s.dev.latchTime a (s.dev.agentTime n))))

/-- A clear goes bit by bit: a bit whose condition has not ended stays (a level that holds, or reaction 2 on a partition's page before the
reset that follows the raise), another goes (R367); a force raises each source of the page as if its cause had occurred, and does nothing
where the enable bit is 0 (R366); a release without device safe state, or with a reaction 3 bit set, only settles the protocol (R371); the
hub's watchdog and a lost bridge are raised (R373); the drain report at the index is latched whole (R373). Nothing else changes. -/
def Obligations.FaultBlocks : Prop :=
  (∀ (pg : BitVec 17) (b : Block) (mask : BitVec 32) (levels : BitVec 24) (s : State),
    pageBlock pg.toNat = some b →
    [Block.aflt, .vfInfo, .vfCtx, .vfDb].contains b = false →
    s.dev.pageThere pg.toNat = true →
    s.dev.pageInReset pg.toNat = false →
    exec (.fltClear pg mask levels) s = .next (s.withDev (s.dev.clearFaults pg.toNat mask.toNat))) ∧
  (∀ (a : Fin 8) (mask : BitVec 32) (levels : BitVec 24) (s : State),
    let pg := BitVec.ofNat 17 (0x1000 * (a.val + 1) + 3)
    s.dev.pageInReset pg.toNat = false →
    exec (.fltClear pg mask levels) s = .next (s.withDev (s.dev.clearAgentFaults a mask.toNat levels.toNat))) ∧
  (∀ (d : Dev) (pg i : Nat),
    d.levelHolds ⟨pg, i⟩ = true →
    d.clearBit pg i = d) ∧
  (∀ (d : Dev) (pg i : Nat),
    d.reactOf ⟨pg, i⟩ = 2 →
    bitAt i (Tab.getD d.unreset pg 0) = true →
    d.clearBit pg i = d) ∧
  (∀ (d : Dev) (pg i : Nat),
    bitAt i (d.get (Reg.FLT_STATUS_status pg)) = true →
    d.levelHolds ⟨pg, i⟩ = false →
    d.reactOf ⟨pg, i⟩ ≠ 2 →
    d.clearBit pg i = d.clrBitOf (Reg.FLT_STATUS_status pg) i) ∧
  (∀ (pg : BitVec 17) (b : Block) (mask : BitVec 32) (s : State),
    pageBlock pg.toNat = some b →
    b ≠ .aflt →
    s.dev.pageThere pg.toNat = true →
    s.dev.pageInReset pg.toNat = false →
    exec (.fltForce pg mask) s = .next (s.withDev (
      ((List.range (nFlt b)).filter fun i => bitAt i mask.toNat).foldl (fun (d : Dev) i => d.raiseSrc ⟨pg.toNat, i⟩ true) s.dev))) ∧
  (∀ (d : Dev) (f : FltSrc) (forced : Bool),
    bitAt f.idx (d.get (Reg.FLT_ENABLE_enable f.page)) = false →
    d.raiseSrc f forced = d) ∧
  (∀ (s : State),
    s.dev.get Reg.FLT_DEV_STATUS_state ≠ 2 →
    exec (.fltRelease false) s = .next (s.withDev (s.dev.settle))) ∧
  (∀ (s : State),
    ownPages.any (fun pg => s.dev.statusWith pg 3) = true →
    exec (.fltRelease false) s = .next (s.withDev (s.dev.settle))) ∧
  (∀ (s : State),
    s.dev.get Reg.FLT_DEV_STATUS_state = 2 →
    ownPages.any (fun pg => s.dev.statusWith pg 3) = false →
    exec (.fltRelease false) s = .next (s.withDev (
      let d := ((s.dev.put Reg.FLT_DEV_STATUS_state 1).put Reg.FLT_DEV_STATUS_cause 0).put Reg.FLT_DEV_CAUSE_valid 0;
      let d := (List.range 16).foldl Dev.leaveSafe (d.put Reg.FLT_DEV_CAUSE_code 0).settleDev;
      let d := if d.isMember then d.fenceQuiet else d;
      (if 7 ≤ d.stage ∧ d.stage ≠ 0xF then (d.enterStage 7).startDiscovery else d).settle))) ∧
  (∀ (ecc : Bool) (s : State),
    exec (.hubWatchdog ecc) s = .next (s.withDev ((s.dev.raise Src.FLT_hub_watchdog).hubEcc ecc))) ∧
  (∀ (ecc : Bool) (s : State),
    exec (.bridgeFail ecc) s = .next (s.withDev ((s.dev.raise Src.FLT_bridge_fail).hubEcc ecc))) ∧
  (∀ (s : State),
    exec .drainReportRead s = .next (s.withDev (
      let r := Tab.getD s.dev.drainLog (s.dev.get Reg.FLT_DRAIN_IDX_index) (0, 0);
      let l := Tab.set (Tab.set s.dev.latched Reg.FLT_DRAIN_W0_page.addr 0 (r.1 % 2 ^ 64)) (Reg.FLT_DRAIN_W0_page.addr + 8) 0 (r.2 % 2 ^ 64);
      { s.dev with latched := l, rdata := r.1 % 2 ^ 64 })))

/-- A snapshot copies every implemented slot of a page that is no function's with the time base's nanoseconds (R30); bit 63 clears an error counter whole and
never a utilisation counter (R37); a utilisation counter counts modulo 2^64, an error counter stops at its limit where the first lost
increment sets sat (R37); the device-wide snapshot takes every page in service (R398); the energy and progress registers are latched
together by the read of their first (R429, R435). Nothing else changes. -/
def Obligations.CountersAndSnapshots : Prop :=
  (∀ (pg : BitVec 17) (b : Block) (s : State),
    s.dev.pageThere pg.toNat = true →
    s.dev.pageInReset pg.toNat = false →
    pageBlock pg.toNat = some b →
    functionPage b = false →
    exec (.snap pg) s = .next (s.withDev ((({ s.dev with snaps := Tab.set s.dev.snaps pg.toNat [] (s.dev.slots pg.toNat) }.put
      (Reg.CNT_LATCH_valid pg.toNat) 1).put (Reg.CNT_LATCH_snap_ns pg.toNat) (nsOf s.dev.time))))) ∧
  (∀ (pg : BitVec 17) (s : State),
    s.dev.pageInReset pg.toNat = true →
    keepsThroughReset pg.toNat = false →
    exec (.snap pg) s = .next (s.withDev (s.dev))) ∧
  (∀ (pg : BitVec 17) (slot : Fin 15) (b : Block) (s : State),
    pageBlock pg.toNat = some b →
    (errorSlots b).contains slot.val = true →
    slot.val < nCnt b →
    s.dev.pageThere pg.toNat = true →
    s.dev.pageInReset pg.toNat = false →
    exec (.cntClear pg slot) s = .next (s.withDev (s.dev.put ⟨pg.toNat * 0x1000 + 0x88 + 8 * slot.val, 0, 64, 0⟩ 0))) ∧
  (∀ (pg : BitVec 17) (slot : Fin 15) (b : Block) (s : State),
    pageBlock pg.toNat = some b →
    (errorSlots b).contains slot.val = false →
    exec (.cntClear pg slot) s = .next (s.withDev (s.dev))) ∧
  (∀ (d : Dev) (c : Fld) (n : Nat),
    c.w = 64 →
    d.regsWf = true →
    (d.addU c n).get c = (d.get c + n) % 2 ^ 64) ∧
  (∀ (d : Dev) (c : Fld),
    d.get c = 0xFFFFFFFF →
    d.incE c = (d.put c (2 ^ 63 + 0xFFFFFFFF)).event (c.page * 64 + 48 + c.slot) 0) ∧
  (∀ (d : Dev) (c : Fld),
    d.get c = 2 ^ 63 + 0xFFFFFFFF →
    d.incE c = d) ∧
  (∀ (s : State),
    exec .snapNow s = .next (s.withDev ((ownPages.filter s.dev.pageServes).foldl Dev.snapPage s.dev))) ∧
  (∀ (s : State),
    s.dev.flag Reg.DBG_SNAP_CTRL_arm = true →
    timeOfStamp (s.dev.get Reg.DBG_SNAP_T_t) ≤ s.dev.time →
    exec .snapTime s = .next (s.withDev ((s.dev.put Reg.DBG_SNAP_CTRL_arm 0).snapAll))) ∧
  (∀ (s : State),
    s.dev.flag Reg.DBG_SNAP_CTRL_arm = false →
    exec .snapTime s = .next (s.withDev (s.dev))) ∧
  (∀ (s : State),
    exec .nrgRead s = .next (s.withDev (
      let d := (List.range 9).foldl (fun (d : Dev) i => { d with latched := Tab.set d.latched (0x500 + 8 * i) 0 (d.get ⟨0x500 + 8 * i, 0, 64, 0⟩) }) s.dev;
      { d with rdata := d.get Reg.DEV_NRG_TOTAL_uj }))) ∧
  (∀ (s : State),
    exec .progRead s = .next (s.withDev (
      let ws := s.dev.progWords (s.dev.get Reg.DEV_PROG_SEL_inst);
      { ws.zipIdx.foldl (fun (d : Dev) e => { d with latched := Tab.set d.latched (0x590 + 8 * e.2) 0 (e.1 % 2 ^ 64) }) s.dev with
        rdata := ws.headD 0 % 2 ^ 64 })))

/-- The engine takes one access at a time (R45). An access to chip 0xFFFE is executed on the hub and ends with its code and data; one to a
chip that is no member ends with 0x01, one that is handed to the pair leaves as a request; the reply of the target ends it with its code
and data, one whose authentication fails with 0x05, and the timeout with 0x02 (R46). A target tells a sender that fencing refuses so with
0x03, executes a request once, and answers 0x04 for a page closed to remote access (R45 to R47). It answers a read of a register, of SRAM or
of LPDDR4X with 0x00 and the data, a write with 0x00, and hands an access to an agent's page on to the agent. BAR2 reads and writes the SRAM window,
and nothing beyond it (R39), and reads all ones before stage 0xA (R68). Nothing else changes. -/
def Obligations.RemoteAccess : Prop :=
  (∀ (timeout : BitVec 16) (s : State),
    s.dev.flag Reg.MGMT_RA_STATUS_busy = true →
    exec (.raRead timeout) s = .next (s.withDev (s.dev))) ∧
  (∀ (timeout : BitVec 16) (s : State),
    s.dev.flag Reg.MGMT_RA_STATUS_busy = true →
    exec (.raWrite timeout) s = .next (s.withDev (s.dev))) ∧
  (∀ (timeout : BitVec 16) (s : State),
    let d := ((s.dev.put Reg.MGMT_RA_CTRL_timeout (limitTo (.range 100 65535) timeout.toNat)).putB Reg.MGMT_RA_CTRL_op false)
    let addr := d.get Reg.MGMT_RA_ADDR_addr * 8
    let data := d.get Reg.MGMT_RA_DATA_data
    let e := (d.put Reg.MGMT_RA_STATUS_busy 1).put Reg.MGMT_RA_STATUS_done 0
    let f := ({ e with ra := { e.ra with seq := (e.ra.seq + 1) % 2 ^ 32, target := some (podChip addr), write := false, acked := [] } } : Dev)
    s.dev.flag Reg.MGMT_RA_STATUS_busy = false →
    s.dev.pageThere 0x030 = true →
    s.dev.pageInReset 0x030 = false →
    d.flag Reg.MGMT_RA_STATUS_busy = false →
    d.pageOn 0x030 = true →
    d.pageInReset 0x030 = false →
    d.pageThere 0x030 = true →
    podChip addr = 0xFFFE →
    podSpace addr = 0 →
    podOffset addr < 2 ^ 24 →
    closedToRemote (podOffset addr) = false →
    f.pageInReset (podOffset addr / 0x1000) = false →
    exec (.raRead timeout) s = .next (s.withDev ((f.readAt (podOffset addr)).raFinish 0x00 (f.readAt (podOffset addr)).rdata))) ∧
  (∀ (timeout : BitVec 16) (s : State),
    let d := ((s.dev.put Reg.MGMT_RA_CTRL_timeout (limitTo (.range 100 65535) timeout.toNat)).putB Reg.MGMT_RA_CTRL_op true)
    let addr := d.get Reg.MGMT_RA_ADDR_addr * 8
    let data := d.get Reg.MGMT_RA_DATA_data
    let e := ((d.put Reg.MGMT_RA_STATUS_busy 1).put Reg.MGMT_RA_STATUS_done 0).put Reg.MGMT_RA_STATUS_acks 0
    let f := ({ e with ra := { e.ra with seq := (e.ra.seq + 1) % 2 ^ 32, target := some (podChip addr), write := true, acked := [] } } : Dev)
    s.dev.flag Reg.MGMT_RA_STATUS_busy = false →
    s.dev.pageThere 0x030 = true →
    s.dev.pageInReset 0x030 = false →
    d.flag Reg.MGMT_RA_STATUS_busy = false →
    d.pageOn 0x030 = true →
    d.pageInReset 0x030 = false →
    d.pageThere 0x030 = true →
    podChip addr = 0xFFFE →
    podSpace addr = 0 →
    podOffset addr < 2 ^ 24 →
    closedToRemote (podOffset addr) = false →
    f.pageInReset (podOffset addr / 0x1000) = false →
    exec (.raWrite timeout) s = .next (s.withDev ((f.writeAt .pair (podOffset addr) data none).raFinish 0x00 0))) ∧
  (∀ (timeout : BitVec 16) (code : Nat) (s : State),
    let d := ((s.dev.put Reg.MGMT_RA_CTRL_timeout (limitTo (.range 100 65535) timeout.toNat)).putB Reg.MGMT_RA_CTRL_op false)
    let addr := d.get Reg.MGMT_RA_ADDR_addr * 8
    let data := d.get Reg.MGMT_RA_DATA_data
    let e := (d.put Reg.MGMT_RA_STATUS_busy 1).put Reg.MGMT_RA_STATUS_done 0
    let f := ({ e with ra := { e.ra with seq := (e.ra.seq + 1) % 2 ^ 32, target := some (podChip addr), write := false, acked := [] } } : Dev)
    s.dev.flag Reg.MGMT_RA_STATUS_busy = false →
    s.dev.pageThere 0x030 = true →
    s.dev.pageInReset 0x030 = false →
    d.flag Reg.MGMT_RA_STATUS_busy = false →
    d.pageOn 0x030 = true →
    d.pageInReset 0x030 = false →
    d.pageThere 0x030 = true →
    f.raRefusal (podChip addr) (podSpace addr) (podOffset addr) false = some code →
    exec (.raRead timeout) s = .next (s.withDev (f.raEnd code))) ∧
  (∀ (timeout : BitVec 16) (s : State),
    let d := ((s.dev.put Reg.MGMT_RA_CTRL_timeout (limitTo (.range 100 65535) timeout.toNat)).putB Reg.MGMT_RA_CTRL_op false)
    let addr := d.get Reg.MGMT_RA_ADDR_addr * 8
    let data := d.get Reg.MGMT_RA_DATA_data
    let e := (d.put Reg.MGMT_RA_STATUS_busy 1).put Reg.MGMT_RA_STATUS_done 0
    let f := ({ e with ra := { e.ra with seq := (e.ra.seq + 1) % 2 ^ 32, target := some (podChip addr), write := false, acked := [] } } : Dev)
    s.dev.flag Reg.MGMT_RA_STATUS_busy = false →
    s.dev.pageThere 0x030 = true →
    s.dev.pageInReset 0x030 = false →
    d.flag Reg.MGMT_RA_STATUS_busy = false →
    d.pageOn 0x030 = true →
    d.pageInReset 0x030 = false →
    d.pageThere 0x030 = true →
    f.raRefusal (podChip addr) (podSpace addr) (podOffset addr) false = none →
    f.ownChip (podChip addr) = false →
    chipIsBroadcast (podChip addr) = false →
    exec (.raRead timeout) s = .next (s.withDev ((f.raSend (podChip addr) false addr data).raCheck))) ∧
  (∀ (timeout : BitVec 16) (s : State),
    let d := ((s.dev.put Reg.MGMT_RA_CTRL_timeout (limitTo (.range 100 65535) timeout.toNat)).putB Reg.MGMT_RA_CTRL_op true)
    let addr := d.get Reg.MGMT_RA_ADDR_addr * 8
    let data := d.get Reg.MGMT_RA_DATA_data
    let e := ((d.put Reg.MGMT_RA_STATUS_busy 1).put Reg.MGMT_RA_STATUS_done 0).put Reg.MGMT_RA_STATUS_acks 0
    let f := ({ e with ra := { e.ra with seq := (e.ra.seq + 1) % 2 ^ 32, target := some (podChip addr), write := true, acked := [] } } : Dev)
    s.dev.flag Reg.MGMT_RA_STATUS_busy = false →
    s.dev.pageThere 0x030 = true →
    s.dev.pageInReset 0x030 = false →
    d.flag Reg.MGMT_RA_STATUS_busy = false →
    d.pageOn 0x030 = true →
    d.pageInReset 0x030 = false →
    d.pageThere 0x030 = true →
    f.raRefusal (podChip addr) (podSpace addr) (podOffset addr) true = none →
    f.ownChip (podChip addr) = false →
    chipIsBroadcast (podChip addr) = false →
    exec (.raWrite timeout) s = .next (s.withDev ((f.raSend (podChip addr) true addr data).raCheck))) ∧
  (∀ (h : FabHdr) (seq : BitVec 32) (op : Bool) (addr data : Word) (s : State),
    s.dev.passes h = false →
    exec (.raReq h seq op addr data) s = .next (s.withDev ((s.dev.fenceDrop h.src.toNat).raAnswer h.src.toNat seq.toNat 0x03 0))) ∧
  (∀ (h : FabHdr) (seq : BitVec 32) (op : Bool) (addr data : Word) (s : State),
    s.dev.passes h = true →
    Tab.find h.src.toNat s.dev.ra.served = some seq.toNat →
    exec (.raReq h seq op addr data) s = .next (s.withDev (s.dev))) ∧
  (∀ (h : FabHdr) (seq : BitVec 32) (addr data : Word) (s : State),
    s.dev.passes h = true →
    Tab.find h.src.toNat s.dev.ra.served ≠ some seq.toNat →
    podSpace addr.toNat = 0 →
    closedToRemote (podOffset addr.toNat) = true →
    exec (.raReq h seq false addr data) s = .next (s.withDev (
      ({ s.dev with ra := { s.dev.ra with served := Tab.insert h.src.toNat seq.toNat (Tab.erase h.src.toNat s.dev.ra.served) } }.raAnswer
        h.src.toNat seq.toNat 0x04 0).postWrites))) ∧
  (∀ (h : FabHdr) (seq : BitVec 32) (addr data : Word) (s : State),
    let off := podOffset addr.toNat
    let d := ({ s.dev with ra := { s.dev.ra with served := Tab.insert h.src.toNat seq.toNat (Tab.erase h.src.toNat s.dev.ra.served) } } : Dev)
    s.dev.passes h = true → Tab.find h.src.toNat s.dev.ra.served ≠ some seq.toNat →
    podSpace addr.toNat = 0 → off < 2 ^ 24 → closedToRemote off = false → s.dev.accessInReset off = false →
    exec (.raReq h seq false addr data) s = .next (s.withDev (((d.readAt off).raAnswer h.src.toNat seq.toNat 0x00 (d.readAt off).rdata).postWrites))) ∧
  (∀ (h : FabHdr) (seq : BitVec 32) (addr data : Word) (s : State),
    let off := podOffset addr.toNat
    let d := ({ s.dev with ra := { s.dev.ra with served := Tab.insert h.src.toNat seq.toNat (Tab.erase h.src.toNat s.dev.ra.served) } } : Dev)
    s.dev.passes h = true → Tab.find h.src.toNat s.dev.ra.served ≠ some seq.toNat →
    podSpace addr.toNat = 0 → off < 2 ^ 24 → closedToRemote off = false → s.dev.accessInReset off = false → off / 8 * 8 ≠ 0x030110 →
    exec (.raReq h seq true addr data) s = .next (s.withDev (
      ((d.writeAt (.remote h.src) off data.toNat none).raAnswer h.src.toNat seq.toNat 0x00 0).postWrites))) ∧
  (∀ (h : FabHdr) (seq : BitVec 32) (addr data : Word) (s : State),
    let off := podOffset addr.toNat
    let d := ({ s.dev with ra := { s.dev.ra with served := Tab.insert h.src.toNat seq.toNat (Tab.erase h.src.toNat s.dev.ra.served) } } : Dev)
    s.dev.passes h = true → Tab.find h.src.toNat s.dev.ra.served ≠ some seq.toNat →
    podSpace addr.toNat = 1 ∨ podSpace addr.toNat = 2 → podExists (podSpace addr.toNat) off = true →
    exec (.raReq h seq true addr data) s = .next (s.withDev (
      ((d.podStore (podSpace addr.toNat) off (leBytes 8 data.toNat)).raAnswer h.src.toNat seq.toNat 0x00 0).postWrites))) ∧
  (∀ (h : FabHdr) (seq : BitVec 32) (addr data : Word) (s : State),
    let off := podOffset addr.toNat
    let d := ({ s.dev with ra := { s.dev.ra with served := Tab.insert h.src.toNat seq.toNat (Tab.erase h.src.toNat s.dev.ra.served) } } : Dev)
    s.dev.passes h = true → Tab.find h.src.toNat s.dev.ra.served ≠ some seq.toNat →
    podSpace addr.toNat = 1 ∨ podSpace addr.toNat = 2 → podExists (podSpace addr.toNat) off = true →
    exec (.raReq h seq false addr data) s = .next (s.withDev (
      let r := d.podNumber (podSpace addr.toNat) off 8; (r.1.raAnswer h.src.toNat seq.toNat 0x00 r.2).postWrites))) ∧
  (∀ (h : FabHdr) (seq : BitVec 32) (op : Bool) (addr data : Word) (s : State),
    let off := podOffset addr.toNat
    let d := ({ s.dev with ra := { s.dev.ra with served := Tab.insert h.src.toNat seq.toNat (Tab.erase h.src.toNat s.dev.ra.served) } } : Dev)
    s.dev.passes h = true → Tab.find h.src.toNat s.dev.ra.served ≠ some seq.toNat →
    podSpace addr.toNat = 3 → off < 2 ^ 27 →
    exec (.raReq h seq op addr data) s = .next (s.withDev (
      d.regSend (off / 2 ^ 24) op (off % 2 ^ 24) data.toNat (some (h.src.toNat, seq.toNat))))) ∧
  (∀ (h : FabHdr) (seq : BitVec 32) (code : Byte) (data : Word) (s : State),
    s.dev.passes h = true →
    s.dev.ra.target = some h.src.toNat →
    seq.toNat = s.dev.ra.seq →
    chipIsBroadcast h.src.toNat = false →
    exec (.raRsp h seq code data true) s = .next (s.withDev (s.dev.raFinish code.toNat data.toNat))) ∧
  (∀ (h : FabHdr) (seq : BitVec 32) (code : Byte) (data : Word) (chip : Nat) (s : State),
    s.dev.passes h = true →
    s.dev.ra.target = some chip →
    seq.toNat = s.dev.ra.seq →
    exec (.raRsp h seq code data false) s = .next (s.withDev ((s.dev.raise Src.MGMT_ra_auth_fail).raEnd 0x05))) ∧
  (∀ (s : State),
    s.dev.flag Reg.MGMT_RA_STATUS_busy = true →
    exec .raTimeout s = .next (s.withDev (s.dev.raEnd 0x02))) ∧
  (∀ (s : State),
    s.dev.flag Reg.MGMT_RA_STATUS_busy = false →
    exec .raTimeout s = .next (s.withDev (s.dev))) ∧
  (∀ (off : BitVec 35) (size : Fin 8) (data : List Byte) (n : Fin 65) (s : State),
    off.toNat + data.length ≤ 2 ^ (28 + size.val) →
    s.dev.pwr.powered.contains .hub = true →
    s.dev.barsLive = true →
    exec (.bar2Access true off size data n) s = .next (s.withDev (s.dev.podStore 1 (s.dev.bar2Offset (28 + size.val) off.toNat) (data.map BitVec.toNat)))) ∧
  (∀ (off : BitVec 35) (size : Fin 8) (data : List Byte) (n : Fin 65) (s : State),
    off.toNat + n.val ≤ 2 ^ (28 + size.val) →
    s.dev.pwr.powered.contains .hub = true →
    s.dev.barsLive = false →
    exec (.bar2Access false off size data n) s = .next (s.withDev { s.dev with rdata := 2 ^ (8 * n.val) - 1 })) ∧
  (∀ (off : BitVec 35) (size : Fin 8) (data : List Byte) (n : Fin 65) (s : State),
    off.toNat + n.val ≤ 2 ^ (28 + size.val) →
    s.dev.pwr.powered.contains .hub = true →
    s.dev.barsLive = true →
    exec (.bar2Access false off size data n) s = .next (s.withDev (
      let r := s.dev.podNumber 1 (s.dev.bar2Offset (28 + size.val) off.toNat) n; { r.1 with rdata := r.2 })))

/-- A failed self-check of the comparator is raised (R396). In single mode a copy leaves at once; in dual mode the first copy is held, the
second, identical and within 2 us, lets the message leave and is counted, one that differs is a mismatch, and a copy without a partner
leaves alone after its time (R388); with the active core silent the standby takes over (R389); the self-tests of a mismatch end in the
outcomes of R390; a slice that fails takes the standby offline, a completed pass is counted (R391). The pair's register writes act at the
end of the command. Nothing else changes. -/
def Obligations.ManagementPair : Prop :=
  (∀ (n : Fin 2) (seq : BitVec 32) (m : Message) (s : State),
    exec (.comparatorCopy n seq m false) s = .next (s.withDev ((s.dev.raise Src.CMP_cmp_self).postWrites))) ∧
  (∀ (n : Fin 2) (seq : BitVec 32) (m : Message) (s : State),
    let d := s.dev
    let c := (⟨n, seq.toNat, d.nowUs, m⟩ : PairCopy)
    d.core n = 4 →
    d.flag Reg.MGMT_PAIR_dual = false →
    d.pair.mismatch = none →
    (d.pair.released.find? fun r => r.seq == seq.toNat && decide (d.nowUs < r.at_ + 1000)) = none →
    exec (.comparatorCopy n seq m true) s = .next (s.withDev (
      ({ d with pair := { d.pair with held := d.pair.held ++ [{ c with core := 2 }] } }).flushAll.postWrites))) ∧
  (∀ (n : Fin 2) (seq : BitVec 32) (m : Message) (s : State),
    let d := s.dev
    let c := (⟨n, seq.toNat, d.nowUs, m⟩ : PairCopy)
    (d.core n = 3 ∨ d.core n = 4) →
    d.flag Reg.MGMT_PAIR_dual = true →
    (d.pair.released.find? fun r => r.seq == seq.toNat && decide (d.nowUs < r.at_ + 1000)) = none →
    (d.pair.held.find? fun h => h.seq == seq.toNat && h.core == 1 - n.val) = none →
    exec (.comparatorCopy n seq m true) s = .next (s.withDev (
      ({ d with pair := { d.pair with held := d.pair.held ++ [c] } } : Dev).postWrites))) ∧
  (∀ (n : Fin 2) (seq : BitVec 32) (m : Message) (h : PairCopy) (s : State),
    let d := s.dev
    let c := (⟨n, seq.toNat, d.nowUs, m⟩ : PairCopy)
    (d.core n = 3 ∨ d.core n = 4) →
    d.flag Reg.MGMT_PAIR_dual = true →
    (d.pair.released.find? fun r => r.seq == seq.toNat && decide (d.nowUs < r.at_ + 1000)) = none →
    (d.pair.held.find? fun h => h.seq == seq.toNat && h.core == 1 - n.val) = some h →
    h.msg = m →
    d.nowUs ≤ h.at_ + 2 →
    exec (.comparatorCopy n seq m true) s = .next (s.withDev (
      let held := d.pair.held.filter fun x => x.seq != seq.toNat;
      ((({ d with pair := { d.pair with held := held ++ [{ c with core := 2 }] } }).incU Cnt.CMP_CNT_CMP_PAIRED).flushAll).postWrites))) ∧
  (∀ (n : Fin 2) (seq : BitVec 32) (m : Message) (h : PairCopy) (s : State),
    let d := s.dev
    let c := (⟨n, seq.toNat, d.nowUs, m⟩ : PairCopy)
    (d.core n = 3 ∨ d.core n = 4) →
    d.flag Reg.MGMT_PAIR_dual = true →
    (d.pair.released.find? fun r => r.seq == seq.toNat && decide (d.nowUs < r.at_ + 1000)) = none →
    (d.pair.held.find? fun h => h.seq == seq.toNat && h.core == 1 - n.val) = some h →
    h.msg ≠ m →
    exec (.comparatorCopy n seq m true) s = .next (s.withDev (
      ((({ d with pair := { d.pair with held := d.pair.held ++ [c] } } : Dev).mismatch seq.toNat).postWrites)))) ∧
  (∀ (seq : BitVec 32) (c : PairCopy) (s : State),
    s.dev.pair.mismatch ≠ some seq.toNat →
    (s.dev.pair.held.find? fun c => c.seq == seq.toNat && c.core != 2) = some c →
    exec (.singleCopy seq) s = .next (s.withDev (
      let held := s.dev.pair.held.filter fun x => x.seq != seq.toNat;
      (({ s.dev with pair := { s.dev.pair with held := held ++ [{ c with core := 2 }] } }).incU Cnt.CMP_CNT_CMP_SINGLE).flushAll.postWrites))) ∧
  (∀ (acked : List (BitVec 32)) (s : State),
    s.dev.flag Reg.MGMT_PAIR_dual = true →
    exec (.takeover acked) s = .next (s.withDev (((s.dev.coreOff (s.dev.get Reg.MGMT_PAIR_active)).coreGone (s.dev.get Reg.MGMT_PAIR_active) 4
      (acked.map BitVec.toNat)).postWrites))) ∧
  (∀ (acked : List (BitVec 32)) (s : State),
    s.dev.flag Reg.MGMT_PAIR_dual = false →
    exec (.takeover acked) s = .next (s.withDev (s.dev.postWrites))) ∧
  (∀ (seq : Nat) (s : State),
    s.dev.pair.mismatch = some seq →
    exec (.pairSelftestDone false false) s = .next (s.withDev (
      ((({ (s.dev.coreOff 0).coreOff 1 with pair := { s.dev.pair with mismatch := none } }).raise Src.FLT_mgmt_none).postWrites)))) ∧
  (∀ (seq : Nat) (s : State),
    s.dev.pair.mismatch = some seq →
    exec (.pairSelftestDone true false) s = .next (s.withDev ((((((s.dev.coreOff 1).setCore 0 4).releaseHeld seq 0).singleMode 0).postWrites)))) ∧
  (∀ (seq : Nat) (s : State),
    s.dev.pair.mismatch = some seq →
    exec (.pairSelftestDone false true) s = .next (s.withDev ((((((s.dev.coreOff 0).setCore 1 4).releaseHeld seq 1).singleMode 1).postWrites)))) ∧
  (∀ (seq : Nat) (s : State),
    s.dev.pair.mismatch = some seq →
    s.dev.pair.lastMismatch = none →
    exec (.pairSelftestDone true true) s = .next (s.withDev (
      let act := s.dev.get Reg.MGMT_PAIR_active;
      let d := { s.dev with pair := { s.dev.pair with lastMismatch := some s.dev.nowUs } };
      ((((d.setCore act 4).setCore (1 - act) 2).releaseHeld seq act).postWrites)))) ∧
  (∀ (b : Bool) (s : State),
    let act := s.dev.get Reg.MGMT_PAIR_active
    s.dev.flag Reg.MGMT_PAIR_dual = true →
    exec (.standbySlice false b) s = .next (s.withDev (
      (((((s.dev.setCore (1 - act) 5).healthEvent).raise Src.MGMT_standby_selftest).singleMode act).postWrites)))) ∧
  (∀ (s : State),
    s.dev.flag Reg.MGMT_PAIR_dual = true →
    exec (.standbySlice true true) s = .next (s.withDev ((s.dev.healthEvent.incU Cnt.MGMT_CNT_MGMT_SELFTEST).postWrites))) ∧
  (∀ (s : State),
    s.dev.pair.held ≠ [] →
    exec .cmpHeld s = .next (s.withDev (s.dev.raise Src.CMP_cmp_held))) ∧
  (∀ (s : State),
    s.dev.pair.held = [] →
    exec .cmpHeld s = .next (s.withDev (s.dev)))

/-- Core 0 that passes in stage 0x3 beside a core in self-test is active, core 1 standby; a core that passes beside an active one
resynchronises, one that fails goes offline and is raised; a resynchronised core is standby and counted; offline is ignored unless the
other core is active or standby; retry takes an offline core on a good feed to off. Nothing else changes. -/
def Obligations.CoreStates : Prop :=
  (∀ (s : State),
    s.dev.core 0 = 1 →
    s.dev.core 1 = 1 →
    s.dev.stage = 3 →
    s.dev.pair.mismatch = none →
    exec (.coreSelftestDone 0 true) s = .next (s.withDev (((s.dev.setCore 0 4).firmwareCheck).postWrites))) ∧
  (∀ (s : State),
    s.dev.core 1 = 1 →
    s.dev.core 0 = 4 →
    s.dev.stage = 3 →
    s.dev.pair.mismatch = none →
    exec (.coreSelftestDone 1 true) s = .next (s.withDev (((s.dev.setCore 1 3).firmwareCheck).postWrites))) ∧
  (∀ (n : Fin 2) (s : State),
    s.dev.core n = 1 →
    s.dev.core (1 - n.val) = 4 →
    s.dev.stage ≠ 3 →
    s.dev.pair.mismatch = none →
    exec (.coreSelftestDone n true) s = .next (s.withDev (((s.dev.setCore n 2).firmwareCheck).postWrites))) ∧
  (∀ (s : State),
    s.dev.core 1 = 1 →
    s.dev.coreAbsent 0 = false →
    s.dev.pair.mismatch = none →
    exec (.coreSelftestDone 1 false) s = .next (s.withDev (((s.dev.coreOff 1).firmwareCheck).postWrites))) ∧
  (∀ (n : Fin 2) (s : State),
    s.dev.core n = 2 →
    s.dev.core (1 - n.val) = 4 →
    exec (.coreResyncDone n) s = .next (s.withDev ((s.dev.setCore n 3).incU Cnt.MGMT_CNT_MGMT_RESYNC))) ∧
  (∀ (n : Fin 2) (s : State),
    (s.dev.core (1 - n.val) = 3 ∨ s.dev.core (1 - n.val) = 4) →
    s.dev.core n ≠ 5 →
    exec (.coreOffline n) s = .next (s.withDev (((s.dev.coreOff n).coreGone n (s.dev.core n) []).postWrites))) ∧
  (∀ (n : Fin 2) (s : State),
    s.dev.core (1 - n.val) ≠ 3 →
    s.dev.core (1 - n.val) ≠ 4 →
    exec (.coreOffline n) s = .next (s.withDev (s.dev.postWrites))) ∧
  (∀ (s : State),
    s.dev.core 0 = 5 →
    s.dev.get Reg.PWR_FEED_STATUS_feed_a_state = 1 →
    exec (.coreRetry 0) s = .next (s.withDev ({ s.dev.setCore 0 0 with pwr := { s.dev.pwr with powered := s.dev.pwr.powered.filter (· != Domain.mgmt 0) } }))) ∧
  (∀ (s : State),
    s.dev.core 1 = 5 →
    s.dev.get Reg.PWR_FEED_STATUS_feed_b_state ≠ 1 →
    exec (.coreRetry 1) s = .next (s.withDev (s.dev)))

/-- The accelerator's signals at its agent. A tile is released at once without a key (counted) or in state 6; under a key it is counted, and a
selected one leaves with the operand blocks that are not resident, or waits while the shipping buffer is full (R172, R173, R195, R200). step_end of the present step with a mark list
in order sends MARK and enters state 2, another raises mark_error (R175, R176, R178). update_done, hold_ack and copy_done move a committed
step and its cut on, and in state 6 are recorded (R178, R179, R182). The command strobes latch and write a record (R190); a progress pulse
is noted, a fault input is raised, a busy engine without progress is shown, counted and raised (R186, R187). Nothing else changes. -/
def Obligations.AgentSignals : Prop :=
  (∀ (a : Fin 8) (t : TapTile) (s : State),
    (s.dev.agent a).tap = [] →
    s.dev.stepState a = 6 →
    exec (.tileTap a t.toTapDesc t.mem false) s = .next (s.withDev ((s.dev.pin (.tileRelease a) t.id.toNat).onAgent a fun x => { x with tap := [] }))) ∧
  (∀ (a : Fin 8) (t : TapTile) (s : State),
    (s.dev.agent a).tap = [] →
    s.dev.stepState a ≠ 6 →
    (s.dev.agent a).key = none →
    exec (.tileTap a t.toTapDesc t.mem false) s = .next (s.withDev (
      ((s.dev.incE (Cnt.ASMP_CNT_NO_KEY a)).pin (.tileRelease a) t.id.toNat).onAgent a fun x => { x with tap := [] }))) ∧
  (∀ (a : Fin 8) (t : TapTile) (key : Nat) (s : State),
    let d := s.dev
    let e := (d.onAgent a fun x => { x with seen := x.seen + 1 }).incU (Cnt.ASMP_CNT_TILES_SEEN a)
    (d.agent a).tap = [] →
    d.stepState a ≠ 6 →
    (d.agent a).key = some key →
    sampled key (d.get (Reg.ASMP_STATE_threshold a)) (d.agent a).job (d.get (Reg.ASMP_STATE_step a)) t.id.toNat = false →
    exec (.tileTap a t.toTapDesc t.mem false) s = .next (s.withDev ((e.pin (.tileRelease a) t.id.toNat).onAgent a fun x => { x with tap := [] }))) ∧
  (∀ (a : Fin 8) (t : TapTile) (key : Nat) (s : State),
    let d := s.dev
    let e := (d.onAgent a fun x => { x with seen := x.seen + 1 }).incU (Cnt.ASMP_CNT_TILES_SEEN a)
    let f := (e.onAgent a fun x => { x with sampled := x.sampled + 1 }).incU (Cnt.ASMP_CNT_TILES_SAMPLED a)
    (d.agent a).tap = [] →
    d.stepState a ≠ 6 →
    (d.agent a).key = some key →
    sampled key (d.get (Reg.ASMP_STATE_threshold a)) (d.agent a).job (d.get (Reg.ASMP_STATE_step a)) t.id.toNat = true →
    d.shipFull a t = false →
    exec (.tileTap a t.toTapDesc t.mem false) s = .next (s.withDev (
      let held := (tapBlocksA t ++ tapBlocksB t).filter fun b => (f.agent a).resident.contains b.1;
      let g := f.addU (Cnt.ASMP_CNT_DEDUP_BYTES a) (held.foldl (fun n b => n + b.2.length) 0);
      let g := (f.tileOpnds a t).foldl (fun (d : Dev) b => (d.sendUp a 0x12 b).addU (Cnt.ASMP_CNT_SHIP_BYTES a) (8 * b.length)) g;
      let g := (g.sendUp a 0x11 (f.tileBody a t)).addU (Cnt.ASMP_CNT_SHIP_BYTES a) (8 * (f.tileBody a t).length);
      (g.pin (.tileRelease a) t.id.toNat).onAgent a fun x => { x with tap := [] }))) ∧
  (∀ (a : Fin 8) (t u : TapTile) (rest : List TapTile) (s : State),
    (s.dev.agent a).tap ++ [t] = u :: rest →
    s.dev.selects a u = true →
    s.dev.shipFull a u = true →
    exec (.tileTap a t.toTapDesc t.mem false) s = .next (s.withDev (s.dev.onAgent a fun x => { x with tap := u :: rest }))) ∧
  (∀ (a : Fin 8) (n : BitVec 40) (list : List Word) (s : State),
    s.dev.stepState a = 6 →
    exec (.stepEnd a n list) s = .next (s.withDev (s.dev.onAgent a fun x => { x with held := x.held ++ [.stepEnd n.toNat (stampOf (s.dev.agentTime a)) (list.map BitVec.toNat)] }))) ∧
  (∀ (a : Fin 8) (n : BitVec 40) (list : List Word) (s : State),
    let d := s.dev
    let ws := list.map BitVec.toNat
    (d.stepState a = 1 ∨ d.stepState a = 3) →
    n.toNat = d.agentStep a →
    d.markOk a ws = true →
    exec (.stepEnd a n list) s = .next (s.withDev (
      let len := 1 + bits 48 16 (wd ws 0) + 2 * bits 32 16 (wd ws 0) + bits 0 32 (wd ws 0) / 8;
      let body := [pack [(24, 40, n.toNat), (16, 8, d.get (Reg.ASTEP_STATE_exec a))], stampOf (d.agentTime a),
        word2 (d.agent a).sampled (Nat.min (d.agent a).seen (2 ^ 32 - 1))] ++ ws.take len;
      (((d.setStepState a 2).sendUp a 0x10 body).incU (Cnt.ASTEP_CNT_MARKS a)).pin (.updateGate a) 0))) ∧
  (∀ (a : Fin 8) (n : BitVec 40) (list : List Word) (s : State),
    s.dev.stepState a ≠ 6 →
    n.toNat ≠ s.dev.agentStep a →
    exec (.stepEnd a n list) s = .next (s.withDev (s.dev.agentRaise a (Src.AFLT_mark_error a)))) ∧
  (∀ (a : Fin 8) (s : State),
    s.dev.stepState a = 6 →
    exec (.updateDone a) s = .next (s.withDev (s.dev.onAgent a fun x => { x with held := x.held ++ [.signal 0 0] }))) ∧
  (∀ (a : Fin 8) (s : State),
    let d := s.dev
    d.stepState a = 2 →
    (d.agent a).waitDone = true →
    (d.agent a).cut = none →
    exec (.updateDone a) s = .next (s.withDev (
      let e := d.onAgent a fun x => { x with waitDone := false };
      let e := ((e.put (Reg.ASTEP_STATE_step a) (d.agentStep a + 1)).put (Reg.ASTEP_STATE_exec a) 0).setStepState a 1;
      (e.pin (.updateGate a) 0).pin (.slotFree a) (d.agentStep a)))) ∧
  (∀ (a : Fin 8) (id n mode : Nat) (s : State),
    let d := s.dev
    d.stepState a = 2 →
    (d.agent a).waitDone = true →
    (d.agent a).cut = some (id, n, mode) →
    n ≤ d.agentStep a →
    exec (.updateDone a) s = .next (s.withDev (
      let e := d.onAgent a fun x => { x with waitDone := false, cutPhase := 1 };
      let e := ((e.put (Reg.ASTEP_STATE_step a) (d.agentStep a + 1)).put (Reg.ASTEP_STATE_exec a) 0).setStepState a 4;
      ((e.pin (.updateGate a) 0).pin (.slotFree a) (d.agentStep a)).pin (.holdReq a) 1))) ∧
  (∀ (a : Fin 8) (packed : BitVec 64) (id n : Nat) (s : State),
    s.dev.stepState a = 4 →
    (s.dev.agent a).cut = some (id, n, 0) →
    (s.dev.agent a).cutPhase = 1 →
    exec (.holdAck a packed) s = .next (s.withDev (((s.dev.onAgent a fun x => { x with cutPhase := 3 }).writeRecord a).cutAck a id 0x00))) ∧
  (∀ (a : Fin 8) (packed : BitVec 64) (id n : Nat) (s : State),
    s.dev.stepState a = 4 →
    (s.dev.agent a).cut = some (id, n, 1) →
    (s.dev.agent a).cutPhase = 1 →
    (s.dev.flag (Reg.AGT_INFO_copy_cut a) = false ∨ s.dev.get (Reg.ASTEP_STAGE_pages a) * 2 ^ 21 < packed.toNat) →
    exec (.holdAck a packed) s = .next (s.withDev (((s.dev.onAgent a fun x => { x with cutPhase := 3 }).writeRecord a).cutAck a id 0x03))) ∧
  (∀ (a : Fin 8) (packed : BitVec 64) (id n : Nat) (s : State),
    s.dev.stepState a = 4 →
    (s.dev.agent a).cut = some (id, n, 1) →
    (s.dev.agent a).cutPhase = 1 →
    s.dev.flag (Reg.AGT_INFO_copy_cut a) = true →
    packed.toNat ≤ s.dev.get (Reg.ASTEP_STAGE_pages a) * 2 ^ 21 →
    exec (.holdAck a packed) s = .next (s.withDev (
      ((s.dev.onAgent a fun x => { x with cutPhase := 2, staged := some ((x.methods.filter fun m => m.2 == 1).map (·.1)) }).writeRecord a).pin
        (.copyReq a) 1))) ∧
  (∀ (a : Fin 8) (id n mode : Nat) (s : State),
    s.dev.stepState a = 4 →
    (s.dev.agent a).cut = some (id, n, mode) →
    (s.dev.agent a).cutPhase = 2 →
    exec (.copyDone a) s = .next (s.withDev (
      (((s.dev.cutAck a id 0x01).onAgent a fun x => { x with cut := none, cutPhase := 0 }).setStepState a 1).pin (.holdReq a) 0))) ∧
  (∀ (a : Fin 8) (tag : BitVec 32) (ctrs : List Word) (s : State),
    let d := s.dev
    (d.agent a).open_ < 32 →
    exec (.cmdStart a tag ctrs) s = .next (s.withDev (
      let e := d.onAgent a fun x => { x with cmds := x.cmds ++ [⟨tag.toNat, stampOf (d.agentTime a) :: d.cmdCounters a ((ctrs.take 4).map BitVec.toNat)⟩] };
      e.put (Reg.ACMD_STATUS_open a) (e.agent a).open_))) ∧
  (∀ (a : Fin 8) (tag : BitVec 32) (ctrs : List Word) (s : State),
    let d := s.dev
    32 ≤ (d.agent a).open_ →
    exec (.cmdStart a tag ctrs) s = .next (s.withDev (
      let e := d.onAgent a fun x => { x with cmds := x.cmds ++ [⟨tag.toNat, []⟩] };
      e.put (Reg.ACMD_STATUS_open a) (e.agent a).open_))) ∧
  (∀ (a : Fin 8) (tag : BitVec 32) (ctrs : List Word) (c : AccCmd) (rest : List AccCmd) (s : State),
    let d := s.dev.sendUp a 0x17 [tag.toNat % 2 ^ 24 * 2 ^ 40]
    let n := 2 ^ d.get (Reg.ACMD_RING_log2n a)
    let index := d.get (Reg.ACMD_STATUS_index a) % n
    bitAt 31 tag.toNat = true →
    Tab.getD (s.dev.agent a).methods (tag.toNat % 2 ^ 24) 0 = 3 →
    takeCmd tag.toNat (s.dev.agent a).cmds = (some c, rest) →
    c.start ≠ [] →
    exec (.cmdEnd a tag ctrs) s = .next (s.withDev (
      let w := [pack [(32, 32, tag.toNat), (2, 1, 0), (1, 1, 0), (0, 1, (s.dev.agent a).cmdPass)], wd c.start 0, stampOf (d.agentTime a), 0] ++
        (List.range 4).map (fun i => wd c.start (i + 1)) ++ d.cmdCounters a ((ctrs.take 4).map BitVec.toNat) ++ [0, 0, 0, 0];
      let e := d.emit (.accWrite a (d.get (Reg.ACMD_RING_base a) * 4096 + index * 128) (wordBytes w));
      let e := e.onAgent a fun x => { x with cmds := rest, cmdPass := (x.cmdPass + (index + 1) / n) % 2 };
      let e := e.put (Reg.ACMD_STATUS_index a) ((index + 1) % n);
      e.put (Reg.ACMD_STATUS_open a) (e.agent a).open_))) ∧
  (∀ (a : Fin 8) (tag : BitVec 32) (ctrs : List Word) (c : Option AccCmd) (rest : List AccCmd) (s : State),
    let d := s.dev
    let n := 2 ^ d.get (Reg.ACMD_RING_log2n a)
    let index := d.get (Reg.ACMD_STATUS_index a) % n
    bitAt 31 tag.toNat = false →
    takeCmd tag.toNat (s.dev.agent a).cmds = (c, rest) →
    (c = none ∨ ∃ x, c = some x ∧ x.start = []) →
    exec (.cmdEnd a tag ctrs) s = .next (s.withDev (
      let w := [pack [(32, 32, tag.toNat), (2, 1, b2n c.isNone), (1, 1, b2n c.isSome), (0, 1, (s.dev.agent a).cmdPass)], 0, stampOf (d.agentTime a), 0] ++
        (List.range 4).map (fun i => 0) ++ d.cmdCounters a ((ctrs.take 4).map BitVec.toNat) ++ [0, 0, 0, 0];
      let e := d.emit (.accWrite a (d.get (Reg.ACMD_RING_base a) * 4096 + index * 128) (wordBytes w));
      let e := e.onAgent a fun x => { x with cmds := rest, cmdPass := (x.cmdPass + (index + 1) / n) % 2 };
      let e := e.put (Reg.ACMD_STATUS_index a) ((index + 1) % n);
      (e.put (Reg.ACMD_STATUS_open a) (e.agent a).open_).incE (Cnt.ACMD_CNT_CMD_ANOMALY a)))) ∧
  (∀ (a : Fin 8) (tag : BitVec 32) (ctrs : List Word) (c : AccCmd) (rest : List AccCmd) (s : State),
    let d := s.dev
    let n := 2 ^ d.get (Reg.ACMD_RING_log2n a)
    let index := d.get (Reg.ACMD_STATUS_index a) % n
    (bitAt 31 tag.toNat = false ∨ Tab.getD (s.dev.agent a).methods (tag.toNat % 2 ^ 24) 0 ≠ 3) →
    takeCmd tag.toNat (d.agent a).cmds = (some c, rest) →
    c.start ≠ [] →
    exec (.cmdEnd a tag ctrs) s = .next (s.withDev (
      let w := [pack [(32, 32, tag.toNat), (2, 1, 0), (1, 1, 0), (0, 1, (d.agent a).cmdPass)], wd c.start 0, stampOf (d.agentTime a), 0] ++
        (List.range 4).map (fun i => wd c.start (i + 1)) ++ d.cmdCounters a ((ctrs.take 4).map BitVec.toNat) ++ [0, 0, 0, 0];
      let e := d.emit (.accWrite a (d.get (Reg.ACMD_RING_base a) * 4096 + index * 128) (wordBytes w));
      let e := e.onAgent a fun x => { x with cmds := rest, cmdPass := (x.cmdPass + (index + 1) / n) % 2 };
      let e := e.put (Reg.ACMD_STATUS_index a) ((index + 1) % n);
      e.put (Reg.ACMD_STATUS_open a) (e.agent a).open_))) ∧
  (∀ (a : Fin 8) (e : Fin 64) (s : State),
    exec (.progressPulse a e) s = .next (s.withDev (s.dev.onAgent a fun x => { x with progress := Tab.insert e s.dev.nowUs (Tab.erase e x.progress) }))) ∧
  (∀ (a : Fin 8) (i : Fin 24) (s : State),
    exec (.accFault a i) s = .next (s.withDev (s.dev.agentRaise a (Src.AFLT_acc_fault a i)))) ∧
  (∀ (a : Fin 8) (e : Fin 64) (s : State),
    e.val < s.dev.get (Reg.AGT_INFO_n_eng a) →
    s.dev.engineTimeout a e ≠ 0 →
    bitAt e (s.dev.get (Reg.AFLT_ENG_HUNG_hung a)) = false →
    s.dev.progressed a e = false →
    exec (.agentEngineHang a ⟨e, true⟩) s = .next (s.withDev (((s.dev.setBitOf (Reg.AFLT_ENG_HUNG_hung a) e).incE (Cnt.AFLT_CNT_HANG a)).agentRaise a (Src.AFLT_engine_hang a)))) ∧
  (∀ (a : Fin 8) (e : Fin 64) (busy : Bool) (s : State),
    s.dev.engineTimeout a e = 0 →
    exec (.agentEngineHang a ⟨e, busy⟩) s = .next (s.withDev (s.dev))) ∧
  (∀ (a : Fin 8) (e : Fin 64) (s : State),
    exec (.agentEngineHang a ⟨e, false⟩) s = .next (s.withDev (s.dev)))

/-- A message unacknowledged is sent again as it was first sent, counted, and after eight tries the link is lost (R168, R186); an ACK
releases the sender's copy, an agent dropping one of a lower epoch and one on a port that is not up (R168, R170); a port without frames is
lost (R186); a cut abandoned by its time is answered 0x05 and raised (R178). TIME from a port that is up
or fenced corrects the copy, or a jump is refused (R189); holdover and rearm (R189). APROF_LOCK sends the declarations once (R192). An
agent reset, its timeout, a fence and a missing MARK act as R170, R180, R193 and R375 say. Nothing else changes. -/
def Obligations.AgentPortAndTime : Prop :=
  (∀ (a : Fin 8) (seq : BitVec 24) (m : PortMsg) (s : State),
    let d := s.dev
    ((d.agent a).up.find? fun m => m.seq == seq.toNat && d.agentUp a) = some m →
    m.tries < 8 →
    exec (.retransmit .agent a seq) s = .next (s.withDev (
      (((d.incE (Cnt.AGP_CNT_AGP_RETX a)).onAgent a fun x => { x with up := (d.agent a).up.map fun y =>
        if y.seq = seq.toNat then { y with tries := y.tries + 1 } else y }).emit (.up a m.kind m.seq m.job m.epoch m.body))))) ∧
  (∀ (a : Fin 8) (seq : BitVec 24) (m : PortMsg) (s : State),
    let d := s.dev
    ((d.aport a).down.find? fun m => m.seq == seq.toNat && d.downOpen a) = some m →
    m.tries < 8 →
    exec (.retransmit .controller a seq) s = .next (s.withDev (
      let e := d.incE (Cnt.AGP_CNT_AGP_RETX a);
      let e := e.setAport a { e.aport a with down := (d.aport a).down.map fun y => if y.seq = seq.toNat then { y with tries := y.tries + 1 } else y };
      e.downOut a m))) ∧
  (∀ (a : Fin 8) (seq : BitVec 24) (m : PortMsg) (s : State),
    ((s.dev.agent a).up.find? fun m => m.seq == seq.toNat && s.dev.agentUp a) = some m →
    8 ≤ m.tries →
    exec (.retransmit .agent a seq) s = .next (s.withDev (s.dev.agentRaise a (Src.AFLT_port_lost a)))) ∧
  (∀ (a : Fin 8) (seq : BitVec 24) (m : PortMsg) (s : State),
    ((s.dev.aport a).down.find? fun m => m.seq == seq.toNat && s.dev.downOpen a) = some m →
    8 ≤ m.tries →
    exec (.retransmit .controller a seq) s = .next (s.withDev (s.dev.raise (Src.AGP_agent_link_lost a)))) ∧
  (∀ (a : Fin 8) (h : PortHdr) (seq : BitVec 24) (s : State),
    let d := s.dev.put (Reg.AGT_STATUS_epoch a) h.epoch.toNat
    s.dev.get (Reg.AGT_STATUS_port a) = 3 →
    newer (s.dev.get (Reg.AGT_STATUS_epoch a)) h.epoch.toNat = false →
    exec (.ack .agent a ⟨h, seq⟩) s = .next (s.withDev (
      ((d.onAgent a fun x => { x with up := x.up.filter fun m => m.seq != seq.toNat }).tapAgain a).settle))) ∧
  (∀ (a : Fin 8) (h : PortHdr) (seq : BitVec 24) (s : State),
    s.dev.get (Reg.AGT_STATUS_port a) = 3 →
    newer (s.dev.get (Reg.AGT_STATUS_epoch a)) h.epoch.toNat = true →
    exec (.ack .agent a ⟨h, seq⟩) s = .next (s.withDev ((s.dev.incE (Cnt.ASTEP_CNT_STALE a)).settle))) ∧
  (∀ (a : Fin 8) (h : PortHdr) (seq : BitVec 24) (s : State),
    s.dev.get (Reg.AGT_STATUS_port a) = 4 →
    newer (s.dev.get (Reg.AGT_STATUS_epoch a)) h.epoch.toNat = true →
    exec (.ack .agent a ⟨h, seq⟩) s = .next (s.withDev ((s.dev.incE (Cnt.ASTEP_CNT_STALE a)).settle))) ∧
  (∀ (a : Fin 8) (h : PortHdr) (seq : BitVec 24) (s : State),
    s.dev.get (Reg.AGT_STATUS_port a) ≠ 3 →
    (s.dev.get (Reg.AGT_STATUS_port a) = 4 → newer (s.dev.get (Reg.AGT_STATUS_epoch a)) h.epoch.toNat = false) →
    exec (.ack .agent a ⟨h, seq⟩) s = .next (s.withDev (s.dev.settle))) ∧
  (∀ (a : Fin 8) (h : PortHdr) (seq : BitVec 24) (j : JobSt) (s : State),
    let u := s.dev.addU (Cnt.AGP_CNT_AGP_UP a) (portBytes [seq.toNat])
    let d := u.setAport a { u.aport a with down := (u.aport a).down.filter fun m => m.seq != seq.toNat }
    let e := ((d.shardAcked a seq.toNat).replayAcked a seq.toNat).takeAcked a seq.toNat
    (s.dev.get (Reg.AGP_STATUS_port a) = 3 ∨ s.dev.get (Reg.AGP_STATUS_port a) = 4) →
    ((u.aport a).down.any fun m => m.seq == seq.toNat) = true →
    e.jobOfAcc a = some j →
    exec (.ack .controller a ⟨h, seq⟩) s = .next (s.withDev ((e.lateReports j.desc.job).settle))) ∧
  (∀ (a : Fin 8) (h : PortHdr) (seq : BitVec 24) (s : State),
    let u := s.dev.addU (Cnt.AGP_CNT_AGP_UP a) (portBytes [seq.toNat])
    let d := u.setAport a { u.aport a with down := (u.aport a).down.filter fun m => m.seq != seq.toNat }
    let e := ((d.shardAcked a seq.toNat).replayAcked a seq.toNat).takeAcked a seq.toNat
    (s.dev.get (Reg.AGP_STATUS_port a) = 3 ∨ s.dev.get (Reg.AGP_STATUS_port a) = 4) →
    ((u.aport a).down.any fun m => m.seq == seq.toNat) = true →
    e.jobOfAcc a = none →
    exec (.ack .controller a ⟨h, seq⟩) s = .next (s.withDev (e.settle))) ∧
  (∀ (a : Fin 8) (s : State),
    exec (.portLost a) s = .next (s.withDev ((s.dev.setAgentPort a 1).agentRaise a (Src.AFLT_port_lost a)))) ∧
  (∀ (a : Fin 8) (id n mode : Nat) (s : State),
    s.dev.stepState a = 4 →
    (s.dev.agent a).cut = some (id, n, mode) →
    exec (.cutAbandon a) s = .next (s.withDev (
      let d := ((s.dev.onAgent a fun x => { x with cut := none, cutPhase := 0 }).setStepState a 1).pin (.holdReq a) 0;
      (d.cutAck a id 0x05).agentRaise a (Src.AFLT_cut_abandoned a)))) ∧
  (∀ (a : Fin 8) (h : PortHdr) (sec : BitVec 48) (ns : BitVec 30) (frac : BitVec 16) (latency : BitVec 32) (s : State),
    let d := s.dev
    (d.get (Reg.AGT_STATUS_port a) = 3 ∨ d.get (Reg.AGT_STATUS_port a) = 4) →
    newer (d.get (Reg.AGT_STATUS_epoch a)) h.epoch.toNat = false →
    h.seq.toNat = (d.agent a).downNext →
    exec (.timeMsg a h sec ns frac latency) s = .next (s.withDev (
      let e := ((d.onAgent a fun x => { x with downNext := (h.seq.toNat + 1) % 2 ^ 24 }).put (Reg.AGT_STATUS_epoch a) h.epoch.toNat).ackFromAgent a h.seq.toNat;
      e.agentTimeIn a (timeOf sec.toNat ns.toNat frac.toNat) latency.toNat))) ∧
  (∀ (a : Fin 8) (s : State),
    exec (.agentTimeHoldover a) s = .next (s.withDev (
      (((s.dev.onAgent a fun x => { x with good := none }).put (Reg.AGT_TIME_STATUS_holdover a) 1).put (Reg.AGT_TIME_STATUS_locked a) 0).agentRaise a
        (Src.AFLT_time_holdover a)))) ∧
  (∀ (a : Fin 8) (s : State),
    s.dev.pageInReset (0x1000 * (a.val + 1)) = true →
    exec (.rearmTime a) s = .next (s.withDev (s.dev))) ∧
  (∀ (a : Fin 8) (tables : List (List Word)) (s : State),
    s.dev.pageInReset (0x1000 * (a.val + 1) + 5) = true →
    exec (.aprofLock a tables) s = .next (s.withDev (s.dev))) ∧
  (∀ (a : Fin 8) (s : State),
    s.dev.pageThere (0x1000 * (a.val + 1)) = true → s.dev.pageInReset (0x1000 * (a.val + 1)) = false →
    exec (.rearmTime a) s = .next (s.withDev (s.dev.onAgent a fun x => { x with rearm := true }))) ∧
  (∀ (a : Fin 8) (tables : List (List Word)) (s : State),
    s.dev.flag (Reg.APROF_LOCK_lock a) = true →
    exec (.aprofLock a tables) s = .next (s.withDev (s.dev))) ∧
  (∀ (a : Fin 8) (tables : List (List Word)) (s : State),
    let d := s.dev
    s.dev.pageThere (0x1000 * (a.val + 1) + 5) = true → s.dev.pageInReset (0x1000 * (a.val + 1) + 5) = false →
    d.flag (Reg.APROF_LOCK_lock a) = false →
    exec (.aprofLock a tables) s = .next (s.withDev (
      let ws := (List.range 4).flatMap fun i => [d.get (Reg.APROF_W0_w a i), d.get (Reg.APROF_W1_w a i), d.get (Reg.APROF_W2_w a i), d.get (Reg.APROF_W3_w a i)];
      let ts := (tables.map fun t => t.map BitVec.toNat).zipIdx.filter fun t => d.get (Reg.APROF_W3_w a t.2) != 0;
      let e := (d.onAgent a fun x => { x with decl := ws ++ ts.flatMap fun t => t.1.take 2048 }).put (Reg.APROF_LOCK_lock a) 1;
      e.sendDecl a))) ∧
  (∀ (a : Fin 8) (s : State),
    exec (.agentReset a) s = .next (s.withDev (
      let pages := ((List.range 6).map fun k => 0x1000 * (a.val + 1) + k) ++ [0x080 + a.val];
      let d := pages.foldl (fun (d : Dev) pg => d.resetPage pg (agentKeeps a)) s.dev;
      let d := pages.foldl (fun (d : Dev) pg => d.put (Reg.PAGE_STATUS_reset_active pg) 0) (d.put (Reg.APROF_LOCK_lock a) 0);
      let d := d.onAgent a fun x => { x with
        cmds := [], cmdPass := 0, progress := [], good := none, rearm := false, decl := [] };
      let d := ((d.resumeRecord a).setAgentPort a 1).leaveHeld a;
      if d.flag (Reg.AGT_CTRL_port_en a) then d.trainPort a else d))) ∧
  (∀ (a : Fin 8) (s : State),
    exec (.agentResetTimeout a) s = .next (s.withDev (if s.dev.agentUp a then s.dev else s.dev.raise (Src.AGP_agent_link_lost a)))) ∧
  (∀ (a : Fin 8) (s : State),
    s.dev.pageInReset (0x080 + a.val) = true →
    exec (.agentFence a) s = .next (s.withDev (s.dev))) ∧
  (∀ (a : Fin 8) (s : State),
    s.dev.pageThere (0x080 + a.val) = true →
    s.dev.pageInReset (0x080 + a.val) = false →
    s.dev.agentUp a = true →
    exec (.agentFence a) s = .next (s.withDev ((s.dev.setAgentPort a 4).put (Reg.AGP_CTRL_fence a) 0))) ∧
  (∀ (a : Fin 8) (j : JobSt) (x : AccJob) (s : State),
    s.dev.jobOfAcc a = some j →
    j.accOf a = some x →
    x.mark = none →
    x.standIn = false →
    exec (.markMissing a) s = .next (s.withDev (s.dev.raise (Src.AGP_mark_missing a))))

/-- The next message in order of an epoch that is not older, on a port that is up, is acknowledged and acts (R168, R170): JOB takes the
methods and the key into state 1, END returns to state 0, COMMIT and REPLAY of the gated step install the key and open the gate or start
the replay, CUT is recorded or answered for a committed step, a PULL that the limit
of four admits is answered, RESTORE stops the accelerator in state 5, a SHARD in state 5 and an XPUT to an exchange
record are written within the entry's length, a SHARD of an exchange record or of none raises shard_map_error in every state, RESUME goes on with the step after, RESID changes the resident table (R178, R179, R182 to
R184, R201, R333). In state 6 a message is recorded; a step already committed and a lower epoch are stale; another number has no effect. Nothing else
changes. -/
def Obligations.DownMessages : Prop :=
  (∀ (a : Fin 8) (h : PortHdr) (first : BitVec 40) (key : BitVec 128) (threshold : BitVec 13) (methods : List (BitVec 24 × Fin 4))
      (map : List (BitVec 24 × BitVec 38)) (s : State),
    let d := s.dev
    let t := ((d.onAgent a fun x => { x with downNext := (h.seq.toNat + 1) % 2 ^ 24 }).put (Reg.AGT_STATUS_epoch a) h.epoch.toNat).ackFromAgent a h.seq.toNat
    d.get (Reg.AGT_STATUS_port a) = 3 →
    newer (d.get (Reg.AGT_STATUS_epoch a)) h.epoch.toNat = false →
    h.seq.toNat = (d.agent a).downNext →
    t.stepState a = 0 →
    exec (.job a h first key threshold methods map) s = .next (s.withDev (
      let entries := (map.map fun e => (e.1.toNat, e.2.toNat)).take (t.get (Reg.ASTEP_LIMITS_map_count a));
      let here := (methods.map fun m => (m.1.toNat, m.2.val)).filter fun m => entries.any fun e => e.1 == m.1;
      let e := t.onAgent a fun x => { x with
        job := h.job.toNat
        methods := here.foldl (fun t m => Tab.insert m.1 m.2 (Tab.erase m.1 t)) []
        committed := if first.toNat = 0 then none else some (first.toNat - 1)
        waitDone := false };
      let e := (e.put (Reg.ASTEP_STATE_step a) first.toNat).put (Reg.ASTEP_STATE_exec a) 0;
      let e := ((e.installKey a key.toNat first.toNat threshold.toNat).setStepState a 1).writeMap a here entries;
      (if here.length < methods.length then e.agentRaise a (Src.AFLT_shard_map_error a) else e).tapAgain a))) ∧
  (∀ (a : Fin 8) (h : PortHdr)  (s : State),
    let d := s.dev
    let t := ((d.onAgent a fun x => { x with downNext := (h.seq.toNat + 1) % 2 ^ 24 }).put (Reg.AGT_STATUS_epoch a) h.epoch.toNat).ackFromAgent a h.seq.toNat
    d.get (Reg.AGT_STATUS_port a) = 3 →
    newer (d.get (Reg.AGT_STATUS_epoch a)) h.epoch.toNat = false →
    h.seq.toNat = (d.agent a).downNext →
    t.stepState a ≠ 0 →
    t.stepState a ≠ 6 →
    exec (.endJob a h) s = .next (s.withDev (
      let x := t.agent a;
      let e := (t.dropKey a).onAgent a fun x => { x with
        job := 0
        committed := none
        waitDone := false
        cut := none
        cutPhase := 0
        staged := none
        stopped := false };
      let e := ((e.setStepState a 0).pin (.updateGate a) 0).freeSlots a (e.agentStep a);
      let e := if x.cutPhase ≠ 0 ∨ t.stepState a = 5 then e.pin (.holdReq a) 0 else e;
      (if x.stopped then e.pin (.stop a) 0 else e).tapAgain a))) ∧
  (∀ (a : Fin 8) (h : PortHdr) (step : BitVec 40) (key : BitVec 128) (threshold : BitVec 13) (s : State),
    let d := s.dev
    let t := ((d.onAgent a fun x => { x with downNext := (h.seq.toNat + 1) % 2 ^ 24 }).put (Reg.AGT_STATUS_epoch a) h.epoch.toNat).ackFromAgent a h.seq.toNat
    d.get (Reg.AGT_STATUS_port a) = 3 →
    newer (d.get (Reg.AGT_STATUS_epoch a)) h.epoch.toNat = false →
    h.seq.toNat = (d.agent a).downNext →
    t.stepState a = 2 →
    h.job.toNat = (t.agent a).job →
    (t.agent a).done step.toNat = false →
    step.toNat = t.agentStep a →
    exec (.commit a h step key threshold) s = .next (s.withDev (
      let e := (t.onAgent a fun x => { x with committed := some step.toNat, waitDone := true }).installKey a key.toNat (step.toNat + 1) threshold.toNat;
      ((e.writeRecord a).pin (.updateGate a) 1).tapAgain a))) ∧
  (∀ (a : Fin 8) (h : PortHdr) (step : BitVec 40) (key : BitVec 128) (threshold : BitVec 13) (s : State),
    let d := s.dev
    let t := ((d.onAgent a fun x => { x with downNext := (h.seq.toNat + 1) % 2 ^ 24 }).put (Reg.AGT_STATUS_epoch a) h.epoch.toNat).ackFromAgent a h.seq.toNat
    d.get (Reg.AGT_STATUS_port a) = 3 →
    newer (d.get (Reg.AGT_STATUS_epoch a)) h.epoch.toNat = false →
    h.seq.toNat = (d.agent a).downNext →
    t.stepState a ≠ 6 →
    (h.job.toNat ≠ (t.agent a).job ∨ (t.agent a).done step.toNat = true) →
    exec (.commit a h step key threshold) s = .next (s.withDev ((t.incE (Cnt.ASTEP_CNT_STALE a)).tapAgain a))) ∧
  (∀ (a : Fin 8) (h : PortHdr) (step : BitVec 40) (key : BitVec 128) (threshold : BitVec 13) (s : State),
    let d := s.dev
    let t := ((d.onAgent a fun x => { x with downNext := (h.seq.toNat + 1) % 2 ^ 24 }).put (Reg.AGT_STATUS_epoch a) h.epoch.toNat).ackFromAgent a h.seq.toNat
    d.get (Reg.AGT_STATUS_port a) = 3 →
    newer (d.get (Reg.AGT_STATUS_epoch a)) h.epoch.toNat = false →
    h.seq.toNat = (d.agent a).downNext →
    t.stepState a = 2 →
    h.job.toNat = (t.agent a).job →
    (t.agent a).done step.toNat = false →
    step.toNat = t.agentStep a →
    exec (.replay a h step key threshold) s = .next (s.withDev (
      let e := t.installKey a key.toNat step.toNat threshold.toNat;
      let e := e.put (Reg.ASTEP_STATE_exec a) (t.get (Reg.ASTEP_STATE_exec a) + 1);
      (((e.setStepState a 3).pin (.replayStart a) step.toNat).incU (Cnt.ASTEP_CNT_REPLAYS a)).tapAgain a))) ∧
  (∀ (a : Fin 8) (h : PortHdr) (step : BitVec 40) (key : BitVec 128) (threshold : BitVec 13) (s : State),
    let d := s.dev
    let t := ((d.onAgent a fun x => { x with downNext := (h.seq.toNat + 1) % 2 ^ 24 }).put (Reg.AGT_STATUS_epoch a) h.epoch.toNat).ackFromAgent a h.seq.toNat
    d.get (Reg.AGT_STATUS_port a) = 3 →
    newer (d.get (Reg.AGT_STATUS_epoch a)) h.epoch.toNat = false →
    h.seq.toNat = (d.agent a).downNext →
    t.stepState a = 6 →
    exec (.replay a h step key threshold) s = .next (s.withDev (t.onAgent a fun x => { x with held := x.held ++ [.msg h.seq.toNat (.replay h.job.toNat step.toNat key.toNat threshold.toNat)] }))) ∧
  (∀ (a : Fin 8) (h : PortHdr) (id : BitVec 32) (step : BitVec 40) (copy : Bool) (s : State),
    let d := s.dev
    let t := ((d.onAgent a fun x => { x with downNext := (h.seq.toNat + 1) % 2 ^ 24 }).put (Reg.AGT_STATUS_epoch a) h.epoch.toNat).ackFromAgent a h.seq.toNat
    d.get (Reg.AGT_STATUS_port a) = 3 →
    newer (d.get (Reg.AGT_STATUS_epoch a)) h.epoch.toNat = false →
    h.seq.toNat = (d.agent a).downNext →
    (t.stepState a = 1 ∨ t.stepState a = 2) →
    (t.agent a).done step.toNat = false →
    (t.agent a).cut = none →
    (t.agent a).staged = none →
    exec (.cut a h id step copy) s = .next (s.withDev (((((t.onAgent a fun x => { x with cut := some (id.toNat, step.toNat, b2n copy) }).writeRecord a).put
      (Reg.ASTEP_CUT_cut_id a) id.toNat).put (Reg.ASTEP_CUT_mode a) (b2n copy)).tapAgain a))) ∧
  (∀ (a : Fin 8) (h : PortHdr) (id : BitVec 32) (step : BitVec 40) (copy : Bool) (s : State),
    let d := s.dev
    let t := ((d.onAgent a fun x => { x with downNext := (h.seq.toNat + 1) % 2 ^ 24 }).put (Reg.AGT_STATUS_epoch a) h.epoch.toNat).ackFromAgent a h.seq.toNat
    d.get (Reg.AGT_STATUS_port a) = 3 →
    newer (d.get (Reg.AGT_STATUS_epoch a)) h.epoch.toNat = false →
    h.seq.toNat = (d.agent a).downNext →
    t.stepState a ≠ 6 →
    (t.agent a).done step.toNat = true →
    exec (.cut a h id step copy) s = .next (s.withDev ((t.cutAck a id.toNat 0x02).tapAgain a))) ∧
  (∀ (a : Fin 8) (h : PortHdr) (items : List PullItem) (s : State),
    let d := s.dev
    let t := ((d.onAgent a fun x => { x with downNext := (h.seq.toNat + 1) % 2 ^ 24 }).put (Reg.AGT_STATUS_epoch a) h.epoch.toNat).ackFromAgent a h.seq.toNat
    d.get (Reg.AGT_STATUS_port a) = 3 →
    newer (d.get (Reg.AGT_STATUS_epoch a)) h.epoch.toNat = false →
    h.seq.toNat = (d.agent a).downNext →
    (d.agent a).pulls < 4 →
    t.stepState a ≠ 6 →
    exec (.pull a h items) s = .next (s.withDev (
      let e := items.zipIdx.foldl (fun (d : Dev) p => d.answerPull a p.1 (p.2 + 1 == items.length)) t;
      let left : Option (List Nat) := (match (e.agent a).staged with
        | some l => let l := l.filter fun r => !(items.any fun p => p.record.toNat == r)
                    if l = [] then none else some l
        | none => none);
      (e.onAgent a fun x => { x with staged := left }).tapAgain a))) ∧
  (∀ (a : Fin 8) (h : PortHdr) (items : List PullItem) (s : State),
    4 ≤ (s.dev.agent a).pulls →
    newer (s.dev.get (Reg.AGT_STATUS_epoch a)) h.epoch.toNat = false →
    h.seq.toNat = (s.dev.agent a).downNext →
    exec (.pull a h items) s = .next (s.withDev s.dev)) ∧
  (∀ (a : Fin 8) (h : PortHdr) (items : List PullItem) (s : State),
    (s.dev.get (Reg.AGT_STATUS_port a) = 3 ∨ s.dev.get (Reg.AGT_STATUS_port a) = 4) →
    newer (s.dev.get (Reg.AGT_STATUS_epoch a)) h.epoch.toNat = true →
    exec (.pull a h items) s = .next (s.withDev (s.dev.incE (Cnt.ASTEP_CNT_STALE a)))) ∧
  (∀ (a : Fin 8) (h : PortHdr) (record : BitVec 24) (off : BitVec 38) (data : List Byte) (entry : Option ShardEntry) (s : State),
    let d := s.dev
    let t := ((d.onAgent a fun x => { x with downNext := (h.seq.toNat + 1) % 2 ^ 24 }).put (Reg.AGT_STATUS_epoch a) h.epoch.toNat)
    d.get (Reg.AGT_STATUS_port a) = 3 →
    newer (d.get (Reg.AGT_STATUS_epoch a)) h.epoch.toNat = false →
    h.seq.toNat = (d.agent a).downNext →
    t.stepState a ≠ 5 →
    t.stepState a ≠ 6 →
    (Tab.getD (t.agent a).methods record.toNat 0 = 3 ∨ entry = none) →
    exec (.shard a h record off data entry) s = .next (s.withDev (
      ((t.agentRaise a (Src.AFLT_shard_map_error a)).ackFromAgent a h.seq.toNat).tapAgain a))) ∧
  (∀ (a : Fin 8) (h : PortHdr) (step : BitVec 40) (s : State),
    let d := s.dev
    let t := ((d.onAgent a fun x => { x with downNext := (h.seq.toNat + 1) % 2 ^ 24 }).put (Reg.AGT_STATUS_epoch a) h.epoch.toNat).ackFromAgent a h.seq.toNat
    d.get (Reg.AGT_STATUS_port a) = 3 →
    newer (d.get (Reg.AGT_STATUS_epoch a)) h.epoch.toNat = false →
    h.seq.toNat = (d.agent a).downNext →
    1 ≤ t.stepState a →
    t.stepState a < 5 →
    exec (.restore a h step) s = .next (s.withDev (
      let e := (t.onAgent a fun x => { x with stopped := true, waitDone := false }).put (Reg.ASTEP_STATE_step a) step.toNat;
      let e := ((e.setStepState a 5).pin (.stop a) 1).pin (.holdReq a) 1;
      (((e.pin (.updateGate a) 0).freeSlots a (t.agentStep a)).dropCut a).tapAgain a))) ∧
  (∀ (a : Fin 8) (h : PortHdr) (record : BitVec 24) (off : BitVec 38) (data : List Byte) (e : ShardEntry) (s : State),
    let d := s.dev
    let t := ((d.onAgent a fun x => { x with downNext := (h.seq.toNat + 1) % 2 ^ 24 }).put (Reg.AGT_STATUS_epoch a) h.epoch.toNat)
    d.get (Reg.AGT_STATUS_port a) = 3 →
    newer (d.get (Reg.AGT_STATUS_epoch a)) h.epoch.toNat = false →
    h.seq.toNat = (d.agent a).downNext →
    t.stepState a = 5 →
    Tab.getD (t.agent a).methods record.toNat 0 ≠ 3 →
    e.addr.toNat % 64 = 0 →
    off.toNat + data.length ≤ e.len.toNat →
    exec (.shard a h record off data (some e)) s = .next (s.withDev (
      (((t.emit (.accWrite a (e.addr.toNat + off.toNat) (data.map BitVec.toNat))).addU (Cnt.ASTEP_CNT_SHARD_DOWN a) data.length).ackFromAgent a
        h.seq.toNat).tapAgain a))) ∧
  (∀ (a : Fin 8) (h : PortHdr) (record : BitVec 24) (off : BitVec 38) (data : List Byte) (e : ShardEntry) (s : State),
    let d := s.dev
    let t := ((d.onAgent a fun x => { x with downNext := (h.seq.toNat + 1) % 2 ^ 24 }).put (Reg.AGT_STATUS_epoch a) h.epoch.toNat)
    d.get (Reg.AGT_STATUS_port a) = 3 →
    newer (d.get (Reg.AGT_STATUS_epoch a)) h.epoch.toNat = false →
    h.seq.toNat = (d.agent a).downNext →
    t.stepState a = 5 →
    (e.len.toNat < off.toNat + data.length ∨ e.addr.toNat % 64 ≠ 0) →
    exec (.shard a h record off data (some e)) s = .next (s.withDev (
      ((t.agentRaise a (Src.AFLT_shard_map_error a)).ackFromAgent a h.seq.toNat).tapAgain a))) ∧
  (∀ (a : Fin 8) (h : PortHdr) (id : BitVec 40) (key : BitVec 128) (threshold : BitVec 13) (n mode : Nat) (s : State),
    let d := s.dev
    let t := ((d.onAgent a fun x => { x with downNext := (h.seq.toNat + 1) % 2 ^ 24 }).put (Reg.AGT_STATUS_epoch a) h.epoch.toNat).ackFromAgent a h.seq.toNat
    d.get (Reg.AGT_STATUS_port a) = 3 →
    newer (d.get (Reg.AGT_STATUS_epoch a)) h.epoch.toNat = false →
    h.seq.toNat = (d.agent a).downNext →
    t.stepState a = 4 →
    (t.agent a).cut = some (id.toNat, n, mode) →
    exec (.resume a h id key threshold) s = .next (s.withDev (
      (((t.onAgent a fun x => { x with cut := none, cutPhase := 0 }).setStepState a 1).pin (.holdReq a) 0).tapAgain a))) ∧
  (∀ (a : Fin 8) (h : PortHdr) (id : BitVec 40) (key : BitVec 128) (threshold : BitVec 13) (s : State),
    let d := s.dev
    let t := ((d.onAgent a fun x => { x with downNext := (h.seq.toNat + 1) % 2 ^ 24 }).put (Reg.AGT_STATUS_epoch a) h.epoch.toNat).ackFromAgent a h.seq.toNat
    d.get (Reg.AGT_STATUS_port a) = 3 →
    newer (d.get (Reg.AGT_STATUS_epoch a)) h.epoch.toNat = false →
    h.seq.toNat = (d.agent a).downNext →
    t.stepState a = 5 →
    id.toNat = t.agentStep a →
    exec (.resume a h id key threshold) s = .next (s.withDev (
      let e := t.onAgent a fun x => { x with stopped := false, committed := some id.toNat };
      let e := e.installKey a key.toNat (id.toNat + 1) threshold.toNat;
      let e := (e.put (Reg.ASTEP_STATE_step a) (id.toNat + 1)).put (Reg.ASTEP_STATE_exec a) 0;
      (((e.setStepState a 1).pin (.stop a) 0).pin (.holdReq a) 0).tapAgain a))) ∧
  (∀ (a : Fin 8) (h : PortHdr) (gen : BitVec 16) (add remove : List (BitVec 128)) (s : State),
    let d := s.dev
    let t := ((d.onAgent a fun x => { x with downNext := (h.seq.toNat + 1) % 2 ^ 24 }).put (Reg.AGT_STATUS_epoch a) h.epoch.toNat).ackFromAgent a h.seq.toNat
    d.get (Reg.AGT_STATUS_port a) = 3 →
    newer (d.get (Reg.AGT_STATUS_epoch a)) h.epoch.toNat = false →
    h.seq.toNat = (d.agent a).downNext →
    t.stepState a ≠ 6 →
    exec (.resid a h gen add remove) s = .next (s.withDev (
      let table := (((t.agent a).resident ++ add.map BitVec.toNat).eraseDups.filter fun i => !(remove.map BitVec.toNat).contains i).take 65536;
      ((t.onAgent a fun x => { x with resident := table, residGen := gen.toNat }).put (Reg.ASMP_RESID_used a) table.length).tapAgain a))) ∧
  (∀ (a : Fin 8) (h : PortHdr) (record : BitVec 24) (off : BitVec 38) (token : Word) (data : List Byte) (e : ShardEntry) (s : State),
    let d := s.dev
    let t := ((d.onAgent a fun x => { x with downNext := (h.seq.toNat + 1) % 2 ^ 24 }).put (Reg.AGT_STATUS_epoch a) h.epoch.toNat).ackFromAgent a h.seq.toNat
    d.get (Reg.AGT_STATUS_port a) = 3 →
    newer (d.get (Reg.AGT_STATUS_epoch a)) h.epoch.toNat = false →
    h.seq.toNat = (d.agent a).downNext →
    (t.stepState a = 1 ∨ t.stepState a = 4) →
    Tab.getD (t.agent a).methods record.toNat 0 = 3 →
    e.addr.toNat % 64 = 0 →
    off.toNat + data.length ≤ e.len.toNat →
    8 ≤ e.len.toNat →
    exec (.xput a h record off true token data (some e)) s = .next (s.withDev (
      ((t.emit (.accWrite a (e.addr.toNat + off.toNat) (data.map BitVec.toNat))).emit
        (.accWrite a (e.addr.toNat + e.len.toNat - 8) (leBytes 8 token.toNat))).tapAgain a))) ∧
  (∀ (a : Fin 8) (h : PortHdr) (step : BitVec 40) (s : State),
    s.dev.get (Reg.AGT_STATUS_port a) = 3 →
    newer (s.dev.get (Reg.AGT_STATUS_epoch a)) h.epoch.toNat = false →
    h.seq.toNat ≠ (s.dev.agent a).downNext →
    ((s.dev.agent a).downNext + 2 ^ 24 - h.seq.toNat) % 2 ^ 24 < 2 ^ 23 →
    ((s.dev.agent a).held.any (HeldEv.isShard h.seq.toNat)) = false →
    exec (.restore a h step) s = .next (s.withDev (s.dev.ackFromAgent a h.seq.toNat)))

/-- An agent whose port is up or fenced takes the next REG request in order, makes the access on its own register space (a read leaves the
value, a write its effect) and answers with the value, zero for a write, and with code 0x06 where the page is in reset (R46, R170, R443; the code's place in the
answer is the model's, log entry 45). The answer ends the access of the window entry that it names with its code: a remote requester is
answered, the controller's own access ends. Nothing else changes. -/
def Obligations.RegWindow : Prop :=
  (∀ (a : Fin 8) (h : PortHdr) (off : BitVec 24) (v : Word) (dma : Dma) (s : State),
    let d := s.dev
    let t := ((d.onAgent a fun x => { x with downNext := (h.seq.toNat + 1) % 2 ^ 24 }).put (Reg.AGT_STATUS_epoch a) h.epoch.toNat).ackFromAgent a h.seq.toNat
    (d.get (Reg.AGT_STATUS_port a) = 3 ∨ d.get (Reg.AGT_STATUS_port a) = 4) →
    newer (d.get (Reg.AGT_STATUS_epoch a)) h.epoch.toNat = false →
    h.seq.toNat = (d.agent a).downNext →
    exec (.regRequest a h false off v dma) s = .next (s.withDev (
      let at' := 0x1000000 * (a.val + 1) + off.toNat;
      let e := t.readAt at';
      e.sendUp a 0x0C [word2 (if t.pageInReset (at' / 0x1000) then 0x06 else 0x00) h.seq.toNat, e.rdata]))) ∧
  (∀ (a : Fin 8) (h : PortHdr) (off : BitVec 24) (v : Word) (dma : Dma) (s : State),
    let d := s.dev
    let t := ((d.onAgent a fun x => { x with downNext := (h.seq.toNat + 1) % 2 ^ 24 }).put (Reg.AGT_STATUS_epoch a) h.epoch.toNat).ackFromAgent a h.seq.toNat
    (d.get (Reg.AGT_STATUS_port a) = 3 ∨ d.get (Reg.AGT_STATUS_port a) = 4) →
    newer (d.get (Reg.AGT_STATUS_epoch a)) h.epoch.toNat = false →
    h.seq.toNat = (d.agent a).downNext →
    exec (.regRequest a h true off v dma) s = .next (s.withDev (
      let at' := 0x1000000 * (a.val + 1) + off.toNat;
      (t.writeAt .pair at' v.toNat dma).sendUp a 0x0C [word2 (if t.pageInReset (at' / 0x1000) then 0x06 else 0x00) h.seq.toNat, 0]))) ∧
  (∀ (a : Fin 8) (h : PortHdr) (req : BitVec 24) (code : Byte) (data : Word) (w0 w1 chip seq : Nat) (wr : Bool) (s : State),
    let d := s.dev
    let u := (d.addU (Cnt.AGP_CNT_AGP_UP a) 32).setAport a { d.aport a with upNext := (h.seq.toNat + 1) % 2 ^ 24 }
    let t := u.ackToAgent a h.seq.toNat
    d.get (Reg.AGP_STATUS_port a) = 3 →
    u.silent = false →
    h.seq.toNat = (d.aport a).upNext →
    (t.ra.windows.find? fun w => w.1 == a.val && w.2.1 == req.toNat) = some (w0, w1, some (chip, seq), wr) →
    exec (.regResponse a h req ⟨code, data⟩) s = .next (s.withDev (
      ({ t with ra := { t.ra with windows := t.ra.windows.filter fun w => !(w.1 == a.val && w.2.1 == req.toNat) } }).raAnswer chip seq code.toNat data.toNat))) ∧
  (∀ (a : Fin 8) (h : PortHdr) (req : BitVec 24) (code : Byte) (data : Word) (w0 w1 chip : Nat) (wr : Bool) (s : State),
    let d := s.dev
    let u := (d.addU (Cnt.AGP_CNT_AGP_UP a) 32).setAport a { d.aport a with upNext := (h.seq.toNat + 1) % 2 ^ 24 }
    let t := u.ackToAgent a h.seq.toNat
    d.get (Reg.AGP_STATUS_port a) = 3 →
    u.silent = false →
    h.seq.toNat = (d.aport a).upNext →
    (t.ra.windows.find? fun w => w.1 == a.val && w.2.1 == req.toNat) = some (w0, w1, none, wr) →
    t.ra.target = some chip →
    chipIsBroadcast chip = false →
    exec (.regResponse a h req ⟨code, data⟩) s = .next (s.withDev (
      ({ t with ra := { t.ra with windows := t.ra.windows.filter fun w => !(w.1 == a.val && w.2.1 == req.toNat) } }).raFinish code.toNat data.toNat)))

/-- The next up message in order on a port that is up or fenced is counted and acknowledged and acts (R168); one of another job than the
accelerator's has no further effect. MARK shows step and execution and goes to the gate (R175, R193, R215); a TILE of another step or
execution is void, and one beyond its MARK's sampled count is wrong (R203); an OPND that does not match its identifier is noted as corrupt, another is cached and announced (R202, R203);
CUTACK, DIGEST and SHARD move a cut on (R241, R242), FAULT raises agent_fault and its new sources take their points (R193, R315), DECL is
kept, and its refused declarations are raised at once and shown for an accelerator without a job (R132, R192), XRDY pulls an exchange record (R333); an outstanding verdict is raised
once (R223). Nothing else changes. -/
def Obligations.UpMessages : Prop :=
  (∀ (a : Fin 8) (h : PortHdr) (body : List Word) (j : JobSt) (s : State),
    let d := s.dev
    let ws := body.map BitVec.toNat
    let u := (d.addU (Cnt.AGP_CNT_AGP_UP a) (16 + 8 * ws.length)).setAport a { d.aport a with upNext := (h.seq.toNat + 1) % 2 ^ 24 }
    let t := u.ackToAgent a h.seq.toNat
    let e := ((t.put (Reg.AGP_MARK_step a) (bits 24 40 (wd ws 0))).put (Reg.AGP_MARK_exec a) (bits 16 8 (wd ws 0))).incU (Cnt.AGP_CNT_AGP_MARKS a)
    (d.get (Reg.AGP_STATUS_port a) = 3 ∨ d.get (Reg.AGP_STATUS_port a) = 4) →
    u.silent = false →
    h.seq.toNat = (d.aport a).upNext →
    e.jobOfAcc a = some j →
    j.desc.job = h.job.toNat →
    exec (.mark a h body) s = .next (s.withDev (
      ((e.markIn j.desc.job a (markOf (bits 24 40 (wd ws 0)) (bits 16 8 (wd ws 0)) (timeOfStamp (wd ws 1)) (bits 32 32 (wd ws 2)) (ws.drop 3))).lateReports
        j.desc.job).settle))) ∧
  (∀ (a : Fin 8) (h : PortHdr) (body : List Word) (x : AccJob) (j : JobSt) (s : State),
    let d := s.dev
    let ws := body.map BitVec.toNat
    let u := (d.addU (Cnt.AGP_CNT_AGP_UP a) (16 + 8 * ws.length)).setAport a { d.aport a with upNext := (h.seq.toNat + 1) % 2 ^ 24 }
    let t := u.ackToAgent a h.seq.toNat
    (d.get (Reg.AGP_STATUS_port a) = 3 ∨ d.get (Reg.AGP_STATUS_port a) = 4) →
    u.silent = false →
    h.seq.toNat = (d.aport a).upNext →
    t.jobOfAcc a = some j →
    j.desc.job = h.job.toNat →
    (t.incU Cnt.AGR_CNT_AGR_TILES).jobOfAcc a = some j →
    j.accOf a = some x →
    ((Tile.ofBody ws).step ≠ j.step ∨ (Tile.ofBody ws).exec ≠ x.exec) →
    exec (.tile a h body) s = .next (s.withDev (
      ((((t.incU Cnt.AGR_CNT_AGR_TILES).confirmRemovals a (some (Tile.ofBody ws).gen)).flushResid).incE Cnt.AGR_CNT_AGR_VOID).settle))) ∧
  (∀ (a : Fin 8) (h : PortHdr) (body : List Word) (x : AccJob) (j : JobSt) (s : State),
    let d := s.dev
    let ws := body.map BitVec.toNat
    let i := Tile.ofBody ws
    let u := (d.addU (Cnt.AGP_CNT_AGP_UP a) (16 + 8 * ws.length)).setAport a { d.aport a with upNext := (h.seq.toNat + 1) % 2 ^ 24 }
    let t := u.ackToAgent a h.seq.toNat
    (d.get (Reg.AGP_STATUS_port a) = 3 ∨ d.get (Reg.AGP_STATUS_port a) = 4) →
    u.silent = false →
    h.seq.toNat = (d.aport a).upNext →
    t.jobOfAcc a = some j →
    j.desc.job = h.job.toNat →
    (t.incU Cnt.AGR_CNT_AGR_TILES).jobOfAcc a = some j →
    j.accOf a = some x →
    i.step = j.step →
    i.exec = x.exec →
    x.mark = none →
    x.ids.contains i.id = true →
    exec (.tile a h body) s = .next (s.withDev (
      (let f := ((t.incU Cnt.AGR_CNT_AGR_TILES).confirmRemovals a (some i.gen)).flushResid;
      let use := f.nextUse;
      let f := { f with cache := f.cache.map fun (b : OpndBlock) => if (i.idsA ++ i.idsB).contains b.id then { b with used := use } else b };
      let f := f.onAcc j.desc.job a fun x => { x with tiles := x.tiles + 1, ids := x.ids ++ [i.id], named := setBit x.named i.decl };
      f.verdict j.desc.job ⟨a, i.step, i.exec, i.id, ws, .waiting, none, [], 0, 0, 0xFFFFFFFF, 0, 31, 0, 0, none⟩ 6 31 0 0 false).settle))) ∧
  (∀ (a : Fin 8) (h : PortHdr) (body : List Word) (x : AccJob) (m : MarkInfo) (j : JobSt) (s : State),
    let d := s.dev
    let ws := body.map BitVec.toNat
    let i := Tile.ofBody ws
    let u := (d.addU (Cnt.AGP_CNT_AGP_UP a) (16 + 8 * ws.length)).setAport a { d.aport a with upNext := (h.seq.toNat + 1) % 2 ^ 24 }
    let t := u.ackToAgent a h.seq.toNat
    (d.get (Reg.AGP_STATUS_port a) = 3 ∨ d.get (Reg.AGP_STATUS_port a) = 4) →
    u.silent = false →
    h.seq.toNat = (d.aport a).upNext →
    t.jobOfAcc a = some j →
    j.desc.job = h.job.toNat →
    (t.incU Cnt.AGR_CNT_AGR_TILES).jobOfAcc a = some j →
    j.accOf a = some x →
    i.step = j.step →
    i.exec = x.exec →
    x.mark = some m →
    m.sampled ≤ x.tiles →
    exec (.tile a h body) s = .next (s.withDev (
      (let f := ((t.incU Cnt.AGR_CNT_AGR_TILES).confirmRemovals a (some i.gen)).flushResid;
      let use := f.nextUse;
      let f := { f with cache := f.cache.map fun (b : OpndBlock) => if (i.idsA ++ i.idsB).contains b.id then { b with used := use } else b };
      f.noteVerdict j.desc.job ⟨a, i.step, i.exec, i.id, ws, .waiting, none, [], 0, 0, 0xFFFFFFFF, 0, 31, 0, 0, none⟩ 6 31 0 0).settle))) ∧
  (∀ (a : Fin 8) (h : PortHdr) (body : List Word) (x : AccJob) (j : JobSt) (s : State),
    let d := s.dev
    let ws := body.map BitVec.toNat
    let i := Tile.ofBody ws
    let u := (d.addU (Cnt.AGP_CNT_AGP_UP a) (16 + 8 * ws.length)).setAport a { d.aport a with upNext := (h.seq.toNat + 1) % 2 ^ 24 }
    let t := u.ackToAgent a h.seq.toNat
    let f := ((t.incU Cnt.AGR_CNT_AGR_TILES).confirmRemovals a (some i.gen)).flushResid
    let g := { f with cache := f.cache.map fun (b : OpndBlock) => if (i.idsA ++ i.idsB).contains b.id then { b with used := f.nextUse } else b }
    let e := g.onAcc j.desc.job a fun x => { x with tiles := x.tiles + 1, ids := x.ids ++ [i.id], named := setBit x.named i.decl }
    (d.get (Reg.AGP_STATUS_port a) = 3 ∨ d.get (Reg.AGP_STATUS_port a) = 4) →
    u.silent = false →
    h.seq.toNat = (d.aport a).upNext →
    t.jobOfAcc a = some j →
    j.desc.job = h.job.toNat →
    (t.incU Cnt.AGR_CNT_AGR_TILES).jobOfAcc a = some j →
    j.accOf a = some x →
    i.step = j.step →
    i.exec = x.exec →
    x.mark = none →
    x.ids.contains i.id = false →
    (i.idsA ++ i.idsB).any e.agr.corrupt.contains = false →
    e.tileVoid a i = false →
    (i.ds && recExp (e.flowRec i.record) != i.scaleE) = false →
    exec (.tile a h body) s = .next (s.withDev (
      ({ e with agr := { e.agr with
        tiles := e.agr.tiles ++ [⟨a, i.step, i.exec, i.id, ws, .waiting, none, [], 0, 0, 0xFFFFFFFF, 0, 31, 0, 0, none⟩] } } : Dev).settle))) ∧
  (∀ (a : Fin 8) (h : PortHdr) (id : BitVec 128) (block : List Byte) (j : JobSt) (s : State),
    let d := s.dev
    let u := (d.addU (Cnt.AGP_CNT_AGP_UP a) (16 + (16 + (block.length + 7) / 8 * 8))).setAport a { d.aport a with upNext := (h.seq.toNat + 1) % 2 ^ 24 }
    let t := u.ackToAgent a h.seq.toNat
    let e := t.addU Cnt.AGR_CNT_AGR_OPND_BYTES block.length
    (d.get (Reg.AGP_STATUS_port a) = 3 ∨ d.get (Reg.AGP_STATUS_port a) = 4) →
    u.silent = false →
    h.seq.toNat = (d.aport a).upNext →
    t.jobOfAcc a = some j →
    j.desc.job = h.job.toNat →
    t.jobOfAcc a = some j →
    block.length ≠ idLen id.toNat →
    exec (.opnd a h id block) s = .next (s.withDev (
      ({ e with agr := { e.agr with corrupt := (e.agr.corrupt ++ [id.toNat]).eraseDups } } : Dev).settle))) ∧
  (∀ (a : Fin 8) (h : PortHdr) (id : BitVec 128) (block : List Byte) (j : JobSt) (s : State),
    let d := s.dev
    let u := (d.addU (Cnt.AGP_CNT_AGP_UP a) (16 + (16 + (block.length + 7) / 8 * 8))).setAport a { d.aport a with upNext := (h.seq.toNat + 1) % 2 ^ 24 }
    let t := u.ackToAgent a h.seq.toNat
    let e := t.addU Cnt.AGR_CNT_AGR_OPND_BYTES block.length
    (d.get (Reg.AGP_STATUS_port a) = 3 ∨ d.get (Reg.AGP_STATUS_port a) = 4) →
    u.silent = false →
    h.seq.toNat = (d.aport a).upNext →
    t.jobOfAcc a = some j →
    j.desc.job = h.job.toNat →
    t.jobOfAcc a = some j →
    block.length = idLen id.toNat →
    crc64 (block.map BitVec.toNat) = id.toNat % 2 ^ 64 →
    exec (.opnd a h id block) s = .next (s.withDev (
      (let bs := block.map BitVec.toNat;
      let told := (match e.block id.toNat with | some b => if b.removed.isNone then b.told else [] | none => []);
      let f : Dev := { e with
        cache := (e.cache.filter fun (b : OpndBlock) => b.id != id.toNat) ++ [OpndBlock.mk id.toNat bs e.nextUse told none]
        agr := { e.agr with corrupt := e.agr.corrupt.filter (· != id.toNat) } };
      let room := j.agents.filter fun a => (f.residentOf a).contains id.toNat || decide ((f.residentOf a).length < 65536);
      let f := if room = [] then f else f.sendResid room [id.toNat] [];
      f.evictBlocks (limitTo (.range 256 4096) (j.reg Reg.AGR_LIMITS_cache_mib) * 2 ^ 20) f.cache.length).settle))) ∧
  (∀ (a : Fin 8) (h : PortHdr) (id : BitVec 32) (status : Byte) (c : CutSt) (i : JobSt) (j : JobSt) (s : State),
    let d := s.dev
    let u := (d.addU (Cnt.AGP_CNT_AGP_UP a) (16 + 8)).setAport a { d.aport a with upNext := (h.seq.toNat + 1) % 2 ^ 24 }
    let t := u.ackToAgent a h.seq.toNat
    (d.get (Reg.AGP_STATUS_port a) = 3 ∨ d.get (Reg.AGP_STATUS_port a) = 4) →
    u.silent = false →
    h.seq.toNat = (d.aport a).upNext →
    t.jobOfAcc a = some j →
    j.desc.job = h.job.toNat →
    t.cutOf j.desc.job = some (i, c) →
    c.step % 2 ^ 32 = id.toNat →
    ((i.accOf a).bind AccJob.cutAck).isSome = false →
    (status.toNat = 0 ∨ status.toNat = 1 ∨ status.toNat = 3) →
    exec (.cutack a h id status) s = .next (s.withDev (
      (((t.onAcc j.desc.job a fun x => { x with cutAck := some status.toNat }).cutCheck j.desc.job).startPulls j.desc.job a).settle))) ∧
  (∀ (a : Fin 8) (h : PortHdr) (id : BitVec 32) (status : Byte) (c : CutSt) (i : JobSt) (j : JobSt) (s : State),
    let d := s.dev
    let u := (d.addU (Cnt.AGP_CNT_AGP_UP a) (16 + 8)).setAport a { d.aport a with upNext := (h.seq.toNat + 1) % 2 ^ 24 }
    let t := u.ackToAgent a h.seq.toNat
    (d.get (Reg.AGP_STATUS_port a) = 3 ∨ d.get (Reg.AGP_STATUS_port a) = 4) →
    u.silent = false →
    h.seq.toNat = (d.aport a).upNext →
    t.jobOfAcc a = some j →
    j.desc.job = h.job.toNat →
    t.cutOf j.desc.job = some (i, c) →
    c.step % 2 ^ 32 = id.toNat →
    ((i.accOf a).bind AccJob.cutAck).isSome = false →
    (status.toNat = 2 ∨ status.toNat = 4 ∨ status.toNat = 5) →
    exec (.cutack a h id status) s = .next (s.withDev (
      ((t.onAcc j.desc.job a fun x => { x with cutAck := some status.toNat }).cutCheck j.desc.job).settle))) ∧
  (∀ (a : Fin 8) (h : PortHdr) (record : BitVec 24) (v : Word) (c : CutSt) (i : JobSt) (j : JobSt) (s : State),
    let d := s.dev
    let u := (d.addU (Cnt.AGP_CNT_AGP_UP a) (16 + 16)).setAport a { d.aport a with upNext := (h.seq.toNat + 1) % 2 ^ 24 }
    let t := u.ackToAgent a h.seq.toNat
    (d.get (Reg.AGP_STATUS_port a) = 3 ∨ d.get (Reg.AGP_STATUS_port a) = 4) →
    u.silent = false →
    h.seq.toNat = (d.aport a).upNext →
    t.jobOfAcc a = some j →
    j.desc.job = h.job.toNat →
    t.cutOf j.desc.job = some (i, c) →
    c.pulls.contains (a.val, record.toNat, true) = true →
    exec (.digest a h record (some v)) s = .next (s.withDev (
      (let f := t.onCut j.desc.job fun c => { c with pulls := c.pulls.filter (· != (a.val, record.toNat, true)) };
      (f.digestOut i c record.toNat (f.accId a) v.toNat).pullsOf j.desc.job a).settle))) ∧
  (∀ (a : Fin 8) (h : PortHdr) (record : BitVec 24) (off : BitVec 38) (data : List Byte) (j : JobSt) (s : State),
    let d := s.dev
    let u := (d.addU (Cnt.AGP_CNT_AGP_UP a) (16 + (16 + (data.length + 7) / 8 * 8))).setAport a { d.aport a with upNext := (h.seq.toNat + 1) % 2 ^ 24 }
    let t := u.ackToAgent a h.seq.toNat
    (d.get (Reg.AGP_STATUS_port a) = 3 ∨ d.get (Reg.AGP_STATUS_port a) = 4) →
    u.silent = false →
    h.seq.toNat = (d.aport a).upNext →
    t.jobOfAcc a = some j →
    j.desc.job = h.job.toNat →
    j.isExchange record.toNat = false →
    exec (.shardUp a h record off data) s = .next (s.withDev ((t.cutShard j.desc.job a record.toNat off.toNat (data.map BitVec.toNat)).settle))) ∧
  (∀ (a : Fin 8) (h : PortHdr) (status first time : Word) (s : State),
    let d := s.dev
    let u := (d.addU (Cnt.AGP_CNT_AGP_UP a) (16 + 24)).setAport a { d.aport a with upNext := (h.seq.toNat + 1) % 2 ^ 24 }
    let t := u.ackToAgent a h.seq.toNat
    let old := if (t.aport a).fault.2 = time.toNat then (t.aport a).fault.1 else 0
    let new := fun (i : Nat) => bitAt i status.toNat && !bitAt i old
    (d.get (Reg.AGP_STATUS_port a) = 3 ∨ d.get (Reg.AGP_STATUS_port a) = 4) →
    u.silent = false →
    h.seq.toNat = (d.aport a).upNext →
    exec (.fault a h status first time) s = .next (s.withDev (
      (let e := (t.setAport a { t.aport a with fault := (status.toNat, time.toNat) }).raise (Src.AGP_agent_fault a);
      let e := if new 3 then e.points a 4 1500 else e;
      if new 6 then e.points a 5 500 else e).settle))) ∧
  (∀ (a : Fin 8) (h : PortHdr) (body : List Word) (s : State),
    let d := s.dev
    let u := (d.addU (Cnt.AGP_CNT_AGP_UP a) (16 + 8 * body.length)).setAport a { d.aport a with upNext := (h.seq.toNat + 1) % 2 ^ 24 }
    let t := u.ackToAgent a h.seq.toNat
    let e := (t.setAport a { t.aport a with decl := body.map BitVec.toNat }).put (Reg.AGP_STATUS_decl a) 1
    let bad := (declsOf (e.aport a).decl).filter fun w => (declInstall (wd w.2 0) (wd w.2 1) (wd w.2 2)).isNone
    (d.get (Reg.AGP_STATUS_port a) = 3 ∨ d.get (Reg.AGP_STATUS_port a) = 4) →
    u.silent = false →
    h.seq.toNat = (d.aport a).upNext →
    bad ≠ [] →
    e.jobOfAcc a = none →
    exec (.decl a h body) s = .next (s.withDev (((bad.foldl (fun (d : Dev) w => d.putDecl a w.1 none) e).raise (Src.AGP_decl_refused a)).settle))) ∧
  (∀ (a : Fin 8) (h : PortHdr) (body : List Word) (s : State),
    let d := s.dev
    let u := (d.addU (Cnt.AGP_CNT_AGP_UP a) (16 + 8 * body.length)).setAport a { d.aport a with upNext := (h.seq.toNat + 1) % 2 ^ 24 }
    let t := u.ackToAgent a h.seq.toNat
    let e := (t.setAport a { t.aport a with decl := body.map BitVec.toNat }).put (Reg.AGP_STATUS_decl a) 1
    (d.get (Reg.AGP_STATUS_port a) = 3 ∨ d.get (Reg.AGP_STATUS_port a) = 4) →
    u.silent = false →
    h.seq.toNat = (d.aport a).upNext →
    ((declsOf (e.aport a).decl).filter fun w => (declInstall (wd w.2 0) (wd w.2 1) (wd w.2 2)).isNone) = [] →
    exec (.decl a h body) s = .next (s.withDev (e.settle))) ∧
  (∀ (a : Fin 8) (h : PortHdr) (record : BitVec 24) (j : JobSt) (s : State),
    let d := s.dev
    let u := (d.addU (Cnt.AGP_CNT_AGP_UP a) (16 + 8)).setAport a { d.aport a with upNext := (h.seq.toNat + 1) % 2 ^ 24 }
    let t := u.ackToAgent a h.seq.toNat
    (d.get (Reg.AGP_STATUS_port a) = 3 ∨ d.get (Reg.AGP_STATUS_port a) = 4) →
    u.silent = false →
    h.seq.toNat = (d.aport a).upNext →
    t.jobOfAcc a = some j →
    j.desc.job = h.job.toNat →
    j.isExchange record.toNat = true →
    exec (.xrdy a h record) s = .next (s.withDev ((t.sendDown a 0x06 [record.toNat * 2 ^ 40]).settle))) ∧
  (∀ (a : Fin 8) (j : JobSt) (x : AccJob) (s : State),
    s.dev.jobOfAcc a = some j →
    j.accOf a = some x →
    x.mark.isSome = true →
    x.complete = false →
    x.overdue = false →
    exec (.verdictOverdue a) s = .next (s.withDev ((s.dev.onAcc j.desc.job a fun x => { x with overdue := true }).raise Src.AGR_verdict_overdue)))

/-- A job's message that passes (R302) acts on a controller that runs the job. Digests of a round are noted at their home and the gate is
looked at, round 0xFF brings those of a cut (R212, R213, R242); the first report of a step-tree child in the round is kept, a failed one
fails the gate, another report of the child has no effect (R214, R215); a commit decision in state 2, a replay decision for the next round
and an abandon decision go down the tree and act (R215, R218 to R220); one of another step has no effect. Nothing else changes but what is
due after a protocol command (Dev.settle, log entry 18). -/
def Obligations.GateMessages : Prop :=
  (∀ (h : FabHdr) (job : BitVec 32) (step : BitVec 40) (round : Byte) (pairs : List (BitVec 16 × Fin 8 × BitVec 24 × Word)) (j : JobSt) (s : State),
    s.dev.passes h = true →
    s.dev.jobOf job.toNat = some j →
    j.phase = 2 →
    round.toNat ≠ 0xFF →
    exec (.hashes h job step round pairs) s = .next (s.withDev (
      ((s.dev.onJob job.toNat fun j => j.noteHashes step.toNat round.toNat h.src.toNat
        (pairs.map fun p => (p.1.toNat * 8 + p.2.1.val, p.2.2.1.toNat, p.2.2.2.toNat))).gateCheck job.toNat).settle))) ∧
  (∀ (h : FabHdr) (job : BitVec 32) (step : BitVec 40) (pairs : List (BitVec 16 × Fin 8 × BitVec 24 × Word)) (j : JobSt) (s : State),
    s.dev.passes h = true →
    s.dev.jobOf job.toNat = some j →
    j.phase = 2 →
    exec (.hashes h job step 0xFF#8 pairs) s = .next (s.withDev (
      ((pairs.map fun p => (p.1.toNat * 8 + p.2.1.val, p.2.2.1.toNat, p.2.2.2.toNat)).foldl
        (fun (d : Dev) p => d.cutDigest job.toNat p.2.1 p.1 p.2.2) s.dev).settle))) ∧
  (∀ (h : FabHdr) (job : BitVec 32) (step : BitVec 40) (round : Byte) (covered : Word) (seeds : List (BitVec 16 × Fin 8)) (whole : Bool) (j : JobSt) (s : State),
    s.dev.passes h = true →
    s.dev.jobOf job.toNat = some j →
    j.phase = 2 →
    step.toNat = j.step →
    round.toNat = j.nextRound →
    j.gate ≠ 0 →
    j.gate ≠ 5 →
    (s.dev.stepChildren j).contains h.src.toNat = true →
    Tab.find h.src.toNat j.reports = none →
    exec (.steprep h job step round 0 covered seeds whole) s = .next (s.withDev (
      ((s.dev.setJob { j with reports := Tab.insert h.src.toNat (0, covered.toNat, accsOf seeds, whole) j.reports }).gateCheck job.toNat).settle))) ∧
  (∀ (h : FabHdr) (job : BitVec 32) (step : BitVec 40) (round : Byte) (covered : Word) (seeds : List (BitVec 16 × Fin 8)) (whole : Bool) (j : JobSt) (s : State),
    s.dev.passes h = true →
    s.dev.jobOf job.toNat = some j →
    j.phase = 2 →
    step.toNat = j.step →
    round.toNat = j.nextRound →
    (j.gate = 1 ∨ j.gate = 3) →
    (s.dev.stepChildren j).contains h.src.toNat = true →
    Tab.find h.src.toNat j.reports = none →
    exec (.steprep h job step round 1 covered seeds whole) s = .next (s.withDev (
      ((s.dev.setJob { j with reports := Tab.insert h.src.toNat (1, covered.toNat, accsOf seeds, whole) j.reports }).gateFail job.toNat (accsOf seeds) whole).settle))) ∧
  (∀ (h : FabHdr) (job : BitVec 32) (step : BitVec 40) (round status : Byte) (covered : Word) (seeds : List (BitVec 16 × Fin 8)) (whole : Bool) (j : JobSt) (s : State),
    s.dev.passes h = true →
    s.dev.jobOf job.toNat = some j →
    j.phase = 2 →
    ((Tab.find h.src.toNat j.reports).isSome = true ∨ step.toNat ≠ j.step) →
    exec (.steprep h job step round status covered seeds whole) s = .next (s.withDev (s.dev.settle))) ∧
  (∀ (h : FabHdr) (job : BitVec 32) (step : BitVec 40) (j : JobSt) (s : State),
    s.dev.passes h = true →
    s.dev.jobOf job.toNat = some j →
    j.phase = 2 →
    j.step = step.toNat →
    j.gate = 2 →
    exec (.stepdecCommit h job step) s = .next (s.withDev (((s.dev.sendDec j step.toNat j.round 0 [] false).commit job.toNat).settle))) ∧
  (∀ (h : FabHdr) (job : BitVec 32) (step : BitVec 40) (j : JobSt) (s : State),
    s.dev.passes h = true →
    s.dev.jobOf job.toNat = some j →
    j.phase = 2 →
    j.step ≠ step.toNat →
    exec (.stepdecCommit h job step) s = .next (s.withDev (s.dev.settle))) ∧
  (∀ (h : FabHdr) (job : BitVec 32) (step : BitVec 40) (round : Byte) (seeds : List (BitVec 16 × Fin 8)) (whole : Bool) (j : JobSt) (s : State),
    s.dev.passes h = true →
    s.dev.jobOf job.toNat = some j →
    j.phase = 2 →
    j.step = step.toNat →
    round.toNat = j.round + 1 →
    1 ≤ j.gate →
    j.gate ≤ 3 →
    exec (.stepdecReplay h job step round seeds whole) s = .next (s.withDev (
      ((((s.dev.sendDec j step.toNat round.toNat 1 (accsOf seeds) whole).replay job.toNat (accsOf seeds) whole).gateCheck job.toNat).lateReports job.toNat).settle))) ∧
  (∀ (h : FabHdr) (job : BitVec 32) (step : BitVec 40) (seeds : List (BitVec 16 × Fin 8)) (whole : Bool) (j : JobSt) (s : State),
    s.dev.passes h = true →
    s.dev.jobOf job.toNat = some j →
    j.phase = 2 →
    j.step = step.toNat →
    1 ≤ j.gate →
    j.gate ≤ 4 →
    exec (.stepdecAbandon h job step seeds whole) s = .next (s.withDev (
      (((s.dev.sendDec j step.toNat j.round 2 (accsOf seeds) whole).candidates job.toNat (accsOf seeds) whole).abandon job.toNat).settle)))

/-- A cut begins on a controller of the job without one: its slot is overwritten, CUTREQ goes down, CUT follows, and with three absent
positions the cut is refused before it begins (R237, R239, R241); a message that its sender already sent in this epoch has no effect
(R240); its reports, its time limit and its extents are taken up (R241, R244); a holder stores and acknowledges a
unit, or refuses one for a job it does not know (R243); acknowledgements clear units, a refusal fails the extent (R241, R243); seal
reports gather at the root (R245); GENCOMMIT commits or discards a generation not yet decided, another is without effect (R245, R252).
Nothing else changes but what is due after a protocol command (Dev.settle). -/
def Obligations.GenerationMessages : Prop :=
  (∀ (h : FabHdr) (job : BitVec 32) (step : BitVec 40) (copy : Bool) (gen : BitVec 32) (j k : JobSt) (s : State),
    let t := s.dev.setJob (j.elide h 0x40 step.toNat)
    s.dev.passes h = true →
    s.dev.jobOf job.toNat = some j →
    j.phase = 2 →
    j.elides h 0x40 step.toNat = false →
    t.jobOf job.toNat = some k →
    k.cut = none →
    k.gate ≠ 0 →
    k.gate ≠ 5 →
    ones18 t.absentSlots < 3 →
    exec (.cutreq h job step copy gen) s = .next (s.withDev (
      (let sl := k.nextSlot t.rack;
      let absent := t.absentSlots;
      let e := (t.dropPins job.toNat sl).setJob { k.setSlot t.rack sl ⟨gen.toNat, step.toNat, 1, absent, 0, k.tableAt step.toNat, []⟩ with
        cut := some ⟨step.toNat, gen.toNat, sl, copy, 0, false, [], [], [], [], [], false, [], false, false, [], [], []⟩
        genCount := gen.toNat
        deferred := false
        recut := false
        acc := k.acc.map fun (e : Nat × AccJob) => (e.1, { e.2 with cutAck := none }) };
      let e := e.incU Cnt.STP_CNT_CUTS;
      (e.sendAll (e.stepChildren k) 0x40 (e.coordBody job.toNat step.toNat (b2n copy) gen.toNat 0)).sendCuts job.toNat).settle))) ∧
  (∀ (h : FabHdr) (job : BitVec 32) (step : BitVec 40) (copy : Bool) (gen : BitVec 32) (j k : JobSt) (s : State),
    let t := s.dev.setJob (j.elide h 0x40 step.toNat)
    s.dev.passes h = true →
    s.dev.jobOf job.toNat = some j →
    j.phase = 2 →
    j.elides h 0x40 step.toNat = false →
    t.jobOf job.toNat = some k →
    k.cut = none →
    k.gate ≠ 0 →
    k.gate ≠ 5 →
    3 ≤ ones18 t.absentSlots →
    exec (.cutreq h job step copy gen) s = .next (s.withDev ((t.cutRefuse k step.toNat gen.toNat).settle))) ∧
  (∀ (h : FabHdr) (job : BitVec 32) (step : BitVec 40) (copy : Bool) (gen : BitVec 32) (j : JobSt) (s : State),
    s.dev.passes h = true →
    s.dev.jobOf job.toNat = some j →
    j.phase = 2 →
    j.elides h 0x40 step.toNat = true →
    exec (.cutreq h job step copy gen) s = .next (s.withDev s.dev.settle)) ∧
  (∀ (job : BitVec 32) (j : JobSt) (c : CutSt) (s : State),
    s.dev.cutOf job.toNat = some (j, c) →
    c.reported = false →
    exec (.cutWait job) s = .next (s.withDev ((s.dev.cutReport j c 1 0).settle))) ∧
  (∀ (h : FabHdr) (job : BitVec 32) (step : BitVec 40) (code : Byte) (gen count : BitVec 32) (i : JobSt) (c : CutSt) (j : JobSt) (s : State),
    let t := s.dev.setJob (j.elide h 0x41 step.toNat)
    s.dev.passes h = true →
    s.dev.jobOf job.toNat = some j →
    j.phase = 2 →
    j.elides h 0x41 step.toNat = false →
    t.cutOf job.toNat = some (i, c) →
    c.step = step.toNat →
    c.gen = gen.toNat →
    Tab.find h.src.toNat c.reps = none →
    exec (.cutrep h job step code gen count) s = .next (s.withDev (
      ((t.onCut job.toNat fun c => { c with reps := Tab.insert h.src.toNat (code.toNat, count.toNat) c.reps }).cutCheck job.toNat).settle))) ∧
  (∀ (h : FabHdr) (job gen : BitVec 32) (slot : Fin 2) (role : Fin 4) (k : Fin 32) (row : Word) (data : List Byte) (s : State),
    s.dev.passes h = true →
    s.dev.jobOf job.toNat = none →
    exec (.stripe h job gen slot role k row data) s = .next (s.withDev (
      (s.dev.send h.src.toNat 0x51 (s.dev.stripeAckBody job.toNat gen.toNat slot role k row.toNat 1)).settle))) ∧
  (∀ (h : FabHdr) (job gen : BitVec 32) (slot : Fin 2) (role : Fin 4) (k : Fin 32) (row : Word) (data : List Byte) (j : JobSt) (s : State),
    s.dev.passes h = true →
    s.dev.jobOf job.toNat = some j →
    j.desc.job = job.toNat →
    role.val ≠ 3 →
    j.rest.active = false →
    (j.slot s.dev.rack slot).gen = gen.toNat →
    (j.slot s.dev.rack slot).state < 3 →
    j.newest s.dev.rack ≠ some slot.val →
    s.dev.partState (row.toNat % 16) ≠ 4 →
    exec (.stripe h job gen slot role k row data) s = .next (s.withDev (
      ((s.dev.unitStore slot row.toNat (data.map BitVec.toNat)).send h.src.toNat 0x51
        (s.dev.stripeAckBody job.toNat gen.toNat slot role k row.toNat 0)).settle))) ∧
  (∀ (h : FabHdr) (job : BitVec 32) (gen : BitVec 32) (slot : Fin 2) (role : Fin 4) (k : Fin 32) (row : Word) (i : JobSt) (c : CutSt) (j : JobSt) (s : State),
    s.dev.passes h = true →
    s.dev.jobOf job.toNat = some j →
    j.phase = 2 →
    j.desc.job = job.toNat →
    s.dev.cutOf job.toNat = some (i, c) →
    c.gen = gen.toNat →
    c.units.contains (row.toNat, role.val, k.val) = true →
    exec (.stripeack h job gen slot role k row 0) s = .next (s.withDev (
      ((s.dev.onCut job.toNat fun c => { c with units := c.units.filter (· != (row.toNat, role.val, k.val)) }).extentCheck job.toNat).settle))) ∧
  (∀ (h : FabHdr) (job : BitVec 32) (gen : BitVec 32) (slot : Fin 2) (role : Fin 4) (k : Fin 32) (row : Word) (result : Byte) (i : JobSt) (c : CutSt) (j : JobSt) (s : State),
    s.dev.passes h = true →
    s.dev.jobOf job.toNat = some j →
    j.phase = 2 →
    j.desc.job = job.toNat →
    j.rest.active = false →
    result.toNat ≠ 0 →
    s.dev.cutOf job.toNat = some (i, c) →
    c.gen = gen.toNat →
    c.units.contains (row.toNat, role.val, k.val) = true →
    exec (.stripeack h job gen slot role k row result) s = .next (s.withDev ((s.dev.extentReport i c true).settle))) ∧
  (∀ (h : FabHdr) (job : BitVec 32) (gen : BitVec 32) (failed : Bool) (tables : List Byte) (j : JobSt) (s : State),
    s.dev.passes h = true →
    s.dev.jobOf job.toNat = some j →
    j.phase = 2 →
    exec (.extentComplete h job gen failed tables) s = .next (s.withDev ((s.dev.extentIn job.toNat gen.toNat h.src.toNat failed (tables.map BitVec.toNat)).settle))) ∧
  (∀ (h : FabHdr) (job : BitVec 32) (step : BitVec 40) (code : Byte) (gen : BitVec 32) (j k : JobSt) (s : State),
    let t := s.dev.setJob (j.elide h 0x42 step.toNat)
    s.dev.passes h = true →
    s.dev.jobOf job.toNat = some j →
    j.phase = 2 →
    j.elides h 0x42 step.toNat = false →
    t.jobOf job.toNat = some k →
    code.toNat ≠ 0 →
    exec (.genrep h job step code gen) s = .next (s.withDev ((t.genAbort job.toNat step.toNat gen.toNat).settle))) ∧
  (∀ (h : FabHdr) (job : BitVec 32) (step : BitVec 40) (gen : BitVec 32) (i : JobSt) (c : CutSt) (j k : JobSt) (s : State),
    let t := s.dev.setJob (j.elide h 0x42 step.toNat)
    let e := t.onCut job.toNat fun c => if c.gen = gen.toNat then { c with racks := (c.racks ++ [h.src.toNat / 32]).eraseDups } else c
    s.dev.passes h = true →
    s.dev.jobOf job.toNat = some j →
    j.phase = 2 →
    j.elides h 0x42 step.toNat = false →
    t.jobOf job.toNat = some k →
    e.cutOf job.toNat = some (i, c) →
    c.gen = gen.toNat →
    (k.racks.all c.racks.contains) = true →
    exec (.genrep h job step 0 gen) s = .next (s.withDev ((e.genCommit job.toNat step.toNat gen.toNat).settle))) ∧
  (∀ (h : FabHdr) (job : BitVec 32) (step : BitVec 40) (gen : BitVec 32) (j k : JobSt) (s : State),
    let t := s.dev.setJob (j.elide h 0x43 step.toNat)
    s.dev.passes h = true →
    s.dev.jobOf job.toNat = some j →
    j.phase = 2 →
    j.elides h 0x43 step.toNat = false →
    t.jobOf job.toNat = some k →
    k.undecided gen.toNat = true →
    exec (.gencommit h job step gen) s = .next (s.withDev (
      (let e := t.genForward k step.toNat gen.toNat 0;
      let e := e.onJob job.toNat fun j =>
        let j := { j with slots := j.slots.map fun (e : Nat × GenSt) => if e.2.gen = gen.toNat ∧ e.2.state = 3 then (e.1, { e.2 with state := 4 }) else e };
        if (j.cut.map CutSt.gen) = some gen.toNat then
          { j with cut := none, acc := j.acc.map fun (e : Nat × AccJob) => (e.1, { e.2 with cutAck := none }) }
        else j;
      let e := if e.drill.phase = 1 ∧ e.drill.job = job.toNat ∧ e.drill.gen = 0 then { e with drill := { e.drill with gen := step.toNat } } else e;
      let e := ((e.incU Cnt.STP_CNT_GEN_COMMIT).addU Reg.DEV_SNAP_BYTES_bytes (s.dev.snapBytes k gen.toNat)).progLatch job.toNat gen.toNat;
      if (e.jobOf job.toNat).map JobSt.gate = some 0 then e.drillCommit job.toNat step.toNat else e).settle))) ∧
  (∀ (h : FabHdr) (job : BitVec 32) (step : BitVec 40) (gen : BitVec 32) (j k : JobSt) (s : State),
    let t := s.dev.setJob (j.elide h 0x43 step.toNat)
    s.dev.passes h = true →
    s.dev.jobOf job.toNat = some j →
    j.phase = 2 →
    j.elides h 0x43 step.toNat = false →
    t.jobOf job.toNat = some k →
    k.undecided gen.toNat = false →
    k.gate ≠ 0 →
    exec (.gencommit h job step gen) s = .next (s.withDev (t.settle))) ∧
  (∀ (h : FabHdr) (job : BitVec 32) (step : BitVec 40) (gen : BitVec 32) (j k : JobSt) (s : State),
    let t := s.dev.setJob (j.elide h 0x43 step.toNat)
    s.dev.passes h = true →
    s.dev.jobOf job.toNat = some j →
    j.phase = 2 →
    j.elides h 0x43 step.toNat = false →
    t.jobOf job.toNat = some k →
    k.undecided gen.toNat = false →
    k.gate = 0 →
    exec (.gencommit h job step gen) s = .next (s.withDev ((t.drillCommit job.toNat step.toNat).settle))) ∧
  (∀ (h : FabHdr) (job : BitVec 32) (step : BitVec 40) (gen : BitVec 32) (j k : JobSt) (s : State),
    let t := s.dev.setJob (j.elide h 0x43 step.toNat)
    s.dev.passes h = true →
    s.dev.jobOf job.toNat = some j →
    j.phase = 2 →
    j.elides h 0x43 step.toNat = false →
    t.jobOf job.toNat = some k →
    k.undecided gen.toNat = true →
    exec (.gencommitDiscard h job step gen) s = .next (s.withDev (((t.genForward k step.toNat gen.toNat 1).discardGen job.toNat gen.toNat).settle)))

/-- A partner stores a version of its sender in entry N mod 256 of the ring and acknowledges it (R249); an acknowledged version waits no more
and is shown (R249, R260), one that is late is counted, raised and sent again (R249); a PIN for which every version of
the step is there copies them and is acknowledged, another waits (R250); its acknowledgement is shown and taken by the cut (R241, R250). A RESTREQ that names another restore than the one
that runs begins it, a duplicate has no effect; a child's first RESTDONE is kept, RESTCOMMIT ends the restore of its step (R256). A
message for another controller goes on unchanged on the ports of its route, at its hop level (R280, R284 to R286). Nothing else changes but what is due after a
protocol command (Dev.settle). -/
def Obligations.MirrorsAndRestore : Prop :=
  (∀ (h : FabHdr) (job : BitVec 32) (step : BitVec 40) (acc : Fin 8) (nFlow : BitVec 24) (itemBytes : BitVec 32) (words : List Word) (s : State),
    let d := s.dev.stepSeen job.toNat step.toNat
    let v := (⟨h.src.toNat, acc, job.toNat, step.toNat, nFlow.toNat, itemBytes.toNat, words.map BitVec.toNat⟩ : Version)
    s.dev.passes h = true →
    (d.hostedSources.contains v.src = true ∨ d.hostedSources.length < 4) →
    exec (.mirror h job step acc h.src nFlow itemBytes words) s = .next (s.withDev (
      let ring := d.mir.ring.filter fun w => !(w.src == v.src && w.acc == v.acc && w.step % 256 == v.step % 256);
      let e := ({ d with mir := { d.mir with ring := ring ++ [v] } }).showHosted;
      let e := e.addU Cnt.MIR_CNT_MIR_HOSTED (8 * (4 + v.words.length));
      let e := e.send v.src 0x52 ((e.versionBody v).take 3);
      (e.mir.asked.foldl Dev.pinTry e).settle))) ∧
  (∀ (h : FabHdr) (job : BitVec 32) (step : BitVec 40) (acc : Fin 8) (source : BitVec 16) (nFlow : BitVec 24) (itemBytes : BitVec 32) (words : List Word) (j : JobSt) (s : State),
    s.dev.passes h = true →
    source.toNat ≠ h.src.toNat →
    s.dev.jobOf job.toNat = some j →
    j.rest.active = true →
    j.rest.step = step.toNat →
    exec (.mirror h job step acc source nFlow itemBytes words) s = .next (s.withDev (
      (((s.dev.onRest job.toNat fun r => { r with pins := r.pins ++ [⟨source.toNat, acc, job.toNat, step.toNat, nFlow.toNat, itemBytes.toNat, words.map BitVec.toNat⟩] }).restCheck
        job.toNat).settle)))) ∧
  (∀ (h : FabHdr) (job : BitVec 32) (step : BitVec 40) (acc : Fin 8) (v : Version) (s : State),
    let d := s.dev
    let vs := (d.mir.acked.filter fun w => !(w.acc == acc.val && w.step % 256 == step.toNat % 256)) ++ [v]
    d.passes h = true →
    (d.mir.waiting.find? fun v => v.job == job.toNat && v.step == step.toNat && v.acc == acc.val) = some v →
    exec (.mirrorAck h job step acc) s = .next (s.withDev (
      let e := { d with mir := { d.mir with
        waiting := d.mir.waiting.filter fun v => !(v.job == job.toNat && v.step == step.toNat && v.acc == acc.val)
        acked := vs } };
      let e := e.put Reg.MIR_NEWEST_step (vs.foldl (fun m v => max m v.step) 0);
      let e := e.put Reg.MIR_NEWEST_held (Nat.min 256 ((vs.map fun v => (v.job, v.step)).eraseDups).length);
      (e.incU Cnt.MIR_CNT_MIR_VERSIONS).settleSingle))) ∧
  (∀ (job : BitVec 32) (step : BitVec 40) (acc : Fin 8) (v : Version) (s : State),
    (s.dev.mir.waiting.find? fun v => v.job == job.toNat && v.step == step.toNat && v.acc == acc.val) = some v →
    exec (.mirrorLost job step acc) s = .next (s.withDev (((s.dev.incE Cnt.MIR_CNT_MIR_LATE).raise Src.MIR_mirror_lost).sendVersion v))) ∧
  (∀ (h : FabHdr) (job : BitVec 32) (step : BitVec 40) (slot : Fin 2) (s : State),
    let d := s.dev.stepSeen job.toNat step.toNat
    let p := (h.src.toNat, job.toNat, step.toNat, slot.val)
    let asked := (d.mir.asked.filter fun p => !(p.1 == h.src.toNat && p.2.1 == job.toNat && p.2.2.2 == slot.val)) ++ [p]
    let vs := d.mir.ring.filter fun v => v.src == h.src.toNat && v.job == job.toNat && v.step == step.toNat
    let wanted := (match d.jobOf job.toNat with | some j => j.accsAt h.src.toNat | none => [])
    s.dev.passes h = true →
    vs ≠ [] →
    (wanted.all fun a => vs.any fun v => v.acc == a) = true →
    exec (.pin h job step slot) s = .next (s.withDev (
      let keep := d.mir.pins.filter fun e => !(e.1 == slot.val && e.2.src == h.src.toNat && e.2.job == job.toNat);
      let e := { d with mir := { d.mir with pins := keep ++ vs.map fun v => (slot.val, v), asked := asked.filter (· != p) } };
      e.send h.src.toNat 0x47 [e.jobWord job.toNat, pack [(24, 40, step.toNat), (23, 1, slot)], h.src.toNat * 2 ^ 48]))) ∧
  (∀ (h : FabHdr) (job : BitVec 32) (step : BitVec 40) (slot : Fin 2) (s : State),
    let d := s.dev.stepSeen job.toNat step.toNat
    let asked := (d.mir.asked.filter fun p => !(p.1 == h.src.toNat && p.2.1 == job.toNat && p.2.2.2 == slot.val)) ++
      [(h.src.toNat, job.toNat, step.toNat, slot.val)]
    let vs := d.mir.ring.filter fun v => v.src == h.src.toNat && v.job == job.toNat && v.step == step.toNat
    let wanted := (match d.jobOf job.toNat with | some j => j.accsAt h.src.toNat | none => [])
    s.dev.passes h = true →
    (vs = [] ∨ (wanted.all fun a => vs.any fun v => v.acc == a) = false) →
    exec (.pin h job step slot) s = .next (s.withDev { d with mir := { d.mir with asked := asked } })) ∧
  (∀ (h : FabHdr) (job : BitVec 32) (step : BitVec 40) (slot : Fin 2) (j : JobSt) (c : CutSt) (s : State),
    let e := (s.dev.put (Reg.MIR_PIN_partner_held slot) 1).settleSingle
    s.dev.passes h = true →
    s.dev.get (Reg.MIR_PIN_step slot) = step.toNat →
    s.dev.flag (Reg.MIR_PIN_valid slot) = true →
    e.cutOf job.toNat = some (j, c) →
    c.step = step.toNat →
    exec (.pinAck h job step slot) s = .next (s.withDev (
      ((e.onCut job.toNat fun c => { c with pinAck := true }).extentCheck job.toNat).settle))) ∧
  (∀ (h : FabHdr) (job : BitVec 32) (step : BitVec 40) (bad : List Word) (j : JobSt) (s : State),
    let t := s.dev.setJob (j.elide h 0x44 step.toNat)
    s.dev.passes h = true →
    s.dev.jobOf job.toNat = some j →
    j.phase = 2 →
    j.elides h 0x44 step.toNat = false →
    (¬ (j.rest.active = true ∧ j.rest.step = step.toNat)) →
    exec (.restreq h job step bad) s = .next (s.withDev ((t.restBegin j.desc.job step.toNat (bad.map BitVec.toNat)).settle))) ∧
  (∀ (h : FabHdr) (job : BitVec 32) (step : BitVec 40) (bad : List Word) (j : JobSt) (s : State),
    let t := s.dev.setJob (j.elide h 0x44 step.toNat)
    s.dev.passes h = true →
    s.dev.jobOf job.toNat = some j →
    j.phase = 2 →
    j.elides h 0x44 step.toNat = false →
    j.rest.active = true →
    j.rest.step = step.toNat →
    exec (.restreq h job step bad) s = .next (s.withDev (t.settle))) ∧
  (∀ (h : FabHdr) (job : BitVec 32) (step : BitVec 40) (code : Byte) (count : BitVec 32) (j k : JobSt) (s : State),
    let t := s.dev.setJob (j.elide h 0x45 step.toNat)
    s.dev.passes h = true →
    s.dev.jobOf job.toNat = some j →
    j.phase = 2 →
    j.elides h 0x45 step.toNat = false →
    t.jobOf job.toNat = some k →
    k.rest.active = true →
    k.rest.step = step.toNat →
    Tab.find h.src.toNat k.rest.dones = none →
    exec (.restdone h job step code count) s = .next (s.withDev (
      (((t.onRest job.toNat fun r => { r with dones := Tab.insert h.src.toNat (code.toNat, count.toNat) r.dones }).restCheck job.toNat).restDecide job.toNat).settle))) ∧
  (∀ (h : FabHdr) (job : BitVec 32) (step : BitVec 40) (j k : JobSt) (s : State),
    let n := step.toNat
    let t := s.dev.setJob (j.elide h 0x46 step.toNat)
    s.dev.passes h = true →
    s.dev.jobOf job.toNat = some j →
    j.phase = 2 →
    j.elides h 0x46 step.toNat = false →
    t.jobOf job.toNat = some k →
    k.rest.active = true →
    k.rest.step = step.toNat →
    t.isRoot k = false →
    exec (.restcommit h job step) s = .next (s.withDev (
      (let body := t.coordBody job.toNat n 0 (t.genNumber k n) 0;
      let e := t.sendAll (t.stepChildren k) 0x46 body;
      let e := if e.sealLeader k e.rack = some e.chip then e.send e.rackBroadcast 0x46 body else e;
      let gens := (k.slots.filter fun x => x.1 / 2 == e.rack && decide (n < x.2.step) && x.2.state != 0).map fun x => x.2.gen;
      let e := gens.foldl (fun (d : Dev) g => d.discardGen job.toNat g) e;
      let old (v : Version) : Bool := v.job != job.toNat || decide (v.step ≤ n);
      let e := { e with mir := { e.mir with ring := e.mir.ring.filter old, own := e.mir.own.filter old, waiting := e.mir.waiting.filter old } };
      let e := e.tenseBack job.toNat (n + 1) 0;
      let p := e.predOf job.toNat k.desc.pred;
      let e := e.onJob job.toNat fun j => { j with
        rest := RestSt.none
        restResult := 2
        gate := if j.acc = [] then 0 else 1
        step := n + 1
        round := 0
        reports := []
        seeds := []
        whole := false
        decided := false
        hashes := []
        heard := []
        lastCut := n
        cut := none
        deferred := false
        pstep := p
        slots := j.slots.filter fun e => decide (e.2.step ≤ n)
        acc := j.acc.map fun (e : Nat × AccJob) => (e.1, { e.2.clean 0 with lags := [], replayHeld := none, replaySeq := none, cutAck := none }) };
      let e := k.agents.foldl (fun (d : Dev) a => d.sendResume job.toNat a n) e;
      k.standIns.foldl (fun (d : Dev) a => ((d.standOf a).map fun s => d.standStep s (n + 1)).getD d) e).settle))) ∧
  (∀ (h : FabHdr) (dst : BitVec 16) (kind : Byte) (level : BitVec 3) (global : Bool) (body : List Word) (s : State),
    s.dev.silent = false →
    exec (.forward h dst kind ⟨level, global⟩ false body) s = .next (s.withDev (
      let ws := body.map BitVec.toNat;
      let words := [pack [(48, 16, dst.toNat), (32, 16, h.src.toNat), (24, 8, kind.toNat), (0, 24, 8 * ws.length)], h.epoch.toNat * 2 ^ 32] ++ ws;
      let vc := vcOf kind.toNat ws;
      (s.dev.forwardPorts h.src.toNat dst.toNat vc global false).foldl (fun (d : Dev) i =>
        (d.emit (.link i kind.toNat words)).transmit i vc (min 7 (level.toNat + 1)) words) s.dev))) ∧
  (∀ (h : FabHdr) (dst : BitVec 16) (kind : Byte) (level : BitVec 3) (global indirect : Bool) (body : List Word) (s : State),
    s.dev.silent = true →
    exec (.forward h dst kind ⟨level, global⟩ indirect body) s = .next (s.withDev s.dev))

/-- A read of AGR_VLOG_W0 copies the eight words of the record at AGR_VLOG_CTRL.index, zeros where the ring holds none, to the places from
which AGR_VLOG_W0 to AGR_VLOG_W7 are read, and returns the first (R226); FLOW_READ and CREC_READ do the same for the selected flow record
and commit record (R230, R259); a flow record with an uncorrectable error raises flow_ecc and is reloaded from the entry that the partner
holds first (R230). Nothing else changes. -/
def Obligations.VerdictLogLatches : Prop :=
  (∀ (s : State),
    exec .vlogRead s = .next (s.withDev (
      let ws := eight (Tab.getD s.dev.vlog (s.dev.get Reg.AGR_VLOG_CTRL_index) []);
      { ws.zipIdx.foldl (fun (d : Dev) e => { d with latched := Tab.set d.latched (Reg.AGR_VLOG_W0_w.addr + 8 * e.2) 0 (e.1 % 2 ^ 64) }) s.dev with
        rdata := ws.headD 0 % 2 ^ 64 }))) ∧
  (∀ (s : State),
    exec (.flowRead false) s = .next (s.withDev (
      let ws := eight (s.dev.flowRec (s.dev.get Reg.FLOW_SEL_record));
      { ws.zipIdx.foldl (fun (d : Dev) e => { d with latched := Tab.set d.latched (Reg.FLOW_W0_w.addr + 8 * e.2) 0 (e.1 % 2 ^ 64) }) s.dev with
        rdata := ws.headD 0 % 2 ^ 64 }))) ∧
  (∀ (j : JobSt) (f : List Nat) (r : RecDesc) (s : State),
    let n := s.dev.get Reg.FLOW_SEL_record
    let d := s.dev.raise Src.FLOW_flow_ecc
    let e := d.setFlow n (some ((d.freshRecord j r).take 3 ++ f))
    d.jobOfRec n = some j →
    d.heldEntry j.desc.job n = some f →
    j.recDesc n = some r →
    exec (.flowRead true) s = .next (s.withDev (
      let ws := eight (e.flowRec n);
      { ws.zipIdx.foldl (fun (d : Dev) x => { d with latched := Tab.set d.latched (Reg.FLOW_W0_w.addr + 8 * x.2) 0 (x.1 % 2 ^ 64) }) e with
        rdata := ws.headD 0 % 2 ^ 64 }))) ∧
  (∀ (s : State),
    exec .crecRead s = .next (s.withDev (
      let ws := eight s.dev.crecShown;
      { ws.zipIdx.foldl (fun (d : Dev) e => { d with latched := Tab.set d.latched (Reg.STP_CREC_W0_w.addr + 8 * e.2) 0 (e.1 % 2 ^ 64) }) s.dev with
        rdata := ws.headD 0 % 2 ^ 64 })))

/-- An HB from a member of the own rack ends its suspicion and is noted (R293), GHB does so for a rack and asks for the admission of one that
is not in the view (R293, R304); both leave as R292 lists them. Silence makes a suspicion that awaits a Clause (R293, R300). A view that
differs is asked for and answered with the entries and DECIDEs, the newer entries are taken, and the view's change has its effects (R294). -/
def Obligations.HeartbeatsAndSuspicion : Prop :=
  (∀ (h : FabHdr) (heard : BitVec 18) (digest : Word) (s : State),
    s.dev.passes h = true →
    h.src.toNat / 32 = s.dev.chip / 32 →
    exec (.hb h heard digest) s = .next (s.withDev (
      ((s.dev.incU Cnt.MBR_CNT_HB_RX).onMbr fun m => { m.drop false (changeWord h.src.toNat 0 0xF 1) with
        heard := Tab.insert h.src.toNat s.dev.nowUs (Tab.erase h.src.toNat m.heard), suspects := m.suspects.filter (· != h.src.toNat) })).settle)) ∧
  (∀ (s : State),
    s.dev.isMember = true →
    s.dev.silent = false →
    exec (.hbSend) s = .next (s.withDev (
      (s.dev.send (s.dev.chip / 32 * 32 + 31) 0x10 [s.dev.heardMask, s.dev.viewDigest]).incU Cnt.MBR_CNT_HB_TX).settle)) ∧
  (∀ (h : FabHdr) (rack leader : BitVec 16) (members : BitVec 18) (digest : Word) (s : State),
    s.dev.passes h = true →
    s.dev.racksIn.contains rack.toNat = true →
    exec (.ghb h rack leader false members digest) s = .next (s.withDev (
      ((s.dev.incU Cnt.MBR_CNT_HB_RX).onMbr fun m => { m.drop true (changeWord (rack.toNat * 32 + 31) 0 0xF 1) with
        racks := Tab.insert rack.toNat (s.dev.nowUs, false, leader.toNat) (Tab.erase rack.toNat m.racks)
        rackSuspects := m.rackSuspects.filter (· != rack.toNat) })).settle)) ∧
  (∀ (h : FabHdr) (rack leader : BitVec 16) (founding : Bool) (members : BitVec 18) (digest : Word) (s : State),
    let d := if founding then s.dev.onMbr fun m => { m with seen := some (laterEpoch h.epoch.toNat m.seen) } else s.dev
    (founding = true ∨ s.dev.passes h = true) →
    s.dev.isMember = true →
    s.dev.racksIn.contains rack.toNat = false →
    s.dev.foundingSize true < 2 * s.dev.racksIn.length →
    exec (.ghb h rack leader founding members digest) s = .next (s.withDev (
      (((d.incU Cnt.MBR_CNT_HB_RX).onMbr fun m => { m.drop true (changeWord (rack.toNat * 32 + 31) 0 0xF 1) with
        racks := Tab.insert rack.toNat (s.dev.nowUs, founding, leader.toNat) (Tab.erase rack.toNat m.racks)
        rackSuspects := m.rackSuspects.filter (· != rack.toNat) }).onMbr fun m => m.await true (changeWord (rack.toNat * 32 + 31) 1 0xF 7))).settle)) ∧
  (∀ (s : State),
    (s.dev.isLeader = true ∨ s.dev.isStandby = true) →
    s.dev.silent = false →
    exec (.ghbSend) s = .next (s.withDev (
      ((s.dev.send 0xFFFF 0x11 [pack [(48, 16, s.dev.rack), (32, 16, (s.dev.leaderOf s.dev.rack).getD 0), (31, 1, b2n s.dev.podFounding),
        (0, 18, (s.dev.membersOf s.dev.rack).foldl (fun m c => setBit m (c % 32)) 0)], s.dev.viewDigest]).incU Cnt.MBR_CNT_HB_TX).foundPod).settle)) ∧
  (∀ (chip : BitVec 16) (s : State),
    s.dev.isMember = true →
    chip.toNat ≠ s.dev.chip →
    chip.toNat / 32 = s.dev.rack →
    s.dev.isIn chip.toNat = true →
    s.dev.mbr.suspects.contains chip.toNat = false →
    exec (.suspect chip) s = .next (s.withDev (
      s.dev.onMbr fun m => { m.await false (changeWord chip.toNat 0 0xF 1) with suspects := m.suspects ++ [chip.toNat] }).settle)) ∧
  (∀ (rack : BitVec 16) (s : State),
    s.dev.isMember = true →
    rack.toNat ≠ s.dev.rack →
    s.dev.racksIn.contains rack.toNat = true →
    s.dev.mbr.rackSuspects.contains rack.toNat = false →
    exec (.rackSuspect rack) s = .next (s.withDev (
      s.dev.onMbr fun m => { m.await true (changeWord (rack.toNat * 32 + 31) 0 0xF 1) with rackSuspects := m.rackSuspects ++ [rack.toNat] }).settle)) ∧
  (∀ (c : Nat) (s : State),
    s.dev.isMember = true →
    (s.dev.membersOf s.dev.rack).find? (· != s.dev.chip) = some c →
    exec (.viewMismatch) s = .next (s.withDev (s.dev.send c 0x19 []).settle)) ∧
  (∀ (h : FabHdr) (s : State),
    s.dev.passes h = true →
    s.dev.isMember = true →
    exec (.viewreq h) s = .next (s.withDev (s.dev.send h.src.toNat 0x1A s.dev.viewBody).settle)) ∧
  (∀ (h : FabHdr) (entries : List ViewEntry) (decides : List (BitVec 16 × List Word)) (same : Bool) (s : State),
    let old := s.dev.mbr.view
    let ds := decides.map fun e => (e.1.toNat, e.2.map BitVec.toNat)
    let c := (entries.foldl Dev.takeEntry s.dev).keptCheck ((ds.filter fun e => e.1 / 32 == (entries.foldl Dev.takeEntry s.dev).rack).filterMap fun e => decideRecord e.2)
    let drilled := (ds.filter fun e => !c.mbr.decides.contains (e.1 :: e.2)).flatMap fun e => drilledBy (decideChanges e.2)
    let d := ds.foldl (fun (d : Dev) e => d.takeDecide old e.1 e.2) c
    (s.dev.isMember = false ∨ s.dev.passes h = true) →
    exec (.view h entries decides same) s = .next (s.withDev (
      ((((d.onMbr fun m => { m with same := same, unfounded := false }).viewChanged old drilled).selfCheck.followView).raiseDue)).settle)) ∧
  (∀ (v : ViewEntry) (d : Dev),
    (newer v.changed.toNat (d.viewEnt v.chip.toNat).changed = true ∨ (d.viewEnt v.chip.toNat).state = 0) →
    v.chip.toNat / 32 = d.rack →
    d.takeEntry v = (d.setView v.chip.toNat { d.viewEnt v.chip.toNat with
      state := v.state, changed := v.changed.toNat, admitted := v.admitted.toNat, accExp := v.accExp.toNat }).onMbr fun m =>
        { m with adopted := Tab.set m.adopted v.chip.toNat 0 v.adopted.toNat }) ∧
  (∀ (v : ViewEntry) (d : Dev),
    newer v.changed.toNat (d.viewEnt v.chip.toNat).changed = false →
    (d.viewEnt v.chip.toNat).state ≠ 0 →
    v.chip.toNat / 32 ≠ d.rack →
    d.takeEntry v = d.onMbr fun m => { m with roles := Tab.set m.roles v.chip.toNat 0 v.role.toNat }) ∧
  (∀ (v : ViewEntry) (d : Dev),
    newer v.changed.toNat (d.viewEnt v.chip.toNat).changed = false →
    (d.viewEnt v.chip.toNat).state ≠ 0 →
    v.chip.toNat / 32 = d.rack →
    d.takeEntry v = d)

/-- A voter answers a proposal of an epoch newer than its last vote in the scope with its yes bits, and another with a refusal that carries
that epoch (R296, R298). A refusal of a newer epoch ends the proposal and backs off; a vote counts once and decides the Clause when every
item is settled; at its deadline the Clause ends with what is accepted, and is counted and raised (R299, R300). DECIDE is applied by
members, by those it founds, and by a controller that is no member; a founding message, which finds no members, passes without the checks
of R302 (R305). Which messages of founding are taken without the checks is the model's reading (log entries 33 and 34). -/
def Obligations.Clauses : Prop :=
  (∀ (h : FabHdr) (pod founding : Bool) (epoch : BitVec 32) (changes crec : List Word) (s : State),
    (founding = true ∨ s.dev.passes h = true) →
    s.dev.mayVote h.src.toNat pod founding = true →
    (∀ l, (if pod then s.dev.mbr.votedPod else s.dev.mbr.votedRack) = some l → newer epoch.toNat l = true) →
    exec (.propose h pod founding epoch changes crec) s = .next (s.withDev ((s.dev.send h.src.toNat 0x13 [pack [(48, 16, s.dev.chip), (0, 32, epoch.toNat)], s.dev.yesBits founding (changes.map BitVec.toNat) (crec.map BitVec.toNat)]).voted pod epoch.toNat).settle)) ∧
  (∀ (h : FabHdr) (pod founding : Bool) (epoch : BitVec 32) (changes crec : List Word) (last : Nat) (s : State),
    (founding = true ∨ s.dev.passes h = true) →
    s.dev.mayVote h.src.toNat pod founding = true →
    (if pod then s.dev.mbr.votedPod else s.dev.mbr.votedRack) = some last →
    newer epoch.toNat last = false →
    exec (.propose h pod founding epoch changes crec) s = .next (s.withDev (s.dev.send h.src.toNat 0x13 [pack [(48, 16, s.dev.chip), (47, 1, 1), (0, 32, last)], 0]).settle)) ∧
  (∀ (h : FabHdr) (voter : BitVec 16) (epoch : BitVec 32) (yes : Word) (p : Proposal) (s : State),
    s.dev.mbr.prop = some p →
    (p.founding = true ∨ s.dev.passes h = true) →
    newer epoch.toNat p.epoch = true →
    exec (.vote h voter true epoch yes) s = .next (s.withDev (s.dev.onMbr fun m => { m with prop := none, backoff := true, refused := some epoch.toNat }).settle)) ∧
  (∀ (h : FabHdr) (voter : BitVec 16) (epoch : BitVec 32) (yes : Word) (p : Proposal) (s : State),
    s.dev.mbr.prop = some p →
    (p.founding = true ∨ s.dev.passes h = true) →
    epoch.toNat = p.epoch →
    Tab.find voter.toNat p.votes = none →
    (s.dev.votersOf p).contains voter.toNat = true →
    exec (.vote h voter false epoch yes) s = .next (s.withDev ((s.dev.onMbr fun m => { m with prop := some { p with votes := Tab.insert voter.toNat yes.toNat p.votes } }).clauseCheck).settle)) ∧
  (∀ (h : FabHdr) (pod founding : Bool) (yes voters : Byte) (epoch : BitVec 32) (changes crec : List Word) (s : State),
    (founding = true ∨ s.dev.isMember = false ∨ s.dev.passes h = true) →
    exec (.decide h pod founding yes voters epoch changes crec) s = .next (s.withDev (s.dev.decideIn h.src.toNat pod founding yes.toNat voters.toNat epoch.toNat (changes.map BitVec.toNat) (crec.map BitVec.toNat)).settle)) ∧
  (∀ (p : Proposal) (s : State),
    s.dev.mbr.prop = some p →
    exec (.clauseTimeout) s = .next (s.withDev (((((s.dev.clauseEnd p).onMbr fun m => { m with backoff := true }).incE Cnt.MBR_CNT_CLAUSE_FAIL).raise Src.MBR_clause_failed)).settle)) ∧
  (∀ (s : State),
    exec (.backoffEnd) s = .next (s.withDev (s.dev.onMbr fun m => { m with backoff := false }).settle))

/-- A JOINREQ of the own rack is kept, and a member that would vote for it has the admission await a Clause (R304); in stage 0x9 a controller
asks every millisecond, unless a refusal of R304 stands, which it shows; 20 ms without an answer lead to founding (R305). FENCED of a
member and isolation fence the controller (R303). A withdrawal is refused with 0x06 while a job holds an accelerator of the tray, else it
awaits a Clause or goes to the coordinator (R306); rejoin ends a refusal 0x02 or 0x05 (R304). EVIDENCE and the three findings of R307 go
to a Clause of the rack. That isolation arrives as a command, and that the hold-off's end clears its code, are the model's choices (log
entries 18 and 34). -/
def Obligations.JoiningAndLeaving : Prop :=
  (∀ (h : FabHdr) (operator : Bool) (s : State),
    let d := s.dev.onMbr fun m => { m with joiners := Tab.insert h.src.toNat (s.dev.nowUs, h.epoch.toNat, operator) (Tab.erase h.src.toNat m.joiners) }
    h.src.toNat / 32 = s.dev.rack →
    (s.dev.isMember && !s.dev.isIn h.src.toNat) = false →
    exec (.joinreq h operator) s = .next (s.withDev (d).settle)) ∧
  (∀ (h : FabHdr) (operator : Bool) (s : State),
    let d := s.dev.onMbr fun m => { m with joiners := Tab.insert h.src.toNat (s.dev.nowUs, h.epoch.toNat, operator) (Tab.erase h.src.toNat m.joiners) }
    h.src.toNat / 32 = s.dev.rack →
    d.isMember = true →
    d.isIn h.src.toNat = false →
    d.voteYes false (changeWord h.src.toNat 1 0xF 7) = true →
    exec (.joinreq h operator) s = .next (s.withDev (d.onMbr fun m => m.await false (changeWord h.src.toNat 1 0xF 7)).settle)) ∧
  (∀ (c : Nat) (s : State),
    s.dev.stage = 9 →
    s.dev.isMember = false →
    s.dev.silent = false →
    s.dev.joinCode = c →
    c ≠ 0 →
    exec (.joinreqSend) s = .next (s.withDev (if c = 2 ∧ s.dev.get Reg.MBR_STATUS_refuse ≠ 2 then (s.dev.put Reg.MBR_STATUS_refuse c).raise Src.MBR_join_blocked else s.dev.put Reg.MBR_STATUS_refuse c).settle)) ∧
  (∀ (s : State),
    let d := (s.dev.put Reg.MBR_STATUS_state 1).put Reg.MBR_STATUS_refuse (if s.dev.rackShort then 4 else 0)
    s.dev.stage = 9 →
    s.dev.isMember = false →
    s.dev.silent = false →
    s.dev.joinCode = 0 →
    exec (.joinreqSend) s = .next (s.withDev ((d.send d.rackBroadcast 0x15 [b2n d.mbr.operator * 2 ^ 63]).foundRack).settle)) ∧
  (∀ (s : State),
    s.dev.stage = 9 →
    s.dev.isMember = false →
    exec (.foundingTimeout) s = .next (s.withDev (s.dev.onMbr fun m => { m with unfounded := true }).settle)) ∧
  (∀ (h : FabHdr) (s : State),
    s.dev.passes h = true →
    s.dev.isMember = true →
    s.dev.isIn h.src.toNat = true →
    exec (.fenced h) s = .next (s.withDev s.dev.fenceSelf)) ∧
  (∀ (pod : Bool) (s : State),
    s.dev.isMember = true →
    (pod = false ∨ s.dev.isLeader = true) →
    exec (.isolation pod) s = .next (s.withDev s.dev.fenceSelf)) ∧
  (∀ (c : Nat) (s : State),
    s.dev.isMember = true →
    (s.dev.put Reg.MBR_CTRL_withdraw 0).inJob (s.dev.put Reg.MBR_CTRL_withdraw 0).chip = false →
    (s.dev.put Reg.MBR_CTRL_withdraw 0).coordinator (s.dev.put Reg.MBR_CTRL_withdraw 0).rack [(s.dev.put Reg.MBR_CTRL_withdraw 0).chip] = some c →
    exec (.withdrawRequest) s = .next (s.withDev (
      (let d := s.dev.put Reg.MBR_CTRL_withdraw 0;
      if c = d.chip then d.onMbr fun m => m.await false (changeWord d.chip 2 0xF 7) else d.send c 0x16 [])).settle)) ∧
  (∀ (s : State),
    s.dev.isMember = true →
    (s.dev.put Reg.MBR_CTRL_withdraw 0).inJob (s.dev.put Reg.MBR_CTRL_withdraw 0).chip = true →
    exec (.withdrawRequest) s = .next (s.withDev ((s.dev.put Reg.MBR_CTRL_withdraw 0).put Reg.MBR_STATUS_refuse 0x06).settle)) ∧
  (∀ (h : FabHdr) (s : State),
    s.dev.passes h = true →
    h.src.toNat / 32 = s.dev.rack →
    exec (.withdraw h) s = .next (s.withDev (s.dev.onMbr fun m => m.await false (changeWord h.src.toNat 2 0xF 7)).settle)) ∧
  (∀ (s : State),
    (s.dev.get Reg.MBR_STATUS_refuse = 2 ∨ s.dev.get Reg.MBR_STATUS_refuse = 5) →
    exec (.rejoin) s = .next (s.withDev ((((s.dev.put Reg.MBR_CTRL_rejoin 0).put Reg.MBR_STATUS_refuse 0).put Reg.MBR_STATUS_state 1).onMbr fun m => { m with operator := true }).settle)) ∧
  (∀ (chip : BitVec 16) (s : State),
    let d := s.dev.setView chip.toNat { s.dev.viewEnt chip.toNat with hold := 0 }
    (chip.toNat ≠ s.dev.chip ∨ s.dev.get Reg.MBR_STATUS_refuse ≠ 1) →
    exec (.holdoffEnd chip) s = .next (s.withDev (d).settle)) ∧
  (∀ (chip : BitVec 16) (s : State),
    let d := s.dev.setView chip.toNat { s.dev.viewEnt chip.toNat with hold := 0 }
    chip.toNat = s.dev.chip →
    s.dev.get Reg.MBR_STATUS_refuse = 1 →
    exec (.holdoffEnd chip) s = .next (s.withDev (d.put Reg.MBR_STATUS_refuse 0).settle)) ∧
  (∀ (h : FabHdr) (change : Word) (s : State),
    s.dev.passes h = true →
    bits 48 16 change.toNat / 32 = s.dev.rack →
    exec (.evidence h change) s = .next (s.withDev (s.dev.onMbr fun m => m.await false change.toNat).settle)) ∧
  (∀ (a : Fin 8) (j : JobSt) (x : AccJob) (s : State),
    s.dev.jobOfAcc a = some j →
    j.accOf a = some x →
    s.dev.isMember = true →
    x.mark = none →
    exec (.jobStall a) s = .next (s.withDev (s.dev.askLeader (changeWord s.dev.chip 0 a 3)).settle)) ∧
  (∀ (job : BitVec 32) (child : BitVec 16) (j : JobSt) (s : State),
    s.dev.jobOf job.toNat = some j →
    s.dev.isMember = true →
    (s.dev.stepChildren j).contains child.toNat = true →
    Tab.find child.toNat j.reports = none →
    exec (.stepTreeStall job child) s = .next (s.withDev (s.dev.askLeader (changeWord child.toNat 0 0xF 3)).settle)) ∧
  (∀ (a : Fin 8) (s : State),
    s.dev.isMember = true →
    s.dev.agentUp a = false →
    exec (.agentPortTimeout a) s = .next (s.withDev (s.dev.askLeader (changeWord s.dev.chip 0 a 6)).settle))

/-- A go that fails the root's checks ends with 0x01, one while a start is busy does nothing; else the start is busy, the chunks go down the
start tree and acknowledgements are awaited (R308, R312). The descriptor is as long as MBR_JOB_CTRL.len says (R318). A node keeps a chunk of a start's epoch once and sends it on, keeps what a
child's last JOBACK says, answers one after the decision with it, admits the job at JOBGO, discards it at an abort, and answers a REPARENT once with what the orphan lacks (R311 to R313). JOBEND and
the root's end end the job (R314). A start not ended in 2,000 ms is aborted by its root with 0x09, recorded with 0x08 by a new root and
discarded by the others (R309, R313). HAZARD is kept at the root with the sender's watch (log entry 28), sums leave for it (R317), points decay (R315; the constant is log entry
35). A message of another epoch does nothing (R311). -/
def Obligations.JobStartAndEnd : Prop :=
  (∀ (dma : Dma) (s : State),
    (s.dev.put Reg.MBR_JOB_CTRL_go 0).flag Reg.MBR_JOB_STATUS_busy = true →
    exec (.jobSubmit dma) s = .next (s.withDev (s.dev.put Reg.MBR_JOB_CTRL_go 0).settle)) ∧
  (∀ (dma : Dma) (s : State),
    let g := (s.dev.put Reg.MBR_JOB_CTRL_go 0).dmaRead dma
    let bs := ((dma.getD []).take (max 64 (min 67108864 (g.get Reg.MBR_JOB_CTRL_len)))).map BitVec.toNat
    let d := ((g.put Reg.MBR_JOB_STATUS_job (numAt bs 4 4)).put Reg.MBR_JOB_STATUS_covered 0).put Reg.MBR_JOB_STATUS_result 0
    (s.dev.put Reg.MBR_JOB_CTRL_go 0).flag Reg.MBR_JOB_STATUS_busy = false →
    parseJob bs = none →
    exec (.jobSubmit dma) s = .next (s.withDev (d.startResult (numAt bs 4 4) 0x01).settle)) ∧
  (∀ (dma : Dma) (x : JobDesc) (s : State),
    let g := (s.dev.put Reg.MBR_JOB_CTRL_go 0).dmaRead dma
    let bs := ((dma.getD []).take (max 64 (min 67108864 (g.get Reg.MBR_JOB_CTRL_len)))).map BitVec.toNat
    let d := ((g.put Reg.MBR_JOB_STATUS_job (numAt bs 4 4)).put Reg.MBR_JOB_STATUS_covered 0).put Reg.MBR_JOB_STATUS_result 0
    (s.dev.put Reg.MBR_JOB_CTRL_go 0).flag Reg.MBR_JOB_STATUS_busy = false →
    parseJob bs = some x →
    d.rootOk x = false →
    exec (.jobSubmit dma) s = .next (s.withDev (d.startResult x.job 0x01).settle)) ∧
  (∀ (dma : Dma) (x : JobDesc) (s : State),
    let g := (s.dev.put Reg.MBR_JOB_CTRL_go 0).dmaRead dma
    let bs := ((dma.getD []).take (max 64 (min 67108864 (g.get Reg.MBR_JOB_CTRL_len)))).map BitVec.toNat
    let d := ((g.put Reg.MBR_JOB_STATUS_job (numAt bs 4 4)).put Reg.MBR_JOB_STATUS_covered 0).put Reg.MBR_JOB_STATUS_result 0
    let j := { JobSt.starting x.job d.epoch d.chip (jobChunks bs).length with desc := x, accs := x.accs, phase := 1, chunks := (jobChunks bs).zipIdx.map fun (c : List Nat × Nat) => (c.2, c.1) }
    (s.dev.put Reg.MBR_JOB_CTRL_go 0).flag Reg.MBR_JOB_STATUS_busy = false →
    parseJob bs = some x →
    d.rootOk x = true →
    exec (.jobSubmit dma) s = .next (s.withDev (
      (let e := (d.put Reg.MBR_JOB_STATUS_busy 1).setJob { j with status := d.nodeCheck j, failChip := if d.nodeCheck j = 0 then 0 else d.chip, row0 := (d.firstFit j).getD 0 };
      (if d.nodeCheck j = 0 then (e.startChildren j).foldl (fun (e : Dev) c => e.sendChunks j c 0) e else e).startAcks x.job)).settle)) ∧
  (∀ (j : JobSt) (s : State),
    let d := s.dev.put Reg.MBR_JOB_CTRL_end 0
    d.jobOf (d.get Reg.MBR_JOB_STATUS_job) = some j →
    j.phase = 2 →
    d.isRoot j = true →
    exec (.jobEndRequest) s = .next (s.withDev (d.jobEnd j.desc.job).settle)) ∧
  (∀ (h : FabHdr) (job adm : BitVec 32) (seq total root : BitVec 16) (data : List Byte) (j : JobSt) (s : State),
    let past := s.dev.mbr.ended.any fun e => e.1 == job.toNat && e.2.1 == adm.toNat
    let d := if (s.dev.jobOf job.toNat).isNone && !past then s.dev.setJob (JobSt.starting job.toNat adm.toNat root.toNat total.toNat) else s.dev
    let i := { j with chunks := Tab.insert seq.toNat (data.map BitVec.toNat) j.chunks }
    let k := { i with accs := if j.accs = [] then tableOf i.held else j.accs }
    let e := d.setJob k
    s.dev.passes h = true →
    d.jobOf job.toNat = some j →
    j.admEpoch = adm.toNat →
    j.phase = 0 →
    seq.toNat < j.total →
    Tab.find seq.toNat j.chunks = none →
    exec (.jobstart h job adm seq total root data) s = .next (s.withDev (
      ((if j.accs = [] then (if k.accs = [] then e else (e.startChildren k).foldl (fun (e : Dev) c => e.sendChunks k c 0) e)
        else e.sendAll (e.startChildren k) 0x20 (k.chunkBody seq.toNat (data.map BitVec.toNat))).startHeld job.toNat)).settle)) ∧
  (∀ (h : FabHdr) (job adm covered : BitVec 32) (status : Byte) (fail : BitVec 16) (j : JobSt) (s : State),
    s.dev.passes h = true →
    s.dev.jobOf job.toNat = some j →
    j.admEpoch = adm.toNat →
    j.phase ≠ 2 →
    Tab.find h.src.toNat j.acks ≠ some (covered.toNat, status.toNat, fail.toNat) →
    exec (.joback h job adm covered status fail) s = .next (s.withDev ((s.dev.setJob { j with
      acks := Tab.insert h.src.toNat (covered.toNat, status.toNat, fail.toNat) (Tab.erase h.src.toNat j.acks) }).startAcks job.toNat).settle)) ∧
  (∀ (h : FabHdr) (job adm covered : BitVec 32) (status : Byte) (fail : BitVec 16) (j : JobSt) (s : State),
    s.dev.passes h = true →
    s.dev.jobOf job.toNat = some j →
    j.admEpoch = adm.toNat →
    j.phase = 2 →
    exec (.joback h job adm covered status fail) s = .next (s.withDev (s.dev.send h.src.toNat 0x22 (j.goBody false 0)).settle)) ∧
  (∀ (h : FabHdr) (job adm : BitVec 32) (j : JobSt) (s : State),
    s.dev.passes h = true →
    s.dev.jobOf job.toNat = some j →
    j.admEpoch = adm.toNat →
    j.phase = 1 →
    exec (.jobgo h job adm) s = .next (s.withDev (
      (let d := (s.dev.sendAll (s.dev.startChildren j) 0x22 (j.goBody false 0)).admitJob job.toNat;
      if d.chip = j.root then d.startResult job.toNat 0 else d)).settle)) ∧
  (∀ (h : FabHdr) (job adm : BitVec 32) (result : Byte) (j : JobSt) (s : State),
    s.dev.passes h = true →
    s.dev.jobOf job.toNat = some j →
    j.admEpoch = adm.toNat →
    j.phase ≠ 2 →
    exec (.jobgoAbort h job adm result) s = .next (s.withDev (
      (let d := s.dev.sendAll (s.dev.startChildren j) 0x22 (j.goBody true result.toNat);
      let d : Dev := { d with mbr := { d.mbr with ended := d.mbr.ended ++ [(j.desc.job, j.admEpoch, result.toNat)] }, jobs := Tab.erase job.toNat d.jobs };
      if d.chip = j.root ∨ !d.flag Reg.MBR_JOB_STATUS_busy then d.startResult job.toNat result.toNat else d.raise Src.MBR_job_start_failed)).settle)) ∧
  (∀ (h : FabHdr) (job adm : BitVec 32) (orphan held : BitVec 16) (j : JobSt) (s : State),
    s.dev.passes h = true →
    s.dev.jobOf job.toNat = some j →
    j.admEpoch = adm.toNat →
    j.reparents.contains (orphan.toNat, held.toNat) = false →
    exec (.reparent h job adm orphan held) s = .next (s.withDev (
      (let d := (s.dev.setJob { j with reparents := j.reparents ++ [(orphan.toNat, held.toNat)] }).sendChunks j orphan.toNat held.toNat;
      if j.phase = 2 then d.send orphan.toNat 0x22 (j.goBody false 0) else d)).settle)) ∧
  (∀ (h : FabHdr) (job adm : BitVec 32) (orphan held : BitVec 16) (j : JobSt) (s : State),
    s.dev.passes h = true →
    s.dev.jobOf job.toNat = some j →
    j.reparents.contains (orphan.toNat, held.toNat) = true →
    exec (.reparent h job adm orphan held) s = .next (s.withDev (s.dev.settle))) ∧
  (∀ (h : FabHdr) (job adm : BitVec 32) (j : JobSt) (s : State),
    s.dev.passes h = true →
    s.dev.jobOf job.toNat = some j →
    j.admEpoch = adm.toNat →
    j.phase = 2 →
    exec (.jobend h job adm) s = .next (s.withDev (s.dev.jobEnd job.toNat).settle)) ∧
  (∀ (job : BitVec 32) (child : BitVec 16) (j : JobSt) (s : State),
    s.dev.jobOf job.toNat = some j →
    j.phase ≠ 2 →
    Tab.find child.toNat j.acks = none →
    (s.dev.startChildren j).contains child.toNat = true →
    exec (.jobackTimeout job child) s = .next (s.withDev (s.dev.sendChunks j child.toNat 0).settle)) ∧
  (∀ (job : BitVec 32) (j : JobSt) (p : Nat) (s : State),
    s.dev.jobOf job.toNat = some j →
    j.phase ≠ 2 →
    s.dev.startParent j = some p →
    exec (.orphanTimeout job) s = .next (s.withDev
      (((s.dev.send p 0x23 [j.startWord, pack [(48, 16, s.dev.chip), (32, 16, j.chunks.length)]]).setJob { j with acked := none }).startAcks
        job.toNat).settle)) ∧
  (∀ (job : BitVec 32) (j : JobSt) (s : State),
    s.dev.jobOf job.toNat = some j →
    j.phase ≠ 2 →
    s.dev.chip = j.root →
    exec (.startTimeout job) s = .next (s.withDev (s.dev.startAbort job.toNat 0x09).settle)) ∧
  (∀ (job : BitVec 32) (j : JobSt) (s : State),
    s.dev.jobOf job.toNat = some j →
    j.phase ≠ 2 →
    s.dev.chip ≠ j.root →
    exec (.startTimeout job) s = .next (s.withDev (
      (let d := { s.dev with mbr := { s.dev.mbr with ended := s.dev.mbr.ended ++ [(j.desc.job, j.admEpoch, 0x08)] }, jobs := Tab.erase job.toNat s.dev.jobs };
      if (s.dev.startNodes j).find? s.dev.live = some s.dev.chip ∧ d.flag Reg.MBR_JOB_STATUS_busy = false then d.startResult job.toNat 0x08 else d)).settle)) ∧
  (∀ (h : FabHdr) (job sum : BitVec 32) (watch : Bool) (j : JobSt) (s : State),
    s.dev.passes h = true →
    s.dev.jobOf job.toNat = some j →
    exec (.hazard h job ⟨sum, watch⟩) s = .next (s.withDev (s.dev.setJob { j with
      hazards := Tab.insert h.src.toNat sum.toNat (Tab.erase h.src.toNat j.hazards)
      watchers := (j.watchers.filter (· != h.src.toNat)) ++ if watch then [h.src.toNat] else [] }).settle)) ∧
  (∀ (s : State),
    exec (.hazardSend) s = .next (s.withDev (
      ((s.dev.jobs.filter fun e => e.2.phase == 2 && e.2.acc != []).foldl (fun (d : Dev) e =>
        let d := d.onJob e.1 fun j => { j with sentHazard := some (d.trayHazard j) };
        match d.rootOf e.2 with
        | some r => if r = d.chip then d else d.send r 0x25 [d.jobWord e.1, pack [(63, 1, b2n (d.trayWatch e.2)), (0, 32, d.trayHazard e.2)]]
        | none => d) s.dev)).settle)) ∧
  (∀ (s : State),
    exec (.healthDecay) s = .next (s.withDev (
      ((List.range 9).foldl (fun (d : Dev) v =>
        { d with health := Tab.set d.health v Health.reset (d.standing { d.healthOf v with points := (d.healthOf v).points * 4248701965 / 2 ^ 32 }) }) s.dev)).settle))

/-- ADOPT phase 0 notes new pairs and passes them down, preparing a spare of this tray (R323, R324), phase 1 binds them to their boundary,
phase 2 cancels them and spoils the spare, each once for its epoch, boundary and pairs; ADOPTACK is taken as R324 says. Firmware's ready and the wait's end answer every request
(R324). A program that meets R326 becomes a class A context whose stand-in joins the job, another is refused, as is none in time, for the first condition that
fails (R326, R327). A stand-in whose step list has ended forms its MARK, and the end of its update list goes on (R329). XRELAY is written to stand-ins
and, out of a stand-in, sent to agents (R333), HANDOVER is taken when its digest matches, and without items ends a handover or starts the
agent that takes over (R334). A drill is chosen or skipped, and ends its standing in (R336,
R337). The messages' details that the rules leave open are log entry 31. -/
def Obligations.AdoptionAndApposition : Prop :=
  (∀ (h : FabHdr) (job : BitVec 32) (pairs : List (BitVec 16 × BitVec 16 × Fin 8)) (j k m : JobSt) (s : State),
    let ps := pairs.map fun p => (p.1.toNat, p.2.1.toNat * 8 + p.2.2.val)
    let t := s.dev.setJob { j with adoptSeen := (j.adoptSeen.filter fun k => k.1 == h.epoch.toNat) ++ [(h.epoch.toNat, 0, 0, ps)] }
    let news := ps.filter fun p => !((Tab.find p.1 k.adopts).map AdoptSt.spare == some p.2)
    s.dev.passes h = true →
    s.dev.jobOf job.toNat = some j →
    j.adoptSeen.contains (h.epoch.toNat, 0, 0, ps) = false →
    t.jobOf job.toNat = some k →
    news ≠ [] →
    (t.adoptPrepare job.toNat ps).jobOf job.toNat = some m →
    m.drillIdx = none →
    exec (.adoptPrepare h job pairs) s = .next (s.withDev (
      (news.foldl (fun (d : Dev) p => d.prepareHere job.toNat k.root p)
        ((t.setJob { k with adopts := news.foldl (fun t p => Tab.insert p.1 ⟨p.2, false, none⟩ (Tab.erase p.1 t)) k.adopts }).adoptDown k 0 0 ps))).settle)) ∧
  (∀ (h : FabHdr) (job : BitVec 32) (pairs : List (BitVec 16 × BitVec 16 × Fin 8)) (j : JobSt) (s : State),
    let ps := pairs.map fun p => (p.1.toNat, p.2.1.toNat * 8 + p.2.2.val)
    s.dev.passes h = true →
    s.dev.jobOf job.toNat = some j →
    j.adoptSeen.contains (h.epoch.toNat, 0, 0, ps) = true →
    exec (.adoptPrepare h job pairs) s = .next (s.withDev (s.dev.settle))) ∧
  (∀ (h : FabHdr) (job : BitVec 32) (b : BitVec 40) (pairs : List (BitVec 16 × BitVec 16 × Fin 8)) (j k : JobSt) (s : State),
    let ps := pairs.map fun p => (p.1.toNat, p.2.1.toNat * 8 + p.2.2.val)
    let t := s.dev.setJob { j with adoptSeen := (j.adoptSeen.filter fun k => k.1 == h.epoch.toNat) ++ [(h.epoch.toNat, 1, b.toNat, ps)] }
    let news := ps.filter fun p => !(k.accs[p.1]? == some p.2 && k.drillIdx != some p.1) && !((Tab.find p.1 k.adopts).bind AdoptSt.bound == some b.toNat)
    s.dev.passes h = true →
    s.dev.jobOf job.toNat = some j →
    j.adoptSeen.contains (h.epoch.toNat, 1, b.toNat, ps) = false →
    t.jobOf job.toNat = some k →
    news ≠ [] →
    exec (.adoptCommit h job b pairs) s = .next (s.withDev (
      ((((t.setJob { k with adopts := news.foldl (fun t p => Tab.insert p.1 ⟨p.2, true, some b.toNat⟩ (Tab.erase p.1 t)) k.adopts }).adoptDown
        k b.toNat 1 ps).drillBack job.toNat ps).adoptDue job.toNat none)).settle)) ∧
  (∀ (h : FabHdr) (job : BitVec 32) (pairs : List (BitVec 16 × BitVec 16 × Fin 8)) (j k : JobSt) (s : State),
    let ps := pairs.map fun p => (p.1.toNat, p.2.1.toNat * 8 + p.2.2.val)
    let t := s.dev.setJob { j with adoptSeen := (j.adoptSeen.filter fun k => k.1 == h.epoch.toNat) ++ [(h.epoch.toNat, 2, 0, ps)] }
    let gone := ps.filter fun p => (Tab.find p.1 k.adopts).map AdoptSt.spare == some p.2
    s.dev.passes h = true →
    s.dev.jobOf job.toNat = some j →
    j.adoptSeen.contains (h.epoch.toNat, 2, 0, ps) = false →
    t.jobOf job.toNat = some k →
    gone ≠ [] →
    exec (.adoptCancel h job pairs) s = .next (s.withDev (
      (gone.foldl (fun (d : Dev) p =>
        let d : Dev := { d with mbr := { d.mbr with spoiled := Tab.update d.mbr.spoiled (p.2 / 8) 0 fun m => setBit m (p.2 % 8) } }
        if p.2 / 8 = d.chip then
          let d : Dev := { d with adoptReqs := d.adoptReqs.filter fun q => !(q.1 == job.toNat && q.2.1 == p.1) }
          if d.adoptReqs = [] then d.put Reg.SPARE_ADOPT_state 0 else d
        else d)
        ((t.setJob { k with adopts := gone.foldl (fun t p => Tab.erase p.1 t) k.adopts }).adoptDown k 0 2 ps))).settle)) ∧
  (∀ (h : FabHdr) (job : BitVec 32) (index : BitVec 16) (j : JobSt) (e : AdoptSt) (s : State),
    s.dev.passes h = true →
    s.dev.jobOf job.toNat = some j →
    j.lost.contains index.toNat = false →
    Tab.find index.toNat j.adopts = some e →
    e.spare / 8 = h.src.toNat →
    e.ready = false →
    e.bound = none →
    exec (.adoptack h job index 0) s = .next (s.withDev (
      ((s.dev.setJob { j with adopts := Tab.insert index.toNat { e with ready := true } (Tab.erase index.toNat j.adopts) }).adoptReady job.toNat)).settle)) ∧
  (∀ (h : FabHdr) (job : BitVec 32) (index : BitVec 16) (status : Byte) (j : JobSt) (e : AdoptSt) (s : State),
    s.dev.passes h = true →
    s.dev.jobOf job.toNat = some j →
    j.lost.contains index.toNat = false →
    Tab.find index.toNat j.adopts = some e →
    e.spare / 8 = h.src.toNat →
    e.ready = false →
    e.bound = none →
    status.toNat ≠ 0 →
    exec (.adoptack h job index status) s = .next (s.withDev (
      (((((s.dev.adoptCancel job.toNat [(index.toNat, e.spare)]).raise Src.SPARE_adopt_failed).incE Cnt.SPARE_CNT_ADOPT_FAIL).tryAdopt job.toNat).adoptReady job.toNat)).settle)) ∧
  (∀ (h : FabHdr) (job : BitVec 32) (index : BitVec 16) (j : JobSt) (s : State),
    s.dev.passes h = true →
    s.dev.jobOf job.toNat = some j →
    j.lost.contains index.toNat = true →
    j.accs.getD index.toNat 0 / 8 = h.src.toNat →
    exec (.adoptack h job index 0) s = .next (s.withDev (
      (s.dev.setJob { j with standing := j.standing ++ [index.toNat], lost := j.lost.filter (· != index.toNat) })).settle)) ∧
  (∀ (s : State),
    exec (.spareReady) s = .next (s.withDev (
      (s.dev.adoptReqs.foldl (fun (d : Dev) q => if d.spareStatus q.2.2.1 = 0
          then ((d.readyDecls q.2.2.1).put Reg.SPARE_ADOPT_state 2).answer q (d.spareStatus q.2.2.1) else d.answer q (d.spareStatus q.2.2.1))
        { s.dev.put Reg.SPARE_CTRL_ready 0 with adoptReqs := [] })).settle)) ∧
  (∀ (s : State),
    exec (.adoptWait) s = .next (s.withDev (s.dev.adoptReqs.foldl (fun (d : Dev) q => d.answer q 3) { s.dev with adoptReqs := [] }).settle)) ∧
  (∀ (dma : Dma) (i : Fin 2) (j : JobSt) (c : Nat) (h : ProgHdr) (s : State),
    let d := (s.dev.put Reg.APPO_CTRL_load 0).dmaRead dma
    let x := d.standSt i
    let bs := dma.map fun b => b.map BitVec.toNat
    (List.range 2).find? (fun n => ((s.dev.put Reg.APPO_CTRL_load 0).standSt n).state == 1) = some i.val →
    d.jobOf x.job = some j →
    d.freeCtx = some c →
    d.appoReason j.desc.onLoss x bs = none →
    (bs.bind fun b => progHeader b x.job x.index) = some h →
    exec (.appoLoad dma) s = .next (s.withDev (
      (let f := (d.standContext c h (bs.getD [])).setStand i { x with state := 2, ctx := c, prog := h, reason := 0 };
      let f := f.setJob (j.setAcc x.acc (AccJob.fresh x.index (f.baseOf j x.acc) true));
      f.sendAdoptAck j x.index 0)).settle)) ∧
  (∀ (dma : Dma) (i : Fin 2) (j : JobSt) (c r : Nat) (s : State),
    let d := (s.dev.put Reg.APPO_CTRL_load 0).dmaRead dma
    let x := d.standSt i
    let bs := dma.map fun b => b.map BitVec.toNat
    (List.range 2).find? (fun n => ((s.dev.put Reg.APPO_CTRL_load 0).standSt n).state == 1) = some i.val →
    d.jobOf x.job = some j →
    d.freeCtx = some c →
    d.appoReason j.desc.onLoss x bs = some r →
    exec (.appoLoad dma) s = .next (s.withDev (d.appoRefuse i r j x.index).settle)) ∧
  (∀ (slot : Fin 2) (j : JobSt) (s : State),
    (s.dev.standSt slot).state = 1 →
    s.dev.jobOf (s.dev.standSt slot).job = some j →
    exec (.progWait slot) s = .next (s.withDev (s.dev.appoRefuse slot ((s.dev.appoReason j.desc.onLoss (s.dev.standSt slot) none).getD 4) j (s.dev.standSt slot).index).settle)) ∧
  (∀ (slot : Fin 2) (j : JobSt) (a : AccJob) (s : State),
    let x := s.dev.standSt slot
    let w := s.dev.ctxWord x.ctx 0x1000
    let n := 1 + bits 48 16 w + 2 * bits 32 16 w + bits 0 32 w / 8
    x.state = 3 →
    x.updating = false →
    x.redo = false →
    s.dev.threadsOf x.ctx = [] →
    s.dev.jobOf x.job = some j →
    j.accOf x.acc = some a →
    exec (.standinStepEnd slot) s = .next (s.withDev (s.dev.markIn x.job x.acc (markOf x.step a.exec s.dev.time 0 ((List.range n).map fun i => s.dev.ctxWord x.ctx (0x1000 + 8 * i)))).settle)) ∧
  (∀ (slot : Fin 2) (s : State),
    let x := s.dev.standSt slot
    x.updating = true →
    s.dev.threadsOf x.ctx = [] →
    x.state = 3 →
    exec (.standinUpdateEnd slot) s = .next (s.withDev (((s.dev.setStand slot { x with updating := false }).standCut x.job x.acc).standStep slot (x.step + 1)).settle)) ∧
  (∀ (slot : Fin 2) (s : State),
    let x := s.dev.standSt slot
    x.updating = true →
    s.dev.threadsOf x.ctx = [] →
    x.state = 4 →
    exec (.standinUpdateEnd slot) s = .next (s.withDev ((((s.dev.setStand slot { x with updating := false }).standAnswer x.job x.acc x).handover slot)).settle)) ∧
  (∀ (h : FabHdr) (job : BitVec 32) (record : BitVec 24) (off : BitVec 38) (token : Word) (data : List Byte) (j : JobSt) (r : RecDesc) (s : State),
    s.dev.passes h = true →
    s.dev.jobOf job.toNat = some j →
    j.recDesc record.toNat = some r →
    exec (.xrelay h job record off (some token) data) s = .next (s.withDev (
      (let bs := data.map BitVec.toNat;
      let last := decide (r.len ≤ off.toNat + bs.length);
      let d := (List.range 2).foldl (fun (d : Dev) s =>
        let x := d.standSt s
        if x.job ≠ job.toNat ∨ x.state ≠ 3 then d
        else match (d.exchanges x).find? fun e => e.1 == record.toNat && !e.2.1 with
          | some e =>
            let d := d.ctxWrites x.ctx (placeBytes (e.2.2.2 + off.toNat) bs)
            if last then d.semaphore x.ctx e.2.2.1 0 1 else d
          | none => d) s.dev;
      (j.acc.filter fun e => !e.2.standIn && r.holders.contains e.2.index).foldl (fun (d : Dev) e => d.xput e.1 record.toNat off.toNat last token.toNat bs) d)).settle)) ∧
  (∀ (h : FabHdr) (job : BitVec 32) (record : BitVec 24) (off : BitVec 38) (data : List Byte) (j : JobSt) (r : RecDesc) (s : State),
    s.dev.passes h = true →
    s.dev.jobOf job.toNat = some j →
    j.recDesc record.toNat = some r →
    exec (.xrelay h job record off none data) s = .next (s.withDev (
      (let bs := data.map BitVec.toNat;
      let last := decide (r.len ≤ off.toNat + bs.length);
      let d := (List.range 2).foldl (fun (d : Dev) s =>
        let x := d.standSt s
        if x.job ≠ job.toNat ∨ x.state ≠ 3 then d
        else match (d.exchanges x).find? fun e => e.1 == record.toNat && !e.2.1 with
          | some e =>
            let d := d.ctxWrites x.ctx (placeBytes (e.2.2.2 + off.toNat) bs)
            if last then d.semaphore x.ctx e.2.2.1 0 1 else d
          | none => d) s.dev;
      d)).settle)) ∧
  (∀ (h : FabHdr) (job : BitVec 32) (acc : Fin 8) (nFlow : BitVec 24) (itemBytes : BitVec 32) (digestOk : Bool) (s : State),
    s.dev.passes h = true →
    ((List.range 2).any fun i => (s.dev.standSt i).state == 4 && (s.dev.standSt i).job == job.toNat && (s.dev.standSt i).acc == acc.val &&
      (s.dev.standSt i).spare / 8 == h.src.toNat) = true →
    exec (.handover h job acc nFlow itemBytes [] digestOk) s = .next (s.withDev (s.dev.standOver job.toNat acc).settle)) ∧
  (∀ (h : FabHdr) (job : BitVec 32) (acc : Fin 8) (nFlow : BitVec 24) (itemBytes : BitVec 32) (digestOk : Bool) (j : JobSt) (e : Nat × TakeSt)
      (s : State),
    s.dev.passes h = true →
    ((List.range 2).any fun i => (s.dev.standSt i).state == 4 && (s.dev.standSt i).job == job.toNat && (s.dev.standSt i).acc == acc.val &&
      (s.dev.standSt i).spare / 8 == h.src.toNat) = false →
    s.dev.jobOf job.toNat = some j →
    (j.adopts.find? fun e => e.2.bound.isSome && e.2.spare / 8 == s.dev.chip && j.accs.getD e.1 0 == h.src.toNat * 8 + acc.val) = none →
    (j.taking.find? fun e => e.2.src == h.src.toNat * 8 + acc.val) = some e →
    exec (.handover h job acc nFlow itemBytes [] digestOk) s = .next (s.withDev (
      ((s.dev.sendJob job.toNat e.1 (e.2.step + 1)).sendDown e.1 0x07 [e.2.step * 2 ^ 24]).settle))) ∧
  (∀ (h : FabHdr) (job : BitVec 32) (acc : Fin 8) (nFlow : BitVec 24) (itemBytes : BitVec 32) (words : List Word) (j : JobSt) (e : Nat × TakeSt) (s : State),
    s.dev.passes h = true →
    words ≠ [] →
    s.dev.jobOf job.toNat = some j →
    (j.taking.find? fun e => e.2.src == h.src.toNat * 8 + acc.val) = some e →
    exec (.handover h job acc nFlow itemBytes words false) s = .next (s.withDev ((s.dev.raise Src.APPO_handover_failed).sendAdoptAck j (((j.accOf e.1).map AccJob.index).getD 0) 3).settle)) ∧
  (∀ (h : FabHdr) (job : BitVec 32) (acc : Fin 8) (nFlow : BitVec 24) (itemBytes : BitVec 32) (words : List Word) (j : JobSt) (e : Nat × TakeSt) (s : State),
    let ws := words.map BitVec.toNat
    let items := itemsOf (ws.take (itemBytes.toNat / 8)) (itemBytes.toNat / 8)
    let flows := (chunksOf 6 nFlow.toNat (ws.drop (itemBytes.toNat / 8))).take nFlow.toNat
    s.dev.passes h = true →
    words ≠ [] →
    s.dev.jobOf job.toNat = some j →
    (j.taking.find? fun e => e.2.src == h.src.toNat * 8 + acc.val) = some e →
    exec (.handover h job acc nFlow itemBytes words true) s = .next (s.withDev (
      (let d := flows.foldl (fun (d : Dev) f => let n := bits 40 24 (wd f 0); d.setFlow n (some ((d.flowRec n).take 3 ++ f.drop 1))) s.dev;
      let d := items.foldl (fun (d : Dev) it => d.takeShards job.toNat e.1 it.1 (itemData it.2)) d;
      let d := d.onJob job.toNat fun j => { j with taking := match Tab.find e.1 j.taking with
        | some t => Tab.insert e.1 { t with left := t.left.filter fun n => !(items.map (·.1)).contains n } (Tab.erase e.1 j.taking)
        | none => j.taking };
      if e.2.left = [] ∧ items = [] then d else d.takeDone job.toNat e.1)).settle)) ∧
  (∀ (s : State),
    s.dev.isLeader = true →
    s.dev.get (acts Reg.DRILL_CTRL_period_h) ≠ 0 →
    s.dev.drill.phase = 0 →
    s.dev.drillable = [] →
    exec (.drillTime) s = .next (s.withDev (s.dev.drillResult 3 1 0).settle)) ∧
  (∀ (j : JobSt) (x : Nat) (s : State),
    s.dev.isLeader = true →
    s.dev.get (acts Reg.DRILL_CTRL_period_h) ≠ 0 →
    s.dev.drill.phase = 0 →
    s.dev.drillable ≠ [] →
    s.dev.drillJob (s.dev.drillable.filter s.dev.drillTurn) = some j →
    s.dev.standsRun = 0 →
    (s.dev.jobs.any fun e => (s.dev.standChips e.2).any fun c => c / 32 == s.dev.rack) = false →
    1 ≤ s.dev.budget →
    j.accs.all s.dev.accIn = true →
    s.dev.drillAcc j = some x →
    exec (.drillTime) s = .next (s.withDev ({ s.dev with drill := ⟨1, j.desc.job, j.accs.findIdx (· == x), x, 0, 0, false⟩ }).settle)) ∧
  (∀ (job : BitVec 32) (j : JobSt) (i : Nat) (s : State),
    s.dev.jobOf job.toNat = some j →
    j.drillIdx = some i →
    s.dev.isRoot j = true →
    j.standing.contains i = true →
    exec (.drillLen job) s = .next (s.withDev (s.dev.prepare job.toNat [(i, j.accs.getD i 0)]).settle))

/-- An epoch pulse advances the pulse number, applies the adj, time or step that waited, and the source's frames leave with its next adj, which every member takes at the next pulse (R341
to R345); a
missing one is replaced, shown and raised (R343). A frame of a member's leader sets the pulse number and, within the jump threshold, the
correction of the next pulse; beyond it a locked controller refuses it, unless firmware has armed TIME_CTRL.rearm (R344, R345, R350,
R351). A controller that hears no frame becomes a source, a source that hears no Sync the master (R346). A Sync of the master through the
lowest arrival slot disciplines a leader and goes on as R348 says, and a malformed message or one outside the subset is raised or counted
(R347, R349). rack_time_fault is raised while the offset is large (R345). Holdover, the
reference's loss and return move the state as R350 says. -/
def Obligations.PodTime : Prop :=
  (∀ (s : State),
    let d := s.dev.put Reg.TIME_EPOCH_pulse (s.dev.get Reg.TIME_EPOCH_pulse + 1)
    let e := (d.onClock fun c => { c with
      nextAdj := if d.timeSource then c.wanted else none, wanted := none, nextLoad := none, stepBy := 0, atPulse := d.time }).tablesTake
    s.dev.clock.nextAdj = none →
    s.dev.clock.nextLoad = none →
    s.dev.clock.stepBy = 0 →
    exec (.epochPulse) s = .next (s.withDev ((if e.timeSource then (gPorts.filter e.portUp).foldl (fun d i => d.sendTimeFrame i d.rackFrame) e else e)))) ∧
  (∀ (a t : Nat) (s : State),
    let d := (s.dev.put Reg.TIME_EPOCH_pulse (s.dev.get Reg.TIME_EPOCH_pulse + 1)).put Reg.TIME_RATE_adj a
    let f := ({ d with time := t }).incU Cnt.TIME_CNT_TIME_LOADS
    let e := (f.onClock fun c => { c with
      nextAdj := if f.timeSource then c.wanted else none, wanted := none, nextLoad := none, stepBy := 0, atPulse := f.time }).pulsesStepped.tablesTake
    s.dev.clock.nextAdj = some a →
    s.dev.clock.nextLoad = some t →
    exec (.epochPulse) s = .next (s.withDev ((if e.timeSource then (gPorts.filter e.portUp).foldl (fun d i => d.sendTimeFrame i d.rackFrame) e else e)))) ∧
  (∀ (s : State),
    exec (.epochMissing) s = .next (s.withDev (
      ((((s.dev.epochPulse.onClock fun c => { c with substituted := some s.dev.nowUs }).put Reg.TIME_STATUS_epoch_missing 1).incE
        Cnt.TIME_CNT_EPOCH_MISS).raise Src.TIME_epoch_missing)))) ∧
  (∀ (i : Fin 18) (w : List Word) (s : State),
    let d := s.dev
    let ws := w.map BitVec.toNat
    let src := bits 32 16 (wd ws 0)
    let dep : Nat := bits 0 48 (wd ws 4) * unitsPerSec + bits 0 46 (wd ws 5) * 2 ^ 24
    let off : Int := (d.time : Int) - dep - d.linkDelay (8 + i)
    let small := decide (-(5 * 2 ^ 40) ≤ off) && decide (off ≤ 5 * 2 ^ 40)
    let g := (d.put Reg.TIME_STATUS_rack_off (saturateTo 16 (off / 2 ^ 38))).onClock fun c => { c with
      rackGood := since c.rackGood d.nowUs small, rackOver := !small }
    let e := g.put Reg.TIME_EPOCH_pulse (wd ws 0)
    let value : Nat := bits 0 48 (wd ws 1) * unitsPerSec + bits 0 46 (wd ws 2) * 2 ^ 24
    let diff := inFrameUnits ((g.clock.atPulse : Int) - value)
    helloChip ((d.port (8 + i)).hello.getD []) ≠ src →
    d.isMember = true →
    d.timeSource = false →
    d.leaderOf d.rack = some src →
    d.timeState ≠ 0 →
    g.timeState ≠ 5 →
    e.timeState = 3 →
    e.clock.rearm = false →
    (-g.jumpLimit ≤ diff ∧ diff ≤ g.jumpLimit) →
    exec (.rackTimeFrame i w) s = .next (s.withDev (
      (let f := (e.onClock fun c => { c with
        nextAdj := some (bits 0 32 (wd ws 3))
        nextLoad := if diff = 0 then c.nextLoad else some (value + 156250 * increment (bits 32 32 (wd ws 3))) });
      f.put Reg.PTP_STATUS_role (if f.isStandby then 3 else 1))))) ∧
  (∀ (i : Fin 18) (w : List Word) (s : State),
    let d := s.dev
    let ws := w.map BitVec.toNat
    let src := bits 32 16 (wd ws 0)
    let dep : Nat := bits 0 48 (wd ws 4) * unitsPerSec + bits 0 46 (wd ws 5) * 2 ^ 24
    let off : Int := (d.time : Int) - dep - d.linkDelay (8 + i)
    let small := decide (-(5 * 2 ^ 40) ≤ off) && decide (off ≤ 5 * 2 ^ 40)
    let g := (d.put Reg.TIME_STATUS_rack_off (saturateTo 16 (off / 2 ^ 38))).onClock fun c => { c with
      rackGood := since c.rackGood d.nowUs small, rackOver := !small }
    let e := g.put Reg.TIME_EPOCH_pulse (wd ws 0)
    let value : Nat := bits 0 48 (wd ws 1) * unitsPerSec + bits 0 46 (wd ws 2) * 2 ^ 24
    let diff := inFrameUnits ((g.clock.atPulse : Int) - value)
    helloChip ((d.port (8 + i)).hello.getD []) ≠ src →
    d.isMember = true →
    d.timeSource = false →
    d.leaderOf d.rack = some src →
    d.timeState ≠ 0 →
    g.timeState ≠ 5 →
    3 ≤ e.timeState →
    (diff < -g.jumpLimit ∨ g.jumpLimit < diff) →
    e.clock.rearm = false →
    exec (.rackTimeFrame i w) s = .next (s.withDev (e.refuseJump))) ∧
  (∀ (s : State),
    s.dev.clock.rackOver = true →
    exec (.rackTimeFault) s = .next (s.withDev (s.dev.raise Src.TIME_rack_time_fault))) ∧
  (∀ (s : State),
    s.dev.clock.rackOver = false →
    exec (.rackTimeFault) s = .next (s.withDev (s.dev))) ∧
  (∀ (s : State),
    s.dev.isMember = false →
    s.dev.timeState ≠ 0 →
    exec (.rackFrameTimeout) s = .next (s.withDev ((s.dev.onClock fun c => { c with source := true }).timeRoles))) ∧
  (∀ (s : State),
    s.dev.isMember = false →
    s.dev.clock.source = true →
    exec (.syncTimeout) s = .next (s.withDev ((s.dev.onClock fun c => { c with master := true }).timeRoles))) ∧
  (∀ (i : Fin 40) (h : PtpHdr) (src : BitVec 16) (arrival : Fin 18) (sec : BitVec 48) (ns : BitVec 32) (corr : BitVec 48) (s : State),
    let origin := (sec.toNat * 1000000000 + ns.toNat) * 65536
    let ports := s.dev.syncPorts i (src.toNat / 32) arrival
    let d := ports.foldl (fun d j => d.sendTimeFrame j (d.syncOn i h origin corr.toNat) src.toNat) (s.dev.incU Cnt.PTP_CNT_SYNC_RX)
    let e := (d.setMaster src.toNat).put Reg.PTP_STATUS_port i
    h.malformed = false →
    h.version = 2 →
    h.minor = 1 →
    h.sdoId = 0 →
    h.twoStep = false →
    h.tlv = false →
    h.domain.toNat = s.dev.get (acts Reg.PTP_CTRL_domain) →
    s.dev.isMember = true →
    s.dev.isLeader = true →
    s.dev.podMaster = false →
    (s.dev.arrivalSlots (src.toNat / 32)).min? = some arrival.val →
    s.dev.viewMaster = some src.toNat →
    exec (.sync i h src arrival sec ns corr) s = .next (s.withDev (
      (e.put Reg.PTP_DELAY_d_in (e.linkDelay i / 2 ^ 36)).discipline
        (((e.put Reg.PTP_DELAY_d_in (e.linkDelay i / 2 ^ 36)).time : Int) - origin * 2 ^ 24 - corr.toNat * 2 ^ 24 - e.linkDelay i)))) ∧
  (∀ (i : Fin 40) (h : PtpHdr) (src : BitVec 16) (arrival : Fin 18) (sec : BitVec 48) (ns : BitVec 32) (corr : BitVec 48) (s : State),
    (h.malformed = true ∨ h.version ≠ 2 ∨ h.sdoId ≠ 0) →
    exec (.sync i h src arrival sec ns corr) s = .next (s.withDev (s.dev.raise Src.PTP_ptp_protocol))) ∧
  (∀ (s : State),
    s.dev.isMember = true →
    s.dev.viewMaster.map (· / 32) = some s.dev.rack →
    s.dev.silent = false →
    exec (.syncSend) s = .next (s.withDev (((xPorts.filter s.dev.portUp).foldl (fun d i => (d.sendTimeFrame i (d.ptpFrame 0 i d.time 0)).incU Cnt.PTP_CNT_SYNC_TX) s.dev)))) ∧
  (∀ (s : State),
    exec (.pdelaySend) s = .next (s.withDev ((((gPorts ++ xPorts).filter s.dev.portUp).foldl (fun d i => d.sendTimeFrame i (d.ptpFrame 2 i d.time 0)) s.dev)))) ∧
  (∀ (i : Fin 40) (h : PtpHdr) (turn : BitVec 48) (s : State),
    h.malformed = false →
    h.version = 2 →
    h.minor = 1 →
    h.sdoId = 0 →
    h.twoStep = false →
    h.tlv = false →
    h.domain.toNat = s.dev.get (acts Reg.PTP_CTRL_domain) →
    exec (.pdelayReq i h turn) s = .next (s.withDev ((s.dev.sendTimeFrame i (s.dev.ptpFrame 3 i 0 turn.toNat ++ [h.identity.toNat, h.portNumber.toNat]))))) ∧
  (∀ (i : Fin 40) (h : PtpHdr) (trip turn : BitVec 48) (s : State),
    h.malformed = false →
    h.version = 2 →
    h.minor = 1 →
    h.sdoId = 0 →
    h.twoStep = false →
    h.tlv = false →
    h.domain.toNat = s.dev.get (acts Reg.PTP_CTRL_domain) →
    exec (.pdelayResp i h trip turn) s = .next (s.withDev (
      ((s.dev.onClock fun c => { c with
        delays := Tab.update c.delays i [] fun l => (l ++ [(trip.toNat - turn.toNat) / 2]).drop (l.length + 1 - 8) }).incU Cnt.PTP_CNT_PDELAY)))) ∧
  (∀ (h : PtpHdr) (src : BitVec 16) (s : State),
    h.malformed = false →
    h.version = 2 →
    h.minor = 1 →
    h.sdoId = 0 →
    h.twoStep = false →
    h.tlv = false →
    h.domain.toNat = s.dev.get (acts Reg.PTP_CTRL_domain) →
    h.type_ = 0xB →
    (s.dev.isMember = true → s.dev.viewMaster = some src.toNat) →
    exec (.announce h src) s = .next (s.withDev (s.dev.setMaster src.toNat))) ∧
  (∀ (i : Fin 40) (h : PtpHdr) (src : BitVec 16) (arrival : Fin 18) (sec : BitVec 48) (ns : BitVec 32) (corr : BitVec 48) (s : State),
    h.malformed = false →
    h.version = 2 →
    h.sdoId = 0 →
    (h.minor ≠ 1 ∨ h.twoStep = true ∨ h.tlv = true ∨ h.domain.toNat ≠ s.dev.get (acts Reg.PTP_CTRL_domain)) →
    exec (.sync i h src arrival sec ns corr) s = .next (s.withDev (s.dev.incE Cnt.PTP_CNT_PTP_DISCARD))) ∧
  (∀ (h : PtpHdr) (src : BitVec 16) (s : State),
    h.malformed = false →
    h.version = 2 →
    h.sdoId = 0 →
    h.type_ ≠ 0xB →
    exec (.announce h src) s = .next (s.withDev (s.dev.incE Cnt.PTP_CNT_PTP_DISCARD))) ∧
  (∀ (s : State),
    s.dev.timeState = 3 →
    s.dev.podMaster = false →
    (s.dev.isLeader = true ∨ s.dev.clock.source = true) →
    exec (.holdover) s = .next (s.withDev (
      ((s.dev.onClock fun c => { c with wanted := some (adjOfRate c.integ) }).put Reg.TIME_STATUS_state 4).raise Src.TIME_holdover))) ∧
  (∀ (s : State),
    s.dev.timeState = 3 →
    s.dev.podMaster = false →
    s.dev.isLeader = false →
    s.dev.clock.source = false →
    exec (.holdover) s = .next (s.withDev ((s.dev.put Reg.TIME_STATUS_state 4).raise Src.TIME_holdover))) ∧
  (∀ (s : State),
    exec (.refMissing) s = .next (s.withDev (((s.dev.put Reg.TIME_STATUS_state 5).put Reg.TIME_STATUS_ref_missing 1).raise Src.TIME_ref_missing))) ∧
  (∀ (s : State),
    (s.dev.put Reg.TIME_STATUS_ref_missing 0).timeState = 5 →
    exec (.refReturn) s = .next (s.withDev ((s.dev.put Reg.TIME_STATUS_ref_missing 0).put Reg.TIME_STATUS_state 4))) ∧
  (∀ (s : State),
    exec (.timeRearm) s = .next (s.withDev (s.dev.onClock fun c => { c with rearm := true }))) ∧
  (∀ (s : State),
    exec (.agentTimeSend) s = .next (s.withDev (
      ((List.range 8).foldl (fun d a =>
        if d.portUp a then d.sendDown a 0x0B [secOf d.time, nsOf d.time * 65536 + fracOf d.time] else d) s.dev))))

/-- An overrun of a held instance is counted and raised (R355). In an open slot a chunk of the staged pack runs, of a planned partition the
cores' results are taken (R357, R418). Arming latches T0, PER and CFG, with PER at least 1 step or 1 µs; a target already past fires at
once, late, another waits (R358, R359, R364). An output fires with its pin, and disarms or takes its next target; at its width's end the
pin returns (R358). An edge of the chosen direction is stamped with time and position, unless it comes within 50 ns or the FIFO is full,
which is counted and raised; a read takes the oldest entry and latches it whole, zeros when there is none (R360). -/
def Obligations.TensePulsesAndCaptures : Prop :=
  (∀ (i : Fin 8) (x : TenseSt) (s : State),
    Tab.find i.val s.dev.tense = some x →
    exec (.tenseOverrun i) s = .next (s.withDev ((s.dev.incE Cnt.TENSE_CNT_TENSE_OVERRUN).raise Src.TENSE_tense_overrun))) ∧
  (∀ (i : Fin 8) (s : State),
    Tab.find i.val s.dev.tense = none →
    exec (.tenseOverrun i) s = .next (s.withDev (s.dev))) ∧
  (∀ (bound : BitVec 32) (last readOk : Bool) (fail : Option ChunkFail) (info : ObjInfo) (s : State),
    s.dev.stage = 0xA →
    s.dev.boot.packA = some info →
    s.dev.drillWindow = true →
    s.dev.slotOpen bound.toNat = true →
    s.dev.packs.doneIn ≠ s.dev.drillStart (secOf s.dev.time) →
    s.dev.partState (s.dev.packCluster / 2) = 0 →
    exec (.testSlot (.pack bound last readOk fail)) s = .next (s.withDev ((s.dev.packChunk last (readOk || s.dev.packs.readBack) fail)))) ∧
  (∀ (cl : Fin 32) (cores : List (Fin 17 × Option (Fin 11))) (t : Nat) (s : State),
    let p := cl.val / 2
    (s.dev.mon p).started = some t →
    s.dev.partState p = 0 →
    s.dev.slotOpen 50000 = true →
    exec (.testSlot (.plan cl cores)) s = .next (s.withDev (
      (let d := (s.dev.yieldCluster cl);
      let q := (bestPoint (d.mon p).table ((d.get (Reg.MON_CTRL_target_mhz p) - 1200) / 100)).getD 0;
      let r := d.planCores p cl q (cores.map fun e => (e.1.val, e.2.map Fin.val));
      let e := r.1.addU (Cnt.MON_CNT_SPARE_IN p) r.2.1;
      let e := if (e.mon p).cap < (d.mon p).cap ∧ (e.mon p).cap < q then (e.incE (Cnt.MON_CNT_POINT_DROP p)).raise (Src.MON_point_lowered p) else e;
      if r.2.2 ∧ e.partState p ≠ 4 then ((e.planOver p).put (Reg.MON_STATUS_result p) 0x03).partOut p 6 else e)))) ∧
  (∀ (n : Fin 8) (s : State),
    let mode := s.dev.get (Reg.PULSE_CFG_mode n)
    let tense := s.dev.flag (Reg.PULSE_CFG_basis n)
    let per := s.dev.get (Reg.PULSE_PER_per n)
    let p : PulseSt := { tense := tense, inst := s.dev.get (Reg.PULSE_CFG_inst n), periodic := mode == 2, pol := s.dev.flag (Reg.PULSE_CFG_pol n), t0 := s.dev.get (Reg.PULSE_T0_t0 n), per := if tense then max 1 (per % 2 ^ 40) else max 1000 (per % 2 ^ 48), next := 0 }
    (mode = 1 ∨ mode = 2) →
    exec (.pulseArm n) s = .next (s.withDev ((s.dev.setPulse n (some p)).catchUp n true))) ∧
  (∀ (d : Dev) (n now : Nat) (p : PulseSt) (late : Bool),
    Tab.find n d.pulses = some p →
    d.pulseNow p = some now →
    p.target p.next < now →
    d.catchUp n late = (let e := d.firePulse n p (p.after (p.next + 1) now); if late then (e.put (Reg.PULSE_STATUS_late n) 1).raise Src.PULSE_pulse_late else e)) ∧
  (∀ (d : Dev) (n now : Nat) (p : PulseSt) (late : Bool),
    Tab.find n d.pulses = some p →
    d.pulseNow p = some now →
    now ≤ p.target p.next →
    d.catchUp n late = d) ∧
  (∀ (n : Fin 8) (p : PulseSt) (s : State),
    Tab.find n.val s.dev.pulses = some p →
    exec (.pulseFire n) s = .next (s.withDev (
      (let d := (s.dev.put (Reg.PULSE_STATUS_fired n) (s.dev.get (Reg.PULSE_STATUS_fired n) + 1)).put (Reg.PULSE_STATUS_active n) 1;
      ((d.incU Cnt.PULSE_CNT_PULSE_FIRED).pin (.pulse n) p.level).setPulse n (if p.periodic then some { p with next := p.next + 1 } else none))))) ∧
  (∀ (n : Fin 8) (s : State),
    Tab.find n.val s.dev.pulses = none →
    exec (.pulseFire n) s = .next (s.withDev (s.dev))) ∧
  (∀ (n : Fin 8) (p : PulseSt) (s : State),
    s.dev.flag (Reg.PULSE_STATUS_active n) = true →
    Tab.find n.val s.dev.pulses = some p →
    exec (.pulseEnd n) s = .next (s.withDev ((s.dev.put (Reg.PULSE_STATUS_active n) 0).pin (.pulse n) (b2n p.pol)))) ∧
  (∀ (n : Fin 8) (s : State),
    s.dev.flag (Reg.PULSE_STATUS_active n) = true →
    Tab.find n.val s.dev.pulses = none →
    exec (.pulseEnd n) s = .next (s.withDev ((s.dev.put (Reg.PULSE_STATUS_active n) 0).pin (.pulse n) (b2n (s.dev.flag (Reg.PULSE_CFG_pol n)))))) ∧
  (∀ (c : Fin 2) (rising : Bool) (s : State),
    let x := s.dev.cap c
    let inst := s.dev.get (Reg.CAP_CFG_inst c)
    bitAt (if rising then 0 else 1) (s.dev.get (Reg.CAP_CFG_edge c)) = true →
    (∀ t, x.last = some t → t + 50 * 2 ^ 40 ≤ s.dev.time) →
    x.fifo.length < 16 →
    exec (.captureEdge c rising) s = .next (s.withDev (
      (({ s.dev with caps := Tab.set s.dev.caps c CapSt.reset (CapSt.mk (x.fifo ++ [CapEnt.mk rising s.dev.time (s.dev.tensePos inst / 256 * 256 + b2n (Tab.find inst s.dev.tense).isSome)])
        (some s.dev.time)) }).incU Cnt.PULSE_CNT_CAP_EDGES)))) ∧
  (∀ (c : Fin 2) (rising : Bool) (s : State),
    let x := s.dev.cap c
    bitAt (if rising then 0 else 1) (s.dev.get (Reg.CAP_CFG_edge c)) = true →
    ((∃ t, x.last = some t ∧ s.dev.time < t + 50 * 2 ^ 40) ∨ 16 ≤ x.fifo.length) →
    exec (.captureEdge c rising) s = .next (s.withDev (
      ((({ s.dev with caps := Tab.set s.dev.caps c CapSt.reset (CapSt.mk x.fifo (some s.dev.time)) }).incE Cnt.PULSE_CNT_CAP_DROP).raise Src.PULSE_capture_overflow)))) ∧
  (∀ (c : Fin 2) (s : State),
    let x := s.dev.cap c
    let e := x.fifo.headD ⟨false, 0, 0⟩
    exec (.captureRead c) s = .next (s.withDev (
      (let d := { s.dev with caps := Tab.set s.dev.caps c CapSt.reset { x with fifo := x.fifo.drop 1 } };
      let d := ((d.put (Reg.CAP_TS_S_count c) x.fifo.length).put (Reg.CAP_TS_S_rising c) (b2n e.rising)).put (Reg.CAP_TS_S_seconds c) (secOf e.time);
      let d := (d.put (Reg.CAP_TS_NS_ns c) (nsOf e.time)).put (Reg.CAP_TS_NS_frac c) (fracOf e.time);
      let d := ((d.put (Reg.CAP_POS_step c) (bits 24 40 e.pos)).put (Reg.CAP_POS_phase c) (bits 8 16 e.pos)).put (Reg.CAP_POS_valid c) (bits 0 1 e.pos);
      { d with rdata := pack [(56, 8, x.fifo.length), (48, 1, b2n e.rising), (0, 48, secOf e.time)] }))))

/-- The recorder serves the first waiting source that is not held, updates the record of its code, writes what its configuration asks and may
trigger a stop; an uncorrectable error clears the record first (R404 to R410). A bucket gains a token (R405). Hold, its end, clear,
EVR_CUR and the advance act as R408 says. A stop acts when armed by the register or, where trig_pin is set, the pin (R410), resume lets
every partition go on (R414). A chain is selected, with err for one that reads zero, and read 64 bits at a time (R413); the TAP's
instructions take the code, IDCODE shifts out 0x1D4019AB, BYPASS delays by a bit (R413, R461). What a chain or a ball holds is a free
value (log entries 1 and 22). -/
def Obligations.RecorderStopAndScan : Prop :=
  (∀ (p : EvPending) (s : State),
    let code := s.dev.codeOf p.src
    let e := s.dev.onEvr fun e => { e with pend := e.pend.filter fun q => q.src != p.src }
    (s.dev.evr.pend.find? fun p => !s.dev.heldCode (s.dev.codeOf p.src)) = some p →
    exec (.eventUpdate false) s = .next (s.withDev (
      (let e := e.setRecord code ((e.record code).update p (bits 57 5 (e.evrCfg code)));
      let e := e.traceUpdate code p;
      if e.flag Reg.DBG_STOP_CTRL_trig_code ∧ e.get Reg.DBG_STOP_CTRL_code = code then e.stopTrigger 4 else e)))) ∧
  (∀ (p : EvPending) (s : State),
    let code := s.dev.codeOf p.src
    let e := s.dev.onEvr fun e => { e with pend := e.pend.filter fun q => q.src != p.src }
    (s.dev.evr.pend.find? fun p => !s.dev.heldCode (s.dev.codeOf p.src)) = some p →
    exec (.eventUpdate true) s = .next (s.withDev (
      (let e := (e.setRecord code { EvRecord.empty with gen := ((e.record code).gen + 1) % 2 ^ 32 }).raise Src.EVR_evr_ecc;
      let e := e.setRecord code ((e.record code).update p (bits 57 5 (e.evrCfg code)));
      let e := e.traceUpdate code p;
      if e.flag Reg.DBG_STOP_CTRL_trig_code ∧ e.get Reg.DBG_STOP_CTRL_code = code then e.stopTrigger 4 else e)))) ∧
  (∀ (code : BitVec 12) (s : State),
    exec (.tokenAdd code) s = .next (s.withDev (
      (if burstOf (s.dev.evrCfg code.toNat) ≤ s.dev.tokensOf code.toNat + 1 then s.dev.onEvr fun e => { e with tokens := Tab.erase code.toNat e.tokens }
      else s.dev.onEvr fun e => { e with tokens := Tab.insert code.toNat (s.dev.tokensOf code.toNat + 1) (Tab.erase code.toNat e.tokens) })))) ∧
  (∀ (s : State),
    exec (.evrHold) s = .next (s.withDev ((s.dev.onEvr fun e => { e with held := some (s.dev.get Reg.EVR_CUR_code) }).put Reg.EVR_CTRL_hold 1))) ∧
  (∀ (s : State),
    exec (.evrHoldExpire) s = .next (s.withDev ((s.dev.onEvr fun e => { e with held := none }).put Reg.EVR_CTRL_hold 0))) ∧
  (∀ (s : State),
    exec (.evrClear) s = .next (s.withDev (s.dev.setRecord (s.dev.get Reg.EVR_CUR_code) { EvRecord.empty with gen := ((s.dev.record (s.dev.get Reg.EVR_CUR_code)).gen + 1) % 2 ^ 32 }))) ∧
  (∀ (code : BitVec 12) (s : State),
    exec (.evrCurWrite code) s = .next (s.withDev (((s.dev.onEvr fun e => { e with held := none }).put Reg.EVR_CTRL_hold 0).put Reg.EVR_CUR_code code.toNat))) ∧
  (∀ (s : State),
    exec (.evrAdvance) s = .next (s.withDev ({ (if s.dev.flag Reg.EVR_CTRL_auto then s.dev.put Reg.EVR_CUR_code (s.dev.get Reg.EVR_CUR_code + 2) else s.dev) with rdata := s.dev.evrWindow 0xF8 }))) ∧
  (∀ (s : State),
    exec (.globalStop) s = .next (s.withDev (s.dev.stopTrigger 1))) ∧
  (∀ (s : State),
    s.dev.flag Reg.DBG_STOP_CTRL_trig_pin = true →
    exec (.stopPin) s = .next (s.withDev (s.dev.stopTrigger 2))) ∧
  (∀ (s : State),
    s.dev.flag Reg.DBG_STOP_CTRL_trig_pin = false →
    exec (.stopPin) s = .next (s.withDev (s.dev))) ∧
  (∀ (s : State),
    let d := (s.dev.put Reg.DBG_STOP_STATUS_frozen 0).put Reg.DBG_STOP_STATUS_state (b2n (s.dev.flag Reg.DBG_STOP_CTRL_arm))
    2 ≤ s.dev.get Reg.DBG_STOP_STATUS_state →
    exec (.stopResume) s = .next (s.withDev (
      ((List.range 16).foldl (fun (d : Dev) p => if d.partState p = 0 then d.tableDue p else d) (s.dev.stop.deferred.eraseDups.foldl Dev.partSafe
        { d with stop := { s.dev.stop with deferred := [] } }))))) ∧
  (∀ (part : Fin 16) (chain : BitVec 10) (s : State),
    let n := s.dev.chainLen part chain.toNat
    exec (.scanSelect part chain) s = .next (s.withDev (
      (let d := (s.dev.put Reg.DBG_SCAN_SEL_part part).put Reg.DBG_SCAN_SEL_chain chain.toNat;
      let d := (d.put Reg.DBG_SCAN_LEN_bits n).put Reg.DBG_SCAN_LEN_err (b2n (n == 0));
      { d with stop := { d.stop with scanPos := 0 } })))) ∧
  (∀ (s : State),
    s.dev.frozen (s.dev.get Reg.DBG_SCAN_SEL_part) = false →
    exec (.scanRead) s = .next (s.withDev ({ s.dev.put Reg.DBG_SCAN_LEN_err 1 with rdata := 0, stop := { s.dev.stop with scanPos := 0 } }))) ∧
  (∀ (s : State),
    let len := chainBits (s.dev.get Reg.DBG_SCAN_SEL_chain)
    s.dev.frozen (s.dev.get Reg.DBG_SCAN_SEL_part) = true →
    exec (.scanRead) s = .next (s.withDev (
      (if len = 0 then { s.dev.put Reg.DBG_SCAN_LEN_err 1 with rdata := 0, stop := { s.dev.stop with scanPos := 0 } }
      else { s.dev.tick.addU Cnt.DBG_CNT_SCAN_BITS (Nat.min 64 (len - s.dev.stop.scanPos)) with
        rdata := s.dev.free % 2 ^ Nat.min 64 (len - s.dev.stop.scanPos)
        stop := { s.dev.stop with scanPos := if len ≤ s.dev.stop.scanPos + 64 then 0 else s.dev.stop.scanPos + 64 } })))) ∧
  (∀ (v : BitVec 16) (s : State),
    s.dev.flag Reg.DBG_CTRL_tap_en = true →
    exec (.kscanSel v) s = .next (s.withDev (
      (let d := { s.dev with stop := { s.dev.stop with tapIr := 0x20, tapSel := v.toNat, tapPos := 0 } };
      if bits 14 2 v.toNat ≠ 0 ∨ s.dev.chainLen (bits 10 4 v.toNat) (bits 0 10 v.toNat) = 0 then d.put Reg.DBG_SCAN_LEN_err 1 else d)))) ∧
  (∀ (v : BitVec 16) (s : State),
    s.dev.flag Reg.DBG_CTRL_tap_en = false →
    exec (.kscanSel v) s = .next (s.withDev ({ s.dev with stop := { s.dev.stop with tapIr := 0x20 } }))) ∧
  (∀ (n : Fin 65) (s : State),
    let v := s.dev.stop.tapSel
    let len := s.dev.chainLen (bits 10 4 v) (bits 0 10 v)
    let d : Dev := { s.dev with stop := { s.dev.stop with tapIr := 0x21 } }
    s.dev.flag Reg.DBG_CTRL_tap_en = true →
    exec (.kscanData n) s = .next (s.withDev (
      (if bits 14 2 v ≠ 0 ∨ len = 0 then (d.put Reg.DBG_SCAN_LEN_err 1).emit (.serial n 0)
      else (({ d.tick.addU Cnt.DBG_CNT_SCAN_BITS n with stop := { d.stop with tapPos := (d.stop.tapPos + n) % len } } : Dev)).emit
        (.serial n (s.dev.free % 2 ^ n.val)))))) ∧
  (∀ (n : Fin 65) (s : State),
    s.dev.flag Reg.DBG_CTRL_tap_en = false →
    exec (.kscanData n) s = .next (s.withDev ({ s.dev with stop := { s.dev.stop with tapIr := 0x21 } }))) ∧
  (∀ (v : Word) (s : State),
    exec (.extest v) s = .next (s.withDev ({ s.dev with stop := { s.dev.stop with tapIr := 0, boundary := v.toNat } }))) ∧
  (∀ (s : State),
    exec (.idcode) s = .next (s.withDev (({ s.dev with stop := { s.dev.stop with tapIr := 1 } } : Dev).emit (.serial 32 0x1D4019AB)))) ∧
  (∀ (v : Word) (s : State),
    exec (.samplePreload v) s = .next (s.withDev (({ s.dev.tick with stop := { s.dev.stop with tapIr := 2, boundary := v.toNat } } : Dev).emit (.serial 64 s.dev.free)))) ∧
  (∀ (code : Byte) (n : Fin 65) (v : Word) (s : State),
    exec (.bypass code n v) s = .next (s.withDev (({ s.dev with stop := { s.dev.stop with tapIr := code.toNat } } : Dev).emit (.serial n (v.toNat * 2 % 2 ^ n.val))))) ∧
  (∀ (s : State),
    exec (.tapReset) s = .next (s.withDev ({ s.dev with stop := { s.dev.stop with tapIr := 1, tapSel := 0, tapPos := 0 } })))

/-- A push of the staged pack goes to the controllers of its scope and is pushed until they have answered, or done at once when there are none
(R417); discard drops the pack (R416). In stage 0xA a chunk is kept, a whole pack is verified and answered; an answer of a controller is
counted once, and the last one ends the push; a chunk not answered is sent again (R417). A sample is kept, and during a plan the
inconsistent monitors are noted (R420). A plan starts in stage 0xA unless the partition is out of service or one runs, periodic ones only
with plan_en; one not over after 24 h ends with 0x02 and is raised, and the measurements of a complete one act as R423 to R425 say. -/
def Obligations.PacksAndPlans : Prop :=
  (∀ (info : ObjInfo) (s : State),
    let dsts := s.dev.packTargets (s.dev.get Reg.DBG_PACK_CTRL_scope)
    s.dev.boot.packA = some info →
    (s.dev.get Reg.DBG_PACK_CTRL_scope = 1 ∨ s.dev.get Reg.DBG_PACK_CTRL_scope = 2) →
    exec (.packPush) s = .next (s.withDev (
      ((((({ s.dev with packs := { s.dev.packs with acked := [] } } : Dev).put Reg.DBG_PACK_STATUS_acks 0).put Reg.DBG_PACK_STATUS_state
        (if dsts = [] then 1 else 2)).sendPack info dsts))))) ∧
  (∀ (s : State),
    s.dev.boot.packA = none →
    exec (.packPush) s = .next (s.withDev (s.dev))) ∧
  (∀ (s : State),
    exec (.packDiscard) s = .next (s.withDev (({ s.dev with boot := { s.dev.boot with packA := none }, packs := PackSt.reset } : Dev).put Reg.DBG_PACK_STATUS_state 0))) ∧
  (∀ (h : FabHdr) (chunk total : BitVec 32) (digest : Word) (data : List Byte) (s : State),
    let old : PackIn := (s.dev.packs.incoming.filter fun q => q.digest == digest.toNat).getD (PackIn.mk digest.toNat total.toNat h.src.toNat [])
    let q : PackIn := { old with chunks := Tab.insert chunk.toNat (data.map BitVec.toNat) (Tab.erase chunk.toNat old.chunks) }
    let d : Dev := { s.dev with packs := { s.dev.packs with incoming := some q } }
    s.dev.passes h = true →
    s.dev.stage = 0xA →
    exec (.pack h chunk total digest data) s = .next (s.withDev (
      (if (List.range q.total).all (fun i => (Tab.find i q.chunks).isSome) then
        d.packArrived q (((List.range q.total).flatMap fun i => Tab.getD q.chunks i []).map fun b => BitVec.ofNat 8 b)
      else d)))) ∧
  (∀ (h : FabHdr) (digest : Word) (result : Byte) (info : ObjInfo) (s : State),
    let d : Dev := { s.dev with packs := { s.dev.packs with acked := s.dev.packs.acked ++ [h.src.toNat] } }
    let e := if result.toNat = 0x00 ∨ result.toNat = 0x10 then d.put Reg.DBG_PACK_STATUS_acks (d.get Reg.DBG_PACK_STATUS_acks + 1) else d
    s.dev.passes h = true →
    s.dev.boot.packA = some info →
    info.digest % 2 ^ 64 = digest.toNat →
    s.dev.packs.acked.contains h.src.toNat = false →
    s.dev.get Reg.DBG_PACK_STATUS_state = 2 →
    exec (.packack h digest result) s = .next (s.withDev (
      (if (e.packTargets (e.get Reg.DBG_PACK_CTRL_scope)).all e.packs.acked.contains then e.put Reg.DBG_PACK_STATUS_state 1 else e)))) ∧
  (∀ (dst : BitVec 16) (chunk : BitVec 32) (info : ObjInfo) (s : State),
    s.dev.boot.packA = some info →
    s.dev.get Reg.DBG_PACK_STATUS_state = 2 →
    chunk.toNat < (packChunks info.bytes).length →
    s.dev.packs.acked.contains dst.toNat = false →
    exec (.packResend dst chunk) s = .next (s.withDev (s.dev.send dst.toNat 0x54 ([word2 chunk.toNat (packChunks info.bytes).length, info.digest % 2 ^ 64] ++ wordsOf ((packChunks info.bytes).getD chunk.toNat []))))) ∧
  (∀ (p : Fin 16) (slacks : List (BitVec 8)) (edges : List (BitVec 32)) (s : State),
    let d := s.dev.setMon p { s.dev.mon p with slacks := (slacks.take 32).map BitVec.toInt, edges := (edges.take 8).map BitVec.toNat }
    (d.mon p).started = none →
    exec (.monitorSample p slacks edges) s = .next (s.withDev (d))) ∧
  (∀ (p : Fin 16) (slacks : List (BitVec 8)) (edges : List (BitVec 32)) (t : Nat) (s : State),
    let d := s.dev.setMon p { s.dev.mon p with slacks := (slacks.take 32).map BitVec.toInt, edges := (edges.take 8).map BitVec.toNat }
    let odd := oddMonitors ((slacks.take 32).map BitVec.toInt)
    (d.mon p).started = some t →
    exec (.monitorSample p slacks edges) s = .next (s.withDev (
      (odd.foldl (fun (d : Dev) i => if 2 ≤ Tab.getD (d.mon p).odd i 0 then d.exclude p i else d)
        (d.setMon p { d.mon p with oddNow := ((d.mon p).oddNow ++ odd).eraseDups }))))) ∧
  (∀ (p : Fin 16) (s : State) (c : Instr),
    ((c = .planStart p ∧ s.dev.flag (Reg.MON_CTRL_plan_en p) = true) ∨ c = .planNow p) →
    s.dev.stage = 0xA →
    s.dev.partState p ≠ 4 →
    (s.dev.mon p).started = none →
    exec c s = .next (s.withDev ((s.dev.setMon p { s.dev.mon p with started := some (secOf s.dev.time), oddNow := [], cap := 10 }).put (Reg.MON_STATUS_state p) 1))) ∧
  (∀ (p : Fin 16) (s : State),
    s.dev.flag (Reg.MON_CTRL_plan_en p) = false →
    exec (.planStart p) s = .next (s.withDev s.dev)) ∧
  (∀ (p : Fin 16) (t : Nat) (s : State),
    (s.dev.mon p).started = some t →
    exec (.planLate p) s = .next (s.withDev (((s.dev.planOver p).put (Reg.MON_STATUS_result p) 0x02).raise (Src.MON_plan_late p)))) ∧
  (∀ (p : Fin 16) (r : PlanResult) (t : Nat) (s : State),
    let guard := s.dev.get (Reg.MON_CTRL_guard_ps p)
    let odd := ((s.dev.mon p).oddNow ++ oddMonitors r.reference).eraseDups
    let counts := (List.range 32).foldl (fun t i => Tab.set t i 0 (if odd.contains i then Tab.getD (s.dev.mon p).odd i 0 + 1 else 0)) []
    let d := odd.foldl (fun (d : Dev) i => if 3 ≤ Tab.getD counts i 0 then d.exclude p i else d) (s.dev.setMon p { s.dev.mon p with odd := counts, lastPlan := some (secOf s.dev.time) })
    let ex := (d.mon p).excluded
    let table := (List.range 11).map fun i => vfEntry ex guard (r.sweep.getD i [])
    let target := (d.get (Reg.MON_CTRL_target_mhz p) - 1200) / 100
    let cores := r.cores.zipIdx.map fun (e : Option Nat × Nat) => (e.2, e.1)
    let half := fun (h : Nat) => (cores.filter fun (e : Nat × Option Nat) => e.1 / 17 == h).map fun (e : Nat × Option Nat) => (e.1 % 17, e.2)
    let x0 := d.planCores p (2 * p) ((bestPoint table target).getD 0) (half 0)
    let x1 := x0.1.planCores p (2 * p + 1) ((bestPoint table target).getD 0) (half 1)
    let e := (List.range r.spared).foldl (fun (d : Dev) _ => d.raise (Src.SRM_sram_spare p)) (x1.1.addU (Cnt.MON_CNT_SPARE_IN p) (x0.2.1 + x1.2.1 + r.spared))
    let final := bestPoint table (Nat.min target (e.mon p).cap)
    (s.dev.mon p).started = some t →
    s.dev.partState p ≠ 4 →
    e.partState p ≠ 4 →
    (bestPoint table target = none ∨ final = none ∨ x0.2.2 = true ∨ x1.2.2 = true) →
    exec (.planComplete p r) s = .next (s.withDev ((((e.planOver p).put (Reg.MON_STATUS_result p) 0x03).partOut p 6)))) ∧
  (∀ (p : Fin 16) (r : PlanResult) (t q f : Nat) (s : State),
    let guard := s.dev.get (Reg.MON_CTRL_guard_ps p)
    let odd := ((s.dev.mon p).oddNow ++ oddMonitors r.reference).eraseDups
    let counts := (List.range 32).foldl (fun t i => Tab.set t i 0 (if odd.contains i then Tab.getD (s.dev.mon p).odd i 0 + 1 else 0)) []
    let d := odd.foldl (fun (d : Dev) i => if 3 ≤ Tab.getD counts i 0 then d.exclude p i else d) (s.dev.setMon p { s.dev.mon p with odd := counts, lastPlan := some (secOf s.dev.time) })
    let ex := (d.mon p).excluded
    let table := (List.range 11).map fun i => vfEntry ex guard (r.sweep.getD i [])
    let target := (d.get (Reg.MON_CTRL_target_mhz p) - 1200) / 100
    let cores := r.cores.zipIdx.map fun (e : Option Nat × Nat) => (e.2, e.1)
    let half := fun (h : Nat) => (cores.filter fun (e : Nat × Option Nat) => e.1 / 17 == h).map fun (e : Nat × Option Nat) => (e.1 % 17, e.2)
    let x0 := d.planCores p (2 * p) ((bestPoint table target).getD 0) (half 0)
    let x1 := x0.1.planCores p (2 * p + 1) ((bestPoint table target).getD 0) (half 1)
    let e := (List.range r.spared).foldl (fun (d : Dev) _ => d.raise (Src.SRM_sram_spare p)) (x1.1.addU (Cnt.MON_CNT_SPARE_IN p) (x0.2.1 + x1.2.1 + r.spared))
    let final := bestPoint table (Nat.min target (e.mon p).cap)
    let f1 := if f < q then (e.incE (Cnt.MON_CNT_POINT_DROP p)).raise (Src.MON_point_lowered p) else e
    let table1 := if (f1.mon p).cap < 10 then table.zipIdx.map fun (x : VfPoint × Nat) => if (f1.mon p).cap < x.2 then { x.1 with usable := false } else x.1 else table
    let mv := Nat.max (r.rowMv.getD 0) ((table1[f]?.map VfPoint.mv).getD 0)
    let slack := (((r.sweep.getD f [])[(mv - 600) / 5]?).bind (leastSlack ex)).getD 0
    let now : Int := secOf f1.time
    let readings := ((f1.mon p).readings ++ [(now, (leastSlack ex r.reference).getD 0)]).drop ((f1.mon p).readings.length - 7)
    let g := f1.setMon p { f1.mon p with next := some (table1.zipIdx.map fun (x : VfPoint × Nat) => if x.2 = f then VfPoint.mk mv slack true else x.1), due := false, readings := readings }
    let days := daysLeft (g.mon p).readings guard now
    let k := (g.put (Reg.MON_STATUS_days_left p) days).put (Reg.MON_STATUS_margin_ps p) (byteOfInt (clampInt (-128) 127 (slack - guard)))
    (s.dev.mon p).started = some t →
    s.dev.partState p ≠ 4 →
    e.partState p ≠ 4 →
    bestPoint table target = some q →
    final = some f →
    x0.2.2 = false →
    x1.2.2 = false →
    mv ≤ 850 →
    exec (.planComplete p r) s = .next (s.withDev (
      (let k := (k.planOver p).incU (Cnt.MON_CNT_PLANS p); if days < 180 then k.raise (Src.MON_margin_low p) else k))))

/-- A private read of an index leaves the value R463 lists for it, zeros for another index and for one whose domain is off; ENTDAA and SETDASA
to 0x4C give a target that has no dynamic address one, RSTDAA takes it back (R463). GETPID, GETBCR and GETDCR leave constants that the
spec does not state, GETSTATUS a free value (log entries 1 and 36), which the statement leaves as they are. -/
def Obligations.BusTarget : Prop :=
  (∀ (s : State),
    exec (.i3cRead 0) s = .next (s.withDev (s.dev.emit (.serial 64 (s.dev.pwr.junction % 2 ^ 64).toNat)))) ∧
  (∀ (index : Byte) (s : State),
    (index = 1 ∨ index = 2 ∨ index = 4 ∨ index = 5) →
    s.dev.pwr.powered.contains .hub = true →
    exec (.i3cRead index) s = .next (s.withDev (s.dev.emit (.serial 64 (s.dev.readWord (if index = 1 then 0x010120 else if index = 2 then 0x010100 else if index = 4 then 0x001100 else 0x040100)))))) ∧
  (∀ (index : Byte) (s : State),
    ((index = 1 ∨ index = 2 ∨ index = 4 ∨ index = 5) ∧ s.dev.pwr.powered.contains .hub = false ∨ 5 < index.toNat) →
    exec (.i3cRead index) s = .next (s.withDev (s.dev.emit (.serial 64 0)))) ∧
  (∀ (s : State),
    exec (.i3cRead 3) s = .next (s.withDev (s.dev.emit (.serial 64 (s.dev.fieldsWord 0x011108 0x108 rowsAON))))) ∧
  (∀ (addr : BitVec 7) (s : State),
    s.dev.i3c = none →
    exec (.entdaa addr) s = .next (s.withDev ({ s.dev with i3c := some addr.toNat }))) ∧
  (∀ (addr : BitVec 7) (x : Nat) (s : State),
    s.dev.i3c = some x →
    exec (.entdaa addr) s = .next (s.withDev (s.dev))) ∧
  (∀ (dynamic : BitVec 7) (s : State),
    s.dev.i3c = none →
    exec (.setdasa 0x4C dynamic) s = .next (s.withDev ({ s.dev with i3c := some dynamic.toNat }))) ∧
  (∀ (static_ dynamic : BitVec 7) (s : State),
    (static_ ≠ 0x4C ∨ s.dev.i3c.isSome = true) →
    exec (.setdasa static_ dynamic) s = .next (s.withDev (s.dev))) ∧
  (∀ (s : State),
    exec (.rstdaa) s = .next (s.withDev ({ s.dev with i3c := none }))) ∧
  (∀ (s : State),
    exec (.getpid) s = .next (s.withDev (s.dev.emit (.serial 48 Config.i3cPid.toNat)))) ∧
  (∀ (s : State),
    exec (.getbcr) s = .next (s.withDev (s.dev.emit (.serial 8 Config.i3cBcr.toNat)))) ∧
  (∀ (s : State),
    exec (.getdcr) s = .next (s.withDev (s.dev.emit (.serial 8 Config.i3cDcr.toNat)))) ∧
  (∀ (s : State),
    exec (.getstatus) s = .next (s.withDev ((s.dev.emit (.serial 16 (s.dev.free % 2 ^ 16))).tick)))

/-- Every message between controllers that R302 does not exempt (checkedHeader: JOINREQ, the founding messages, DECIDE and VIEW at a
controller that is no member, and a message on its way through are exempt) and that does not pass the two checks has no effect of its own:
the drop is counted, and FENCED goes to the source at most once a millisecond; RA_REQ is answered with code 0x03 as well (R46). -/
def Obligations.MessagesFromOutsideAreDropped : Prop :=
  (∀ (c : Instr) (h : FabHdr) (s : State),
    checkedHeader s.dev.isMember ((s.dev.mbr.prop.map Proposal.founding).getD false) c = some h →
    s.dev.passes h = false →
    exec c s = .next (s.withDev (s.dev.fenceDrop h.src.toNat).settle) ∨ exec c s = .next (s.withDev (s.dev.fenceDrop h.src.toNat))) ∧
  (∀ (d : Dev) (c : Nat),
    let e := d.incE Cnt.MBR_CNT_FENCE_DROP
    (∀ t, Tab.find c e.mbr.fencedAt = some t → t + 1000 ≤ e.nowUs) →
    d.fenceDrop c = { (e.send c 0x17 []) with mbr := { e.mbr with fencedAt := Tab.insert c e.nowUs (Tab.erase c e.mbr.fencedAt) } }) ∧
  (∀ (d : Dev) (c t : Nat),
    let e := d.incE Cnt.MBR_CNT_FENCE_DROP
    Tab.find c e.mbr.fencedAt = some t →
    e.nowUs < t + 1000 →
    d.fenceDrop c = e) ∧
  (∀ (h : FabHdr) (seq : BitVec 32) (op : Bool) (addr data : Word) (s : State),
    s.dev.passes h = false →
    exec (.raReq h seq op addr data) s = .next (s.withDev ((s.dev.fenceDrop h.src.toNat).raAnswer h.src.toNat seq.toNat 0x03 0)))
end

