-- ==== Sys2Proof/Laws/Keeps.lean ====
section
/-! SUPPORT. What every operation of the block keeps, said once: memories and the register table stay in canonical form, what has
left the block stays sent, and a free value is never taken twice. The operations of Ops keep it. -/

namespace Sys2Proof.Machine

/-- Addresses rise strictly from a bound on, and no byte is the blank one. -/
def Memory.above (lo : Nat) : List Host.Cell → Bool
  | [] => true
  | (a, b) :: t => decide (lo ≤ a) && b != 0 && Memory.above (a + 1) t

theorem Memory.wf_eq_above (m : List Host.Cell) : Memory.wf m = Memory.above 0 m := by
  suffices h : ∀ (t : List Host.Cell) (a : Nat) (b : Byte) (lo : Nat), lo ≤ a →
      Memory.wf ((a, b) :: t) = Memory.above lo ((a, b) :: t) by
    cases m with
    | nil => rfl
    | cons c t => exact h t c.1 c.2 0 (Nat.zero_le _)
  intro t
  induction t with
  | nil => intro a b lo h; simp [Memory.wf, Memory.above, h]
  | cons c t ih =>
    intro a b lo h
    obtain ⟨a', b'⟩ := c
    simp only [Memory.wf]
    by_cases hl : a < a'
    · rw [ih a' b' (a + 1) hl]
      simp [Memory.above, h, hl]
    · simp [Memory.above, h, hl, Nat.not_le.mpr (Nat.lt_succ_of_le (Nat.not_lt.mp hl))]

theorem Memory.above_mono {lo lo' : Nat} (h : lo' ≤ lo) {m : List Host.Cell} (hm : Memory.above lo m = true) :
    Memory.above lo' m = true := by
  cases m with
  | nil => rfl
  | cons c t =>
    simp only [Memory.above, Bool.and_eq_true, decide_eq_true_eq] at hm ⊢
    exact ⟨⟨Nat.le_trans h hm.1.1, hm.1.2⟩, hm.2⟩

theorem Memory.above_write {lo a : Nat} (h : lo ≤ a) (v : Byte) {m : List Host.Cell} (hm : Memory.above lo m = true) :
    Memory.above lo (Memory.write a v m) = true := by
  induction m generalizing lo with
  | nil =>
    simp only [Memory.write]
    split
    · rfl
    · simp only [Memory.above, Bool.and_eq_true, decide_eq_true_eq]
      exact ⟨⟨h, by simpa using ‹¬v = 0›⟩, trivial⟩
  | cons c t ih =>
    obtain ⟨a', b⟩ := c
    simp only [Memory.above, Bool.and_eq_true, decide_eq_true_eq] at hm
    obtain ⟨⟨h1, h2⟩, h3⟩ := hm
    simp only [Memory.write]
    split
    · rename_i hl
      split
      · simp only [Memory.above, Bool.and_eq_true, decide_eq_true_eq]
        exact ⟨⟨h1, h2⟩, h3⟩
      · simp only [Memory.above, Bool.and_eq_true, decide_eq_true_eq]
        refine ⟨⟨h, by simpa using ‹¬v = 0›⟩, ⟨Nat.succ_le_of_lt hl, h2⟩, h3⟩
    · split
      · split
        · exact Memory.above_mono (by omega) h3
        · subst a'
          simp only [Memory.above, Bool.and_eq_true, decide_eq_true_eq]
          exact ⟨⟨h, by simpa using ‹¬v = 0›⟩, h3⟩
      · simp only [Memory.above, Bool.and_eq_true, decide_eq_true_eq]
        exact ⟨⟨h1, h2⟩, ih (by omega) h3⟩

/-- A write keeps the canonical form. -/
theorem Memory.wf_write (a : Nat) (v : Byte) {m : List Host.Cell} (h : Memory.wf m = true) :
    Memory.wf (Memory.write a v m) = true := by
  rw [Memory.wf_eq_above] at h ⊢
  exact Memory.above_write (Nat.zero_le _) v h

theorem Memory.wf_writes (ws : Writes) {m : List Host.Cell} (h : Memory.wf m = true) : Memory.wf (Memory.writes ws m) = true := by
  induction ws generalizing m with
  | nil => exact h
  | cons w t ih => exact ih (Memory.wf_write _ _ h)

theorem Memory.wf_writeBytes (a : Nat) (bs : List Byte) {m : List Host.Cell} (h : Memory.wf m = true) :
    Memory.wf (Memory.writeBytes a bs m) = true := by
  unfold Memory.writeBytes
  generalize bs.mapIdx _ = ws
  induction ws generalizing m with
  | nil => exact h
  | cons w t ih => exact ih (Memory.wf_write _ _ h)

theorem Memory.above_filter (p : Host.Cell → Bool) {lo : Nat} {m : List Host.Cell} (h : Memory.above lo m = true) :
    Memory.above lo (m.filter p) = true := by
  induction m generalizing lo with
  | nil => rfl
  | cons c t ih =>
    obtain ⟨a, b⟩ := c
    simp only [Memory.above, Bool.and_eq_true, decide_eq_true_eq] at h
    simp only [List.filter_cons]
    split
    · simp only [Memory.above, Bool.and_eq_true, decide_eq_true_eq]
      exact ⟨h.1, ih h.2⟩
    · exact Memory.above_mono (by omega) (ih h.2)

theorem Memory.wf_clear (lo n : Nat) {m : List Host.Cell} (h : Memory.wf m = true) : Memory.wf (Memory.clear lo n m) = true := by
  rw [Memory.wf_eq_above] at h ⊢
  exact Memory.above_filter _ h

/-! ### Read after write -/

theorem Memory.read_above {lo a : Nat} {m : List Host.Cell} (h : Memory.above lo m = true) (ha : a < lo) :
    Memory.read a m = Memory.blank := by
  induction m generalizing lo with
  | nil => rfl
  | cons c t ih =>
    obtain ⟨a', b⟩ := c
    simp only [Memory.above, Bool.and_eq_true, decide_eq_true_eq] at h
    simp only [Memory.read]
    split
    · omega
    · exact ih h.2 (by omega)

/-- A byte written is read back, and every other byte reads as before. -/
theorem Memory.read_write (a a' : Nat) (v : Byte) {m : List Host.Cell} (h : Memory.wf m = true) :
    Memory.read a' (Memory.write a v m) = if a' = a then v else Memory.read a' m := by
  rw [Memory.wf_eq_above] at h
  generalize 0 = lo at h
  induction m generalizing lo with
  | nil =>
    simp only [Memory.write]
    split
    · subst v; simp [Memory.read, Memory.blank]
    · simp [Memory.read, eq_comm]
  | cons c t ih =>
    obtain ⟨x, b⟩ := c
    simp only [Memory.above, Bool.and_eq_true, decide_eq_true_eq] at h
    simp only [Memory.write]
    split
    · rename_i hl
      split
      · subst v
        split
        · subst a'
          have := Memory.read_above (a := a) h.2 (by omega)
          simp [Memory.read, this, Memory.blank, Nat.ne_of_gt hl]
        · rfl
      · simp only [Memory.read, eq_comm]
    · split
      · subst x
        split
        · subst v
          split
          · subst a'
            rw [Memory.read_above h.2 (by omega)]; rfl
          · simp only [Memory.read]
            rw [if_neg (by omega)]
        · simp only [Memory.read]
          split
          · simp [*]
          · rw [if_neg (by omega)]
      · simp only [Memory.read]
        split
        · rw [if_neg (by omega)]
        · exact ih _ h.2

/-! ### Register tables -/

/-- Keys rise strictly from a bound on. -/
def Tab.above {α : Type} (lo : Nat) : Tab α → Bool
  | [] => true
  | (k, _) :: t => Nat.ble lo k && Tab.above (k + 1) t

theorem Tab.above_mono {α : Type} {lo lo' : Nat} (h : lo' ≤ lo) {t : Tab α} (ht : Tab.above lo t = true) :
    Tab.above lo' t = true := by
  cases t with
  | nil => rfl
  | cons c t =>
    simp only [Tab.above, Bool.and_eq_true, Nat.ble_eq] at ht ⊢
    exact ⟨Nat.le_trans h ht.1, ht.2⟩

theorem Tab.above_filter {α : Type} (p : Nat × α → Bool) {lo : Nat} {t : Tab α} (h : Tab.above lo t = true) :
    Tab.above lo (t.filter p) = true := by
  induction t generalizing lo with
  | nil => rfl
  | cons c t ih =>
    obtain ⟨k, b⟩ := c
    simp only [Tab.above, Bool.and_eq_true, Nat.ble_eq] at h
    simp only [List.filter_cons]
    split
    · simp only [Tab.above, Bool.and_eq_true, Nat.ble_eq]
      exact ⟨h.1, ih h.2⟩
    · exact Tab.above_mono (by omega) (ih h.2)

theorem Tab.above_insert {α : Type} {lo k : Nat} (hk : lo ≤ k) (v : α) {t : Tab α} (h : Tab.above lo t = true) :
    Tab.above lo (Tab.insert k v t) = true := by
  induction t generalizing lo with
  | nil => simp [Tab.insert, Tab.above, hk]
  | cons c t ih =>
    obtain ⟨k', b⟩ := c
    simp only [Tab.above, Bool.and_eq_true, Nat.ble_eq] at h
    simp only [Tab.insert]
    split
    · simp only [Tab.above, Bool.and_eq_true, Nat.ble_eq]
      exact ⟨hk, by omega, h.2⟩
    · split
      · subst k'; simp only [Tab.above, Bool.and_eq_true, Nat.ble_eq]; exact h
      · simp only [Tab.above, Bool.and_eq_true, Nat.ble_eq]
        exact ⟨h.1, ih (by omega) h.2⟩

theorem Tab.above_set {α : Type} [DecidableEq α] (k : Nat) (d v : α) {t : Tab α} (h : Tab.above 0 t = true) :
    Tab.above 0 (Tab.set t k d v) = true := by
  unfold Tab.set Tab.erase
  split
  · exact Tab.above_filter _ h
  · exact Tab.above_insert (Nat.zero_le _) v (Tab.above_filter _ h)

/-! ### The relation -/

/-- What one operation keeps of a device. -/
structure Keeps (d d' : Dev) : Prop where
  sram : Memory.wf d.sram = true → Memory.wf d'.sram = true
  lpd : Memory.wf d.lpd = true → Memory.wf d'.lpd = true
  ctxMem : Memory.wf d.ctxMem = true → Memory.wf d'.ctxMem = true
  regs : Tab.above 0 d.regs = true → Tab.above 0 d'.regs = true
  out : d.out <+: d'.out
  fresh : d.fresh ≤ d'.fresh

theorem Keeps.refl (d : Dev) : Keeps d d := ⟨id, id, id, id, List.prefix_refl _, Nat.le_refl _⟩

theorem Keeps.trans {a b c : Dev} (h : Keeps a b) (g : Keeps b c) : Keeps a c :=
  ⟨g.sram ∘ h.sram, g.lpd ∘ h.lpd, g.ctxMem ∘ h.ctxMem, g.regs ∘ h.regs, h.out.trans g.out, Nat.le_trans h.fresh g.fresh⟩

/-- An update of other fields. -/
theorem Keeps.upd {d0 d : Dev}
    {regs rdata rdHold wrHold latched snaps fresh out time aon sram lpd ctxMem evr pwr boot comp stop unreset clearing
     drains drainLog parts health agr twoOut ports loads indirect pair agents aports mons packs clock tense pulses
     caps mbr jobs flow vlog mir stand drill adoptReqs selfAcks cache residGen coreHits progs nrg chkRest ra i3c}
    (e1 : sram = d.sram) (e2 : lpd = d.lpd) (e3 : ctxMem = d.ctxMem) (e4 : regs = d.regs) (e5 : out = d.out)
    (e6 : fresh = d.fresh) (h : Keeps d0 d) : Keeps d0
      ⟨regs, rdata, rdHold, wrHold, latched, snaps, fresh, out, time, aon, sram, lpd, ctxMem, evr, pwr, boot, comp,
       stop, unreset, clearing, drains, drainLog, parts, health, agr, twoOut, ports, loads, indirect, pair, agents,
       aports, mons, packs, clock, tense, pulses, caps, mbr, jobs, flow, vlog, mir, stand, drill, adoptReqs, selfAcks,
       cache, residGen, coreHits, progs, nrg, chkRest, ra, i3c⟩ :=
  h.trans ⟨e1 ▸ id, e2 ▸ id, e3 ▸ id, e4 ▸ id, e5 ▸ List.prefix_refl _, Nat.le_of_eq e6.symm⟩

theorem Keeps.ite {d0 a b : Dev} {c : Prop} [Decidable c] (h : Keeps d0 a) (g : Keeps d0 b) : Keeps d0 (if c then a else b) := by
  split <;> assumption

theorem Keeps.iteFst {α : Type} {d0 : Dev} {a b : Dev × α} {c : Prop} [Decidable c] (h : Keeps d0 a.1) (g : Keeps d0 b.1) :
    Keeps d0 (if c then a else b).1 := by
  split <;> assumption

theorem Keeps.fstMk {α : Type} {d0 d : Dev} {x : α} (h : Keeps d0 d) : Keeps d0 (d, x).1 := h

theorem Keeps.ofPair {α : Type} {d0 d : Dev} {x : α} {p : Dev × α} (e : p = (d, x)) (h : Keeps d0 p.1) : Keeps d0 d := by
  subst e; exact h

theorem Keeps.foldl {α : Type} {d0 d : Dev} {f : Dev → α → Dev} {l : List α} (hf : ∀ d x, Keeps d0 d → Keeps d0 (f d x))
    (h : Keeps d0 d) : Keeps d0 (l.foldl f d) := by
  induction l generalizing d with
  | nil => exact h
  | cons x t ih => exact ih (hf d x h)

theorem Keeps.foldlFst {α β : Type} {d0 : Dev} {p : Dev × β} {f : Dev × β → α → Dev × β} {l : List α}
    (hf : ∀ p x, Keeps d0 p.1 → Keeps d0 (f p x).1) (h : Keeps d0 p.1) : Keeps d0 (l.foldl f p).1 := by
  induction l generalizing p with
  | nil => exact h
  | cons x t ih => exact ih (hf p x h)

theorem Dev.put_keeps {d0 d : Dev} {f : Fld} {v : Nat} (h : Keeps d0 d) : Keeps d0 (d.put f v) :=
  h.trans ⟨id, id, id, Tab.above_set _ _ _, List.prefix_refl _, Nat.le_refl _⟩

theorem Dev.emit_keeps {d0 d : Dev} {o : Out} (h : Keeps d0 d) : Keeps d0 (d.emit o) :=
  h.trans ⟨id, id, id, id, List.prefix_append _ _, Nat.le_refl _⟩

theorem Dev.emits_keeps {d0 d : Dev} {os : List Out} (h : Keeps d0 d) : Keeps d0 (d.emits os) :=
  h.trans ⟨id, id, id, id, List.prefix_append _ _, Nat.le_refl _⟩

theorem Dev.tick_keeps {d0 d : Dev} (h : Keeps d0 d) : Keeps d0 d.tick :=
  h.trans ⟨id, id, id, id, List.prefix_refl _, Nat.le_succ _⟩

/-- An update that takes free values besides other fields. -/
theorem Keeps.updFresh {d0 d : Dev}
    {regs rdata rdHold wrHold latched snaps fresh out time aon sram lpd ctxMem evr pwr boot comp stop unreset clearing
     drains drainLog parts health agr twoOut ports loads indirect pair agents aports mons packs clock tense pulses
     caps mbr jobs flow vlog mir stand drill adoptReqs selfAcks cache residGen coreHits progs nrg chkRest ra i3c}
    (e1 : sram = d.sram) (e2 : lpd = d.lpd) (e3 : ctxMem = d.ctxMem) (e4 : regs = d.regs) (e5 : out = d.out)
    (e6 : d.fresh ≤ fresh) (h : Keeps d0 d) : Keeps d0
      ⟨regs, rdata, rdHold, wrHold, latched, snaps, fresh, out, time, aon, sram, lpd, ctxMem, evr, pwr, boot, comp,
       stop, unreset, clearing, drains, drainLog, parts, health, agr, twoOut, ports, loads, indirect, pair, agents,
       aports, mons, packs, clock, tense, pulses, caps, mbr, jobs, flow, vlog, mir, stand, drill, adoptReqs, selfAcks,
       cache, residGen, coreHits, progs, nrg, chkRest, ra, i3c⟩ :=
  h.trans ⟨e1 ▸ id, e2 ▸ id, e3 ▸ id, e4 ▸ id, e5 ▸ List.prefix_refl _, e6⟩

end Sys2Proof.Machine
end

