-- ==== Sys2Proof/Laws/State.lean ====
section
/-! SUPPORT. What the updates of State and the operations of Ops leave in each field: true by rfl, but for reading a register
back. -/

namespace Sys2Proof.Machine

/-! ### The state and its device -/

@[simp] theorem State.push_dev (s : State) (c : Instr) : (s.push c).dev = s.dev := rfl

@[simp] theorem State.push_pending (s : State) (c : Instr) : (s.push c).pending = c :: s.pending := rfl

@[simp] theorem State.reset_dev : State.reset.dev = Dev.reset := rfl

@[simp] theorem State.reset_pending : State.reset.pending = [] := rfl

/-! ### A register written: every other field -/

@[simp] theorem Dev.put_rdata (d : Dev) (f : Fld) (v : Nat) : (d.put f v).rdata = d.rdata := rfl

@[simp] theorem Dev.put_rdHold (d : Dev) (f : Fld) (v : Nat) : (d.put f v).rdHold = d.rdHold := rfl

@[simp] theorem Dev.put_wrHold (d : Dev) (f : Fld) (v : Nat) : (d.put f v).wrHold = d.wrHold := rfl

@[simp] theorem Dev.put_latched (d : Dev) (f : Fld) (v : Nat) : (d.put f v).latched = d.latched := rfl

@[simp] theorem Dev.put_snaps (d : Dev) (f : Fld) (v : Nat) : (d.put f v).snaps = d.snaps := rfl

@[simp] theorem Dev.put_fresh (d : Dev) (f : Fld) (v : Nat) : (d.put f v).fresh = d.fresh := rfl

@[simp] theorem Dev.put_out (d : Dev) (f : Fld) (v : Nat) : (d.put f v).out = d.out := rfl

@[simp] theorem Dev.put_time (d : Dev) (f : Fld) (v : Nat) : (d.put f v).time = d.time := rfl

@[simp] theorem Dev.put_aon (d : Dev) (f : Fld) (v : Nat) : (d.put f v).aon = d.aon := rfl

@[simp] theorem Dev.put_sram (d : Dev) (f : Fld) (v : Nat) : (d.put f v).sram = d.sram := rfl

@[simp] theorem Dev.put_lpd (d : Dev) (f : Fld) (v : Nat) : (d.put f v).lpd = d.lpd := rfl

@[simp] theorem Dev.put_ctxMem (d : Dev) (f : Fld) (v : Nat) : (d.put f v).ctxMem = d.ctxMem := rfl

@[simp] theorem Dev.put_evr (d : Dev) (f : Fld) (v : Nat) : (d.put f v).evr = d.evr := rfl

@[simp] theorem Dev.put_pwr (d : Dev) (f : Fld) (v : Nat) : (d.put f v).pwr = d.pwr := rfl

@[simp] theorem Dev.put_boot (d : Dev) (f : Fld) (v : Nat) : (d.put f v).boot = d.boot := rfl

@[simp] theorem Dev.put_comp (d : Dev) (f : Fld) (v : Nat) : (d.put f v).comp = d.comp := rfl

@[simp] theorem Dev.put_stop (d : Dev) (f : Fld) (v : Nat) : (d.put f v).stop = d.stop := rfl

@[simp] theorem Dev.put_unreset (d : Dev) (f : Fld) (v : Nat) : (d.put f v).unreset = d.unreset := rfl

@[simp] theorem Dev.put_clearing (d : Dev) (f : Fld) (v : Nat) : (d.put f v).clearing = d.clearing := rfl

@[simp] theorem Dev.put_drains (d : Dev) (f : Fld) (v : Nat) : (d.put f v).drains = d.drains := rfl

@[simp] theorem Dev.put_drainLog (d : Dev) (f : Fld) (v : Nat) : (d.put f v).drainLog = d.drainLog := rfl

@[simp] theorem Dev.put_parts (d : Dev) (f : Fld) (v : Nat) : (d.put f v).parts = d.parts := rfl

@[simp] theorem Dev.put_health (d : Dev) (f : Fld) (v : Nat) : (d.put f v).health = d.health := rfl

@[simp] theorem Dev.put_agr (d : Dev) (f : Fld) (v : Nat) : (d.put f v).agr = d.agr := rfl

@[simp] theorem Dev.put_twoOut (d : Dev) (f : Fld) (v : Nat) : (d.put f v).twoOut = d.twoOut := rfl

@[simp] theorem Dev.put_ports (d : Dev) (f : Fld) (v : Nat) : (d.put f v).ports = d.ports := rfl

@[simp] theorem Dev.put_loads (d : Dev) (f : Fld) (v : Nat) : (d.put f v).loads = d.loads := rfl

@[simp] theorem Dev.put_indirect (d : Dev) (f : Fld) (v : Nat) : (d.put f v).indirect = d.indirect := rfl

@[simp] theorem Dev.put_pair (d : Dev) (f : Fld) (v : Nat) : (d.put f v).pair = d.pair := rfl

@[simp] theorem Dev.put_agents (d : Dev) (f : Fld) (v : Nat) : (d.put f v).agents = d.agents := rfl

@[simp] theorem Dev.put_aports (d : Dev) (f : Fld) (v : Nat) : (d.put f v).aports = d.aports := rfl

@[simp] theorem Dev.put_mons (d : Dev) (f : Fld) (v : Nat) : (d.put f v).mons = d.mons := rfl

@[simp] theorem Dev.put_packs (d : Dev) (f : Fld) (v : Nat) : (d.put f v).packs = d.packs := rfl

@[simp] theorem Dev.put_clock (d : Dev) (f : Fld) (v : Nat) : (d.put f v).clock = d.clock := rfl

@[simp] theorem Dev.put_tense (d : Dev) (f : Fld) (v : Nat) : (d.put f v).tense = d.tense := rfl

@[simp] theorem Dev.put_pulses (d : Dev) (f : Fld) (v : Nat) : (d.put f v).pulses = d.pulses := rfl

@[simp] theorem Dev.put_caps (d : Dev) (f : Fld) (v : Nat) : (d.put f v).caps = d.caps := rfl

@[simp] theorem Dev.put_mbr (d : Dev) (f : Fld) (v : Nat) : (d.put f v).mbr = d.mbr := rfl

@[simp] theorem Dev.put_jobs (d : Dev) (f : Fld) (v : Nat) : (d.put f v).jobs = d.jobs := rfl

@[simp] theorem Dev.put_flow (d : Dev) (f : Fld) (v : Nat) : (d.put f v).flow = d.flow := rfl

@[simp] theorem Dev.put_vlog (d : Dev) (f : Fld) (v : Nat) : (d.put f v).vlog = d.vlog := rfl

@[simp] theorem Dev.put_mir (d : Dev) (f : Fld) (v : Nat) : (d.put f v).mir = d.mir := rfl

@[simp] theorem Dev.put_stand (d : Dev) (f : Fld) (v : Nat) : (d.put f v).stand = d.stand := rfl

@[simp] theorem Dev.put_drill (d : Dev) (f : Fld) (v : Nat) : (d.put f v).drill = d.drill := rfl

@[simp] theorem Dev.put_adoptReqs (d : Dev) (f : Fld) (v : Nat) : (d.put f v).adoptReqs = d.adoptReqs := rfl

@[simp] theorem Dev.put_selfAcks (d : Dev) (f : Fld) (v : Nat) : (d.put f v).selfAcks = d.selfAcks := rfl

@[simp] theorem Dev.put_cache (d : Dev) (f : Fld) (v : Nat) : (d.put f v).cache = d.cache := rfl

@[simp] theorem Dev.put_residGen (d : Dev) (f : Fld) (v : Nat) : (d.put f v).residGen = d.residGen := rfl

@[simp] theorem Dev.put_coreHits (d : Dev) (f : Fld) (v : Nat) : (d.put f v).coreHits = d.coreHits := rfl

@[simp] theorem Dev.put_progs (d : Dev) (f : Fld) (v : Nat) : (d.put f v).progs = d.progs := rfl

@[simp] theorem Dev.put_nrg (d : Dev) (f : Fld) (v : Nat) : (d.put f v).nrg = d.nrg := rfl

@[simp] theorem Dev.put_chkRest (d : Dev) (f : Fld) (v : Nat) : (d.put f v).chkRest = d.chkRest := rfl

@[simp] theorem Dev.put_ra (d : Dev) (f : Fld) (v : Nat) : (d.put f v).ra = d.ra := rfl

@[simp] theorem Dev.put_i3c (d : Dev) (f : Fld) (v : Nat) : (d.put f v).i3c = d.i3c := rfl

/-! ### Something leaves the block: every other field -/

@[simp] theorem Dev.emit_regs (d : Dev) (x : Out) : (d.emit x).regs = d.regs := rfl

@[simp] theorem Dev.emit_rdata (d : Dev) (x : Out) : (d.emit x).rdata = d.rdata := rfl

@[simp] theorem Dev.emit_rdHold (d : Dev) (x : Out) : (d.emit x).rdHold = d.rdHold := rfl

@[simp] theorem Dev.emit_wrHold (d : Dev) (x : Out) : (d.emit x).wrHold = d.wrHold := rfl

@[simp] theorem Dev.emit_latched (d : Dev) (x : Out) : (d.emit x).latched = d.latched := rfl

@[simp] theorem Dev.emit_snaps (d : Dev) (x : Out) : (d.emit x).snaps = d.snaps := rfl

@[simp] theorem Dev.emit_fresh (d : Dev) (x : Out) : (d.emit x).fresh = d.fresh := rfl

@[simp] theorem Dev.emit_time (d : Dev) (x : Out) : (d.emit x).time = d.time := rfl

@[simp] theorem Dev.emit_aon (d : Dev) (x : Out) : (d.emit x).aon = d.aon := rfl

@[simp] theorem Dev.emit_sram (d : Dev) (x : Out) : (d.emit x).sram = d.sram := rfl

@[simp] theorem Dev.emit_lpd (d : Dev) (x : Out) : (d.emit x).lpd = d.lpd := rfl

@[simp] theorem Dev.emit_ctxMem (d : Dev) (x : Out) : (d.emit x).ctxMem = d.ctxMem := rfl

@[simp] theorem Dev.emit_evr (d : Dev) (x : Out) : (d.emit x).evr = d.evr := rfl

@[simp] theorem Dev.emit_pwr (d : Dev) (x : Out) : (d.emit x).pwr = d.pwr := rfl

@[simp] theorem Dev.emit_boot (d : Dev) (x : Out) : (d.emit x).boot = d.boot := rfl

@[simp] theorem Dev.emit_comp (d : Dev) (x : Out) : (d.emit x).comp = d.comp := rfl

@[simp] theorem Dev.emit_stop (d : Dev) (x : Out) : (d.emit x).stop = d.stop := rfl

@[simp] theorem Dev.emit_unreset (d : Dev) (x : Out) : (d.emit x).unreset = d.unreset := rfl

@[simp] theorem Dev.emit_clearing (d : Dev) (x : Out) : (d.emit x).clearing = d.clearing := rfl

@[simp] theorem Dev.emit_drains (d : Dev) (x : Out) : (d.emit x).drains = d.drains := rfl

@[simp] theorem Dev.emit_drainLog (d : Dev) (x : Out) : (d.emit x).drainLog = d.drainLog := rfl

@[simp] theorem Dev.emit_parts (d : Dev) (x : Out) : (d.emit x).parts = d.parts := rfl

@[simp] theorem Dev.emit_health (d : Dev) (x : Out) : (d.emit x).health = d.health := rfl

@[simp] theorem Dev.emit_agr (d : Dev) (x : Out) : (d.emit x).agr = d.agr := rfl

@[simp] theorem Dev.emit_twoOut (d : Dev) (x : Out) : (d.emit x).twoOut = d.twoOut := rfl

@[simp] theorem Dev.emit_ports (d : Dev) (x : Out) : (d.emit x).ports = d.ports := rfl

@[simp] theorem Dev.emit_loads (d : Dev) (x : Out) : (d.emit x).loads = d.loads := rfl

@[simp] theorem Dev.emit_indirect (d : Dev) (x : Out) : (d.emit x).indirect = d.indirect := rfl

@[simp] theorem Dev.emit_pair (d : Dev) (x : Out) : (d.emit x).pair = d.pair := rfl

@[simp] theorem Dev.emit_agents (d : Dev) (x : Out) : (d.emit x).agents = d.agents := rfl

@[simp] theorem Dev.emit_aports (d : Dev) (x : Out) : (d.emit x).aports = d.aports := rfl

@[simp] theorem Dev.emit_mons (d : Dev) (x : Out) : (d.emit x).mons = d.mons := rfl

@[simp] theorem Dev.emit_packs (d : Dev) (x : Out) : (d.emit x).packs = d.packs := rfl

@[simp] theorem Dev.emit_clock (d : Dev) (x : Out) : (d.emit x).clock = d.clock := rfl

@[simp] theorem Dev.emit_tense (d : Dev) (x : Out) : (d.emit x).tense = d.tense := rfl

@[simp] theorem Dev.emit_pulses (d : Dev) (x : Out) : (d.emit x).pulses = d.pulses := rfl

@[simp] theorem Dev.emit_caps (d : Dev) (x : Out) : (d.emit x).caps = d.caps := rfl

@[simp] theorem Dev.emit_mbr (d : Dev) (x : Out) : (d.emit x).mbr = d.mbr := rfl

@[simp] theorem Dev.emit_jobs (d : Dev) (x : Out) : (d.emit x).jobs = d.jobs := rfl

@[simp] theorem Dev.emit_flow (d : Dev) (x : Out) : (d.emit x).flow = d.flow := rfl

@[simp] theorem Dev.emit_vlog (d : Dev) (x : Out) : (d.emit x).vlog = d.vlog := rfl

@[simp] theorem Dev.emit_mir (d : Dev) (x : Out) : (d.emit x).mir = d.mir := rfl

@[simp] theorem Dev.emit_stand (d : Dev) (x : Out) : (d.emit x).stand = d.stand := rfl

@[simp] theorem Dev.emit_drill (d : Dev) (x : Out) : (d.emit x).drill = d.drill := rfl

@[simp] theorem Dev.emit_adoptReqs (d : Dev) (x : Out) : (d.emit x).adoptReqs = d.adoptReqs := rfl

@[simp] theorem Dev.emit_selfAcks (d : Dev) (x : Out) : (d.emit x).selfAcks = d.selfAcks := rfl

@[simp] theorem Dev.emit_cache (d : Dev) (x : Out) : (d.emit x).cache = d.cache := rfl

@[simp] theorem Dev.emit_residGen (d : Dev) (x : Out) : (d.emit x).residGen = d.residGen := rfl

@[simp] theorem Dev.emit_coreHits (d : Dev) (x : Out) : (d.emit x).coreHits = d.coreHits := rfl

@[simp] theorem Dev.emit_progs (d : Dev) (x : Out) : (d.emit x).progs = d.progs := rfl

@[simp] theorem Dev.emit_nrg (d : Dev) (x : Out) : (d.emit x).nrg = d.nrg := rfl

@[simp] theorem Dev.emit_chkRest (d : Dev) (x : Out) : (d.emit x).chkRest = d.chkRest := rfl

@[simp] theorem Dev.emit_ra (d : Dev) (x : Out) : (d.emit x).ra = d.ra := rfl

@[simp] theorem Dev.emit_i3c (d : Dev) (x : Out) : (d.emit x).i3c = d.i3c := rfl

@[simp] theorem Dev.emits_regs (d : Dev) (x : List Out) : (d.emits x).regs = d.regs := rfl

@[simp] theorem Dev.emits_rdata (d : Dev) (x : List Out) : (d.emits x).rdata = d.rdata := rfl

@[simp] theorem Dev.emits_rdHold (d : Dev) (x : List Out) : (d.emits x).rdHold = d.rdHold := rfl

@[simp] theorem Dev.emits_wrHold (d : Dev) (x : List Out) : (d.emits x).wrHold = d.wrHold := rfl

@[simp] theorem Dev.emits_latched (d : Dev) (x : List Out) : (d.emits x).latched = d.latched := rfl

@[simp] theorem Dev.emits_snaps (d : Dev) (x : List Out) : (d.emits x).snaps = d.snaps := rfl

@[simp] theorem Dev.emits_fresh (d : Dev) (x : List Out) : (d.emits x).fresh = d.fresh := rfl

@[simp] theorem Dev.emits_time (d : Dev) (x : List Out) : (d.emits x).time = d.time := rfl

@[simp] theorem Dev.emits_aon (d : Dev) (x : List Out) : (d.emits x).aon = d.aon := rfl

@[simp] theorem Dev.emits_sram (d : Dev) (x : List Out) : (d.emits x).sram = d.sram := rfl

@[simp] theorem Dev.emits_lpd (d : Dev) (x : List Out) : (d.emits x).lpd = d.lpd := rfl

@[simp] theorem Dev.emits_ctxMem (d : Dev) (x : List Out) : (d.emits x).ctxMem = d.ctxMem := rfl

@[simp] theorem Dev.emits_evr (d : Dev) (x : List Out) : (d.emits x).evr = d.evr := rfl

@[simp] theorem Dev.emits_pwr (d : Dev) (x : List Out) : (d.emits x).pwr = d.pwr := rfl

@[simp] theorem Dev.emits_boot (d : Dev) (x : List Out) : (d.emits x).boot = d.boot := rfl

@[simp] theorem Dev.emits_comp (d : Dev) (x : List Out) : (d.emits x).comp = d.comp := rfl

@[simp] theorem Dev.emits_stop (d : Dev) (x : List Out) : (d.emits x).stop = d.stop := rfl

@[simp] theorem Dev.emits_unreset (d : Dev) (x : List Out) : (d.emits x).unreset = d.unreset := rfl

@[simp] theorem Dev.emits_clearing (d : Dev) (x : List Out) : (d.emits x).clearing = d.clearing := rfl

@[simp] theorem Dev.emits_drains (d : Dev) (x : List Out) : (d.emits x).drains = d.drains := rfl

@[simp] theorem Dev.emits_drainLog (d : Dev) (x : List Out) : (d.emits x).drainLog = d.drainLog := rfl

@[simp] theorem Dev.emits_parts (d : Dev) (x : List Out) : (d.emits x).parts = d.parts := rfl

@[simp] theorem Dev.emits_health (d : Dev) (x : List Out) : (d.emits x).health = d.health := rfl

@[simp] theorem Dev.emits_agr (d : Dev) (x : List Out) : (d.emits x).agr = d.agr := rfl

@[simp] theorem Dev.emits_twoOut (d : Dev) (x : List Out) : (d.emits x).twoOut = d.twoOut := rfl

@[simp] theorem Dev.emits_ports (d : Dev) (x : List Out) : (d.emits x).ports = d.ports := rfl

@[simp] theorem Dev.emits_loads (d : Dev) (x : List Out) : (d.emits x).loads = d.loads := rfl

@[simp] theorem Dev.emits_indirect (d : Dev) (x : List Out) : (d.emits x).indirect = d.indirect := rfl

@[simp] theorem Dev.emits_pair (d : Dev) (x : List Out) : (d.emits x).pair = d.pair := rfl

@[simp] theorem Dev.emits_agents (d : Dev) (x : List Out) : (d.emits x).agents = d.agents := rfl

@[simp] theorem Dev.emits_aports (d : Dev) (x : List Out) : (d.emits x).aports = d.aports := rfl

@[simp] theorem Dev.emits_mons (d : Dev) (x : List Out) : (d.emits x).mons = d.mons := rfl

@[simp] theorem Dev.emits_packs (d : Dev) (x : List Out) : (d.emits x).packs = d.packs := rfl

@[simp] theorem Dev.emits_clock (d : Dev) (x : List Out) : (d.emits x).clock = d.clock := rfl

@[simp] theorem Dev.emits_tense (d : Dev) (x : List Out) : (d.emits x).tense = d.tense := rfl

@[simp] theorem Dev.emits_pulses (d : Dev) (x : List Out) : (d.emits x).pulses = d.pulses := rfl

@[simp] theorem Dev.emits_caps (d : Dev) (x : List Out) : (d.emits x).caps = d.caps := rfl

@[simp] theorem Dev.emits_mbr (d : Dev) (x : List Out) : (d.emits x).mbr = d.mbr := rfl

@[simp] theorem Dev.emits_jobs (d : Dev) (x : List Out) : (d.emits x).jobs = d.jobs := rfl

@[simp] theorem Dev.emits_flow (d : Dev) (x : List Out) : (d.emits x).flow = d.flow := rfl

@[simp] theorem Dev.emits_vlog (d : Dev) (x : List Out) : (d.emits x).vlog = d.vlog := rfl

@[simp] theorem Dev.emits_mir (d : Dev) (x : List Out) : (d.emits x).mir = d.mir := rfl

@[simp] theorem Dev.emits_stand (d : Dev) (x : List Out) : (d.emits x).stand = d.stand := rfl

@[simp] theorem Dev.emits_drill (d : Dev) (x : List Out) : (d.emits x).drill = d.drill := rfl

@[simp] theorem Dev.emits_adoptReqs (d : Dev) (x : List Out) : (d.emits x).adoptReqs = d.adoptReqs := rfl

@[simp] theorem Dev.emits_selfAcks (d : Dev) (x : List Out) : (d.emits x).selfAcks = d.selfAcks := rfl

@[simp] theorem Dev.emits_cache (d : Dev) (x : List Out) : (d.emits x).cache = d.cache := rfl

@[simp] theorem Dev.emits_residGen (d : Dev) (x : List Out) : (d.emits x).residGen = d.residGen := rfl

@[simp] theorem Dev.emits_coreHits (d : Dev) (x : List Out) : (d.emits x).coreHits = d.coreHits := rfl

@[simp] theorem Dev.emits_progs (d : Dev) (x : List Out) : (d.emits x).progs = d.progs := rfl

@[simp] theorem Dev.emits_nrg (d : Dev) (x : List Out) : (d.emits x).nrg = d.nrg := rfl

@[simp] theorem Dev.emits_chkRest (d : Dev) (x : List Out) : (d.emits x).chkRest = d.chkRest := rfl

@[simp] theorem Dev.emits_ra (d : Dev) (x : List Out) : (d.emits x).ra = d.ra := rfl

@[simp] theorem Dev.emits_i3c (d : Dev) (x : List Out) : (d.emits x).i3c = d.i3c := rfl

@[simp] theorem Dev.emit_out (d : Dev) (x : Out) : (d.emit x).out = d.out ++ [x] := rfl

@[simp] theorem Dev.emits_out (d : Dev) (x : List Out) : (d.emits x).out = d.out ++ x := rfl

/-! ### A free value taken: every other field -/

@[simp] theorem Dev.tick_regs (d : Dev)  : (d.tick).regs = d.regs := rfl

@[simp] theorem Dev.tick_rdata (d : Dev)  : (d.tick).rdata = d.rdata := rfl

@[simp] theorem Dev.tick_rdHold (d : Dev)  : (d.tick).rdHold = d.rdHold := rfl

@[simp] theorem Dev.tick_wrHold (d : Dev)  : (d.tick).wrHold = d.wrHold := rfl

@[simp] theorem Dev.tick_latched (d : Dev)  : (d.tick).latched = d.latched := rfl

@[simp] theorem Dev.tick_snaps (d : Dev)  : (d.tick).snaps = d.snaps := rfl

@[simp] theorem Dev.tick_out (d : Dev)  : (d.tick).out = d.out := rfl

@[simp] theorem Dev.tick_time (d : Dev)  : (d.tick).time = d.time := rfl

@[simp] theorem Dev.tick_aon (d : Dev)  : (d.tick).aon = d.aon := rfl

@[simp] theorem Dev.tick_sram (d : Dev)  : (d.tick).sram = d.sram := rfl

@[simp] theorem Dev.tick_lpd (d : Dev)  : (d.tick).lpd = d.lpd := rfl

@[simp] theorem Dev.tick_ctxMem (d : Dev)  : (d.tick).ctxMem = d.ctxMem := rfl

@[simp] theorem Dev.tick_evr (d : Dev)  : (d.tick).evr = d.evr := rfl

@[simp] theorem Dev.tick_pwr (d : Dev)  : (d.tick).pwr = d.pwr := rfl

@[simp] theorem Dev.tick_boot (d : Dev)  : (d.tick).boot = d.boot := rfl

@[simp] theorem Dev.tick_comp (d : Dev)  : (d.tick).comp = d.comp := rfl

@[simp] theorem Dev.tick_stop (d : Dev)  : (d.tick).stop = d.stop := rfl

@[simp] theorem Dev.tick_unreset (d : Dev)  : (d.tick).unreset = d.unreset := rfl

@[simp] theorem Dev.tick_clearing (d : Dev)  : (d.tick).clearing = d.clearing := rfl

@[simp] theorem Dev.tick_drains (d : Dev)  : (d.tick).drains = d.drains := rfl

@[simp] theorem Dev.tick_drainLog (d : Dev)  : (d.tick).drainLog = d.drainLog := rfl

@[simp] theorem Dev.tick_parts (d : Dev)  : (d.tick).parts = d.parts := rfl

@[simp] theorem Dev.tick_health (d : Dev)  : (d.tick).health = d.health := rfl

@[simp] theorem Dev.tick_agr (d : Dev)  : (d.tick).agr = d.agr := rfl

@[simp] theorem Dev.tick_twoOut (d : Dev)  : (d.tick).twoOut = d.twoOut := rfl

@[simp] theorem Dev.tick_ports (d : Dev)  : (d.tick).ports = d.ports := rfl

@[simp] theorem Dev.tick_loads (d : Dev)  : (d.tick).loads = d.loads := rfl

@[simp] theorem Dev.tick_indirect (d : Dev)  : (d.tick).indirect = d.indirect := rfl

@[simp] theorem Dev.tick_pair (d : Dev)  : (d.tick).pair = d.pair := rfl

@[simp] theorem Dev.tick_agents (d : Dev)  : (d.tick).agents = d.agents := rfl

@[simp] theorem Dev.tick_aports (d : Dev)  : (d.tick).aports = d.aports := rfl

@[simp] theorem Dev.tick_mons (d : Dev)  : (d.tick).mons = d.mons := rfl

@[simp] theorem Dev.tick_packs (d : Dev)  : (d.tick).packs = d.packs := rfl

@[simp] theorem Dev.tick_clock (d : Dev)  : (d.tick).clock = d.clock := rfl

@[simp] theorem Dev.tick_tense (d : Dev)  : (d.tick).tense = d.tense := rfl

@[simp] theorem Dev.tick_pulses (d : Dev)  : (d.tick).pulses = d.pulses := rfl

@[simp] theorem Dev.tick_caps (d : Dev)  : (d.tick).caps = d.caps := rfl

@[simp] theorem Dev.tick_mbr (d : Dev)  : (d.tick).mbr = d.mbr := rfl

@[simp] theorem Dev.tick_jobs (d : Dev)  : (d.tick).jobs = d.jobs := rfl

@[simp] theorem Dev.tick_flow (d : Dev)  : (d.tick).flow = d.flow := rfl

@[simp] theorem Dev.tick_vlog (d : Dev)  : (d.tick).vlog = d.vlog := rfl

@[simp] theorem Dev.tick_mir (d : Dev)  : (d.tick).mir = d.mir := rfl

@[simp] theorem Dev.tick_stand (d : Dev)  : (d.tick).stand = d.stand := rfl

@[simp] theorem Dev.tick_drill (d : Dev)  : (d.tick).drill = d.drill := rfl

@[simp] theorem Dev.tick_adoptReqs (d : Dev)  : (d.tick).adoptReqs = d.adoptReqs := rfl

@[simp] theorem Dev.tick_selfAcks (d : Dev)  : (d.tick).selfAcks = d.selfAcks := rfl

@[simp] theorem Dev.tick_cache (d : Dev)  : (d.tick).cache = d.cache := rfl

@[simp] theorem Dev.tick_residGen (d : Dev)  : (d.tick).residGen = d.residGen := rfl

@[simp] theorem Dev.tick_coreHits (d : Dev)  : (d.tick).coreHits = d.coreHits := rfl

@[simp] theorem Dev.tick_progs (d : Dev)  : (d.tick).progs = d.progs := rfl

@[simp] theorem Dev.tick_nrg (d : Dev)  : (d.tick).nrg = d.nrg := rfl

@[simp] theorem Dev.tick_chkRest (d : Dev)  : (d.tick).chkRest = d.chkRest := rfl

@[simp] theorem Dev.tick_ra (d : Dev)  : (d.tick).ra = d.ra := rfl

@[simp] theorem Dev.tick_i3c (d : Dev)  : (d.tick).i3c = d.i3c := rfl

@[simp] theorem Dev.tick_fresh (d : Dev) : d.tick.fresh = d.fresh + 1 := rfl

/-! ### Registers do not depend on the other fields -/

@[simp] theorem Dev.get_with_rdata (d : Dev) (x) (f : Fld) : Dev.get { d with rdata := x } f = d.get f := rfl

@[simp] theorem Dev.get_with_rdHold (d : Dev) (x) (f : Fld) : Dev.get { d with rdHold := x } f = d.get f := rfl

@[simp] theorem Dev.get_with_wrHold (d : Dev) (x) (f : Fld) : Dev.get { d with wrHold := x } f = d.get f := rfl

@[simp] theorem Dev.get_with_latched (d : Dev) (x) (f : Fld) : Dev.get { d with latched := x } f = d.get f := rfl

@[simp] theorem Dev.get_with_snaps (d : Dev) (x) (f : Fld) : Dev.get { d with snaps := x } f = d.get f := rfl

@[simp] theorem Dev.get_with_fresh (d : Dev) (x) (f : Fld) : Dev.get { d with fresh := x } f = d.get f := rfl

@[simp] theorem Dev.get_with_out (d : Dev) (x) (f : Fld) : Dev.get { d with out := x } f = d.get f := rfl

@[simp] theorem Dev.get_with_time (d : Dev) (x) (f : Fld) : Dev.get { d with time := x } f = d.get f := rfl

@[simp] theorem Dev.get_with_aon (d : Dev) (x) (f : Fld) : Dev.get { d with aon := x } f = d.get f := rfl

@[simp] theorem Dev.get_with_sram (d : Dev) (x) (f : Fld) : Dev.get { d with sram := x } f = d.get f := rfl

@[simp] theorem Dev.get_with_lpd (d : Dev) (x) (f : Fld) : Dev.get { d with lpd := x } f = d.get f := rfl

@[simp] theorem Dev.get_with_ctxMem (d : Dev) (x) (f : Fld) : Dev.get { d with ctxMem := x } f = d.get f := rfl

@[simp] theorem Dev.get_with_evr (d : Dev) (x) (f : Fld) : Dev.get { d with evr := x } f = d.get f := rfl

@[simp] theorem Dev.get_with_pwr (d : Dev) (x) (f : Fld) : Dev.get { d with pwr := x } f = d.get f := rfl

@[simp] theorem Dev.get_with_boot (d : Dev) (x) (f : Fld) : Dev.get { d with boot := x } f = d.get f := rfl

@[simp] theorem Dev.get_with_comp (d : Dev) (x) (f : Fld) : Dev.get { d with comp := x } f = d.get f := rfl

@[simp] theorem Dev.get_with_stop (d : Dev) (x) (f : Fld) : Dev.get { d with stop := x } f = d.get f := rfl

@[simp] theorem Dev.get_with_unreset (d : Dev) (x) (f : Fld) : Dev.get { d with unreset := x } f = d.get f := rfl

@[simp] theorem Dev.get_with_clearing (d : Dev) (x) (f : Fld) : Dev.get { d with clearing := x } f = d.get f := rfl

@[simp] theorem Dev.get_with_drains (d : Dev) (x) (f : Fld) : Dev.get { d with drains := x } f = d.get f := rfl

@[simp] theorem Dev.get_with_drainLog (d : Dev) (x) (f : Fld) : Dev.get { d with drainLog := x } f = d.get f := rfl

@[simp] theorem Dev.get_with_parts (d : Dev) (x) (f : Fld) : Dev.get { d with parts := x } f = d.get f := rfl

@[simp] theorem Dev.get_with_health (d : Dev) (x) (f : Fld) : Dev.get { d with health := x } f = d.get f := rfl

@[simp] theorem Dev.get_with_agr (d : Dev) (x) (f : Fld) : Dev.get { d with agr := x } f = d.get f := rfl

@[simp] theorem Dev.get_with_twoOut (d : Dev) (x) (f : Fld) : Dev.get { d with twoOut := x } f = d.get f := rfl

@[simp] theorem Dev.get_with_ports (d : Dev) (x) (f : Fld) : Dev.get { d with ports := x } f = d.get f := rfl

@[simp] theorem Dev.get_with_loads (d : Dev) (x) (f : Fld) : Dev.get { d with loads := x } f = d.get f := rfl

@[simp] theorem Dev.get_with_indirect (d : Dev) (x) (f : Fld) : Dev.get { d with indirect := x } f = d.get f := rfl

@[simp] theorem Dev.get_with_pair (d : Dev) (x) (f : Fld) : Dev.get { d with pair := x } f = d.get f := rfl

@[simp] theorem Dev.get_with_agents (d : Dev) (x) (f : Fld) : Dev.get { d with agents := x } f = d.get f := rfl

@[simp] theorem Dev.get_with_aports (d : Dev) (x) (f : Fld) : Dev.get { d with aports := x } f = d.get f := rfl

@[simp] theorem Dev.get_with_mons (d : Dev) (x) (f : Fld) : Dev.get { d with mons := x } f = d.get f := rfl

@[simp] theorem Dev.get_with_packs (d : Dev) (x) (f : Fld) : Dev.get { d with packs := x } f = d.get f := rfl

@[simp] theorem Dev.get_with_clock (d : Dev) (x) (f : Fld) : Dev.get { d with clock := x } f = d.get f := rfl

@[simp] theorem Dev.get_with_tense (d : Dev) (x) (f : Fld) : Dev.get { d with tense := x } f = d.get f := rfl

@[simp] theorem Dev.get_with_pulses (d : Dev) (x) (f : Fld) : Dev.get { d with pulses := x } f = d.get f := rfl

@[simp] theorem Dev.get_with_caps (d : Dev) (x) (f : Fld) : Dev.get { d with caps := x } f = d.get f := rfl

@[simp] theorem Dev.get_with_mbr (d : Dev) (x) (f : Fld) : Dev.get { d with mbr := x } f = d.get f := rfl

@[simp] theorem Dev.get_with_jobs (d : Dev) (x) (f : Fld) : Dev.get { d with jobs := x } f = d.get f := rfl

@[simp] theorem Dev.get_with_flow (d : Dev) (x) (f : Fld) : Dev.get { d with flow := x } f = d.get f := rfl

@[simp] theorem Dev.get_with_vlog (d : Dev) (x) (f : Fld) : Dev.get { d with vlog := x } f = d.get f := rfl

@[simp] theorem Dev.get_with_mir (d : Dev) (x) (f : Fld) : Dev.get { d with mir := x } f = d.get f := rfl

@[simp] theorem Dev.get_with_stand (d : Dev) (x) (f : Fld) : Dev.get { d with stand := x } f = d.get f := rfl

@[simp] theorem Dev.get_with_drill (d : Dev) (x) (f : Fld) : Dev.get { d with drill := x } f = d.get f := rfl

@[simp] theorem Dev.get_with_adoptReqs (d : Dev) (x) (f : Fld) : Dev.get { d with adoptReqs := x } f = d.get f := rfl

@[simp] theorem Dev.get_with_selfAcks (d : Dev) (x) (f : Fld) : Dev.get { d with selfAcks := x } f = d.get f := rfl

@[simp] theorem Dev.get_with_cache (d : Dev) (x) (f : Fld) : Dev.get { d with cache := x } f = d.get f := rfl

@[simp] theorem Dev.get_with_residGen (d : Dev) (x) (f : Fld) : Dev.get { d with residGen := x } f = d.get f := rfl

@[simp] theorem Dev.get_with_coreHits (d : Dev) (x) (f : Fld) : Dev.get { d with coreHits := x } f = d.get f := rfl

@[simp] theorem Dev.get_with_progs (d : Dev) (x) (f : Fld) : Dev.get { d with progs := x } f = d.get f := rfl

@[simp] theorem Dev.get_with_nrg (d : Dev) (x) (f : Fld) : Dev.get { d with nrg := x } f = d.get f := rfl

@[simp] theorem Dev.get_with_chkRest (d : Dev) (x) (f : Fld) : Dev.get { d with chkRest := x } f = d.get f := rfl

@[simp] theorem Dev.get_with_ra (d : Dev) (x) (f : Fld) : Dev.get { d with ra := x } f = d.get f := rfl

@[simp] theorem Dev.get_with_i3c (d : Dev) (x) (f : Fld) : Dev.get { d with i3c := x } f = d.get f := rfl

@[simp] theorem Dev.get_emit (d : Dev) (x : Out) (f : Fld) : (d.emit x).get f = d.get f := rfl

@[simp] theorem Dev.get_emits (d : Dev) (x : List Out) (f : Fld) : (d.emits x).get f = d.get f := rfl

@[simp] theorem Dev.get_tick (d : Dev)  (f : Fld) : (d.tick).get f = d.get f := rfl

/-! ### The setters of one part of the state leave the registers -/

@[simp] theorem Dev.get_setAgent (d : Dev) (a : Nat) (x : AgentSt) (f : Fld) : (d.setAgent a x).get f = d.get f := rfl

@[simp] theorem Dev.out_setAgent (d : Dev) (a : Nat) (x : AgentSt) : (d.setAgent a x).out = d.out := rfl

@[simp] theorem Dev.get_onAgent (d : Dev) (a : Nat) (x : AgentSt → AgentSt) (f : Fld) : (d.onAgent a x).get f = d.get f := rfl

@[simp] theorem Dev.out_onAgent (d : Dev) (a : Nat) (x : AgentSt → AgentSt) : (d.onAgent a x).out = d.out := rfl

@[simp] theorem Dev.get_onClock (d : Dev) (x : TimeSt → TimeSt) (f : Fld) : (d.onClock x).get f = d.get f := rfl

@[simp] theorem Dev.out_onClock (d : Dev) (x : TimeSt → TimeSt) : (d.onClock x).out = d.out := rfl

@[simp] theorem Dev.get_setPort (d : Dev) (a : Nat) (x : PortSt) (f : Fld) : (d.setPort a x).get f = d.get f := rfl

@[simp] theorem Dev.out_setPort (d : Dev) (a : Nat) (x : PortSt) : (d.setPort a x).out = d.out := rfl

@[simp] theorem Dev.get_setLane (d : Dev) (a b v : Nat) (f : Fld) : (d.setLane a b v).get f = d.get f := rfl

@[simp] theorem Dev.out_setLane (d : Dev) (a b v : Nat) : (d.setLane a b v).out = d.out := rfl

@[simp] theorem Dev.get_setMon (d : Dev) (a : Nat) (x : MonSt) (f : Fld) : (d.setMon a x).get f = d.get f := rfl

@[simp] theorem Dev.out_setMon (d : Dev) (a : Nat) (x : MonSt) : (d.setMon a x).out = d.out := rfl

@[simp] theorem Dev.get_onMbr (d : Dev) (x : MemberSt → MemberSt) (f : Fld) : (d.onMbr x).get f = d.get f := rfl

@[simp] theorem Dev.out_onMbr (d : Dev) (x : MemberSt → MemberSt) : (d.onMbr x).out = d.out := rfl

@[simp] theorem Dev.get_onEvr (d : Dev) (x : Recorder → Recorder) (f : Fld) : (d.onEvr x).get f = d.get f := rfl

@[simp] theorem Dev.out_onEvr (d : Dev) (x : Recorder → Recorder) : (d.onEvr x).out = d.out := rfl

@[simp] theorem Dev.get_setAport (d : Dev) (a : Nat) (x : AgentPort) (f : Fld) : (d.setAport a x).get f = d.get f := rfl

@[simp] theorem Dev.out_setAport (d : Dev) (a : Nat) (x : AgentPort) : (d.setAport a x).out = d.out := rfl

@[simp] theorem Dev.get_setPart (d : Dev) (a : Nat) (x : PartSt) (f : Fld) : (d.setPart a x).get f = d.get f := rfl

@[simp] theorem Dev.out_setPart (d : Dev) (a : Nat) (x : PartSt) : (d.setPart a x).out = d.out := rfl

@[simp] theorem Dev.get_setLosses (d : Dev) (w : Feed) (x : List Nat) (f : Fld) : (d.setLosses w x).get f = d.get f := rfl

@[simp] theorem Dev.out_setLosses (d : Dev) (w : Feed) (x : List Nat) : (d.setLosses w x).out = d.out := rfl

@[simp] theorem Dev.get_setStand (d : Dev) (a : Nat) (x : StandSt) (f : Fld) : (d.setStand a x).get f = d.get f := rfl

@[simp] theorem Dev.out_setStand (d : Dev) (a : Nat) (x : StandSt) : (d.setStand a x).out = d.out := rfl

@[simp] theorem Dev.get_setTense (d : Dev) (a : Nat) (x : TenseSt) (f : Fld) : (d.setTense a x).get f = d.get f := rfl

@[simp] theorem Dev.out_setTense (d : Dev) (a : Nat) (x : TenseSt) : (d.setTense a x).out = d.out := rfl

@[simp] theorem Dev.get_setCtx (d : Dev) (a : Nat) (x : Ctx) (f : Fld) : (d.setCtx a x).get f = d.get f := rfl

@[simp] theorem Dev.out_setCtx (d : Dev) (a : Nat) (x : Ctx) : (d.setCtx a x).out = d.out := rfl

@[simp] theorem Dev.get_setThread (d : Dev) (a : Nat) (x : Thread) (f : Fld) : (d.setThread a x).get f = d.get f := rfl

@[simp] theorem Dev.out_setThread (d : Dev) (a : Nat) (x : Thread) : (d.setThread a x).out = d.out := rfl

@[simp] theorem Dev.get_setPages (d : Dev) (x : Tab PageEnt) (f : Fld) : (d.setPages x).get f = d.get f := rfl

@[simp] theorem Dev.out_setPages (d : Dev) (x : Tab PageEnt) : (d.setPages x).out = d.out := rfl

@[simp] theorem Dev.get_setPage (d : Dev) (a : Nat) (x : PageEnt) (f : Fld) : (d.setPage a x).get f = d.get f := rfl

@[simp] theorem Dev.out_setPage (d : Dev) (a : Nat) (x : PageEnt) : (d.setPage a x).out = d.out := rfl

@[simp] theorem Dev.get_setJob (d : Dev) (x : JobSt) (f : Fld) : (d.setJob x).get f = d.get f := rfl

@[simp] theorem Dev.out_setJob (d : Dev) (x : JobSt) : (d.setJob x).out = d.out := rfl

/-! ### Reading a register back -/

theorem Tab.find_insert_self {α : Type} (k : Nat) (v : α) (t : Tab α) (h : Tab.find k t = none) :
    Tab.find k (Tab.insert k v t) = some v := by
  induction t with
  | nil => simp [Tab.insert, Tab.find]
  | cons e t ih =>
    obtain ⟨k', v'⟩ := e
    simp only [Tab.find] at h
    split at h
    · cases h
    · rename_i hk
      simp only [Tab.insert]
      split
      · simp [Tab.find]
      · split
        · simp [Tab.find]
        · simp [Tab.find, hk, ih h]

theorem Tab.find_insert_ne {α : Type} {k k' : Nat} (hk : k ≠ k') (v : α) (t : Tab α) :
    Tab.find k' (Tab.insert k v t) = Tab.find k' t := by
  induction t with
  | nil => simp [Tab.insert, Tab.find, hk]
  | cons e t ih =>
    obtain ⟨a, b⟩ := e
    simp only [Tab.insert]
    split
    · simp [Tab.find, hk]
    · split
      · rename_i h; subst h; simp [Tab.find, hk]
      · simp [Tab.find, ih]

theorem Tab.find_erase_self {α : Type} (k : Nat) (t : Tab α) : Tab.find k (Tab.erase k t) = none := by
  induction t with
  | nil => rfl
  | cons e t ih =>
    obtain ⟨a, b⟩ := e
    simp only [Tab.erase, List.filter_cons] at ih ⊢
    split
    · rename_i h
      simp only [bne_iff_ne, ne_eq] at h
      simp [Tab.find, h, ih]
    · exact ih

theorem Tab.find_erase_ne {α : Type} {k k' : Nat} (hk : k ≠ k') (t : Tab α) : Tab.find k' (Tab.erase k t) = Tab.find k' t := by
  induction t with
  | nil => rfl
  | cons e t ih =>
    obtain ⟨a, b⟩ := e
    simp only [Tab.erase, List.filter_cons] at ih ⊢
    split
    · simp [Tab.find, ih]
    · rename_i h
      simp only [bne_iff_ne, ne_eq, Decidable.not_not] at h
      subst h; simp [Tab.find, hk, ih]

theorem Tab.getD_set_self {α : Type} [DecidableEq α] (t : Tab α) (k : Nat) (d v : α) : Tab.getD (Tab.set t k d v) k d = v := by
  unfold Tab.getD Tab.set
  split
  · rw [Tab.find_erase_self]; simp [*]
  · rw [Tab.find_insert_self _ _ _ (Tab.find_erase_self _ _)]; rfl

theorem Tab.getD_set_ne {α : Type} [DecidableEq α] {k k' : Nat} (hk : k ≠ k') (t : Tab α) (d d' v : α) :
    Tab.getD (Tab.set t k d v) k' d' = Tab.getD t k' d' := by
  unfold Tab.getD Tab.set
  split
  · rw [Tab.find_erase_ne hk]
  · rw [Tab.find_insert_ne hk, Tab.find_erase_ne hk]

/-- A field reads as what was written to it, in its width. -/
theorem Dev.get_put_self (d : Dev) (f : Fld) (v : Nat) : (d.put f v).get f = v % 2 ^ f.w :=
  Tab.getD_set_self _ _ _ _

/-- Writing a field leaves every other field as it was. -/
theorem Dev.get_put_ne {f g : Fld} (h : f.key ≠ g.key) (d : Dev) (v : Nat) : (d.put f v).get g = d.get g :=
  Tab.getD_set_ne h _ _ _ _

end Sys2Proof.Machine
end

