-- ==== Sys2Proof/Tests/Slice0.lean ====
section
/-! SUPPORT. Tests of one step each: for each check of well-formedness a term that it refuses and one that it takes, and a few effects whose
expected values the tables of the spec give. -/

namespace Sys2Proof.Tests.Slice0

open Sys2Proof Sys2Proof.Machine

/-- A header of an agent-port message and headers of a fabric and of a 1588 message. -/
abbrev tPort : PortHdr := ⟨1#24, 1#32, 1#32⟩
abbrev tFab : FabHdr := ⟨2#16, 1#32⟩

/-- The register of a state after one command, when the command answers a next state. -/
def after (c : Instr) (s : State) (f : Fld) : Option Nat :=
  match exec c s with
  | .next t => some (t.dev.get f)
  | .fault _ => none
  | .refused _ => none

/-! ## Well-formedness -/

/-- R40: virtual functions are numbered from 1. -/
theorem test_wf_function : (Instr.registerWrite (.vf 0) 0x40 0 none).wf = false ∧ (Instr.registerWrite (.vf 1) 0x40 0 none).wf = true := by
  decide

/-- R33: a register write is aligned to 8 bytes. -/
theorem test_wf_registerWrite : (Instr.registerWrite .host 0x44 0 none).wf = false ∧ (Instr.registerWrite .host 0x48 0 none).wf = true := by
  decide

/-- R33: an access of 4 or 8 bytes at its own alignment is no access error. -/
theorem test_wf_accessError :
    (Instr.accessError true 0x40 8).wf = false ∧ (Instr.accessError false 0x44 4).wf = false ∧ (Instr.accessError true 0x44 8).wf = true ∧
      (Instr.accessError true 0x40 2).wf = true := by
  decide

/-- R35: low halves and 8-byte reads stand at multiples of 8, halves at multiples of 4. -/
theorem test_wf_lowHalf :
    (Instr.lowHalfRead ⟨0x44, true, false⟩).wf = false ∧ (Instr.lowHalfRead ⟨0x44, false, false⟩).wf = true ∧ (Instr.lowHalfRead ⟨0x42, false, false⟩).wf = false ∧
      (Instr.lowHalfWrite 0x42 0 none).wf = false ∧
      (Instr.lowHalfWrite 0x40 0 none).wf = true := by
  decide

/-- R35: high halves stand 4 bytes above a multiple of 8. -/
theorem test_wf_highHalf :
    (Instr.highHalfWrite 0x40 0 none).wf = false ∧ (Instr.highHalfWrite 0x42 0 none).wf = false ∧ (Instr.highHalfWrite 0x44 0 none).wf = true := by
  decide

/-- R46: a remote access is aligned to 8 bytes. -/
theorem test_wf_raReq : (Instr.raReq tFab 1#32 true 0x44 0).wf = false ∧ (Instr.raReq tFab 1#32 true 0x48 0).wf = true := by
  decide

/-- R51: two management domains, two tiles and two SRAM stacks, sixteen partitions and LPDDR4X interfaces. -/
theorem test_wf_powerGood :
    (Instr.powerGood (.mgmt 2)).wf = false ∧ (Instr.powerGood (.tile 2)).wf = false ∧ (Instr.powerGood (.sram 2)).wf = false ∧
      (Instr.powerGood (.part 16)).wf = false ∧ (Instr.powerGood (.phyD 16)).wf = false ∧ (Instr.powerGood (.part 15)).wf = true ∧
      (Instr.powerGood .hub).wf = true := by
  decide

/-- R169: a PULL names at most 512 records. -/
theorem test_wf_pull (x : PullItem) :
    (Instr.pull 0 tPort (List.replicate 513 x)).wf = false ∧ (Instr.pull 0 tPort (List.replicate 512 x)).wf = true := by
  refine ⟨?_, ?_⟩
  · show Nat.ble (List.replicate 513 x).length maxPull = false
    rw [List.length_replicate]; decide
  · show Nat.ble (List.replicate 512 x).length maxPull = true
    rw [List.length_replicate]; decide

/-- R169: SHARD and XPUT carry at most 2 MiB, down and up. -/
theorem test_wf_data (data : List Byte) (h : data.length = 2097153) :
    (Instr.shard 0 tPort 1#24 0#38 data none).wf = false ∧ (Instr.xput 0 tPort 1#24 0#38 true 0 data none).wf = false ∧
      (Instr.shardUp 0 tPort 1#24 0#38 data).wf = false := by
  refine ⟨?_, ?_, ?_⟩ <;> (show Nat.ble data.length maxData = false; rw [h]; decide)
theorem test_wf_data_taken (data : List Byte) (h : data.length = 2097152) :
    (Instr.shard 0 tPort 1#24 0#38 data none).wf = true ∧ (Instr.xput 0 tPort 1#24 0#38 true 0 data none).wf = true ∧
      (Instr.shardUp 0 tPort 1#24 0#38 data).wf = true := by
  refine ⟨?_, ?_, ?_⟩ <;> (show Nat.ble data.length maxData = true; rw [h]; decide)

/-- R341: a nanoseconds field is below one second. -/
theorem test_wf_subSecond :
    (Instr.timeMsg 0 tPort 0 1000000000#30 0 0).wf = false ∧ (Instr.timeMsg 0 tPort 0 999999999#30 0 0).wf = true := by
  decide

/-- R348: so is that of a Sync. -/
theorem test_wf_sync (p : Fin 40) (h : PtpHdr) :
    (Instr.sync p h 1#16 0 0#48 1000000000#32 0#48).wf = false ∧ (Instr.sync p h 1#16 0 0#48 999999999#32 0#48).wf = true := by
  simp [Instr.wf, subSecond]

/-- R443: a window access is aligned to 8 bytes. -/
theorem test_wf_regRequest : (Instr.regRequest 0 tPort true 0x44 0 none).wf = false ∧ (Instr.regRequest 0 tPort true 0x40 0 none).wf = true := by
  decide

/-- R344: a rack time frame has six words. -/
theorem test_wf_rackTimeFrame :
    (Instr.rackTimeFrame 1 [0, 0, 0, 0, 0]).wf = false ∧ (Instr.rackTimeFrame 1 [0, 0, 0, 0, 0, 0]).wf = true := by
  decide

/-- A queue with one command that is not well formed is not well formed. -/
theorem test_wf_queue : wfQueue [.powerLoss, .lowHalfRead ⟨0x42, false, false⟩] = false ∧ wfQueue [.powerLoss, .lowHalfRead ⟨0x40, false, false⟩] = true := by
  decide

/-! ## The queue -/

/-- No row of the opcode table has bits, so no word spells a command. -/
theorem test_no_word (n w : Nat) : decodeTableWord n w = none := rfl

/-! ## Effects -/

/-- R26, R60, R116, R85: the reset values of the tables. -/
theorem test_reset_values :
    Dev.reset.get Reg.PWR_LIMIT_envelope_w = 750 ∧ Dev.reset.get Reg.PWR_LIMIT_single_w = 410 ∧
      Dev.reset.get (Reg.SRM_RESERVE_c_sram_mib 0) = 512 ∧ Dev.reset.get Reg.BOOT_STATUS_stage = 1 := by
  decide

/-- R55: a feed that is returning goes back to absent below the threshold; an absent feed returns above it. -/
theorem test_feed_below : after (.feedBelowThreshold .a) ⟨Dev.reset.put (feedState .a) 2, []⟩ (feedState .a) = some 0 := by
  decide
theorem test_feed_above : after (.feedAboveThreshold .b) ⟨Dev.reset.put (feedState .b) 0, []⟩ (feedState .b) = some 2 := by
  decide

/-- R463: SETDASA at the static address 0x4C gives the dynamic address; at another address it does nothing. -/
theorem test_setdasa : (runAll [.setdasa 0x4C 0x12] State.reset).map (fun t => t.dev.i3c) = some (some 0x12) := by
  decide
theorem test_setdasa_other : (runAll [.setdasa 0x4D 0x12] State.reset).map (fun t => t.dev.i3c) = some none := by
  decide

/-! ## Witnesses of the statements about a whole step -/

/-- A state with a byte in each memory and a well-formed command that waits. -/
abbrev tHeld : State :=
  ⟨{ Dev.reset with sram := [⟨5, 1⟩], lpd := [⟨7, 2⟩, ⟨9, 3⟩], ctxMem := [⟨4, 4⟩] }, [.feedBelowThreshold .a]⟩

theorem test_witness_IdleStepRunsClocks : ∃ s : State, s.pending = [] := ⟨State.reset, rfl⟩
theorem test_witness_MemoryReadsBackWhatWasWritten : ∃ m : List Host.Cell, Memory.wf m = true ∧ m ≠ [] := ⟨[⟨5, 1⟩, ⟨7, 2⟩], by decide⟩
theorem test_witness_QueueStaysWellFormed : ∃ s s' : State, s.queueWf = true ∧ step s = .next s' :=
  ⟨tHeld, _, by decide, rfl⟩
theorem test_witness_MemoriesStayCanonical : ∃ s s' : State, s.dev.memWf = true ∧ step s = .next s' :=
  ⟨tHeld, _, by decide, rfl⟩
theorem test_witness_WhatLeftTheBlockStaysSent : ∃ s s' : State, step s = .next s' := ⟨tHeld, _, rfl⟩
theorem test_witness_FreeValuesAreNeverReused : ∃ s s' : State, step s = .next s' := ⟨tHeld, _, rfl⟩
theorem test_witness_RegistersStayCanonical : ∃ s s' : State, s.dev.regsWf = true ∧ step s = .next s' :=
  ⟨⟨Dev.reset.put (feedState .a) 2, [.feedBelowThreshold .a]⟩, _, by decide, rfl⟩

end Sys2Proof.Tests.Slice0
end

