-- ==== Sys2Proof/Tests/Witnesses.lean ====
section
/-! SUPPORT. For every statement with hypotheses, a concrete state and operands that meet each clause. -/

namespace Sys2Proof.Tests

open Sys2Proof Sys2Proof.Machine

/-- A state with nothing waiting. -/
abbrev st (d : Dev) : State := ⟨d, []⟩

/-- A context of class G that runs, by which the witnesses submit. -/
abbrev wCtx : Dev := Dev.reset.setCtx 3 { Ctx.reset with state := .enabled, cls := 2, threads := 4, mask := 1, log2n := 6 }

/-- A thread of that context that issues a descriptor, its page resident. -/
abbrev wThread (x : Desc) : Dev :=
  { (wCtx.setThread 32 { Thread.reset with
        state := .issuing, cls := 2, ctx := 3, list := [x, [0]], profs := [builtinProfile 0], stages := [0, 0, 0, 0, 0, 0, 0, 7] }).setPage
      (pageKey 3 0) ⟨.sram, 0, true, none, false, false, 1, 2⟩ with
    ctxMem := [(ctxAddr 3 0x407, 7)] }

/-- What an access to a thread's pages leaves (R92). -/
abbrev wAccess (d : Dev) (tiles : List TileRanges) : Dev := match d.access 32 tiles with | .ok e => e | _ => d

/-- A MAT of one element, a CHAIN of one stage, a RED of one element, a MOVE of 64 bytes, a WAIT, a SIGNAL (R103 to R108). -/
abbrev wMat : Desc := [2 ^ 56 + 2 ^ 55, 0, 0x100, 0x200, 2 ^ 32 + 2 ^ 16 + 1, 0, 0, 0]
abbrev wChain : Desc := [2 * 2 ^ 56 + 2 ^ 55, 0x100, 0, 0, 0x200, 0, 8 * 2 ^ 56 + 2 ^ 16 + 1, 0x400]
abbrev wRed : Desc := [3 * 2 ^ 56 + 2 ^ 55, 0, 0x100, 2 ^ 32 + 1, 0, 0, 0, 0]
abbrev wMove : Desc := [4 * 2 ^ 56 + 2 ^ 55, 0, 0x100, 64, 0, 0, 0, 0]
abbrev wWait (n : Nat) : Desc := [6 * 2 ^ 56 + 2 ^ 55, n * 2 ^ 32 + 5, 100, 0, 0, 0, 0, 0]
abbrev wSignal : Desc := [7 * 2 ^ 56 + 2 ^ 55, 2 ^ 32 + 5, 0, 0, 0, 0, 0, 0]

/-- Tray accelerator 0 in a job of this controller's own, and the job, started, whose root this controller is. -/
abbrev wAcc : AccJob := AccJob.fresh 0 16 false
abbrev wJob : JobSt :=
  { JobSt.starting 1 1 67 1 with desc := ⟨1, 0, 0, 0, 0, [536], [], [], 0⟩, accs := [536], phase := 2, gate := 1, acc := [(0, wAcc)] }

/-- A class C pair of that accelerator on thread 5 of cluster 0, whose tile is empty. -/
abbrev wTile : TileRec := ⟨0, 0, 0, 0, [0, 0, 6 * 2 ^ 52 + 2 ^ 31 + 2 ^ 22, 0, 0], .first, some 5, [], 0, 0, 0, 0, 31, 0, 0, none⟩
abbrev wCheckDesc : Desc := [5 * 2 ^ 56, 0, 0, 0, 0, 6 * 2 ^ 32 + 2 ^ 38 + 2 ^ 37 + 2 ^ 36 + 2 ^ 9 + 1, 0, 0]
abbrev wCheck (v : Int) : Thread := { Thread.reset with
  state := .issuing, idx := 1, list := [[2 ^ 56 + 2], wCheckDesc], profs := [(0, 2 ^ 62)], queue := [[.int v]] }

/-- A plan of two racks without trays, a header of this controller's own messages before a plan, and a KEYX. -/
abbrev wPlan : PlanInfo := { rack := 2, gen := 1, racks := 4, pod := 7, admitG := 0, admitX := 0, digest := 0, trays := [], globals := [] }
abbrev wOwn : FabHdr := ⟨0xFFFE#16, 0#32⟩
abbrev wKeyx : Keyx := ⟨1, 2#256, 3, 4#128, 5, 6⟩

/-- A block of one BF16 element, and a TILE of one element with it on both sides (R199, R200). -/
abbrev wBlock : Nat := 2 * 2 ^ 96 + 2 ^ 92 + 2 ^ 82
abbrev wTileBody : List Word :=
  [0, 5, BitVec.ofNat 64 (2 ^ 60 + 2 ^ 56 + 2 ^ 31 + 2 ^ 22 + 2 ^ 16 + 2 ^ 10), 1, BitVec.ofNat 64 (wBlock % 2 ^ 64),
    BitVec.ofNat 64 (wBlock / 2 ^ 64), BitVec.ofNat 64 (wBlock % 2 ^ 64), BitVec.ofNat 64 (wBlock / 2 ^ 64), 0]

/-- A tile of one element on the tap, and an agent's header. -/
abbrev wTap : TapTile := ⟨⟨5#64, 0, 0#4, 0#4, 0#4, 1, 1, 1#32, ⟨0, 0, 0⟩, ⟨0, 0, 0⟩, none, 0, none⟩, []⟩
abbrev wHdr : PortHdr := ⟨0#24, 0#32, 0#32⟩

/-- The payload of a flit of zeros. -/
abbrev wZeros : List Byte := List.replicate 240 0#8

theorem test_witness_FeedStateMachine :
    (∃ (s : State),
    s.dev.get (feedState .a) = 1 ∧ s.dev.get Reg.AON_IDLE_STATUS_state ≠ 2) ∧
    (∃ (s : State),
    s.dev.get (feedState .b) = 1 ∧ s.dev.get Reg.AON_IDLE_STATUS_state = 2) ∧
    (∃ (f : Feed) (s : State),
    s.dev.get (feedState f) = 2) ∧
    (∃ (f : Feed) (s : State),
    s.dev.get (feedState f) = 0) ∧
    (∃ (f : Feed) (s : State),
    s.dev.get (feedState f) = 2) ∧
    (∃ (f : Feed) (s : State),
    s.dev.get (feedState f) = 2 ∧ max 1 (s.dev.get Reg.PWR_FEED_CTRL_flap_limit) ≤ ((s.dev.losses f).filter fun t => decide (s.dev.nowUs ≤ t + 600000000)).length) ∧
    (∃ (s : State),
    let e := (s.dev.put (feedState .a) 1); let d := (e.coreReturns 0).wakeBy 4; s.dev.get (feedState .a) = 2 ∧ d.get (feedState .b) = 1 ∧ e.get Reg.AON_IDLE_STATUS_state ≠ 2 ∧ ((s.dev.losses .a).filter fun t => decide (s.dev.nowUs ≤ t + 600000000)).length < max 1 (s.dev.get Reg.PWR_FEED_CTRL_flap_limit)) ∧
    (∃ (f : Feed) (s : State),
    s.dev.get (feedState f) = 3) :=
  ⟨⟨st (Dev.reset), by decide⟩,
   ⟨st ((Dev.reset.put (feedState .b) 1).put Reg.AON_IDLE_STATUS_state 2), by decide⟩,
   ⟨.b, st (Dev.reset.put (feedState .b) 2), by decide⟩,
   ⟨.a, st (Dev.reset.put (feedState .a) 0), by decide⟩,
   ⟨.a, st (Dev.reset.put (feedState .a) 2), by decide⟩,
   ⟨.a, st ((Dev.reset.put (feedState .a) 2).setLosses .a [0, 0, 0, 0, 0, 0, 0, 0]), by decide⟩,
   ⟨st (Dev.reset.put (feedState .a) 2), by decide⟩,
   ⟨.b, st ((Dev.reset.put (feedState .b) 3).setLosses .b [1]), by decide⟩⟩

theorem test_witness_ContextLifecycle :
    (∃ (c : Fin 1024) (s : State),
    (s.dev.ctx c).cls ≠ 1 ∧ (s.dev.ctx c).state = .free) ∧
    (∃ (c : Fin 1024) (s : State),
    (s.dev.ctx c).cls ≠ 1 ∧ (s.dev.ctx c).state = .created) ∧
    (∃ (c : Fin 1024) (s : State),
    (s.dev.ctx c).cls ≠ 1 ∧ (s.dev.ctx c).state = .enabled) ∧
    (∃ (c : Fin 1024) (s : State),
    (s.dev.ctx c).cls ≠ 1 ∧ (s.dev.ctx c).state = .error) ∧
    (∃ (c : Fin 1024) (s : State),
    (s.dev.ctx c).cls ≠ 1 ∧ (s.dev.ctx c).state = .created) ∧
    (∃ (c : Fin 1024) (s : State),
    (s.dev.ctx c).cls ≠ 1 ∧ (s.dev.ctx c).state = .enabled) ∧
    (∃ (c : Fin 1024) (s : State),
    (s.dev.ctx c).state = .draining ∧ s.dev.threadsOf c = [] ∧ (s.dev.ctx c).drainErr = none) ∧
    (∃ (c : Fin 1024) (e : Nat) (s : State),
    (s.dev.ctx c).state = .draining ∧ s.dev.threadsOf c = [] ∧ (s.dev.ctx c).drainErr = some e) ∧
    (∃ (c : Fin 1024) (s : State),
    (s.dev.ctx c).state = .fenced) ∧
    (∃ (c : Fin 1024) (s : State),
    (s.dev.ctx c).cls = 1) :=
  ⟨⟨3, st (Dev.reset), by decide⟩,
   ⟨3, st (Dev.reset.setCtx 3 { Ctx.reset with state := .created, cls := 2 }), by decide⟩,
   ⟨3, st (Dev.reset.setCtx 3 { Ctx.reset with state := .enabled, cls := 2 }), by decide⟩,
   ⟨3, st (Dev.reset.setCtx 3 { Ctx.reset with state := .error, cls := 2, error := 4 }), by decide⟩,
   ⟨3, st (Dev.reset.setCtx 3 { Ctx.reset with state := .created, cls := 2 }), by decide⟩,
   ⟨3, st (Dev.reset.setCtx 3 { Ctx.reset with state := .enabled, cls := 2 }), by decide⟩,
   ⟨3, st (Dev.reset.setCtx 3 { Ctx.reset with state := .draining, cls := 2 }), by decide⟩,
   ⟨3, 5, st (Dev.reset.setCtx 3 { Ctx.reset with state := .draining, drainErr := some 5 }), by decide⟩,
   ⟨3, st (Dev.reset.setCtx 3 { Ctx.reset with state := .fenced, cls := 2 }), by decide⟩,
   ⟨3, st (Dev.reset.setCtx 3 { Ctx.reset with cls := 1 }), by decide⟩⟩

theorem test_witness_SubmissionAndCommands :
    (∃ (c : Fin 1024) (reg : Fin 6) (v : Word) (s : State),
    (s.dev.ctx c).cls ≠ 1 ∧ (s.dev.ctx c).state = .created ∧ reg ≠ 3) ∧
    (∃ (c : Fin 1024) (v : Word) (s : State),
    (s.dev.ctx c).cls ≠ 1 ∧ (s.dev.ctx c).state = .created ∧ bits 40 24 v.toNat + s.dev.spillOthers c ≤ s.dev.get Reg.DEV_SPILL_pages) ∧
    (∃ (c : Fin 1024) (t : BitVec 16) (s : State),
    s.dev.barsLive = true ∧ (s.dev.ctx c).state = .enabled ∧ t.toNat ≠ (s.dev.ctx c).tail ∧ (t.toNat + 65536 - (s.dev.ctx c).taken % 65536) % 65536 ≤ 2 ^ (s.dev.ctx c).log2n) ∧
    (∃ (c : Fin 1024) (t : BitVec 16) (s : State),
    s.dev.barsLive = true ∧ (s.dev.ctx c).state ≠ .enabled) ∧
    (∃ (c : Fin 1024) (t : BitVec 16) (s : State),
    s.dev.barsLive = false) ∧
    (∃ (c : Fin 1024) (cl : Fin 32) (th : Fin 256) (bs : List Nat) (s : State),
    let x := s.dev.ctx c; let at_ := x.ringBase * 4096 + x.taken % 2 ^ x.log2n * 32; let e := wordsOf bs; let d := s.dev.setCtx c { x with taken := x.taken + 1 }; let list := bits 6 58 (wd e 0) * 64; let n := bits 0 16 (wd e 1); let ls := d.fetchList c list n none; x.state = .enabled ∧ x.waiting ≠ 0 ∧ s.dev.placeable c ≠ [] ∧ s.dev.mayStart c cl th = true ∧ at_ < 2 ^ 46 ∧ s.dev.ctxFetch c at_ 32 none = some bs ∧ d.placeable c ≠ [] ∧ n ≠ 0 ∧ list + 64 * n ≤ 2 ^ 46 ∧ ls.headD [] ≠ []) ∧
    (∃ (cl : Fin 32) (th : Fin 256) (s : State),
    (s.dev.thread (threadKey cl th)).cls ≠ 0 ∧ (s.dev.thread (threadKey cl th)).state = .ready ∧ (s.dev.thread (threadKey cl th)).list.length ≤ (s.dev.thread (threadKey cl th)).idx ∧ s.dev.frozen (threadKey cl th / 512) = false) ∧
    (∃ (c : Fin 1024) (page : BitVec 25) (gen : BitVec 8) (s : State),
    s.dev.comp.fills.contains ⟨c, gen.toNat, page.toNat⟩ = true ∧ s.dev.stale ⟨c, gen.toNat, page.toNat⟩ = false) :=
  ⟨⟨3, 1, 0x1007#64, st (Dev.reset.setCtx 3 { Ctx.reset with state := .created, cls := 2 }), by decide⟩,
   ⟨3, 0#64, st (Dev.reset.setCtx 3 { Ctx.reset with state := .created, cls := 2 }), by decide⟩,
   ⟨3, 2#16, st ({ Dev.reset.setCtx 3 { Ctx.reset with state := .enabled, cls := 2, threads := 4, mask := 1, log2n := 6, tail := 1 } with boot := { Dev.reset.boot with ended := some 0 } }), by decide⟩,
   ⟨3, 1#16, st ({ Dev.reset with boot := { Dev.reset.boot with ended := some 0 } }), by decide⟩,
   ⟨3, 1#16, st Dev.reset, by decide⟩,
   ⟨3, 0, 32, (List.range 32).map fun i => if i = 8 then 1 else 0, st ({ Dev.reset.setCtx 3 { Ctx.reset with state := .enabled, cls := 2, threads := 4, mask := 1, log2n := 6, tail := 1 } with ctxMem := [(ctxAddr 3 8, 1)] }), by decide⟩,
   ⟨0, 32, st (Dev.reset.setThread 32 { Thread.reset with state := .ready, cls := 2, ctx := 3 }), by decide⟩,
   ⟨3, 0#25, 0#8, st ({ (Dev.reset.setCtx 3 { Ctx.reset with state := .enabled, gen := 0 }) with comp := { (Dev.reset.setCtx 3 { Ctx.reset with state := .enabled, gen := 0 }).comp with fills := [⟨3, 0, 0⟩] } }), by decide⟩⟩

theorem test_witness_CoresAndPreemption :
    (∃ (cl : Fin 32) (core : Fin 17) (s : State),
    core ≠ s.dev.get (Reg.CLU_CORE_MAP_spare cl) ∧ s.dev.get (Reg.CLU_CORE_MAP_spare cl) ≠ 31 ∧ (Tab.getD s.dev.comp.clusters cl Cluster.reset).switching = false ∧ bitAt core (s.dev.get (Reg.CLU_CORE_MAP_active cl)) = true) ∧
    (∃ (cl : Fin 32) (core : Fin 17) (s : State),
    s.dev.get (Reg.CLU_CORE_MAP_spare cl) = 31 ∧ bitAt core (s.dev.get (Reg.CLU_CORE_MAP_active cl)) = true) ∧
    (∃ (cl : Fin 32) (s : State),
    (Tab.getD s.dev.comp.clusters cl Cluster.reset).switching = true) ∧
    (∃ (cl : Fin 32) (th : Fin 256) (s : State),
    (s.dev.thread (threadKey cl th)).state = .issuing ∧ (s.dev.thread (threadKey cl th)).cls ≠ 0 ∧ preemptible (descKind ((s.dev.thread (threadKey cl th)).desc (s.dev.thread (threadKey cl th)).idx)) = true ∧ s.dev.frozen (threadKey cl th / 512) = false) ∧
    (∃ (cl : Fin 32) (th : Fin 256) (n : Nat) (s : State),
    let k := threadKey cl th; let t := s.dev.thread k; let per := tileEntries (MatBody.ofDesc (t.desc (t.idx - 1))).tile; t.qHeld ≠ 0 ∧ (t.qEntries ≠ 0 ∨ per ≤ s.dev.ftqFree (k / 256) t.cls) ∧ t.qLeft = 0) ∧
    (∃ (cl : Fin 32) (th : Fin 256) (n : Nat) (s : State),
    let k := threadKey cl th; let t := s.dev.thread k; let per := tileEntries (MatBody.ofDesc (t.desc (t.idx - 1))).tile; t.qHeld ≠ 0 ∧ (t.qEntries ≠ 0 ∨ per ≤ s.dev.ftqFree (k / 256) t.cls) ∧ 1 < t.qLeft) ∧
    (∃ (cl : Fin 32) (th : Fin 256) (n : Nat) (s : State),
    let k := threadKey cl th; let t := s.dev.thread k; let per := tileEntries (MatBody.ofDesc (t.desc (t.idx - 1))).tile; t.qHeld ≠ 0 ∧ (t.qEntries ≠ 0 ∨ per ≤ s.dev.ftqFree (k / 256) t.cls) ∧ t.qLeft = 1) ∧
    (∃ (cl : Fin 32) (th : Fin 256) (s : State),
    let k := threadKey cl th; let d := s.dev.resumeSaved (k / 256); let t := d.thread k; let e := d.placeThread k [d.profWords (descProfile (t.desc t.idx)), d.profWords (descProfile (t.desc (t.idx + 1)))] d.tileHold; 32 ≤ th.val ∧ d.mayIssue k = true ∧ d.frozen (k / 512) = false ∧ d.enginesOn k = true ∧ (t.begun = true ∨ (1 ≤ descKind (t.desc t.idx) ∧ descKind (t.desc t.idx) ≤ 7 ∧ descKind (t.desc t.idx) ≠ 5 ∧ descClass (t.desc t.idx) = t.cls))) ∧
    (∃ (cl : Fin 32) (th : Fin 256) (s : State),
    let k := threadKey cl th; let d := s.dev.resumeSaved (k / 256); let t := d.thread k; 32 ≤ th.val ∧ d.mayIssue k = true ∧ d.frozen (k / 512) = false ∧ d.enginesOn k = true ∧ t.begun = false ∧ 7 < descKind (t.desc t.idx)) ∧
    (∃ (cl : Fin 32) (th : Fin 256) (s : State),
    let k := threadKey cl th; let d := s.dev.resumeSaved (k / 256); let t := d.thread k; 32 ≤ th.val ∧ d.mayIssue k = true ∧ d.frozen (k / 512) = false ∧ d.enginesOn k = true ∧ t.begun = false ∧ descKind (t.desc t.idx) = 4 ∧ descClass (t.desc t.idx) ≠ t.cls) :=
  ⟨⟨5, 3, st (Dev.reset), by decide⟩,
   ⟨31, 0, st (Dev.reset.put (Reg.CLU_CORE_MAP_spare 31) 31), by decide⟩,
   ⟨2, st ({ Dev.reset with comp := { Dev.reset.comp with clusters := [(2, { Cluster.reset with switching := true })] } }), by decide⟩,
   ⟨0, 32, st (wThread wMat), by decide⟩,
   ⟨0, 40, 7, st (Dev.reset.setThread 40 { Thread.reset with state := .issuing, cls := 2, qHeld := 2, qEntries := 1 }), by decide⟩,
   ⟨0, 40, 7, st (Dev.reset.setThread 40 { Thread.reset with state := .issuing, cls := 2, qHeld := 2, qEntries := 1, qLeft := 2 }), by decide⟩,
   ⟨0, 40, 7, st (Dev.reset.setThread 40 { Thread.reset with state := .issuing, cls := 2, qHeld := 2, qEntries := 1, qLeft := 1 }), by decide⟩,
   ⟨0, 32, st ((wThread wMat).setThread 32 { (wThread wMat).thread 32 with state := .ready }), by decide⟩,
   ⟨0, 32, st ((wThread [8 * 2 ^ 56 + 2 ^ 55]).setThread 32 { (wThread [8 * 2 ^ 56 + 2 ^ 55]).thread 32 with state := .ready }), by decide⟩,
   ⟨0, 32, st ((wThread [4 * 2 ^ 56 + 2 ^ 54]).setThread 32 { (wThread [4 * 2 ^ 56 + 2 ^ 54]).thread 32 with state := .ready }), by decide⟩⟩

theorem test_witness_EngineDescriptors :
    (∃ (cl : Fin 32) (th : Fin 256) (n : BitVec 32) (w : List WrongElem) (x : Desc) (s : State) (d : Dev),
    let k := threadKey cl th; let p := (s.dev.thread k).profile; let b := MatBody.ofDesc x; 32 ≤ th.val ∧ s.dev.current k 1 = some x ∧ b.ftqOut = false ∧ matError p b = none ∧ 0 < s.dev.coresFree (k / 256) ∧ s.dev.access k (matTileRanges p b) = .ok d) ∧
    (∃ (cl : Fin 32) (th : Fin 256) (n : BitVec 32) (w : List WrongElem) (x : Desc) (s : State),
    let k := threadKey cl th; let b := MatBody.ofDesc x; 32 ≤ th.val ∧ s.dev.current k 1 = some x ∧ b.ftqOut = false ∧ matError (s.dev.thread k).profile b = none ∧ s.dev.coresFree (k / 256) = 0) ∧
    (∃ (cl : Fin 32) (th : Fin 256) (n : BitVec 32) (w : List WrongElem) (x : Desc) (e : Nat) (s : State),
    let k := threadKey cl th; let b := MatBody.ofDesc x; 32 ≤ th.val ∧ s.dev.current k 1 = some x ∧ b.ftqOut = false ∧ matError (s.dev.thread k).profile b = some e) ∧
    (∃ (cl : Fin 32) (th : Fin 256) (n : Nat) (x : Desc) (s : State) (e : Dev),
    let k := threadKey cl th; let t := s.dev.thread k; let b := ChainBody.ofDesc x; s.dev.current k 2 = some x ∧ b.ftqIn = false ∧ chainIssueError t t.idx t.mdims = none ∧ t.qHeld = 0 ∧ s.dev.access k (([(b.stages, 8 * b.count)], []) :: chainTileRanges b (chainSide b (t.desc (t.idx - 1)))) = .ok e) ∧
    (∃ (cl : Fin 32) (th : Fin 256) (n : Nat) (x : Desc) (s : State) (d : Dev),
    let k := threadKey cl th; let p := (s.dev.thread k).profile; let b := RedBody.ofDesc x; s.dev.current k 3 = some x ∧ redError p b = none ∧ s.dev.access k (redTileRanges b) = .ok d) ∧
    (∃ (cl : Fin 32) (th : Fin 256) (n : Nat) (dma : Dma) (x : Desc) (s : State) (d : Dev),
    let k := threadKey cl th; let t := s.dev.thread k; let b := MoveBody.ofDesc x; let ss := moveSegments b; s.dev.current k 4 = some x ∧ moveError t.cls b = none ∧ t.why = .none ∧ (moveStop (s.dev.ctx t.ctx).winPages dma.isSome b ss).2 = none ∧ (moveStop (s.dev.ctx t.ctx).winPages dma.isSome b ss).1 = ss ∧ s.dev.access k (segmentTiles b ss) = .ok d ∧ b.srcPod = false ∧ b.dstPod = false ∧ ss.any (fromHost b) = false ∧ b.prefetch = false ∧ d.moveOverlap b = false ∧ (d.thread k).replay = false) ∧
    (∃ (cl : Fin 32) (th : Fin 256) (n : Nat) (dma : Dma) (x : Desc) (g : Nat) (s : State),
    let k := threadKey cl th; let b := MoveBody.ofDesc x; s.dev.current k 4 = some x ∧ moveError (s.dev.thread k).cls b = none ∧ (s.dev.thread k).why = .podWrite g none) :=
  ⟨⟨0, 32, 10#32, [], wMat, st (wThread wMat), wAccess (wThread wMat) (matTileRanges ((wThread wMat).thread 32).profile (MatBody.ofDesc wMat)), by decide⟩,
   ⟨0, 32, 10#32, [], wMat, st ((wThread wMat).setThread 40 { Thread.reset with state := .issuing, cls := 2, qHeld := 16 }), by decide⟩,
   ⟨0, 32, 10#32, [], [2 ^ 56 + 2 ^ 55], 7, st (wThread [2 ^ 56 + 2 ^ 55]), by decide⟩,
   ⟨0, 32, 10, wChain, st (wThread wChain), wAccess (wThread wChain) (([((ChainBody.ofDesc wChain).stages, 8 * (ChainBody.ofDesc wChain).count)], []) :: chainTileRanges (ChainBody.ofDesc wChain) (chainSide (ChainBody.ofDesc wChain) wChain)), by decide⟩,
   ⟨0, 32, 10, wRed, st (wThread wRed), wAccess (wThread wRed) (redTileRanges (RedBody.ofDesc wRed)), by decide⟩,
   ⟨0, 32, 10, none, wMove, st (wThread wMove), wAccess (wThread wMove) (segmentTiles (MoveBody.ofDesc wMove) (moveSegments (MoveBody.ofDesc wMove))), by decide⟩,
   ⟨0, 32, 10, none, wMove, 3, st ((wThread wMove).setThread 32 { (wThread wMove).thread 32 with why := .podWrite 3 none }), by decide⟩⟩

theorem test_witness_WaitAndSignal :
    (∃ (cl : Fin 32) (th : Fin 256) (x : Desc) (s : State),
    s.dev.current (threadKey cl th) 6 = some x ∧ bits 8 2 (wd x 1) ≤ 1 ∧ s.dev.waitHolds (s.dev.thread (threadKey cl th)).ctx x = true) ∧
    (∃ (cl : Fin 32) (th : Fin 256) (x : Desc) (s : State),
    s.dev.current (threadKey cl th) 6 = some x ∧ bits 8 2 (wd x 1) ≤ 1 ∧ s.dev.waitHolds (s.dev.thread (threadKey cl th)).ctx x = false ∧ (s.dev.thread (threadKey cl th)).replay = false) ∧
    (∃ (cl : Fin 32) (th : Fin 256) (s : State),
    let t := s.dev.thread (threadKey cl th); t.state = .blocked ∧ t.why = .wait ∧ bits 0 32 (wd (t.desc t.idx) 2) ≠ 0 ∧ s.dev.waitHolds t.ctx (t.desc t.idx) = false) ∧
    (∃ (cl : Fin 32) (th : Fin 256) (x : Desc) (s : State),
    let k := threadKey cl th; s.dev.current k 7 = some x ∧ bits 8 2 (wd x 1) ≤ 1 ∧ (s.dev.thread k).replay = false) ∧
    (∃ (cl : Fin 32) (th : Fin 256) (x : Desc) (s : State),
    s.dev.current (threadKey cl th) 7 = some x ∧ 1 < bits 8 2 (wd x 1)) :=
  ⟨⟨0, 32, wWait 0, st (wThread (wWait 0)), by decide⟩,
   ⟨0, 32, wWait 2, st (wThread (wWait 2)), by decide⟩,
   ⟨0, 32, st ((wThread (wWait 2)).setThread 32 { (wThread (wWait 2)).thread 32 with state := .blocked, why := .wait }), by decide⟩,
   ⟨0, 32, wSignal, st (wThread wSignal), by decide⟩,
   ⟨0, 32, [7 * 2 ^ 56, 2 ^ 9], st (wThread [7 * 2 ^ 56, 2 ^ 9]), by decide⟩⟩

theorem test_witness_CoefficientAndProfileWindows :
    (∃ (cl : Fin 32) (v : Word) (s : State),
    let set := s.dev.get (Reg.VEC_COEF_SEL_set cl); let i := s.dev.get (Reg.VEC_COEF_SEL_index cl); s.dev.pageThere (vecPage cl) = true ∧ s.dev.pageInReset (vecPage cl) = false ∧ 6 ≤ set ∧ bitAt set s.dev.coefValid = false) ∧
    (∃ (cl : Fin 32) (v : Word) (s : State),
    s.dev.pageThere (vecPage cl) = true ∧ s.dev.pageInReset (vecPage cl) = false ∧ s.dev.get (Reg.VEC_COEF_SEL_set cl) < 6) ∧
    (∃ (cl : Fin 32) (s : State),
    s.dev.pageThere (vecPage cl) = true ∧ s.dev.pageInReset (vecPage cl) = false ∧ 6 ≤ s.dev.get (Reg.VEC_COEF_SEL_set cl)) ∧
    (∃ (cl : Fin 32) (v : Word) (s : State),
    s.dev.pageInReset (vecPage cl) = true) ∧
    (∃ (cl : Fin 32) (s : State),
    s.dev.pageThere (vecPage cl) = true ∧ s.dev.pageInReset (vecPage cl) = false ∧ 6 ≤ s.dev.get (Reg.VEC_COEF_SEL_set cl) ∧ s.dev.namesSet (s.dev.get (Reg.VEC_COEF_SEL_set cl)) = false) ∧
    (∃ (set : Fin 8) (s : State),
    let w := s.dev.comp.invalidating.filter fun e => e / 32 == set.val; w ≠ [] ∧ s.dev.namesSet set = false) ∧
    (∃ (v : Word) (w0 : Nat) (s : State),
    128 ≤ s.dev.get Reg.DEV_PROF_SEL_entry ∧ s.dev.comp.staged = some w0 ∧ profileOutOfRange w0 v.toNat = false) ∧
    (∃ (v : Word) (s : State),
    s.dev.get Reg.DEV_PROF_SEL_entry < 128) :=
  ⟨⟨2, 9#64, st (Dev.reset.put (Reg.VEC_COEF_SEL_set 2) 6), by decide⟩,
   ⟨2, 9#64, st (Dev.reset.put (Reg.VEC_COEF_SEL_set 2) 5), by decide⟩,
   ⟨31, st (Dev.reset.put (Reg.VEC_COEF_SEL_set 31) 7), by decide⟩,
   ⟨2, 9#64, st (Dev.reset.put (Reg.PAGE_STATUS_reset_active (vecPage 2)) 1), by decide⟩,
   ⟨0, st ((Dev.reset.put (Reg.VEC_COEF_SEL_set 0) 6).setBitOf (Reg.VEC_COEF_STATUS_valid 0) 6), by decide⟩,
   ⟨7, st ({ Dev.reset with comp := { Dev.reset.comp with invalidating := [7 * 32 + 3] } }), by decide⟩,
   ⟨0x4000000000000001#64, 5 * 2 ^ 32, st ({ Dev.reset.put Reg.DEV_PROF_SEL_entry 130 with comp := { Dev.reset.comp with staged := some (5 * 2 ^ 32) } }), by decide⟩,
   ⟨0#64, st (Dev.reset.put Reg.DEV_PROF_SEL_entry 127), by decide⟩⟩

theorem test_witness_PartitionResetsAndEscalation :
    (∃ (p : Fin 16) (s : State),
    s.dev.partState p = 1 ∧ s.dev.get (Reg.PRT_CTRL_auto_reset p) ≠ 0 ∧ s.dev.faulted p = true ∧ s.dev.frozen p = false ∧ ((s.dev.part p).counted.filter fun t => decide (secOf s.dev.time < t + s.dev.get (Reg.PRT_CTRL_window_s p))).length + 1 < s.dev.get (Reg.PRT_CTRL_limit p)) ∧
    (∃ (p : Fin 16) (s : State),
    s.dev.partState p = 1 ∧ s.dev.get (Reg.PRT_CTRL_auto_reset p) ≠ 0 ∧ s.dev.faulted p = true ∧ s.dev.frozen p = false ∧ s.dev.get (Reg.PRT_CTRL_limit p) ≤ ((s.dev.part p).counted.filter fun t => decide (secOf s.dev.time < t + s.dev.get (Reg.PRT_CTRL_window_s p))).length + 1) ∧
    (∃ (p : Fin 16) (s : State),
    s.dev.partState p = 1 ∧ s.dev.get (Reg.PRT_CTRL_auto_reset p) ≠ 0 ∧ s.dev.faulted p = false) ∧
    (∃ (p : Fin 16) (s : State),
    s.dev.partState p ≠ 1) ∧
    (∃ (t : Fin 2) (s : State),
    ((List.range 8).any fun i => s.dev.partState (8 * (1 - t) + i) == 0) = true) ∧
    (∃ (s : State),
    s.dev.twoOut = true) ∧
    (∃ (p : Fin 16) (f : Findings) (r : DdrRate) (s : State),
    let d := (partResetPages p).foldl (fun d pg => d.resetPage pg (partKeeps p)) s.dev; let d := (partPages p).foldl (fun d pg => d.put (Reg.PAGE_STATUS_reset_active pg) 0) d; let d := (partPages p).foldl (fun d pg => { d with clearing := Tab.erase pg d.clearing }) d; let d := (d.applyFindings p f).ddrTrained p r; s.dev.partState p = 2 ∧ (s.dev.part p).hangReset = false ∧ d.partState p ≠ 4) :=
  ⟨⟨3, st (((Dev.reset.put (Reg.PRT_STATUS_state 3) 1).put (Reg.PRT_CTRL_auto_reset 3) 1).raise (Src.PRT_engine_hang 3)), by decide⟩,
   ⟨3, st ((((Dev.reset.put (Reg.PRT_STATUS_state 3) 1).put (Reg.PRT_CTRL_auto_reset 3) 1).put (Reg.PRT_CTRL_limit 3) 1).raise (Src.PRT_engine_hang 3)), by decide⟩,
   ⟨3, st ((Dev.reset.put (Reg.PRT_STATUS_state 3) 1).put (Reg.PRT_CTRL_auto_reset 3) 1), by decide⟩,
   ⟨3, st (Dev.reset), by decide⟩,
   ⟨1, st (Dev.reset), by decide⟩,
   ⟨st ({ Dev.reset with twoOut := true }), by decide⟩,
   ⟨3, ⟨0, 0, false, false, false⟩, .r3733, st (Dev.reset.put (Reg.PRT_STATUS_state 3) 2), by decide⟩⟩

theorem test_witness_HangsAndTheSearch :
    (∃ (p : Fin 16) (half : Fin 2) (unit : Fin 17) (e : Engine) (s : State),
    s.dev.frozen p = false ∧ s.dev.partState p = 0 ∧ s.dev.engineBusy p (2 * p + half) e = true) ∧
    (∃ (p : Fin 16) (half : Fin 2) (unit : Fin 17) (e : Engine) (i : Nat) (s : State),
    s.dev.frozen p = false ∧ s.dev.partState p = 3 ∧ ((s.dev.part p).search.findIdx? fun x => x.guilty.isNone) = some i) ∧
    (∃ (p : Fin 16) (i : Nat) (s : State),
    s.dev.partState p = 3 ∧ s.dev.suspectDone p = true ∧ ((s.dev.part p).search.findIdx? fun x => x.guilty.isNone) = some i ∧ ((s.dev.part p).search.mapIdx fun j x => if j = i then { x with guilty := some false } else x).all (fun x => x.guilty.isSome) = true) ∧
    (∃ (p : Fin 16) (i : Nat) (s : State),
    s.dev.partState p = 3 ∧ ((s.dev.part p).search.findIdx? fun x => x.guilty.isNone) = some i ∧ ((s.dev.part p).search.mapIdx fun j x => if j = i then { x with guilty := some false } else x).all (fun x => x.guilty.isSome) = false) ∧
    (∃ (p : Fin 16) (s : State),
    s.dev.partState p ≠ 3) :=
  ⟨⟨0, 0, 2, .core, st ((wThread wMat).put (Reg.PRT_STATUS_state 0) 0), by decide⟩,
   ⟨3, 0, 2, .core, 0, st ((Dev.reset.put (Reg.PRT_STATUS_state 3) 3).setPart 3 { PartSt.reset with search := [⟨2, 7, 0, [], none⟩] }), by decide⟩,
   ⟨3, 0, st ((Dev.reset.put (Reg.PRT_STATUS_state 3) 3).setPart 3 { PartSt.reset with search := [⟨2, 7, 0, [], none⟩] }), by decide⟩,
   ⟨3, 0, st ((Dev.reset.put (Reg.PRT_STATUS_state 3) 3).setPart 3 { PartSt.reset with search := [⟨2, 7, 0, [], none⟩, ⟨2, 8, 0, [], none⟩] }), by decide⟩,
   ⟨3, st (Dev.reset), by decide⟩⟩

theorem test_witness_AntiRollback :
    (∃ (f : ObjInfo) (s : State),
    s.dev.boot.fw = some f ∧ s.dev.stage = 0xA ∧ s.dev.get Reg.SEC_FUSE_rollback < f.svn) ∧
    (∃ (f : ObjInfo) (s : State),
    s.dev.boot.fw = some f ∧ f.svn ≤ s.dev.get Reg.SEC_FUSE_rollback) ∧
    (∃ (s : State),
    s.dev.stage ≠ 0xA) ∧
    (∃ (f : FetchSt) (s : State),
    s.dev.stage = 2 ∧ s.dev.boot.fetch = some f ∧ f.checking = true ∧ s.dev.checkImage 0x3150464B (f.bytes.map fun b => BitVec.ofNat 8 b) ≠ 0) ∧
    (∃ (magic : Nat) (bs : List Byte) (d : Dev),
    field bs 8 4 < d.get Reg.SEC_FUSE_rollback) :=
  ⟨⟨⟨0, 5, 0, 0, []⟩, st (let d := { Dev.reset with boot := { Dev.reset.boot with fw := some ⟨0, 5, 0, 0, []⟩ } }; d.put Reg.BOOT_STATUS_stage 0xA), by decide⟩,
   ⟨⟨0, 0, 0, 0, []⟩, st (let d := { Dev.reset with boot := { Dev.reset.boot with fw := some ⟨0, 0, 0, 0, []⟩ } }; d.put Reg.BOOT_STATUS_stage 0xA), by decide⟩,
   ⟨st (Dev.reset), by decide⟩,
   ⟨⟨1, 0, 64, true, [1], 0⟩, st (let d := { Dev.reset with boot := { Dev.reset.boot with fetch := some ⟨1, 0, 64, true, [1], 0⟩ } }; d.put Reg.BOOT_STATUS_stage 2), by decide⟩,
   ⟨0, [], Dev.reset.put Reg.SEC_FUSE_rollback 1, by decide⟩⟩

set_option maxRecDepth 20000 in
theorem test_witness_LoaderPage :
    (∃ (obj : BitVec 4) (s : State),
    let d := ((s.dev.put Reg.FWL_CTRL_obj obj.toNat).put Reg.FWL_STATUS_obj obj.toNat).put Reg.FWL_STATUS_bytes 0; s.dev.get Reg.FWL_STATUS_busy = 0 ∧ s.dev.get (Reg.PAGE_STATUS_enabled 0x003) ≠ 0 ∧ obj = 1 ∧ d.accepts 1 = true ∧ d.get Reg.FWL_LEN_len ≠ 0 ∧ d.get Reg.FWL_LEN_len ≤ 48 * 2 ^ 20 ∧ (d.put Reg.BOOT_STATUS_attempts (Nat.min 255 (d.get Reg.BOOT_STATUS_attempts + 1))).get Reg.FWL_ADDR_addr = d.get Reg.FWL_ADDR_addr) ∧
    (∃ (obj : BitVec 4) (s : State),
    let d := ((s.dev.put Reg.FWL_CTRL_obj obj.toNat).put Reg.FWL_STATUS_obj obj.toNat).put Reg.FWL_STATUS_bytes 0; s.dev.get Reg.FWL_STATUS_busy = 0 ∧ s.dev.get (Reg.PAGE_STATUS_enabled 0x003) ≠ 0 ∧ d.accepts obj.toNat = false) ∧
    (∃ (obj : BitVec 4) (s : State),
    s.dev.get Reg.FWL_STATUS_busy ≠ 0) ∧
    (∃ (s : State),
    s.dev.get Reg.FWL_STATUS_busy ≠ 0 ∧ s.dev.stage ≠ 2) ∧
    (∃ (s : State),
    s.dev.get Reg.FWL_STATUS_busy = 0) ∧
    (∃ (f : FetchSt) (s : State),
    s.dev.boot.fetch = some f ∧ f.checking = false) ∧
    (∃ (f : FetchSt) (bs : List Byte) (s : State),
    s.dev.boot.fetch = some f ∧ f.checking = false ∧ f.obj = 1) ∧
    (∃ (f : FetchSt) (bs : List Byte) (s : State),
    let d := (s.dev.dmaRead (some bs)).put Reg.FWL_STATUS_bytes (bs.take f.len).length; s.dev.boot.fetch = some f ∧ f.checking = false ∧ f.obj = 2) ∧
    (∃ (f : FetchSt) (bs : List Byte) (s : State),
    let d := (s.dev.dmaRead (some bs)).put Reg.FWL_STATUS_bytes (bs.take f.len).length; s.dev.boot.fetch = some f ∧ f.checking = false ∧ f.obj = 3 ∧ 0x280 ≤ (bs.take f.len).length ∧ field (bs.take f.len) 0x18 4 ≤ (bs.take f.len).length) ∧
    (∃ (f : FetchSt) (s : State),
    let bs : List Byte := f.bytes.map fun b => BitVec.ofNat 8 b; s.dev.stage = 2 ∧ s.dev.boot.fetch = some f ∧ f.checking = true) :=
  ⟨⟨1#4, st (((Dev.reset.put Reg.BOOT_STATUS_stage 1).put Reg.FWL_LEN_len 4096).put Reg.FWL_ADDR_addr 64), by decide⟩,
   ⟨3#4, st (Dev.reset.put Reg.BOOT_STATUS_stage 1), by decide⟩,
   ⟨1#4, st (Dev.reset.put Reg.FWL_STATUS_busy 1), by decide⟩,
   ⟨st ((Dev.reset.put Reg.FWL_STATUS_busy 1).put Reg.BOOT_STATUS_stage 1), by decide⟩,
   ⟨st (Dev.reset), by decide⟩,
   ⟨⟨1, 0, 64, false, [], 0⟩, st ({ Dev.reset with boot := { Dev.reset.boot with fetch := some ⟨1, 0, 64, false, [], 0⟩ } }), by decide⟩,
   ⟨⟨1, 0, 64, false, [], 0⟩, [1#8, 2#8], st (let d := { Dev.reset with boot := { Dev.reset.boot with fetch := some ⟨1, 0, 64, false, [], 0⟩ } }; d.put Reg.BOOT_STATUS_stage 1), by decide⟩,
   ⟨⟨2, 0, 64, false, [], 0⟩, [1#8, 2#8], st (let d := { Dev.reset with boot := { Dev.reset.boot with fetch := some ⟨2, 0, 64, false, [], 0⟩ } }; d.put Reg.BOOT_STATUS_stage 3), by decide⟩,
   ⟨⟨3, 0, 1024, false, [], 0⟩, List.replicate 640 0#8, st (let d := { Dev.reset with boot := { Dev.reset.boot with fetch := some ⟨3, 0, 1024, false, [], 0⟩ } }; d.put Reg.BOOT_STATUS_stage 3), by decide⟩,
   ⟨⟨1, 0, 64, true, [1], 0⟩, st (let d := { Dev.reset with boot := { Dev.reset.boot with fetch := some ⟨1, 0, 64, true, [1], 0⟩ } }; d.put Reg.BOOT_STATUS_stage 2), by decide⟩⟩

theorem test_witness_PowerUpSequence :
    (∃ (s : State),
    s.dev.stage = 3 ∧ s.dev.boot.fwRunning = true) ∧
    (∃ (s : State),
    s.dev.stage = 3 ∧ s.dev.boot.fwRunning = false) ∧
    (∃ (s : State),
    s.dev.stage = 3 ∧ s.dev.boot.fwRunning = true) ∧
    (∃ (fs : List Findings) (lanes : Word) (hub ok : Bool) (vf : List (List (Nat × Int × Bool))) (p0 : BitVec 32) (s : State),
    let d : Dev := (fs.take 16).zipIdx.foldl (fun (d : Dev) f => d.applyFindings f.2 f.1) s.dev; let d : Dev := (vf.take 16).zipIdx.foldl (fun (d : Dev) t => (d.setMon t.2 { d.mon t.2 with table := t.1.map fun e => (⟨e.1, e.2.1, e.2.2⟩ : VfPoint) }).put (Reg.MON_STATUS_run_pt t.2) ((d.setMon t.2 { d.mon t.2 with table := t.1.map fun e => (⟨e.1, e.2.1, e.2.2⟩ : VfPoint) }).planPoint t.2)) d; let d : Dev := ({ d with boot := { d.boot with laneFail := lanes.toNat } }).put Reg.DEV_NRG_P0_mw p0.toNat; s.dev.stage = 4 ∧ d.boot.pack3 = none) ∧
    (∃ (p : Fin 16) (r : DdrRate) (s : State),
    let d := (if r = .failed then s.dev.bootOut p else s.dev.ddrTrained p r).loseLpd p; s.dev.stage = 5 ∧ s.dev.partState p ≠ 4 ∧ s.dev.get Reg.BOOT_STATUS_wake = 0) ∧
    (∃ (pod : Bool) (s : State),
    s.dev.stage = 8) ∧
    (∃ (s : State),
    s.dev.stage = 8) ∧
    (∃ (s : State),
    s.dev.stage = 8) ∧
    (∃ (t : Nat) (s : State),
    s.dev.get Reg.BOOT_STATUS_held ≠ 0 ∧ s.dev.boot.heldAt = some t) ∧
    (∃ (gen width : Fin 3) (s : State),
    s.dev.boot.perst = false ∧ s.dev.stage ≠ 1) ∧
    (∃ (gen width : Fin 3) (s : State),
    s.dev.boot.perst = true) ∧
    (∃ (s : State),
    s.dev.pwr.powered.contains .hub = true) ∧
    (∃ (s : State),
    s.dev.pwr.powered.contains .hub = false) ∧
    (∃ (s : State),
    s.dev.pwr.powered.contains .hub = true) ∧
    (∃ (s : State),
    s.dev.pwr.powered.contains .hub = false) :=
  ⟨⟨st (let d := Dev.reset.put Reg.BOOT_STATUS_stage 3; { d with boot := { d.boot with fwRunning := true } }), by decide⟩,
   ⟨st (Dev.reset.put Reg.BOOT_STATUS_stage 3), by decide⟩,
   ⟨st (let d := Dev.reset.put Reg.BOOT_STATUS_stage 3; { d with boot := { d.boot with fwRunning := true } }), by decide⟩,
   ⟨[⟨1, 0, false, false, false⟩], 1#64, false, true, [], 9#32, st (Dev.reset.put Reg.BOOT_STATUS_stage 4), by decide⟩,
   ⟨4, .r4266, st (Dev.reset.put Reg.BOOT_STATUS_stage 5), by decide⟩,
   ⟨false, st (Dev.reset.put Reg.BOOT_STATUS_stage 8), by decide⟩,
   ⟨st (Dev.reset.put Reg.BOOT_STATUS_stage 8), by decide⟩,
   ⟨st (Dev.reset.put Reg.BOOT_STATUS_stage 8), by decide⟩,
   ⟨0, st (let d := Dev.reset.put Reg.BOOT_STATUS_held 1; { d with boot := { d.boot with heldAt := some 0, heldFrom := 4 } }), by decide⟩,
   ⟨1, 2, st (Dev.reset.put Reg.BOOT_STATUS_stage 4), by decide⟩,
   ⟨2, 2, st ({ Dev.reset with boot := { Dev.reset.boot with perst := true } }), by decide⟩,
   ⟨st Dev.reset, by decide⟩,
   ⟨st ({ Dev.reset with pwr := { Dev.reset.pwr with powered := [] } }), by decide⟩,
   ⟨st Dev.reset, by decide⟩,
   ⟨st ({ Dev.reset with pwr := { Dev.reset.pwr with powered := [] } }), by decide⟩⟩

theorem test_witness_Attestation :
    (∃ (s : State),
    s.dev.get Reg.SEC_ATT_STATUS_busy = 0) ∧
    (∃ (s : State),
    s.dev.get Reg.SEC_ATT_STATUS_busy ≠ 0) ∧
    (∃ (s : State),
    s.dev.get Reg.SEC_ATT_STATUS_busy ≠ 0) :=
  ⟨⟨st (Dev.reset), by decide⟩,
   ⟨st (Dev.reset.put Reg.SEC_ATT_STATUS_busy 1), by decide⟩,
   ⟨st (Dev.reset.put Reg.SEC_ATT_STATUS_busy 1), by decide⟩⟩

theorem test_witness_SingleFeedAndLimits :
    (∃ (mw avg hold : BitVec 32) (down : List (Fin 11)) (rate : Fin 17) (c a g agr stp : Activity) (s : State),
    let d := (s.dev.put Reg.PWR_PKG_POWER_mw mw.toNat).energy mw.toNat c a g agr stp; d.get Reg.PWR_FEED_STATUS_single_feed ≠ 0 ∧ d.pwr.hot = false ∧ 1000 * d.get Reg.PWR_LIMIT_single_w < mw.toNat) ∧
    (∃ (mw avg hold : BitVec 32) (down : List (Fin 11)) (rate : Fin 17) (c a g agr stp : Activity) (s : State),
    let d := (s.dev.put Reg.PWR_PKG_POWER_mw mw.toNat).energy mw.toNat c a g agr stp; d.get Reg.PWR_FEED_STATUS_single_feed ≠ 0 ∧ d.pwr.hot = false ∧ mw.toNat * 100 < 1000 * d.get Reg.PWR_LIMIT_single_w * 95 ∧ d.pwr.classA < 16) ∧
    (∃ (s : State),
    s.dev.get Reg.PWR_FEED_STATUS_single_feed ≠ 0 ∧ s.dev.get Reg.PWR_LIMIT_single_w * 1000 < s.dev.get Reg.PWR_PKG_POWER_mw) ∧
    (∃ (ida idb : List Byte) (slot : BitVec 5) (s : State),
    s.dev.pwr.powered = [] ∧ feedId (some ida) ≠ 0 ∧ feedId (some idb) ≠ 0 ∧ feedId (some ida) ≠ feedId (some idb)) ∧
    (∃ (p : Fin 16) (s : State),
    s.dev.pwr.powered ≠ [] ∧ s.dev.pwr.powered.contains (Domain.part p) = false ∧ s.dev.partState p ≠ 4 ∧ s.dev.boot.fw.isSome = true ∧ ((allDomains.filter fun y => decide (domainOrder y < 6)).all fun y => s.dev.pwr.powered.contains y || s.dev.domainOff y) = true) ∧
    (∃ (n : Fin 2) (s : State),
    s.dev.pwr.powered.contains Domain.aon = true ∧ s.dev.pwr.powered.contains Domain.hub = true ∧ s.dev.pwr.powered.contains (Domain.mgmt n) = false ∧ s.dev.domainOff (Domain.mgmt n) = false ∧ s.dev.boot.fw.isSome = true ∧ s.dev.core n = 0) ∧
    (∃ (s : State),
    s.dev.pwr.pollFailA = 2) ∧
    (∃ (s : State),
    s.dev.get Reg.AON_IDLE_STATUS_state = 2) ∧
    (∃ (s : State),
    s.dev.get Reg.AON_IDLE_STATUS_state ≠ 2 ∧ s.dev.ranStage < 5) ∧
    (∃ (s : State),
    s.dev.get Reg.AON_IDLE_STATUS_state ≠ 2 ∧ 5 ≤ s.dev.ranStage) ∧
    (∃ (temps : List (BitVec 16)) (t : Int) (s : State),
    s.dev.get Reg.AON_IDLE_STATUS_state ≠ 2 ∧ ((temps.take 17).map BitVec.toInt).max? = some t ∧ t < 110 * 16) ∧
    (∃ (temps : List (BitVec 16)) (t : Int) (s : State),
    s.dev.get Reg.AON_IDLE_STATUS_state ≠ 2 ∧ ((temps.take 17).map BitVec.toInt).max? = some t ∧ 110 * 16 ≤ t ∧ t < 125 * 16 ∧ 110 * 16 ≤ s.dev.pwr.junction ∧ s.dev.pwr.trip = false) :=
  ⟨⟨900000#32, 0#32, 0#32, [1, 2], 5, ⟨1, 0, 0, 0, 0⟩, ⟨1, 0, 0, 0, 0⟩, ⟨1, 0, 0, 0, 0⟩, ⟨1, 0, 0, 0, 0⟩, ⟨1, 0, 0, 0, 0⟩, st (Dev.reset.put Reg.PWR_FEED_STATUS_single_feed 1), by decide⟩,
   ⟨9000#32, 0#32, 0#32, [1, 2], 5, ⟨1, 0, 0, 0, 0⟩, ⟨1, 0, 0, 0, 0⟩, ⟨1, 0, 0, 0, 0⟩, ⟨1, 0, 0, 0, 0⟩, ⟨1, 0, 0, 0, 0⟩, st (let d := { Dev.reset with pwr := { Dev.reset.pwr with classA := 4 } }; d.put Reg.PWR_FEED_STATUS_single_feed 1), by decide⟩,
   ⟨st ((Dev.reset.put Reg.PWR_FEED_STATUS_single_feed 1).put Reg.PWR_PKG_POWER_mw 2000000), by decide⟩,
   ⟨[1#8, 0#8, 0#8, 0#8, 0#8, 0#8, 0#8, 0#8], [2#8, 0#8, 0#8, 0#8, 0#8, 0#8, 0#8, 0#8], 4#5, st ({ Dev.reset with pwr := { Dev.reset.pwr with powered := [] } }), by decide⟩,
   ⟨3, st ({ Dev.reset with pwr := { Dev.reset.pwr with powered := [.aon, .hub, .mgmt 0, .mgmt 1, .tile 0, .tile 1, .sram 0, .sram 1] }, boot := { Dev.reset.boot with fw := some ⟨0, 0, 0, 0, []⟩ } }), by decide⟩,
   ⟨1, st ({ Dev.reset with pwr := { Dev.reset.pwr with powered := [.aon, .hub] }, boot := { Dev.reset.boot with fw := some ⟨0, 0, 0, 0, []⟩ } }), by decide⟩,
   ⟨st ({ Dev.reset with pwr := { Dev.reset.pwr with pollFailA := 2 } }), by decide⟩,
   ⟨st (Dev.reset.put Reg.AON_IDLE_STATUS_state 2), by decide⟩,
   ⟨st (Dev.reset.put Reg.BOOT_STATUS_stage 4), by decide⟩,
   ⟨st (Dev.reset.put Reg.BOOT_STATUS_stage 5), by decide⟩,
   ⟨[800#16, 1616#16], 1616, st (Dev.reset), by decide⟩,
   ⟨[800#16, 1760#16], 1760, st ({ Dev.reset with pwr := { Dev.reset.pwr with junction := 1770 } }), by decide⟩⟩

set_option maxRecDepth 20000 in
theorem test_witness_IdleKeepAndWaking :
    (∃ (s : State),
    s.dev.pageThere 0x011 = true ∧ s.dev.get Reg.AON_IDLE_STATUS_state = 0 ∧ s.dev.isMember = true) ∧
    (∃ (s : State),
    s.dev.pageThere 0x011 = true ∧ s.dev.get Reg.AON_IDLE_STATUS_state = 0 ∧ s.dev.isMember = false ∧ ((List.range 5).any fun i => s.dev.flag (wakeEnable i)) = true ∧ s.dev.stage = 0xA ∧ ((List.range 16).any fun p => s.dev.partState p == 2) = false ∧ (ownPages.any fun pg => s.dev.flag (Reg.PAGE_STATUS_reset_active pg)) = false) ∧
    (∃ (s : State),
    s.dev.get Reg.AON_IDLE_STATUS_state = 1 ∧ s.dev.pwr.wakeNow = false ∧ s.dev.resetDevice.get Reg.TIME_STATUS_state = 3) ∧
    (∃ (i : Fin 2) (s : State),
    s.dev.get (Reg.AON_WAKE_CMP_arm i) ≠ 0 ∧ s.dev.get (Reg.AON_WAKE_CMP_seconds i) ≤ secOf s.dev.time ∧ s.dev.get (wakeEnable (2 + i)) ≠ 0 ∧ s.dev.get Reg.AON_IDLE_STATUS_state = 2) ∧
    (∃ (s : State),
    s.dev.get (wakeEnable 0) ≠ 0 ∧ s.dev.get Reg.AON_IDLE_STATUS_state = 1) ∧
    (∃ (s : State),
    s.dev.get (wakeEnable 1) ≠ 0 ∧ s.dev.get Reg.AON_IDLE_STATUS_state = 2) ∧
    (∃ (s : State),
    s.dev.get (wakeEnable 1) = 0) :=
  ⟨⟨st (Dev.reset.put Reg.MBR_STATUS_state 2), by decide⟩,
   ⟨st ((Dev.reset.put Reg.BOOT_STATUS_stage 0xA).put Reg.AON_IDLE_CTRL_wake_pin 1), by decide⟩,
   ⟨st ((Dev.reset.put Reg.AON_IDLE_STATUS_state 1).put Reg.TIME_STATUS_state 3), by decide⟩,
   ⟨1, st (((Dev.reset.put (Reg.AON_WAKE_CMP_arm 1) 1).put (wakeEnable 3) 1).put Reg.AON_IDLE_STATUS_state 2), by decide⟩,
   ⟨st ((Dev.reset.put (wakeEnable 0) 1).put Reg.AON_IDLE_STATUS_state 1), by decide⟩,
   ⟨st ((Dev.reset.put (wakeEnable 1) 1).put Reg.AON_IDLE_STATUS_state 2), by decide⟩,
   ⟨st ((Dev.reset.put Reg.AON_IDLE_STATUS_state 2).put (wakeEnable 1) 0), by decide⟩⟩

theorem test_witness_PagesAndDrains :
    (∃ (pg : BitVec 17) (s : State),
    s.dev.pageThere pg.toNat = true ∧ s.dev.pageInReset pg.toNat = false ∧ Tab.find pg.toNat s.dev.drains = none ∧ s.dev.pageOn pg.toNat = false) ∧
    (∃ (pg : BitVec 17) (x : DrainSt) (s : State),
    s.dev.pageThere pg.toNat = true ∧ s.dev.pageInReset pg.toNat = false ∧ Tab.find pg.toNat s.dev.drains = some x) ∧
    (∃ (pg : BitVec 17) (s : State),
    s.dev.pageInReset pg.toNat = true) ∧
    (∃ (pg : BitVec 17) (b : Block) (s : State),
    pageBlock pg.toNat = some b ∧ s.dev.pageThere pg.toNat = true ∧ s.dev.pageInReset pg.toNat = false ∧ s.dev.jobAdmitted = false ∧ b ≠ .vfInfo ∧ b ≠ .vfCtx ∧ b ≠ .vfDb ∧ Tab.find pg.toNat s.dev.drains = none ∧ s.dev.pageOn pg.toNat = true) ∧
    (∃ (pg : BitVec 17) (b : Block) (s : State),
    pageBlock pg.toNat = some b ∧ keptForJobs b = true ∧ s.dev.jobAdmitted = true) ∧
    (∃ (pg : BitVec 17) (x : DrainSt) (s : State),
    pageBlock pg.toNat ≠ some .port ∧ Tab.find pg.toNat s.dev.drains = some x ∧ s.dev.pageBusy pg.toNat = false) ∧
    (∃ (pg : BitVec 17) (x : DrainSt) (s : State),
    Tab.find pg.toNat s.dev.drains = some x) ∧
    (∃ (pg : BitVec 17) (b : Block) (p : Nat) (s : State),
    pageBlock pg.toNat = some b ∧ s.dev.pageThere pg.toNat = true ∧ s.dev.pageInReset pg.toNat = false ∧ resetDomain b = 4 ∧ pagePart pg.toNat = some p) ∧
    (∃ (pg : BitVec 17) (b : Block) (s : State),
    pageBlock pg.toNat = some b ∧ s.dev.pageThere pg.toNat = true ∧ s.dev.pageInReset pg.toNat = false ∧ resetDomain b = 5) ∧
    (∃ (pg : BitVec 17) (b : Block) (s : State),
    pageBlock pg.toNat = some b ∧ s.dev.pageThere pg.toNat = true ∧ s.dev.pageInReset pg.toNat = false ∧ resetDomain b = 1) ∧
    (∃ (pg : BitVec 17) (s : State),
    s.dev.pageInReset pg.toNat = true) :=
  ⟨⟨0x103#17, st (Dev.reset.put (Reg.PAGE_STATUS_enabled 0x103) 0), by decide⟩,
   ⟨0x103#17, ⟨5, 0, false⟩, st ({ Dev.reset with drains := [(0x103, ⟨5, 0, false⟩)] }), by decide⟩,
   ⟨0x103#17, st (Dev.reset.put (Reg.PAGE_STATUS_reset_active 0x103) 1), by decide⟩,
   ⟨0x103#17, .clu, st (Dev.reset), by decide⟩,
   ⟨0x020#17, .time, st ({ Dev.reset with jobs := [(1, wJob)] }), by decide⟩,
   ⟨0x103#17, ⟨5, 0, false⟩, st ({ Dev.reset with drains := [(0x103, ⟨5, 0, false⟩)] }), by decide⟩,
   ⟨0x103#17, ⟨5, 0, true⟩, st ({ Dev.reset with drains := [(0x103, ⟨5, 0, true⟩)] }), by decide⟩,
   ⟨0x103#17, .clu, 0, st (Dev.reset), by decide⟩,
   ⟨0x09A#17, .port, st (Dev.reset), by decide⟩,
   ⟨0x000#17, .dev, st (Dev.reset), by decide⟩,
   ⟨0x103#17, st (Dev.reset.put (Reg.PAGE_STATUS_reset_active 0x103) 1), by decide⟩⟩

theorem test_witness_ReservesAndFunctions :
    (∃ (p : Fin 16) (v : Word) (s : State),
    s.dev.pageThere (0x102 + 16 * p) = true ∧ s.dev.pageInReset (0x102 + 16 * p) = false) ∧
    (∃ (cl : Fin 32) (th : Fin 256) (core : Fin 17) (cycles : BitVec 32) (x : Desc) (t : TileRec) (s : State),
    let k := threadKey cl th; let u := s.dev.thread k; let b := CheckBody.ofDesc x; let mine := checkTile u.profile b u.queue; let r := compareTile u.profile ((Fmt.ofCode b.fmt).getD .fp32) (b.fmt == 6) b.n mine (Tile.ofBody t.body).rows; s.dev.current k 5 = some x ∧ s.dev.tileOn k = some t ∧ t.phase = .first ∧ checkError u b = none ∧ b.srcQ = true ∧ b.refBuf = true ∧ u.qHeld = 0 ∧ r.nDisagree = 0) ∧
    (∃ (cl : Fin 32) (th : Fin 256) (core : Fin 17) (cycles : BitVec 32) (x : Desc) (t : TileRec) (s : State),
    let k := threadKey cl th; let u := s.dev.thread k; let b := CheckBody.ofDesc x; let mine := checkTile u.profile b u.queue; let r := compareTile u.profile ((Fmt.ofCode b.fmt).getD .fp32) (b.fmt == 6) b.n mine (Tile.ofBody t.body).rows; s.dev.current k 5 = some x ∧ s.dev.tileOn k = some t ∧ t.phase = .first ∧ checkError u b = none ∧ b.srcQ = true ∧ b.refBuf = true ∧ u.qHeld = 0 ∧ b.keepBad = true ∧ r.nDisagree ≠ 0) :=
  ⟨⟨5, 512#64, st Dev.reset, by decide⟩,
   ⟨0, 5, 3, 7#32, wCheckDesc, wTile, st (let d := { Dev.reset with jobs := [(1, wJob)], agr := ⟨[wTile], [], []⟩ }; d.setThread 5 (wCheck 0)), by decide⟩,
   ⟨0, 5, 3, 7#32, wCheckDesc, wTile, st (let d := { Dev.reset with jobs := [(1, wJob)], agr := ⟨[wTile], [], []⟩ }; d.setThread 5 (wCheck 1)), by decide⟩⟩

set_option maxRecDepth 20000 in
theorem test_witness_PortTrainingAndDiscovery :
    (∃ (i : Fin 40) (l : Fin 4) (s : State),
    s.dev.lane i l = 1) ∧
    (∃ (i : Fin 40) (l : Fin 4) (ph : Fin 4) (s : State),
    s.dev.lane i l = 1 ∧ 3 ≤ Tab.getD (s.dev.port i).tries l 0) ∧
    (∃ (i : Fin 40) (l : Fin 4) (delay : BitVec 16) (s : State),
    s.dev.lane i l = 1) ∧
    (∃ (i : Fin 40) (l : Fin 4) (delay : BitVec 16) (s : State),
    s.dev.lane i l = 1 ∧ 3 ≤ Tab.getD (s.dev.port i).tries l 0) ∧
    (∃ (i : Fin 40) (l : Fin 4) (s : State),
    s.dev.lane i l = 1 ∧ Tab.getD (s.dev.port i).tries l 0 = 0) ∧
    (∃ (i : Fin 40) (l : Fin 4) (s : State),
    let d := (s.dev.setLane i l 1).raise (Src.PORT_link_down i); let d := d.put (Reg.PORT_STATUS_lanes_up i) ((d.lanesIn i 2).foldl setBit 0); 8 ≤ i.val ∧ s.dev.lane i l = 2 ∧ d.lanesIn i 2 = [] ∧ ((s.dev.setLane i l 1).raise (Src.PORT_link_down i)).lanesIn i 2 = []) ∧
    (∃ (i : Fin 40) (s : State),
    (s.dev.get (Reg.PORT_STATUS_state i) = 3 ∨ s.dev.get (Reg.PORT_STATUS_state i) = 7 ∨ s.dev.get (Reg.PORT_STATUS_state i) = 8) ∧ s.dev.pageInReset (0x090 + i) = false) ∧
    (∃ (i : Fin 40) (s : State),
    s.dev.get (Reg.PORT_STATUS_state i) = 6 ∧ s.dev.lanesIn i 3 ≠ [] ∧ s.dev.pageInReset (0x090 + i) = false) ∧
    (∃ (i : Fin 40) (s : State),
    s.dev.get (Reg.PORT_STATUS_state i) = 1) ∧
    (∃ (i : Fin 40) (s : State),
    s.dev.pageInReset (0x090 + i) = true) ∧
    (∃ (i : Fin 40) (s : State),
    8 ≤ i.val ∧ s.dev.pageInReset (0x090 + i) = false) ∧
    (∃ (i : Fin 40) (h : List Word) (s : State),
    let x := h.map BitVec.toNat; let d := (s.dev.setPort i { s.dev.port i with hello := some x }).localFlits i 1; let w := helloWord x 2; let d := (d.put (Reg.PORT_FAR_chip i) (bits 48 16 w)).put (Reg.PORT_FAR_port i) (bits 40 8 w); let d := (d.put (Reg.PORT_FAR_slot i) (bits 32 8 w)).put (Reg.PORT_FAR_major i) (bits 24 8 w); let d := (d.put (Reg.PORT_FAR_minor i) (bits 16 8 w)).put (Reg.PORT_FAR_valid i) 1; let d := (d.put (Reg.PORT_FAR_SN0_sn i) (helloWord x 0)).put (Reg.PORT_FAR_SN1_sn i) (helloWord x 1); s.dev.lanesIn i 2 ≠ [] ∧ 8 ≤ s.dev.stage ∧ s.dev.stage ≠ 0xF ∧ (s.dev.port i).hello = none ∧ d.stage = s.dev.stage) ∧
    (∃ (i : Fin 40) (h : List Word) (s : State),
    s.dev.stage < 7) ∧
    (∃ (p : PlanInfo) (s : State),
    let e := (List.range 40).foldl Dev.unheardPort s.dev.classifyAll; s.dev.stage = 7 ∧ s.dev.boot.plan = some p ∧ e.stage = 7) :=
  ⟨⟨9, 0, st (Dev.reset.trainPort 9), by decide⟩,
   ⟨9, 0, 2, st (let d := Dev.reset.trainPort 9; d.setPort 9 { d.port 9 with tries := [(0, 3)] }), by decide⟩,
   ⟨9, 0, 140#16, st (let d := Dev.reset.trainPort 9; d.setPort 9 { d.port 9 with tries := [(0, 3)] }), by decide⟩,
   ⟨9, 0, 140#16, st (let d := Dev.reset.trainPort 9; d.setPort 9 { d.port 9 with tries := [(0, 3)] }), by decide⟩,
   ⟨9, 0, st (Dev.reset.trainPort 9), by decide⟩,
   ⟨9, 0, st ((Dev.reset.trainPort 9).setLane 9 0 2), by decide⟩,
   ⟨9, st (Dev.reset.put (Reg.PORT_STATUS_state 9) 7), by decide⟩,
   ⟨9, st ((Dev.reset.setPort 9 { PortSt.reset with lanes := [(0, 3)] }).put (Reg.PORT_STATUS_state 9) 6), by decide⟩,
   ⟨9, st (Dev.reset.trainPort 9), by decide⟩,
   ⟨9, st (Dev.reset.put (Reg.PAGE_STATUS_reset_active (0x090 + 9)) 1), by decide⟩,
   ⟨9, st Dev.reset, by decide⟩,
   ⟨9, [5#64, 0#64, 0x0043090304050000#64], st (((Dev.reset.put Reg.BOOT_STATUS_stage 0xA).trainPort 9).setLane 9 0 2), by decide⟩,
   ⟨9, [], st (Dev.reset.put Reg.BOOT_STATUS_stage 6), by decide⟩,
   ⟨wPlan, st (let d := { Dev.reset with boot := { Dev.reset.boot with plan := some wPlan } }; d.put Reg.BOOT_STATUS_stage 7), by decide⟩⟩

set_option maxRecDepth 20000 in
theorem test_witness_LinksAndMessages :
    (∃ (i : Fin 40) (k : Keyx) (h : List Nat) (s : State),
    let signed := Config.sha384 (s.dev.keyxText i h k); let d := (s.dev.localFlits i keyxFlits).sendLocal i 0x02 (sigWords (Config.ecdsaSign signed)); let p := d.port i; let up := (d.setPort i { p with key := some (d.linkKeys i h k), txCtr := 0, rxCtr := 0, rekey := false }).put (Reg.PORT_STATUS_state i) 3; (s.dev.port i).hello = some h ∧ s.dev.get (Reg.PORT_STATUS_state i) = 5) ∧
    (∃ (i : Fin 40) (s : State),
    8 ≤ i.val ∧ s.dev.get (Reg.PORT_STATUS_state i) = 3) ∧
    (∃ (i : Fin 40) (hdr : Word) (payload : List Byte) (crc : Word) (frame : Option FrameCheck) (s : State),
    (payload.length ≠ 240 ∨ crc64 (leBytes 8 hdr.toNat ++ payload.map BitVec.toNat) ≠ crc.toNat)) ∧
    (∃ (i : Fin 40) (hdr : Word) (payload : List Byte) (crc : Word) (f : FrameCheck) (s : State),
    let d := s.dev.incU (Cnt.PORT_CNT_RX_FLITS i); payload.length = 240 ∧ crc64 (leBytes 8 hdr.toNat ++ payload.map BitVec.toNat) = crc.toNat ∧ bitAt 58 hdr.toNat = false ∧ (d.port i).rxNext = bits 40 16 hdr.toNat) ∧
    (∃ (i : Fin 40) (hdr : Word) (payload : List Byte) (crc : Word) (frame : Option FrameCheck) (s : State),
    let d := s.dev.incU (Cnt.PORT_CNT_RX_FLITS i); payload.length = 240 ∧ crc64 (leBytes 8 hdr.toNat ++ payload.map BitVec.toNat) = crc.toNat ∧ bitAt 58 hdr.toNat = true) ∧
    (∃ (i : Fin 40) (hdr : Word) (payload : List Byte) (crc : Word) (frame : Option FrameCheck) (s : State),
    let d := s.dev.incU (Cnt.PORT_CNT_RX_FLITS i); payload.length = 240 ∧ crc64 (leBytes 8 hdr.toNat ++ payload.map BitVec.toNat) = crc.toNat ∧ bitAt 58 hdr.toNat = false ∧ 32768 ≤ ((d.port i).rxNext + 65536 - bits 40 16 hdr.toNat) % 65536) ∧
    (∃ (i : Fin 40) (hdr : Word) (payload : List Byte) (crc : Word) (frame : Option FrameCheck) (s : State),
    let d := s.dev.incU (Cnt.PORT_CNT_RX_FLITS i); payload.length = 240 ∧ crc64 (leBytes 8 hdr.toNat ++ payload.map BitVec.toNat) = crc.toNat ∧ bitAt 58 hdr.toNat = false ∧ (d.port i).rxNext = bits 40 16 hdr.toNat + 1) ∧
    (∃ (util : List PortSample) (s : State),
    let d := (List.range 40).foldl (fun (d : Dev) i => let u := util.getD i ⟨0, 0, 0⟩; ((d.put (Reg.PORT_UTIL_tx_pct i) u.tx.toNat).put (Reg.PORT_UTIL_rx_pct i) u.rx.toNat).addU (Cnt.PORT_CNT_FEC_CORR i) u.fec.toNat) s.dev; let fs := [Reg.DEV_FAB_CTRL_w_c, Reg.DEV_FAB_CTRL_w_a, Reg.DEV_FAB_CTRL_sat_pct, Reg.DEV_FAB_CTRL_idle_pct, Reg.DEV_FAB_CTRL_indirect_pct]; let d := fs.foldl (fun (d : Dev) f => d.put (acts f) (d.get f)) d; d.silent = false) ∧
    (∃ (h : FabHdr) (a : Word) (bs : List Byte) (k : Fin 8192) (g : Byte) (bulk : Bool) (s : State),
    s.dev.passes h = true ∧ podRefused a.toNat a.toNat bs.length = false) ∧
    (∃ (h : FabHdr) (a : Word) (bs : List Byte) (k : Fin 8192) (g : Byte) (bulk : Bool) (s : State),
    s.dev.passes h = true ∧ podRefused a.toNat a.toNat bs.length = true) ∧
    (∃ (h : FabHdr) (a : Word) (len rows stride : Nat) (k : Fin 8192) (g : Byte) (bulk : Bool) (s : State),
    s.dev.passes h = true ∧ ((List.range rows).any fun r => podRefused a.toNat (a.toNat + r * stride) len) = false) ∧
    (∃ (h : FabHdr) (a : Word) (len rows stride : Nat) (k : Fin 8192) (g : Byte) (bulk : Bool) (s : State),
    s.dev.passes h = true ∧ ((List.range rows).any fun r => podRefused a.toNat (a.toNat + r * stride) len) = true) ∧
    (∃ (h : FabHdr) (k : Fin 8192) (g : Byte) (n : Nat) (c : Option Nat) (bs : List Byte) (s : State),
    s.dev.passes h = true ∧ (s.dev.thread k).why = .podWrite n c ∧ (s.dev.thread k).state = .blocked ∧ (s.dev.thread k).gen = g.toNat ∧ (s.dev.ctx (s.dev.thread k).ctx).gen = g.toNat) ∧
    (∃ (h : FabHdr) (k : Fin 8192) (g : Byte) (bs : List Byte) (ws : List Nat) (s : State),
    s.dev.passes h = true ∧ (s.dev.thread k).why = .pod ws ∧ (s.dev.thread k).state = .blocked ∧ (s.dev.thread k).gen = g.toNat ∧ (s.dev.ctx (s.dev.thread k).ctx).gen = g.toNat) ∧
    (∃ (h : FabHdr) (m : MoveMsg) (s : State),
    s.dev.passes h = false) :=
  ⟨⟨9, wKeyx, [1], st (let d := Dev.reset.setPort 9 { PortSt.reset with hello := some [1] }; d.put (Reg.PORT_STATUS_state 9) 5), by decide⟩,
   ⟨9, st (Dev.reset.put (Reg.PORT_STATUS_state 9) 3), by decide⟩,
   ⟨9, 0#64, [], 1#64, none, st (Dev.reset), by decide⟩,
   ⟨9, 0#64, wZeros, 13021020697539691691#64, ⟨3#64, true⟩, st (Dev.reset), by decide +kernel⟩,
   ⟨9, 0x400000000000000#64, wZeros, 12845313910964872139#64, none, st Dev.reset, by decide +kernel⟩,
   ⟨9, 0#64, wZeros, 13021020697539691691#64, none, st (Dev.reset.setPort 9 { PortSt.reset with rxNext := 40000 }), by decide +kernel⟩,
   ⟨9, 0#64, wZeros, 13021020697539691691#64, none, st (Dev.reset.setPort 9 { PortSt.reset with rxNext := 1 }), by decide +kernel⟩,
   ⟨[⟨1, 2, 0⟩], st (Dev.reset.put (Reg.PORT_STATUS_state 9) 3), by decide⟩,
   ⟨wOwn, 0x100000000000#64, [5#8], 32, 0#8, true, st Dev.reset, by decide⟩,
   ⟨wOwn, 0x400000000000#64, [5#8], 32, 0#8, false, st Dev.reset, by decide⟩,
   ⟨wOwn, 0x100000000000#64, 8, 1, 8, 32, 0#8, false, st Dev.reset, by decide⟩,
   ⟨wOwn, 0x400000000000#64, 8, 2, 8, 32, 0#8, true, st Dev.reset, by decide⟩,
   ⟨wOwn, 32, 0#8, 1, none, [], st (Dev.reset.setThread 32 { Thread.reset with state := .blocked, why := .podWrite 1 none, ctx := 3 }), by decide⟩,
   ⟨wOwn, 32, 0#8, [5#8], [], st (Dev.reset.setThread 32 { Thread.reset with state := .blocked, why := .pod [], ctx := 3 }), by decide⟩,
   ⟨⟨7#16, 0#32⟩, .answer 32 0#8 [], st Dev.reset, by decide⟩⟩

/-! ### Helpers of the statements O31 and later -/

/-- A cut of that job, its pull of record 5 not answered, and the job with it; the tray's agent port up at both ends. -/
abbrev wCut : CutSt :=
  ⟨3, 1, 0, false, 2, true, [0], [(0, 5, true), (0, 6, false)], [], [], [(0, 0, 0)], false, [], false, false, [], [], []⟩
abbrev wCutJob : JobSt := { wJob with cut := some wCut }
abbrev wUp (d : Dev) : State := st (d.setAgentPort 0 3)
/-- A member with chip number 0 in a rack of members 0 and 1, and the job of both, whose root is chip 0. -/
abbrev wMem : Dev :=
  ((((Dev.reset.put Reg.DEV_PLAN_STATUS_loaded 1).put Reg.MBR_STATUS_state 2).setView 0 { ViewEnt.absent with state := 1 }).setView 1
    { ViewEnt.absent with state := 1 })
abbrev wPair : JobSt :=
  { JobSt.starting 1 0 0 1 with desc := ⟨1, 0, 0, 0, 0, [0, 8], [], [], 0⟩, accs := [0, 8], phase := 2, gate := 1, acc := [(0, wAcc)] }
abbrev wOne : FabHdr := ⟨1#16, 0#32⟩
theorem test_chips : chipsOf [0, 8] = [0, 1] := by
  have h : [0, 1].eraseDups = [0, 1] := by decide
  simpa [chipsOf, List.mergeSort] using h
theorem test_racks : wMem.racksIn = [0] := by
  have h : [0, 0].eraseDups = [0] := by decide
  exact h
theorem test_racks_two : (wMem.setView 65 { ViewEnt.absent with state := 1 }).racksIn = [0, 2] := by
  have h : [0, 0, 2].eraseDups = [0, 2] := by decide
  exact h
theorem test_racks_two_mem : (st (wMem.setView 65 { ViewEnt.absent with state := 1 })).dev.racksIn.contains (2#16).toNat = true := by
  rw [show (st (wMem.setView 65 { ViewEnt.absent with state := 1 })).dev.racksIn = [0, 2] from test_racks_two]; decide
/-- A controller with chip number 0 that joins: in stage 0x9 and no member. -/
abbrev wSolo : Dev := (Dev.reset.put Reg.DEV_PLAN_STATUS_loaded 1).put Reg.BOOT_STATUS_stage 9
/-- A job descriptor of one accelerator, device 0 of chip 0, without records (R308); and a start of the job of chips 0 and 1. -/
abbrev wDesc : List Byte :=
  [0x4B#8, 0x4A#8, 0x44#8, 0x31#8, 1#8] ++ List.replicate 19 0#8 ++ [1#8, 0#8, 0#8, 0#8, 1#8] ++ List.replicate 23 0#8
abbrev wDescJob : JobDesc := ⟨1, 0, 0, 1, 0, [0], [], [], 0⟩
set_option maxRecDepth 20000 in
theorem test_job_parse : parseJob (((some wDesc).getD []).map BitVec.toNat) = some wDescJob := by decide
abbrev wStart (root : Nat) : JobSt := { JobSt.starting 1 0 root 1 with phase := 1, accs := [0, 8] }
theorem test_start_racks (root : Nat) : (wStart root).racks = [0] := by
  show ((chipsOf [0, 8]).map (· / 32)).eraseDups = [0]
  rw [test_chips]; decide
theorem test_start_nodes : (wMem.setJob (wStart 0)).startNodes (wStart 0) = [0, 1] := by
  unfold Dev.startNodes; rw [test_start_racks]; decide
theorem test_start_nodes_one : (wMem.setJob (wStart 1)).startNodes (wStart 1) = [1, 0] := by
  unfold Dev.startNodes; rw [test_start_racks]; decide
/-- The job of chips 0 and 1 with index 1 being adopted by device 1 of chip 0; its index 0 on the stand-in in slot 0, which runs in context 5;
a drill of index 0, which stands; the job's record 5 held by both indices; and a program for index 0. -/
abbrev wAdopt : JobSt := { wPair with adopts := [(1, ⟨1, false, none⟩)] }
abbrev wStandSlot : StandSt := { StandSt.none with job := 1, state := 3, ctx := 5, step := 2 }
abbrev wStood (x : StandSt) : Dev := (wMem.setJob wPair).setStand 0 x
abbrev wDrilled : JobSt := { wPair with drillIdx := some 0, standing := [0] }
abbrev wRelay : JobSt := { wPair with desc := { wPair.desc with recs := [⟨5, 3, 8, 0, 0, 0, [0, 1]⟩] } }
abbrev wTaking : JobSt := { wPair with taking := [(0, ⟨8, 2, [], []⟩)] }
abbrev wProg : List Byte := [0x4B#8, 0x41#8, 0x50#8, 0x31#8, 1#8] ++ List.replicate 67 0#8
abbrev wAsking : Dev := (wStood { StandSt.none with job := 1, state := 1 }).put Reg.APPO_CTRL_enable 1
theorem test_pair_racks : wPair.racks = [0] := by
  show ((chipsOf [0, 8]).map (· / 32)).eraseDups = [0]
  rw [test_chips]; decide
/-- The same job with the ADOPT of phase 0 heard. -/
abbrev wSeen : JobSt := { wPair with adoptSeen := [(0, 0, 0, [(1, 1)])] }
theorem test_prepared : (Dev.adoptPrepare (wMem.setJob wSeen) (1#32).toNat
    ([(1#16, 0#16, (1 : Fin 8))].map fun p => (p.1.toNat, p.2.1.toNat * 8 + p.2.2.val))).jobOf (1#32).toNat =
      some { wSeen with adopts := [(1, ⟨1, false, none⟩)] } := by
  have hs : ((wMem.setJob wSeen).setJob { wSeen with adopts := [(1, ⟨1, false, none⟩)] }).startChildren wSeen = [1] := by
    unfold Dev.startChildren
    rw [show Dev.startNodes _ wSeen = [0, 1] from by
      unfold Dev.startNodes; rw [show wSeen.racks = [0] from test_pair_racks]; decide]
    decide
  have h : Dev.adoptPrepare (wMem.setJob wSeen) 1 [(1, 1)] =
      Dev.prepareHere (Dev.sendAll ((wMem.setJob wSeen).setJob { wSeen with adopts := [(1, ⟨1, false, none⟩)] })
        (((wMem.setJob wSeen).setJob { wSeen with adopts := [(1, ⟨1, false, none⟩)] }).startChildren wSeen) 0x48
        (Dev.adoptBody ((wMem.setJob wSeen).setJob { wSeen with adopts := [(1, ⟨1, false, none⟩)] }) 1 0 0 [(1, 1)])) 1 0 (1, 1) := rfl
  show Dev.jobOf (Dev.adoptPrepare (wMem.setJob wSeen) 1 [(1, 1)]) 1 = some { wSeen with adopts := [(1, ⟨1, false, none⟩)] }
  rw [h, hs]; decide
/-- The leader of a rack whose second tray is spare, with a job on device 0 of its own tray, when the rack's drill time comes. -/
abbrev wToDrill : JobSt := { wPair with desc := { wPair.desc with accs := [0] }, accs := [0] }
abbrev wDrillRack : Dev :=
  let d := (wMem.setJob wToDrill).put (acts Reg.DRILL_CTRL_period_h) 24
  let d := (d.put (acts Reg.DRILL_CTRL_job_gap_h) 0).put (acts Reg.MBR_HR_CTRL_reserve) 0
  { d with boot := { d.boot with plan := some { rack := 0, gen := 1, racks := 1, pod := 0, admitG := 0, admitX := 0, digest := 0, trays := [(0, 1, 0), (0, 2, 0)], globals := [] } } }
theorem test_chips_one : chipsOf [0] = [0] := by
  have h : [0].eraseDups = [0] := by decide
  simpa [chipsOf, List.mergeSort] using h
theorem test_chips_none : chipsOf [] = [] := by simp [chipsOf, List.mergeSort]
theorem test_drill_racks : wToDrill.racks = [0] := by
  show ((chipsOf [0]).map (· / 32)).eraseDups = [0]
  rw [test_chips_one]; decide
theorem test_drill_jobs : wDrillRack.drillable = [wToDrill] := by
  show List.filter _ [wToDrill] = [wToDrill]
  rw [List.filter_cons_of_pos (by dsimp only; rw [test_drill_racks]; decide)]; rfl
theorem test_drill_stands : wDrillRack.standChips wToDrill = [] := by
  show chipsOf [] = []
  exact test_chips_none
set_option maxRecDepth 20000 in
theorem test_drillable :
    (st wDrillRack).dev.isLeader = true ∧ (st wDrillRack).dev.get (acts Reg.DRILL_CTRL_period_h) ≠ 0 ∧ (st wDrillRack).dev.drill.phase = 0 ∧
    (st wDrillRack).dev.drillable ≠ [] ∧
    (st wDrillRack).dev.drillJob ((st wDrillRack).dev.drillable.filter (st wDrillRack).dev.drillTurn) = some wToDrill ∧
    (st wDrillRack).dev.standsRun = 0 ∧
    ((st wDrillRack).dev.jobs.any fun e => ((st wDrillRack).dev.standChips e.2).any fun c => c / 32 == (st wDrillRack).dev.rack) = false ∧
    1 ≤ (st wDrillRack).dev.budget ∧ wToDrill.accs.all (st wDrillRack).dev.accIn = true ∧ (st wDrillRack).dev.drillAcc wToDrill = some 0 := by
  refine ⟨by decide, by decide, by decide, by rw [show (st wDrillRack).dev.drillable = _ from test_drill_jobs]; decide, ?_, by decide, ?_, by decide, by decide, ?_⟩
  · rw [show (st wDrillRack).dev.drillable = _ from test_drill_jobs]; decide
  · show (((wDrillRack.standChips wToDrill).any fun c => c / 32 == wDrillRack.rack) || false) = false
    rw [test_drill_stands]; rfl
  · unfold Dev.drillAcc
    rw [show (st wDrillRack).dev.standChips wToDrill = _ from test_drill_stands]; decide
/-- A member of a second rack that its chip 32 leads, below the pod master's rack 0; and a member that its chip 0 leads. -/
abbrev wSecond : Dev :=
  ((((Dev.reset.put Reg.DEV_PLAN_STATUS_loaded 1).put Reg.DEV_PLAN_STATUS_rack 1).put Reg.MBR_STATUS_state 2).setView 0
    { ViewEnt.absent with state := 1 }).setView 32 { ViewEnt.absent with state := 1 }
abbrev wSecond3 : Dev := wSecond.put Reg.TIME_STATUS_state 3
abbrev wLed : Dev :=
  let d := ((Dev.reset.put Reg.DEV_PLAN_STATUS_loaded 1).put Reg.MBR_STATUS_state 2).put Reg.TIME_STATUS_state 3
  { (d.setView 1 { ViewEnt.absent with state := 1 }).setView 2 { ViewEnt.absent with state := 1 } with pwr := { d.pwr with traySlot := 2 } }
theorem test_second_racks : wSecond.racksIn = [0, 1] := by
  have h : [0, 1].eraseDups = [0, 1] := by decide
  exact h
/-- The same member with a lane of its own to rack 0, where the Sync of the pod master arrives. -/
abbrev wSync : Dev :=
  let d := (wSecond.put (Reg.PORT_STATUS_state 26) 3).put (Reg.PAGE_STATUS_enabled 0x0AA) 1
  { d with boot := { d.boot with plan := some { wPlan with rack := 1, racks := 2, globals := [26 * 2 ^ 40 + 5 * 2 ^ 32 + 26 * 2 ^ 8] } } }
theorem test_second :
    let s := st wSync
    let h : PtpHdr := ⟨0, 2, 1, 0, 0, 0, 0, false, false, false⟩
    h.malformed = false ∧ h.version = 2 ∧ h.minor = 1 ∧ h.sdoId = 0 ∧ h.twoStep = false ∧ h.tlv = false ∧
    h.domain.toNat = s.dev.get (acts Reg.PTP_CTRL_domain) ∧ s.dev.isMember = true ∧ s.dev.isLeader = true ∧ s.dev.podMaster = false ∧
    (s.dev.arrivalSlots ((0 : BitVec 16).toNat / 32)).min? = some (0 : Fin 18).val ∧ s.dev.viewMaster = some (0 : BitVec 16).toNat := by
  have hr : wSync.racksIn = [0, 1] := by
    have h : [0, 1].eraseDups = [0, 1] := by decide
    exact h
  have he : wSync.exitSlots 0 = [0] := by
    show ((wSync.exits 0).map (·.1)).eraseDups = [0]
    rw [show (wSync.exits 0).map (·.1) = [0] from by decide]; decide
  refine ⟨by decide, by decide, by decide, by decide, by decide, by decide, by decide, by decide, by decide, ?_, ?_, ?_⟩
  · unfold Dev.podMaster Dev.viewMaster; rw [show Dev.racksIn _ = _ from hr]; decide
  · show (wSync.arrivalSlots 0).min? = some 0
    unfold Dev.arrivalSlots; rw [he]; decide
  · unfold Dev.viewMaster; rw [show Dev.racksIn _ = _ from hr]; decide
theorem test_second_holdover : (st wSecond3).dev.timeState = 3 ∧ (st wSecond3).dev.podMaster = false ∧
    ((st wSecond3).dev.isLeader = true ∨ (st wSecond3).dev.clock.source = true) := by
  refine ⟨by decide, ?_, by decide⟩
  have h : [0, 1].eraseDups = [0, 1] := by decide
  unfold Dev.podMaster Dev.viewMaster; rw [show (st wSecond3).dev.racksIn = [0, 1] from h]; decide
/-- A test slot of a drill window, in stage 0xA with a pack staged; a partition whose plan runs; 5 s of pod time. -/
abbrev wSlot : Dev :=
  let d := ((wMem.put Reg.BOOT_STATUS_stage 10).put (acts Reg.DRILL_CTRL_period_h) 24).put (acts Reg.DRILL_CTRL_len_s) 60
  { d with boot := { d.boot with packA := some ⟨0, 0, 0, 0, []⟩ } }
abbrev wPlanning : Dev := wMem.setMon 0 { (wMem.mon 0) with started := some 3 }
abbrev wLate : Dev := { wMem with time := 5 * 2 ^ 40 }
theorem test_no_cores (d : Dev) (p cl q : Nat) : d.planCores p cl q [] = (d, 0, false) := by
  simp [Dev.planCores]

set_option maxRecDepth 20000 in
theorem test_witness_AbsentPages :
    (∃ (addr : Nat) (d : Dev),
    pageBlock (addr / 0x1000) = none) ∧
    (∃ (addr : Nat) (d : Dev),
    pageBlock (addr / 0x1000) = none) ∧
    (∃ (who : Requester) (addr v : Nat) (dma : Dma) (d : Dev),
    pageBlock (addr / 0x1000) = none) ∧
    (∃ (pg : Nat) (d : Dev),
    pg < 0x1000 ∧ d.pageThere pg = true) ∧
    (∃ (pg : Nat) (b : Block),
    pageBlock pg = some b) :=
  ⟨⟨0x0FF008, Dev.reset, by decide⟩,
   ⟨0x0FF008, Dev.reset, by decide⟩,
   ⟨.host, 0x0FF008, 1, none, Dev.reset, by decide⟩,
   ⟨0x030, Dev.reset, by decide⟩,
   ⟨0x030, .mgmt, by decide⟩⟩

set_option maxRecDepth 20000 in
theorem test_witness_AccessError :
    (∃ (isWrite : Bool) (off : BitVec 24) (size : Nat) (s : State),
    (¬((size = 4 ∨ size = 8) ∧ off.toNat % size = 0))) ∧
    (∃ (d : Dev),
    d.get Cnt.PCIE_CNT_ACCESS_ERR < 2 ^ 32 - 1 ∧ d.regsWf = true) :=
  ⟨⟨false, 2#24, 4, st Dev.reset, by decide⟩,
   ⟨Dev.reset, by decide⟩⟩

set_option maxRecDepth 20000 in
theorem test_witness_RegisterAccess :
    (∃ (off : BitVec 24) (v : Word) (b : Block) (s : State),
    let pg := off.toNat / 0x1000; pageBlock pg = some b ∧ [Block.tense, .ptp, .cmp, .drill, .mir, .flow, .agr, .pcie, .lpd, .red].contains b = true ∧ s.dev.pageThere pg = true ∧ s.dev.pageInReset pg = false ∧ 0x100 ≤ off.toNat % 0x1000) ∧
    (∃ (src : BitVec 16) (off : BitVec 24) (v : Word) (dma : Dma) (s : State),
    closedToRemote off.toNat = true) ∧
    (∃ (off : BitVec 24) (s : State),
    let pg := off.toNat / 0x1000; off.toNat % 8 = 0) ∧
    (∃ (off : BitVec 24) (reg x : Nat) (s : State),
    let pg := off.toNat / 0x1000; off.toNat % 8 ≠ 0 ∧ Tab.find pg (s.dev.touch off.toNat).rdHold = some (reg, x)) ∧
    (∃ (off : BitVec 24) (s : State),
    let reg := off.toNat / 8 * 8; let d := (s.dev.touch off.toNat).readAt reg; off.toNat % 8 ≠ 0 ∧ Tab.find (off.toNat / 0x1000) (s.dev.touch off.toNat).rdHold = none ∧ latchesWhole reg = true) ∧
    (∃ (off : BitVec 24) (s : State),
    off.toNat % 8 = 0) ∧
    (∃ (off : BitVec 24) (wide : Bool) (s : State),
    s.dev.pwr.powered.contains .hub = true) ∧
    (∃ (off : BitVec 24) (v : BitVec 32) (dma : Dma) (s : State),
    let reg := off.toNat / 8 * 8; hasRw reg = true) ∧
    (∃ (off : BitVec 24) (v : BitVec 32) (dma : Dma) (s : State),
    let reg := off.toNat / 8 * 8; hasRw reg = false) ∧
    (∃ (off : BitVec 24) (v : BitVec 32) (low : Nat) (dma : Dma) (s : State),
    let pg := off.toNat / 0x1000; let reg := off.toNat / 8 * 8; let d := s.dev.touch reg; hasRw reg = true ∧ Tab.find pg d.wrHold = some (reg, low)) ∧
    (∃ (off : BitVec 24) (v : BitVec 32) (dma : Dma) (s : State),
    let pg := off.toNat / 0x1000; let reg := off.toNat / 8 * 8; let d := s.dev.touch reg; hasRw reg = true ∧ Tab.find pg d.wrHold = none) ∧
    (∃ (s : State),
    s.dev.pageThere 0x020 = true ∧ s.dev.pageInReset 0x020 = false) ∧
    (∃ (n : Fin 8) (s : State),
    let a := 0x1000000 * (n.val + 1) + 0x118; s.dev.pageInReset (a / 0x1000) = false) :=
  ⟨⟨0x061128#24, 250#64, .mir, st Dev.reset, by decide⟩,
   ⟨1#16, 0x003100#24, 1#64, none, st Dev.reset, by decide⟩,
   ⟨0x020100#24, st Dev.reset, by decide⟩,
   ⟨0x020104#24, 0x020100, 7, st { Dev.reset with rdHold := [(0x020, 0x020100, 7)] }, by decide⟩,
   ⟨0x020104#24, st Dev.reset, by decide⟩,
   ⟨0x040000#24, st Dev.reset, by decide⟩,
   ⟨0x40#24, true, st Dev.reset, by decide⟩,
   ⟨0x061128#24, 5#32, none, st Dev.reset, by decide⟩,
   ⟨0x030118#24, 5#32, none, st Dev.reset, by decide⟩,
   ⟨0x06112C#24, 5#32, 7, none, st { Dev.reset with wrHold := [(0x061, 0x061128, 7)] }, by decide⟩,
   ⟨0x06112C#24, 5#32, none, st Dev.reset, by decide⟩,
   ⟨st Dev.reset, by decide⟩,
   ⟨3, st Dev.reset, by decide⟩⟩

set_option maxRecDepth 20000 in
theorem test_witness_FaultBlocks :
    (∃ (pg : BitVec 17) (b : Block) (mask : BitVec 32) (levels : BitVec 24) (s : State),
    pageBlock pg.toNat = some b ∧ [Block.aflt, .vfInfo, .vfCtx, .vfDb].contains b = false ∧ s.dev.pageThere pg.toNat = true ∧ s.dev.pageInReset pg.toNat = false) ∧
    (∃ (a : Fin 8) (mask : BitVec 32) (levels : BitVec 24) (s : State),
    let pg := BitVec.ofNat 17 (0x1000 * (a.val + 1) + 3); s.dev.pageInReset pg.toNat = false) ∧
    (∃ (d : Dev) (pg i : Nat),
    d.levelHolds ⟨pg, i⟩ = true) ∧
    (∃ (d : Dev) (pg i : Nat),
    d.reactOf ⟨pg, i⟩ = 2 ∧ bitAt i (Tab.getD d.unreset pg 0) = true) ∧
    (∃ (d : Dev) (pg i : Nat),
    bitAt i (d.get (Reg.FLT_STATUS_status pg)) = true ∧ d.levelHolds ⟨pg, i⟩ = false ∧ d.reactOf ⟨pg, i⟩ ≠ 2) ∧
    (∃ (pg : BitVec 17) (b : Block) (mask : BitVec 32) (s : State),
    pageBlock pg.toNat = some b ∧ b ≠ .aflt ∧ s.dev.pageThere pg.toNat = true ∧ s.dev.pageInReset pg.toNat = false) ∧
    (∃ (d : Dev) (f : FltSrc) (forced : Bool),
    bitAt f.idx (d.get (Reg.FLT_ENABLE_enable f.page)) = false) ∧
    (∃ (s : State),
    s.dev.get Reg.FLT_DEV_STATUS_state ≠ 2) ∧
    (∃ (s : State),
    ownPages.any (fun pg => s.dev.statusWith pg 3) = true) ∧
    (∃ (s : State),
    s.dev.get Reg.FLT_DEV_STATUS_state = 2 ∧ ownPages.any (fun pg => s.dev.statusWith pg 3) = false) :=
  ⟨⟨0x030#17, .mgmt, 1#32, 0#24, st Dev.reset, by decide⟩,
   ⟨7, 3#32, 0#24, st Dev.reset, by decide⟩,
   ⟨Dev.reset.put (feedState .a) 0, 0x010, 0, by decide⟩,
   ⟨{ Dev.reset with unreset := [(0x100, 1)] }, 0x100, 0, by decide⟩,
   ⟨Dev.reset.put (Reg.FLT_STATUS_status 0x030) 1, 0x030, 0, by decide⟩,
   ⟨0x030#17, .mgmt, 1#32, st Dev.reset, by decide⟩,
   ⟨Dev.reset.put (Reg.FLT_ENABLE_enable 0x030) 0, ⟨0x030, 1⟩, true, by decide⟩,
   ⟨st Dev.reset, by decide⟩,
   ⟨st (Dev.reset.put (Reg.FLT_STATUS_status 0x040) 1), by decide⟩,
   ⟨st (Dev.reset.put Reg.FLT_DEV_STATUS_state 2), by decide⟩⟩

set_option maxRecDepth 20000 in
theorem test_witness_CountersAndSnapshots :
    (∃ (pg : BitVec 17) (b : Block) (s : State),
    s.dev.pageThere pg.toNat = true ∧ s.dev.pageInReset pg.toNat = false ∧ pageBlock pg.toNat = some b ∧ functionPage b = false) ∧
    (∃ (pg : BitVec 17) (s : State),
    s.dev.pageInReset pg.toNat = true ∧ keepsThroughReset pg.toNat = false) ∧
    (∃ (pg : BitVec 17) (slot : Fin 15) (b : Block) (s : State),
    pageBlock pg.toNat = some b ∧ (errorSlots b).contains slot.val = true ∧ slot.val < nCnt b ∧ s.dev.pageThere pg.toNat = true ∧ s.dev.pageInReset pg.toNat = false) ∧
    (∃ (pg : BitVec 17) (slot : Fin 15) (b : Block) (s : State),
    pageBlock pg.toNat = some b ∧ (errorSlots b).contains slot.val = false) ∧
    (∃ (d : Dev) (c : Fld) (n : Nat),
    c.w = 64 ∧ d.regsWf = true) ∧
    (∃ (d : Dev) (c : Fld),
    d.get c = 0xFFFFFFFF) ∧
    (∃ (d : Dev) (c : Fld),
    d.get c = 2 ^ 63 + 0xFFFFFFFF) ∧
    (∃ (s : State),
    s.dev.flag Reg.DBG_SNAP_CTRL_arm = true ∧ timeOfStamp (s.dev.get Reg.DBG_SNAP_T_t) ≤ s.dev.time) ∧
    (∃ (s : State),
    s.dev.flag Reg.DBG_SNAP_CTRL_arm = false) :=
  ⟨⟨0x040#17, .flt, st Dev.reset, by decide⟩,
   ⟨0x103#17, st (Dev.reset.put (Reg.PAGE_STATUS_reset_active 0x103) 1), by decide⟩,
   ⟨0x040#17, 1, .flt, st Dev.reset, by decide⟩,
   ⟨0x040#17, 3, .flt, st Dev.reset, by decide⟩,
   ⟨Dev.reset, Cnt.PCIE_CNT_DMA_BYTES, 5, by decide⟩,
   ⟨Dev.reset.put Cnt.FLT_CNT_DEV_SAFE 0xFFFFFFFF, Cnt.FLT_CNT_DEV_SAFE, by decide⟩,
   ⟨Dev.reset.put Cnt.FLT_CNT_DEV_SAFE (2 ^ 63 + 0xFFFFFFFF), Cnt.FLT_CNT_DEV_SAFE, by decide⟩,
   ⟨st (Dev.reset.put Reg.DBG_SNAP_CTRL_arm 1), by decide⟩,
   ⟨st Dev.reset, by decide⟩⟩

set_option maxRecDepth 20000 in
theorem test_witness_RemoteAccess :
    (∃ (timeout : BitVec 16) (s : State),
    s.dev.flag Reg.MGMT_RA_STATUS_busy = true) ∧
    (∃ (timeout : BitVec 16) (s : State),
    s.dev.flag Reg.MGMT_RA_STATUS_busy = true) ∧
    (∃ (timeout : BitVec 16) (s : State),
    let d := ((s.dev.put Reg.MGMT_RA_CTRL_timeout (limitTo (.range 100 65535) timeout.toNat)).putB Reg.MGMT_RA_CTRL_op false); let addr := d.get Reg.MGMT_RA_ADDR_addr * 8; let data := d.get Reg.MGMT_RA_DATA_data; let e := (d.put Reg.MGMT_RA_STATUS_busy 1).put Reg.MGMT_RA_STATUS_done 0; let f := ({ e with ra := { e.ra with seq := (e.ra.seq + 1) % 2 ^ 32, target := some (podChip addr), write := false, acked := [] } } : Dev); s.dev.flag Reg.MGMT_RA_STATUS_busy = false ∧ s.dev.pageThere 0x030 = true ∧ s.dev.pageInReset 0x030 = false ∧ d.flag Reg.MGMT_RA_STATUS_busy = false ∧ d.pageOn 0x030 = true ∧ d.pageInReset 0x030 = false ∧ d.pageThere 0x030 = true ∧ podChip addr = 0xFFFE ∧ podSpace addr = 0 ∧ podOffset addr < 2 ^ 24 ∧ closedToRemote (podOffset addr) = false ∧ f.pageInReset (podOffset addr / 0x1000) = false) ∧
    (∃ (timeout : BitVec 16) (s : State),
    let d := ((s.dev.put Reg.MGMT_RA_CTRL_timeout (limitTo (.range 100 65535) timeout.toNat)).putB Reg.MGMT_RA_CTRL_op true); let addr := d.get Reg.MGMT_RA_ADDR_addr * 8; let data := d.get Reg.MGMT_RA_DATA_data; let e := ((d.put Reg.MGMT_RA_STATUS_busy 1).put Reg.MGMT_RA_STATUS_done 0).put Reg.MGMT_RA_STATUS_acks 0; let f := ({ e with ra := { e.ra with seq := (e.ra.seq + 1) % 2 ^ 32, target := some (podChip addr), write := true, acked := [] } } : Dev); s.dev.flag Reg.MGMT_RA_STATUS_busy = false ∧ s.dev.pageThere 0x030 = true ∧ s.dev.pageInReset 0x030 = false ∧ d.flag Reg.MGMT_RA_STATUS_busy = false ∧ d.pageOn 0x030 = true ∧ d.pageInReset 0x030 = false ∧ d.pageThere 0x030 = true ∧ podChip addr = 0xFFFE ∧ podSpace addr = 0 ∧ podOffset addr < 2 ^ 24 ∧ closedToRemote (podOffset addr) = false ∧ f.pageInReset (podOffset addr / 0x1000) = false) ∧
    (∃ (timeout : BitVec 16) (code : Nat) (s : State),
    let d := ((s.dev.put Reg.MGMT_RA_CTRL_timeout (limitTo (.range 100 65535) timeout.toNat)).putB Reg.MGMT_RA_CTRL_op false); let addr := d.get Reg.MGMT_RA_ADDR_addr * 8; let data := d.get Reg.MGMT_RA_DATA_data; let e := (d.put Reg.MGMT_RA_STATUS_busy 1).put Reg.MGMT_RA_STATUS_done 0; let f := ({ e with ra := { e.ra with seq := (e.ra.seq + 1) % 2 ^ 32, target := some (podChip addr), write := false, acked := [] } } : Dev); s.dev.flag Reg.MGMT_RA_STATUS_busy = false ∧ s.dev.pageThere 0x030 = true ∧ s.dev.pageInReset 0x030 = false ∧ d.flag Reg.MGMT_RA_STATUS_busy = false ∧ d.pageOn 0x030 = true ∧ d.pageInReset 0x030 = false ∧ d.pageThere 0x030 = true ∧ f.raRefusal (podChip addr) (podSpace addr) (podOffset addr) false = some code) ∧
    (∃ (timeout : BitVec 16) (s : State),
    let d := ((s.dev.put Reg.MGMT_RA_CTRL_timeout (limitTo (.range 100 65535) timeout.toNat)).putB Reg.MGMT_RA_CTRL_op false); let addr := d.get Reg.MGMT_RA_ADDR_addr * 8; let data := d.get Reg.MGMT_RA_DATA_data; let e := (d.put Reg.MGMT_RA_STATUS_busy 1).put Reg.MGMT_RA_STATUS_done 0; let f := ({ e with ra := { e.ra with seq := (e.ra.seq + 1) % 2 ^ 32, target := some (podChip addr), write := false, acked := [] } } : Dev); s.dev.flag Reg.MGMT_RA_STATUS_busy = false ∧ s.dev.pageThere 0x030 = true ∧ s.dev.pageInReset 0x030 = false ∧ d.flag Reg.MGMT_RA_STATUS_busy = false ∧ d.pageOn 0x030 = true ∧ d.pageInReset 0x030 = false ∧ d.pageThere 0x030 = true ∧ f.raRefusal (podChip addr) (podSpace addr) (podOffset addr) false = none ∧ f.ownChip (podChip addr) = false ∧ chipIsBroadcast (podChip addr) = false) ∧
    (∃ (timeout : BitVec 16) (s : State),
    let d := ((s.dev.put Reg.MGMT_RA_CTRL_timeout (limitTo (.range 100 65535) timeout.toNat)).putB Reg.MGMT_RA_CTRL_op true); let addr := d.get Reg.MGMT_RA_ADDR_addr * 8; let data := d.get Reg.MGMT_RA_DATA_data; let e := ((d.put Reg.MGMT_RA_STATUS_busy 1).put Reg.MGMT_RA_STATUS_done 0).put Reg.MGMT_RA_STATUS_acks 0; let f := ({ e with ra := { e.ra with seq := (e.ra.seq + 1) % 2 ^ 32, target := some (podChip addr), write := true, acked := [] } } : Dev); s.dev.flag Reg.MGMT_RA_STATUS_busy = false ∧ s.dev.pageThere 0x030 = true ∧ s.dev.pageInReset 0x030 = false ∧ d.flag Reg.MGMT_RA_STATUS_busy = false ∧ d.pageOn 0x030 = true ∧ d.pageInReset 0x030 = false ∧ d.pageThere 0x030 = true ∧ f.raRefusal (podChip addr) (podSpace addr) (podOffset addr) true = none ∧ f.ownChip (podChip addr) = false ∧ chipIsBroadcast (podChip addr) = false) ∧
    (∃ (h : FabHdr) (seq : BitVec 32) (op : Bool) (addr data : Word) (s : State),
    s.dev.passes h = false) ∧
    (∃ (h : FabHdr) (seq : BitVec 32) (op : Bool) (addr data : Word) (s : State),
    s.dev.passes h = true ∧ Tab.find h.src.toNat s.dev.ra.served = some seq.toNat) ∧
    (∃ (h : FabHdr) (seq : BitVec 32) (addr data : Word) (s : State),
    s.dev.passes h = true ∧ Tab.find h.src.toNat s.dev.ra.served ≠ some seq.toNat ∧ podSpace addr.toNat = 0 ∧ closedToRemote (podOffset addr.toNat) = true) ∧
    (∃ (h : FabHdr) (seq : BitVec 32) (addr data : Word) (s : State),
    let off := podOffset addr.toNat; let d := ({ s.dev with ra := { s.dev.ra with served := Tab.insert h.src.toNat seq.toNat (Tab.erase h.src.toNat s.dev.ra.served) } } : Dev); s.dev.passes h = true ∧ Tab.find h.src.toNat s.dev.ra.served ≠ some seq.toNat ∧ podSpace addr.toNat = 0 ∧ off < 2 ^ 24 ∧ closedToRemote off = false ∧ s.dev.accessInReset off = false) ∧
    (∃ (h : FabHdr) (seq : BitVec 32) (addr data : Word) (s : State),
    let off := podOffset addr.toNat; let d := ({ s.dev with ra := { s.dev.ra with served := Tab.insert h.src.toNat seq.toNat (Tab.erase h.src.toNat s.dev.ra.served) } } : Dev); s.dev.passes h = true ∧ Tab.find h.src.toNat s.dev.ra.served ≠ some seq.toNat ∧ podSpace addr.toNat = 0 ∧ off < 2 ^ 24 ∧ closedToRemote off = false ∧ s.dev.accessInReset off = false ∧ off / 8 * 8 ≠ 0x030110) ∧
    (∃ (h : FabHdr) (seq : BitVec 32) (addr data : Word) (s : State),
    let off := podOffset addr.toNat; let d := ({ s.dev with ra := { s.dev.ra with served := Tab.insert h.src.toNat seq.toNat (Tab.erase h.src.toNat s.dev.ra.served) } } : Dev); s.dev.passes h = true ∧ Tab.find h.src.toNat s.dev.ra.served ≠ some seq.toNat ∧ (podSpace addr.toNat = 1 ∨ podSpace addr.toNat = 2) ∧ podExists (podSpace addr.toNat) off = true) ∧
    (∃ (h : FabHdr) (seq : BitVec 32) (addr data : Word) (s : State),
    let off := podOffset addr.toNat; let d := ({ s.dev with ra := { s.dev.ra with served := Tab.insert h.src.toNat seq.toNat (Tab.erase h.src.toNat s.dev.ra.served) } } : Dev); s.dev.passes h = true ∧ Tab.find h.src.toNat s.dev.ra.served ≠ some seq.toNat ∧ (podSpace addr.toNat = 1 ∨ podSpace addr.toNat = 2) ∧ podExists (podSpace addr.toNat) off = true) ∧
    (∃ (h : FabHdr) (seq : BitVec 32) (op : Bool) (addr data : Word) (s : State),
    let off := podOffset addr.toNat; let d := ({ s.dev with ra := { s.dev.ra with served := Tab.insert h.src.toNat seq.toNat (Tab.erase h.src.toNat s.dev.ra.served) } } : Dev); s.dev.passes h = true ∧ Tab.find h.src.toNat s.dev.ra.served ≠ some seq.toNat ∧ podSpace addr.toNat = 3 ∧ off < 2 ^ 27) ∧
    (∃ (h : FabHdr) (seq : BitVec 32) (code : Byte) (data : Word) (s : State),
    s.dev.passes h = true ∧ s.dev.ra.target = some h.src.toNat ∧ seq.toNat = s.dev.ra.seq ∧ chipIsBroadcast h.src.toNat = false) ∧
    (∃ (h : FabHdr) (seq : BitVec 32) (code : Byte) (data : Word) (chip : Nat) (s : State),
    s.dev.passes h = true ∧ s.dev.ra.target = some chip ∧ seq.toNat = s.dev.ra.seq) ∧
    (∃ (s : State),
    s.dev.flag Reg.MGMT_RA_STATUS_busy = true) ∧
    (∃ (s : State),
    s.dev.flag Reg.MGMT_RA_STATUS_busy = false) ∧
    (∃ (off : BitVec 35) (size : Fin 8) (data : List Byte) (n : Fin 65) (s : State),
    off.toNat + data.length ≤ 2 ^ (28 + size.val) ∧ s.dev.pwr.powered.contains .hub = true ∧ s.dev.barsLive = true) ∧
    (∃ (off : BitVec 35) (size : Fin 8) (data : List Byte) (n : Fin 65) (s : State),
    off.toNat + n.val ≤ 2 ^ (28 + size.val) ∧ s.dev.pwr.powered.contains .hub = true ∧ s.dev.barsLive = false) ∧
    (∃ (off : BitVec 35) (size : Fin 8) (data : List Byte) (n : Fin 65) (s : State),
    off.toNat + n.val ≤ 2 ^ (28 + size.val) ∧ s.dev.pwr.powered.contains .hub = true ∧ s.dev.barsLive = true) :=
  ⟨⟨5#16, st (Dev.reset.put Reg.MGMT_RA_STATUS_busy 1), by decide⟩,
   ⟨5#16, st (Dev.reset.put Reg.MGMT_RA_STATUS_busy 1), by decide⟩,
   ⟨5#16, st (Dev.reset.put Reg.MGMT_RA_ADDR_addr (0xFFFE * 2 ^ 45 + 0x061128 / 8)), by decide⟩,
   ⟨5#16, st (Dev.reset.put Reg.MGMT_RA_ADDR_addr (0xFFFE * 2 ^ 45 + 0x061128 / 8)), by decide⟩,
   ⟨5#16, 0x01, st (Dev.reset.put Reg.MGMT_RA_ADDR_addr (0x0025 * 2 ^ 45)), by decide⟩,
   ⟨5#16, st (let d := (((Dev.reset.put Reg.MGMT_RA_ADDR_addr (0x0025 * 2 ^ 45)).setView 0x25 { ViewEnt.absent with state := 1 }).put Reg.MBR_STATUS_state 2).put Reg.MGMT_PAIR_state0 4; { d with boot := { d.boot with fwRunning := true } }), by decide⟩,
   ⟨5#16, st (let d := (((Dev.reset.put Reg.MGMT_RA_ADDR_addr (0x0025 * 2 ^ 45)).setView 0x25 { ViewEnt.absent with state := 1 }).put Reg.MBR_STATUS_state 2).put Reg.MGMT_PAIR_state0 4; { d with boot := { d.boot with fwRunning := true } }), by decide⟩,
   ⟨⟨7#16, 0#32⟩, 1#32, false, 0#64, 0#64, st Dev.reset, by decide⟩,
   ⟨wOwn, 1#32, false, 0#64, 0#64, st { Dev.reset with ra := { RaSt.reset with served := [(0xFFFE, 1)] } }, by decide⟩,
   ⟨wOwn, 1#32, 0x3100#64, 0#64, st Dev.reset, by decide⟩,
   ⟨wOwn, 5#32, 0x100000#64, 0#64, st Dev.reset, by decide⟩,
   ⟨wOwn, 5#32, 0x100108#64, 0#64, st Dev.reset, by decide⟩,
   ⟨wOwn, 5#32, 0x1007FFFFFFF8#64, 9#64, st Dev.reset, by decide⟩,
   ⟨wOwn, 5#32, 0x200000000008#64, 0#64, st Dev.reset, by decide⟩,
   ⟨wOwn, 5#32, true, 0x300007000100#64, 0#64, st Dev.reset, by decide⟩,
   ⟨wOwn, 0#32, 0#8, 9#64, st { Dev.reset with ra := { RaSt.reset with target := some 0xFFFE } }, by decide⟩,
   ⟨wOwn, 0#32, 0#8, 9#64, 0xFFFE, st { Dev.reset with ra := { RaSt.reset with target := some 0xFFFE } }, by decide⟩,
   ⟨st (Dev.reset.put Reg.MGMT_RA_STATUS_busy 1), by decide⟩,
   ⟨st Dev.reset, by decide⟩,
   ⟨5#35, 7, [1#8], 0, st ({ Dev.reset with boot := { Dev.reset.boot with ended := some 0 } }), by decide⟩,
   ⟨5#35, 7, [], 8, st Dev.reset, by decide⟩,
   ⟨5#35, 7, [], 4, st ({ Dev.reset with boot := { Dev.reset.boot with ended := some 0 } }), by decide⟩⟩

set_option maxRecDepth 20000 in
theorem test_witness_ManagementPair :
    (∃ (n : Fin 2) (seq : BitVec 32) (m : Message) (s : State),
    let d := s.dev; let c := (⟨n, seq.toNat, d.nowUs, m⟩ : PairCopy); d.core n = 4 ∧ d.flag Reg.MGMT_PAIR_dual = false ∧ d.pair.mismatch = none ∧ (d.pair.released.find? fun r => r.seq == seq.toNat && decide (d.nowUs < r.at_ + 1000)) = none) ∧
    (∃ (n : Fin 2) (seq : BitVec 32) (m : Message) (s : State),
    let d := s.dev; let c := (⟨n, seq.toNat, d.nowUs, m⟩ : PairCopy); (d.core n = 3 ∨ d.core n = 4) ∧ d.flag Reg.MGMT_PAIR_dual = true ∧ (d.pair.released.find? fun r => r.seq == seq.toNat && decide (d.nowUs < r.at_ + 1000)) = none ∧ (d.pair.held.find? fun h => h.seq == seq.toNat && h.core == 1 - n.val) = none) ∧
    (∃ (n : Fin 2) (seq : BitVec 32) (m : Message) (h : PairCopy) (s : State),
    let d := s.dev; let c := (⟨n, seq.toNat, d.nowUs, m⟩ : PairCopy); (d.core n = 3 ∨ d.core n = 4) ∧ d.flag Reg.MGMT_PAIR_dual = true ∧ (d.pair.released.find? fun r => r.seq == seq.toNat && decide (d.nowUs < r.at_ + 1000)) = none ∧ (d.pair.held.find? fun h => h.seq == seq.toNat && h.core == 1 - n.val) = some h ∧ h.msg = m ∧ d.nowUs ≤ h.at_ + 2) ∧
    (∃ (n : Fin 2) (seq : BitVec 32) (m : Message) (h : PairCopy) (s : State),
    let d := s.dev; let c := (⟨n, seq.toNat, d.nowUs, m⟩ : PairCopy); (d.core n = 3 ∨ d.core n = 4) ∧ d.flag Reg.MGMT_PAIR_dual = true ∧ (d.pair.released.find? fun r => r.seq == seq.toNat && decide (d.nowUs < r.at_ + 1000)) = none ∧ (d.pair.held.find? fun h => h.seq == seq.toNat && h.core == 1 - n.val) = some h ∧ h.msg ≠ m) ∧
    (∃ (seq : BitVec 32) (c : PairCopy) (s : State),
    s.dev.pair.mismatch ≠ some seq.toNat ∧ (s.dev.pair.held.find? fun c => c.seq == seq.toNat && c.core != 2) = some c) ∧
    (∃ (acked : List (BitVec 32)) (s : State),
    s.dev.flag Reg.MGMT_PAIR_dual = true) ∧
    (∃ (acked : List (BitVec 32)) (s : State),
    s.dev.flag Reg.MGMT_PAIR_dual = false) ∧
    (∃ (seq : Nat) (s : State),
    s.dev.pair.mismatch = some seq) ∧
    (∃ (seq : Nat) (s : State),
    s.dev.pair.mismatch = some seq) ∧
    (∃ (seq : Nat) (s : State),
    s.dev.pair.mismatch = some seq) ∧
    (∃ (seq : Nat) (s : State),
    s.dev.pair.mismatch = some seq ∧ s.dev.pair.lastMismatch = none) ∧
    (∃ (b : Bool) (s : State),
    let act := s.dev.get Reg.MGMT_PAIR_active; s.dev.flag Reg.MGMT_PAIR_dual = true) ∧
    (∃ (s : State),
    s.dev.flag Reg.MGMT_PAIR_dual = true) ∧
    (∃ (s : State),
    s.dev.pair.held ≠ []) ∧
    (∃ (s : State),
    s.dev.pair.held = []) :=
  ⟨⟨0, 1#32, .fabric 1 5 [], st (Dev.reset.setCore 0 4), by decide⟩,
   ⟨1, 1#32, .fabric 1 5 [], st ((Dev.reset.setCore 0 4).setCore 1 3), by decide⟩,
   ⟨1, 1#32, .fabric 1 5 [], ⟨0, 1, 0, .fabric 1 5 []⟩, st (let d := ((Dev.reset.setCore 0 4).setCore 1 3); { d with pair := { d.pair with held := [⟨0, 1, 0, .fabric 1 5 []⟩] } }), by decide⟩,
   ⟨1, 1#32, .fabric 1 5 [1], ⟨0, 1, 0, .fabric 1 5 []⟩, st (let d := ((Dev.reset.setCore 0 4).setCore 1 3); { d with pair := { d.pair with held := [⟨0, 1, 0, .fabric 1 5 []⟩] } }), by decide⟩,
   ⟨1#32, ⟨0, 1, 0, .fabric 1 5 []⟩, st (let d := ((Dev.reset.setCore 0 4).setCore 1 3); { d with pair := { d.pair with held := [⟨0, 1, 0, .fabric 1 5 []⟩] } }), by decide⟩,
   ⟨[], st ((Dev.reset.setCore 0 4).setCore 1 3), by decide⟩,
   ⟨[], st Dev.reset, by decide⟩,
   ⟨5, st { Dev.reset with pair := { Dev.reset.pair with mismatch := some 5 } }, by decide⟩,
   ⟨5, st { Dev.reset with pair := { Dev.reset.pair with mismatch := some 5 } }, by decide⟩,
   ⟨5, st { Dev.reset with pair := { Dev.reset.pair with mismatch := some 5 } }, by decide⟩,
   ⟨5, st { Dev.reset with pair := { Dev.reset.pair with mismatch := some 5 } }, by decide⟩,
   ⟨true, st ((Dev.reset.setCore 0 4).setCore 1 3), by decide⟩,
   ⟨st ((Dev.reset.setCore 0 4).setCore 1 3), by decide⟩,
   ⟨st { Dev.reset with pair := { Dev.reset.pair with held := [⟨0, 1, 0, .fabric 1 5 []⟩] } }, by decide⟩,
   ⟨st Dev.reset, by decide⟩⟩

set_option maxRecDepth 20000 in
theorem test_witness_CoreStates :
    (∃ (s : State),
    s.dev.core 0 = 1 ∧ s.dev.core 1 = 1 ∧ s.dev.stage = 3 ∧ s.dev.pair.mismatch = none) ∧
    (∃ (s : State),
    s.dev.core 1 = 1 ∧ s.dev.core 0 = 4 ∧ s.dev.stage = 3 ∧ s.dev.pair.mismatch = none) ∧
    (∃ (n : Fin 2) (s : State),
    s.dev.core n = 1 ∧ s.dev.core (1 - n.val) = 4 ∧ s.dev.stage ≠ 3 ∧ s.dev.pair.mismatch = none) ∧
    (∃ (s : State),
    s.dev.core 1 = 1 ∧ s.dev.coreAbsent 0 = false ∧ s.dev.pair.mismatch = none) ∧
    (∃ (n : Fin 2) (s : State),
    s.dev.core n = 2 ∧ s.dev.core (1 - n.val) = 4) ∧
    (∃ (n : Fin 2) (s : State),
    (s.dev.core (1 - n.val) = 3 ∨ s.dev.core (1 - n.val) = 4) ∧ s.dev.core n ≠ 5) ∧
    (∃ (n : Fin 2) (s : State),
    s.dev.core (1 - n.val) ≠ 3 ∧ s.dev.core (1 - n.val) ≠ 4) ∧
    (∃ (s : State),
    s.dev.core 0 = 5 ∧ s.dev.get Reg.PWR_FEED_STATUS_feed_a_state = 1) ∧
    (∃ (s : State),
    s.dev.core 1 = 5 ∧ s.dev.get Reg.PWR_FEED_STATUS_feed_b_state ≠ 1) :=
  ⟨⟨st (((Dev.reset.setCore 0 1).setCore 1 1).put Reg.BOOT_STATUS_stage 3), by decide⟩,
   ⟨st (((Dev.reset.setCore 0 4).setCore 1 1).put Reg.BOOT_STATUS_stage 3), by decide⟩,
   ⟨1, st (((Dev.reset.setCore 0 4).setCore 1 1).put Reg.BOOT_STATUS_stage 10), by decide⟩,
   ⟨st (Dev.reset.setCore 1 1), by decide⟩,
   ⟨1, st ((Dev.reset.setCore 0 4).setCore 1 2), by decide⟩,
   ⟨1, st ((Dev.reset.setCore 0 4).setCore 1 3), by decide⟩,
   ⟨1, st (Dev.reset.setCore 1 4), by decide⟩,
   ⟨st (Dev.reset.setCore 0 5), by decide⟩,
   ⟨st ((Dev.reset.setCore 1 5).put Reg.PWR_FEED_STATUS_feed_b_state 0), by decide⟩⟩

set_option maxRecDepth 20000 in
theorem test_witness_AgentSignals :
    (∃ (a : Fin 8) (t : TapTile) (s : State),
    (s.dev.agent a).tap = [] ∧ s.dev.stepState a = 6) ∧
    (∃ (a : Fin 8) (t : TapTile) (s : State),
    (s.dev.agent a).tap = [] ∧ s.dev.stepState a ≠ 6 ∧ (s.dev.agent a).key = none) ∧
    (∃ (a : Fin 8) (t : TapTile) (key : Nat) (s : State),
    let d := s.dev; let e := (d.onAgent a fun x => { x with seen := x.seen + 1 }).incU (Cnt.ASMP_CNT_TILES_SEEN a); (d.agent a).tap = [] ∧ d.stepState a ≠ 6 ∧ (d.agent a).key = some key ∧ sampled key (d.get (Reg.ASMP_STATE_threshold a)) (d.agent a).job (d.get (Reg.ASMP_STATE_step a)) t.id.toNat = false) ∧
    (∃ (a : Fin 8) (t : TapTile) (key : Nat) (s : State),
    let d := s.dev; let e := (d.onAgent a fun x => { x with seen := x.seen + 1 }).incU (Cnt.ASMP_CNT_TILES_SEEN a); let f := (e.onAgent a fun x => { x with sampled := x.sampled + 1 }).incU (Cnt.ASMP_CNT_TILES_SAMPLED a); (d.agent a).tap = [] ∧ d.stepState a ≠ 6 ∧ (d.agent a).key = some key ∧ sampled key (d.get (Reg.ASMP_STATE_threshold a)) (d.agent a).job (d.get (Reg.ASMP_STATE_step a)) t.id.toNat = true ∧ d.shipFull a t = false) ∧
    (∃ (a : Fin 8) (t u : TapTile) (rest : List TapTile) (s : State),
    (s.dev.agent a).tap ++ [t] = u :: rest ∧ s.dev.selects a u = true ∧ s.dev.shipFull a u = true) ∧
    (∃ (a : Fin 8) (n : BitVec 40) (list : List Word) (s : State),
    s.dev.stepState a = 6) ∧
    (∃ (a : Fin 8) (n : BitVec 40) (list : List Word) (s : State),
    let d := s.dev; let ws := list.map BitVec.toNat; (d.stepState a = 1 ∨ d.stepState a = 3) ∧ n.toNat = d.agentStep a ∧ d.markOk a ws = true) ∧
    (∃ (a : Fin 8) (n : BitVec 40) (list : List Word) (s : State),
    s.dev.stepState a ≠ 6 ∧ n.toNat ≠ s.dev.agentStep a) ∧
    (∃ (a : Fin 8) (s : State),
    s.dev.stepState a = 6) ∧
    (∃ (a : Fin 8) (s : State),
    let d := s.dev; d.stepState a = 2 ∧ (d.agent a).waitDone = true ∧ (d.agent a).cut = none) ∧
    (∃ (a : Fin 8) (id n mode : Nat) (s : State),
    let d := s.dev; d.stepState a = 2 ∧ (d.agent a).waitDone = true ∧ (d.agent a).cut = some (id, n, mode) ∧ n ≤ d.agentStep a) ∧
    (∃ (a : Fin 8) (packed : BitVec 64) (id n : Nat) (s : State),
    s.dev.stepState a = 4 ∧ (s.dev.agent a).cut = some (id, n, 0) ∧ (s.dev.agent a).cutPhase = 1) ∧
    (∃ (a : Fin 8) (packed : BitVec 64) (id n : Nat) (s : State),
    s.dev.stepState a = 4 ∧ (s.dev.agent a).cut = some (id, n, 1) ∧ (s.dev.agent a).cutPhase = 1 ∧ (s.dev.flag (Reg.AGT_INFO_copy_cut a) = false ∨ s.dev.get (Reg.ASTEP_STAGE_pages a) * 2 ^ 21 < packed.toNat)) ∧
    (∃ (a : Fin 8) (packed : BitVec 64) (id n : Nat) (s : State),
    s.dev.stepState a = 4 ∧ (s.dev.agent a).cut = some (id, n, 1) ∧ (s.dev.agent a).cutPhase = 1 ∧ s.dev.flag (Reg.AGT_INFO_copy_cut a) = true ∧ packed.toNat ≤ s.dev.get (Reg.ASTEP_STAGE_pages a) * 2 ^ 21) ∧
    (∃ (a : Fin 8) (id n mode : Nat) (s : State),
    s.dev.stepState a = 4 ∧ (s.dev.agent a).cut = some (id, n, mode) ∧ (s.dev.agent a).cutPhase = 2) ∧
    (∃ (a : Fin 8) (tag : BitVec 32) (ctrs : List Word) (s : State),
    let d := s.dev; (d.agent a).open_ < 32) ∧
    (∃ (a : Fin 8) (tag : BitVec 32) (ctrs : List Word) (s : State),
    let d := s.dev; 32 ≤ (d.agent a).open_) ∧
    (∃ (a : Fin 8) (tag : BitVec 32) (ctrs : List Word) (c : AccCmd) (rest : List AccCmd) (s : State),
    let d := s.dev.sendUp a 0x17 [tag.toNat % 2 ^ 24 * 2 ^ 40]; let n := 2 ^ d.get (Reg.ACMD_RING_log2n a); let index := d.get (Reg.ACMD_STATUS_index a) % n; bitAt 31 tag.toNat = true ∧ Tab.getD (s.dev.agent a).methods (tag.toNat % 2 ^ 24) 0 = 3 ∧ takeCmd tag.toNat (s.dev.agent a).cmds = (some c, rest) ∧ c.start ≠ []) ∧
    (∃ (a : Fin 8) (tag : BitVec 32) (ctrs : List Word) (c : Option AccCmd) (rest : List AccCmd) (s : State),
    let d := s.dev; let n := 2 ^ d.get (Reg.ACMD_RING_log2n a); let index := d.get (Reg.ACMD_STATUS_index a) % n; bitAt 31 tag.toNat = false ∧ takeCmd tag.toNat (s.dev.agent a).cmds = (c, rest) ∧ (c = none ∨ ∃ x, c = some x ∧ x.start = [])) ∧
    (∃ (a : Fin 8) (tag : BitVec 32) (ctrs : List Word) (c : AccCmd) (rest : List AccCmd) (s : State),
    let d := s.dev; let n := 2 ^ d.get (Reg.ACMD_RING_log2n a); let index := d.get (Reg.ACMD_STATUS_index a) % n; (bitAt 31 tag.toNat = false ∨ Tab.getD (s.dev.agent a).methods (tag.toNat % 2 ^ 24) 0 ≠ 3) ∧ takeCmd tag.toNat (d.agent a).cmds = (some c, rest) ∧ c.start ≠ []) ∧
    (∃ (a : Fin 8) (e : Fin 64) (s : State),
    e.val < s.dev.get (Reg.AGT_INFO_n_eng a) ∧ s.dev.engineTimeout a e ≠ 0 ∧ bitAt e (s.dev.get (Reg.AFLT_ENG_HUNG_hung a)) = false ∧ s.dev.progressed a e = false) ∧
    (∃ (a : Fin 8) (e : Fin 64) (busy : Bool) (s : State),
    s.dev.engineTimeout a e = 0) :=
  ⟨⟨0, wTap, st (Dev.reset.setStepState 0 6), by decide⟩,
   ⟨0, wTap, st (Dev.reset.setStepState 0 0), by decide⟩,
   ⟨0, wTap, 5, st (Dev.reset.setAgent 0 { AgentSt.reset with key := some 5 }), by decide⟩,
   ⟨0, wTap, 31, st ((Dev.reset.setAgent 0 { AgentSt.reset with key := some 31 }).put (Reg.ASMP_STATE_threshold 0) 4096), by decide +kernel⟩,
   ⟨0, wTap, wTap, [], st (((Dev.reset.setAgent 0 { AgentSt.reset with key := some 31, up := [⟨0, 0x11, [0], 0, 0, 0, false⟩] }).put (Reg.ASMP_STATE_threshold 0) 4096).put (Reg.ASMP_SHIP_pages 0) 0), by decide +kernel⟩,
   ⟨0, 1#40, [], st (Dev.reset.setStepState 0 6), by decide⟩,
   ⟨0, 0#40, [0#64], st (Dev.reset.setStepState 0 1), by decide⟩,
   ⟨0, 1#40, [], st (Dev.reset.setStepState 0 1), by decide⟩,
   ⟨0, st (Dev.reset.setStepState 0 6), by decide⟩,
   ⟨0, st ((Dev.reset.setStepState 0 2).setAgent 0 { AgentSt.reset with waitDone := true }), by decide⟩,
   ⟨0, 7, 0, 0, st ((Dev.reset.setStepState 0 2).setAgent 0 { AgentSt.reset with waitDone := true, cut := some (7, 0, 0) }), by decide⟩,
   ⟨0, 0#64, 7, 0, st ((Dev.reset.setStepState 0 4).setAgent 0 { AgentSt.reset with cut := some (7, 0, 0), cutPhase := 1 }), by decide⟩,
   ⟨0, 0x1000000000000000#64, 7, 0, st ((Dev.reset.setStepState 0 4).setAgent 0 { AgentSt.reset with cut := some (7, 0, 1), cutPhase := 1 }), by decide⟩,
   ⟨0, 0#64, 7, 0, st (((Dev.reset.setStepState 0 4).setAgent 0 { AgentSt.reset with cut := some (7, 0, 1), cutPhase := 1 }).put (Reg.AGT_INFO_copy_cut 0) 1), by decide⟩,
   ⟨0, 7, 0, 1, st ((Dev.reset.setStepState 0 4).setAgent 0 { AgentSt.reset with cut := some (7, 0, 1), cutPhase := 2 }), by decide⟩,
   ⟨0, 5#32, [], st Dev.reset, by decide⟩,
   ⟨0, 5#32, [], st (Dev.reset.setAgent 0 { AgentSt.reset with cmds := List.replicate 32 ⟨5, [1]⟩ }), by decide⟩,
   ⟨0, 0x80000005#32, [], ⟨0x80000005, [1]⟩, [], st (Dev.reset.setAgent 0 { AgentSt.reset with cmds := [⟨0x80000005, [1]⟩], methods := [(5, 3)] }), by decide⟩,
   ⟨0, 5#32, [], none, [], st Dev.reset, by refine ⟨by decide, by decide, Or.inl rfl⟩⟩,
   ⟨0, 5#32, [], ⟨5, [1]⟩, [], st (Dev.reset.setAgent 0 { AgentSt.reset with cmds := [⟨5, [1]⟩] }), by decide⟩,
   ⟨0, 0, st (Dev.reset.put (Reg.AGT_INFO_n_eng 0) 4), by decide⟩,
   ⟨0, 0, true, st (Dev.reset.setAgent 0 { AgentSt.reset with timeouts := [(0, 0)] }), by decide⟩⟩

set_option maxRecDepth 20000 in
theorem test_witness_AgentPortAndTime :
    (∃ (a : Fin 8) (seq : BitVec 24) (m : PortMsg) (s : State),
    let d := s.dev; ((d.agent a).up.find? fun m => m.seq == seq.toNat && d.agentUp a) = some m ∧ m.tries < 8) ∧
    (∃ (a : Fin 8) (seq : BitVec 24) (m : PortMsg) (s : State),
    let d := s.dev; ((d.aport a).down.find? fun m => m.seq == seq.toNat && d.downOpen a) = some m ∧ m.tries < 8) ∧
    (∃ (a : Fin 8) (seq : BitVec 24) (m : PortMsg) (s : State),
    ((s.dev.agent a).up.find? fun m => m.seq == seq.toNat && s.dev.agentUp a) = some m ∧ 8 ≤ m.tries) ∧
    (∃ (a : Fin 8) (seq : BitVec 24) (m : PortMsg) (s : State),
    ((s.dev.aport a).down.find? fun m => m.seq == seq.toNat && s.dev.downOpen a) = some m ∧ 8 ≤ m.tries) ∧
    (∃ (a : Fin 8) (h : PortHdr) (seq : BitVec 24) (s : State),
    let d := s.dev.put (Reg.AGT_STATUS_epoch a) h.epoch.toNat; s.dev.get (Reg.AGT_STATUS_port a) = 3 ∧ newer (s.dev.get (Reg.AGT_STATUS_epoch a)) h.epoch.toNat = false) ∧
    (∃ (a : Fin 8) (h : PortHdr) (seq : BitVec 24) (s : State),
    s.dev.get (Reg.AGT_STATUS_port a) = 3 ∧ newer (s.dev.get (Reg.AGT_STATUS_epoch a)) h.epoch.toNat = true) ∧
    (∃ (a : Fin 8) (h : PortHdr) (seq : BitVec 24) (s : State),
    s.dev.get (Reg.AGT_STATUS_port a) = 4 ∧ newer (s.dev.get (Reg.AGT_STATUS_epoch a)) h.epoch.toNat = true) ∧
    (∃ (a : Fin 8) (h : PortHdr) (seq : BitVec 24) (s : State),
    s.dev.get (Reg.AGT_STATUS_port a) ≠ 3 ∧ (s.dev.get (Reg.AGT_STATUS_port a) = 4 → newer (s.dev.get (Reg.AGT_STATUS_epoch a)) h.epoch.toNat = false)) ∧
    (∃ (a : Fin 8) (h : PortHdr) (seq : BitVec 24) (j : JobSt) (s : State),
    let u := s.dev.addU (Cnt.AGP_CNT_AGP_UP a) (portBytes [seq.toNat]); let d := u.setAport a { u.aport a with down := (u.aport a).down.filter fun m => m.seq != seq.toNat }; let e := ((d.shardAcked a seq.toNat).replayAcked a seq.toNat).takeAcked a seq.toNat; (s.dev.get (Reg.AGP_STATUS_port a) = 3 ∨ s.dev.get (Reg.AGP_STATUS_port a) = 4) ∧ ((u.aport a).down.any fun m => m.seq == seq.toNat) = true ∧ e.jobOfAcc a = some j) ∧
    (∃ (a : Fin 8) (h : PortHdr) (seq : BitVec 24) (s : State),
    let u := s.dev.addU (Cnt.AGP_CNT_AGP_UP a) (portBytes [seq.toNat]); let d := u.setAport a { u.aport a with down := (u.aport a).down.filter fun m => m.seq != seq.toNat }; let e := ((d.shardAcked a seq.toNat).replayAcked a seq.toNat).takeAcked a seq.toNat; (s.dev.get (Reg.AGP_STATUS_port a) = 3 ∨ s.dev.get (Reg.AGP_STATUS_port a) = 4) ∧ ((u.aport a).down.any fun m => m.seq == seq.toNat) = true ∧ e.jobOfAcc a = none) ∧
    (∃ (a : Fin 8) (id n mode : Nat) (s : State),
    s.dev.stepState a = 4 ∧ (s.dev.agent a).cut = some (id, n, mode)) ∧
    (∃ (a : Fin 8) (h : PortHdr) (sec : BitVec 48) (ns : BitVec 30) (frac : BitVec 16) (latency : BitVec 32) (s : State),
    let d := s.dev; (d.get (Reg.AGT_STATUS_port a) = 3 ∨ d.get (Reg.AGT_STATUS_port a) = 4) ∧ newer (d.get (Reg.AGT_STATUS_epoch a)) h.epoch.toNat = false ∧ h.seq.toNat = (d.agent a).downNext) ∧
    (∃ (a : Fin 8) (s : State),
    s.dev.pageInReset (0x1000 * (a.val + 1)) = true) ∧
    (∃ (a : Fin 8) (tables : List (List Word)) (s : State),
    s.dev.pageInReset (0x1000 * (a.val + 1) + 5) = true) ∧
    (∃ (a : Fin 8) (s : State),
    s.dev.pageThere (0x1000 * (a.val + 1)) = true ∧ s.dev.pageInReset (0x1000 * (a.val + 1)) = false) ∧
    (∃ (a : Fin 8) (tables : List (List Word)) (s : State),
    s.dev.flag (Reg.APROF_LOCK_lock a) = true) ∧
    (∃ (a : Fin 8) (tables : List (List Word)) (s : State),
    let d := s.dev; s.dev.pageThere (0x1000 * (a.val + 1) + 5) = true ∧ s.dev.pageInReset (0x1000 * (a.val + 1) + 5) = false ∧ d.flag (Reg.APROF_LOCK_lock a) = false) ∧
    (∃ (a : Fin 8) (s : State),
    s.dev.pageInReset (0x080 + a.val) = true) ∧
    (∃ (a : Fin 8) (s : State),
    s.dev.pageThere (0x080 + a.val) = true ∧ s.dev.pageInReset (0x080 + a.val) = false ∧ s.dev.agentUp a = true) ∧
    (∃ (a : Fin 8) (j : JobSt) (x : AccJob) (s : State),
    s.dev.jobOfAcc a = some j ∧ j.accOf a = some x ∧ x.mark = none ∧ x.standIn = false) :=
  ⟨⟨0, 3#24, ⟨3, 0x10, [], 0, 0, 0, false⟩, st ((Dev.reset.setAgent 0 { AgentSt.reset with up := [⟨3, 0x10, [], 0, 0, 0, false⟩] }).setAgentPort 0 3), by decide⟩,
   ⟨0, 3#24, ⟨3, 0x10, [], 0, 0, 0, false⟩, st (Dev.reset.setAport 0 { AgentPort.reset with down := [⟨3, 0x10, [], 0, 0, 0, false⟩] }), by decide⟩,
   ⟨0, 3#24, ⟨3, 0x10, [], 8, 0, 0, false⟩, st ((Dev.reset.setAgent 0 { AgentSt.reset with up := [⟨3, 0x10, [], 8, 0, 0, false⟩] }).setAgentPort 0 3), by decide⟩,
   ⟨0, 3#24, ⟨3, 0x10, [], 8, 0, 0, false⟩, st (Dev.reset.setAport 0 { AgentPort.reset with down := [⟨3, 0x10, [], 8, 0, 0, false⟩] }), by decide⟩,
   ⟨0, wHdr, 3#24, st (Dev.reset.setAgentPort 0 3), by decide⟩,
   ⟨0, wHdr, 3#24, st ((Dev.reset.setAgentPort 0 3).put (Reg.AGT_STATUS_epoch 0) 5), by decide⟩,
   ⟨0, wHdr, 3#24, st ((Dev.reset.put (Reg.AGT_STATUS_port 0) 4).put (Reg.AGT_STATUS_epoch 0) 5), by decide⟩,
   ⟨0, wHdr, 3#24, st Dev.reset, by decide⟩,
   ⟨0, wHdr, 3#24, wJob, st (((Dev.reset.setAport 0 { AgentPort.reset with down := [⟨3, 0x10, [], 0, 0, 0, false⟩] }).setJob wJob).setAgentPort 0 3), by decide⟩,
   ⟨0, wHdr, 3#24, st ((Dev.reset.setAport 0 { AgentPort.reset with down := [⟨3, 0x10, [], 0, 0, 0, false⟩] }).setAgentPort 0 4), by decide⟩,
   ⟨0, 7, 0, 0, st ((Dev.reset.setStepState 0 4).setAgent 0 { AgentSt.reset with cut := some (7, 0, 0), cutPhase := 3 }), by decide⟩,
   ⟨0, ⟨0#24, 0#32, 0#32⟩, 1#48, 2#30, 3#16, 4#32, st (Dev.reset.setAgentPort 0 4), by decide⟩,
   ⟨0, st (Dev.reset.put (Reg.PAGE_STATUS_reset_active 0x1000) 1), by decide⟩,
   ⟨0, [], st (Dev.reset.put (Reg.PAGE_STATUS_reset_active 0x1005) 1), by decide⟩,
   ⟨0, st Dev.reset, by decide⟩,
   ⟨0, [], st (Dev.reset.put (Reg.APROF_LOCK_lock 0) 1), by decide⟩,
   ⟨0, [], st Dev.reset, by decide⟩,
   ⟨0, st (Dev.reset.put (Reg.PAGE_STATUS_reset_active 0x080) 1), by decide⟩,
   ⟨0, st (Dev.reset.setAgentPort 0 3), by decide⟩,
   ⟨0, wJob, wAcc, st (Dev.reset.setJob wJob), by decide⟩⟩

set_option maxRecDepth 20000 in
theorem test_witness_DownMessages :
    (∃ (a : Fin 8) (h : PortHdr) (first : BitVec 40) (key : BitVec 128) (threshold : BitVec 13) (methods : List (BitVec 24 × Fin 4))
      (map : List (BitVec 24 × BitVec 38)) (s : State),
    let d := s.dev; let t := ((d.onAgent a fun x => { x with downNext := (h.seq.toNat + 1) % 2 ^ 24 }).put (Reg.AGT_STATUS_epoch a) h.epoch.toNat).ackFromAgent a h.seq.toNat; d.get (Reg.AGT_STATUS_port a) = 3 ∧ newer (d.get (Reg.AGT_STATUS_epoch a)) h.epoch.toNat = false ∧ h.seq.toNat = (d.agent a).downNext ∧ t.stepState a = 0) ∧
    (∃ (a : Fin 8) (h : PortHdr)  (s : State),
    let d := s.dev; let t := ((d.onAgent a fun x => { x with downNext := (h.seq.toNat + 1) % 2 ^ 24 }).put (Reg.AGT_STATUS_epoch a) h.epoch.toNat).ackFromAgent a h.seq.toNat; d.get (Reg.AGT_STATUS_port a) = 3 ∧ newer (d.get (Reg.AGT_STATUS_epoch a)) h.epoch.toNat = false ∧ h.seq.toNat = (d.agent a).downNext ∧ t.stepState a ≠ 0 ∧ t.stepState a ≠ 6) ∧
    (∃ (a : Fin 8) (h : PortHdr) (step : BitVec 40) (key : BitVec 128) (threshold : BitVec 13) (s : State),
    let d := s.dev; let t := ((d.onAgent a fun x => { x with downNext := (h.seq.toNat + 1) % 2 ^ 24 }).put (Reg.AGT_STATUS_epoch a) h.epoch.toNat).ackFromAgent a h.seq.toNat; d.get (Reg.AGT_STATUS_port a) = 3 ∧ newer (d.get (Reg.AGT_STATUS_epoch a)) h.epoch.toNat = false ∧ h.seq.toNat = (d.agent a).downNext ∧ t.stepState a = 2 ∧ h.job.toNat = (t.agent a).job ∧ (t.agent a).done step.toNat = false ∧ step.toNat = t.agentStep a) ∧
    (∃ (a : Fin 8) (h : PortHdr) (step : BitVec 40) (key : BitVec 128) (threshold : BitVec 13) (s : State),
    let d := s.dev; let t := ((d.onAgent a fun x => { x with downNext := (h.seq.toNat + 1) % 2 ^ 24 }).put (Reg.AGT_STATUS_epoch a) h.epoch.toNat).ackFromAgent a h.seq.toNat; d.get (Reg.AGT_STATUS_port a) = 3 ∧ newer (d.get (Reg.AGT_STATUS_epoch a)) h.epoch.toNat = false ∧ h.seq.toNat = (d.agent a).downNext ∧ t.stepState a ≠ 6 ∧ (h.job.toNat ≠ (t.agent a).job ∨ (t.agent a).done step.toNat = true)) ∧
    (∃ (a : Fin 8) (h : PortHdr) (step : BitVec 40) (key : BitVec 128) (threshold : BitVec 13) (s : State),
    let d := s.dev; let t := ((d.onAgent a fun x => { x with downNext := (h.seq.toNat + 1) % 2 ^ 24 }).put (Reg.AGT_STATUS_epoch a) h.epoch.toNat).ackFromAgent a h.seq.toNat; d.get (Reg.AGT_STATUS_port a) = 3 ∧ newer (d.get (Reg.AGT_STATUS_epoch a)) h.epoch.toNat = false ∧ h.seq.toNat = (d.agent a).downNext ∧ t.stepState a = 2 ∧ h.job.toNat = (t.agent a).job ∧ (t.agent a).done step.toNat = false ∧ step.toNat = t.agentStep a) ∧
    (∃ (a : Fin 8) (h : PortHdr) (step : BitVec 40) (key : BitVec 128) (threshold : BitVec 13) (s : State),
    let d := s.dev; let t := ((d.onAgent a fun x => { x with downNext := (h.seq.toNat + 1) % 2 ^ 24 }).put (Reg.AGT_STATUS_epoch a) h.epoch.toNat).ackFromAgent a h.seq.toNat; d.get (Reg.AGT_STATUS_port a) = 3 ∧ newer (d.get (Reg.AGT_STATUS_epoch a)) h.epoch.toNat = false ∧ h.seq.toNat = (d.agent a).downNext ∧ t.stepState a = 6) ∧
    (∃ (a : Fin 8) (h : PortHdr) (id : BitVec 32) (step : BitVec 40) (copy : Bool) (s : State),
    let d := s.dev; let t := ((d.onAgent a fun x => { x with downNext := (h.seq.toNat + 1) % 2 ^ 24 }).put (Reg.AGT_STATUS_epoch a) h.epoch.toNat).ackFromAgent a h.seq.toNat; d.get (Reg.AGT_STATUS_port a) = 3 ∧ newer (d.get (Reg.AGT_STATUS_epoch a)) h.epoch.toNat = false ∧ h.seq.toNat = (d.agent a).downNext ∧ (t.stepState a = 1 ∨ t.stepState a = 2) ∧ (t.agent a).done step.toNat = false ∧ (t.agent a).cut = none ∧ (t.agent a).staged = none) ∧
    (∃ (a : Fin 8) (h : PortHdr) (id : BitVec 32) (step : BitVec 40) (copy : Bool) (s : State),
    let d := s.dev; let t := ((d.onAgent a fun x => { x with downNext := (h.seq.toNat + 1) % 2 ^ 24 }).put (Reg.AGT_STATUS_epoch a) h.epoch.toNat).ackFromAgent a h.seq.toNat; d.get (Reg.AGT_STATUS_port a) = 3 ∧ newer (d.get (Reg.AGT_STATUS_epoch a)) h.epoch.toNat = false ∧ h.seq.toNat = (d.agent a).downNext ∧ t.stepState a ≠ 6 ∧ (t.agent a).done step.toNat = true) ∧
    (∃ (a : Fin 8) (h : PortHdr) (items : List PullItem) (s : State),
    let d := s.dev; let t := ((d.onAgent a fun x => { x with downNext := (h.seq.toNat + 1) % 2 ^ 24 }).put (Reg.AGT_STATUS_epoch a) h.epoch.toNat).ackFromAgent a h.seq.toNat; d.get (Reg.AGT_STATUS_port a) = 3 ∧ newer (d.get (Reg.AGT_STATUS_epoch a)) h.epoch.toNat = false ∧ h.seq.toNat = (d.agent a).downNext ∧ (d.agent a).pulls < 4 ∧ t.stepState a ≠ 6) ∧
    (∃ (a : Fin 8) (h : PortHdr) (items : List PullItem) (s : State),
    4 ≤ (s.dev.agent a).pulls ∧ newer (s.dev.get (Reg.AGT_STATUS_epoch a)) h.epoch.toNat = false ∧ h.seq.toNat = (s.dev.agent a).downNext) ∧
    (∃ (a : Fin 8) (h : PortHdr) (items : List PullItem) (s : State),
    (s.dev.get (Reg.AGT_STATUS_port a) = 3 ∨ s.dev.get (Reg.AGT_STATUS_port a) = 4) ∧ newer (s.dev.get (Reg.AGT_STATUS_epoch a)) h.epoch.toNat = true) ∧
    (∃ (a : Fin 8) (h : PortHdr) (record : BitVec 24) (off : BitVec 38) (data : List Byte) (entry : Option ShardEntry) (s : State),
    let d := s.dev; let t := ((d.onAgent a fun x => { x with downNext := (h.seq.toNat + 1) % 2 ^ 24 }).put (Reg.AGT_STATUS_epoch a) h.epoch.toNat); d.get (Reg.AGT_STATUS_port a) = 3 ∧ newer (d.get (Reg.AGT_STATUS_epoch a)) h.epoch.toNat = false ∧ h.seq.toNat = (d.agent a).downNext ∧ t.stepState a ≠ 5 ∧ t.stepState a ≠ 6 ∧ (Tab.getD (t.agent a).methods record.toNat 0 = 3 ∨ entry = none)) ∧
    (∃ (a : Fin 8) (h : PortHdr) (step : BitVec 40) (s : State),
    let d := s.dev; let t := ((d.onAgent a fun x => { x with downNext := (h.seq.toNat + 1) % 2 ^ 24 }).put (Reg.AGT_STATUS_epoch a) h.epoch.toNat).ackFromAgent a h.seq.toNat; d.get (Reg.AGT_STATUS_port a) = 3 ∧ newer (d.get (Reg.AGT_STATUS_epoch a)) h.epoch.toNat = false ∧ h.seq.toNat = (d.agent a).downNext ∧ 1 ≤ t.stepState a ∧ t.stepState a < 5) ∧
    (∃ (a : Fin 8) (h : PortHdr) (record : BitVec 24) (off : BitVec 38) (data : List Byte) (e : ShardEntry) (s : State),
    let d := s.dev; let t := ((d.onAgent a fun x => { x with downNext := (h.seq.toNat + 1) % 2 ^ 24 }).put (Reg.AGT_STATUS_epoch a) h.epoch.toNat); d.get (Reg.AGT_STATUS_port a) = 3 ∧ newer (d.get (Reg.AGT_STATUS_epoch a)) h.epoch.toNat = false ∧ h.seq.toNat = (d.agent a).downNext ∧ t.stepState a = 5 ∧ Tab.getD (t.agent a).methods record.toNat 0 ≠ 3 ∧ e.addr.toNat % 64 = 0 ∧ off.toNat + data.length ≤ e.len.toNat) ∧
    (∃ (a : Fin 8) (h : PortHdr) (record : BitVec 24) (off : BitVec 38) (data : List Byte) (e : ShardEntry) (s : State),
    let d := s.dev; let t := ((d.onAgent a fun x => { x with downNext := (h.seq.toNat + 1) % 2 ^ 24 }).put (Reg.AGT_STATUS_epoch a) h.epoch.toNat); d.get (Reg.AGT_STATUS_port a) = 3 ∧ newer (d.get (Reg.AGT_STATUS_epoch a)) h.epoch.toNat = false ∧ h.seq.toNat = (d.agent a).downNext ∧ t.stepState a = 5 ∧ (e.len.toNat < off.toNat + data.length ∨ e.addr.toNat % 64 ≠ 0)) ∧
    (∃ (a : Fin 8) (h : PortHdr) (id : BitVec 40) (key : BitVec 128) (threshold : BitVec 13) (n mode : Nat) (s : State),
    let d := s.dev; let t := ((d.onAgent a fun x => { x with downNext := (h.seq.toNat + 1) % 2 ^ 24 }).put (Reg.AGT_STATUS_epoch a) h.epoch.toNat).ackFromAgent a h.seq.toNat; d.get (Reg.AGT_STATUS_port a) = 3 ∧ newer (d.get (Reg.AGT_STATUS_epoch a)) h.epoch.toNat = false ∧ h.seq.toNat = (d.agent a).downNext ∧ t.stepState a = 4 ∧ (t.agent a).cut = some (id.toNat, n, mode)) ∧
    (∃ (a : Fin 8) (h : PortHdr) (id : BitVec 40) (key : BitVec 128) (threshold : BitVec 13) (s : State),
    let d := s.dev; let t := ((d.onAgent a fun x => { x with downNext := (h.seq.toNat + 1) % 2 ^ 24 }).put (Reg.AGT_STATUS_epoch a) h.epoch.toNat).ackFromAgent a h.seq.toNat; d.get (Reg.AGT_STATUS_port a) = 3 ∧ newer (d.get (Reg.AGT_STATUS_epoch a)) h.epoch.toNat = false ∧ h.seq.toNat = (d.agent a).downNext ∧ t.stepState a = 5 ∧ id.toNat = t.agentStep a) ∧
    (∃ (a : Fin 8) (h : PortHdr) (gen : BitVec 16) (add remove : List (BitVec 128)) (s : State),
    let d := s.dev; let t := ((d.onAgent a fun x => { x with downNext := (h.seq.toNat + 1) % 2 ^ 24 }).put (Reg.AGT_STATUS_epoch a) h.epoch.toNat).ackFromAgent a h.seq.toNat; d.get (Reg.AGT_STATUS_port a) = 3 ∧ newer (d.get (Reg.AGT_STATUS_epoch a)) h.epoch.toNat = false ∧ h.seq.toNat = (d.agent a).downNext ∧ t.stepState a ≠ 6) ∧
    (∃ (a : Fin 8) (h : PortHdr) (record : BitVec 24) (off : BitVec 38) (token : Word) (data : List Byte) (e : ShardEntry) (s : State),
    let d := s.dev; let t := ((d.onAgent a fun x => { x with downNext := (h.seq.toNat + 1) % 2 ^ 24 }).put (Reg.AGT_STATUS_epoch a) h.epoch.toNat).ackFromAgent a h.seq.toNat; d.get (Reg.AGT_STATUS_port a) = 3 ∧ newer (d.get (Reg.AGT_STATUS_epoch a)) h.epoch.toNat = false ∧ h.seq.toNat = (d.agent a).downNext ∧ (t.stepState a = 1 ∨ t.stepState a = 4) ∧ Tab.getD (t.agent a).methods record.toNat 0 = 3 ∧ e.addr.toNat % 64 = 0 ∧ off.toNat + data.length ≤ e.len.toNat ∧ 8 ≤ e.len.toNat) ∧
    (∃ (a : Fin 8) (h : PortHdr) (step : BitVec 40) (s : State),
    s.dev.get (Reg.AGT_STATUS_port a) = 3 ∧ newer (s.dev.get (Reg.AGT_STATUS_epoch a)) h.epoch.toNat = false ∧ h.seq.toNat ≠ (s.dev.agent a).downNext ∧ ((s.dev.agent a).downNext + 2 ^ 24 - h.seq.toNat) % 2 ^ 24 < 2 ^ 23 ∧ ((s.dev.agent a).held.any (HeldEv.isShard h.seq.toNat)) = false) :=
  ⟨⟨0, wHdr, 1#40, 2#128, 16#13, [], [], st (Dev.reset.setAgentPort 0 3), by decide⟩,
   ⟨0, ⟨0#24, 0#32, 0#32⟩, st ((Dev.reset.setStepState 0 1).setAgentPort 0 3), by decide⟩,
   ⟨0, ⟨0#24, 0#32, 0#32⟩, 0#40, 2#128, 16#13, st ((Dev.reset.setStepState 0 2).setAgentPort 0 3), by decide⟩,
   ⟨0, ⟨0#24, 0#32, 0#32⟩, 0#40, 2#128, 16#13, st ((Dev.reset.setAgent 0 { AgentSt.reset with committed := some 3 }).setAgentPort 0 3), by decide⟩,
   ⟨0, ⟨0#24, 0#32, 0#32⟩, 0#40, 2#128, 16#13, st ((Dev.reset.setStepState 0 2).setAgentPort 0 3), by decide⟩,
   ⟨0, ⟨0#24, 0#32, 0#32⟩, 0#40, 2#128, 16#13, st ((Dev.reset.setStepState 0 6).setAgentPort 0 3), by decide⟩,
   ⟨0, ⟨0#24, 0#32, 0#32⟩, 7#32, 4#40, true, st ((Dev.reset.setStepState 0 1).setAgentPort 0 3), by decide⟩,
   ⟨0, ⟨0#24, 0#32, 0#32⟩, 7#32, 2#40, true, st (((Dev.reset.setStepState 0 1).setAgent 0 { AgentSt.reset with committed := some 3 }).setAgentPort 0 3), by decide⟩,
   ⟨0, wHdr, [], st ((Dev.reset.setStepState 0 1).setAgentPort 0 3), by decide⟩,
   ⟨0, wHdr, [], st (Dev.reset.setAgent 0 { AgentSt.reset with up := List.replicate 4 ⟨0, 8, [], 0, 0, 0, true⟩ }), by decide⟩,
   ⟨0, wHdr, [], st ((Dev.reset.setAgentPort 0 3).put (Reg.AGT_STATUS_epoch 0) 5), by decide⟩,
   ⟨0, wHdr, 1#24, 0#38, [1#8], none, st ((Dev.reset.setStepState 0 1).setAgentPort 0 3), by decide⟩,
   ⟨0, wHdr, 3#40, st ((Dev.reset.setStepState 0 4).setAgentPort 0 3), by decide⟩,
   ⟨0, wHdr, 1#24, 0#38, [1#8], ⟨64#64, 8#38⟩, st ((Dev.reset.setStepState 0 5).setAgentPort 0 3), by decide⟩,
   ⟨0, wHdr, 1#24, 8#38, [1#8], ⟨64#64, 8#38⟩, st ((Dev.reset.setStepState 0 5).setAgentPort 0 3), by decide⟩,
   ⟨0, wHdr, 7#40, 2#128, 16#13, 3, 0, st (((Dev.reset.setStepState 0 4).setAgent 0 { AgentSt.reset with cut := some (7, 3, 0), cutPhase := 3 }).setAgentPort 0 3), by decide⟩,
   ⟨0, wHdr, 0#40, 2#128, 16#13, st (((Dev.reset.setStepState 0 5).setAgent 0 { AgentSt.reset with stopped := true }).setAgentPort 0 3), by decide⟩,
   ⟨0, wHdr, 1#16, [5#128], [], st (Dev.reset.setAgentPort 0 3), by decide⟩,
   ⟨0, wHdr, 5#24, 0#38, 1#64, [1#8], ⟨64#64, 8#38⟩, st (((Dev.reset.setStepState 0 4).setAgent 0 { AgentSt.reset with methods := [(5, 3)] }).setAgentPort 0 3), by decide⟩,
   ⟨0, wHdr, 3#40, st ((Dev.reset.setAgent 0 { AgentSt.reset with downNext := 1 }).setAgentPort 0 3), by decide⟩⟩

set_option maxRecDepth 20000 in
theorem test_witness_RegWindow :
    (∃ (a : Fin 8) (h : PortHdr) (off : BitVec 24) (v : Word) (dma : Dma) (s : State),
    let d := s.dev; let t := ((d.onAgent a fun x => { x with downNext := (h.seq.toNat + 1) % 2 ^ 24 }).put (Reg.AGT_STATUS_epoch a) h.epoch.toNat).ackFromAgent a h.seq.toNat; (d.get (Reg.AGT_STATUS_port a) = 3 ∨ d.get (Reg.AGT_STATUS_port a) = 4) ∧ newer (d.get (Reg.AGT_STATUS_epoch a)) h.epoch.toNat = false ∧ h.seq.toNat = (d.agent a).downNext) ∧
    (∃ (a : Fin 8) (h : PortHdr) (off : BitVec 24) (v : Word) (dma : Dma) (s : State),
    let d := s.dev; let t := ((d.onAgent a fun x => { x with downNext := (h.seq.toNat + 1) % 2 ^ 24 }).put (Reg.AGT_STATUS_epoch a) h.epoch.toNat).ackFromAgent a h.seq.toNat; (d.get (Reg.AGT_STATUS_port a) = 3 ∨ d.get (Reg.AGT_STATUS_port a) = 4) ∧ newer (d.get (Reg.AGT_STATUS_epoch a)) h.epoch.toNat = false ∧ h.seq.toNat = (d.agent a).downNext) ∧
    (∃ (a : Fin 8) (h : PortHdr) (req : BitVec 24) (code : Byte) (data : Word) (w0 w1 chip seq : Nat) (wr : Bool) (s : State),
    let d := s.dev; let u := (d.addU (Cnt.AGP_CNT_AGP_UP a) 32).setAport a { d.aport a with upNext := (h.seq.toNat + 1) % 2 ^ 24 }; let t := u.ackToAgent a h.seq.toNat; d.get (Reg.AGP_STATUS_port a) = 3 ∧ u.silent = false ∧ h.seq.toNat = (d.aport a).upNext ∧ (t.ra.windows.find? fun w => w.1 == a.val && w.2.1 == req.toNat) = some (w0, w1, some (chip, seq), wr)) ∧
    (∃ (a : Fin 8) (h : PortHdr) (req : BitVec 24) (code : Byte) (data : Word) (w0 w1 chip : Nat) (wr : Bool) (s : State),
    let d := s.dev; let u := (d.addU (Cnt.AGP_CNT_AGP_UP a) 32).setAport a { d.aport a with upNext := (h.seq.toNat + 1) % 2 ^ 24 }; let t := u.ackToAgent a h.seq.toNat; d.get (Reg.AGP_STATUS_port a) = 3 ∧ u.silent = false ∧ h.seq.toNat = (d.aport a).upNext ∧ (t.ra.windows.find? fun w => w.1 == a.val && w.2.1 == req.toNat) = some (w0, w1, none, wr) ∧ t.ra.target = some chip ∧ chipIsBroadcast chip = false) :=
  ⟨⟨0, ⟨0#24, 0#32, 0#32⟩, 0#24, 0#64, none, st (Dev.reset.setAgentPort 0 4), by decide⟩,
   ⟨0, ⟨0#24, 0#32, 0#32⟩, 0#24, 0#64, none, st (Dev.reset.setAgentPort 0 4), by decide⟩,
   ⟨0, wHdr, 5#24, 0#8, 7#64, 0, 5, 67, 9, false, st { Dev.reset.setAgentPort 0 3 with ra := { RaSt.reset with windows := [(0, 5, some (67, 9), false)] } }, by decide⟩,
   ⟨0, wHdr, 5#24, 0#8, 7#64, 0, 5, 3, false, st { Dev.reset.setAgentPort 0 3 with ra := { RaSt.reset with target := some 3, windows := [(0, 5, none, false)] } }, by decide⟩⟩

set_option maxRecDepth 20000 in
theorem test_witness_UpMessages :
    (∃ (a : Fin 8) (h : PortHdr) (body : List Word) (j : JobSt) (s : State),
    let d := s.dev; let ws := body.map BitVec.toNat; let u := (d.addU (Cnt.AGP_CNT_AGP_UP a) (16 + 8 * ws.length)).setAport a { d.aport a with upNext := (h.seq.toNat + 1) % 2 ^ 24 }; let t := u.ackToAgent a h.seq.toNat; let e := ((t.put (Reg.AGP_MARK_step a) (bits 24 40 (wd ws 0))).put (Reg.AGP_MARK_exec a) (bits 16 8 (wd ws 0))).incU (Cnt.AGP_CNT_AGP_MARKS a); (d.get (Reg.AGP_STATUS_port a) = 3 ∨ d.get (Reg.AGP_STATUS_port a) = 4) ∧ u.silent = false ∧ h.seq.toNat = (d.aport a).upNext ∧ e.jobOfAcc a = some j ∧ j.desc.job = h.job.toNat) ∧
    (∃ (a : Fin 8) (h : PortHdr) (body : List Word) (x : AccJob) (j : JobSt) (s : State),
    let d := s.dev; let ws := body.map BitVec.toNat; let u := (d.addU (Cnt.AGP_CNT_AGP_UP a) (16 + 8 * ws.length)).setAport a { d.aport a with upNext := (h.seq.toNat + 1) % 2 ^ 24 }; let t := u.ackToAgent a h.seq.toNat; (d.get (Reg.AGP_STATUS_port a) = 3 ∨ d.get (Reg.AGP_STATUS_port a) = 4) ∧ u.silent = false ∧ h.seq.toNat = (d.aport a).upNext ∧ t.jobOfAcc a = some j ∧ j.desc.job = h.job.toNat ∧ (t.incU Cnt.AGR_CNT_AGR_TILES).jobOfAcc a = some j ∧ j.accOf a = some x ∧ ((Tile.ofBody ws).step ≠ j.step ∨ (Tile.ofBody ws).exec ≠ x.exec)) ∧
    (∃ (a : Fin 8) (h : PortHdr) (body : List Word) (x : AccJob) (j : JobSt) (s : State),
    let d := s.dev; let ws := body.map BitVec.toNat; let i := Tile.ofBody ws; let u := (d.addU (Cnt.AGP_CNT_AGP_UP a) (16 + 8 * ws.length)).setAport a { d.aport a with upNext := (h.seq.toNat + 1) % 2 ^ 24 }; let t := u.ackToAgent a h.seq.toNat; (d.get (Reg.AGP_STATUS_port a) = 3 ∨ d.get (Reg.AGP_STATUS_port a) = 4) ∧ u.silent = false ∧ h.seq.toNat = (d.aport a).upNext ∧ t.jobOfAcc a = some j ∧ j.desc.job = h.job.toNat ∧ (t.incU Cnt.AGR_CNT_AGR_TILES).jobOfAcc a = some j ∧ j.accOf a = some x ∧ i.step = j.step ∧ i.exec = x.exec ∧ x.mark = none ∧ x.ids.contains i.id = true) ∧
    (∃ (a : Fin 8) (h : PortHdr) (body : List Word) (x : AccJob) (m : MarkInfo) (j : JobSt) (s : State),
    let d := s.dev; let ws := body.map BitVec.toNat; let i := Tile.ofBody ws; let u := (d.addU (Cnt.AGP_CNT_AGP_UP a) (16 + 8 * ws.length)).setAport a { d.aport a with upNext := (h.seq.toNat + 1) % 2 ^ 24 }; let t := u.ackToAgent a h.seq.toNat; (d.get (Reg.AGP_STATUS_port a) = 3 ∨ d.get (Reg.AGP_STATUS_port a) = 4) ∧ u.silent = false ∧ h.seq.toNat = (d.aport a).upNext ∧ t.jobOfAcc a = some j ∧ j.desc.job = h.job.toNat ∧ (t.incU Cnt.AGR_CNT_AGR_TILES).jobOfAcc a = some j ∧ j.accOf a = some x ∧ i.step = j.step ∧ i.exec = x.exec ∧ x.mark = some m ∧ m.sampled ≤ x.tiles) ∧
    (∃ (a : Fin 8) (h : PortHdr) (body : List Word) (x : AccJob) (j : JobSt) (s : State),
    let d := s.dev; let ws := body.map BitVec.toNat; let i := Tile.ofBody ws; let u := (d.addU (Cnt.AGP_CNT_AGP_UP a) (16 + 8 * ws.length)).setAport a { d.aport a with upNext := (h.seq.toNat + 1) % 2 ^ 24 }; let t := u.ackToAgent a h.seq.toNat; let f := ((t.incU Cnt.AGR_CNT_AGR_TILES).confirmRemovals a (some i.gen)).flushResid; let g := { f with cache := f.cache.map fun (b : OpndBlock) => if (i.idsA ++ i.idsB).contains b.id then { b with used := f.nextUse } else b }; let e := g.onAcc j.desc.job a fun x => { x with tiles := x.tiles + 1, ids := x.ids ++ [i.id], named := setBit x.named i.decl }; (d.get (Reg.AGP_STATUS_port a) = 3 ∨ d.get (Reg.AGP_STATUS_port a) = 4) ∧ u.silent = false ∧ h.seq.toNat = (d.aport a).upNext ∧ t.jobOfAcc a = some j ∧ j.desc.job = h.job.toNat ∧ (t.incU Cnt.AGR_CNT_AGR_TILES).jobOfAcc a = some j ∧ j.accOf a = some x ∧ i.step = j.step ∧ i.exec = x.exec ∧ x.mark = none ∧ x.ids.contains i.id = false ∧ (i.idsA ++ i.idsB).any e.agr.corrupt.contains = false ∧ e.tileVoid a i = false ∧ (i.ds && recExp (e.flowRec i.record) != i.scaleE) = false) ∧
    (∃ (a : Fin 8) (h : PortHdr) (id : BitVec 128) (block : List Byte) (j : JobSt) (s : State),
    let d := s.dev; let u := (d.addU (Cnt.AGP_CNT_AGP_UP a) (16 + (16 + (block.length + 7) / 8 * 8))).setAport a { d.aport a with upNext := (h.seq.toNat + 1) % 2 ^ 24 }; let t := u.ackToAgent a h.seq.toNat; let e := t.addU Cnt.AGR_CNT_AGR_OPND_BYTES block.length; (d.get (Reg.AGP_STATUS_port a) = 3 ∨ d.get (Reg.AGP_STATUS_port a) = 4) ∧ u.silent = false ∧ h.seq.toNat = (d.aport a).upNext ∧ t.jobOfAcc a = some j ∧ j.desc.job = h.job.toNat ∧ t.jobOfAcc a = some j ∧ block.length ≠ idLen id.toNat) ∧
    (∃ (a : Fin 8) (h : PortHdr) (id : BitVec 128) (block : List Byte) (j : JobSt) (s : State),
    let d := s.dev; let u := (d.addU (Cnt.AGP_CNT_AGP_UP a) (16 + (16 + (block.length + 7) / 8 * 8))).setAport a { d.aport a with upNext := (h.seq.toNat + 1) % 2 ^ 24 }; let t := u.ackToAgent a h.seq.toNat; let e := t.addU Cnt.AGR_CNT_AGR_OPND_BYTES block.length; (d.get (Reg.AGP_STATUS_port a) = 3 ∨ d.get (Reg.AGP_STATUS_port a) = 4) ∧ u.silent = false ∧ h.seq.toNat = (d.aport a).upNext ∧ t.jobOfAcc a = some j ∧ j.desc.job = h.job.toNat ∧ t.jobOfAcc a = some j ∧ block.length = idLen id.toNat ∧ crc64 (block.map BitVec.toNat) = id.toNat % 2 ^ 64) ∧
    (∃ (a : Fin 8) (h : PortHdr) (id : BitVec 32) (status : Byte) (c : CutSt) (i : JobSt) (j : JobSt) (s : State),
    let d := s.dev; let u := (d.addU (Cnt.AGP_CNT_AGP_UP a) (16 + 8)).setAport a { d.aport a with upNext := (h.seq.toNat + 1) % 2 ^ 24 }; let t := u.ackToAgent a h.seq.toNat; (d.get (Reg.AGP_STATUS_port a) = 3 ∨ d.get (Reg.AGP_STATUS_port a) = 4) ∧ u.silent = false ∧ h.seq.toNat = (d.aport a).upNext ∧ t.jobOfAcc a = some j ∧ j.desc.job = h.job.toNat ∧ t.cutOf j.desc.job = some (i, c) ∧ c.step % 2 ^ 32 = id.toNat ∧ ((i.accOf a).bind AccJob.cutAck).isSome = false ∧ (status.toNat = 0 ∨ status.toNat = 1 ∨ status.toNat = 3)) ∧
    (∃ (a : Fin 8) (h : PortHdr) (id : BitVec 32) (status : Byte) (c : CutSt) (i : JobSt) (j : JobSt) (s : State),
    let d := s.dev; let u := (d.addU (Cnt.AGP_CNT_AGP_UP a) (16 + 8)).setAport a { d.aport a with upNext := (h.seq.toNat + 1) % 2 ^ 24 }; let t := u.ackToAgent a h.seq.toNat; (d.get (Reg.AGP_STATUS_port a) = 3 ∨ d.get (Reg.AGP_STATUS_port a) = 4) ∧ u.silent = false ∧ h.seq.toNat = (d.aport a).upNext ∧ t.jobOfAcc a = some j ∧ j.desc.job = h.job.toNat ∧ t.cutOf j.desc.job = some (i, c) ∧ c.step % 2 ^ 32 = id.toNat ∧ ((i.accOf a).bind AccJob.cutAck).isSome = false ∧ (status.toNat = 2 ∨ status.toNat = 4 ∨ status.toNat = 5)) ∧
    (∃ (a : Fin 8) (h : PortHdr) (record : BitVec 24) (v : Word) (c : CutSt) (i : JobSt) (j : JobSt) (s : State),
    let d := s.dev; let u := (d.addU (Cnt.AGP_CNT_AGP_UP a) (16 + 16)).setAport a { d.aport a with upNext := (h.seq.toNat + 1) % 2 ^ 24 }; let t := u.ackToAgent a h.seq.toNat; (d.get (Reg.AGP_STATUS_port a) = 3 ∨ d.get (Reg.AGP_STATUS_port a) = 4) ∧ u.silent = false ∧ h.seq.toNat = (d.aport a).upNext ∧ t.jobOfAcc a = some j ∧ j.desc.job = h.job.toNat ∧ t.cutOf j.desc.job = some (i, c) ∧ c.pulls.contains (a.val, record.toNat, true) = true) ∧
    (∃ (a : Fin 8) (h : PortHdr) (record : BitVec 24) (off : BitVec 38) (data : List Byte) (j : JobSt) (s : State),
    let d := s.dev; let u := (d.addU (Cnt.AGP_CNT_AGP_UP a) (16 + (16 + (data.length + 7) / 8 * 8))).setAport a { d.aport a with upNext := (h.seq.toNat + 1) % 2 ^ 24 }; let t := u.ackToAgent a h.seq.toNat; (d.get (Reg.AGP_STATUS_port a) = 3 ∨ d.get (Reg.AGP_STATUS_port a) = 4) ∧ u.silent = false ∧ h.seq.toNat = (d.aport a).upNext ∧ t.jobOfAcc a = some j ∧ j.desc.job = h.job.toNat ∧ j.isExchange record.toNat = false) ∧
    (∃ (a : Fin 8) (h : PortHdr) (status first time : Word) (s : State),
    let d := s.dev; let u := (d.addU (Cnt.AGP_CNT_AGP_UP a) (16 + 24)).setAport a { d.aport a with upNext := (h.seq.toNat + 1) % 2 ^ 24 }; let t := u.ackToAgent a h.seq.toNat; let old := if (t.aport a).fault.2 = time.toNat then (t.aport a).fault.1 else 0; let new := fun (i : Nat) => bitAt i status.toNat && !bitAt i old; (d.get (Reg.AGP_STATUS_port a) = 3 ∨ d.get (Reg.AGP_STATUS_port a) = 4) ∧ u.silent = false ∧ h.seq.toNat = (d.aport a).upNext) ∧
    (∃ (a : Fin 8) (h : PortHdr) (body : List Word) (s : State),
    let d := s.dev; let u := (d.addU (Cnt.AGP_CNT_AGP_UP a) (16 + 8 * body.length)).setAport a { d.aport a with upNext := (h.seq.toNat + 1) % 2 ^ 24 }; let t := u.ackToAgent a h.seq.toNat; let e := (t.setAport a { t.aport a with decl := body.map BitVec.toNat }).put (Reg.AGP_STATUS_decl a) 1; let bad := (declsOf (e.aport a).decl).filter fun w => (declInstall (wd w.2 0) (wd w.2 1) (wd w.2 2)).isNone; (d.get (Reg.AGP_STATUS_port a) = 3 ∨ d.get (Reg.AGP_STATUS_port a) = 4) ∧ u.silent = false ∧ h.seq.toNat = (d.aport a).upNext ∧ bad ≠ [] ∧ e.jobOfAcc a = none) ∧
    (∃ (a : Fin 8) (h : PortHdr) (body : List Word) (s : State),
    let d := s.dev; let u := (d.addU (Cnt.AGP_CNT_AGP_UP a) (16 + 8 * body.length)).setAport a { d.aport a with upNext := (h.seq.toNat + 1) % 2 ^ 24 }; let t := u.ackToAgent a h.seq.toNat; let e := (t.setAport a { t.aport a with decl := body.map BitVec.toNat }).put (Reg.AGP_STATUS_decl a) 1; (d.get (Reg.AGP_STATUS_port a) = 3 ∨ d.get (Reg.AGP_STATUS_port a) = 4) ∧ u.silent = false ∧ h.seq.toNat = (d.aport a).upNext ∧ ((declsOf (e.aport a).decl).filter fun w => (declInstall (wd w.2 0) (wd w.2 1) (wd w.2 2)).isNone) = []) ∧
    (∃ (a : Fin 8) (h : PortHdr) (record : BitVec 24) (j : JobSt) (s : State),
    let d := s.dev; let u := (d.addU (Cnt.AGP_CNT_AGP_UP a) (16 + 8)).setAport a { d.aport a with upNext := (h.seq.toNat + 1) % 2 ^ 24 }; let t := u.ackToAgent a h.seq.toNat; (d.get (Reg.AGP_STATUS_port a) = 3 ∨ d.get (Reg.AGP_STATUS_port a) = 4) ∧ u.silent = false ∧ h.seq.toNat = (d.aport a).upNext ∧ t.jobOfAcc a = some j ∧ j.desc.job = h.job.toNat ∧ j.isExchange record.toNat = true) ∧
    (∃ (a : Fin 8) (j : JobSt) (x : AccJob) (s : State),
    s.dev.jobOfAcc a = some j ∧ j.accOf a = some x ∧ x.mark.isSome = true ∧ x.complete = false ∧ x.overdue = false) :=
  ⟨⟨0, ⟨0#24, 1#32, 0#32⟩, [], wJob, wUp (Dev.reset.setJob wJob), by decide⟩,
   ⟨0, ⟨0#24, 1#32, 0#32⟩, [0x1000000#64], wAcc, wJob, wUp (Dev.reset.setJob wJob), by decide⟩,
   ⟨0, ⟨0#24, 1#32, 0#32⟩, [], { wAcc with ids := [0] }, { wJob with acc := [(0, { wAcc with ids := [0] })] }, wUp (Dev.reset.setJob { wJob with acc := [(0, { wAcc with ids := [0] })] }), by decide⟩,
   ⟨0, ⟨0#24, 1#32, 0#32⟩, [], { wAcc with mark := some ⟨0, 0, 0, 0, [], [], []⟩ }, ⟨0, 0, 0, 0, [], [], []⟩, { wJob with acc := [(0, { wAcc with mark := some ⟨0, 0, 0, 0, [], [], []⟩ })] }, wUp (Dev.reset.setJob { wJob with acc := [(0, { wAcc with mark := some ⟨0, 0, 0, 0, [], [], []⟩ })] }), by decide⟩,
   ⟨0, ⟨0#24, 1#32, 0#32⟩, wTileBody, wAcc, wJob, wUp { (Dev.reset.setJob wJob).setProfile 16 0 (2 ^ 62 + 2) 2 with cache := [⟨wBlock, [0, 0], 0, [], none⟩] }, by decide⟩,
   ⟨0, ⟨0#24, 1#32, 0#32⟩, 7#128, [1#8], wJob, wUp (Dev.reset.setJob wJob), by decide⟩,
   ⟨0, ⟨0#24, 1#32, 0#32⟩, 0#128, [], wJob, wUp (Dev.reset.setJob wJob), by decide⟩,
   ⟨0, ⟨0#24, 1#32, 0#32⟩, 3#32, 0#8, wCut, wCutJob, wCutJob, wUp (Dev.reset.setJob wCutJob), by decide⟩,
   ⟨0, ⟨0#24, 1#32, 0#32⟩, 3#32, 2#8, wCut, wCutJob, wCutJob, wUp (Dev.reset.setJob wCutJob), by decide⟩,
   ⟨0, ⟨0#24, 1#32, 0#32⟩, 5#24, 9#64, wCut, wCutJob, wCutJob, wUp (Dev.reset.setJob wCutJob), by decide⟩,
   ⟨0, ⟨0#24, 1#32, 0#32⟩, 6#24, 0#38, [], wJob, wUp (Dev.reset.setJob wJob), by decide⟩,
   ⟨0, ⟨0#24, 1#32, 0#32⟩, 8#64, 0#64, 5#64, wUp Dev.reset, by decide⟩,
   ⟨0, ⟨0#24, 1#32, 0#32⟩, [0#64, 0x4000000000000000#64, 0#64, 0#64], wUp Dev.reset, by decide⟩,
   ⟨0, ⟨0#24, 1#32, 0#32⟩, [], wUp (Dev.reset.setJob wJob), by decide⟩,
   ⟨0, ⟨0#24, 1#32, 0#32⟩, 5#24, { wJob with desc := { wJob.desc with recs := [⟨5, 3, 8, 0, 0, 0, [0]⟩] } }, wUp (Dev.reset.setJob { wJob with desc := { wJob.desc with recs := [⟨5, 3, 8, 0, 0, 0, [0]⟩] } }), by decide⟩,
   ⟨0, { wJob with acc := [(0, { wAcc with mark := some ⟨0, 0, 0, 4, [], [], []⟩ })] }, { wAcc with mark := some ⟨0, 0, 0, 4, [], [], []⟩ }, st (Dev.reset.setJob { wJob with acc := [(0, { wAcc with mark := some ⟨0, 0, 0, 4, [], [], []⟩ })] }), by decide⟩⟩

set_option maxRecDepth 20000 in
theorem test_witness_GateMessages :
    (∃ (h : FabHdr) (job : BitVec 32) (step : BitVec 40) (round : Byte) (pairs : List (BitVec 16 × Fin 8 × BitVec 24 × Word)) (j : JobSt) (s : State),
    s.dev.passes h = true ∧ s.dev.jobOf job.toNat = some j ∧ j.phase = 2 ∧ round.toNat ≠ 0xFF) ∧
    (∃ (h : FabHdr) (job : BitVec 32) (step : BitVec 40) (pairs : List (BitVec 16 × Fin 8 × BitVec 24 × Word)) (j : JobSt) (s : State),
    s.dev.passes h = true ∧ s.dev.jobOf job.toNat = some j ∧ j.phase = 2) ∧
    (∃ (h : FabHdr) (job : BitVec 32) (step : BitVec 40) (round : Byte) (covered : Word) (seeds : List (BitVec 16 × Fin 8)) (whole : Bool) (j : JobSt) (s : State),
    s.dev.passes h = true ∧ s.dev.jobOf job.toNat = some j ∧ j.phase = 2 ∧ step.toNat = j.step ∧ round.toNat = j.nextRound ∧ j.gate ≠ 0 ∧ j.gate ≠ 5 ∧ (s.dev.stepChildren j).contains h.src.toNat = true ∧ Tab.find h.src.toNat j.reports = none) ∧
    (∃ (h : FabHdr) (job : BitVec 32) (step : BitVec 40) (round : Byte) (covered : Word) (seeds : List (BitVec 16 × Fin 8)) (whole : Bool) (j : JobSt) (s : State),
    s.dev.passes h = true ∧ s.dev.jobOf job.toNat = some j ∧ j.phase = 2 ∧ step.toNat = j.step ∧ round.toNat = j.nextRound ∧ (j.gate = 1 ∨ j.gate = 3) ∧ (s.dev.stepChildren j).contains h.src.toNat = true ∧ Tab.find h.src.toNat j.reports = none) ∧
    (∃ (h : FabHdr) (job : BitVec 32) (step : BitVec 40) (round status : Byte) (covered : Word) (seeds : List (BitVec 16 × Fin 8)) (whole : Bool) (j : JobSt) (s : State),
    s.dev.passes h = true ∧ s.dev.jobOf job.toNat = some j ∧ j.phase = 2 ∧ ((Tab.find h.src.toNat j.reports).isSome = true ∨ step.toNat ≠ j.step)) ∧
    (∃ (h : FabHdr) (job : BitVec 32) (step : BitVec 40) (j : JobSt) (s : State),
    s.dev.passes h = true ∧ s.dev.jobOf job.toNat = some j ∧ j.phase = 2 ∧ j.step = step.toNat ∧ j.gate = 2) ∧
    (∃ (h : FabHdr) (job : BitVec 32) (step : BitVec 40) (j : JobSt) (s : State),
    s.dev.passes h = true ∧ s.dev.jobOf job.toNat = some j ∧ j.phase = 2 ∧ j.step ≠ step.toNat) ∧
    (∃ (h : FabHdr) (job : BitVec 32) (step : BitVec 40) (round : Byte) (seeds : List (BitVec 16 × Fin 8)) (whole : Bool) (j : JobSt) (s : State),
    s.dev.passes h = true ∧ s.dev.jobOf job.toNat = some j ∧ j.phase = 2 ∧ j.step = step.toNat ∧ round.toNat = j.round + 1 ∧ 1 ≤ j.gate ∧ j.gate ≤ 3) ∧
    (∃ (h : FabHdr) (job : BitVec 32) (step : BitVec 40) (seeds : List (BitVec 16 × Fin 8)) (whole : Bool) (j : JobSt) (s : State),
    s.dev.passes h = true ∧ s.dev.jobOf job.toNat = some j ∧ j.phase = 2 ∧ j.step = step.toNat ∧ 1 ≤ j.gate ∧ j.gate ≤ 4) :=
  ⟨⟨wOwn, 1#32, 0#40, 0#8, [], wJob, st (Dev.reset.setJob wJob), by decide⟩,
   ⟨wOwn, 1#32, 0#40, [], wJob, st (Dev.reset.setJob wJob), by decide⟩,
   ⟨wOne, 1#32, 0#40, 0#8, 1#64, [], false, wPair, st (wMem.setJob wPair), by refine ⟨by decide, by decide, by decide, by decide, by decide, by decide, by decide, ?_, by decide⟩; show (liveChildren (treeNodes 0 (chipsOf [0, 8])) _ _).contains 1 = true; rw [test_chips]; decide⟩,
   ⟨wOne, 1#32, 0#40, 0#8, 1#64, [], false, wPair, st (wMem.setJob wPair), by refine ⟨by decide, by decide, by decide, by decide, by decide, by decide, ?_, by decide⟩; show (liveChildren (treeNodes 0 (chipsOf [0, 8])) _ _).contains 1 = true; rw [test_chips]; decide⟩,
   ⟨wOwn, 1#32, 1#40, 0#8, 0#8, 1#64, [], false, wJob, st (Dev.reset.setJob wJob), by decide⟩,
   ⟨wOwn, 1#32, 0#40, { wJob with gate := 2 }, st (Dev.reset.setJob { wJob with gate := 2 }), by decide⟩,
   ⟨wOwn, 1#32, 1#40, wJob, st (Dev.reset.setJob wJob), by decide⟩,
   ⟨wOwn, 1#32, 0#40, 1#8, [], false, wJob, st (Dev.reset.setJob wJob), by decide⟩,
   ⟨wOwn, 1#32, 0#40, [], false, wJob, st (Dev.reset.setJob wJob), by decide⟩⟩

set_option maxRecDepth 20000 in
theorem test_witness_GenerationMessages :
    (∃ (h : FabHdr) (job : BitVec 32) (step : BitVec 40) (copy : Bool) (gen : BitVec 32) (j k : JobSt) (s : State),
    let t := s.dev.setJob (j.elide h 0x40 step.toNat); s.dev.passes h = true ∧ s.dev.jobOf job.toNat = some j ∧ j.phase = 2 ∧ j.elides h 0x40 step.toNat = false ∧ t.jobOf job.toNat = some k ∧ k.cut = none ∧ k.gate ≠ 0 ∧ k.gate ≠ 5 ∧ ones18 t.absentSlots < 3) ∧
    (∃ (h : FabHdr) (job : BitVec 32) (step : BitVec 40) (copy : Bool) (gen : BitVec 32) (j k : JobSt) (s : State),
    let t := s.dev.setJob (j.elide h 0x40 step.toNat); s.dev.passes h = true ∧ s.dev.jobOf job.toNat = some j ∧ j.phase = 2 ∧ j.elides h 0x40 step.toNat = false ∧ t.jobOf job.toNat = some k ∧ k.cut = none ∧ k.gate ≠ 0 ∧ k.gate ≠ 5 ∧ 3 ≤ ones18 t.absentSlots) ∧
    (∃ (h : FabHdr) (job : BitVec 32) (step : BitVec 40) (copy : Bool) (gen : BitVec 32) (j : JobSt) (s : State),
    s.dev.passes h = true ∧ s.dev.jobOf job.toNat = some j ∧ j.phase = 2 ∧ j.elides h 0x40 step.toNat = true) ∧
    (∃ (job : BitVec 32) (j : JobSt) (c : CutSt) (s : State),
    s.dev.cutOf job.toNat = some (j, c) ∧ c.reported = false) ∧
    (∃ (h : FabHdr) (job : BitVec 32) (step : BitVec 40) (code : Byte) (gen count : BitVec 32) (i : JobSt) (c : CutSt) (j : JobSt) (s : State),
    let t := s.dev.setJob (j.elide h 0x41 step.toNat); s.dev.passes h = true ∧ s.dev.jobOf job.toNat = some j ∧ j.phase = 2 ∧ j.elides h 0x41 step.toNat = false ∧ t.cutOf job.toNat = some (i, c) ∧ c.step = step.toNat ∧ c.gen = gen.toNat ∧ Tab.find h.src.toNat c.reps = none) ∧
    (∃ (h : FabHdr) (job gen : BitVec 32) (slot : Fin 2) (role : Fin 4) (k : Fin 32) (row : Word) (data : List Byte) (s : State),
    s.dev.passes h = true ∧ s.dev.jobOf job.toNat = none) ∧
    (∃ (h : FabHdr) (job gen : BitVec 32) (slot : Fin 2) (role : Fin 4) (k : Fin 32) (row : Word) (data : List Byte) (j : JobSt) (s : State),
    s.dev.passes h = true ∧ s.dev.jobOf job.toNat = some j ∧ j.desc.job = job.toNat ∧ role.val ≠ 3 ∧ j.rest.active = false ∧ (j.slot s.dev.rack slot).gen = gen.toNat ∧ (j.slot s.dev.rack slot).state < 3 ∧ j.newest s.dev.rack ≠ some slot.val ∧ s.dev.partState (row.toNat % 16) ≠ 4) ∧
    (∃ (h : FabHdr) (job : BitVec 32) (gen : BitVec 32) (slot : Fin 2) (role : Fin 4) (k : Fin 32) (row : Word) (i : JobSt) (c : CutSt) (j : JobSt) (s : State),
    s.dev.passes h = true ∧ s.dev.jobOf job.toNat = some j ∧ j.phase = 2 ∧ j.desc.job = job.toNat ∧ s.dev.cutOf job.toNat = some (i, c) ∧ c.gen = gen.toNat ∧ c.units.contains (row.toNat, role.val, k.val) = true) ∧
    (∃ (h : FabHdr) (job : BitVec 32) (gen : BitVec 32) (slot : Fin 2) (role : Fin 4) (k : Fin 32) (row : Word) (result : Byte) (i : JobSt) (c : CutSt) (j : JobSt) (s : State),
    s.dev.passes h = true ∧ s.dev.jobOf job.toNat = some j ∧ j.phase = 2 ∧ j.desc.job = job.toNat ∧ j.rest.active = false ∧ result.toNat ≠ 0 ∧ s.dev.cutOf job.toNat = some (i, c) ∧ c.gen = gen.toNat ∧ c.units.contains (row.toNat, role.val, k.val) = true) ∧
    (∃ (h : FabHdr) (job : BitVec 32) (gen : BitVec 32) (failed : Bool) (tables : List Byte) (j : JobSt) (s : State),
    s.dev.passes h = true ∧ s.dev.jobOf job.toNat = some j ∧ j.phase = 2) ∧
    (∃ (h : FabHdr) (job : BitVec 32) (step : BitVec 40) (code : Byte) (gen : BitVec 32) (j k : JobSt) (s : State),
    let t := s.dev.setJob (j.elide h 0x42 step.toNat); s.dev.passes h = true ∧ s.dev.jobOf job.toNat = some j ∧ j.phase = 2 ∧ j.elides h 0x42 step.toNat = false ∧ t.jobOf job.toNat = some k ∧ code.toNat ≠ 0) ∧
    (∃ (h : FabHdr) (job : BitVec 32) (step : BitVec 40) (gen : BitVec 32) (i : JobSt) (c : CutSt) (j k : JobSt) (s : State),
    let t := s.dev.setJob (j.elide h 0x42 step.toNat); let e := t.onCut job.toNat fun c => if c.gen = gen.toNat then { c with racks := (c.racks ++ [h.src.toNat / 32]).eraseDups } else c; s.dev.passes h = true ∧ s.dev.jobOf job.toNat = some j ∧ j.phase = 2 ∧ j.elides h 0x42 step.toNat = false ∧ t.jobOf job.toNat = some k ∧ e.cutOf job.toNat = some (i, c) ∧ c.gen = gen.toNat ∧ (k.racks.all c.racks.contains) = true) ∧
    (∃ (h : FabHdr) (job : BitVec 32) (step : BitVec 40) (gen : BitVec 32) (j k : JobSt) (s : State),
    let t := s.dev.setJob (j.elide h 0x43 step.toNat); s.dev.passes h = true ∧ s.dev.jobOf job.toNat = some j ∧ j.phase = 2 ∧ j.elides h 0x43 step.toNat = false ∧ t.jobOf job.toNat = some k ∧ k.undecided gen.toNat = true) ∧
    (∃ (h : FabHdr) (job : BitVec 32) (step : BitVec 40) (gen : BitVec 32) (j k : JobSt) (s : State),
    let t := s.dev.setJob (j.elide h 0x43 step.toNat); s.dev.passes h = true ∧ s.dev.jobOf job.toNat = some j ∧ j.phase = 2 ∧ j.elides h 0x43 step.toNat = false ∧ t.jobOf job.toNat = some k ∧ k.undecided gen.toNat = false ∧ k.gate ≠ 0) ∧
    (∃ (h : FabHdr) (job : BitVec 32) (step : BitVec 40) (gen : BitVec 32) (j k : JobSt) (s : State),
    let t := s.dev.setJob (j.elide h 0x43 step.toNat); s.dev.passes h = true ∧ s.dev.jobOf job.toNat = some j ∧ j.phase = 2 ∧ j.elides h 0x43 step.toNat = false ∧ t.jobOf job.toNat = some k ∧ k.undecided gen.toNat = false ∧ k.gate = 0) ∧
    (∃ (h : FabHdr) (job : BitVec 32) (step : BitVec 40) (gen : BitVec 32) (j k : JobSt) (s : State),
    let t := s.dev.setJob (j.elide h 0x43 step.toNat); s.dev.passes h = true ∧ s.dev.jobOf job.toNat = some j ∧ j.phase = 2 ∧ j.elides h 0x43 step.toNat = false ∧ t.jobOf job.toNat = some k ∧ k.undecided gen.toNat = true) :=
  ⟨⟨wOne, 1#32, 1#40, false, 1#32, wPair, (JobSt.elide (wPair) wOne 0x40 1), st (((List.range 16).foldl (fun d i => d.setView (i + 2) { ViewEnt.absent with state := 1 }) wMem).setJob wPair), by decide⟩,
   ⟨wOne, 1#32, 1#40, false, 1#32, wPair, (JobSt.elide (wPair) wOne 0x40 1), st (wMem.setJob wPair), by decide⟩,
   ⟨wOwn, 1#32, 1#40, false, 1#32, (JobSt.elide (wJob) wOwn 0x40 1), st (Dev.reset.setJob (JobSt.elide (wJob) wOwn 0x40 1)), by decide⟩,
   ⟨1#32, { wJob with cut := some { wCut with reported := false } }, { wCut with reported := false }, st (Dev.reset.setJob { wJob with cut := some { wCut with reported := false } }), by decide⟩,
   ⟨wOwn, 1#32, 3#40, 0#8, 1#32, 1#32, (JobSt.elide (wCutJob) wOwn 0x41 3), wCut, wCutJob, st (Dev.reset.setJob wCutJob), by decide⟩,
   ⟨wOwn, 1#32, 1#32, 0, 0, 0, 0#64, [], st Dev.reset, by decide⟩,
   ⟨wOwn, 1#32, 0#32, 0, 0, 0, 0#64, [], wJob, st (Dev.reset.setJob wJob), by decide⟩,
   ⟨wOwn, 1#32, 1#32, 0, 0, 0, 0#64, wCutJob, wCut, wCutJob, st (Dev.reset.setJob wCutJob), by decide⟩,
   ⟨wOwn, 1#32, 1#32, 0, 0, 0, 0#64, 1#8, wCutJob, wCut, wCutJob, st (Dev.reset.setJob wCutJob), by decide⟩,
   ⟨wOwn, 1#32, 1#32, false, [], wJob, st (Dev.reset.setJob wJob), by decide⟩,
   ⟨wOwn, 1#32, 1#40, 1#8, 1#32, wJob, (JobSt.elide (wJob) wOwn 0x42 1), st (Dev.reset.setJob wJob), by decide⟩,
   ⟨wOwn, 1#32, 3#40, 1#32, (JobSt.elide ({ wCutJob with cut := some { wCut with racks := [2047] }, desc := { wCutJob.desc with accs := [] }, accs := [] }) wOwn 0x42 3), { wCut with racks := [2047] }, { wCutJob with desc := { wCutJob.desc with accs := [] }, accs := [] }, (JobSt.elide ({ wCutJob with desc := { wCutJob.desc with accs := [] }, accs := [] }) wOwn 0x42 3), st (Dev.reset.setJob { wCutJob with desc := { wCutJob.desc with accs := [] }, accs := [] }), by refine ⟨by decide, by decide, by decide, by decide, by decide, by decide, by decide, ?_⟩; simp [JobSt.racks, chipsOf, JobSt.elide]⟩,
   ⟨wOwn, 1#32, 3#40, 1#32, { wJob with slots := [(0, ⟨1, 3, 3, 0, 0, [], []⟩)] }, (JobSt.elide ({ wJob with slots := [(0, ⟨1, 3, 3, 0, 0, [], []⟩)] }) wOwn 0x43 3), st (Dev.reset.setJob { wJob with slots := [(0, ⟨1, 3, 3, 0, 0, [], []⟩)] }), by decide⟩,
   ⟨wOwn, 1#32, 3#40, 1#32, wJob, (JobSt.elide (wJob) wOwn 0x43 3), st (Dev.reset.setJob wJob), by decide⟩,
   ⟨wOwn, 1#32, 3#40, 1#32, { wJob with gate := 0 }, JobSt.elide { wJob with gate := 0 } wOwn 0x43 3, st (Dev.reset.setJob { wJob with gate := 0 }), by decide⟩,
   ⟨wOwn, 1#32, 3#40, 1#32, { wJob with slots := [(0, ⟨1, 3, 3, 0, 0, [], []⟩)] }, (JobSt.elide ({ wJob with slots := [(0, ⟨1, 3, 3, 0, 0, [], []⟩)] }) wOwn 0x43 3), st (Dev.reset.setJob { wJob with slots := [(0, ⟨1, 3, 3, 0, 0, [], []⟩)] }), by decide⟩⟩

set_option maxRecDepth 20000 in
theorem test_witness_MirrorsAndRestore :
    (∃ (h : FabHdr) (job : BitVec 32) (step : BitVec 40) (acc : Fin 8) (nFlow : BitVec 24) (itemBytes : BitVec 32) (words : List Word) (s : State),
    let d := s.dev.stepSeen job.toNat step.toNat; let v := (⟨h.src.toNat, acc, job.toNat, step.toNat, nFlow.toNat, itemBytes.toNat, words.map BitVec.toNat⟩ : Version); s.dev.passes h = true ∧ (d.hostedSources.contains v.src = true ∨ d.hostedSources.length < 4)) ∧
    (∃ (h : FabHdr) (job : BitVec 32) (step : BitVec 40) (acc : Fin 8) (source : BitVec 16) (nFlow : BitVec 24) (itemBytes : BitVec 32) (words : List Word) (j : JobSt) (s : State),
    s.dev.passes h = true ∧ source.toNat ≠ h.src.toNat ∧ s.dev.jobOf job.toNat = some j ∧ j.rest.active = true ∧ j.rest.step = step.toNat) ∧
    (∃ (h : FabHdr) (job : BitVec 32) (step : BitVec 40) (acc : Fin 8) (v : Version) (s : State),
    let d := s.dev; let vs := (d.mir.acked.filter fun w => !(w.acc == acc.val && w.step % 256 == step.toNat % 256)) ++ [v]; d.passes h = true ∧ (d.mir.waiting.find? fun v => v.job == job.toNat && v.step == step.toNat && v.acc == acc.val) = some v) ∧
    (∃ (job : BitVec 32) (step : BitVec 40) (acc : Fin 8) (v : Version) (s : State),
    (s.dev.mir.waiting.find? fun v => v.job == job.toNat && v.step == step.toNat && v.acc == acc.val) = some v) ∧
    (∃ (h : FabHdr) (job : BitVec 32) (step : BitVec 40) (slot : Fin 2) (s : State),
    let d := s.dev.stepSeen job.toNat step.toNat; let p := (h.src.toNat, job.toNat, step.toNat, slot.val); let asked := (d.mir.asked.filter fun p => !(p.1 == h.src.toNat && p.2.1 == job.toNat && p.2.2.2 == slot.val)) ++ [p]; let vs := d.mir.ring.filter fun v => v.src == h.src.toNat && v.job == job.toNat && v.step == step.toNat; let wanted := (match d.jobOf job.toNat with | some j => j.accsAt h.src.toNat | none => []); s.dev.passes h = true ∧ vs ≠ [] ∧ (wanted.all fun a => vs.any fun v => v.acc == a) = true) ∧
    (∃ (h : FabHdr) (job : BitVec 32) (step : BitVec 40) (slot : Fin 2) (s : State),
    let d := s.dev.stepSeen job.toNat step.toNat; let asked := (d.mir.asked.filter fun p => !(p.1 == h.src.toNat && p.2.1 == job.toNat && p.2.2.2 == slot.val)) ++ [(h.src.toNat, job.toNat, step.toNat, slot.val)]; let vs := d.mir.ring.filter fun v => v.src == h.src.toNat && v.job == job.toNat && v.step == step.toNat; let wanted := (match d.jobOf job.toNat with | some j => j.accsAt h.src.toNat | none => []); s.dev.passes h = true ∧ (vs = [] ∨ (wanted.all fun a => vs.any fun v => v.acc == a) = false)) ∧
    (∃ (h : FabHdr) (job : BitVec 32) (step : BitVec 40) (slot : Fin 2) (j : JobSt) (c : CutSt) (s : State),
    let e := (s.dev.put (Reg.MIR_PIN_partner_held slot) 1).settleSingle; s.dev.passes h = true ∧ s.dev.get (Reg.MIR_PIN_step slot) = step.toNat ∧ s.dev.flag (Reg.MIR_PIN_valid slot) = true ∧ e.cutOf job.toNat = some (j, c) ∧ c.step = step.toNat) ∧
    (∃ (h : FabHdr) (job : BitVec 32) (step : BitVec 40) (bad : List Word) (j : JobSt) (s : State),
    let t := s.dev.setJob (j.elide h 0x44 step.toNat); s.dev.passes h = true ∧ s.dev.jobOf job.toNat = some j ∧ j.phase = 2 ∧ j.elides h 0x44 step.toNat = false ∧ (¬ (j.rest.active = true ∧ j.rest.step = step.toNat))) ∧
    (∃ (h : FabHdr) (job : BitVec 32) (step : BitVec 40) (bad : List Word) (j : JobSt) (s : State),
    let t := s.dev.setJob (j.elide h 0x44 step.toNat); s.dev.passes h = true ∧ s.dev.jobOf job.toNat = some j ∧ j.phase = 2 ∧ j.elides h 0x44 step.toNat = false ∧ j.rest.active = true ∧ j.rest.step = step.toNat) ∧
    (∃ (h : FabHdr) (job : BitVec 32) (step : BitVec 40) (code : Byte) (count : BitVec 32) (j k : JobSt) (s : State),
    let t := s.dev.setJob (j.elide h 0x45 step.toNat); s.dev.passes h = true ∧ s.dev.jobOf job.toNat = some j ∧ j.phase = 2 ∧ j.elides h 0x45 step.toNat = false ∧ t.jobOf job.toNat = some k ∧ k.rest.active = true ∧ k.rest.step = step.toNat ∧ Tab.find h.src.toNat k.rest.dones = none) ∧
    (∃ (h : FabHdr) (job : BitVec 32) (step : BitVec 40) (j k : JobSt) (s : State),
    let n := step.toNat; let t := s.dev.setJob (j.elide h 0x46 step.toNat); s.dev.passes h = true ∧ s.dev.jobOf job.toNat = some j ∧ j.phase = 2 ∧ j.elides h 0x46 step.toNat = false ∧ t.jobOf job.toNat = some k ∧ k.rest.active = true ∧ k.rest.step = step.toNat ∧ t.isRoot k = false) ∧
    (∃ (h : FabHdr) (dst : BitVec 16) (kind : Byte) (level : BitVec 3) (global : Bool) (body : List Word) (s : State),
    s.dev.silent = false) ∧
    (∃ (h : FabHdr) (dst : BitVec 16) (kind : Byte) (level : BitVec 3) (global indirect : Bool) (body : List Word) (s : State),
    s.dev.silent = true) :=
  ⟨⟨wOwn, 1#32, 3#40, 0, 0#24, 0#32, [], st Dev.reset, by decide⟩,
   ⟨wOwn, 1#32, 3#40, 0, 5#16, 0#24, 0#32, [], { wJob with rest := { RestSt.none with active := true, step := 3 } }, st (Dev.reset.setJob { wJob with rest := { RestSt.none with active := true, step := 3 } }), by decide⟩,
   ⟨wOwn, 1#32, 3#40, 0, ⟨67, 0, 1, 3, 0, 0, []⟩, st { Dev.reset with mir := { MirrorSt.reset with waiting := [⟨67, 0, 1, 3, 0, 0, []⟩] } }, by decide⟩,
   ⟨1#32, 3#40, 0, ⟨67, 0, 1, 3, 0, 0, []⟩, st { Dev.reset with mir := { MirrorSt.reset with waiting := [⟨67, 0, 1, 3, 0, 0, []⟩] } }, by decide⟩,
   ⟨wOwn, 1#32, 3#40, 0, st { Dev.reset with mir := { MirrorSt.reset with ring := [⟨0xFFFE, 0, 1, 3, 0, 0, []⟩] } }, by decide⟩,
   ⟨wOwn, 1#32, 3#40, 0, st Dev.reset, by decide⟩,
   ⟨wOwn, 1#32, 3#40, 0, wCutJob, wCut, st (((Dev.reset.setJob wCutJob).put (Reg.MIR_PIN_step 0) 3).put (Reg.MIR_PIN_valid 0) 1), by decide⟩,
   ⟨wOwn, 1#32, 3#40, [], wJob, st (Dev.reset.setJob wJob), by decide⟩,
   ⟨wOwn, 1#32, 3#40, [], { wJob with rest := { RestSt.none with active := true, step := 3 } }, st (Dev.reset.setJob { wJob with rest := { RestSt.none with active := true, step := 3 } }), by decide⟩,
   ⟨wOwn, 1#32, 3#40, 0#8, 1#32, { wJob with rest := { RestSt.none with active := true, step := 3 } }, (JobSt.elide ({ wJob with rest := { RestSt.none with active := true, step := 3 } }) wOwn 0x45 3), st (Dev.reset.setJob { wJob with rest := { RestSt.none with active := true, step := 3 } }), by decide⟩,
   ⟨wOwn, 1#32, 3#40, { wJob with rest := { RestSt.none with active := true, step := 3 } }, (JobSt.elide ({ wJob with rest := { RestSt.none with active := true, step := 3 } }) wOwn 0x46 3), st (Dev.reset.setJob { wJob with rest := { RestSt.none with active := true, step := 3 } }), by refine ⟨by decide, by decide, by decide, by decide, by decide, by decide, by decide, ?_⟩; simp [Dev.isRoot, Dev.rootOf, JobSt.stepNodes, JobSt.starting, chipsOf, treeNodes, JobSt.elide]; decide⟩,
   ⟨wOwn, 5#16, 0#8, 0#3, false, [], st Dev.reset, by decide⟩,
   ⟨wOwn, 5#16, 0#8, 0#3, false, false, [], st (Dev.reset.put Reg.FLT_DEV_STATUS_state 2), by decide⟩⟩

set_option maxRecDepth 20000 in
theorem test_witness_HeartbeatsAndSuspicion :
    (∃ (h : FabHdr) (heard : BitVec 18) (digest : Word) (s : State),
    s.dev.passes h = true ∧ h.src.toNat / 32 = s.dev.chip / 32) ∧
    (∃ (s : State),
    s.dev.isMember = true ∧ s.dev.silent = false) ∧
    (∃ (h : FabHdr) (rack leader : BitVec 16) (members : BitVec 18) (digest : Word) (s : State),
    s.dev.passes h = true ∧ s.dev.racksIn.contains rack.toNat = true) ∧
    (∃ (h : FabHdr) (rack leader : BitVec 16) (founding : Bool) (members : BitVec 18) (digest : Word) (s : State),
    let d := if founding then s.dev.onMbr fun m => { m with seen := some (laterEpoch h.epoch.toNat m.seen) } else s.dev; (founding = true ∨ s.dev.passes h = true) ∧ s.dev.isMember = true ∧ s.dev.racksIn.contains rack.toNat = false ∧ s.dev.foundingSize true < 2 * s.dev.racksIn.length) ∧
    (∃ (s : State),
    (s.dev.isLeader = true ∨ s.dev.isStandby = true) ∧ s.dev.silent = false) ∧
    (∃ (chip : BitVec 16) (s : State),
    s.dev.isMember = true ∧ chip.toNat ≠ s.dev.chip ∧ chip.toNat / 32 = s.dev.rack ∧ s.dev.isIn chip.toNat = true ∧ s.dev.mbr.suspects.contains chip.toNat = false) ∧
    (∃ (rack : BitVec 16) (s : State),
    s.dev.isMember = true ∧ rack.toNat ≠ s.dev.rack ∧ s.dev.racksIn.contains rack.toNat = true ∧ s.dev.mbr.rackSuspects.contains rack.toNat = false) ∧
    (∃ (c : Nat) (s : State),
    s.dev.isMember = true ∧ (s.dev.membersOf s.dev.rack).find? (· != s.dev.chip) = some c) ∧
    (∃ (h : FabHdr) (s : State),
    s.dev.passes h = true ∧ s.dev.isMember = true) ∧
    (∃ (h : FabHdr) (entries : List ViewEntry) (decides : List (BitVec 16 × List Word)) (same : Bool) (s : State),
    let old := s.dev.mbr.view; let ds := decides.map fun e => (e.1.toNat, e.2.map BitVec.toNat); let c := (entries.foldl Dev.takeEntry s.dev).keptCheck ((ds.filter fun e => e.1 / 32 == (entries.foldl Dev.takeEntry s.dev).rack).filterMap fun e => decideRecord e.2); let drilled := (ds.filter fun e => !c.mbr.decides.contains (e.1 :: e.2)).flatMap fun e => drilledBy (decideChanges e.2); let d := ds.foldl (fun (d : Dev) e => d.takeDecide old e.1 e.2) c; (s.dev.isMember = false ∨ s.dev.passes h = true)) ∧
    (∃ (v : ViewEntry) (d : Dev),
    (newer v.changed.toNat (d.viewEnt v.chip.toNat).changed = true ∨ (d.viewEnt v.chip.toNat).state = 0) ∧ v.chip.toNat / 32 = d.rack) ∧
    (∃ (v : ViewEntry) (d : Dev),
    newer v.changed.toNat (d.viewEnt v.chip.toNat).changed = false ∧ (d.viewEnt v.chip.toNat).state ≠ 0 ∧ v.chip.toNat / 32 ≠ d.rack) ∧
    (∃ (v : ViewEntry) (d : Dev),
    newer v.changed.toNat (d.viewEnt v.chip.toNat).changed = false ∧ (d.viewEnt v.chip.toNat).state ≠ 0 ∧ v.chip.toNat / 32 = d.rack) :=
  ⟨⟨wOne, 0#18, 0#64, st wMem, by decide⟩,
   ⟨st wMem, by decide⟩,
   ⟨wOne, 0#16, 0#16, 0#18, 0#64, st wMem, ⟨by decide, by rw [show (st wMem).dev.racksIn = _ from test_racks]; decide⟩⟩,
   ⟨wOne, 3#16, 96#16, false, 0#18, 0#64, st wMem, ⟨by decide, by decide, by rw [show (st wMem).dev.racksIn = _ from test_racks]; decide, by rw [show (st wMem).dev.racksIn = _ from test_racks]; decide⟩⟩,
   ⟨st wMem, by decide⟩,
   ⟨1#16, st wMem, by decide⟩,
   ⟨2#16, st (wMem.setView 65 { ViewEnt.absent with state := 1 }), ⟨by decide, by decide, test_racks_two_mem, by decide⟩⟩,
   ⟨1, st wMem, by decide⟩,
   ⟨wOne, st wMem, by decide⟩,
   ⟨wOne, [⟨1#16, 1, 1#32, 1#32, 0#8, 0, 0#8⟩], [], false, st wMem, by decide⟩,
   ⟨⟨1#16, 1, 1#32, 1#32, 0#8, 1, 0#8⟩, wMem, by decide⟩,
   ⟨⟨65#16, 1, 0#32, 1#32, 0#8, 1, 2#8⟩, wMem.setView 65 { ViewEnt.absent with state := 1 }, by decide⟩,
   ⟨⟨1#16, 1, 0#32, 1#32, 0#8, 0, 0#8⟩, wMem, by decide⟩⟩

set_option maxRecDepth 20000 in
theorem test_witness_Clauses :
    (∃ (h : FabHdr) (pod founding : Bool) (epoch : BitVec 32) (changes crec : List Word) (s : State),
    (founding = true ∨ s.dev.passes h = true) ∧ s.dev.mayVote h.src.toNat pod founding = true ∧ (∀ l, (if pod then s.dev.mbr.votedPod else s.dev.mbr.votedRack) = some l → newer epoch.toNat l = true)) ∧
    (∃ (h : FabHdr) (pod founding : Bool) (epoch : BitVec 32) (changes crec : List Word) (last : Nat) (s : State),
    (founding = true ∨ s.dev.passes h = true) ∧ s.dev.mayVote h.src.toNat pod founding = true ∧ (if pod then s.dev.mbr.votedPod else s.dev.mbr.votedRack) = some last ∧ newer epoch.toNat last = false) ∧
    (∃ (h : FabHdr) (voter : BitVec 16) (epoch : BitVec 32) (yes : Word) (p : Proposal) (s : State),
    s.dev.mbr.prop = some p ∧ (p.founding = true ∨ s.dev.passes h = true) ∧ newer epoch.toNat p.epoch = true) ∧
    (∃ (h : FabHdr) (voter : BitVec 16) (epoch : BitVec 32) (yes : Word) (p : Proposal) (s : State),
    s.dev.mbr.prop = some p ∧ (p.founding = true ∨ s.dev.passes h = true) ∧ epoch.toNat = p.epoch ∧ Tab.find voter.toNat p.votes = none ∧ (s.dev.votersOf p).contains voter.toNat = true) ∧
    (∃ (h : FabHdr) (pod founding : Bool) (yes voters : Byte) (epoch : BitVec 32) (changes crec : List Word) (s : State),
    (founding = true ∨ s.dev.isMember = false ∨ s.dev.passes h = true)) ∧
    (∃ (p : Proposal) (s : State),
    s.dev.mbr.prop = some p) :=
  ⟨⟨wOne, false, false, 3#32, [], [], st wMem, ⟨by decide, by decide, by intro l hl; cases hl⟩⟩,
   ⟨wOne, false, false, 3#32, [], [], 3, st (wMem.voted false 3), by decide⟩,
   ⟨wOne, 1#16, 9#32, 0#64, ⟨false, false, 5, [], none, []⟩, st (wMem.onMbr fun m => { m with prop := some ⟨false, false, 5, [], none, []⟩ }), by decide⟩,
   ⟨wOne, 1#16, 5#32, 0#64, ⟨false, false, 5, [], none, []⟩, st (wMem.onMbr fun m => { m with prop := some ⟨false, false, 5, [], none, []⟩ }), by decide⟩,
   ⟨wOne, false, false, 2#8, 2#8, 3#32, [0x0001000100000001#64], [], st wMem, by decide⟩,
   ⟨⟨false, false, 5, [], none, []⟩, st (wMem.onMbr fun m => { m with prop := some ⟨false, false, 5, [], none, []⟩ }), by decide⟩⟩

set_option maxRecDepth 20000 in
theorem test_witness_JoiningAndLeaving :
    (∃ (h : FabHdr) (operator : Bool) (s : State),
    let d := s.dev.onMbr fun m => { m with joiners := Tab.insert h.src.toNat (s.dev.nowUs, h.epoch.toNat, operator) (Tab.erase h.src.toNat m.joiners) }; h.src.toNat / 32 = s.dev.rack ∧ (s.dev.isMember && !s.dev.isIn h.src.toNat) = false) ∧
    (∃ (h : FabHdr) (operator : Bool) (s : State),
    let d := s.dev.onMbr fun m => { m with joiners := Tab.insert h.src.toNat (s.dev.nowUs, h.epoch.toNat, operator) (Tab.erase h.src.toNat m.joiners) }; h.src.toNat / 32 = s.dev.rack ∧ d.isMember = true ∧ d.isIn h.src.toNat = false ∧ d.voteYes false (changeWord h.src.toNat 1 0xF 7) = true) ∧
    (∃ (c : Nat) (s : State),
    s.dev.stage = 9 ∧ s.dev.isMember = false ∧ s.dev.silent = false ∧ s.dev.joinCode = c ∧ c ≠ 0) ∧
    (∃ (s : State),
    let d := (s.dev.put Reg.MBR_STATUS_state 1).put Reg.MBR_STATUS_refuse (if s.dev.rackShort then 4 else 0); s.dev.stage = 9 ∧ s.dev.isMember = false ∧ s.dev.silent = false ∧ s.dev.joinCode = 0) ∧
    (∃ (s : State),
    s.dev.stage = 9 ∧ s.dev.isMember = false) ∧
    (∃ (h : FabHdr) (s : State),
    s.dev.passes h = true ∧ s.dev.isMember = true ∧ s.dev.isIn h.src.toNat = true) ∧
    (∃ (pod : Bool) (s : State),
    s.dev.isMember = true ∧ (pod = false ∨ s.dev.isLeader = true)) ∧
    (∃ (c : Nat) (s : State),
    s.dev.isMember = true ∧ (s.dev.put Reg.MBR_CTRL_withdraw 0).inJob (s.dev.put Reg.MBR_CTRL_withdraw 0).chip = false ∧ (s.dev.put Reg.MBR_CTRL_withdraw 0).coordinator (s.dev.put Reg.MBR_CTRL_withdraw 0).rack [(s.dev.put Reg.MBR_CTRL_withdraw 0).chip] = some c) ∧
    (∃ (s : State),
    s.dev.isMember = true ∧ (s.dev.put Reg.MBR_CTRL_withdraw 0).inJob (s.dev.put Reg.MBR_CTRL_withdraw 0).chip = true) ∧
    (∃ (h : FabHdr) (s : State),
    s.dev.passes h = true ∧ h.src.toNat / 32 = s.dev.rack) ∧
    (∃ (s : State),
    (s.dev.get Reg.MBR_STATUS_refuse = 2 ∨ s.dev.get Reg.MBR_STATUS_refuse = 5)) ∧
    (∃ (chip : BitVec 16) (s : State),
    let d := s.dev.setView chip.toNat { s.dev.viewEnt chip.toNat with hold := 0 }; (chip.toNat ≠ s.dev.chip ∨ s.dev.get Reg.MBR_STATUS_refuse ≠ 1)) ∧
    (∃ (chip : BitVec 16) (s : State),
    let d := s.dev.setView chip.toNat { s.dev.viewEnt chip.toNat with hold := 0 }; chip.toNat = s.dev.chip ∧ s.dev.get Reg.MBR_STATUS_refuse = 1) ∧
    (∃ (h : FabHdr) (change : Word) (s : State),
    s.dev.passes h = true ∧ bits 48 16 change.toNat / 32 = s.dev.rack) ∧
    (∃ (a : Fin 8) (j : JobSt) (x : AccJob) (s : State),
    s.dev.jobOfAcc a = some j ∧ j.accOf a = some x ∧ s.dev.isMember = true ∧ x.mark = none) ∧
    (∃ (job : BitVec 32) (child : BitVec 16) (j : JobSt) (s : State),
    s.dev.jobOf job.toNat = some j ∧ s.dev.isMember = true ∧ (s.dev.stepChildren j).contains child.toNat = true ∧ Tab.find child.toNat j.reports = none) ∧
    (∃ (a : Fin 8) (s : State),
    s.dev.isMember = true ∧ s.dev.agentUp a = false) :=
  ⟨⟨⟨2#16, 7#32⟩, false, st wSolo, by decide⟩,
   ⟨⟨2#16, 7#32⟩, false, st ((wMem.setPort 8 { PortSt.reset with hello := some [0, 0, 2 * 2 ^ 48, 0, 0, 0, 0, 0] }).put (Reg.PORT_STATUS_state 8) 3), by decide⟩,
   ⟨2, st (wSolo.setView 0 { ViewEnt.absent with state := 4 }), by decide⟩,
   ⟨st wSolo, by decide⟩,
   ⟨st (Dev.reset.put Reg.BOOT_STATUS_stage 9), by decide⟩,
   ⟨wOne, st wMem, by decide⟩,
   ⟨true, st wMem, by decide⟩,
   ⟨1, st wMem, by decide⟩,
   ⟨st (wMem.setJob wPair), by decide⟩,
   ⟨wOne, st wMem, by decide⟩,
   ⟨st (Dev.reset.put Reg.MBR_STATUS_refuse 5), by decide⟩,
   ⟨3#16, st wMem, by decide⟩,
   ⟨0#16, st (wSolo.put Reg.MBR_STATUS_refuse 1), by decide⟩,
   ⟨wOne, 0x00010F0100000000#64, st wMem, by decide⟩,
   ⟨0, wPair, wAcc, st (wMem.setJob wPair), by decide⟩,
   ⟨1#32, 1#16, wPair, st (wMem.setJob wPair), by
    refine ⟨by decide, by decide, ?_, by decide⟩; unfold Dev.stepChildren JobSt.stepNodes; rw [show chipsOf wPair.accs = [0, 1] from test_chips]; decide⟩,
   ⟨7, st wMem, by decide⟩⟩

set_option maxRecDepth 20000 in
theorem test_witness_JobStartAndEnd :
    (∃ (dma : Dma) (s : State),
    (s.dev.put Reg.MBR_JOB_CTRL_go 0).flag Reg.MBR_JOB_STATUS_busy = true) ∧
    (∃ (dma : Dma) (s : State),
    let g := (s.dev.put Reg.MBR_JOB_CTRL_go 0).dmaRead dma; let bs := ((dma.getD []).take (max 64 (min 67108864 (g.get Reg.MBR_JOB_CTRL_len)))).map BitVec.toNat; let d := ((g.put Reg.MBR_JOB_STATUS_job (numAt bs 4 4)).put Reg.MBR_JOB_STATUS_covered 0).put Reg.MBR_JOB_STATUS_result 0; (s.dev.put Reg.MBR_JOB_CTRL_go 0).flag Reg.MBR_JOB_STATUS_busy = false ∧ parseJob bs = none) ∧
    (∃ (dma : Dma) (x : JobDesc) (s : State),
    let g := (s.dev.put Reg.MBR_JOB_CTRL_go 0).dmaRead dma; let bs := ((dma.getD []).take (max 64 (min 67108864 (g.get Reg.MBR_JOB_CTRL_len)))).map BitVec.toNat; let d := ((g.put Reg.MBR_JOB_STATUS_job (numAt bs 4 4)).put Reg.MBR_JOB_STATUS_covered 0).put Reg.MBR_JOB_STATUS_result 0; (s.dev.put Reg.MBR_JOB_CTRL_go 0).flag Reg.MBR_JOB_STATUS_busy = false ∧ parseJob bs = some x ∧ d.rootOk x = false) ∧
    (∃ (dma : Dma) (x : JobDesc) (s : State),
    let g := (s.dev.put Reg.MBR_JOB_CTRL_go 0).dmaRead dma; let bs := ((dma.getD []).take (max 64 (min 67108864 (g.get Reg.MBR_JOB_CTRL_len)))).map BitVec.toNat; let d := ((g.put Reg.MBR_JOB_STATUS_job (numAt bs 4 4)).put Reg.MBR_JOB_STATUS_covered 0).put Reg.MBR_JOB_STATUS_result 0; let j := { JobSt.starting x.job d.epoch d.chip (jobChunks bs).length with desc := x, accs := x.accs, phase := 1, chunks := (jobChunks bs).zipIdx.map fun (c : List Nat × Nat) => (c.2, c.1) }; (s.dev.put Reg.MBR_JOB_CTRL_go 0).flag Reg.MBR_JOB_STATUS_busy = false ∧ parseJob bs = some x ∧ d.rootOk x = true) ∧
    (∃ (j : JobSt) (s : State),
    let d := s.dev.put Reg.MBR_JOB_CTRL_end 0; d.jobOf (d.get Reg.MBR_JOB_STATUS_job) = some j ∧ j.phase = 2 ∧ d.isRoot j = true) ∧
    (∃ (h : FabHdr) (job adm : BitVec 32) (seq total root : BitVec 16) (data : List Byte) (j : JobSt) (s : State),
    let past := s.dev.mbr.ended.any fun e => e.1 == job.toNat && e.2.1 == adm.toNat; let d := if (s.dev.jobOf job.toNat).isNone && !past then s.dev.setJob (JobSt.starting job.toNat adm.toNat root.toNat total.toNat) else s.dev; let i := { j with chunks := Tab.insert seq.toNat (data.map BitVec.toNat) j.chunks }; let k := { i with accs := if j.accs = [] then tableOf i.held else j.accs }; let e := d.setJob k; s.dev.passes h = true ∧ d.jobOf job.toNat = some j ∧ j.admEpoch = adm.toNat ∧ j.phase = 0 ∧ seq.toNat < j.total ∧ Tab.find seq.toNat j.chunks = none) ∧
    (∃ (h : FabHdr) (job adm covered : BitVec 32) (status : Byte) (fail : BitVec 16) (j : JobSt) (s : State),
    s.dev.passes h = true ∧ s.dev.jobOf job.toNat = some j ∧ j.admEpoch = adm.toNat ∧ j.phase ≠ 2 ∧ Tab.find h.src.toNat j.acks ≠ some (covered.toNat, status.toNat, fail.toNat)) ∧
    (∃ (h : FabHdr) (job adm covered : BitVec 32) (status : Byte) (fail : BitVec 16) (j : JobSt) (s : State),
    s.dev.passes h = true ∧ s.dev.jobOf job.toNat = some j ∧ j.admEpoch = adm.toNat ∧ j.phase = 2) ∧
    (∃ (h : FabHdr) (job adm : BitVec 32) (j : JobSt) (s : State),
    s.dev.passes h = true ∧ s.dev.jobOf job.toNat = some j ∧ j.admEpoch = adm.toNat ∧ j.phase = 1) ∧
    (∃ (h : FabHdr) (job adm : BitVec 32) (result : Byte) (j : JobSt) (s : State),
    s.dev.passes h = true ∧ s.dev.jobOf job.toNat = some j ∧ j.admEpoch = adm.toNat ∧ j.phase ≠ 2) ∧
    (∃ (h : FabHdr) (job adm : BitVec 32) (orphan held : BitVec 16) (j : JobSt) (s : State),
    s.dev.passes h = true ∧ s.dev.jobOf job.toNat = some j ∧ j.admEpoch = adm.toNat ∧ j.reparents.contains (orphan.toNat, held.toNat) = false) ∧
    (∃ (h : FabHdr) (job adm : BitVec 32) (orphan held : BitVec 16) (j : JobSt) (s : State),
    s.dev.passes h = true ∧ s.dev.jobOf job.toNat = some j ∧ j.reparents.contains (orphan.toNat, held.toNat) = true) ∧
    (∃ (h : FabHdr) (job adm : BitVec 32) (j : JobSt) (s : State),
    s.dev.passes h = true ∧ s.dev.jobOf job.toNat = some j ∧ j.admEpoch = adm.toNat ∧ j.phase = 2) ∧
    (∃ (job : BitVec 32) (child : BitVec 16) (j : JobSt) (s : State),
    s.dev.jobOf job.toNat = some j ∧ j.phase ≠ 2 ∧ Tab.find child.toNat j.acks = none ∧ (s.dev.startChildren j).contains child.toNat = true) ∧
    (∃ (job : BitVec 32) (j : JobSt) (p : Nat) (s : State),
    s.dev.jobOf job.toNat = some j ∧ j.phase ≠ 2 ∧ s.dev.startParent j = some p) ∧
    (∃ (job : BitVec 32) (j : JobSt) (s : State),
    s.dev.jobOf job.toNat = some j ∧ j.phase ≠ 2 ∧ s.dev.chip = j.root) ∧
    (∃ (job : BitVec 32) (j : JobSt) (s : State),
    s.dev.jobOf job.toNat = some j ∧ j.phase ≠ 2 ∧ s.dev.chip ≠ j.root) ∧
    (∃ (h : FabHdr) (job sum : BitVec 32) (watch : Bool) (j : JobSt) (s : State),
    s.dev.passes h = true ∧ s.dev.jobOf job.toNat = some j) :=
  ⟨⟨none, st (wMem.put Reg.MBR_JOB_STATUS_busy 1), by decide⟩,
   ⟨some [], st wMem, by decide⟩,
   ⟨some wDesc, wDescJob, st wSolo, by
    refine ⟨by decide, test_job_parse, ?_⟩; decide⟩,
   ⟨some wDesc, wDescJob, st wMem, by
    refine ⟨by decide, test_job_parse, ?_⟩; decide⟩,
   ⟨wPair, st ((wMem.setJob wPair).put Reg.MBR_JOB_STATUS_job 1), by
    refine ⟨by decide, by decide, ?_⟩; unfold Dev.isRoot Dev.rootOf JobSt.stepNodes; rw [show chipsOf wPair.accs = [0, 1] from test_chips]; decide⟩,
   ⟨wOne, 1#32, 0#32, 1#16, 2#16, 1#16, [5#8], JobSt.starting 1 0 1 2, st wMem, by decide⟩,
   ⟨wOne, 1#32, 0#32, 1#32, 0#8, 0#16, (wStart 0), st (wMem.setJob (wStart 0)), by decide⟩,
   ⟨wOne, 1#32, 0#32, 1#32, 0#8, 0#16, { wStart 0 with phase := 2 }, st (wMem.setJob { wStart 0 with phase := 2 }), by decide⟩,
   ⟨wOne, 1#32, 0#32, (wStart 0), st (wMem.setJob (wStart 0)), by decide⟩,
   ⟨wOne, 1#32, 0#32, 2#8, (wStart 0), st (wMem.setJob (wStart 0)), by decide⟩,
   ⟨wOne, 1#32, 0#32, 1#16, 0#16, (wStart 0), st (wMem.setJob (wStart 0)), by decide⟩,
   ⟨wOne, 1#32, 0#32, 1#16, 0#16, { wStart 0 with reparents := [(1, 0)] }, st (wMem.setJob { wStart 0 with reparents := [(1, 0)] }), by decide⟩,
   ⟨wOne, 1#32, 0#32, wPair, st (wMem.setJob wPair), by decide⟩,
   ⟨1#32, 1#16, (wStart 0), st (wMem.setJob (wStart 0)), by
    refine ⟨by decide, by decide, by decide, ?_⟩; unfold Dev.startChildren; rw [show Dev.startNodes _ _ = [0, 1] from test_start_nodes]; decide⟩,
   ⟨1#32, (wStart 1), 1, st (wMem.setJob (wStart 1)), by
    refine ⟨by decide, by decide, ?_⟩; unfold Dev.startParent; rw [show Dev.startNodes _ _ = [1, 0] from test_start_nodes_one]; decide⟩,
   ⟨1#32, (wStart 0), st (wMem.setJob (wStart 0)), by decide⟩,
   ⟨1#32, (wStart 1), st (wMem.setJob (wStart 1)), by decide⟩,
   ⟨wOne, 1#32, 7#32, true, wPair, st (wMem.setJob wPair), by decide⟩⟩

set_option maxRecDepth 20000 in
theorem test_witness_AdoptionAndApposition :
    (∃ (h : FabHdr) (job : BitVec 32) (pairs : List (BitVec 16 × BitVec 16 × Fin 8)) (j k m : JobSt) (s : State),
    let ps := pairs.map fun p => (p.1.toNat, p.2.1.toNat * 8 + p.2.2.val); let t := s.dev.setJob { j with adoptSeen := (j.adoptSeen.filter fun k => k.1 == h.epoch.toNat) ++ [(h.epoch.toNat, 0, 0, ps)] }; let news := ps.filter fun p => !((Tab.find p.1 k.adopts).map AdoptSt.spare == some p.2); s.dev.passes h = true ∧ s.dev.jobOf job.toNat = some j ∧ j.adoptSeen.contains (h.epoch.toNat, 0, 0, ps) = false ∧ t.jobOf job.toNat = some k ∧ news ≠ [] ∧ (t.adoptPrepare job.toNat ps).jobOf job.toNat = some m ∧ m.drillIdx = none) ∧
    (∃ (h : FabHdr) (job : BitVec 32) (pairs : List (BitVec 16 × BitVec 16 × Fin 8)) (j : JobSt) (s : State),
    let ps := pairs.map fun p => (p.1.toNat, p.2.1.toNat * 8 + p.2.2.val); s.dev.passes h = true ∧ s.dev.jobOf job.toNat = some j ∧ j.adoptSeen.contains (h.epoch.toNat, 0, 0, ps) = true) ∧
    (∃ (h : FabHdr) (job : BitVec 32) (b : BitVec 40) (pairs : List (BitVec 16 × BitVec 16 × Fin 8)) (j k : JobSt) (s : State),
    let ps := pairs.map fun p => (p.1.toNat, p.2.1.toNat * 8 + p.2.2.val); let t := s.dev.setJob { j with adoptSeen := (j.adoptSeen.filter fun k => k.1 == h.epoch.toNat) ++ [(h.epoch.toNat, 1, b.toNat, ps)] }; let news := ps.filter fun p => !(k.accs[p.1]? == some p.2 && k.drillIdx != some p.1) && !((Tab.find p.1 k.adopts).bind AdoptSt.bound == some b.toNat); s.dev.passes h = true ∧ s.dev.jobOf job.toNat = some j ∧ j.adoptSeen.contains (h.epoch.toNat, 1, b.toNat, ps) = false ∧ t.jobOf job.toNat = some k ∧ news ≠ []) ∧
    (∃ (h : FabHdr) (job : BitVec 32) (pairs : List (BitVec 16 × BitVec 16 × Fin 8)) (j k : JobSt) (s : State),
    let ps := pairs.map fun p => (p.1.toNat, p.2.1.toNat * 8 + p.2.2.val); let t := s.dev.setJob { j with adoptSeen := (j.adoptSeen.filter fun k => k.1 == h.epoch.toNat) ++ [(h.epoch.toNat, 2, 0, ps)] }; let gone := ps.filter fun p => (Tab.find p.1 k.adopts).map AdoptSt.spare == some p.2; s.dev.passes h = true ∧ s.dev.jobOf job.toNat = some j ∧ j.adoptSeen.contains (h.epoch.toNat, 2, 0, ps) = false ∧ t.jobOf job.toNat = some k ∧ gone ≠ []) ∧
    (∃ (h : FabHdr) (job : BitVec 32) (index : BitVec 16) (j : JobSt) (e : AdoptSt) (s : State),
    s.dev.passes h = true ∧ s.dev.jobOf job.toNat = some j ∧ j.lost.contains index.toNat = false ∧ Tab.find index.toNat j.adopts = some e ∧ e.spare / 8 = h.src.toNat ∧ e.ready = false ∧ e.bound = none) ∧
    (∃ (h : FabHdr) (job : BitVec 32) (index : BitVec 16) (status : Byte) (j : JobSt) (e : AdoptSt) (s : State),
    s.dev.passes h = true ∧ s.dev.jobOf job.toNat = some j ∧ j.lost.contains index.toNat = false ∧ Tab.find index.toNat j.adopts = some e ∧ e.spare / 8 = h.src.toNat ∧ e.ready = false ∧ e.bound = none ∧ status.toNat ≠ 0) ∧
    (∃ (h : FabHdr) (job : BitVec 32) (index : BitVec 16) (j : JobSt) (s : State),
    s.dev.passes h = true ∧ s.dev.jobOf job.toNat = some j ∧ j.lost.contains index.toNat = true ∧ j.accs.getD index.toNat 0 / 8 = h.src.toNat) ∧
    (∃ (dma : Dma) (i : Fin 2) (j : JobSt) (c : Nat) (h : ProgHdr) (s : State),
    let d := (s.dev.put Reg.APPO_CTRL_load 0).dmaRead dma; let x := d.standSt i; let bs := dma.map fun b => b.map BitVec.toNat; (List.range 2).find? (fun n => ((s.dev.put Reg.APPO_CTRL_load 0).standSt n).state == 1) = some i.val ∧ d.jobOf x.job = some j ∧ d.freeCtx = some c ∧ d.appoReason j.desc.onLoss x bs = none ∧ (bs.bind fun b => progHeader b x.job x.index) = some h) ∧
    (∃ (dma : Dma) (i : Fin 2) (j : JobSt) (c r : Nat) (s : State),
    let d := (s.dev.put Reg.APPO_CTRL_load 0).dmaRead dma; let x := d.standSt i; let bs := dma.map fun b => b.map BitVec.toNat; (List.range 2).find? (fun n => ((s.dev.put Reg.APPO_CTRL_load 0).standSt n).state == 1) = some i.val ∧ d.jobOf x.job = some j ∧ d.freeCtx = some c ∧ d.appoReason j.desc.onLoss x bs = some r) ∧
    (∃ (slot : Fin 2) (j : JobSt) (s : State),
    (s.dev.standSt slot).state = 1 ∧ s.dev.jobOf (s.dev.standSt slot).job = some j) ∧
    (∃ (slot : Fin 2) (j : JobSt) (a : AccJob) (s : State),
    let x := s.dev.standSt slot; let w := s.dev.ctxWord x.ctx 0x1000; let n := 1 + bits 48 16 w + 2 * bits 32 16 w + bits 0 32 w / 8; x.state = 3 ∧ x.updating = false ∧ x.redo = false ∧ s.dev.threadsOf x.ctx = [] ∧ s.dev.jobOf x.job = some j ∧ j.accOf x.acc = some a) ∧
    (∃ (slot : Fin 2) (s : State),
    let x := s.dev.standSt slot; x.updating = true ∧ s.dev.threadsOf x.ctx = [] ∧ x.state = 3) ∧
    (∃ (slot : Fin 2) (s : State),
    let x := s.dev.standSt slot; x.updating = true ∧ s.dev.threadsOf x.ctx = [] ∧ x.state = 4) ∧
    (∃ (h : FabHdr) (job : BitVec 32) (record : BitVec 24) (off : BitVec 38) (token : Word) (data : List Byte) (j : JobSt) (r : RecDesc) (s : State),
    s.dev.passes h = true ∧ s.dev.jobOf job.toNat = some j ∧ j.recDesc record.toNat = some r) ∧
    (∃ (h : FabHdr) (job : BitVec 32) (record : BitVec 24) (off : BitVec 38) (data : List Byte) (j : JobSt) (r : RecDesc) (s : State),
    s.dev.passes h = true ∧ s.dev.jobOf job.toNat = some j ∧ j.recDesc record.toNat = some r) ∧
    (∃ (h : FabHdr) (job : BitVec 32) (acc : Fin 8) (nFlow : BitVec 24) (itemBytes : BitVec 32) (digestOk : Bool) (s : State),
    s.dev.passes h = true ∧ ((List.range 2).any fun i => (s.dev.standSt i).state == 4 && (s.dev.standSt i).job == job.toNat && (s.dev.standSt i).acc == acc.val && (s.dev.standSt i).spare / 8 == h.src.toNat) = true) ∧
    (∃ (h : FabHdr) (job : BitVec 32) (acc : Fin 8) (nFlow : BitVec 24) (itemBytes : BitVec 32) (digestOk : Bool) (j : JobSt) (e : Nat × TakeSt)
      (s : State),
    s.dev.passes h = true ∧ ((List.range 2).any fun i => (s.dev.standSt i).state == 4 && (s.dev.standSt i).job == job.toNat && (s.dev.standSt i).acc == acc.val && (s.dev.standSt i).spare / 8 == h.src.toNat) = false ∧ s.dev.jobOf job.toNat = some j ∧ (j.adopts.find? fun e => e.2.bound.isSome && e.2.spare / 8 == s.dev.chip && j.accs.getD e.1 0 == h.src.toNat * 8 + acc.val) = none ∧ (j.taking.find? fun e => e.2.src == h.src.toNat * 8 + acc.val) = some e) ∧
    (∃ (h : FabHdr) (job : BitVec 32) (acc : Fin 8) (nFlow : BitVec 24) (itemBytes : BitVec 32) (words : List Word) (j : JobSt) (e : Nat × TakeSt) (s : State),
    s.dev.passes h = true ∧ words ≠ [] ∧ s.dev.jobOf job.toNat = some j ∧ (j.taking.find? fun e => e.2.src == h.src.toNat * 8 + acc.val) = some e) ∧
    (∃ (h : FabHdr) (job : BitVec 32) (acc : Fin 8) (nFlow : BitVec 24) (itemBytes : BitVec 32) (words : List Word) (j : JobSt) (e : Nat × TakeSt) (s : State),
    let ws := words.map BitVec.toNat; let items := itemsOf (ws.take (itemBytes.toNat / 8)) (itemBytes.toNat / 8); let flows := (chunksOf 6 nFlow.toNat (ws.drop (itemBytes.toNat / 8))).take nFlow.toNat; s.dev.passes h = true ∧ words ≠ [] ∧ s.dev.jobOf job.toNat = some j ∧ (j.taking.find? fun e => e.2.src == h.src.toNat * 8 + acc.val) = some e) ∧
    (∃ (s : State),
    s.dev.isLeader = true ∧ s.dev.get (acts Reg.DRILL_CTRL_period_h) ≠ 0 ∧ s.dev.drill.phase = 0 ∧ s.dev.drillable = []) ∧
    (∃ (j : JobSt) (x : Nat) (s : State),
    s.dev.isLeader = true ∧ s.dev.get (acts Reg.DRILL_CTRL_period_h) ≠ 0 ∧ s.dev.drill.phase = 0 ∧ s.dev.drillable ≠ [] ∧ s.dev.drillJob (s.dev.drillable.filter s.dev.drillTurn) = some j ∧ s.dev.standsRun = 0 ∧ (s.dev.jobs.any fun e => (s.dev.standChips e.2).any fun c => c / 32 == s.dev.rack) = false ∧ 1 ≤ s.dev.budget ∧ j.accs.all s.dev.accIn = true ∧ s.dev.drillAcc j = some x) ∧
    (∃ (job : BitVec 32) (j : JobSt) (i : Nat) (s : State),
    s.dev.jobOf job.toNat = some j ∧ j.drillIdx = some i ∧ s.dev.isRoot j = true ∧ j.standing.contains i = true) :=
  ⟨⟨wOne, 1#32, [(1#16, 0#16, 1)], wPair, wSeen, { wSeen with adopts := [(1, ⟨1, false, none⟩)] }, st (wMem.setJob wPair), ⟨by decide, by decide, by decide, by decide, by decide, test_prepared, by decide⟩⟩,
   ⟨wOne, 1#32, [(1#16, 0#16, 1)], wSeen, st (wMem.setJob wSeen), by decide⟩,
   ⟨wOne, 1#32, 7#40, [(1#16, 0#16, 1)], wAdopt, { wAdopt with adoptSeen := [(0, 1, 7, [(1, 1)])] }, st (wMem.setJob wAdopt), by decide⟩,
   ⟨wOne, 1#32, [(1#16, 0#16, 1)], wAdopt, { wAdopt with adoptSeen := [(0, 2, 0, [(1, 1)])] }, st (wMem.setJob wAdopt), by decide⟩,
   ⟨⟨0#16, 0#32⟩, 1#32, 1#16, wAdopt, ⟨1, false, none⟩, st (wMem.setJob wAdopt), by decide⟩,
   ⟨⟨0#16, 0#32⟩, 1#32, 1#16, 3#8, wAdopt, ⟨1, false, none⟩, st (wMem.setJob wAdopt), by decide⟩,
   ⟨wOne, 1#32, 1#16, { wPair with lost := [1] }, st (wMem.setJob { wPair with lost := [1] }), by decide⟩,
   ⟨some wProg, 0, wPair, 1023, ProgHdr.none, st wAsking, by decide⟩,
   ⟨none, 0, wPair, 1023, 4, st wAsking, by decide⟩,
   ⟨0, wPair, st wAsking, by decide⟩,
   ⟨0, wPair, wAcc, st (wStood wStandSlot), by decide⟩,
   ⟨0, st (wStood { wStandSlot with updating := true }), by decide⟩,
   ⟨0, st (wStood { wStandSlot with updating := true, state := 4 }), by decide⟩,
   ⟨wOne, 1#32, 5#24, 0#38, 0#64, [1#8], wRelay, ⟨5, 3, 8, 0, 0, 0, [0, 1]⟩, st (wMem.setJob wRelay), by decide⟩,
   ⟨wOne, 1#32, 5#24, 0#38, [], wRelay, ⟨5, 3, 8, 0, 0, 0, [0, 1]⟩, st (wMem.setJob wRelay), by decide⟩,
   ⟨wOne, 1#32, 0, 0#24, 0#32, true, st (wStood { StandSt.none with job := 1, state := 4, spare := 8 }), by decide⟩,
   ⟨wOne, 1#32, 0, 0#24, 0#32, true, wTaking, (0, ⟨8, 2, [], []⟩), st (wMem.setJob wTaking), by decide⟩,
   ⟨wOne, 1#32, 0, 0#24, 8#32, [0#64], wTaking, (0, ⟨8, 2, [], []⟩), st (wMem.setJob wTaking), by decide⟩,
   ⟨wOne, 1#32, 0, 0#24, 8#32, [0x50000000000#64], wTaking, (0, ⟨8, 2, [], []⟩), st (wMem.setJob wTaking), by decide⟩,
   ⟨st (wMem.put (acts Reg.DRILL_CTRL_period_h) 24), by decide⟩,
   ⟨wToDrill, 0, st wDrillRack, test_drillable⟩,
   ⟨1#32, wDrilled, 0, st (wMem.setJob wDrilled), by
    refine ⟨by decide, by decide, ?_, by decide⟩; unfold Dev.isRoot Dev.rootOf JobSt.stepNodes; rw [show chipsOf wDrilled.accs = [0, 1] from test_chips]; decide⟩⟩

set_option maxRecDepth 20000 in
theorem test_witness_PodTime :
    (∃ (s : State),
    let d := s.dev.put Reg.TIME_EPOCH_pulse (s.dev.get Reg.TIME_EPOCH_pulse + 1); let e := (d.onClock fun c => { c with nextAdj := if d.timeSource then c.wanted else none, wanted := none, nextLoad := none, stepBy := 0, atPulse := d.time }).tablesTake; s.dev.clock.nextAdj = none ∧ s.dev.clock.nextLoad = none ∧ s.dev.clock.stepBy = 0) ∧
    (∃ (a t : Nat) (s : State),
    let d := (s.dev.put Reg.TIME_EPOCH_pulse (s.dev.get Reg.TIME_EPOCH_pulse + 1)).put Reg.TIME_RATE_adj a; let f := ({ d with time := t }).incU Cnt.TIME_CNT_TIME_LOADS; let e := (f.onClock fun c => { c with nextAdj := if f.timeSource then c.wanted else none, wanted := none, nextLoad := none, stepBy := 0, atPulse := f.time }).pulsesStepped.tablesTake; s.dev.clock.nextAdj = some a ∧ s.dev.clock.nextLoad = some t) ∧
    (∃ (i : Fin 18) (w : List Word) (s : State),
    let d := s.dev; let ws := w.map BitVec.toNat; let src := bits 32 16 (wd ws 0); let dep : Nat := bits 0 48 (wd ws 4) * unitsPerSec + bits 0 46 (wd ws 5) * 2 ^ 24; let off : Int := (d.time : Int) - dep - d.linkDelay (8 + i); let small := decide (-(5 * 2 ^ 40) ≤ off) && decide (off ≤ 5 * 2 ^ 40); let g := (d.put Reg.TIME_STATUS_rack_off (saturateTo 16 (off / 2 ^ 38))).onClock fun c => { c with rackGood := since c.rackGood d.nowUs small, rackOver := !small }; let e := g.put Reg.TIME_EPOCH_pulse (wd ws 0); let value : Nat := bits 0 48 (wd ws 1) * unitsPerSec + bits 0 46 (wd ws 2) * 2 ^ 24; let diff := inFrameUnits ((g.clock.atPulse : Int) - value); helloChip ((d.port (8 + i)).hello.getD []) ≠ src ∧ d.isMember = true ∧ d.timeSource = false ∧ d.leaderOf d.rack = some src ∧ d.timeState ≠ 0 ∧ g.timeState ≠ 5 ∧ e.timeState = 3 ∧ e.clock.rearm = false ∧ (-g.jumpLimit ≤ diff ∧ diff ≤ g.jumpLimit)) ∧
    (∃ (i : Fin 18) (w : List Word) (s : State),
    let d := s.dev; let ws := w.map BitVec.toNat; let src := bits 32 16 (wd ws 0); let dep : Nat := bits 0 48 (wd ws 4) * unitsPerSec + bits 0 46 (wd ws 5) * 2 ^ 24; let off : Int := (d.time : Int) - dep - d.linkDelay (8 + i); let small := decide (-(5 * 2 ^ 40) ≤ off) && decide (off ≤ 5 * 2 ^ 40); let g := (d.put Reg.TIME_STATUS_rack_off (saturateTo 16 (off / 2 ^ 38))).onClock fun c => { c with rackGood := since c.rackGood d.nowUs small, rackOver := !small }; let e := g.put Reg.TIME_EPOCH_pulse (wd ws 0); let value : Nat := bits 0 48 (wd ws 1) * unitsPerSec + bits 0 46 (wd ws 2) * 2 ^ 24; let diff := inFrameUnits ((g.clock.atPulse : Int) - value); helloChip ((d.port (8 + i)).hello.getD []) ≠ src ∧ d.isMember = true ∧ d.timeSource = false ∧ d.leaderOf d.rack = some src ∧ d.timeState ≠ 0 ∧ g.timeState ≠ 5 ∧ 3 ≤ e.timeState ∧ (diff < -g.jumpLimit ∨ g.jumpLimit < diff) ∧ e.clock.rearm = false) ∧
    (∃ (s : State),
    s.dev.clock.rackOver = true) ∧
    (∃ (s : State),
    s.dev.clock.rackOver = false) ∧
    (∃ (s : State),
    s.dev.isMember = false ∧ s.dev.timeState ≠ 0) ∧
    (∃ (s : State),
    s.dev.isMember = false ∧ s.dev.clock.source = true) ∧
    (∃ (i : Fin 40) (h : PtpHdr) (src : BitVec 16) (arrival : Fin 18) (sec : BitVec 48) (ns : BitVec 32) (corr : BitVec 48) (s : State),
    let origin := (sec.toNat * 1000000000 + ns.toNat) * 65536; let ports := s.dev.syncPorts i (src.toNat / 32) arrival; let d := ports.foldl (fun d j => d.sendTimeFrame j (d.syncOn i h origin corr.toNat) src.toNat) (s.dev.incU Cnt.PTP_CNT_SYNC_RX); let e := (d.setMaster src.toNat).put Reg.PTP_STATUS_port i; h.malformed = false ∧ h.version = 2 ∧ h.minor = 1 ∧ h.sdoId = 0 ∧ h.twoStep = false ∧ h.tlv = false ∧ h.domain.toNat = s.dev.get (acts Reg.PTP_CTRL_domain) ∧ s.dev.isMember = true ∧ s.dev.isLeader = true ∧ s.dev.podMaster = false ∧ (s.dev.arrivalSlots (src.toNat / 32)).min? = some arrival.val ∧ s.dev.viewMaster = some src.toNat) ∧
    (∃ (i : Fin 40) (h : PtpHdr) (src : BitVec 16) (arrival : Fin 18) (sec : BitVec 48) (ns : BitVec 32) (corr : BitVec 48) (s : State),
    (h.malformed = true ∨ h.version ≠ 2 ∨ h.sdoId ≠ 0)) ∧
    (∃ (s : State),
    s.dev.isMember = true ∧ s.dev.viewMaster.map (· / 32) = some s.dev.rack ∧ s.dev.silent = false) ∧
    (∃ (i : Fin 40) (h : PtpHdr) (turn : BitVec 48) (s : State),
    h.malformed = false ∧ h.version = 2 ∧ h.minor = 1 ∧ h.sdoId = 0 ∧ h.twoStep = false ∧ h.tlv = false ∧ h.domain.toNat = s.dev.get (acts Reg.PTP_CTRL_domain)) ∧
    (∃ (i : Fin 40) (h : PtpHdr) (trip turn : BitVec 48) (s : State),
    h.malformed = false ∧ h.version = 2 ∧ h.minor = 1 ∧ h.sdoId = 0 ∧ h.twoStep = false ∧ h.tlv = false ∧ h.domain.toNat = s.dev.get (acts Reg.PTP_CTRL_domain)) ∧
    (∃ (h : PtpHdr) (src : BitVec 16) (s : State),
    h.malformed = false ∧ h.version = 2 ∧ h.minor = 1 ∧ h.sdoId = 0 ∧ h.twoStep = false ∧ h.tlv = false ∧ h.domain.toNat = s.dev.get (acts Reg.PTP_CTRL_domain) ∧ h.type_ = 0xB ∧ (s.dev.isMember = true → s.dev.viewMaster = some src.toNat)) ∧
    (∃ (i : Fin 40) (h : PtpHdr) (src : BitVec 16) (arrival : Fin 18) (sec : BitVec 48) (ns : BitVec 32) (corr : BitVec 48) (s : State),
    h.malformed = false ∧ h.version = 2 ∧ h.sdoId = 0 ∧ (h.minor ≠ 1 ∨ h.twoStep = true ∨ h.tlv = true ∨ h.domain.toNat ≠ s.dev.get (acts Reg.PTP_CTRL_domain))) ∧
    (∃ (h : PtpHdr) (src : BitVec 16) (s : State),
    h.malformed = false ∧ h.version = 2 ∧ h.sdoId = 0 ∧ h.type_ ≠ 0xB) ∧
    (∃ (s : State),
    s.dev.timeState = 3 ∧ s.dev.podMaster = false ∧ (s.dev.isLeader = true ∨ s.dev.clock.source = true)) ∧
    (∃ (s : State),
    s.dev.timeState = 3 ∧ s.dev.podMaster = false ∧ s.dev.isLeader = false ∧ s.dev.clock.source = false) ∧
    (∃ (s : State),
    (s.dev.put Reg.TIME_STATUS_ref_missing 0).timeState = 5) :=
  ⟨⟨st wMem, by decide⟩,
   ⟨5, 7, st (wMem.onClock fun c => { c with nextAdj := some 5, nextLoad := some 7 }), by decide⟩,
   ⟨0, [2 ^ 48 + 2 ^ 32 + 7, 0, 0, 0, 0, 0], st wLed, by decide⟩,
   ⟨0, [2 ^ 48 + 2 ^ 32 + 7, 9, 0, 0, 0, 0], st wLed, by decide⟩,
   ⟨st { Dev.reset with clock := { Dev.reset.clock with rackOver := true } }, by decide⟩,
   ⟨st Dev.reset, by decide⟩,
   ⟨st (wSolo.put Reg.TIME_STATUS_state 1), by decide⟩,
   ⟨st (wSolo.onClock fun c => { c with source := true }), by decide⟩,
   ⟨26, ⟨0, 2, 1, 0, 0, 0, 0, false, false, false⟩, 0, 0, 0, 0, 0, st wSync, test_second⟩,
   ⟨8, ⟨0, 1, 1, 0, 0, 0, 0, false, false, false⟩, 0, 0, 0, 0, 0, st wMem, by decide⟩,
   ⟨st wMem, by
    refine ⟨by decide, ?_, by decide⟩; unfold Dev.viewMaster; rw [show (st wMem).dev.racksIn = _ from test_racks]; decide⟩,
   ⟨8, ⟨0, 2, 1, 0, 0, 0, 0, false, false, false⟩, 0, st wMem, by decide⟩,
   ⟨8, ⟨0, 2, 1, 0, 0, 0, 0, false, false, false⟩, 9, 1, st wMem, by decide⟩,
   ⟨⟨0xB, 2, 1, 0, 0, 0, 0, false, false, false⟩, 0, st wSolo, by
    refine ⟨by decide, by decide, by decide, by decide, by decide, by decide, by decide, by decide, fun h => absurd h (by decide)⟩⟩,
   ⟨8, ⟨0, 2, 2, 0, 0, 0, 0, false, false, false⟩, 0, 0, 0, 0, 0, st wMem, by decide⟩,
   ⟨⟨1, 2, 1, 0, 0, 0, 0, false, false, false⟩, 0, st wSolo, by decide⟩,
   ⟨st wSecond3, test_second_holdover⟩,
   ⟨st (wSolo.put Reg.TIME_STATUS_state 3), by decide⟩,
   ⟨st ((wSolo.put Reg.TIME_STATUS_state 5).put Reg.TIME_STATUS_ref_missing 1), by decide⟩⟩

set_option maxRecDepth 20000 in
theorem test_witness_TensePulsesAndCaptures :
    (∃ (i : Fin 8) (x : TenseSt) (s : State),
    Tab.find i.val s.dev.tense = some x) ∧
    (∃ (i : Fin 8) (s : State),
    Tab.find i.val s.dev.tense = none) ∧
    (∃ (bound : BitVec 32) (last readOk : Bool) (fail : Option ChunkFail) (info : ObjInfo) (s : State),
    s.dev.stage = 0xA ∧ s.dev.boot.packA = some info ∧ s.dev.drillWindow = true ∧ s.dev.slotOpen bound.toNat = true ∧ s.dev.packs.doneIn ≠ s.dev.drillStart (secOf s.dev.time) ∧ s.dev.partState (s.dev.packCluster / 2) = 0) ∧
    (∃ (cl : Fin 32) (cores : List (Fin 17 × Option (Fin 11))) (t : Nat) (s : State),
    let p := cl.val / 2; (s.dev.mon p).started = some t ∧ s.dev.partState p = 0 ∧ s.dev.slotOpen 50000 = true) ∧
    (∃ (n : Fin 8) (s : State),
    let mode := s.dev.get (Reg.PULSE_CFG_mode n); let tense := s.dev.flag (Reg.PULSE_CFG_basis n); let per := s.dev.get (Reg.PULSE_PER_per n); let p : PulseSt := { tense := tense, inst := s.dev.get (Reg.PULSE_CFG_inst n), periodic := mode == 2, pol := s.dev.flag (Reg.PULSE_CFG_pol n), t0 := s.dev.get (Reg.PULSE_T0_t0 n), per := if tense then max 1 (per % 2 ^ 40) else max 1000 (per % 2 ^ 48), next := 0 }; (mode = 1 ∨ mode = 2)) ∧
    (∃ (d : Dev) (n now : Nat) (p : PulseSt) (late : Bool),
    Tab.find n d.pulses = some p ∧ d.pulseNow p = some now ∧ p.target p.next < now) ∧
    (∃ (d : Dev) (n now : Nat) (p : PulseSt) (late : Bool),
    Tab.find n d.pulses = some p ∧ d.pulseNow p = some now ∧ now ≤ p.target p.next) ∧
    (∃ (n : Fin 8) (p : PulseSt) (s : State),
    Tab.find n.val s.dev.pulses = some p) ∧
    (∃ (n : Fin 8) (s : State),
    Tab.find n.val s.dev.pulses = none) ∧
    (∃ (n : Fin 8) (p : PulseSt) (s : State),
    s.dev.flag (Reg.PULSE_STATUS_active n) = true ∧ Tab.find n.val s.dev.pulses = some p) ∧
    (∃ (n : Fin 8) (s : State),
    s.dev.flag (Reg.PULSE_STATUS_active n) = true ∧ Tab.find n.val s.dev.pulses = none) ∧
    (∃ (c : Fin 2) (rising : Bool) (s : State),
    let x := s.dev.cap c; let inst := s.dev.get (Reg.CAP_CFG_inst c); bitAt (if rising then 0 else 1) (s.dev.get (Reg.CAP_CFG_edge c)) = true ∧ (∀ t, x.last = some t → t + 50 * 2 ^ 40 ≤ s.dev.time) ∧ x.fifo.length < 16) ∧
    (∃ (c : Fin 2) (rising : Bool) (s : State),
    let x := s.dev.cap c; bitAt (if rising then 0 else 1) (s.dev.get (Reg.CAP_CFG_edge c)) = true ∧ ((∃ t, x.last = some t ∧ s.dev.time < t + 50 * 2 ^ 40) ∨ 16 ≤ x.fifo.length)) :=
  ⟨⟨2, ⟨1, 0, 0, 1, 0, 0, 0, false⟩, st (wMem.setTense 2 ⟨1, 0, 0, 1, 0, 0, 0, false⟩), by decide⟩,
   ⟨2, st wMem, by decide⟩,
   ⟨5#32, true, true, none, ⟨0, 0, 0, 0, []⟩, st wSlot, by decide⟩,
   ⟨0, [], 3, st wPlanning, by decide⟩,
   ⟨3, st (wMem.put (Reg.PULSE_CFG_mode 3) 2), by decide⟩,
   ⟨wLate.setPulse 3 (some ⟨false, 0, false, false, 0, 1000, 0⟩), 3, wLate.time, ⟨false, 0, false, false, 0, 1000, 0⟩, true, by decide⟩,
   ⟨wMem.setPulse 3 (some ⟨false, 0, false, false, 0, 1000, 0⟩), 3, 0, ⟨false, 0, false, false, 0, 1000, 0⟩, true, by decide⟩,
   ⟨3, ⟨false, 0, true, false, 0, 1000, 0⟩, st (wMem.setPulse 3 (some ⟨false, 0, true, false, 0, 1000, 0⟩)), by decide⟩,
   ⟨3, st wMem, by decide⟩,
   ⟨3, ⟨false, 0, true, false, 0, 1000, 0⟩, st ((wMem.setPulse 3 (some ⟨false, 0, true, false, 0, 1000, 0⟩)).put (Reg.PULSE_STATUS_active 3) 1), by decide⟩,
   ⟨3, st (wMem.put (Reg.PULSE_STATUS_active 3) 1), by decide⟩,
   ⟨1, false, st (wMem.put (Reg.CAP_CFG_edge 1) 2), ⟨by decide, by intro t ht; exact absurd (show (none : Option Nat) = some t from ht) (by simp), by decide⟩⟩,
   ⟨0, true, st ({ wMem with caps := [(0, ⟨[], some 0⟩)] }.put (Reg.CAP_CFG_edge 0) 1), ⟨by decide, Or.inl ⟨0, by decide, by decide⟩⟩⟩⟩

set_option maxRecDepth 20000 in
theorem test_witness_RecorderStopAndScan :
    (∃ (p : EvPending) (s : State),
    let code := s.dev.codeOf p.src; let e := s.dev.onEvr fun e => { e with pend := e.pend.filter fun q => q.src != p.src }; (s.dev.evr.pend.find? fun p => !s.dev.heldCode (s.dev.codeOf p.src)) = some p) ∧
    (∃ (p : EvPending) (s : State),
    let code := s.dev.codeOf p.src; let e := s.dev.onEvr fun e => { e with pend := e.pend.filter fun q => q.src != p.src }; (s.dev.evr.pend.find? fun p => !s.dev.heldCode (s.dev.codeOf p.src)) = some p) ∧
    (∃ (s : State),
    s.dev.flag Reg.DBG_STOP_CTRL_trig_pin = true) ∧
    (∃ (s : State),
    s.dev.flag Reg.DBG_STOP_CTRL_trig_pin = false) ∧
    (∃ (s : State),
    let d := (s.dev.put Reg.DBG_STOP_STATUS_frozen 0).put Reg.DBG_STOP_STATUS_state (b2n (s.dev.flag Reg.DBG_STOP_CTRL_arm)); 2 ≤ s.dev.get Reg.DBG_STOP_STATUS_state) ∧
    (∃ (s : State),
    s.dev.frozen (s.dev.get Reg.DBG_SCAN_SEL_part) = false) ∧
    (∃ (s : State),
    let len := chainBits (s.dev.get Reg.DBG_SCAN_SEL_chain); s.dev.frozen (s.dev.get Reg.DBG_SCAN_SEL_part) = true) ∧
    (∃ (v : BitVec 16) (s : State),
    s.dev.flag Reg.DBG_CTRL_tap_en = true) ∧
    (∃ (v : BitVec 16) (s : State),
    s.dev.flag Reg.DBG_CTRL_tap_en = false) ∧
    (∃ (n : Fin 65) (s : State),
    let v := s.dev.stop.tapSel; let len := s.dev.chainLen (bits 10 4 v) (bits 0 10 v); let d : Dev := { s.dev with stop := { s.dev.stop with tapIr := 0x21 } }; s.dev.flag Reg.DBG_CTRL_tap_en = true) ∧
    (∃ (n : Fin 65) (s : State),
    s.dev.flag Reg.DBG_CTRL_tap_en = false) :=
  ⟨⟨⟨64, 1, 5, 0⟩, st (wMem.onEvr fun e => { e with pend := [⟨64, 1, 5, 0⟩] }), by decide⟩,
   ⟨⟨64, 1, 5, 0⟩, st (wMem.onEvr fun e => { e with pend := [⟨64, 1, 5, 0⟩] }), by decide⟩,
   ⟨st (wMem.put Reg.DBG_STOP_CTRL_trig_pin 1), by decide⟩,
   ⟨st (wMem.put Reg.DBG_STOP_CTRL_trig_pin 0), by decide⟩,
   ⟨st (wMem.put Reg.DBG_STOP_STATUS_state 3), by decide⟩,
   ⟨st wMem, by decide⟩,
   ⟨st (wMem.put Reg.DBG_STOP_STATUS_frozen 1), by decide⟩,
   ⟨0#16, st (wMem.put Reg.DBG_CTRL_tap_en 1), by decide⟩,
   ⟨0#16, st wMem, by decide⟩,
   ⟨64, st (wMem.put Reg.DBG_CTRL_tap_en 1), by decide⟩,
   ⟨5, st wMem, by decide⟩⟩

set_option maxRecDepth 20000 in
theorem test_witness_PacksAndPlans :
    (∃ (info : ObjInfo) (s : State),
    let dsts := s.dev.packTargets (s.dev.get Reg.DBG_PACK_CTRL_scope); s.dev.boot.packA = some info ∧ (s.dev.get Reg.DBG_PACK_CTRL_scope = 1 ∨ s.dev.get Reg.DBG_PACK_CTRL_scope = 2)) ∧
    (∃ (s : State),
    s.dev.boot.packA = none) ∧
    (∃ (h : FabHdr) (chunk total : BitVec 32) (digest : Word) (data : List Byte) (s : State),
    let old : PackIn := (s.dev.packs.incoming.filter fun q => q.digest == digest.toNat).getD (PackIn.mk digest.toNat total.toNat h.src.toNat []); let q : PackIn := { old with chunks := Tab.insert chunk.toNat (data.map BitVec.toNat) (Tab.erase chunk.toNat old.chunks) }; let d : Dev := { s.dev with packs := { s.dev.packs with incoming := some q } }; s.dev.passes h = true ∧ s.dev.stage = 0xA) ∧
    (∃ (h : FabHdr) (digest : Word) (result : Byte) (info : ObjInfo) (s : State),
    let d : Dev := { s.dev with packs := { s.dev.packs with acked := s.dev.packs.acked ++ [h.src.toNat] } }; let e := if result.toNat = 0x00 ∨ result.toNat = 0x10 then d.put Reg.DBG_PACK_STATUS_acks (d.get Reg.DBG_PACK_STATUS_acks + 1) else d; s.dev.passes h = true ∧ s.dev.boot.packA = some info ∧ info.digest % 2 ^ 64 = digest.toNat ∧ s.dev.packs.acked.contains h.src.toNat = false ∧ s.dev.get Reg.DBG_PACK_STATUS_state = 2) ∧
    (∃ (dst : BitVec 16) (chunk : BitVec 32) (info : ObjInfo) (s : State),
    s.dev.boot.packA = some info ∧ s.dev.get Reg.DBG_PACK_STATUS_state = 2 ∧ chunk.toNat < (packChunks info.bytes).length ∧ s.dev.packs.acked.contains dst.toNat = false) ∧
    (∃ (p : Fin 16) (slacks : List (BitVec 8)) (edges : List (BitVec 32)) (s : State),
    let d := s.dev.setMon p { s.dev.mon p with slacks := (slacks.take 32).map BitVec.toInt, edges := (edges.take 8).map BitVec.toNat }; (d.mon p).started = none) ∧
    (∃ (p : Fin 16) (slacks : List (BitVec 8)) (edges : List (BitVec 32)) (t : Nat) (s : State),
    let d := s.dev.setMon p { s.dev.mon p with slacks := (slacks.take 32).map BitVec.toInt, edges := (edges.take 8).map BitVec.toNat }; let odd := oddMonitors ((slacks.take 32).map BitVec.toInt); (d.mon p).started = some t) ∧
    (∃ (p : Fin 16) (s : State) (c : Instr),
    ((c = .planStart p ∧ s.dev.flag (Reg.MON_CTRL_plan_en p) = true) ∨ c = .planNow p) ∧ s.dev.stage = 0xA ∧ s.dev.partState p ≠ 4 ∧ (s.dev.mon p).started = none) ∧
    (∃ (p : Fin 16) (s : State),
    s.dev.flag (Reg.MON_CTRL_plan_en p) = false) ∧
    (∃ (p : Fin 16) (t : Nat) (s : State),
    (s.dev.mon p).started = some t) ∧
    (∃ (p : Fin 16) (r : PlanResult) (t : Nat) (s : State),
    let guard := s.dev.get (Reg.MON_CTRL_guard_ps p); let odd := ((s.dev.mon p).oddNow ++ oddMonitors r.reference).eraseDups; let counts := (List.range 32).foldl (fun t i => Tab.set t i 0 (if odd.contains i then Tab.getD (s.dev.mon p).odd i 0 + 1 else 0)) []; let d := odd.foldl (fun (d : Dev) i => if 3 ≤ Tab.getD counts i 0 then d.exclude p i else d) (s.dev.setMon p { s.dev.mon p with odd := counts, lastPlan := some (secOf s.dev.time) }); let ex := (d.mon p).excluded; let table := (List.range 11).map fun i => vfEntry ex guard (r.sweep.getD i []); let target := (d.get (Reg.MON_CTRL_target_mhz p) - 1200) / 100; let cores := r.cores.zipIdx.map fun (e : Option Nat × Nat) => (e.2, e.1); let half := fun (h : Nat) => (cores.filter fun (e : Nat × Option Nat) => e.1 / 17 == h).map fun (e : Nat × Option Nat) => (e.1 % 17, e.2); let x0 := d.planCores p (2 * p) ((bestPoint table target).getD 0) (half 0); let x1 := x0.1.planCores p (2 * p + 1) ((bestPoint table target).getD 0) (half 1); let e := (List.range r.spared).foldl (fun (d : Dev) _ => d.raise (Src.SRM_sram_spare p)) (x1.1.addU (Cnt.MON_CNT_SPARE_IN p) (x0.2.1 + x1.2.1 + r.spared)); let final := bestPoint table (Nat.min target (e.mon p).cap); (s.dev.mon p).started = some t ∧ s.dev.partState p ≠ 4 ∧ e.partState p ≠ 4 ∧ (bestPoint table target = none ∨ final = none ∨ x0.2.2 = true ∨ x1.2.2 = true)) ∧
    (∃ (p : Fin 16) (r : PlanResult) (t q f : Nat) (s : State),
    let guard := s.dev.get (Reg.MON_CTRL_guard_ps p); let odd := ((s.dev.mon p).oddNow ++ oddMonitors r.reference).eraseDups; let counts := (List.range 32).foldl (fun t i => Tab.set t i 0 (if odd.contains i then Tab.getD (s.dev.mon p).odd i 0 + 1 else 0)) []; let d := odd.foldl (fun (d : Dev) i => if 3 ≤ Tab.getD counts i 0 then d.exclude p i else d) (s.dev.setMon p { s.dev.mon p with odd := counts, lastPlan := some (secOf s.dev.time) }); let ex := (d.mon p).excluded; let table := (List.range 11).map fun i => vfEntry ex guard (r.sweep.getD i []); let target := (d.get (Reg.MON_CTRL_target_mhz p) - 1200) / 100; let cores := r.cores.zipIdx.map fun (e : Option Nat × Nat) => (e.2, e.1); let half := fun (h : Nat) => (cores.filter fun (e : Nat × Option Nat) => e.1 / 17 == h).map fun (e : Nat × Option Nat) => (e.1 % 17, e.2); let x0 := d.planCores p (2 * p) ((bestPoint table target).getD 0) (half 0); let x1 := x0.1.planCores p (2 * p + 1) ((bestPoint table target).getD 0) (half 1); let e := (List.range r.spared).foldl (fun (d : Dev) _ => d.raise (Src.SRM_sram_spare p)) (x1.1.addU (Cnt.MON_CNT_SPARE_IN p) (x0.2.1 + x1.2.1 + r.spared)); let final := bestPoint table (Nat.min target (e.mon p).cap); let f1 := if f < q then (e.incE (Cnt.MON_CNT_POINT_DROP p)).raise (Src.MON_point_lowered p) else e; let table1 := if (f1.mon p).cap < 10 then table.zipIdx.map fun (x : VfPoint × Nat) => if (f1.mon p).cap < x.2 then { x.1 with usable := false } else x.1 else table; let mv := Nat.max (r.rowMv.getD 0) ((table1[f]?.map VfPoint.mv).getD 0); let slack := (((r.sweep.getD f [])[(mv - 600) / 5]?).bind (leastSlack ex)).getD 0; let now : Int := secOf f1.time; let readings := ((f1.mon p).readings ++ [(now, (leastSlack ex r.reference).getD 0)]).drop ((f1.mon p).readings.length - 7); let g := f1.setMon p { f1.mon p with next := some (table1.zipIdx.map fun (x : VfPoint × Nat) => if x.2 = f then VfPoint.mk mv slack true else x.1), due := false, readings := readings }; let days := daysLeft (g.mon p).readings guard now; let k := (g.put (Reg.MON_STATUS_days_left p) days).put (Reg.MON_STATUS_margin_ps p) (byteOfInt (clampInt (-128) 127 (slack - guard))); (s.dev.mon p).started = some t ∧ s.dev.partState p ≠ 4 ∧ e.partState p ≠ 4 ∧ bestPoint table target = some q ∧ final = some f ∧ x0.2.2 = false ∧ x1.2.2 = false ∧ mv ≤ 850) :=
  ⟨⟨⟨0, 0, 0, 0, []⟩, st (wSlot.put Reg.DBG_PACK_CTRL_scope 1), by decide⟩,
   ⟨st wMem, by decide⟩,
   ⟨wOne, 0#32, 2#32, 7#64, [1#8], st wSlot, by decide⟩,
   ⟨wOne, 0#64, 0#8, ⟨0, 0, 0, 0, []⟩, st (wSlot.put Reg.DBG_PACK_STATUS_state 2), by decide⟩,
   ⟨1#16, 0#32, ⟨0, 0, 0, 0, [5]⟩, st (let d := wSlot.put Reg.DBG_PACK_STATUS_state 2; { d with boot := { d.boot with packA := some ⟨0, 0, 0, 0, [5]⟩ } }), by decide⟩,
   ⟨3, [5#8], [6#32], st wMem, by decide⟩,
   ⟨0, [5#8], [6#32], 3, st wPlanning, by decide⟩,
   ⟨3, st wSlot, .planStart 3, by decide⟩,
   ⟨3, st (wSlot.put (Reg.MON_CTRL_plan_en 3) 0), by decide⟩,
   ⟨0, 3, st wPlanning, by decide⟩,
   ⟨0, ⟨[], [], 0, none, []⟩, 3, st wPlanning, by
    simp only [List.zipIdx_nil, List.map_nil, List.filter_nil, test_no_cores]; decide⟩,
   ⟨0, ⟨[[[1000]]], [], 0, none, []⟩, 3, 0, 0, st wPlanning, by
    simp only [List.zipIdx_nil, List.map_nil, List.filter_nil, test_no_cores]; decide⟩⟩

set_option maxRecDepth 20000 in
theorem test_witness_BusTarget :
    (∃ (index : Byte) (s : State),
    (index = 1 ∨ index = 2 ∨ index = 4 ∨ index = 5) ∧ s.dev.pwr.powered.contains .hub = true) ∧
    (∃ (index : Byte) (s : State),
    ((index = 1 ∨ index = 2 ∨ index = 4 ∨ index = 5) ∧ s.dev.pwr.powered.contains .hub = false ∨ 5 < index.toNat)) ∧
    (∃ (addr : BitVec 7) (s : State),
    s.dev.i3c = none) ∧
    (∃ (addr : BitVec 7) (x : Nat) (s : State),
    s.dev.i3c = some x) ∧
    (∃ (dynamic : BitVec 7) (s : State),
    s.dev.i3c = none) ∧
    (∃ (static_ dynamic : BitVec 7) (s : State),
    (static_ ≠ 0x4C ∨ s.dev.i3c.isSome = true)) :=
  ⟨⟨5#8, st wMem, by decide⟩,
   ⟨6#8, st wMem, by decide⟩,
   ⟨5#7, st wMem, by decide⟩,
   ⟨5#7, 3, st { wMem with i3c := some 3 }, by decide⟩,
   ⟨5#7, st wMem, by decide⟩,
   ⟨5#7, 6#7, st wMem, by decide⟩⟩

/-- Record 0 of the job of accelerator 536, whose latest version the partner holds. -/
abbrev wRecJob : JobSt := { wJob with desc := { wJob.desc with recs := [⟨0, 2, 8, 0, 0, 0, [536]⟩] } }
abbrev wRecDev : Dev :=
  { ((Dev.reset.setJob wRecJob).setFlow 0 (some [0, 2 ^ 32, 0, 0, 0, 0, 0, 0])) with
    mir := { MirrorSt.reset with pairs := [(0xFFFE, 3)], acked := [⟨0xFFFE, 0, 1, 1, 1, 0, [0, 1, 2, 3, 4, 5]⟩] } }

set_option maxRecDepth 20000 in
theorem test_witness_VerdictLogLatches :
    ∃ (j : JobSt) (f : List Nat) (r : RecDesc) (s : State),
    let n := s.dev.get Reg.FLOW_SEL_record; let d := s.dev.raise Src.FLOW_flow_ecc; let e := d.setFlow n (some ((d.freshRecord j r).take 3 ++ f)); d.jobOfRec n = some j ∧ d.heldEntry j.desc.job n = some f ∧ j.recDesc n = some r :=
  ⟨wRecJob, [1, 2, 3, 4, 5], ⟨0, 2, 8, 0, 0, 0, [536]⟩, st wRecDev, by refine ⟨by decide, by decide, by decide⟩⟩

set_option maxRecDepth 20000 in
theorem test_witness_MessagesFromOutsideAreDropped :
    (∃ (c : Instr) (h : FabHdr) (s : State),
    checkedHeader s.dev.isMember ((s.dev.mbr.prop.map Proposal.founding).getD false) c = some h ∧ s.dev.passes h = false) ∧
    (∃ (d : Dev) (c : Nat),
    let e := d.incE Cnt.MBR_CNT_FENCE_DROP; (∀ t, Tab.find c e.mbr.fencedAt = some t → t + 1000 ≤ e.nowUs)) ∧
    (∃ (d : Dev) (c t : Nat),
    let e := d.incE Cnt.MBR_CNT_FENCE_DROP; Tab.find c e.mbr.fencedAt = some t ∧ e.nowUs < t + 1000) ∧
    (∃ (h : FabHdr) (seq : BitVec 32) (op : Bool) (addr data : Word) (s : State),
    s.dev.passes h = false) :=
  ⟨⟨.hb ⟨7#16, 0#32⟩ 0 0, ⟨7#16, 0#32⟩, st wMem, by decide⟩,
   ⟨wMem, 7, by intro e t ht; exact absurd (show (none : Option Nat) = some t from ht) (by simp)⟩,
   ⟨wMem.onMbr (fun m => { m with fencedAt := [(7, 0)] }), 7, 0, by decide⟩,
   ⟨⟨7#16, 0#32⟩, 1#32, false, 0#64, 0#64, st wMem, by decide⟩⟩

end Sys2Proof.Tests
end

/-! # What every step keeps: `Keeps` through every function of the model, and through `step` -/

namespace Sys2Proof.Machine

variable {d0 d : Dev}

/-! ### How the relation passes through the forms that definitions take -/

/-- An update of fields other than the memories, the registers, what has left and the counter of free values. -/
theorem Keeps.update
    {rdata rdHold wrHold latched snaps time aon evr pwr boot comp stop unreset clearing
     drains drainLog parts health agr twoOut ports loads indirect pair agents aports mons packs clock tense pulses
     caps mbr jobs flow vlog mir stand drill adoptReqs selfAcks cache residGen coreHits progs nrg chkRest ra i3c}
    (h : Keeps d0 d) : Keeps d0
      ⟨d.regs, rdata, rdHold, wrHold, latched, snaps, d.fresh, d.out, time, aon, d.sram, d.lpd, d.ctxMem, evr, pwr, boot,
       comp, stop, unreset, clearing, drains, drainLog, parts, health, agr, twoOut, ports, loads, indirect, pair, agents,
       aports, mons, packs, clock, tense, pulses, caps, mbr, jobs, flow, vlog, mir, stand, drill, adoptReqs, selfAcks,
       cache, residGen, coreHits, progs, nrg, chkRest, ra, i3c⟩ :=
  h.upd rfl rfl rfl rfl rfl rfl

/-- Free values taken, besides an update of fields as in `Keeps.update`. -/
theorem Keeps.updateFresh {n : Nat} (h : Keeps d0 d) (hn : d.fresh ≤ n) : Keeps d0 { d with fresh := n } :=
  h.updFresh rfl rfl rfl rfl rfl hn

theorem Keeps.when {e : Dev} {c : Prop} [Decidable c] (h : Keeps d0 d) (g : Keeps d0 d → Keeps d0 e) :
    Keeps d0 (if c then e else d) :=
  .ite (g h) h
theorem Keeps.unless {e : Dev} {c : Prop} [Decidable c] (h : Keeps d0 d) (g : Keeps d0 d → Keeps d0 e) :
    Keeps d0 (if c then d else e) :=
  .ite h (g h)

/-- A device that later parts of a definition name more than once. -/
theorem Keeps.share {e : Dev} (h : Keeps d0 d) (g : Keeps d0 d → Keeps d0 e) : Keeps d0 e := g h

/-- The device that an operation answers, where it answers one, is kept. -/
def Kept (d0 : Dev) (o : Option Dev) : Prop := ∀ d ∈ o, Keeps d0 d

/-! ### The functions of Machine/State -/

theorem Kept.none : Kept d0 none := by rintro _ ⟨⟩
theorem Kept.some (h : Keeps d0 d) : Kept d0 (some d) := by rintro _ ⟨⟩; exact h
theorem Kept.ite {a b : Option Dev} {c : Prop} [Decidable c] (h : Kept d0 a) (g : Kept d0 b) : Kept d0 (if c then a else b) := by
  split <;> assumption

/-- The device that a touch of a page leaves is kept. -/
def Touch.Kept (d0 : Dev) : Touch → Prop
  | .resident d | .filling d => Keeps d0 d
  | .closed _ | .noSlot _ | .refused => True

theorem Touch.Kept.ite {a b : Touch} {c : Prop} [Decidable c] (h : a.Kept d0) (g : b.Kept d0) :
    (if c then a else b).Kept d0 := by
  split <;> assumption
theorem Touch.Kept.of_eq {a b : Touch} (h : a.Kept d0) (e : a = b) : b.Kept d0 := e ▸ h

/-- The device that an access leaves is kept, however it ends. -/
def Access.Kept (d0 : Dev) : Access → Prop
  | .ok d | .blocked d | .fail d _ _ => Keeps d0 d

theorem Access.Kept.ite {a b : Access} {c : Prop} [Decidable c] (h : a.Kept d0) (g : b.Kept d0) :
    (if c then a else b).Kept d0 := by
  split <;> assumption
theorem Access.Kept.of_eq {a b : Access} (h : a.Kept d0) (e : a = b) : b.Kept d0 := e ▸ h

/-! ### The functions of Machine/Ops -/

theorem Keeps.put {f : Fld} {v : Nat} (h : Keeps d0 d) : Keeps d0 (d.put f v) := Dev.put_keeps h
theorem Keeps.putB {f : Fld} {b : Bool} (h : Keeps d0 d) : Keeps d0 (d.putB f b) := h.put
theorem Keeps.setBitOf {f : Fld} {i : Nat} (h : Keeps d0 d) : Keeps d0 (d.setBitOf f i) := h.put
theorem Keeps.clrBitOf {f : Fld} {i : Nat} (h : Keeps d0 d) : Keeps d0 (d.clrBitOf f i) := h.put
theorem Keeps.addU {c : Fld} {n : Nat} (h : Keeps d0 d) : Keeps d0 (d.addU c n) := h.put
theorem Keeps.incU {c : Fld} (h : Keeps d0 d) : Keeps d0 (d.incU c) := h.addU
theorem Keeps.emit {o : Out} (h : Keeps d0 d) : Keeps d0 (d.emit o) := Dev.emit_keeps h
theorem Keeps.emits {os : List Out} (h : Keeps d0 d) : Keeps d0 (d.emits os) := Dev.emits_keeps h
theorem Keeps.pin {p : Pin} {v : Nat} (h : Keeps d0 d) : Keeps d0 (d.pin p v) := h.emit
theorem Keeps.tick (h : Keeps d0 d) : Keeps d0 d.tick := Dev.tick_keeps h

/-! ### The functions of Machine/Links -/

theorem Keeps.setPort {i : Nat} {p : PortSt} (h : Keeps d0 d) : Keeps d0 (d.setPort i p) := h.update
theorem Keeps.putFlit {i vc level : Nat} {ctl : Bool} {seq : Nat} {words : List Nat} (h : Keeps d0 d) :
    Keeps d0 (d.putFlit i vc level ctl seq words) :=
  h.emit.setPort.incU
theorem Keeps.sendFlit {i vc level : Nat} {words : List Nat} (h : Keeps d0 d) : Keeps d0 (d.sendFlit i vc level words) :=
  h.setPort.putFlit
theorem Keeps.sendControl {i code : Nat} (h : Keeps d0 d) : Keeps d0 (d.sendControl i code) := h.putFlit

theorem Keeps.pump {i n : Nat} (h : Keeps d0 d) : Keeps d0 (d.pump i n) := by
  induction n generalizing d with
  | zero => exact h
  | succ n ih =>
    unfold Dev.pump
    refine .ite h ?_
    split
    · exact h
    · exact ih h.setPort.sendFlit

theorem Keeps.transmit {i vc level : Nat} {words : List Nat} (h : Keeps d0 d) :
    Keeps d0 (d.transmit i vc level words) :=
  h.setPort.pump
theorem Keeps.sendLocal {i kind : Nat} {body : List Nat} (h : Keeps d0 d) :
    Keeps d0 (d.sendLocal i kind body) :=
  h.emit.setPort.pump
theorem Keeps.resend {i : Nat} (h : Keeps d0 d) : Keeps d0 (d.resend i) := .foldl (fun _ _ h => h.putFlit) h
theorem Keeps.trainPort {i : Nat} (h : Keeps d0 d) : Keeps d0 (d.trainPort i) := h.setPort.put.put.put
theorem Keeps.countIndirect {port flits : Nat} (h : Keeps d0 d) : Keeps d0 (d.countIndirect port flits) := h.addU.update
theorem Keeps.sendOn {dst kind : Nat} {body : List Nat} (h : Keeps d0 d) : Keeps d0 (d.sendOn dst kind body) :=
  .ite h (.foldl (fun _ _ h => h.transmit) (.when h.emit (·.countIndirect)))
theorem Keeps.send {dst kind : Nat} {body : List Nat} (h : Keeps d0 d) : Keeps d0 (d.send dst kind body) :=
  .foldl (fun _ _ h => h.sendOn) h.sendOn

/-! ### The functions of Machine/Flags -/

theorem Keeps.event {src v : Nat} (h : Keeps d0 d) : Keeps d0 (d.event src v) := .when h.update.incU (·.incU)
theorem Keeps.incE {c : Fld} (h : Keeps d0 d) : Keeps d0 (d.incE c) := .ite (.ite h h.put.event) h.put

theorem Keeps.clearCounter {c : Fld} (h : Keeps d0 d) : Keeps d0 (d.clearCounter c) := h.put
theorem Keeps.msix {vf vector : Nat} (h : Keeps d0 d) : Keeps d0 (d.msix vf vector) := .ite h.emit h
theorem Keeps.hostWrite {addr : Nat} {bs : List Nat} (h : Keeps d0 d) : Keeps d0 (d.hostWrite addr bs) := h.emit.addU
theorem Keeps.latchPage {s : FltSrc} {forced : Bool} (h : Keeps d0 d) : Keeps d0 (d.latchPage s forced) :=
  h.setBitOf.share fun h => .ite h.setBitOf h.put.put.putB.put.put
theorem Keeps.latchDev {s : FltSrc} (h : Keeps d0 d) : Keeps d0 (d.latchDev s) := .unless h.setBitOf (·.put.put.put)
theorem Keeps.latchSrc {s : FltSrc} {forced : Bool} (h : Keeps d0 d) : Keeps d0 (d.latchSrc s forced) :=
  .ite (.unless (.when h.latchPage.latchDev.event (·.update)) (·.msix)) h
theorem Keeps.settleBlock {pg : Nat} (h : Keeps d0 d) : Keeps d0 (d.settleBlock pg) := .ite (.when h.put.put.clrBitOf (·.put)) h
theorem Keeps.snapPage {pg : Nat} (h : Keeps d0 d) : Keeps d0 (d.snapPage pg) := h.update.put.put

/-! ### The functions of Machine/Threads -/

theorem Keeps.setCtx {c : Nat} {x : Ctx} (h : Keeps d0 d) : Keeps d0 (d.setCtx c x) := h.update
theorem Keeps.setThread {k : Nat} {t : Thread} (h : Keeps d0 d) : Keeps d0 (d.setThread k t) := h.update
theorem Keeps.ifWritable {pg : Nat} {f : Dev → Dev} (h : Keeps d0 d) (hf : ∀ d, Keeps d0 d → Keeps d0 (f d)) :
    Keeps d0 (d.ifWritable pg f) :=
  .ite h (hf _ h)
theorem Keeps.setPages {t : Tab PageEnt} (h : Keeps d0 d) : Keeps d0 (d.setPages t) := h.update
theorem Keeps.setPage {k : Nat} {e : PageEnt} (h : Keeps d0 d) : Keeps d0 (d.setPage k e) := h.setPages
theorem Keeps.soil {keys : List Nat} (h : Keeps d0 d) : Keeps d0 (d.soil keys) := h.setPages
theorem Keeps.ctxWrites {c : Nat} {ws : Writes} (h : Keeps d0 d) : Keeps d0 (d.ctxWrites c ws) :=
  Keeps.soil (h.trans ⟨id, id, Memory.wf_writes _, id, List.prefix_refl _, Nat.le_refl _⟩)
theorem Keeps.ctxStore {c va : Nat} {bs : List Nat} (h : Keeps d0 d) : Kept d0 (d.ctxStore c va bs) :=
  .ite .none (.ite (.some h.ctxWrites) (.ite .none (.some h.hostWrite)))

theorem Keeps.ctxError {c code : Nat} (h : Keeps d0 d) : Keeps d0 (d.ctxError c code) := by
  dsimp only [Dev.ctxError]
  split
  · exact h.setCtx
  · exact .ite h.setCtx h
  · exact h

theorem Keeps.ctxIrq {c : Nat} (h : Keeps d0 d) : Keeps d0 (d.ctxIrq c) := h.msix

theorem Keeps.writeCompletion {c slot : Nat} {words : List Nat} {irq : Bool} (h : Keeps d0 d) :
    Keeps d0 (d.writeCompletion c slot words irq) := by
  dsimp only [Dev.writeCompletion]
  split
  · next e => exact Keeps.when (h.ctxStore _ e) (·.ctxIrq)
  · exact h.ctxError

theorem Keeps.freeThread {k : Nat} (h : Keeps d0 d) : Keeps d0 (d.freeThread k) := h.setThread
theorem Keeps.endCommand {k status index : Nat} (h : Keeps d0 d) : Keeps d0 (d.endCommand k status index) :=
  .unless (.unless h.freeThread (·.writeCompletion)) (·.ctxError)
theorem Keeps.endCommands {status : Nat} {ks : List Nat} (h : Keeps d0 d) : Keeps d0 (d.endCommands status ks) :=
  .foldl (fun _ _ h => h.endCommand) h
theorem Keeps.retire {k : Nat} {paired : Bool} (h : Keeps d0 d) : Keeps d0 (d.retire k paired) := .when h.setThread (·.endCommand)
theorem Keeps.drainThread {k : Nat} (h : Keeps d0 d) : Keeps d0 (d.drainThread k) := .ite h.endCommand h.setThread
theorem Keeps.releasePages {c : Nat} (h : Keeps d0 d) : Keeps d0 (d.releasePages c) :=
  h.setPages.trans ⟨id, id, Memory.wf_clear _ _, id, List.prefix_refl _, Nat.le_refl _⟩
theorem Keeps.fenceCtx {c : Nat} (h : Keeps d0 d) : Keeps d0 (d.fenceCtx c) :=
  .setCtx (.releasePages (.foldl (fun _ _ h => h.freeThread) h))

theorem Keeps.evict {k : Nat} {e : PageEnt} (h : Keeps d0 d) : Kept d0 (d.evict k e) := by
  dsimp only [Dev.evict]
  split
  · exact .some h.setPage
  · refine .ite (.some h.setPage.incU) (.ite .none ?_)
    split
    · exact .ite (.some h.setPage.incU.setPage.incU) (.ite .none (.some h.setPage.incU.setPage.incU))
    · exact .ite .none (.some h.setPage.incU)

theorem Keeps.evictOne {es : List (Nat × PageEnt)} {n : Nat} (h : Keeps d0 d) : Kept d0 (d.evictOne es n) := by
  induction n generalizing es with
  | zero => exact .none
  | succ n ih =>
    unfold Dev.evictOne
    split
    · exact .none
    · split
      · next e => exact .some (h.evict _ e)
      · exact ih

theorem Keeps.sliceEvict {p : Nat} {held : List Nat} (h : Keeps d0 d) : Kept d0 (d.sliceEvict p held) := by
  dsimp only [Dev.sliceEvict]
  split
  · next e => exact .some (h.evictOne _ e)
  · exact h.evictOne

theorem Keeps.makeRoom {c p : Nat} {held : List Nat} {n : Nat} (h : Keeps d0 d) : Kept d0 (d.makeRoom c p held n) := by
  induction n generalizing d with
  | zero => exact .none
  | succ n ih =>
    unfold Dev.makeRoom
    dsimp only
    split
    · exact .some h
    · exact .none
    · next d' e =>
      refine ih ?_
      split at e
      · exact h.evictOne _ (Option.some.inj e)
      · split at e
        · exact h.sliceEvict _ (Option.some.inj e)
        · cases e

theorem Dev.noPlace_kept {c : Nat} : (d.noPlace c).Kept d0 := by
  dsimp only [Dev.noPlace]
  split <;> trivial

theorem Keeps.touchPage {c page : Nat} {held : List Nat} (h : Keeps d0 d) : (d.touchPage c page held).Kept d0 := by
  dsimp only [Dev.touchPage]
  split
  · refine .ite h.update.setPage (.ite h (.ite trivial ?_))
    split
    · exact Dev.noPlace_kept
    · split
      · next e => exact Keeps.setPage (Keeps.update (h.makeRoom _ e))
      · trivial
  · split
    · exact Dev.noPlace_kept
    · split
      · next e => exact Keeps.setPage (Keeps.update (h.makeRoom _ e))
      · trivial

theorem Keeps.touchPages {c : Nat} {held wait pgs : List Nat} (h : Keeps d0 d) : Keeps d0 (d.touchPages c held wait pgs).1 := by
  induction pgs generalizing d wait with
  | nil => exact h
  | cons pg pgs ih =>
    have g : (d.touchPage c pg held).Kept d0 := h.touchPage
    unfold Dev.touchPages
    split
    · next e => exact ih (g.of_eq e)
    · next e => exact ih (g.of_eq e)
    · exact h

theorem Keeps.freeRefs {t : TileRec} (h : Keeps d0 d) : Keeps d0 (d.freeRefs t) := .foldl (fun _ _ h => h.put) h
theorem Keeps.dropTiles {f : TileRec → Bool} (h : Keeps d0 d) : Keeps d0 (d.dropTiles f) :=
  .update (.foldl (fun _ _ h => .freeRefs (by split; exacts [h.freeThread, h])) h)
theorem Keeps.loseTiles {on : Nat → Bool} (h : Keeps d0 d) : Keeps d0 (d.loseTiles on) := h.update

/-! ### The functions of Machine/Fault -/

theorem Keeps.reissueTiles {p : Nat} (h : Keeps d0 d) : Keeps d0 (d.reissueTiles p) := h.loseTiles.put.put
theorem Keeps.standsRedo {ks : List Nat} (h : Keeps d0 d) : Keeps d0 (d.standsRedo ks) := h.update
theorem Keeps.endPartition {p : Nat} (h : Keeps d0 d) : Keeps d0 (d.endPartition p) :=
  .reissueTiles (.foldl (fun _ _ h => h.freeThread) h.standsRedo.endCommands)
theorem Keeps.abandonDrain {pg : Nat} (h : Keeps d0 d) : Keeps d0 (d.abandonDrain pg) := .ite h.update.put.put h
theorem Keeps.settleDev (h : Keeps d0 d) : Keeps d0 d.settleDev := .ite h h.put
theorem Keeps.enterSafe {p : Nat} (h : Keeps d0 d) : Keeps d0 (d.enterSafe p) :=
  .settleDev (.endPartition (.foldl (fun _ _ h => h.abandonDrain) (.when h.put.setBitOf.incE (·.put))))
theorem Keeps.partSafe {p : Nat} (h : Keeps d0 d) : Keeps d0 (d.partSafe p) := .ite (.ite h.update h.enterSafe) h
theorem Keeps.devSafe {s : FltSrc} (h : Keeps d0 d) : Keeps d0 (d.devSafe s) :=
  .ite h.put (.emit (.foldl (fun _ _ h => h.partSafe) h.put.put.put.put.incE))

theorem Keeps.contain {s : FltSrc} (h : Keeps d0 d) : Keeps d0 (d.contain s) := by
  dsimp only [Dev.contain]
  split
  · split; exacts [h.partSafe, h]
  · exact h.devSafe
  · exact h

theorem Keeps.raiseBase {s : FltSrc} {forced : Bool} (h : Keeps d0 d) : Keeps d0 (d.raiseBase s forced) := .ite h.latchSrc.contain h
theorem Keeps.stopRecord {p : Nat} (h : Keeps d0 d) : Keeps d0 (d.stopRecord p) := h.tick.tick.tick.update
theorem Keeps.stopTrigger {cause : Nat} (h : Keeps d0 d) : Keeps d0 (d.stopTrigger cause) :=
  .ite h (.ite h.put.raiseBase (.raiseBase (.incU (.foldl (fun _ _ h => h.stopRecord) h.put.put.put.put.put.update))))
theorem Keeps.raise0 {s : FltSrc} {forced : Bool} (h : Keeps d0 d) : Keeps d0 (d.raise0 s forced) :=
  .ite (.contain (.when h.latchSrc (·.stopTrigger))) h
theorem Keeps.restand {v : Nat} (h : Keeps d0 d) : Keeps d0 (d.restand v) := .when h.update (·.raise0)
theorem Keeps.points {v row pts : Nat} (h : Keeps d0 d) : Keeps d0 (d.points v row pts) := .when h.update.event (·.raise0)
theorem Keeps.loseBlocks {p : Nat} (h : Keeps d0 d) : Keeps d0 (d.loseBlocks p) := h.update
theorem Keeps.loseMirrors {p : Nat} (h : Keeps d0 d) : Keeps d0 (d.loseMirrors p) := .foldl (fun _ _ h => .ite h.put h) h.update
theorem Keeps.loseSram {p : Nat} (h : Keeps d0 d) : Keeps d0 (d.loseSram p) :=
  Keeps.loseBlocks (h.trans ⟨Memory.wf_clear _ _, id, id, id, List.prefix_refl _, Nat.le_refl _⟩)
theorem Keeps.loseLpd {p : Nat} (h : Keeps d0 d) : Keeps d0 (d.loseLpd p) :=
  Keeps.loseMirrors (h.trans ⟨id, Memory.wf_clear _ _, id, id, List.prefix_refl _, Nat.le_refl _⟩)
theorem Keeps.wakePart {p : Nat} (h : Keeps d0 d) : Keeps d0 (d.wakePart p) := h.update
theorem Keeps.losePack {p : Nat} (h : Keeps d0 d) : Keeps d0 (d.losePack p) := .when h.update (·.update.put.put)

theorem Keeps.partOut {p cause : Nat} (h : Keeps d0 d) : Keeps d0 (d.partOut p cause) :=
  .ite h (.when (.points (.unless (.raise0 (.update (.when (.wakePart (.settleDev
                    (.losePack (.loseLpd (.loseSram (.foldl (fun _ _ h => h.fenceCtx) h.endPartition.put.put.setBitOf.clrBitOf))))))
                (·.put)))) (·.raise0))) (fun h => .update (by split; exacts [h.send, h])))

theorem Keeps.raiseSrc {s : FltSrc} {forced : Bool} (h : Keeps d0 d) : Keeps d0 (d.raiseSrc s forced) := by
  dsimp only [Dev.raiseSrc]
  exact .ite (h.raise0.share fun h => by split; exacts [.ite h.partOut (.ite h.partOut (.when h (·.partOut))), h]) h
theorem Keeps.raise {s : FltSrc} (h : Keeps d0 d) : Keeps d0 (d.raise s) := h.raiseSrc
theorem Keeps.setMon {p : Nat} {m : MonSt} (h : Keeps d0 d) : Keeps d0 (d.setMon p m) := h.update

theorem Keeps.tableTake {p : Nat} (h : Keeps d0 d) : Keeps d0 (d.tableTake p) := by
  dsimp only [Dev.tableTake]
  split
  · exact h
  · exact ((h.setMon.when (·.setMon)).when (·.put)).put.share fun h => .ite h.put h.put

theorem Keeps.aimPoint {p i : Nat} (h : Keeps d0 d) : Keeps d0 (d.aimPoint p i) := .ite h.setMon.put h.setMon
theorem Keeps.retarget {p : Nat} (h : Keeps d0 d) : Keeps d0 (d.retarget p) := .ite h (.ite h.aimPoint h.aimPoint)
theorem Keeps.tableDue {p : Nat} (h : Keeps d0 d) :
    Keeps d0 (d.tableDue p) :=
  .when (by split; exacts [h.aimPoint, h]) (·.tableTake)
theorem Keeps.leaveSafe {p : Nat} (h : Keeps d0 d) : Keeps d0 (d.leaveSafe p) := .ite h.put.clrBitOf.settleDev.wakePart.tableDue h
theorem Keeps.clearBit {pg i : Nat} (h : Keeps d0 d) : Keeps d0 (d.clearBit pg i) := .ite h.clrBitOf h
theorem Keeps.clearFaults {pg mask : Nat} (h : Keeps d0 d) : Keeps d0 (d.clearFaults pg mask) := by
  dsimp only [Dev.clearFaults]
  exact ((h.foldl (fun _ _ h => .ite h.clearBit h)).when (·.settleBlock)).share fun h => by split; exacts [h.leaveSafe, h]

/-! ### The functions of Machine/Fence -/

theorem Keeps.setView {chip : Nat} {e : ViewEnt} (h : Keeps d0 d) : Keeps d0 (d.setView chip e) := h.update
theorem Keeps.fenceDrop {c : Nat} (h : Keeps d0 d) : Keeps d0 (d.fenceDrop c) := .when h.incE (·.send.update)
theorem Keeps.ingress {hdr : FabHdr} {f : Dev → Dev} (h : Keeps d0 d) (hf : ∀ d, Keeps d0 d → Keeps d0 (f d)) :
    Keeps d0 (d.ingress hdr f) :=
  .ite (hf _ h) h.fenceDrop

/-! ### The functions of Machine/AgentPort -/

theorem Keeps.setAgent {a : Nat} {x : AgentSt} (h : Keeps d0 d) : Keeps d0 (d.setAgent a x) := h.update
theorem Keeps.onAgent {a : Nat} {f : AgentSt → AgentSt} (h : Keeps d0 d) : Keeps d0 (d.onAgent a f) := h.setAgent
theorem Keeps.writeRecord {a : Nat} (h : Keeps d0 d) : Keeps d0 (d.writeRecord a) := h.onAgent.emit
theorem Keeps.setStepState {a st : Nat} (h : Keeps d0 d) : Keeps d0 (d.setStepState a st) := h.put.put.writeRecord
theorem Keeps.resumeRecord {a : Nat} (h : Keeps d0 d) : Keeps d0 (d.resumeRecord a) := h.onAgent.put.put.put.put.putB.put.put
theorem Keeps.putAdmitted {a : Nat} {b : Bool} (h : Keeps d0 d) : Keeps d0 (d.putAdmitted a b) := h.putB.putB
theorem Keeps.ackFromAgent {a seq : Nat} (h : Keeps d0 d) : Keeps d0 (d.ackFromAgent a seq) := h.emit
theorem Keeps.leaveUp {a : Nat} {m : PortMsg} (h : Keeps d0 d) : Keeps d0 (d.leaveUp a m) := h.setAgent.emit
theorem Keeps.sendUpAs {a kind : Nat} {body : List Nat} {last : Bool} (h : Keeps d0 d) : Keeps d0 (d.sendUpAs a kind body last) :=
  .ite h.leaveUp h.setAgent
theorem Keeps.sendUp {a kind : Nat} {body : List Nat} (h : Keeps d0 d) : Keeps d0 (d.sendUp a kind body) := h.sendUpAs

theorem Keeps.flushUp {a n tiles shards : Nat} (h : Keeps d0 d) : Keeps d0 (d.flushUp a n tiles shards) := by
  induction n generalizing d tiles shards with
  | zero => exact h
  | succ n ih =>
    unfold Dev.flushUp
    split
    · exact h
    · exact ih h.setAgent.leaveUp

theorem Keeps.sendDecl {a : Nat} (h : Keeps d0 d) : Keeps d0 (d.sendDecl a) := .ite h.sendUp h
theorem Keeps.setAgentPort {a st : Nat} (h : Keeps d0 d) : Keeps d0 (d.setAgentPort a st) := h.put.put.putB
theorem Keeps.agentPortUp {a : Nat} (h : Keeps d0 d) : Keeps d0 (d.agentPortUp a) :=
  .ite h h.setAgentPort.put.put.put.emits.flushUp.sendDecl

/-! ### The functions of Machine/Operands -/

theorem Keeps.stopAt {k tile : Nat} {state : ThState} {why : Waiting} {hold : List Nat} (h : Keeps d0 d) :
    Keeps d0 (d.stopAt k tile state why hold) :=
  h.setThread
theorem Keeps.descError {k code : Nat} (h : Keeps d0 d) : Keeps d0 (d.descError k code) := h.incE.endCommand.raise
theorem Keeps.accessError {k code : Nat} (h : Keeps d0 d) : Keeps d0 (d.accessError k code) := .descError (.ite h.incE h)
theorem Keeps.descWrites {k : Nat} {ws : Writes} (h : Keeps d0 d) : Keeps d0 (d.descWrites k ws) := .ite h h.ctxWrites
theorem Keeps.bump {k : Nat} {l : List (Nat × Nat)} (h : Keeps d0 d) : Keeps d0 (d.bump k l) := h.setThread

theorem Keeps.accessTiles {k : Nat} {ts : List TileRanges} {i : Nat} (h : Keeps d0 d) : (d.accessTiles k ts i).Kept d0 := by
  induction ts generalizing d i with
  | nil => exact h
  | cons t ts ih =>
    unfold Dev.accessTiles
    refine .ite h ?_
    split
    · exact h.stopAt
    · split
      · next e => exact ih (Keeps.soil (.ofPair e h.touchPages))
      · next e => exact Keeps.stopAt (.ofPair e h.touchPages)
      · next e => exact Keeps.stopAt (.ofPair e h.touchPages)
      · next e =>
        split
        · exact .ite (Keeps.stopAt (.ofPair e h.touchPages)) h
        · exact Keeps.stopAt (.ofPair e h.touchPages)
      · next e => exact Keeps.stopAt (.ofPair e h.touchPages)

theorem Keeps.access {k : Nat} {tiles : List TileRanges} (h : Keeps d0 d) : (d.access k tiles).Kept d0 :=
  .ite h h.accessTiles

theorem Keeps.podWrite {space off b : Nat} (h : Keeps d0 d) : Keeps d0 (d.podWrite space off b) := by
  dsimp only [Dev.podWrite]
  refine .ite (.ite ?_ ?_) (.ite ?_ h)
  · exact h.trans ⟨Memory.wf_write _ _, id, id, id, List.prefix_refl _, Nat.le_refl _⟩
  · split
    · exact h.tick.trans ⟨id, id, Memory.wf_write _ _, id, List.prefix_refl _, Nat.le_refl _⟩
    · exact h.tick
  · exact h.trans ⟨id, Memory.wf_write _ _, id, id, List.prefix_refl _, Nat.le_refl _⟩

/-! ### The functions of Machine/Contexts -/

theorem Keeps.ctxCreate {c : Nat} (h : Keeps d0 d) : Keeps d0 (d.ctxCreate c) := .ite h.setCtx h
theorem Keeps.ctxEnable {c : Nat} (h : Keeps d0 d) : Keeps d0 (d.ctxEnable c) := .ite h.setCtx h
theorem Keeps.ctxDisable {c : Nat} (h : Keeps d0 d) : Keeps d0 (d.ctxDisable c) :=
  .ite (.foldl (fun _ _ h => h.drainThread) h.setCtx) h.setCtx
theorem Keeps.ctxErrClear {c : Nat} (h : Keeps d0 d) : Keeps d0 (d.ctxErrClear c) := .ite h.setCtx h

theorem Keeps.ctxDestroy {c : Nat} (h : Keeps d0 d) : Keeps d0 (d.ctxDestroy c) := by
  dsimp only [Dev.ctxDestroy]
  split
  · exact h.releasePages.setCtx
  · exact h.fenceCtx
  · exact h.fenceCtx
  · exact h.fenceCtx
  · exact h

theorem Keeps.hostCtx {c : Nat} {f : Dev → Dev} (h : Keeps d0 d) (hf : ∀ d, Keeps d0 d → Keeps d0 (f d)) : Keeps d0 (d.hostCtx c f) :=
  .ite h (hf _ h)
theorem Keeps.ctxConfig {c reg v : Nat} (h : Keeps d0 d) : Keeps d0 (d.ctxConfig c reg v) := .ite h.setCtx h
theorem Keeps.ctxDrainEnd {c : Nat} {forced : Bool} (h : Keeps d0 d) : Keeps d0 (d.ctxDrainEnd c forced) :=
  .when (.ite h.endCommands h) (·.setCtx)
theorem Keeps.quarantineEnd {c : Nat} (h : Keeps d0 d) : Keeps d0 (d.quarantineEnd c) := .ite h.setCtx h
theorem Keeps.abandonRequests {c : Nat} (h : Keeps d0 d) : Keeps d0 (d.abandonRequests c) := h.update
theorem Keeps.doorbell {c tail : Nat} (h : Keeps d0 d) : Keeps d0 (d.doorbell c tail) :=
  .ite h.incE (.ite h (.ite h.incE.ctxError h.setCtx))
theorem Keeps.endUnstarted {c slot cmdId code : Nat} {irq : Bool} (h : Keeps d0 d) :
    Keeps d0 (d.endUnstarted c slot cmdId code irq) :=
  h.incE.writeCompletion.ctxError
theorem Keeps.dmaError (h : Keeps d0 d) : Keeps d0 d.dmaError := h.incE.raise

theorem Keeps.dmaRead {dma : Dma} (h : Keeps d0 d) : Keeps d0 (d.dmaRead dma) := by
  dsimp only [Dev.dmaRead]
  split
  · exact h.dmaError
  · exact h.addU

theorem Keeps.startThread {k c : Nat} {addr : Option Nat} {list : List Desc} {cmdId slot : Nat} {irq : Bool} (h : Keeps d0 d) :
    Keeps d0 (d.startThread k c addr list cmdId slot irq) :=
  h.setThread

theorem Keeps.dispatch {c cl th : Nat} {dma : Dma} (h : Keeps d0 d) : Keeps d0 (d.dispatch c cl th dma) := by
  dsimp only [Dev.dispatch]
  refine .ite h ?_
  refine .ite h ?_
  exact (Keeps.ite h.dmaRead h).share fun h => by
      split
      · exact h.ctxError
      · exact h.setCtx.share fun h =>
            .ite h.endUnstarted (.ite h.endUnstarted (.when (.startThread (.when h (·.dmaRead))) (·.descError)))

theorem Keeps.commandEnd {k : Nat} (h : Keeps d0 d) : Keeps d0 (d.commandEnd k) := .ite h.endCommand h

theorem Keeps.pageFilled {c page : Nat} (h : Keeps d0 d) : Keeps d0 (d.pageFilled c page) := by
  dsimp only [Dev.pageFilled]
  split
  · exact h
  · exact h.incU.update.setPage.update

theorem Keeps.lpdUpset {p : Nat} {u : LpdUpset} (h : Keeps d0 d) : Keeps d0 (d.lpdUpset p u) := by
  dsimp only [Dev.lpdUpset]
  split
  · exact h
  · exact h.incE
  · exact h.incE.raise
  · exact h.incE.raise

theorem Keeps.pageFill {c page gen : Nat} {u : LpdUpset} (h : Keeps d0 d) : Keeps d0 (d.pageFill c page gen u) :=
  .ite (h.update.share fun h => .ite h.incU (.unless h.lpdUpset (·.pageFilled))) h

theorem Keeps.shrinkSram {p n : Nat} (h : Keeps d0 d) : Keeps d0 (d.shrinkSram p n) := by
  induction n generalizing d with
  | zero => exact h
  | succ n ih =>
    unfold Dev.shrinkSram
    refine .ite h ?_
    split
    · next e => exact ih (h.sliceEvict _ e)
    · exact h

theorem Keeps.shrinkLpd {p n : Nat} (h : Keeps d0 d) : Keeps d0 (d.shrinkLpd p n) := by
  induction n generalizing d with
  | zero => exact h
  | succ n ih =>
    unfold Dev.shrinkLpd
    refine .ite h ?_
    split
    · exact ih h.setPage.incU
    · exact h

theorem Keeps.shrinkPart {p : Nat} (h : Keeps d0 d) : Keeps d0 (d.shrinkPart p) := h.shrinkSram.shrinkLpd
theorem Keeps.shrinkDue (h : Keeps d0 d) : Keeps d0 d.shrinkDue := .foldl (fun _ _ h => h.shrinkPart) h
theorem Keeps.reserveWrite {p v : Nat} (h : Keeps d0 d) : Keeps d0 (d.reserveWrite p v) := h.put.put.shrinkPart
theorem Keeps.vfTeardown {f : Nat} (h : Keeps d0 d) : Keeps d0 (d.vfTeardown f) :=
  .foldl (fun _ _ h => h.ctxDisable.ctxDrainEnd.ctxDestroy) h
theorem Keeps.vfDisable (h : Keeps d0 d) : Keeps d0 d.vfDisable := .put (.foldl (fun _ _ h => h.vfTeardown) h)

/-! ### The functions of Machine/Descriptors -/

theorem Keeps.coreFail {cl core : Nat} (h : Keeps d0 d) : Keeps d0 (d.coreFail cl core) :=
  h.setBitOf.share fun h =>
    .ite (h.put.share fun h => .ite h.update.raise h.raise) (.unless h (fun h => h.put.share fun h => .ite h.raise h.update.raise))
theorem Keeps.switchInDone {cl : Nat} (h : Keeps d0 d) : Keeps d0 (d.switchInDone cl) := .ite h.setBitOf.put.update h
theorem Keeps.resumeSaved {cl : Nat} (h : Keeps d0 d) : Keeps d0 (d.resumeSaved cl) := h.update
theorem Keeps.placeThread {k : Nat} {profs : List (Nat × Nat)} {hold : Thread → List Nat} (h : Keeps d0 d) :
    Keeps d0 (d.placeThread k profs hold) :=
  h.setThread.update
theorem Keeps.chainFail {k code : Nat} (h : Keeps d0 d) : Keeps d0 (d.chainFail k code) := h.incE.accessError
theorem Keeps.issueError {k code : Nat} (h : Keeps d0 d) : Keeps d0 (d.issueError k code) := .ite h.chainFail h.descError
theorem Keeps.holdTile {k : Nat} (h : Keeps d0 d) : Keeps d0 (d.holdTile k) := .ite h.setThread h
theorem Keeps.issueThread {k : Nat} (h : Keeps d0 d) : Keeps d0 (d.issueThread k) :=
  .unless h.resumeSaved (fun h => .ite h.descError (.ite h.issueError (.ite h.issueError h.placeThread)))
theorem Keeps.saveThread {k : Nat} (h : Keeps d0 d) : Keeps d0 (d.saveThread k) := h.setThread.incU
theorem Keeps.preempt {k : Nat} {hold : Bool} (h : Keeps d0 d) : Keeps d0 (d.preempt k hold) := .ite h.saveThread h
theorem Keeps.ftqEntryFree {k cycles : Nat} (h : Keeps d0 d) : Keeps d0 (d.ftqEntryFree k cycles) :=
  .ite h (h.addU.share fun h => .ite h.setThread h.setThread.addU)

theorem Keeps.sramUpset {p : Nat} {u : SramUpset} (h : Keeps d0 d) : Keeps d0 (d.sramUpset p u) := by
  dsimp only [Dev.sramUpset]
  split
  · exact h
  · exact h.raise
  · exact h.raise
  · exact h.raise

theorem Keeps.enqueue {k : Nat} {dims : Nat × Nat} {tile : Nat} {cells : List (List Cell)} (h : Keeps d0 d) :
    Keeps d0 (d.enqueue k dims tile cells) :=
  h.setThread
theorem Keeps.queueEnds {k : Nat} {b : MatBody} {wrong : List WrongElem} {code m : Nat} (h : Keeps d0 d) :
    Keeps d0 (d.queueEnds k b wrong code m) :=
  h.descWrites.addU.bump.incE.accessError

theorem Keeps.matStops {k : Nat} {b : MatBody} {wrong : List WrongElem} {code n : Nat} (h : Keeps d0 d) :
    Keeps d0 (d.matStops k b wrong code n) := by
  refine .ite ?_ h.descWrites.addU.bump.accessError
  have g := h.accessTiles (k := k) (ts := queuedTiles (d.thread k) b n) (i := 0)
  split
  · next e => exact Keeps.setThread (g.of_eq e)
  · next e => exact Keeps.queueEnds (Keeps.bump (Keeps.addU (g.of_eq e)))
  · next e => exact Keeps.queueEnds (Keeps.bump (Keeps.addU (g.of_eq e)))

theorem Keeps.mat {k cycles : Nat} {wrong : List WrongElem} (h : Keeps d0 d) : Keeps d0 (d.mat k cycles wrong) := by
  dsimp only [Dev.mat]
  split
  · exact h
  · refine .ite h.descError ?_
    split
    · exact h.descError
    · split
      · exact h.setThread.chainFail
      · refine .ite h ?_
        split
        · next e => exact Keeps.matStops ((h.access).of_eq e)
        · next e => exact (h.access).of_eq e
        · next e =>
          have h := (h.access).of_eq e
          exact (Keeps.when (Keeps.descWrites h) (·.enqueue)).addU.addU.bump.retire.holdTile

theorem Keeps.vecUpset {cl : Nat} {u : VecUpset} (h : Keeps d0 d) : Keeps d0 (d.vecUpset cl u) := by
  dsimp only [Dev.vecUpset]
  split
  · exact h
  · exact h.raise
  · exact h.raise

theorem Keeps.chain {k cycles : Nat} (h : Keeps d0 d) : Keeps d0 (d.chain k cycles) := by
  dsimp only [Dev.chain]
  split
  · exact h
  · refine .ite h.chainFail ?_
    split
    · exact h.chainFail
    · split
      · next e => exact (Keeps.descWrites ((h.access).of_eq e)).addU.addU.bump.chainFail
      · next e => exact (h.access).of_eq e
      · next e => exact .ite h (Keeps.descWrites ((h.access).of_eq e)).addU.addU.bump.setThread.retire

theorem Keeps.redUpset {cl : Nat} {u : RedUpset} (h : Keeps d0 d) : Keeps d0 (d.redUpset cl u) := by
  dsimp only [Dev.redUpset]
  split
  · exact h
  · exact h.raise
  · exact h.raise

theorem Keeps.red {k cycles : Nat} (h : Keeps d0 d) : Keeps d0 (d.red k cycles) := by
  dsimp only [Dev.red]
  split
  · exact h
  · split
    · exact h.descError
    · split
      · next e => exact (Keeps.descWrites ((h.access).of_eq e)).addU.addU.bump.accessError
      · next e => exact (h.access).of_eq e
      · next e => exact (Keeps.descWrites ((h.access).of_eq e)).addU.addU.bump.retire

theorem Keeps.wait {k : Nat} (h : Keeps d0 d) : Keeps d0 (d.wait k) := by
  dsimp only [Dev.wait]
  split
  · exact h
  · exact .ite h.descError (.ite h.retire h.setThread)

theorem Keeps.waitTimeout {k : Nat} (h : Keeps d0 d) : Keeps d0 (d.waitTimeout k) := .ite h.descError h
theorem Keeps.wakeWaits {c : Nat} (h : Keeps d0 d) : Keeps d0 (d.wakeWaits c) := .foldl (fun _ _ h => .ite h.retire h) h
theorem Keeps.semaphore {c sem op value : Nat} (h : Keeps d0 d) : Keeps d0 (d.semaphore c sem op value) := h.setCtx.wakeWaits
theorem Keeps.coefResult {cl code : Nat} (h : Keeps d0 d) : Keeps d0 (d.coefResult cl code) := h.put
theorem Keeps.coefData {who : Requester} {cl v : Nat} (h : Keeps d0 d) : Keeps d0 (d.coefData who cl v) :=
  .ite h.coefResult (.ite h.coefResult h.update.put.coefResult)
theorem Keeps.coefCommit {who : Requester} {cl : Nat} (h : Keeps d0 d) : Keeps d0 (d.coefCommit who cl) :=
  .ite h.coefResult h.setBitOf.coefResult
theorem Keeps.coefInvalidate {who : Requester} {cl : Nat} (h : Keeps d0 d) : Keeps d0 (d.coefInvalidate who cl) :=
  .ite h.coefResult (.ite h.update.coefResult h.clrBitOf.coefResult)
theorem Keeps.invalidationDone {set : Nat} (h : Keeps d0 d) : Keeps d0 (d.invalidationDone set) :=
  .ite h (.foldl (fun _ _ h => h.coefResult) h.update.clrBitOf)
theorem Keeps.profSelect {e : Nat} (h : Keeps d0 d) : Keeps d0 (d.profSelect e) := h.update.put
theorem Keeps.profStage {v : Nat} (h : Keeps d0 d) : Keeps d0 (d.profStage v) := h.update
theorem Keeps.setProfile {e w0 w1 source : Nat} (h : Keeps d0 d) : Keeps d0 (d.setProfile e w0 w1 source) := h.update
theorem Keeps.profInstall {v : Nat} (h : Keeps d0 d) : Keeps d0 (d.profInstall v) :=
  .ite h.put (by split; exacts [h.put, .ite h.put h.update.setProfile.put])

/-! ### The functions of Machine/Partition -/

theorem Keeps.resetPage {pg : Nat} {keep : List Fld} (h : Keeps d0 d) : Keeps d0 (d.resetPage pg keep) :=
  h.trans ⟨id, id, id, Tab.above_filter _, List.prefix_refl _, Nat.le_refl _⟩
theorem Keeps.clearCounters {pg : Nat} (h : Keeps d0 d) : Keeps d0 (d.clearCounters pg) :=
  h.trans ⟨id, id, id, Tab.above_filter _, List.prefix_refl _, Nat.le_refl _⟩
theorem Keeps.setPart {p : Nat} {x : PartSt} (h : Keeps d0 d) : Keeps d0 (d.setPart p x) := h.update
theorem Keeps.resetPages {p : Nat} {discard : Bool} (h : Keeps d0 d) : Keeps d0 (d.resetPages p discard) :=
  .unless (.foldl (fun _ _ h => h.fenceCtx) h.setPages) (·.raise)
theorem Keeps.coverFaults {p : Nat} (h : Keeps d0 d) : Keeps d0 (d.coverFaults p) := .foldl (fun _ _ h => h.update) h

theorem Keeps.beginReset {p : Nat} {counts : Bool} (h : Keeps d0 d) : Keeps d0 (d.beginReset p counts) :=
  .when (.losePack (.loseSram (.resetPages (.when
            (.update (.foldl (fun _ _ h => .when h.put (·.update.put)) h.points.setPart.endPartition.put.coverFaults))
            (fun h => .when h.clrBitOf (·.putB)))))) (·.loseLpd)

theorem Keeps.resetPartition {p : Nat} (h : Keeps d0 d) : Keeps d0 (d.resetPartition p) :=
  .ite h (.ite (.ite h.partOut h.setPart.put.incE.beginReset) (.beginReset (.when (.ite h.put h) (·.setPart))))
theorem Keeps.autoReset {p : Nat} (h : Keeps d0 d) : Keeps d0 (d.autoReset p) := .ite h.resetPartition h
theorem Keeps.tileReset {t : Nat} (h : Keeps d0 d) : Keeps d0 (d.tileReset t) := .ite (.foldl (fun _ _ h => h.resetPartition) h) h
theorem Keeps.twoOutWait (h : Keeps d0 d) : Keeps d0 d.twoOutWait := .ite h.update.raise h
theorem Keeps.recordHang {p cl unit : Nat} {e : Engine} {n : Nat} (h : Keeps d0 d) : Keeps d0 (d.recordHang p cl unit e n) :=
  h.put.put.put.put.put

theorem Keeps.runSuspect {p : Nat} (h : Keeps d0 d) : Keeps d0 (d.runSuspect p) := by
  dsimp only [Dev.runSuspect]
  split
  · exact h
  · exact .ite h h.setThread

theorem Keeps.clearReaction2 {p : Nat} (h : Keeps d0 d) : Keeps d0 (d.clearReaction2 p) := .foldl (fun _ _ h => h.clearFaults) h

theorem Keeps.endSearch {p : Nat} (h : Keeps d0 d) : Keeps d0 (d.endSearch p) :=
  h.setPart.share fun h =>
    .settleDev (.clearFaults (.setBitOf
          (.put (by split; exacts [h.put, .raise (.update (.put (.setPart (.foldl (fun _ _ h => h.fenceCtx) h.put.put.put))))]))))

theorem Keeps.suspectVerdict {p : Nat} {guilty : Bool} (h : Keeps d0 d) : Keeps d0 (d.suspectVerdict p guilty) := by
  dsimp only [Dev.suspectVerdict]
  split
  · exact h
  · exact h.setPart.incU.put.freeThread.share fun h => .ite h.latchSrc.incE.beginReset (.ite h.endSearch h.runSuspect)

theorem Keeps.engineHang {p half unit : Nat} {e : Engine} (h : Keeps d0 d) : Keeps d0 (d.engineHang p half unit e) :=
  .ite h (.ite h.suspectVerdict (.ite h h.recordHang.incE.setPart.raise))
theorem Keeps.suspectRunEnd {p : Nat} {hung : Bool} (h : Keeps d0 d) : Keeps d0 (d.suspectRunEnd p hung) := .ite h.suspectVerdict h
theorem Keeps.applyCores {cl failed : Nat} (h : Keeps d0 d) : Keeps d0 (d.applyCores cl failed).1 := by
  dsimp only [Dev.applyCores]
  exact (h.put.when (·.put.raise)).share fun h => by split; exacts [h, .iteFst h.put.put.setBitOf h, h]
theorem Keeps.applyFindings {p : Nat} {f : Findings} (h : Keeps d0 d) : Keeps d0 (d.applyFindings p f) :=
  .when (.when h.applyCores.applyCores (·.setBitOf)) (·.setBitOf.partOut)

theorem Keeps.ddrTrained {p : Nat} {r : DdrRate} (h : Keeps d0 d) : Keeps d0 (d.ddrTrained p r) := by
  dsimp only [Dev.ddrTrained]
  split
  · exact h.raise
  · exact h.put.put

theorem Keeps.partitionResetDone {p : Nat} {f : Findings} {r : DdrRate} (h : Keeps d0 d) :
    Keeps d0 (d.partitionResetDone p f r) :=
  .ite h (.unless (.ddrTrained
        (.applyFindings (.foldl (fun _ _ h => h.update) (.foldl (fun _ _ h => h.put) (.foldl (fun _ _ h => h.resetPage) h))))) (fun h =>
        .ite ((h.put.when (·.put.put.put.put)).share fun h => .ite h.endSearch h.runSuspect)
          (.leaveSafe (.when (.settleDev (.setBitOf (.put (.when h.setPart (·.put))))) (·.clearReaction2)))))

/-! ### The functions of Machine/Stage -/

theorem Keeps.waitStart (h : Keeps d0 d) : Keeps d0 d.waitStart := .ite h.update h

theorem Keeps.waitEnd (h : Keeps d0 d) : Keeps d0 d.waitEnd := by
  dsimp only [Dev.waitEnd]
  split
  · exact h.update
  · exact h

theorem Keeps.fwlEnd {result : Nat} (h : Keeps d0 d) : Keeps d0 (d.fwlEnd result) := .unless h.update.put.put.put (·.incE.raise)
theorem Keeps.halt {error : Nat} (h : Keeps d0 d) : Keeps d0 (d.halt error) := h.update.waitEnd.put.put.put

theorem Keeps.enterStage {n : Nat} (h : Keeps d0 d) : Keeps d0 (d.enterStage n) :=
  h.put.share fun h =>
    .ite h.put.waitStart (.ite (.when h.update (fun h => .halt (.foldl (fun _ _ h => h.setBitOf.partOut) h))) (.ite
          (.foldl (fun _ _ h => .ite (.when h.setPort (·.put.put)) h) (.foldl (fun _ _ h => h.trainPort) h))
          (.ite (by split; exacts [h.waitStart, .unless h (·.halt)]) (.ite (.when h (·.put.update)) (.when h (·.put.update))))))

theorem Keeps.endDomains (h : Keeps d0 d) : Keeps d0 d.endDomains := .when h.waitEnd (·.fwlEnd)
theorem Keeps.endStage (h : Keeps d0 d) : Keeps d0 d.endStage :=
  (Keeps.ite h.endDomains h).share fun h => .ite h.put.put.update.put h.enterStage
theorem Keeps.bootResume (h : Keeps d0 d) : Keeps d0 d.bootResume := .ite h.update.put.enterStage h
theorem Keeps.firmwareRuns (h : Keeps d0 d) : Keeps d0 d.firmwareRuns :=
  .ite h (h.update.share fun h => .ite h.update.endStage h.waitStart)
theorem Keeps.startTests (h : Keeps d0 d) : Keeps d0 d.startTests := .ite h (.ite h.endStage h.update)
theorem Keeps.packWait (h : Keeps d0 d) : Keeps d0 d.packWait := .ite h.endStage h
theorem Keeps.resetDevice (h : Keeps d0 d) : Keeps d0 d.resetDevice :=
  h.trans ⟨fun _ => rfl, fun _ => rfl, fun _ => rfl, Tab.above_filter _, List.prefix_refl _, Nat.le_refl _⟩
theorem Keeps.restart (h : Keeps d0 d) : Keeps d0 d.restart := h.resetDevice.emit
theorem Keeps.hostRestart (h : Keeps d0 d) : Keeps d0 d.hostRestart := .ite h.restart h
theorem Keeps.linkTrained {gen width : Nat} (h : Keeps d0 d) : Keeps d0 (d.linkTrained gen width) :=
  .ite h (.when (.when h.put.put.put.update (·.raise)) (·.waitStart))

/-! ### The functions of Machine/Fabric -/

theorem Keeps.setLane {i l v : Nat} (h : Keeps d0 d) : Keeps d0 (d.setLane i l v) := h.setPort
theorem Keeps.quarantine {i reason : Nat} (h : Keeps d0 d) : Keeps d0 (d.quarantine i reason) := h.put.put.raise
theorem Keeps.sendHello {i : Nat} (h : Keeps d0 d) : Keeps d0 (d.sendHello i) := .ite h.sendLocal h
theorem Keeps.agentHello {a : Nat} (h : Keeps d0 d) : Keeps d0 (d.agentHello a) := .ite h.emit h
theorem Keeps.lanesDone (h : Keeps d0 d) : Keeps d0 d.lanesDone := .ite h.put.put.endStage h
theorem Keeps.portOutOfReset {i : Nat} (h : Keeps d0 d) : Keeps d0 (d.portOutOfReset i) := .ite h.clearCounters.put h
theorem Keeps.openPort {i : Nat} (h : Keeps d0 d) : Keeps d0 (d.openPort i) :=
  .when (.sendHello (.put (.ite h.setAgentPort h))) (·.agentHello)

theorem Keeps.settlePort {i : Nat} (h : Keeps d0 d) : Keeps d0 (d.settlePort i) :=
  .ite h ((h.portOutOfReset.put.when (·.raise)).share fun h =>
      .lanesDone (.ite h.setPort.trainPort (.ite h.setPort.put
            (.ite (.unless h (fun h => .quarantine (.raise (.when h (·.setAgentPort))))) (.unless h (·.openPort))))))

theorem Keeps.signalDetect {i l : Nat} (h : Keeps d0 d) : Keeps d0 (d.signalDetect i l) := .ite h.setPort.put h
theorem Keeps.attemptFails {i l : Nat} (h : Keeps d0 d) : Keeps d0 (d.attemptFails i l) := .ite h.setLane.settlePort h
theorem Keeps.attemptEnd {i l : Nat} {pass : Bool} {delay : Nat} (h : Keeps d0 d) : Keeps d0 (d.attemptEnd i l pass delay) :=
  .ite h (.ite (.settlePort (.setLane (.unless h.setPort.put (·.setPort.put.put)))) h.attemptFails)
theorem Keeps.laneSilent {i l : Nat} (h : Keeps d0 d) : Keeps d0 (d.laneSilent i l) := .ite h.setLane.settlePort h
theorem Keeps.linkDown {i l : Nat} (h : Keeps d0 d) : Keeps d0 (d.linkDown i l) :=
  .ite h (h.setLane.raise.put.share fun h => .ite h.raise (.put (.setPort (.when h (·.setAgentPort)))))
theorem Keeps.portReset {i : Nat} (h : Keeps d0 d) : Keeps d0 (d.portReset i) := .trainPort (.when h.resetPage.put (·.setAgentPort))
theorem Keeps.retrain {i : Nat} (h : Keeps d0 d) : Keeps d0 (d.retrain i) := .ite h.portReset h
theorem Keeps.loopback {i : Nat} (h : Keeps d0 d) : Keeps d0 (d.loopback i) := .setPort (.trainPort (.ite h.setAgentPort h))
theorem Keeps.startKeyx {i reason : Nat} (h : Keeps d0 d) : Keeps d0 (d.startKeyx i reason) := h.tick.tick.setPort.put.put.sendLocal
theorem Keeps.showPlan {p : PlanInfo} {i : Nat} (h : Keeps d0 d) : Keeps d0 (d.showPlan p i) := by
  dsimp only [Dev.showPlan]
  exact h.put.share fun h => by split <;> exact h.put.put

theorem Keeps.classifyPort {i : Nat} (h : Keeps d0 d) : Keeps d0 (d.classifyPort i) := by
  dsimp only [Dev.classifyPort]
  exact .ite (.when (by split; exacts [h.showPlan, h]) (fun h => .agentPortUp (.unless h (·.put.resend)))) (by
        split
        · exact h
        · exact .unless h.showPlan (fun h => by
                split
                · exact .ite h.put h.startKeyx
                · exact (h.unless (·.quarantine)).share fun h => by split; exacts [.unless h (·.quarantine), h]
                · exact h.put.put))

theorem Keeps.classifyAll (h : Keeps d0 d) : Keeps d0 d.classifyAll := .foldl (fun _ _ h => h.classifyPort) h

theorem Keeps.discoveryCheck (h : Keeps d0 d) : Keeps d0 d.discoveryCheck := by
  dsimp only [Dev.discoveryCheck]
  split
  · exact .ite h.classifyAll.endStage h
  · exact h

theorem Keeps.startDiscovery (h : Keeps d0 d) : Keeps d0 d.startDiscovery := by
  dsimp only [Dev.startDiscovery]
  split
  · exact .ite (.ite h.halt (.discoveryCheck (.foldl (fun _ _ h => .ite h.classifyPort h.showPlan) h))) h
  · exact h

theorem Keeps.resumeBoot (h : Keeps d0 d) : Keeps d0 d.resumeBoot := h.bootResume.lanesDone.startDiscovery
theorem Keeps.acknowledge {i : Nat} (h : Keeps d0 d) : Keeps d0 (d.acknowledge i) := .ite h h.sendControl
theorem Keeps.localFlits {i n : Nat} (h : Keeps d0 d) : Keeps d0 (d.localFlits i n) := h.setPort.addU.acknowledge
theorem Keeps.hello {i : Nat} {hdr : List Nat} (h : Keeps d0 d) : Keeps d0 (d.hello i hdr) :=
  .ite h (.unless h.setPort.localFlits.put.put.put.put.put.put.put.put
      (fun h => (h.when (·.raise.quarantine)).share fun h => .ite h.halt h.classifyPort.discoveryCheck))

theorem Keeps.unheardPort {i : Nat} (h : Keeps d0 d) : Keeps d0 (d.unheardPort i) := by
  dsimp only [Dev.unheardPort]
  split
  · exact h
  · exact .ite h h.showPlan.put.put

theorem Keeps.discWait (h : Keeps d0 d) : Keeps d0 d.discWait :=
  .ite (.when (.foldl (fun _ _ h => h.unheardPort) h.classifyAll) (·.endStage)) h

theorem Keeps.planReplaced (h : Keeps d0 d) : Keeps d0 d.planReplaced := by
  dsimp only [Dev.planReplaced]
  split
  · exact h
  · exact .foldl (fun _ _ h => .ite (.when h.setPort (·.setPort.quarantine)) h.setPort.classifyPort) h

theorem Keeps.leavePort {i : Nat} {forced : Bool} (h : Keeps d0 d) : Keeps d0 (d.leavePort i forced) := .ite h.setPort.quarantine h

theorem Keeps.keyx {i : Nat} {k : Keyx} (h : Keeps d0 d) : Keeps d0 (d.keyx i k) := by
  dsimp only [Dev.keyx]
  split
  · exact h
  · exact .ite h (h.localFlits.sendLocal.share fun h => .ite (.pump (.unless h.setPort.put (·.resend))) h.quarantine)

theorem Keeps.rekey {i : Nat} (h : Keeps d0 d) : Keeps d0 (d.rekey i) := .ite h.startKeyx.setPort h
theorem Keeps.acceptFrame {i : Nat} {f : FrameCheck} (h : Keeps d0 d) : Keeps d0 (d.acceptFrame i f).1 :=
  .iteFst h.setPort h.incE.raise
theorem Keeps.sendNak {i : Nat} (h : Keeps d0 d) : Keeps d0 (d.sendNak i) := h.sendControl
theorem Keeps.replayFlits {i : Nat} (h : Keeps d0 d) : Keeps d0 (d.replayFlits i) :=
  .ite h (.when h.setPort.incE.resend (·.setPort.raise.trainPort))
theorem Keeps.takeAck {i ack : Nat} (h : Keeps d0 d) : Keeps d0 (d.takeAck i ack) := h.setPort
theorem Keeps.takeCredits {i w : Nat} (h : Keeps d0 d) : Keeps d0 (d.takeCredits i w) := h.setPort

theorem Keeps.flit {i hdr : Nat} {payload : List Nat} {crc : Nat} {frame : Option FrameCheck} (h : Keeps d0 d) :
    Keeps d0 (d.flit i hdr payload crc frame) := by
  dsimp only [Dev.flit]
  refine .ite h.incE.sendNak ?_
  exact h.incU.share fun h =>
      .ite h.takeAck.takeCredits.pump (.ite
          (h.setPort.takeAck.takeCredits.pump.acknowledge.share fun h => by split; exacts [.when h (·.acceptFrame), h])
          (.unless h (·.sendNak)))

theorem Keeps.loadIn {slot : Nat} {util : List Nat} (h : Keeps d0 d) : Keeps d0 (d.loadIn slot util) := by
  dsimp only [Dev.loadIn]
  exact h.update.share fun h => by split; exacts [h.incU, h]

theorem Keeps.loadSend {util : List PortSample} (h : Keeps d0 d) : Keeps d0 (d.loadSend util) := by
  unfold Dev.loadSend
  extract_lets d1 d2
  have h1 : Keeps d0 d1 := .foldl (fun _ _ h => h.put.put.addU) h
  have h2 : Keeps d0 d2 := .foldl (fun _ _ h => h.put) h1
  exact .ite h2 (.foldl (fun _ _ h => h.emit.incU) h2)

/-! ### The functions of Machine/Pair -/

theorem Keeps.setAport {a : Nat} {p : AgentPort} (h : Keeps d0 d) : Keeps d0 (d.setAport a p) := h.update
theorem Keeps.downOut {a : Nat} {m : PortMsg} (h : Keeps d0 d) : Keeps d0 (d.downOut a m) := h.emit.addU.transmit
theorem Keeps.ackToAgent {a seq : Nat} (h : Keeps d0 d) : Keeps d0 (d.ackToAgent a seq) := h.downOut
theorem Keeps.sendDown {a kind : Nat} {body : List Nat} (h : Keeps d0 d) : Keeps d0 (d.sendDown a kind body) :=
  .unless h.setAport (·.downOut)
theorem Keeps.setCore {n st : Nat} (h : Keeps d0 d) : Keeps d0 (d.setCore n st) := .putB (.when h.put (·.put))
theorem Keeps.coreOff {n : Nat} (h : Keeps d0 d) : Keeps d0 (d.coreOff n) := h.setCore.raise
theorem Keeps.healthEvent (h : Keeps d0 d) : Keeps d0 d.healthEvent := h.update
theorem Keeps.ownWrite {off v : Nat} (h : Keeps d0 d) : Keeps d0 (d.ownWrite off v) := h.update
theorem Keeps.release {c : PairCopy} (h : Keeps d0 d) : Keeps d0 (d.release c) := by
  dsimp only [Dev.release]
  exact h.update.put.share fun h => by split; exacts [h.send, h.sendDown, h.ownWrite]

theorem Keeps.flush {n : Nat} (h : Keeps d0 d) : Keeps d0 (d.flush n) := by
  induction n generalizing d with
  | zero => exact h
  | succ n ih =>
    unfold Dev.flush
    split
    · exact h
    · split
      · exact h
      · exact ih h.update.release

theorem Keeps.flushAll (h : Keeps d0 d) : Keeps d0 d.flushAll := h.flush
theorem Keeps.singleMode {running : Nat} (h : Keeps d0 d) : Keeps d0 (d.singleMode running) := h.update.flushAll
theorem Keeps.takeOver {n : Nat} {acked : List Nat} (h : Keeps d0 d) : Keeps d0 (d.takeOver n acked) :=
  .foldl (fun _ _ h => by split; exacts [h.send, h.sendDown, h.ownWrite]) h.setCore.incE.singleMode
theorem Keeps.coreGone {n was : Nat} {acked : List Nat} (h : Keeps d0 d) : Keeps d0 (d.coreGone n was acked) :=
  .ite (.ite h.takeOver h.raise) (.ite h.singleMode (.ite (.singleMode (.setCore (.ite h.incE h))) h))
theorem Keeps.coreUnpowered {n : Nat} (h : Keeps d0 d) : Keeps d0 (d.coreUnpowered n) := .ite h h.update.setCore.coreGone
theorem Keeps.firmwareCheck (h : Keeps d0 d) : Keeps d0 d.firmwareCheck := .ite h.firmwareRuns h
theorem Keeps.coreSelftest {n : Nat} {pass : Bool} (h : Keeps d0 d) : Keeps d0 (d.coreSelftest n pass) :=
  .ite h (.ite (.firmwareCheck (.ite h.setCore (.ite h.setCore (.ite h.setCore h.takeOver))))
      (h.coreOff.share fun h => .firmwareCheck (.ite h.raise (.when h (·.setCore)))))
theorem Keeps.coreResync {n : Nat} (h : Keeps d0 d) : Keeps d0 (d.coreResync n) := .ite h.setCore.incU h
theorem Keeps.mismatch {seq : Nat} (h : Keeps d0 d) : Keeps d0 (d.mismatch seq) := h.setCore.setCore.put.update.incE.raise

theorem Keeps.pairCopy {n seq : Nat} {m : Message} (h : Keeps d0 d) : Keeps d0 (d.pairCopy n seq m) :=
  .ite (by
      split
      · exact .ite h h.update.mismatch
      · exact .ite h.update.flushAll (by split; exacts [h.update, .ite h.update.mismatch (.ite h.update.incU.flushAll h.update)])) h

theorem Keeps.singleCopy {seq : Nat} (h : Keeps d0 d) : Keeps d0 (d.singleCopy seq) :=
  .ite h (by split; exacts [h, h.update.incU.flushAll])
theorem Keeps.takeoverRow {acked : List Nat} (h : Keeps d0 d) : Keeps d0 (d.takeoverRow acked) := .ite h.coreOff.coreGone h
theorem Keeps.releaseHeld {seq n : Nat} (h : Keeps d0 d) : Keeps d0 (d.releaseHeld seq n) := h.update.flushAll

theorem Keeps.pairSelftest {ok0 ok1 : Bool} (h : Keeps d0 d) : Keeps d0 (d.pairSelftest ok0 ok1) := by
  dsimp only [Dev.pairSelftest]
  split
  · exact h
  · split
    · exact h.coreOff.coreOff.update.raise
    · exact h.update.setCore.share fun h => .when (.releaseHeld (.ite h.coreOff h.setCore)) (·.singleMode)
    · exact h.coreOff.setCore.releaseHeld.singleMode
    · exact h.coreOff.setCore.releaseHeld.singleMode

theorem Keeps.coreOffline {n : Nat} (h : Keeps d0 d) : Keeps d0 (d.coreOffline n) := .ite h.coreOff.coreGone h
theorem Keeps.coreRetry {n : Nat} (h : Keeps d0 d) : Keeps d0 (d.coreRetry n) := .ite h.setCore.update h
theorem Keeps.standbySlice {ok passEnds : Bool} (h : Keeps d0 d) : Keeps d0 (d.standbySlice ok passEnds) :=
  .ite h (.ite h.setCore.healthEvent.raise.singleMode (.ite h.healthEvent.incU h))

/-! ### The functions of Machine/Power -/

theorem Keeps.lowerPoint {p n : Nat} (h : Keeps d0 d) : Keeps d0 (d.lowerPoint p n) := h.aimPoint

theorem Keeps.raisePoint {p : Nat} (h : Keeps d0 d) : Keeps d0 (d.raisePoint p) := by
  dsimp only [Dev.raisePoint]
  split
  · exact h.aimPoint
  · exact h

theorem Keeps.unlimit (h : Keeps d0 d) : Keeps d0 d.unlimit := .update (.foldl (fun _ _ h => h.aimPoint) h)
theorem Keeps.setLosses {f : Feed} {l : List Nat} (h : Keeps d0 d) : Keeps d0 (d.setLosses f l) := h.update
theorem Keeps.pauseG (h : Keeps d0 d) : Keeps d0 d.pauseG := .foldl (fun _ _ h => h.saveThread) h

theorem Keeps.powerLoss (h : Keeps d0 d) : Keeps d0 d.powerLoss := by
  unfold Dev.powerLoss
  extract_lets _ _ e
  have he : Keeps d0 e :=
    h.trans ⟨fun _ => rfl, fun _ => rfl, fun _ => rfl, Tab.above_filter _, List.prefix_refl _, Nat.le_refl _⟩
  exact he.put.put.update

theorem Keeps.feedsCheck (h : Keeps d0 d) : Keeps d0 d.feedsCheck := .ite h.powerLoss h
theorem Keeps.feedLoss {f : Feed} (h : Keeps d0 d) : Keeps d0 (d.feedLoss f) :=
  .ite h.put (.ite h (h.put.setLosses.share fun h => .ite h.put h.incE.raise.put.pauseG.update.coreUnpowered))
theorem Keeps.feedLost {f : Feed} (h : Keeps d0 d) : Keeps d0 (d.feedLost f) := h.feedLoss.feedsCheck

theorem Keeps.wakeUp (h : Keeps d0 d) : Keeps d0 d.wakeUp := by
  unfold Dev.wakeUp
  extract_lets lost k d1 _ d2 d3
  have h2 : Keeps d0 d2 := h.resetDevice.update
  have h3 : Keeps d0 d3 := .ite h2 ⟨h2.sram, h.lpd, h2.ctxMem, h2.regs, h2.out, h2.fresh⟩
  exact h3.put.putB.put.putB.when (·.raise)

theorem Keeps.wakeBy {i : Nat} (h : Keeps d0 d) : Keeps d0 (d.wakeBy i) :=
  .ite h (.ite (.ite h.setBitOf h) (h.setBitOf.share fun h => .ite h.update h.wakeUp))
theorem Keeps.wakeCmp {i : Nat} (h : Keeps d0 d) : Keeps d0 (d.wakeCmp i) := .ite h.wakeBy h

theorem Keeps.idleEntered (h : Keeps d0 d) : Keeps d0 d.idleEntered := by
  unfold Dev.idleEntered
  refine .ite h ?_
  extract_lets wakes k d1 _ d2
  have h1 : Keeps d0 d1 := h.resetDevice
  have h2 : Keeps d0 d2 := ⟨h1.sram, h.lpd, h1.ctxMem, h1.regs, h1.out, h1.fresh⟩
  exact (h2.when (·.put)).put.when (·.wakeUp)

theorem Keeps.coreReturns {n : Nat} (h : Keeps d0 d) : Keeps d0 (d.coreReturns n) := .ite h.update.setCore h
theorem Keeps.returnHold {f : Feed} (h : Keeps d0 d) : Keeps d0 (d.returnHold f) :=
  .ite h (.ite h.put.raise (h.put.share fun h => .ite h.wakeBy (.when h.coreReturns.wakeBy (·.put.unlimit))))
theorem Keeps.rearm {f : Feed} (h : Keeps d0 d) : Keeps d0 (d.rearm f) := .ite h.put.setLosses h
theorem Keeps.overEnvelope (h : Keeps d0 d) : Keeps d0 d.overEnvelope := .ite h.raise h
theorem Keeps.powerOn {a b : Bool} {ida idb : Option (List Byte)} {slot : Nat} (h : Keeps d0 d) :
    Keeps d0 (d.powerOn a b ida idb slot) :=
  .ite h (.when (.when (.when h.powerLoss.update.putB.putB.putB.put.put (·.put)) (·.raise)) (·.put.raise))

theorem Keeps.powerGood {x : Domain} (h : Keeps d0 d) : Keeps d0 (d.powerGood x) := by
  dsimp only [Dev.powerGood]
  refine .ite ?_ h
  split
  · exact .ite h.update.setCore h.update
  · exact h.update

theorem Keeps.pmbusPoll {okA okB : Bool} (h : Keeps d0 d) : Keeps d0 (d.pmbusPoll okA okB) := .when h.update (·.raise)
theorem Keeps.vddqLow (h : Keeps d0 d) : Keeps d0 d.vddqLow := .ite h.update (.ite (.foldl (fun _ _ h => h.raise) h) h.update)

/-! ### The functions of Machine/Boot -/

theorem Keeps.fwlGo {obj : Nat} (h : Keeps d0 d) : Keeps d0 (d.fwlGo obj) :=
  .ite h (h.put.put.put.share fun h => .ite h.fwlEnd ((h.when (·.put)).share fun h => .ite h.fwlEnd h.update.put))
theorem Keeps.fwlAbort (h : Keeps d0 d) : Keeps d0 d.fwlAbort := .ite (.when h.fwlEnd (·.put.waitStart)) h
theorem Keeps.planInForce {p : PlanInfo} (h : Keeps d0 d) : Keeps d0 (d.planInForce p) :=
  h.update.put.put.put.share fun h => .ite h.planReplaced (.when h (fun h => h.waitEnd.share fun h => .ite h.startDiscovery h.halt))

theorem Keeps.stagePackStage {info : ObjInfo} {part : Nat} (h : Keeps d0 d) : Keeps d0 (Dev.stagePack.stage info part d) :=
  h.update.share fun h => .ite h.losePack h.put.put.put.put

theorem Keeps.stagePack {info : ObjInfo} {part : Nat} (h : Keeps d0 d) : Keeps d0 (d.stagePack info part) := by
  dsimp only [Dev.stagePack]
  split
  · exact .ite h.put (.ite h.put h.stagePackStage)
  · exact h.stagePackStage

theorem Keeps.packFetched {part : Nat} {bs : List Byte} (h : Keeps d0 d) : Keeps d0 (d.packFetched part bs) :=
  .ite h.fwlEnd (.ite (h.update.share fun h => .ite h.stagePack.fwlEnd h.update.fwlEnd) h.stagePack.fwlEnd)
theorem Keeps.planFetched {bs : List Byte} (h : Keeps d0 d) : Keeps d0 (d.planFetched bs) :=
  .ite h.fwlEnd (.ite h.fwlEnd.planInForce h.put.fwlEnd)

theorem Keeps.fetchDone {dma : Dma} (h : Keeps d0 d) : Keeps d0 (d.fetchDone dma) := by
  unfold Dev.fetchDone
  split
  · exact h
  · refine .ite h ?_
    extract_lets d1
    have h1 : Keeps d0 d1 := h.dmaRead
    split
    · exact h1.fwlEnd
    · exact .ite h1.put.update.waitEnd.endStage (.ite h1.put.packFetched h1.put.planFetched)

theorem Keeps.verifyDone (h : Keeps d0 d) : Keeps d0 d.verifyDone := by
  dsimp only [Dev.verifyDone]
  split
  · exact h
  · exact .ite h (.ite h.update.fwlEnd.endStage h.fwlEnd.put.waitStart)

theorem Keeps.bootOut {p : Nat} (h : Keeps d0 d) : Keeps d0 (d.bootOut p) := h.setBitOf.partOut

theorem Keeps.testsDone {fs : List Findings} {lanes : Nat} {hubFail packOk : Bool} {vf : List (List (Nat × Int × Bool))} {p0 : Nat}
    (h : Keeps d0 d) : Keeps d0 (d.testsDone fs lanes hubFail packOk vf p0) := by
  unfold Dev.testsDone
  refine .ite h ?_
  extract_lets d1 d2 _ d3 d4 _ d5
  have h1 : Keeps d0 d1 := .foldl (fun _ _ h => h.applyFindings) h
  have h2 : Keeps d0 d2 := .foldl (fun _ _ h => h.setMon.put) h1
  have h4 : Keeps d0 d4 := h2.update.put
  have h5 : Keeps d0 d5 := by unfold d5; split; exacts [h4.when (·.update), h4]
  exact .ite h5.halt h5.endStage

theorem Keeps.ddrStage {p : Nat} {r : DdrRate} (h : Keeps d0 d) : Keeps d0 (d.ddrStage p r) :=
  .ite h (((Keeps.ite h.bootOut h.ddrTrained).unless (·.loseLpd)).share fun h =>
      .ite h.halt (.when h (·.endStage.lanesDone.startDiscovery)))
theorem Keeps.timeStage {rack pod : Bool} (h : Keeps d0 d) : Keeps d0 (d.timeStage rack pod) :=
  .ite h (.ite h.halt (h.put.share fun h => .ite h.put.endStage h.raise.endStage))

theorem Keeps.rollback (h : Keeps d0 d) : Keeps d0 d.rollback := by
  dsimp only [Dev.rollback]
  split
  · exact .ite h.put h
  · exact h

theorem Keeps.attestGo (h : Keeps d0 d) : Keeps d0 d.attestGo := .ite h h.update.put
theorem Keeps.attestDone (h : Keeps d0 d) : Keeps d0 d.attestDone := .ite h.put.put.put h

/-! ### The functions of Machine/Tense -/

theorem Keeps.setTense {i : Nat} {x : TenseSt} (h : Keeps d0 d) : Keeps d0 (d.setTense i x) := h.update
theorem Keeps.setPulse {n : Nat} {p : Option PulseSt} (h : Keeps d0 d) : Keeps d0 (d.setPulse n p) := h.update.putB
theorem Keeps.firePulse {n : Nat} {p : PulseSt} {next : Nat} (h : Keeps d0 d) : Keeps d0 (d.firePulse n p next) :=
  h.put.put.incU.pin.setPulse

theorem Keeps.catchUp {n : Nat} {late : Bool} (h : Keeps d0 d) : Keeps d0 (d.catchUp n late) := by
  dsimp only [Dev.catchUp]
  split
  · exact h
  · split; exacts [h, .ite (.when h.firePulse (·.put.raise)) h]

theorem Keeps.pulseArm {n : Nat} (h : Keeps d0 d) : Keeps d0 (d.pulseArm n) := .ite h h.setPulse.catchUp
theorem Keeps.pulseOff {n : Nat} (h : Keeps d0 d) : Keeps d0 (d.pulseOff n) := h.setPulse

theorem Keeps.pulseFire {n : Nat} (h : Keeps d0 d) : Keeps d0 (d.pulseFire n) := by
  dsimp only [Dev.pulseFire]
  split
  · exact h.firePulse
  · exact h

theorem Keeps.pulseEnd {n : Nat} (h : Keeps d0 d) : Keeps d0 (d.pulseEnd n) := .ite h.put.pin h
theorem Keeps.pulsesStepped (h : Keeps d0 d) : Keeps d0 d.pulsesStepped :=
  .foldl (fun _ _ h => by split; exacts [.ite h h.catchUp, h]) h
theorem Keeps.pulsesMarked {i : Nat} (h : Keeps d0 d) : Keeps d0 (d.pulsesMarked i) :=
  .foldl (fun _ _ h => by split; exacts [.ite h.catchUp h, h]) h
theorem Keeps.pulsesBack {i : Nat} (h : Keeps d0 d) : Keeps d0 (d.pulsesBack i) :=
  .foldl (fun _ _ h => by split; exacts [.ite (by split; exacts [h.setPulse, h]) h, h]) h
theorem Keeps.tenseSample {i : Nat} {x : TenseSt} {s : Nat} (h : Keeps d0 d) : Keeps d0 (d.tenseSample i x s) :=
  .ite (h.incU.share fun h => .ite h.setTense.raise h.setTense) h.setTense.incU

theorem Keeps.tenseTake {job step pred : Nat} (h : Keeps d0 d) : Keeps d0 (d.tenseTake job step pred) := by
  dsimp only [Dev.tenseTake]
  split
  · exact h.setTense
  · exact h

theorem Keeps.tenseFree {job : Nat} (h : Keeps d0 d) : Keeps d0 (d.tenseFree job) := by
  dsimp only [Dev.tenseFree]
  split
  · exact h
  · exact .update (.foldl (fun _ _ h => by split; exacts [.ite h.setPulse h, h]) h)

theorem Keeps.tenseMark {job step m : Nat} (h : Keeps d0 d) : Keeps d0 (d.tenseMark job step m) := by
  dsimp only [Dev.tenseMark]
  split
  · exact h
  · split
    · exact h
    · exact .ite h ((Keeps.ite h.tenseSample h.setTense).share fun h => by split; exacts [h, h.setTense.pulsesMarked])

theorem Keeps.tenseBack {job step round : Nat} (h : Keeps d0 d) : Keeps d0 (d.tenseBack job step round) := by
  dsimp only [Dev.tenseBack]
  split
  · exact h
  · split; exacts [h, h.setTense.raise.pulsesBack]

theorem Keeps.tenseReplay {job step round : Nat} (h : Keeps d0 d) : Keeps d0 (d.tenseReplay job step round) := by
  dsimp only [Dev.tenseReplay]
  split
  · exact .ite h h.tenseBack
  · exact h

theorem Keeps.tenseOverrun {i : Nat} (h : Keeps d0 d) : Keeps d0 (d.tenseOverrun i) := by
  dsimp only [Dev.tenseOverrun]
  split
  · exact h.incE.raise
  · exact h

theorem Keeps.captureEdge {c : Nat} {rising : Bool} (h : Keeps d0 d) : Keeps d0 (d.captureEdge c rising) :=
  .ite h.update (h.update.share fun h => .ite h.incE.raise h.incU)
theorem Keeps.captureRead {c : Nat} (h : Keeps d0 d) :
    Keeps d0 (d.captureRead c) :=
  h.update.put.putB.put.put.put.put.put.put.update

/-! ### The functions of Machine/View -/

theorem Keeps.showView (h : Keeps d0 d) : Keeps d0 d.showView := h.put.put.putB
theorem Keeps.settingsAct (h : Keeps d0 d) : Keeps d0 d.settingsAct :=
  .ite (.foldl (fun _ _ h => h.restand) (.foldl (fun _ _ h => h.put) h)) h
theorem Keeps.setJob {j : JobSt} (h : Keeps d0 d) : Keeps d0 (d.setJob j) := h.update

theorem Keeps.onJob {job : Nat} {f : JobSt → JobSt} (h : Keeps d0 d) : Keeps d0 (d.onJob job f) := by
  dsimp only [Dev.onJob]
  split
  · exact h.setJob
  · exact h

theorem Keeps.sendAll {dsts : List Nat} {kind : Nat} {body : List Nat} (h : Keeps d0 d) : Keeps d0 (d.sendAll dsts kind body) :=
  .foldl (fun _ _ h => h.send) h
theorem Keeps.lookup {n : Nat} (h : Keeps d0 d) : Keeps d0 (d.lookup n) := h.incU
theorem Keeps.setFlow {n : Nat} {w : Option (List Nat)} (h : Keeps d0 d) : Keeps d0 (d.setFlow n w) := h.update.put.put

/-! ### The functions of Machine/Clock -/

theorem Keeps.onClock {f : TimeSt → TimeSt} (h : Keeps d0 d) : Keeps d0 (d.onClock f) := h.update
theorem Keeps.setMaster {chip : Nat} (h : Keeps d0 d) : Keeps d0 (d.setMaster chip) := .ite h h.put.raise
theorem Keeps.timeRoles (h : Keeps d0 d) : Keeps d0 d.timeRoles :=
  (h.put.when (·.put)).share fun h => .when (.when (by split; exacts [h.setMaster, h]) (·.put)) (·.put)
theorem Keeps.sendTimeFrame {i : Nat} {body : List Nat} {src : Nat} (h : Keeps d0 d) : Keeps d0 (d.sendTimeFrame i body src) :=
  .ite h h.emit.transmit
theorem Keeps.tablesTake (h : Keeps d0 d) : Keeps d0 d.tablesTake := .foldl (fun _ _ h => .ite h (.ite h.tableTake h.setMon)) h

theorem Keeps.epochPulse (h : Keeps d0 d) : Keeps d0 d.epochPulse := by
  unfold Dev.epochPulse
  extract_lets d1 d2 stepped d3 d4 d5 d6
  have h2 : Keeps d0 d2 := by unfold d2; split; exacts [h.put.put, h.put]
  have h3 : Keeps d0 d3 := by unfold d3; split; exacts [h2.update.incU, h2.update]
  have h6 : Keeps d0 d6 := (h3.onClock.when (·.pulsesStepped)).tablesTake
  exact h6.when (.foldl fun _ _ h => h.sendTimeFrame)

theorem Keeps.epochMissing (h : Keeps d0 d) : Keeps d0 d.epochMissing := h.epochPulse.onClock.put.incE.raise
theorem Keeps.refuseJump (h : Keeps d0 d) : Keeps d0 d.refuseJump := h.incE.raise
theorem Keeps.rackOffset {off : Int} (h : Keeps d0 d) : Keeps d0 (d.rackOffset off) := by
  unfold Dev.rackOffset
  exact h.put.onClock

theorem Keeps.rackTimeFrame {i : Nat} {w : List Nat} (h : Keeps d0 d) : Keeps d0 (d.rackTimeFrame i w) :=
  .unless (.when (.ite (.foldl (fun _ _ h => by split; exacts [h.sendTimeFrame, h]) h) h) (·.onClock)) (fun h =>
      h.rackOffset.share fun h =>
        .ite (.when h (·.refuseJump)) (h.put.share fun h =>
            .ite h.refuseJump (.put (.when (.when (.when (.onClock (.when h (·.onClock.put))) (·.put)) (·.put)) (·.put)))))

theorem Keeps.rackFrameTimeout (h : Keeps d0 d) : Keeps d0 d.rackFrameTimeout := .ite h h.onClock.timeRoles
theorem Keeps.syncTimeout (h : Keeps d0 d) : Keeps d0 d.syncTimeout := .ite h h.onClock.timeRoles
theorem Keeps.ptpHeader {hdr : PtpHdr} {supported : Bool} (h : Keeps d0 d) : Keeps d0 (d.ptpHeader hdr supported).1 :=
  .iteFst h.raise (.iteFst h.incE h)

theorem Keeps.discipline {theta : ℤ} (h : Keeps d0 d) : Keeps d0 (d.discipline theta) :=
  .unless h.put (fun h =>
      .ite (.when h (·.refuseJump))
        (.ite h.refuseJump (h.onClock.share fun h => .ite (h.onClock.share fun h => .ite h.put (.when h (·.put))) h.onClock.put)))

theorem Keeps.sync {i : Nat} {hdr : PtpHdr} {src arrival origin corr : Nat} (h : Keeps d0 d) :
    Keeps d0 (d.sync i hdr src arrival origin corr) := by
  dsimp only [Dev.sync]
  split
  · next e => exact .ofPair e h.ptpHeader
  · next e =>
    have h : Keeps d0 _ := .ofPair e h.ptpHeader
    exact (((h.when (·.onClock.setMaster)).when (·.incU)).foldl (fun _ _ h => h.sendTimeFrame)).unless
      (·.setMaster.put.put.discipline)

theorem Keeps.syncSend (h : Keeps d0 d) : Keeps d0 d.syncSend := .ite (.foldl (fun _ _ h => h.sendTimeFrame.incU) h) h

theorem Keeps.pdelayReq {i : Nat} {hdr : PtpHdr} {turn : Nat} (h : Keeps d0 d) : Keeps d0 (d.pdelayReq i hdr turn) := by
  dsimp only [Dev.pdelayReq]
  split
  · next e => exact Keeps.sendTimeFrame (.ofPair e h.ptpHeader)
  · next e => exact .ofPair e h.ptpHeader

theorem Keeps.pdelayResp {i : Nat} {hdr : PtpHdr} {trip turn : Nat} (h : Keeps d0 d) : Keeps d0 (d.pdelayResp i hdr trip turn) := by
  dsimp only [Dev.pdelayResp]
  split
  · next e => exact Keeps.incU (Keeps.onClock (.ofPair e h.ptpHeader))
  · next e => exact .ofPair e h.ptpHeader

theorem Keeps.announce {hdr : PtpHdr} {src : Nat} (h : Keeps d0 d) : Keeps d0 (d.announce hdr src) := by
  dsimp only [Dev.announce]
  split
  · next e => exact Keeps.unless (.ofPair e h.ptpHeader) (·.setMaster)
  · next e => exact .ofPair e h.ptpHeader

theorem Keeps.holdover (h : Keeps d0 d) : Keeps d0 d.holdover := .ite h (.raise (.put (.ite h.onClock h)))
theorem Keeps.refReturn (h : Keeps d0 d) : Keeps d0 d.refReturn := .when h.put (·.put)
theorem Keeps.agentTimeSend (h : Keeps d0 d) : Keeps d0 d.agentTimeSend := .foldl (fun _ _ h => .ite h.sendDown h) h

/-! ### The functions of Machine/Observe -/

theorem Keeps.snapAll (h : Keeps d0 d) : Keeps d0 d.snapAll := .foldl (fun _ _ h => h.snapPage) h
theorem Keeps.snapTime (h : Keeps d0 d) : Keeps d0 d.snapTime := .ite h.put.snapAll h
theorem Keeps.onEvr {f : Recorder → Recorder} (h : Keeps d0 d) : Keeps d0 (d.onEvr f) := h.update
theorem Keeps.setRecord {code : Nat} {r : EvRecord} (h : Keeps d0 d) : Keeps d0 (d.setRecord code r) := h.onEvr
theorem Keeps.dropEvents {code n : Nat} (h : Keeps d0 d) : Keeps d0 (d.dropEvents code n) := h.setRecord
theorem Keeps.traceDrop (h : Keeps d0 d) : Keeps d0 d.traceDrop := h.incE.raise
theorem Keeps.traceEntry {code : Nat} {p : EvPending} (h : Keeps d0 d) : Keeps d0 (d.traceEntry code p) :=
  .ite h.traceDrop.dropEvents h.hostWrite.put.incU
theorem Keeps.traceUpdate {code : Nat} {p : EvPending} (h : Keeps d0 d) : Keeps d0 (d.traceUpdate code p) :=
  .ite (.when (.when h.dropEvents (·.traceDrop)) (·.incE)) (.when (.when h.onEvr.dropEvents (·.traceEntry)) (·.msix))

theorem Keeps.eventUpdate {ecc : Bool} (h : Keeps d0 d) : Keeps d0 (d.eventUpdate ecc) := by
  dsimp only [Dev.eventUpdate]
  split
  · exact h
  · exact .when (.traceUpdate (.setRecord (.when h.onEvr (·.setRecord.raise)))) (·.stopTrigger)

theorem Keeps.tokenAdd {code : Nat} (h : Keeps d0 d) : Keeps d0 (d.tokenAdd code) := .ite h.onEvr h.onEvr
theorem Keeps.evrHold (h : Keeps d0 d) : Keeps d0 d.evrHold := h.onEvr.put
theorem Keeps.evrRelease (h : Keeps d0 d) : Keeps d0 d.evrRelease := h.onEvr.put
theorem Keeps.evrClear (h : Keeps d0 d) : Keeps d0 d.evrClear := h.setRecord
theorem Keeps.evrAdvance (h : Keeps d0 d) : Keeps d0 d.evrAdvance := .update (.ite h.put h)
theorem Keeps.stopResume (h : Keeps d0 d) : Keeps d0 d.stopResume :=
  .ite h (.foldl (fun _ _ h => .ite h.tableDue h) (.foldl (fun _ _ h => h.partSafe) h.put.put.update))
theorem Keeps.scanSelect {part chain : Nat} (h : Keeps d0 d) : Keeps d0 (d.scanSelect part chain) := h.put.put.put.putB.update
theorem Keeps.scanBits {part chain n : Nat} (h : Keeps d0 d) : Keeps d0 (d.scanBits part chain n).1 := .iteFst h.put h.tick.addU
theorem Keeps.scanRead (h : Keeps d0 d) : Keeps d0 d.scanRead := h.scanBits.update
theorem Keeps.tapIr {code : Nat} (h : Keeps d0 d) : Keeps d0 (d.tapIr code) := h.update
theorem Keeps.kscanSel {v : Nat} (h : Keeps d0 d) : Keeps d0 (d.kscanSel v) := .unless h.tapIr (fun h => .when h.update (·.put))
theorem Keeps.kscanData {n : Nat} (h : Keeps d0 d) : Keeps d0 (d.kscanData n) :=
  .unless h.tapIr (fun h => .ite h.put.emit h.scanBits.update.emit)
theorem Keeps.sendPack {info : ObjInfo} {dsts : List Nat} (h : Keeps d0 d) : Keeps d0 (d.sendPack info dsts) :=
  .foldl (fun _ _ h => h.sendAll) h

theorem Keeps.packPush {scope : Nat} (h : Keeps d0 d) : Keeps d0 (d.packPush scope) := by
  dsimp only [Dev.packPush]
  split
  · exact h
  · exact .ite h h.update.put.put.sendPack

theorem Keeps.packDiscard (h : Keeps d0 d) : Keeps d0 d.packDiscard := h.update.put
theorem Keeps.packArrived {q : PackIn} {bs : List Byte} (h : Keeps d0 d) : Keeps d0 (d.packArrived q bs) :=
  h.update.share fun h => .ite h.send (.when h.stagePack.send (·.packPush))
theorem Keeps.packChunkIn {src chunk total digest : Nat} {data : List Byte} (h : Keeps d0 d) :
    Keeps d0 (d.packChunkIn src chunk total digest data) :=
  .ite h (.when h.update (·.packArrived))

theorem Keeps.packAck {src digest result : Nat} (h : Keeps d0 d) : Keeps d0 (d.packAck src digest result) := by
  dsimp only [Dev.packAck]
  split
  · exact h
  · exact .ite h (.when (.when h.update (·.put)) (·.put))

theorem Keeps.packResend {dst chunk : Nat} (h : Keeps d0 d) : Keeps d0 (d.packResend dst chunk) := by
  dsimp only [Dev.packResend]
  split
  · exact h
  · exact .ite h.send h

/-! ### The functions of Machine/Ageing -/

theorem Keeps.charge {i : Nat} {f : Fld} {e : Nat} (h : Keeps d0 d) : Keeps d0 (d.charge i f e) := .when h.update.addU (·.addU)
theorem Keeps.energy {mw : Nat} {c a g agr stp : Activity} (h : Keeps d0 d) : Keeps d0 (d.energy mw c a g agr stp) :=
  .foldl (fun _ _ h => h.charge) h
theorem Keeps.nrgRead (h : Keeps d0 d) : Keeps d0 d.nrgRead := .update (.foldl (fun _ _ h => h.update) h)
theorem Keeps.settleLimit (h : Keeps d0 d) : Keeps d0 d.settleLimit := h.update

theorem Keeps.limiterWindow {mw avg hold : Nat} {down : List Nat} {rate : Nat} {c a g agr stp : Activity} (h : Keeps d0 d) :
    Keeps d0 (d.limiterWindow mw avg hold down rate c a g agr stp) :=
  (h.put.energy.when (·.update)).share fun h =>
    .settleLimit (.ite (.update (.foldl (fun _ _ h => h.lowerPoint) h))
        (.when h (fun h => .ite h.update (.foldl (fun _ _ h => h.raisePoint) h))))

theorem Keeps.thermalSample {temps : List ℤ} (h : Keeps d0 d) : Keeps d0 (d.thermalSample temps) := by
  dsimp only [Dev.thermalSample]
  split
  · exact h
  · exact (h.update.when (·.update.pin)).share fun h => .ite (.unless h (·.update.raise)) h.update

theorem Keeps.exclude {p i : Nat} (h : Keeps d0 d) : Keeps d0 (d.exclude p i) := .ite h h.setMon.raise
theorem Keeps.monitorSample {p : Nat} {slacks : List ℤ} {edges : List Nat} (h : Keeps d0 d) :
    Keeps d0 (d.monitorSample p slacks edges) :=
  .unless h.setMon (fun h => .foldl (fun _ _ h => .ite h.exclude h) h.setMon)
theorem Keeps.planStart {p : Nat} (h : Keeps d0 d) : Keeps d0 (d.planStart p) := .ite h h.setMon.put
theorem Keeps.planOver {p : Nat} (h : Keeps d0 d) : Keeps d0 (d.planOver p) := h.setMon.put
theorem Keeps.planLate {p : Nat} (h : Keeps d0 d) : Keeps d0 (d.planLate p) := .ite h h.planOver.put.raise

theorem Keeps.planCores {p cl proposed : Nat} {cores : List (Nat × Option Nat)} (h : Keeps d0 d) :
    Keeps d0 (d.planCores p cl proposed cores).1 := by
  dsimp only [Dev.planCores]
  exact (Keeps.ite h.coreFail h).share fun h => by
      split
      · exact h
      · exact .foldl (fun _ _ h => h.setMon) h.coreFail
      · exact .iteFst (by split; exacts [h.coreFail, h]) (.foldl (fun _ _ h => h.setMon) h)

theorem Keeps.planComplete {p : Nat} {r : PlanResult} (h : Keeps d0 d) : Keeps d0 (d.planComplete p r) :=
  .ite h (((h.setMon.foldl (fun _ _ h => .ite h.exclude h)).planCores.planCores.addU.foldl (fun _ _ h => h.raise)).share fun h =>
      .ite h.planOver (by
          split
          · exact .ite h.planOver.put.partOut
                ((h.when (·.incE.raise)).share fun h => .ite h.planOver.raise (.when h.setMon.put.put.planOver.incU (·.raise)))
          · exact h.planOver.put.partOut))

theorem Keeps.yieldCluster {cl : Nat} (h : Keeps d0 d) : Keeps d0 (d.yieldCluster cl) := .foldl (fun _ _ h => h.saveThread) h
theorem Keeps.chunkFails {cl : Nat} {f : ChunkFail} (h : Keeps d0 d) : Keeps d0 (d.chunkFails cl f) :=
  .raise (.incE (.put (by split; exacts [h.coreFail, h.raise, h.raise, h.raise, h.raise])))
theorem Keeps.packClusterDone {cl : Nat} (h : Keeps d0 d) : Keeps d0 (d.packClusterDone cl) := .when h.update (·.put)

theorem Keeps.packChunk {last readOk : Bool} {fail : Option ChunkFail} (h : Keeps d0 d) :
    Keeps d0 (d.packChunk last readOk fail) := by
  unfold Dev.packChunk
  extract_lets _ d1 cl chunk d2 d3 d4 d5 d6
  have h1 : Keeps d0 d1 := h.update
  refine .ite h1.losePack ?_
  have h4 : Keeps d0 d4 := h1.yieldCluster.incU.put.unless (·.put)
  have h5 : Keeps d0 d5 := h4.when (·.put.put)
  have h6 : Keeps d0 d6 := by unfold d6; split; exacts [h5.chunkFails, h4]
  exact .ite h6.packClusterDone h6.update

theorem Keeps.testSlot {x0 : TestChunk} (h : Keeps d0 d) : Keeps d0 (d.testSlot x0) := by
  dsimp only [Dev.testSlot]
  split
  · exact .ite h.packChunk h
  · exact .ite (.when (.when h.yieldCluster.planCores.addU (·.incE.raise)) (·.planOver.put.partOut)) h

theorem Keeps.onProg {job : Nat} {f : ProgSt → ProgSt} (h : Keeps d0 d) : Keeps d0 (d.onProg job f) := by
  dsimp only [Dev.onProg]
  split
  · exact h
  · split; exacts [.ite h.update h, h]

theorem Keeps.progStart {job pred : Nat} (h : Keeps d0 d) : Keeps d0 (d.progStart job pred) := by
  dsimp only [Dev.progStart]
  split
  · exact h
  · exact h.update

theorem Keeps.progCommit {job mark pred : Nat} {standIn : Bool} (h : Keeps d0 d) : Keeps d0 (d.progCommit job mark pred standIn) :=
  h.onProg
theorem Keeps.progReplay {job : Nat} {recover : Bool} (h : Keeps d0 d) : Keeps d0 (d.progReplay job recover) := h.onProg
theorem Keeps.progResume {job : Nat} (h : Keeps d0 d) : Keeps d0 (d.progResume job) := h.onProg
theorem Keeps.progLatch {job gen : Nat} (h : Keeps d0 d) : Keeps d0 (d.progLatch job gen) := h.onProg
theorem Keeps.progLost {job gen steps pred : Nat} (h : Keeps d0 d) : Keeps d0 (d.progLost job gen steps pred) := h.onProg
theorem Keeps.progEnd {job : Nat} (h : Keeps d0 d) : Keeps d0 (d.progEnd job) := h.onProg
theorem Keeps.progDrill {job : Nat} {on : Bool} (h : Keeps d0 d) : Keeps d0 (d.progDrill job on) := h.onProg
theorem Keeps.progRead (h : Keeps d0 d) : Keeps d0 d.progRead := .update (.foldl (fun _ _ h => h.update) h)

/-! ### The functions of Machine/Agent -/

theorem Keeps.agentHeld {a : Nat} (h : Keeps d0 d) : Keeps d0 (d.agentHeld a) := .ite h.onAgent.setStepState h

theorem Keeps.raiseAgent {s : FltSrc} {a : Nat} {forced : Bool} (h : Keeps d0 d) : Keeps d0 (d.raiseAgent s a forced) :=
  .ite h (h.setBitOf.share fun h =>
      .unless (.ite h.setBitOf h.put.put.putB.put.put)
        (fun h => .when (.when h.pin.sendUp.incU (·.agentHeld)) (·.onAgent.writeRecord.pin)))

theorem Keeps.agentRaise {a : Nat} {s : FltSrc} (h : Keeps d0 d) : Keeps d0 (d.agentRaise a s) := h.raiseAgent
theorem Keeps.cutAck {a id status : Nat} (h : Keeps d0 d) : Keeps d0 (d.cutAck a id status) := h.put.put.sendUp
theorem Keeps.installKey {a key step threshold : Nat} (h : Keeps d0 d) : Keeps d0 (d.installKey a key step threshold) :=
  h.onAgent.put.put.put
theorem Keeps.dropKey {a : Nat} (h : Keeps d0 d) : Keeps d0 (d.dropKey a) := h.onAgent.put.put.put
theorem Keeps.staleMsg {a : Nat} (h : Keeps d0 d) : Keeps d0 (d.staleMsg a) := h.incE

theorem Keeps.dropCut {a : Nat} (h : Keeps d0 d) : Keeps d0 (d.dropCut a) := by
  dsimp only [Dev.dropCut]
  split
  · exact h.onAgent.writeRecord.cutAck
  · exact h.onAgent

theorem Keeps.freeSlots {a n : Nat} (h : Keeps d0 d) : Keeps d0 (d.freeSlots a n) := h.pin.pin
theorem Keeps.agentCommit {a job step key threshold : Nat} (h : Keeps d0 d) : Keeps d0 (d.agentCommit a job step key threshold) :=
  .ite h.staleMsg (.ite h (.ite h.staleMsg h.onAgent.installKey.writeRecord.pin))
theorem Keeps.agentReplay {a job step key threshold : Nat} (h : Keeps d0 d) : Keeps d0 (d.agentReplay a job step key threshold) :=
  .ite h.staleMsg (.ite h (.ite h.staleMsg h.installKey.put.setStepState.pin.incU))
theorem Keeps.agentCut {a id step mode : Nat} (h : Keeps d0 d) : Keeps d0 (d.agentCut a id step mode) :=
  .ite h.cutAck (.ite h (.ite h.cutAck h.onAgent.writeRecord.put.put))
theorem Keeps.writeMap {a : Nat} {methods map : List (Nat × Nat)} (h : Keeps d0 d) : Keeps d0 (d.writeMap a methods map) :=
  .foldl (fun _ _ h => by split; exacts [h.emit, h]) h
theorem Keeps.agentJob {a id first key threshold : Nat} {methods map : List (Nat × Nat)} (h : Keeps d0 d) :
    Keeps d0 (d.agentJob a id first key threshold methods map) :=
  .ite h (.when h.onAgent.put.put.installKey.setStepState.writeMap (·.agentRaise))
theorem Keeps.agentEnd {a : Nat} (h : Keeps d0 d) : Keeps d0 (d.agentEnd a) :=
  .ite h (.when (.when h.dropKey.onAgent.setStepState.pin.freeSlots (·.pin)) (·.pin))
theorem Keeps.agentRestore {a step : Nat} (h : Keeps d0 d) : Keeps d0 (d.agentRestore a step) :=
  .ite h h.onAgent.put.setStepState.pin.pin.pin.freeSlots.dropCut
theorem Keeps.agentResume {a id key threshold : Nat} (h : Keeps d0 d) : Keeps d0 (d.agentResume a id key threshold) :=
  .ite (by split; exacts [.ite h.onAgent.setStepState.pin h, h]) (.ite h.onAgent.installKey.put.put.setStepState.pin.pin h)
theorem Keeps.agentResid {a gen : Nat} {add remove : List Nat} (h : Keeps d0 d) : Keeps d0 (d.agentResid a gen add remove) :=
  h.onAgent.put
theorem Keeps.answerPull {a : Nat} {p : PullItem} {last : Bool} (h : Keeps d0 d) : Keeps d0 (d.answerPull a p last) :=
  (Keeps.ite h.agentRaise h).share fun h => .ite h.sendUpAs (.addU (.ite h.sendUpAs (.foldl (fun _ _ h => h.sendUpAs) h)))
theorem Keeps.agentPull {a : Nat} {items : List PullItem} (h : Keeps d0 d) : Keeps d0 (d.agentPull a items) := by
  unfold Dev.agentPull
  exact Keeps.onAgent (.foldl (fun _ _ h => h.answerPull) h)
theorem Keeps.writeShard {a off : Nat} {data : List Nat} {entry : Option ShardEntry} {ok : Bool} (h : Keeps d0 d) :
    Keeps d0 (d.writeShard a off data entry ok) :=
  .ite h.emit h.agentRaise
theorem Keeps.agentShard {a record off : Nat} {data : List Nat} {entry : Option ShardEntry} (h : Keeps d0 d) :
    Keeps d0 (d.agentShard a record off data entry) :=
  .ite (.ite h h.agentRaise) (.when h.writeShard (·.addU))

theorem Keeps.agentXput {a record off : Nat} {last : Bool} {token : Nat} {data : List Nat} {entry : Option ShardEntry}
    (h : Keeps d0 d) : Keeps d0 (d.agentXput a record off last token data entry) := by
  dsimp only [Dev.agentXput]
  refine .ite ?_ h.agentRaise
  split
  · exact h.writeShard.when (·.emit)
  · exact h.writeShard

theorem Keeps.tapTake {a : Nat} {t : TapTile} (h : Keeps d0 d) : Keeps d0 (d.tapTake a t) :=
  .ite h.pin (.ite h.incE.pin
      (h.onAgent.incU.share fun h => .ite (.pin (.addU (.sendUp (.foldl (fun _ _ h => h.sendUp.addU) h.onAgent.incU.addU)))) h.pin))

theorem Keeps.tapDrain {a : Nat} {ts : List TapTile} (h : Keeps d0 d) : Keeps d0 (d.tapDrain a ts) := by
  induction ts generalizing d with
  | nil => exact h.onAgent
  | cons t ts ih => exact .ite h.onAgent (ih h.tapTake)

theorem Keeps.tapAgain {a : Nat} (h : Keeps d0 d) : Keeps d0 (d.tapAgain a) := .ite h h.tapDrain
theorem Keeps.tileTap {a : Nat} {t : TapTile} {ecc : Bool} (h : Keeps d0 d) : Keeps d0 (d.tileTap a t ecc) :=
  .tapDrain (.ite h.agentRaise h)

theorem Keeps.act {a : Nat} {x1 : DownMsg} (h : Keeps d0 d) : Keeps d0 (d.act a x1) := by
  dsimp only [Dev.act]
  split
  · exact h.agentJob
  · exact h.agentEnd
  · exact h.agentCommit
  · exact h.agentReplay
  · exact h.agentCut
  · exact h.agentPull
  · exact h.agentRestore
  · exact h.agentShard
  · exact h.agentResume
  · exact h.agentResid
  · exact h.agentXput

theorem Keeps.takes7 {a : Nat} {hdr : PortHdr} {always : Bool} (h : Keeps d0 d) : Keeps d0 (d.takes7 a hdr always).1 :=
  .iteFst h (.iteFst h.staleMsg (.iteFst h (.iteFst h.onAgent.put (.iteFst h.ackFromAgent h))))

theorem Keeps.accepts7 {a : Nat} {hdr : PortHdr} {always : Bool} (h : Keeps d0 d) : Keeps d0 (d.accepts7 a hdr always).1 := by
  dsimp only [Dev.accepts7]
  split
  · next e => exact Keeps.ackFromAgent (.ofPair e h.takes7)
  · exact h.takes7

theorem Keeps.receiveDown {a : Nat} {hdr : PortHdr} {m : DownMsg} (h : Keeps d0 d) : Keeps d0 (d.receiveDown a hdr m) := by
  have g := h.takes7 (a := a) (hdr := hdr) (always := false) |>.iteFst
    (c := (HeldEv.msg 0 m).isShard 0) (h.accepts7 (a := a) (hdr := hdr) (always := false))
  dsimp only [Dev.receiveDown]
  split
  · next e => exact .ofPair e g
  · next e =>
    have h : Keeps d0 _ := .ofPair e g
    exact .ite h.onAgent (.ite h.act.ackFromAgent.tapAgain h.act.tapAgain)

theorem Keeps.pullMsg {a : Nat} {hdr : PortHdr} {items : List PullItem} (h : Keeps d0 d) :
    Keeps d0 (d.pullMsg a hdr items) :=
  .ite h h.receiveDown
theorem Keeps.stepEndNow {a n stamp : Nat} {ws : List Nat} (h : Keeps d0 d) : Keeps d0 (d.stepEndNow a n stamp ws) :=
  .ite h.agentRaise h.setStepState.sendUp.incU.pin
theorem Keeps.stepEnd {a n : Nat} {ws : List Nat} (h : Keeps d0 d) : Keeps d0 (d.stepEnd a n ws) := .ite h.onAgent h.stepEndNow
theorem Keeps.updateDoneNow {a : Nat} (h : Keeps d0 d) : Keeps d0 (d.updateDoneNow a) :=
  .ite h (.when h.onAgent.put.put.setStepState.pin.pin (·.pin))

theorem Keeps.holdAckNow {a packed : Nat} (h : Keeps d0 d) : Keeps d0 (d.holdAckNow a packed) := by
  dsimp only [Dev.holdAckNow]
  split
  · exact .ite h (.ite h.onAgent.writeRecord.cutAck (.ite h.onAgent.writeRecord.cutAck h.onAgent.writeRecord.pin))
  · exact h

theorem Keeps.copyDoneNow {a : Nat} (h : Keeps d0 d) : Keeps d0 (d.copyDoneNow a) := by
  dsimp only [Dev.copyDoneNow]
  split
  · exact .ite h h.cutAck.onAgent.setStepState.pin
  · exact h

theorem Keeps.signalIn {a sig v : Nat} (h : Keeps d0 d) : Keeps d0 (d.signalIn a sig v) :=
  .ite h.onAgent (.ite h.updateDoneNow (.ite h.holdAckNow h.copyDoneNow))
theorem Keeps.cutAbandon {a : Nat} (h : Keeps d0 d) : Keeps d0 (d.cutAbandon a) :=
  .ite h (h.onAgent.setStepState.pin.share fun h => .agentRaise (by split; exacts [h.cutAck, h]))

theorem Keeps.actHeld {a : Nat} {x1 : HeldEv} (h : Keeps d0 d) : Keeps d0 (d.actHeld a x1) := by
  dsimp only [Dev.actHeld]
  split
  · exact .ite h.act.ackFromAgent h.act
  · exact h.stepEndNow
  · exact h.signalIn

theorem Keeps.actAll {a : Nat} {es : List HeldEv} (h : Keeps d0 d) : Keeps d0 (d.actAll a es) := by
  induction es generalizing d with
  | nil => exact h
  | cons e es ih => exact .ite h.onAgent (ih h.actHeld)

theorem Keeps.leaveHeld {a : Nat} (h : Keeps d0 d) : Keeps d0 (d.leaveHeld a) :=
  .ite h (.tapAgain (.actAll (.when h.onAgent.setStepState (·.pin))))
theorem Keeps.clearAgentFaults {a mask levels : Nat} (h : Keeps d0 d) : Keeps d0 (d.clearAgentFaults a mask levels) :=
  .when h.put (·.put.put.pin.leaveHeld)
theorem Keeps.agentHang {a e : Nat} {busy : Bool} (h : Keeps d0 d) : Keeps d0 (d.agentHang a e busy) :=
  .ite h h.setBitOf.incE.agentRaise
theorem Keeps.portLost {a : Nat} (h : Keeps d0 d) : Keeps d0 (d.portLost a) := h.setAgentPort.agentRaise

theorem Keeps.retransmit {e : PortEnd} {a seq : Nat} (h : Keeps d0 d) : Keeps d0 (d.retransmit e a seq) := by
  dsimp only [Dev.retransmit]
  split
  · exact h
  · exact .ite (by split; exacts [h.raise, h.agentRaise])
        (h.incE.share fun h => by split; exacts [h.setAport.downOut, h.onAgent.emit])

theorem Keeps.ackUp {a seq : Nat} (h : Keeps d0 d) : Keeps d0 (d.ackUp a seq) := h.onAgent.tapAgain
theorem Keeps.agentTimeIn {a stamp latency : Nat} (h : Keeps d0 d) : Keeps d0 (d.agentTimeIn a stamp latency) :=
  h.put.share fun h => .ite h.onAgent.put.put.agentRaise h.onAgent.put.putB
theorem Keeps.cmdStart {a tag : Nat} {ctrs : List Nat} (h : Keeps d0 d) : Keeps d0 (d.cmdStart a tag ctrs) := h.onAgent.put

theorem Keeps.cmdEnd {a tag : Nat} {ctrs : List Nat} (h : Keeps d0 d) : Keeps d0 (d.cmdEnd a tag ctrs) := by
  unfold Dev.cmdEnd
  extract_lets x d1
  have h1 : Keeps d0 d1 := h.when (·.sendUp)
  split
  extract_lets n index start w d2 d3
  exact h1.emit.onAgent.put.put.when (·.incE)

theorem Keeps.aprofLock {a : Nat} {tables : List (List Nat)} (h : Keeps d0 d) : Keeps d0 (d.aprofLock a tables) :=
  .ite h h.onAgent.put.sendDecl

theorem Keeps.agentReset {a : Nat} (h : Keeps d0 d) : Keeps d0 (d.agentReset a) := by
  unfold Dev.agentReset
  extract_lets pages d1 d2 d3 d4
  have h1 : Keeps d0 d1 := .foldl (fun _ _ h => h.resetPage) h
  have h2 : Keeps d0 d2 := .foldl (fun _ _ h => h.put) h1.put
  exact h2.onAgent.resumeRecord.setAgentPort.leaveHeld.when (·.trainPort)

theorem Keeps.agentFence {a : Nat} (h : Keeps d0 d) : Keeps d0 (d.agentFence a) := .put (.ite h.setAgentPort h)

/-! ### The functions of Machine/Jobs -/

theorem Keeps.onAcc {job a : Nat} {f : AccJob → AccJob} (h : Keeps d0 d) : Keeps d0 (d.onAcc job a f) := h.onJob

theorem Keeps.rebase {job a : Nat} (h : Keeps d0 d) : Keeps d0 (d.rebase job a) := by
  dsimp only [Dev.rebase]
  split
  · exact h.onAcc
  · exact h

theorem Keeps.newKey (h : Keeps d0 d) : Keeps d0 (d.newKey).1 := h.tick.tick
theorem Keeps.sendJob {job a step : Nat} {waits : Bool} (h : Keeps d0 d) : Keeps d0 (d.sendJob job a step waits) := by
  dsimp only [Dev.sendJob]
  exact h.rebase.share fun h => by split; exacts [h, by split; exacts [h, .putAdmitted (.sendDown (.iteFst h h.newKey))]]
theorem Keeps.sendCommit {job a step : Nat} (h : Keeps d0 d) : Keeps d0 (d.sendCommit job a step) := h.rebase.newKey.sendDown.put
theorem Keeps.sendReplay {job a step thr : Nat} (h : Keeps d0 d) : Keeps d0 (d.sendReplay job a step thr) :=
  h.rebase.newKey.sendDown.onAcc
theorem Keeps.sendResume {job a step : Nat} (h : Keeps d0 d) : Keeps d0 (d.sendResume job a step) := h.rebase.newKey.sendDown

theorem Keeps.threshold {job a : Nat} (h : Keeps d0 d) : Keeps d0 (d.threshold job a) := by
  unfold Dev.threshold
  split
  · exact h
  · split
    · exact h
    · split
      extract_lets t d1 d2
      have h2 : Keeps d0 d2 := h.onAcc.when (·.incE)
      exact h2.when (·.raise)

theorem Keeps.sendRep {j : JobSt} {status covered : Nat} {seeds : List Nat} {whole : Bool} (h : Keeps d0 d) :
    Keeps d0 (d.sendRep j status covered seeds whole) := by
  dsimp only [Dev.sendRep]
  exact h.onJob.share fun h => by split; exacts [h.send, h]

theorem Keeps.resendRep {j : JobSt} (h : Keeps d0 d) : Keeps d0 (d.resendRep j) := by
  dsimp only [Dev.resendRep]
  split
  · exact h.send
  · exact h

theorem Keeps.sendDec {j : JobSt} {step round decision : Nat} {seeds : List Nat} {whole : Bool} (h : Keeps d0 d) :
    Keeps d0 (d.sendDec j step round decision seeds whole) :=
  h.sendAll

/-! ### The functions of Machine/Stripe -/

theorem Keeps.unitStore {slot r : Nat} {bs : List Nat} (h : Keeps d0 d) : Keeps d0 (d.unitStore slot r bs) :=
  Keeps.incU (h.trans ⟨id, Memory.wf_writeBytes _ _, id, id, List.prefix_refl _, Nat.le_refl _⟩)

/-! ### The functions of Machine/Mirror -/

theorem Keeps.repair (h : Keeps d0 d) : Keeps d0 d.repair := h.update

theorem Keeps.sendVersion {v : Version} (h : Keeps d0 d) : Keeps d0 (d.sendVersion v) := by
  dsimp only [Dev.sendVersion]
  split
  · exact h
  · exact h.send.update.addU

theorem Keeps.sendPin {job step slot : Nat} (h : Keeps d0 d) : Keeps d0 (d.sendPin job step slot) := by
  dsimp only [Dev.sendPin]
  split
  · exact h
  · exact h.send

theorem Keeps.settleSingle (h : Keeps d0 d) : Keeps d0 d.settleSingle := .ite h.put h
theorem Keeps.correlate {on : Bool} (h : Keeps d0 d) : Keeps d0 (d.correlate on) := h.update
theorem Keeps.showHosted (h : Keeps d0 d) : Keeps d0 d.showHosted := h.put
theorem Keeps.showNewest (h : Keeps d0 d) : Keeps d0 d.showNewest := h.put.put
theorem Keeps.newPartner (h : Keeps d0 d) : Keeps d0 d.newPartner := h.update.showNewest

theorem Keeps.pairUp (h : Keeps d0 d) : Keeps d0 d.pairUp := by
  dsimp only [Dev.pairUp]
  split
  · exact h
  · exact h.update.showHosted.share fun h => by
        split
        · exact h.put.put.put.put.newPartner.correlate.raise
        · exact .unless h.put.put.put.put.correlate (fun h =>
                h.newPartner.put.put.share fun h =>
                  .ite h.put (.foldl (fun _ _ h => h.sendVersion)
                      (.foldl (fun _ _ h => h.sendPin) (.foldl (fun _ _ h => h.sendVersion) h.put.raise))))

theorem Keeps.mirrorOut {v : Version} (h : Keeps d0 d) : Keeps d0 (d.mirrorOut v) := h.update.sendVersion
theorem Keeps.pinOwn {job step slot : Nat} (h : Keeps d0 d) : Keeps d0 (d.pinOwn job step slot) := h.update.put.put.put.sendPin
theorem Keeps.dropPinsTo {job slot step : Nat} (h : Keeps d0 d) : Keeps d0 (d.dropPinsTo job slot step) :=
  .when h.update (·.put.put.put)
theorem Keeps.dropPins {job slot : Nat} (h : Keeps d0 d) : Keeps d0 (d.dropPins job slot) := h.dropPinsTo
theorem Keeps.pinTry {p : Nat × Nat × Nat × Nat} (h : Keeps d0 d) : Keeps d0 (d.pinTry p) := by
  dsimp only [Dev.pinTry]
  split <;> exact .ite h h.update.send
theorem Keeps.mirrorIn {v : Version} (h : Keeps d0 d) : Keeps d0 (d.mirrorIn v) :=
  .ite h (.foldl (fun _ _ h => h.pinTry) h.update.showHosted.addU.send)

theorem Keeps.mirrorAck {job step a : Nat} (h : Keeps d0 d) : Keeps d0 (d.mirrorAck job step a) := by
  dsimp only [Dev.mirrorAck]
  split
  · exact h.update.showNewest.incU.settleSingle
  · exact h

theorem Keeps.mirrorLost {job step a : Nat} (h : Keeps d0 d) : Keeps d0 (d.mirrorLost job step a) := by
  dsimp only [Dev.mirrorLost]
  split
  · exact h.incE.raise.sendVersion
  · exact h

theorem Keeps.pinIn {job step slot src : Nat} (h : Keeps d0 d) : Keeps d0 (d.pinIn job step slot src) := by
  unfold Dev.pinIn
  exact h.update.pinTry
theorem Keeps.commitRec {n amax : Nat} (h : Keeps d0 d) : Keeps d0 (d.commitRec n amax) := by
  unfold Dev.commitRec
  exact h.setFlow
theorem Keeps.commitHist {j : JobSt} {a : Nat} {x : AccJob} {m : MarkInfo} (h : Keeps d0 d) : Keeps d0 (d.commitHist j a x m) :=
  .foldl (fun _ _ h => .ite h h.commitRec) h

/-! ### The functions of Machine/Snapshot -/

theorem Keeps.cadence {job : Nat} (h : Keeps d0 d) : Keeps d0 (d.cadence job) := by
  dsimp only [Dev.cadence]
  split
  · exact h
  · exact .when h.put.setJob (·.raise)

theorem Keeps.onCut {job : Nat} {f : CutSt → CutSt} (h : Keeps d0 d) : Keeps d0 (d.onCut job f) := h.onJob
theorem Keeps.resumeCut {a step : Nat} (h : Keeps d0 d) : Keeps d0 (d.resumeCut a step) := h.sendDown

theorem Keeps.discardGen {job gen : Nat} (h : Keeps d0 d) : Keeps d0 (d.discardGen job gen) := by
  dsimp only [Dev.discardGen]
  split
  · exact h
  · exact .ite h (.raise (.incE (.foldl (fun _ _ h => h.dropPins) (.onJob (.foldl (fun _ _ h => h.resumeCut) h)))))

theorem Keeps.genForward {j : JobSt} {step gen code : Nat} (h : Keeps d0 d) : Keeps d0 (d.genForward j step gen code) :=
  .when h.sendAll (·.send)

theorem Keeps.genCommit {job step gen : Nat} (h : Keeps d0 d) : Keeps d0 (d.genCommit job step gen) := by
  dsimp only [Dev.genCommit]
  split
  · exact h
  · exact .ite h (.progLatch (.addU (.incU (.when h.genForward.onJob (·.update)))))

theorem Keeps.genAbort {job step gen : Nat} (h : Keeps d0 d) : Keeps d0 (d.genAbort job step gen) := by
  dsimp only [Dev.genAbort]
  split
  · exact h
  · exact .ite h h.genForward.discardGen

theorem Keeps.cutReport {j : JobSt} {c : CutSt} {code count : Nat} (h : Keeps d0 d) : Keeps d0 (d.cutReport j c code count) :=
  h.onCut.share fun h => .ite (.ite h.onJob h.onJob.genAbort) (by split; exacts [h.send, h])

theorem Keeps.cutCheck {job : Nat} (h : Keeps d0 d) : Keeps d0 (d.cutCheck job) := by
  dsimp only [Dev.cutCheck]
  split
  · exact h
  · exact .ite h h.cutReport

theorem Keeps.sendCuts {job : Nat} (h : Keeps d0 d) : Keeps d0 (d.sendCuts job) := by
  dsimp only [Dev.sendCuts]
  split
  · exact h
  · exact .ite h (.foldl (fun _ _ h => h.sendDown) h.onCut)

theorem Keeps.cutRefuse {j : JobSt} {step gen : Nat} (h : Keeps d0 d) : Keeps d0 (d.cutRefuse j step gen) := by
  dsimp only [Dev.cutRefuse]
  exact h.raise.share fun h => by split; exacts [h.send, h]

theorem Keeps.cutBegin {job step gen : Nat} {copy : Bool} (h : Keeps d0 d) : Keeps d0 (d.cutBegin job step gen copy) := by
  dsimp only [Dev.cutBegin]
  split
  · exact h
  · exact .ite h (.ite h.cutRefuse h.dropPins.setJob.incU.sendAll.sendCuts)

theorem Keeps.cutDue {job step : Nat} (h : Keeps d0 d) : Keeps d0 (d.cutDue job step) := by
  dsimp only [Dev.cutDue]
  split
  · exact h
  · exact .ite h (.ite (.ite h h.incE.setJob) h.cutBegin)

theorem Keeps.cutWait {job : Nat} (h : Keeps d0 d) : Keeps d0 (d.cutWait job) := by
  dsimp only [Dev.cutWait]
  split
  · exact .ite h h.cutReport
  · exact h

theorem Keeps.genRep {job step gen code rack : Nat} (h : Keeps d0 d) : Keeps d0 (d.genRep job step gen code rack) := by
  dsimp only [Dev.genRep]
  split
  · exact h
  · exact .ite h.genAbort (h.onCut.share fun h => by split; exacts [.when h (·.genCommit), h])

theorem Keeps.sendGenRep {j : JobSt} {step gen code : Nat} (h : Keeps d0 d) : Keeps d0 (d.sendGenRep j step gen code) := by
  dsimp only [Dev.sendGenRep]
  split
  · exact .ite h.genRep h.send
  · exact h

theorem Keeps.sealGen {job : Nat} (h : Keeps d0 d) : Keeps d0 (d.sealGen job) := by
  dsimp only [Dev.sealGen]
  split
  · exact h
  · exact h.onCut.onJob.update

theorem Keeps.extentIn {job gen home : Nat} {failed : Bool} {tables : List Nat} (h : Keeps d0 d) :
    Keeps d0 (d.extentIn job gen home failed tables) := by
  dsimp only [Dev.extentIn]
  split
  · exact h
  · exact .ite h (.ite h.sendGenRep (h.onCut.share fun h => by split; exacts [.when h (·.sealGen), h]))

theorem Keeps.extentReport {j : JobSt} {c : CutSt} {failed : Bool} (h : Keeps d0 d) : Keeps d0 (d.extentReport j c failed) := by
  dsimp only [Dev.extentReport]
  exact .ite h (h.onCut.share fun h => by split; exacts [.ite h.extentIn h.send, h])
theorem Keeps.suspectsPoints {accs : List Nat} (h : Keeps d0 d) : Keeps d0 (d.suspectsPoints accs) :=
  .foldl (fun _ _ h => .ite h.points h) h

theorem Keeps.extentCheck {job : Nat} (h : Keeps d0 d) : Keeps d0 (d.extentCheck job) := by
  dsimp only [Dev.extentCheck]
  split
  · exact h
  · exact .ite h (.ite (.extentReport (.raise (.foldl (fun _ _ h => h.suspectsPoints) h))) (.ite h.extentReport h))

theorem Keeps.sendUnit {j : JobSt} {c : CutSt} {row role k : Nat} {bs : List Nat} (h : Keeps d0 d) :
    Keeps d0 (d.sendUnit j c row role k bs) :=
  .ite h (.ite (.ite h.onCut h.unitStore) h.send.incU.onCut)
theorem Keeps.sendRow {j : JobSt} {c : CutSt} {row : Nat} {ds : List (Nat × List Nat)} (h : Keeps d0 d) :
    Keeps d0 (d.sendRow j c row ds) :=
  .sendUnit (.sendUnit (.foldl (fun _ _ h => h.sendUnit) h))

theorem Keeps.writeExtent {job : Nat} (h : Keeps d0 d) : Keeps d0 (d.writeExtent job) := by
  dsimp only [Dev.writeExtent]
  split
  · exact h
  · refine .ite h ?_
    split
    · exact .when h.onCut (·.sealGen)
    · exact h.onCut.share fun h => .ite h.extentReport (.extentCheck (.foldl (fun _ _ h => h.sendRow) h))

theorem Keeps.pullsCheck {job : Nat} (h : Keeps d0 d) : Keeps d0 (d.pullsCheck job) := by
  dsimp only [Dev.pullsCheck]
  split
  · exact .ite h.writeExtent h
  · exact h

theorem Keeps.pullsOf {job a : Nat} (h : Keeps d0 d) : Keeps d0 (d.pullsOf job a) := by
  dsimp only [Dev.pullsOf]
  split
  · exact h
  · exact .ite h (.pullsCheck (.ite h.resumeCut h))

theorem Keeps.startPulls {job a : Nat} (h : Keeps d0 d) : Keeps d0 (d.startPulls job a) := by
  dsimp only [Dev.startPulls]
  split
  · exact h
  · split; exacts [h, .ite h (.pullsOf (.foldl (fun _ _ h => h.sendDown) h.onCut))]

theorem Keeps.cutAckIn {job a id status : Nat} (h : Keeps d0 d) : Keeps d0 (d.cutAckIn job a id status) := by
  dsimp only [Dev.cutAckIn]
  split
  · exact h
  · exact .ite h (h.onAcc.share fun h => .ite (.when h (·.extentReport)) (.ite h.cutCheck.startPulls h.cutCheck))

theorem Keeps.cutShard {job a n off : Nat} {data : List Nat} (h : Keeps d0 d) : Keeps d0 (d.cutShard job a n off data) := by
  dsimp only [Dev.cutShard]
  split
  · exact h
  · exact .ite h (.when h.onCut (·.pullsOf))

theorem Keeps.cutDigest {job n acc digest : Nat} (h : Keeps d0 d) : Keeps d0 (d.cutDigest job n acc digest) := h.onCut.extentCheck

theorem Keeps.digestOut {j : JobSt} {c : CutSt} {n acc digest : Nat} (h : Keeps d0 d) :
    Keeps d0 (d.digestOut j c n acc digest) := by
  dsimp only [Dev.digestOut]
  split
  · exact .ite h.cutDigest h.send
  · exact h

theorem Keeps.digestIn {job a n : Nat} {digest : Option Nat} (h : Keeps d0 d) : Keeps d0 (d.digestIn job a n digest) := by
  dsimp only [Dev.digestIn]
  split
  · exact h
  · exact .ite h (h.onCut.share fun h => .pullsOf (by split; exacts [h.digestOut, h]))

theorem Keeps.stripeStore {src job gen slot role k row : Nat} {bs : List Nat} (h : Keeps d0 d) :
    Keeps d0 (d.stripeStore src job gen slot role k row bs) := by
  dsimp only [Dev.stripeStore]
  split
  · exact h.send
  · exact .ite h.send (.send (.unitStore (.ite h h.dropPinsTo.setJob)))

theorem Keeps.stripeAckIn {job gen role k row result : Nat} (h : Keeps d0 d) :
    Keeps d0 (d.stripeAckIn job gen role k row result) := by
  dsimp only [Dev.stripeAckIn]
  split
  · exact h
  · exact .ite h (.ite h.extentReport h.onCut.extentCheck)

theorem Keeps.pinAck {job step slot : Nat} (h : Keeps d0 d) : Keeps d0 (d.pinAck job step slot) := by
  dsimp only [Dev.pinAck]
  exact (Keeps.ite h.put.settleSingle h).share fun h => by split; exacts [.when h (·.onCut.extentCheck), h]
theorem Keeps.positionLost {chip : Nat} (h : Keeps d0 d) : Keeps d0 (d.positionLost chip) :=
  .unless h.update (fun h => .foldl (fun _ _ h => by split; exacts [h, .ite h.raise.extentReport h.onCut.extentCheck]) h)

theorem Keeps.sealed {crec : List Nat} {rack : Nat} (h : Keeps d0 d) : Keeps d0 (d.sealed crec rack) := by
  dsimp only [Dev.sealed]
  split
  · exact h
  · exact .when (.when h.setJob (·.raise)) (·.sendGenRep)

theorem Keeps.unsealed {crec : List Nat} (h : Keeps d0 d) : Keeps d0 (d.unsealed crec) := by
  dsimp only [Dev.unsealed]
  split
  · exact h.sendGenRep.discardGen
  · exact h

theorem Keeps.cutCommit {job step : Nat} (h : Keeps d0 d) : Keeps d0 (d.cutCommit job step) := by
  dsimp only [Dev.cutCommit]
  split
  · exact h
  · exact .ite h h.onCut.pinOwn

/-! ### The functions of Machine/Restore -/

theorem Keeps.setStand {s : Nat} {x : StandSt} (h : Keeps d0 d) : Keeps d0 (d.setStand s x) := h.update

theorem Keeps.standWrite {x : StandSt} {n : Nat} {bs : List Nat} (h : Keeps d0 d) : Keeps d0 (d.standWrite x n bs) := by
  dsimp only [Dev.standWrite]
  split
  · exact h.ctxWrites
  · exact h

theorem Keeps.standSubmit {x : StandSt} {list count : Nat} (h : Keeps d0 d) : Keeps d0 (d.standSubmit x list count) := by
  dsimp only [Dev.standSubmit]
  split
  · exact h.startThread
  · exact h

theorem Keeps.standStep {s step : Nat} (h : Keeps d0 d) : Keeps d0 (d.standStep s step) := h.setStand.ctxWrites.standSubmit
theorem Keeps.standAgain {s : Nat} (h : Keeps d0 d) : Keeps d0 (d.standAgain s) :=
  .ite (.ite h h.standStep) h
theorem Keeps.standAbort {s : Nat} (h : Keeps d0 d) : Keeps d0 (d.standAbort s) := h.endCommands
theorem Keeps.standEnd {s : Nat} (h : Keeps d0 d) : Keeps d0 (d.standEnd s) := .setStand (.ite h.ctxDestroy h)
theorem Keeps.onRest {job : Nat} {f : RestSt → RestSt} (h : Keeps d0 d) : Keeps d0 (d.onRest job f) := h.onJob
theorem Keeps.restUnit {job rack row k : Nat} {bs : List Nat} (h : Keeps d0 d) : Keeps d0 (d.restUnit job rack row k bs) := h.onRest
theorem Keeps.deliver {j : JobSt} {g : GenSt} {s row k : Nat} {bs : List Nat} (h : Keeps d0 d) :
    Keeps d0 (d.deliver j g s row k bs) :=
  .foldl (fun _ _ h => .ite h.restUnit h.send.incU) h

theorem Keeps.rebuildRow {job row : Nat} (h : Keeps d0 d) : Keeps d0 (d.rebuildRow job row) := by
  dsimp only [Dev.rebuildRow]
  split
  · exact h
  · split
    · exact h
    · exact .ite h (by split; exacts [.foldl (fun _ _ h => h.deliver.incU) h, h.onRest])

theorem Keeps.restSurvivor {job row slot : Nat} {bs : List Nat} (h : Keeps d0 d) : Keeps d0 (d.restSurvivor job row slot bs) :=
  h.onRest.rebuildRow

theorem Keeps.toRebuilder {j : JobSt} {g : GenSt} {s row : Nat} {u : Nat × Nat} {bs : List Nat} (h : Keeps d0 d) :
    Keeps d0 (d.toRebuilder j g s row u bs) := by
  dsimp only [Dev.toRebuilder]
  split
  · exact h
  · exact .ite h.restSurvivor h.send.incU

theorem Keeps.badUnit {j : JobSt} {g : GenSt} {s row : Nat} {u : Nat × Nat} (h : Keeps d0 d) : Keeps d0 (d.badUnit j g s row u) :=
  h.onRest.send

theorem Keeps.readRow {job s row : Nat} {bad : Bool} (h : Keeps d0 d) : Keeps d0 (d.readRow job s row bad) := by
  dsimp only [Dev.readRow]
  split
  · exact h
  · exact .ite h (by split; exacts [h.badUnit, .when (.ite h.deliver h) (·.toRebuilder)])

theorem Keeps.unitLost {job row slot : Nat} (h : Keeps d0 d) : Keeps d0 (d.unitLost job row slot) := by
  dsimp only [Dev.unitLost]
  split
  · exact h
  · exact h.onRest.share fun h => by split; exacts [.ite h.onRest (.when h (fun h => by split; exacts [h.toRebuilder, h])), h]

theorem Keeps.restReport {j : JobSt} (h : Keeps d0 d) : Keeps d0 (d.restReport j) := by
  dsimp only [Dev.restReport]
  exact .ite h (h.onRest.share fun h => by split; exacts [h.send, h])
theorem Keeps.shardOut {job a n : Nat} {bs : List Nat} (h : Keeps d0 d) : Keeps d0 (d.shardOut job a n bs) :=
  .foldl (fun _ _ h => h.sendDown.onRest) h

theorem Keeps.restApplyRec {j : JobSt} {r : RecDesc} {ent : List Nat} {x : Option (List Nat)} (h : Keeps d0 d) :
    Keeps d0 (d.restApplyRec j r ent x) := by
  dsimp only [Dev.restApplyRec]
  exact h.setFlow.share fun h =>
      by split; exacts [h, .foldl (fun _ _ h => .ite (by split; exacts [h.standWrite, h]) h.shardOut) (.unless h (·.raise.onRest))]

theorem Keeps.restCheck {job : Nat} (h : Keeps d0 d) : Keeps d0 (d.restCheck job) := by
  unfold Dev.restCheck
  split
  · exact h
  · refine .ite h (.ite h.restReport ?_)
    extract_lets rs got d1
    refine .ite h ?_
    have h1 : Keeps d0 d1 := .foldl (fun _ _ h => by split; exacts [h.restApplyRec, h]) h
    split
    · exact h1.onRest.restReport
    · exact h1.onRest

theorem Keeps.pinsOut {j : JobSt} {m : Nat} (h : Keeps d0 d) : Keeps d0 (d.pinsOut j m) :=
  .foldl (fun _ _ h => by split; exacts [.ite h h.send, h]) h
theorem Keeps.handoversOver {job : Nat} (h : Keeps d0 d) :
    Keeps d0 (d.handoversOver job) :=
  .foldl (fun _ _ h => .ite h.standEnd h) h

theorem Keeps.restBegin {job step : Nat} {bad : List Nat} (h : Keeps d0 d) : Keeps d0 (d.restBegin job step bad) := by
  unfold Dev.restBegin
  split
  · exact h
  · extract_lets body d1 d2 d3 s _ d4 d5 d6 d7 d8
    have h2 : Keeps d0 d2 := h.sendAll.when (·.send)
    have h3 : Keeps d0 d3 := by unfold d3; split; exacts [h2.discardGen, h2]
    have h6 : Keeps d0 d6 := .foldl (fun _ _ h => h.sendDown) h3.onJob.handoversOver
    have h7 : Keeps d0 d7 := .foldl (fun _ _ h => by split; exacts [h.standAbort.setStand, h]) h6
    have h8 : Keeps d0 d8 := by unfold d8; split; exacts [.foldl (fun _ _ h => h.readRow) h7.pinsOut, h7]
    exact h8.restCheck

theorem Keeps.restStart {job : Nat} (h : Keeps d0 d) : Keeps d0 (d.restStart job) := by
  dsimp only [Dev.restStart]
  split
  · exact h
  · split; exacts [h.setJob.raise, h.tick.setJob.restBegin]

theorem Keeps.shardAcked {a seq : Nat} (h : Keeps d0 d) : Keeps d0 (d.shardAcked a seq) := by
  dsimp only [Dev.shardAcked]
  split
  · exact h
  · exact .ite h.onRest.restCheck h

theorem Keeps.restEnd {job step : Nat} (h : Keeps d0 d) : Keeps d0 (d.restEnd job step) := by
  dsimp only [Dev.restEnd]
  split
  · exact h
  · refine .ite h ?_
    exact .when (.foldl (fun _ _ h => by split; exacts [h.standStep, h]) (.foldl (fun _ _ h => h.sendResume) (.onJob
              (.tenseBack (.showNewest (.showHosted (.update (.foldl (fun _ _ h => h.discardGen) (.when h.sendAll (·.send))))))))))
        (·.progLost.progResume)

theorem Keeps.restDecide {job : Nat} (h : Keeps d0 d) : Keeps d0 (d.restDecide job) := by
  dsimp only [Dev.restDecide]
  split
  · exact h
  · exact .ite h (.ite h.onRest.restStart h.restEnd)

theorem Keeps.restDone {job step src code count : Nat} (h : Keeps d0 d) : Keeps d0 (d.restDone job step src code count) := by
  dsimp only [Dev.restDone]
  split
  · exact h
  · exact .ite h h.onRest.restCheck.restDecide

/-! ### The functions of Machine/Appo -/

theorem Keeps.declSet {table : List Nat} (h : Keeps d0 d) : Keeps d0 (d.declSet table) :=
  .ite h (by split; exacts [h.update.setBitOf, h])

theorem Keeps.putDecl {a n : Nat} {w : Option (Nat × Nat)} (h : Keeps d0 d) : Keeps d0 (d.putDecl a n w) := by
  unfold Dev.putDecl
  extract_lets x mode d1
  have h1 : Keeps d0 d1 := h.update
  split
  · exact h1.setProfile
  · exact h1.update

theorem Keeps.checkDecls {a : Nat} (h : Keeps d0 d) : Keeps d0 (d.checkDecls a) :=
  .ite h (.raise (.ite h (.foldl (fun _ _ h => h.putDecl) h)))
theorem Keeps.installDecls {a : Nat} (h : Keeps d0 d) : Keeps d0 (d.installDecls a) :=
  .foldl (fun _ _ h => h.putDecl) (.foldl (fun _ _ h => h.putDecl) (.foldl (fun _ _ h => h.declSet) h))
theorem Keeps.readyDecls {a : Nat} (h : Keeps d0 d) : Keeps d0 (d.readyDecls a) := .ite h h.installDecls
theorem Keeps.adoptDown {j : JobSt} {b phase : Nat} {pairs : List (Nat × Nat)} (h : Keeps d0 d) :
    Keeps d0 (d.adoptDown j b phase pairs) :=
  h.sendAll
theorem Keeps.prepareHere {job root : Nat} {p : Nat × Nat} (h : Keeps d0 d) : Keeps d0 (d.prepareHere job root p) :=
  .ite h h.put.put.put.put.put.update.raise

theorem Keeps.adoptPrepare {job : Nat} {pairs : List (Nat × Nat)} (h : Keeps d0 d) : Keeps d0 (d.adoptPrepare job pairs) := by
  dsimp only [Dev.adoptPrepare]
  split
  · exact h
  · exact .ite h (.foldl (fun _ _ h => h.prepareHere) h.setJob.adoptDown)

theorem Keeps.tryAdopt {job : Nat} (h : Keeps d0 d) : Keeps d0 (d.tryAdopt job) := by
  dsimp only [Dev.tryAdopt]
  split
  · exact h
  · exact .unless (.ite h.raise h) (·.adoptPrepare)

theorem Keeps.tryRestart {job : Nat} (h : Keeps d0 d) : Keeps d0 (d.tryRestart job) := by
  dsimp only [Dev.tryRestart]
  split
  · exact .ite h.restStart h
  · exact h

theorem Keeps.rootLoss {job : Nat} {idxs : List Nat} (h : Keeps d0 d) : Keeps d0 (d.rootLoss job idxs) := h.onJob.tryAdopt
theorem Keeps.reflow {j : JobSt} {r : RecDesc} (h : Keeps d0 d) : Keeps d0 (d.reflow j r) := by
  dsimp only [Dev.reflow]
  exact .ite (.ite h.setFlow h) (by split <;> exact h.setFlow)

theorem Keeps.cutLeaves {job a idx b : Nat} (h : Keeps d0 d) : Keeps d0 (d.cutLeaves job a idx b) := by
  dsimp only [Dev.cutLeaves]
  split
  · exact h
  · exact .ite h h.onCut.cutCheck

theorem Keeps.standLeaves {job idx old spare b : Nat} (h : Keeps d0 d) : Keeps d0 (d.standLeaves job idx old spare b) :=
  .ite h (by split; exacts [.unless h.setStand.cutLeaves (·.send), h])
theorem Keeps.takeStart {job a b : Nat} {waits : Bool} (h : Keeps d0 d) : Keeps d0 (d.takeStart job a b waits) := h.sendJob.sendDown
theorem Keeps.takeUp {job idx old spare b : Nat} {waits : Bool} (h : Keeps d0 d) : Keeps d0 (d.takeUp job idx old spare b waits) :=
  .ite h (by split; exacts [h, .when h.setJob.put.incU (·.takeStart)])

theorem Keeps.rewriteIdx {job idx spare b : Nat} {waits : Bool} (h : Keeps d0 d) :
    Keeps d0 (d.rewriteIdx job idx spare b waits) := by
  dsimp only [Dev.rewriteIdx]
  split
  · exact h
  · exact ((h.setJob.when (·.update)).update.unless (·.standLeaves)).share fun h =>
        .repair (.takeUp (by split; exacts [.foldl (fun _ _ h => h.reflow) h, h]))

theorem Keeps.adoptDue {job : Nat} {step : Option Nat} (h : Keeps d0 d) : Keeps d0 (d.adoptDue job step) := by
  dsimp only [Dev.adoptDue]
  split
  · exact h
  · exact .foldl (fun _ _ h => h.rewriteIdx) h

theorem Keeps.stepSeen {job step : Nat} (h : Keeps d0 d) : Keeps d0 (d.stepSeen job step) := by
  dsimp only [Dev.stepSeen]
  split
  · exact .ite h.adoptDue h
  · exact h

theorem Keeps.standJob {job old : Nat} (h : Keeps d0 d) : Keeps d0 (d.standJob job old) := by
  dsimp only [Dev.standJob]
  split
  · exact h
  · split
    · exact h.setJob.stepSeen
    · split; exacts [h.takeStart, h]

theorem Keeps.drillBack {job : Nat} {pairs : List (Nat × Nat)} (h : Keeps d0 d) :
    Keeps d0 (d.drillBack job pairs) :=
  .ite h.update h

theorem Keeps.adoptCommit {job b : Nat} {pairs : List (Nat × Nat)} (h : Keeps d0 d) : Keeps d0 (d.adoptCommit job b pairs) := by
  dsimp only [Dev.adoptCommit]
  split
  · exact h
  · exact .ite h h.setJob.adoptDown.drillBack.adoptDue

theorem Keeps.adoptCancel {job : Nat} {pairs : List (Nat × Nat)} (h : Keeps d0 d) : Keeps d0 (d.adoptCancel job pairs) := by
  dsimp only [Dev.adoptCancel]
  split
  · exact h
  · exact .ite h (.foldl (fun _ _ h => .when h.update (fun h => .when h.update (·.put))) h.setJob.adoptDown)

theorem Keeps.adoptReady {job : Nat} (h : Keeps d0 d) : Keeps d0 (d.adoptReady job) := by
  dsimp only [Dev.adoptReady]
  split
  · exact h
  · exact .unless (.ite h h.adoptCommit) (fun h => .unless h (·.adoptCommit))

theorem Keeps.sendAdoptAck {j : JobSt} {index status : Nat} (h : Keeps d0 d) : Keeps d0 (d.sendAdoptAck j index status) := by
  dsimp only [Dev.sendAdoptAck]
  split
  · exact .ite h.update h.send
  · exact h

theorem Keeps.appoRefuse {s reason : Nat} {j : JobSt} {index : Nat} (h : Keeps d0 d) : Keeps d0 (d.appoRefuse s reason j index) :=
  h.setStand.incE.raise.sendAdoptAck
theorem Keeps.standContext {c : Nat} {hdr : ProgHdr} {bs : List Nat} (h : Keeps d0 d) : Keeps d0 (d.standContext c hdr bs) :=
  h.setCtx.ctxWrites
theorem Keeps.standLoad {s : Nat} {dma : Dma} (h : Keeps d0 d) : Keeps d0 (d.standLoad s dma) := by
  dsimp only [Dev.standLoad]
  exact h.dmaRead.share fun h => by split; exacts [by split; exacts [h.standContext.setStand.setJob.sendAdoptAck, h.appoRefuse], h]
theorem Keeps.appoLoad {dma : Dma} (h : Keeps d0 d) : Keeps d0 (d.appoLoad dma) := by
  dsimp only [Dev.appoLoad]
  exact h.put.share fun h => by split; exacts [h, h.standLoad]

theorem Keeps.appoRequest {job idx a named : Nat} {drill : Bool} (h : Keeps d0 d) :
    Keeps d0 (d.appoRequest job idx a named drill) := by
  dsimp only [Dev.appoRequest]
  split
  · exact h
  · exact .ite h.setStand (.ite h.appoRefuse (.ite h.appoRefuse (.when h.setStand.raise (·.tick.standLoad))))

theorem Keeps.xput {a n off : Nat} {last : Bool} {token : Nat} {bs : List Nat} (h : Keeps d0 d) :
    Keeps d0 (d.xput a n off last token bs) :=
  h.sendDown

theorem Keeps.relayIn {job n off : Nat} {token : Option Nat} {bs : List Nat} (h : Keeps d0 d) :
    Keeps d0 (d.relayIn job n off token bs) := by
  unfold Dev.relayIn
  split
  · exact h
  · split
    · exact h
    · extract_lets last d1
      have h1 : Keeps d0 d1 :=
        .foldl (fun _ _ h => .ite h (by split; exacts [h.ctxWrites.when (·.semaphore), h])) h
      split
      · exact .foldl (fun _ _ h => h.xput) h1
      · exact h1

theorem Keeps.relayOut {job n off : Nat} {token : Option Nat} {bs chips : List Nat} (h : Keeps d0 d) :
    Keeps d0 (d.relayOut job n off token bs chips) :=
  .when h.addU.sendAll (·.relayIn)

theorem Keeps.relaySignal {c sem : Nat} (h : Keeps d0 d) : Keeps d0 (d.relaySignal c sem) := by
  dsimp only [Dev.relaySignal]
  split
  · exact h
  · split
    · exact h
    · exact .foldl (fun _ _ h => by split; exacts [h, .foldl (fun _ _ h => h.relayOut) h]) h

theorem Keeps.exchangeReady {a n : Nat} (h : Keeps d0 d) : Keeps d0 (d.exchangeReady a n) := by
  dsimp only [Dev.exchangeReady]
  split
  · exact .ite h.sendDown h
  · exact h

theorem Keeps.takeShards {job a n : Nat} {bs : List Nat} (h : Keeps d0 d) : Keeps d0 (d.takeShards job a n bs) :=
  .foldl (fun _ _ h => h.sendDown.onJob) h

theorem Keeps.askLeader {change : Nat} (h : Keeps d0 d) : Keeps d0 (d.askLeader change) := by
  dsimp only [Dev.askLeader]
  split
  · exact .ite (.ite h h.update) h.send
  · exact h

theorem Keeps.standOver {job a : Nat} (h : Keeps d0 d) : Keeps d0 (d.standOver job a) := by
  dsimp only [Dev.standOver]
  split
  · exact h.standEnd
  · exact h

theorem Keeps.takeDone {job a : Nat} (h : Keeps d0 d) : Keeps d0 (d.takeDone job a) := by
  dsimp only [Dev.takeDone]
  split
  · exact h
  · split
    · exact h
    · exact .ite h (h.setJob.sendResume.share fun h => .when (.ite h.standOver h.send) (·.askLeader))

theorem Keeps.handoverIn {job src acc nFlow itemBytes : Nat} {words : List Nat} {digestOk : Bool} (h : Keeps d0 d) :
    Keeps d0 (d.handoverIn job src acc nFlow itemBytes words digestOk) := by
  dsimp only [Dev.handoverIn]
  split
  · exact h
  · split
    · exact h
    · exact .ite h.raise.sendAdoptAck
          (.unless (.onJob (.foldl (fun _ _ h => h.takeShards) (.foldl (fun _ _ h => h.setFlow) h))) (·.takeDone))

theorem Keeps.takeAcked {a seq : Nat} (h : Keeps d0 d) : Keeps d0 (d.takeAcked a seq) := by
  dsimp only [Dev.takeAcked]
  split
  · exact h
  · split; exacts [h, .ite h.setJob.takeDone h]

theorem Keeps.handover {s : Nat} (h : Keeps d0 d) : Keeps d0 (d.handover s) := .foldl (fun _ _ h => .ite h.handoverIn h.send) h
theorem Keeps.drillResult {result reason step : Nat} (h : Keeps d0 d) : Keeps d0 (d.drillResult result reason step) :=
  h.put.put.put.update.share fun h => .ite h.raise (.unless h (·.incE.raise))
theorem Keeps.drillCommit {job step : Nat} (h : Keeps d0 d) : Keeps d0 (d.drillCommit job step) :=
  .ite h (.ite h.drillResult h.update.incU.update)

/-! ### The functions of Machine/Tiles -/

theorem Keeps.residNow {agents add remove : List Nat} (h : Keeps d0 d) : Keeps d0 (d.residNow agents add remove) :=
  .update (.foldl (fun _ _ h => h.sendDown) h.update)
theorem Keeps.sendResid {agents add remove : List Nat} (h : Keeps d0 d) : Keeps d0 (d.sendResid agents add remove) :=
  .ite h.update h.residNow
theorem Keeps.flushResid (h : Keeps d0 d) : Keeps d0 d.flushResid :=
  .foldl (fun _ _ h => by split; exacts [.ite h h.update.residNow, h]) h
theorem Keeps.confirmRemovals {a : Nat} {gen : Option Nat} (h : Keeps d0 d) : Keeps d0 (d.confirmRemovals a gen) := h.update
theorem Keeps.withholdAdd {id : Nat} (h : Keeps d0 d) : Keeps d0 (d.withholdAdd id) := h.update

theorem Keeps.evictBlocks {limit n : Nat} (h : Keeps d0 d) : Keeps d0 (d.evictBlocks limit n) := by
  induction n generalizing d with
  | zero => exact h
  | succ n ih =>
    unfold Dev.evictBlocks
    refine .ite h ?_
    split
    · exact ih (.ite h.withholdAdd.update h.withholdAdd.sendResid)
    · exact h

theorem Keeps.logVerdict {w : List Nat} (h : Keeps d0 d) : Keeps d0 (d.logVerdict w) := h.update.put.put
theorem Keeps.disagree (h : Keeps d0 d) : Keeps d0 d.disagree := h.incE.raise
theorem Keeps.noteVerdict {job : Nat} {t : TileRec} {code place3 n3 dist3 : Nat} (h : Keeps d0 d) :
    Keeps d0 (d.noteVerdict job t code place3 n3 dist3) :=
  .when (.unless (.unless h.incU (·.logVerdict)) (fun h => .ite h.incE h.incE.raise)) (·.disagree)
theorem Keeps.sramWrites {ws : Writes} (h : Keeps d0 d) : Keeps d0 (d.sramWrites ws) :=
  h.trans ⟨Memory.wf_writes _, id, id, id, List.prefix_refl _, Nat.le_refl _⟩

/-! ### The functions of Machine/Gate -/

theorem Keeps.closeRound {job a : Nat} (h : Keeps d0 d) : Keeps d0 (d.closeRound job a) := by
  dsimp only [Dev.closeRound]
  split
  · exact .ite h.onAcc h
  · exact h

theorem Keeps.sendHashes {job : Nat} (h : Keeps d0 d) : Keeps d0 (d.sendHashes job) := by
  dsimp only [Dev.sendHashes]
  split
  · exact h
  · exact .ite h (.onJob (.foldl (fun _ _ h => .ite h h.send) h))

theorem Keeps.replicaVerdict {j : JobSt} {n : Nat} {e : Nat × Nat} (h : Keeps d0 d) : Keeps d0 (d.replicaVerdict j n e) :=
  .when h.logVerdict.incU.disagree (·.points.onAcc)

theorem Keeps.standAnswer {job a : Nat} {x : StandSt} (h : Keeps d0 d) : Keeps d0 (d.standAnswer job a x) := by
  dsimp only [Dev.standAnswer]
  split
  · exact .foldl (fun _ _ h => .ite h.digestIn h.cutShard) h
  · exact h

theorem Keeps.standCut {job a : Nat} (h : Keeps d0 d) : Keeps d0 (d.standCut job a) := by
  dsimp only [Dev.standCut]
  split
  · exact .ite h h.cutAckIn.standAnswer
  · exact h

theorem Keeps.standUpdated {s : Nat} (h : Keeps d0 d) : Keeps d0 (d.standUpdated s) :=
  .ite h.setStand.standAnswer.handover (.ite h.setStand.standCut.standStep h)

theorem Keeps.standCommit {a step : Nat} (h : Keeps d0 d) : Keeps d0 (d.standCommit a step) := by
  dsimp only [Dev.standCommit]
  split
  · exact h
  · exact h.incU.setStand.share fun h => .ite h.standUpdated h.standSubmit

theorem Keeps.commitAcc {job step a : Nat} (h : Keeps d0 d) : Keeps d0 (d.commitAcc job step a) := by
  dsimp only [Dev.commitAcc]
  split
  · exact h
  · split
    · exact h
    · split; exacts [h, h.commitHist.threshold.mirrorOut]

theorem Keeps.commit {job : Nat} (h : Keeps d0 d) : Keeps d0 (d.commit job) := by
  dsimp only [Dev.commit]
  split
  · exact h
  · exact .drillCommit (.sendCuts (.incU (.foldl (fun _ _ h => h.standCommit) (.adoptDue (.foldl (fun _ _ h => h.sendCommit)
                  (.onJob (.dropTiles (.cutCommit (.foldl (fun _ _ h => h.commitAcc) (.pairUp (.ite h.progCommit h)))))))))))

theorem Keeps.rootCommit {job : Nat} (h : Keeps d0 d) : Keeps d0 (d.rootCommit job) := by
  dsimp only [Dev.rootCommit]
  split
  · exact h
  · exact h.sendDec.cadence.cutDue.commit

theorem Keeps.replayAcc {job a thr : Nat} (h : Keeps d0 d) : Keeps d0 (d.replayAcc job a thr) := by
  dsimp only [Dev.replayAcc]
  split
  · exact h
  · split
    · exact h
    · exact h.closeRound.share fun h =>
          .ite h.onAcc (.ite (h.tenseReplay.onAcc.share fun h => by split; exacts [h.standStep, h]) h.tenseReplay.sendReplay)

theorem Keeps.drillSeeds {job : Nat} {seeds : List Nat} (h : Keeps d0 d) : Keeps d0 (d.drillSeeds job seeds) := .ite h.update h
theorem Keeps.unseenSuspects {j : JobSt} {seeds : List Nat} (h : Keeps d0 d) : Keeps d0 (d.unseenSuspects j seeds) :=
  .foldl (fun _ _ h => h.points) h

theorem Keeps.replay {job : Nat} {seeds : List Nat} {whole : Bool} (h : Keeps d0 d) : Keeps d0 (d.replay job seeds whole) := by
  dsimp only [Dev.replay]
  split
  · exact h
  · exact .onJob (.foldl (fun _ _ h => h.replayAcc) (.when h.drillSeeds.unseenSuspects.dropTiles.onJob (·.progReplay)))

theorem Keeps.abandon {job : Nat} (h : Keeps d0 d) : Keeps d0 (d.abandon job) := by
  dsimp only [Dev.abandon]
  split
  · exact h
  · exact .onJob (.when h.dropTiles (·.progReplay))

theorem Keeps.candidates {job : Nat} {seeds : List Nat} {whole : Bool} (h : Keeps d0 d) :
    Keeps d0 (d.candidates job seeds whole) := by
  dsimp only [Dev.candidates]
  split
  · exact .foldl (fun _ _ h => h.points) h.drillSeeds.unseenSuspects
  · exact h

theorem Keeps.rootAbandon {job : Nat} {seeds : List Nat} {whole : Bool} (h : Keeps d0 d) :
    Keeps d0 (d.rootAbandon job seeds whole) := by
  dsimp only [Dev.rootAbandon]
  split
  · exact h
  · exact h.sendDec.candidates.abandon.tryRestart

theorem Keeps.rootReplay {job : Nat} (h : Keeps d0 d) : Keeps d0 (d.rootReplay job) := by
  dsimp only [Dev.rootReplay]
  split
  · exact h
  · exact .ite h.raise.rootAbandon h.sendDec.replay

theorem Keeps.rootFailed {job : Nat} (h : Keeps d0 d) : Keeps d0 (d.rootFailed job) := by
  dsimp only [Dev.rootFailed]
  split
  · exact h
  · exact .ite h (.ite h.rootReplay h)

theorem Keeps.gateFail {job : Nat} {seeds : List Nat} {whole : Bool} (h : Keeps d0 d) : Keeps d0 (d.gateFail job seeds whole) := by
  dsimp only [Dev.gateFail]
  split
  · exact h
  · exact .ite h.setJob.sendRep.rootFailed (.ite h.setJob.rootFailed h)

theorem Keeps.homeJudge {job : Nat} (h : Keeps d0 d) : Keeps d0 (d.homeJudge job) := by
  dsimp only [Dev.homeJudge]
  split
  · exact h
  · split
    · exact h
    · exact .ite h (.unless h.onJob (fun h => .gateFail (.foldl (fun _ _ h => .foldl (fun _ _ h => h.replicaVerdict) h) h)))

theorem Keeps.standingBad {job : Nat} (h : Keeps d0 d) : Keeps d0 (d.standingBad job) := by
  dsimp only [Dev.standingBad]
  split
  · exact .ite h.gateFail h
  · exact h

theorem Keeps.gateCheck {job : Nat} (h : Keeps d0 d) : Keeps d0 (d.gateCheck job) := by
  dsimp only [Dev.gateCheck]
  split
  · exact h
  · exact (Keeps.ite h.standingBad.sendHashes.homeJudge h).share fun h =>
        by split; exacts [h, .ite h.rootFailed (.when (.when h (·.onJob.sendRep)) (·.rootCommit))]

theorem Keeps.accCheck {job a : Nat} (h : Keeps d0 d) : Keeps d0 (d.accCheck job a) := by
  dsimp only [Dev.accCheck]
  split
  · exact h
  · split; exacts [h, .gateCheck (.when (.ite h.confirmRemovals.flushResid h) (·.closeRound))]

theorem Keeps.markTense {job : Nat} (h : Keeps d0 d) : Keeps d0 (d.markTense job) := by
  dsimp only [Dev.markTense]
  split
  · exact .ite h.tenseMark h
  · exact h

theorem Keeps.voidExcess {job a sampled : Nat} (h : Keeps d0 d) : Keeps d0 (d.voidExcess job a sampled) := by
  dsimp only [Dev.voidExcess]
  split
  · exact h
  · exact .onAcc (.foldl (fun _ _ h => h.incE.raise) (.foldl (fun _ _ h => h.noteVerdict) h.dropTiles))

theorem Keeps.markIn {job a : Nat} {m : MarkInfo} (h : Keeps d0 d) : Keeps d0 (d.markIn job a m) := by
  dsimp only [Dev.markIn]
  split
  · exact h
  · split
    · exact h
    · exact .ite h (h.onAcc.share fun h => by split; exacts [h.markTense.replayAcc.onJob, h.voidExcess.markTense.accCheck])

theorem Keeps.replayAcked {a seq : Nat} (h : Keeps d0 d) : Keeps d0 (d.replayAcked a seq) := by
  dsimp only [Dev.replayAcked]
  split
  · exact h
  · exact .ite h.onAcc.onJob.gateCheck h

theorem Keeps.stepRep {src job step round status covered : Nat} {seeds : List Nat} {whole : Bool} (h : Keeps d0 d) :
    Keeps d0 (d.stepRep src job step round status covered seeds whole) := by
  dsimp only [Dev.stepRep]
  split
  · exact h
  · exact .ite h (h.setJob.share fun h => .ite (.when h (·.gateFail)) h.gateCheck)

theorem Keeps.lateReports {job : Nat} (h : Keeps d0 d) : Keeps d0 (d.lateReports job) := by
  dsimp only [Dev.lateReports]
  split
  · exact .ite h.gateFail h
  · exact h

theorem Keeps.decCommit {job step : Nat} (h : Keeps d0 d) : Keeps d0 (d.decCommit job step) := by
  dsimp only [Dev.decCommit]
  split
  · exact .ite h.sendDec.commit h
  · exact h

theorem Keeps.decReplay {job step round : Nat} {seeds : List Nat} {whole : Bool} (h : Keeps d0 d) :
    Keeps d0 (d.decReplay job step round seeds whole) := by
  dsimp only [Dev.decReplay]
  split
  · exact .ite h.sendDec.replay.gateCheck.lateReports h
  · exact h

theorem Keeps.decAbandon {job step : Nat} {seeds : List Nat} {whole : Bool} (h : Keeps d0 d) :
    Keeps d0 (d.decAbandon job step seeds whole) := by
  dsimp only [Dev.decAbandon]
  split
  · exact .ite h.sendDec.candidates.abandon h
  · exact h

theorem Keeps.hashesIn {src job step round : Nat} {ps : List (Nat × Nat × Nat)} (h : Keeps d0 d) :
    Keeps d0 (d.hashesIn src job step round ps) :=
  .ite (.foldl (fun _ _ h => h.cutDigest) h) h.onJob.gateCheck

theorem Keeps.verdictOverdue {a : Nat} (h : Keeps d0 d) : Keeps d0 (d.verdictOverdue a) := by
  dsimp only [Dev.verdictOverdue]
  split
  · exact h
  · split; exacts [.ite h.onAcc.raise h, h]

theorem Keeps.standMark {s : Nat} (h : Keeps d0 d) : Keeps d0 (d.standMark s) :=
  .ite h (by split; exacts [h, by split; exacts [h, h.markIn]])

/-! ### The functions of Machine/Agree -/

theorem Keeps.opndIn {a id : Nat} {bs : List Nat} (h : Keeps d0 d) : Keeps d0 (d.opndIn a id bs) := by
  dsimp only [Dev.opndIn]
  split
  · exact h
  · exact h.addU.share fun h => .ite h.update (.evictBlocks (.unless h.update (·.sendResid)))

theorem Keeps.setTile {t : TileRec} (h : Keeps d0 d) : Keeps d0 (d.setTile t) := h.update
theorem Keeps.suspectCore {job place : Nat} (h : Keeps d0 d) : Keeps d0 (d.suspectCore job place) :=
  .when h.update.points.raise (·.coreFail)
theorem Keeps.verdictPoints {job a code place : Nat} {core : Bool} (h : Keeps d0 d) :
    Keeps d0 (d.verdictPoints job a code place core) :=
  .when (.ite h.points (.ite h.points.points h)) (·.suspectCore)

theorem Keeps.verdict {job : Nat} {t : TileRec} {code place3 n3 dist3 : Nat} {core : Bool} (h : Keeps d0 d) :
    Keeps d0 (d.verdict job t code place3 n3 dist3 core) := by
  dsimp only [Dev.verdict]
  exact h.noteVerdict.verdictPoints.share fun h => by split; exacts [h, .unless h (fun h => .accCheck (.when h.onAcc (·.gateFail)))]

theorem Keeps.tileIn {a : Nat} {ws : List Nat} (h : Keeps d0 d) : Keeps d0 (d.tileIn a ws) := by
  dsimp only [Dev.tileIn]
  exact h.incU.share fun h => by
      split
      · exact h
      · split
        · exact h
        · exact h.confirmRemovals.flushResid.share fun h =>
              .ite h.incE (h.update.share fun h =>
                  .ite h.noteVerdict
                    (h.onAcc.share fun h => .ite h.verdict (.ite h.verdict (.ite h.verdict (.ite h.verdict h.update)))))

theorem Keeps.dispatchTile {k : Nat} (h : Keeps d0 d) : Keeps d0 (d.dispatchTile k) := by
  dsimp only [Dev.dispatchTile]
  exact .ite h (by split; exacts [h, by split; exacts [h, h, .setThread (.setTile (.put (.ite h.incU h)))]])
theorem Keeps.voidLost (h : Keeps d0 d) : Keeps d0 d.voidLost := .foldl (fun _ _ h => by split; exacts [h.verdict, h]) h
theorem Keeps.classCFails {k : Nat} {t : TileRec} {code : Nat} (h : Keeps d0 d) : Keeps d0 (d.classCFails k t code) :=
  h.setTile.descError
theorem Keeps.checkedOps {macs : Nat} (h : Keeps d0 d) : Keeps d0 (d.checkedOps macs) := h.addU.update

theorem Keeps.tileMat {k cycles : Nat} {wrong : List WrongElem} (h : Keeps d0 d) : Keeps d0 (d.tileMat k cycles wrong) := by
  dsimp only [Dev.tileMat]
  split
  · exact .ite h.classCFails (by split; exacts [h.classCFails, .ite h h.enqueue.addU.addU.checkedOps.bump.retire])
  · exact h

theorem Keeps.tileJudged {t : TileRec} {code place3 n3 dist3 : Nat} {core : Bool} (h : Keeps d0 d) :
    Keeps d0 (d.tileJudged t code place3 n3 dist3 core) := by
  dsimp only [Dev.tileJudged]
  exact h.dropTiles.share fun h => by split; exacts [h, h.verdict]

theorem Keeps.tileNext {k place mode : Nat} {t : TileRec} {r : CompareResult} (h : Keeps d0 d) :
    Keeps d0 (d.tileNext k place mode t r) := by
  dsimp only [Dev.tileNext]
  split
  · exact .ite h.tileJudged h.setTile.freeThread
  · exact .ite h.tileJudged (.setThread (.setTile (.ite h.freeRefs h)))
  · exact h.tileJudged

theorem Keeps.tileCheck {k core cycles : Nat} (h : Keeps d0 d) : Keeps d0 (d.tileCheck k core cycles) := by
  dsimp only [Dev.tileCheck]
  split
  · split
    · exact h.classCFails
    · exact .ite h (.tileNext (.bump (.unless (.addU (.incU (.when h.sramWrites (·.sramWrites)))) (·.incE))))
  · exact h

theorem Keeps.checkLost {k : Nat} {u : RedUpset} (h : Keeps d0 d) : Keeps d0 (d.checkLost k u) := by
  dsimp only [Dev.checkLost]
  split
  · exact h.freeThread.setTile.redUpset
  · exact h.redUpset

theorem Keeps.signal {k : Nat} (h : Keeps d0 d) : Keeps d0 (d.signal k) := by
  dsimp only [Dev.signal]
  split
  · exact h
  · exact .ite h.descError (.ite h.retire h.retire.semaphore.relaySignal)

/-! ### The functions of Machine/Start -/

theorem Keeps.sendChunks {j : JobSt} {child from_ : Nat} (h : Keeps d0 d) : Keeps d0 (d.sendChunks j child from_) :=
  .foldl (fun _ _ h => h.send) h

theorem Keeps.admitJob {job : Nat} (h : Keeps d0 d) : Keeps d0 (d.admitJob job) := by
  dsimp only [Dev.admitJob]
  split
  · exact h
  · exact .unless h.setJob.repair (fun h =>
          .foldl (fun _ _ h => h.sendJob)
            (.when (.tenseTake (.foldl (fun _ _ h => h.installDecls) (.foldl (fun _ _ h => h.reflow) h))) (·.progStart)))

theorem Keeps.startResult {job result : Nat} (h : Keeps d0 d) : Keeps d0 (d.startResult job result) :=
  .unless h.put.put.put.put (·.raise)

theorem Keeps.startGo {job : Nat} (h : Keeps d0 d) : Keeps d0 (d.startGo job) := by
  dsimp only [Dev.startGo]
  split
  · exact h
  · exact .ite h (.when h.sendAll.admitJob (·.startResult))

theorem Keeps.startOver {j : JobSt} {result : Nat} (h : Keeps d0 d) : Keeps d0 (d.startOver j result) := h.update

theorem Keeps.startAbort {job result : Nat} (h : Keeps d0 d) : Keeps d0 (d.startAbort job result) := by
  dsimp only [Dev.startAbort]
  split
  · exact h
  · exact .ite h (h.sendAll.startOver.update.share fun h => .ite h.startResult h.raise)

theorem Keeps.startAcks {job : Nat} (h : Keeps d0 d) : Keeps d0 (d.startAcks job) := by
  dsimp only [Dev.startAcks]
  split
  · exact h
  · refine .ite h (.ite ?_ ?_)
    · split
      · exact h.put.startAbort
      · exact h.put.when (·.startGo)
    · refine .ite h ?_
      split
      · exact h.setJob.send
      · exact h.setJob

theorem Keeps.startHeld {job : Nat} (h : Keeps d0 d) : Keeps d0 (d.startHeld job) := by
  dsimp only [Dev.startHeld]
  split
  · exact h
  · exact .ite h h.setJob.startAcks

theorem Keeps.jobStart {job adm seq total root : Nat} {bs : List Nat} (h : Keeps d0 d) :
    Keeps d0 (d.jobStart job adm seq total root bs) := by
  dsimp only [Dev.jobStart]
  exact (Keeps.ite h.setJob h).share fun h => by
      split
      · exact h
      · exact .unless h (fun h => .startHeld (.unless h.setJob (fun h => .ite (.foldl (fun _ _ h => h.sendChunks) h) h.sendAll)))

theorem Keeps.abortAgain {node job adm : Nat} (h : Keeps d0 d) : Keeps d0 (d.abortAgain node job adm) := by
  dsimp only [Dev.abortAgain]
  split
  · exact .ite h.send h
  · exact h

theorem Keeps.jobAck {src job adm covered status fail : Nat} (h : Keeps d0 d) :
    Keeps d0 (d.jobAck src job adm covered status fail) := by
  dsimp only [Dev.jobAck]
  split
  · exact h.abortAgain
  · exact .ite h (.ite h.send (.ite h h.setJob.startAcks))

theorem Keeps.withStart {job adm : Nat} {f : JobSt → Dev} (h : Keeps d0 d) (hf : ∀ x1, Keeps d0 (f x1)) :
    Keeps d0 (d.withStart job adm f) := by
  dsimp only [Dev.withStart]
  split
  · exact .ite (hf _) h
  · exact h

theorem Keeps.jobAckLate {job child : Nat} (h : Keeps d0 d) : Keeps d0 (d.jobAckLate job child) := by
  dsimp only [Dev.jobAckLate]
  split
  · exact .ite h (.ite h.send (.ite h h.sendChunks))
  · exact h

theorem Keeps.orphan {job : Nat} (h : Keeps d0 d) : Keeps d0 (d.orphan job) := by
  dsimp only [Dev.orphan]
  split
  · split; exacts [h.send.setJob.startAcks, h]
  · exact h

theorem Keeps.reparent {job adm orphan held : Nat} (h : Keeps d0 d) : Keeps d0 (d.reparent job adm orphan held) := by
  dsimp only [Dev.reparent]
  split
  · exact h.abortAgain
  · exact .ite h (.when h.setJob.sendChunks (·.send))

theorem Keeps.startTimeout {job : Nat} (h : Keeps d0 d) : Keeps d0 (d.startTimeout job) := by
  dsimp only [Dev.startTimeout]
  split
  · exact h
  · exact .ite h (.ite h.startAbort (.when h.startOver.update (·.startResult)))

theorem Keeps.jobSubmit {dma : Dma} (h : Keeps d0 d) : Keeps d0 (d.jobSubmit dma) := by
  dsimp only [Dev.jobSubmit]
  exact .unless h.put (fun h =>
        h.dmaRead.put.put.put.share fun h => by
          split
          · exact h.startResult
          · exact .ite h.startResult (.startAcks (.when h.put.setJob (fun h => .foldl (fun _ _ h => h.sendChunks) h))))

theorem Keeps.freeMirror {job : Nat} (h : Keeps d0 d) : Keeps d0 (d.freeMirror job) :=
  .showNewest (.showHosted (.update (.foldl (fun _ _ h => h.dropPins) h)))
theorem Keeps.freeAdopted {j : JobSt} (h : Keeps d0 d) : Keeps d0 (d.freeAdopted j) := h.update
theorem Keeps.endAgents {j : JobSt} (h : Keeps d0 d) : Keeps d0 (d.endAgents j) :=
  .dropTiles (.foldl (fun _ _ h => h.sendDown.putAdmitted) h)
theorem Keeps.endRecords {job : Nat} (h : Keeps d0 d) : Keeps d0 (d.endRecords job) :=
  .foldl (fun _ _ h => .ite h.standEnd h) (.foldl (fun _ _ h => h.setFlow) h)
theorem Keeps.forget {job : Nat} (h : Keeps d0 d) : Keeps d0 (d.forget job) := h.update

theorem Keeps.jobEnd {job : Nat} (h : Keeps d0 d) : Keeps d0 (d.jobEnd job) := by
  dsimp only [Dev.jobEnd]
  split
  · exact h
  · exact .when h.sendAll.endAgents.endRecords.freeMirror.progEnd.tenseFree.freeAdopted.startOver.forget (·.drillResult)

theorem Keeps.jobEndRequest (h : Keeps d0 d) : Keeps d0 d.jobEndRequest := by
  dsimp only [Dev.jobEndRequest]
  exact h.put.share fun h => by split; exacts [.when h (·.jobEnd), h]

/-! ### The functions of Machine/Member -/

theorem Keeps.onMbr {f : MemberSt → MemberSt} (h : Keeps d0 d) : Keeps d0 (d.onMbr f) := h.update

theorem Keeps.adoptAckIn {job index status src : Nat} (h : Keeps d0 d) : Keeps d0 (d.adoptAckIn job index status src) := by
  dsimp only [Dev.adoptAckIn]
  split
  · exact h
  · refine .ite (.ite h.setJob (.ite h.askLeader h)) ?_
    split
    · exact .ite (.ite h.setJob.rootAbandon h) (.ite h.setJob.adoptReady h.adoptCancel.raise.incE.tryAdopt.adoptReady)
    · exact .ite h (.ite h.setJob.rootAbandon (.ite h.rootAbandon h))

theorem Keeps.takeAcks {n : Nat} (h : Keeps d0 d) : Keeps d0 (d.takeAcks n) := by
  induction n generalizing d with
  | zero => exact h
  | succ n ih =>
    unfold Dev.takeAcks
    split
    · exact h
    · exact ih h.update.adoptAckIn

theorem Keeps.standLost {s : Nat} (h : Keeps d0 d) : Keeps d0 (d.standLost s) := by
  dsimp only [Dev.standLost]
  exact .ite h (h.setStand.share fun h => by split; exacts [h, .ite h.sendAdoptAck h.setJob.sendAdoptAck.appoRequest])

theorem Keeps.ownLoss {job : Nat} {idxs : List Nat} {drill : Bool} (h : Keeps d0 d) : Keeps d0 (d.ownLoss job idxs drill) := by
  dsimp only [Dev.ownLoss]
  split
  · exact h
  · exact .ite h (.foldl (fun _ _ h => by split; exacts [h.onJob.appoRequest, h]) h)

theorem Keeps.stopCut {job : Nat} (h : Keeps d0 d) : Keeps d0 (d.stopCut job) := by
  dsimp only [Dev.stopCut]
  split
  · exact h
  · exact .onJob (.foldl (fun _ _ h => h.discardGen) h)

theorem Keeps.restAgain (h : Keeps d0 d) : Keeps d0 d.restAgain := h.update
theorem Keeps.takeEpoch {epoch : Nat} (h : Keeps d0 d) : Keeps d0 (d.takeEpoch epoch) := .ite h.put.restAgain h
theorem Keeps.drillLost {job : Nat} (h : Keeps d0 d) : Keeps d0 (d.drillLost job) := .ite h h.drillResult.askLeader

theorem Keeps.lossAtRoot {job oldRoot : Nat} {idxs : List Nat} (h : Keeps d0 d) : Keeps d0 (d.lossAtRoot job oldRoot idxs) := by
  dsimp only [Dev.lossAtRoot]
  split
  · exact h
  · split
    · exact h
    · exact .unless (.ite h.rootLoss.adoptReady h) (fun h => .foldl (fun _ _ h => .ite h.sendAdoptAck h) h)

theorem Keeps.jobLoss {job : Nat} {old : Tab ViewEnt} {drilled : List Nat} (h : Keeps d0 d) :
    Keeps d0 (d.jobLoss job old drilled) := by
  dsimp only [Dev.jobLoss]
  split
  · exact h
  · exact .ite (.ite h.startAbort (.ite h.orphan h.startAcks))
        (.ite (.ite h h.resendRep.gateCheck) (.unless (.lossAtRoot (.ownLoss (.stopCut (.ite h h.abandon)))) (·.drillLost)))

theorem Keeps.unadopt {x : Nat} (h : Keeps d0 d) : Keeps d0 (d.unadopt x) := h.onMbr

theorem Keeps.handoverLost {job : Nat} (h : Keeps d0 d) : Keeps d0 (d.handoverLost job) := by
  dsimp only [Dev.handoverLost]
  split
  · exact h
  · exact .ite h (.foldl (fun _ _ h => h.onJob.raise.sendAdoptAck) h)

theorem Keeps.viewChanged {old : Tab ViewEnt} {drilled : List Nat} (h : Keeps d0 d) : Keeps d0 (d.viewChanged old drilled) :=
  .foldl (fun _ _ h => h.jobLoss.handoverLost) (.foldl (fun _ _ h => h.positionLost) (.foldl (fun _ _ h => h.unadopt) h))
theorem Keeps.unsealAll (h : Keeps d0 d) : Keeps d0 d.unsealAll := .foldl (fun _ _ h => h.unsealed) h.onMbr
theorem Keeps.followView (h : Keeps d0 d) : Keeps d0 d.followView := h.showView.timeRoles.repair
theorem Keeps.dropClassA (h : Keeps d0 d) : Keeps d0 d.dropClassA :=
  .foldl (fun _ _ h => h.ctxDestroy) (.foldl (fun _ _ h => .ite h.standEnd h) h)
theorem Keeps.startsLost (h : Keeps d0 d) : Keeps d0 d.startsLost := .foldl (fun _ _ h => h.startOver.update.startResult) h
theorem Keeps.fenceQuiet (h : Keeps d0 d) : Keeps d0 d.fenceQuiet :=
  .followView (.onMbr (.dropClassA (.startsLost (.foldl (fun _ _ h => h.abandon) (.foldl (fun _ _ h => h.agentFence) h.put)))))
theorem Keeps.fenceSelf (h : Keeps d0 d) : Keeps d0 d.fenceSelf := h.fenceQuiet.raise.enterStage.startDiscovery
theorem Keeps.withdrawn (h : Keeps d0 d) : Keeps d0 d.withdrawn := h.fenceSelf.put.put
theorem Keeps.becomeMember (h : Keeps d0 d) : Keeps d0 d.becomeMember := .when h.put.put.onMbr (·.endStage)
theorem Keeps.selfCheck (h : Keeps d0 d) : Keeps d0 d.selfCheck :=
  .ite (.ite h.fenceSelf (.ite h.withdrawn h)) (.ite h.becomeMember h)
theorem Keeps.flap {chip : Nat} (h : Keeps d0 d) : Keeps d0 (d.flap chip) := .when h.setView (·.raise)
theorem Keeps.expelChip {epoch chip : Nat} {counts : Bool} (h : Keeps d0 d) : Keeps d0 (d.expelChip epoch chip counts) :=
  .ite h (.when h.setView (·.flap))
theorem Keeps.admitChip {epoch chip : Nat} (h : Keeps d0 d) : Keeps d0 (d.admitChip epoch chip) := by
  unfold Dev.admitChip
  exact h.setView.onMbr

theorem Keeps.applyChange {epoch c : Nat} (h : Keeps d0 d) : Keeps d0 (d.applyChange epoch c) := by
  dsimp only [Dev.applyChange]
  split
  · exact .ite (.foldl (fun _ _ h => h.expelChip) h) (.ite h.setView h.expelChip)
  · exact .ite (by split; exacts [.ite h.setView h.admitChip, h]) (.ite h.setView.onMbr h.admitChip)
  · exact h.setView
  · exact h

theorem Keeps.drillBegins {x : Nat} (h : Keeps d0 d) : Keeps d0 (d.drillBegins x) := by
  dsimp only [Dev.drillBegins]
  split
  · exact h
  · exact h.setJob.onMbr.progDrill

theorem Keeps.drillEnds {x : Nat} (h : Keeps d0 d) : Keeps d0 (d.drillEnds x) := by
  dsimp only [Dev.drillEnds]
  split
  · exact h
  · exact .unless (.progDrill (.unless h.setJob (fun h => .onJob (by split; exacts [h.standEnd, h])))) (·.drillResult)

theorem Keeps.drillsEnd {changes : List Nat} (h : Keeps d0 d) :
    Keeps d0 (d.drillsEnd changes) :=
  .foldl (fun _ _ h => h.drillEnds) h
theorem Keeps.countExpels {old : Tab ViewEnt} {changes : List Nat} (h : Keeps d0 d) : Keeps d0 (d.countExpels old changes) :=
  .when (.foldl (fun _ _ h => h.incE.raise) h.onMbr) (·.raise)
theorem Keeps.raiseDue (h : Keeps d0 d) : Keeps d0 d.raiseDue := .foldl (fun _ _ h => h.raise) h.onMbr

theorem Keeps.giveJob {job : Nat} {chips : List Nat} (h : Keeps d0 d) : Keeps d0 (d.giveJob job chips) := by
  dsimp only [Dev.giveJob]
  split
  · exact h
  · exact .foldl (fun _ _ h => .unless h.sendChunks.send (·.send)) h

theorem Keeps.applyDecide {epoch : Nat} {changes : List Nat} (h : Keeps d0 d) : Keeps d0 (d.applyDecide epoch changes) := by
  dsimp only [Dev.applyDecide]
  exact .unless
      (.drillsEnd (.viewChanged (.countExpels (.foldl (fun _ _ h => h.applyChange) (.foldl (fun _ _ h => h.drillBegins) h)))))
      (fun h => .foldl (fun _ _ h => h.giveJob.share fun h => by split; exacts [.unless h (·.tryAdopt), h]) h)

theorem Keeps.shareView {pod : Bool} {changes : List Nat} (h : Keeps d0 d) : Keeps d0 (d.shareView pod changes) := .ite h.sendAll h
theorem Keeps.sealedIn {crec : List Nat} {rack : Nat} (h : Keeps d0 d) : Keeps d0 (d.sealedIn crec rack) := h.sealed.stepSeen

theorem Keeps.decideIn {src : Nat} {pod founding : Bool} {yes voters epoch : Nat} {changes crec : List Nat} (h : Keeps d0 d) :
    Keeps d0 (d.decideIn src pod founding yes voters epoch changes crec) :=
  .ite h (.unless (.unless (.when
          (.applyDecide (.takeEpoch (.when (.when (.when (.when h.onMbr (·.onMbr)) (·.onMbr)) (·.onMbr)) (·.unsealAll))))
          (·.settingsAct)) (·.selfCheck.followView.raiseDue.shareView)) (·.onMbr.sealedIn))

theorem Keeps.clauseEnd {p : Proposal} (h : Keeps d0 d) : Keeps d0 (d.clauseEnd p) :=
  .unless h.onMbr (fun h => .decideIn (.incU (.send (.foldl (fun _ _ h => h.send) h))))

theorem Keeps.clauseCheck (h : Keeps d0 d) : Keeps d0 d.clauseCheck := by
  dsimp only [Dev.clauseCheck]
  split
  · exact h
  · exact .ite (.when h.clauseEnd (·.onMbr)) h

theorem Keeps.voted {pod : Bool} {epoch : Nat} (h : Keeps d0 d) : Keeps d0 (d.voted pod epoch) := h.onMbr

theorem Keeps.propose {pod founding : Bool} {epoch : Nat} {changes crec : List Nat} (h : Keeps d0 d) :
    Keeps d0 (d.propose pod founding epoch changes crec) := by
  unfold Dev.propose
  exact (Keeps.ite h.sendAll h.send).voted.onMbr.clauseCheck

theorem Keeps.startClause (h : Keeps d0 d) : Keeps d0 d.startClause :=
  .ite h (.ite h.propose (.ite h.propose (by split; exacts [h.propose, h])))
theorem Keeps.askMarginal {v : Nat} (h : Keeps d0 d) : Keeps d0 (d.askMarginal v) := .ite h.onMbr (.ite h h.askLeader.onMbr)
theorem Keeps.raEnd {code : Nat} (h : Keeps d0 d) : Keeps d0 (d.raEnd code) := .when h.update.put.put.put (·.msix)

theorem Keeps.raCheck (h : Keeps d0 d) : Keeps d0 d.raCheck := by
  dsimp only [Dev.raCheck]
  split
  · exact h
  · exact .ite h.raEnd h

theorem Keeps.hazardOut {job : Nat} {j : JobSt} (h : Keeps d0 d) : Keeps d0 (d.hazardOut job j) := by
  dsimp only [Dev.hazardOut]
  exact h.onJob.share fun h => by split; exacts [.unless h (·.send), h]
theorem Keeps.hazardDue (h : Keeps d0 d) : Keeps d0 d.hazardDue := .foldl (fun _ _ h => h.hazardOut) h
theorem Keeps.settle (h : Keeps d0 d) : Keeps d0 d.settle :=
  .shrinkDue (.raCheck (.startClause (.hazardDue (.foldl (fun _ _ h => h.askMarginal) (.foldl (fun _ _ h => h.tryRestart.restDecide)
              (.takeAcks (.foldl (fun _ _ h => h.standAgain) (.voidLost (.flushResid (.foldl (fun _ _ h => h.standLost) h))))))))))

/-! ### The functions of Machine/Adopt -/

theorem Keeps.adoptOnce {hdr : FabHdr} {job phase b : Nat} {pairs : List (Nat × Nat)} {f : Dev → Dev} (h : Keeps d0 d)
    (hf : ∀ d, Keeps d0 d → Keeps d0 (f d)) :
    Keeps d0 (d.adoptOnce hdr job phase b pairs f) :=
  .ingress h (fun _ h => by split; exacts [h, .ite h (hf _ h.setJob)])

theorem Keeps.answer {q : AdoptReq} {status : Nat} (h : Keeps d0 d) : Keeps d0 (d.answer q status) := by
  dsimp only [Dev.answer]
  split
  · exact h.put.sendAdoptAck
  · exact h

theorem Keeps.spareReady (h : Keeps d0 d) : Keeps d0 d.spareReady :=
  .foldl (fun _ _ h => .answer (.ite h.readyDecls.put h)) h.put.update
theorem Keeps.adoptWait (h : Keeps d0 d) : Keeps d0 d.adoptWait := .foldl (fun _ _ h => h.answer) h.update
theorem Keeps.prepare {job : Nat} {pairs : List (Nat × Nat)} (h : Keeps d0 d) : Keeps d0 (d.prepare job pairs) := by
  dsimp only [Dev.prepare]
  exact h.adoptPrepare.share fun h => by split; exacts [.when h (·.spareReady), h]
theorem Keeps.progWait {slot : Nat} (h : Keeps d0 d) : Keeps d0 (d.progWait slot) :=
  .ite h (by split; exacts [h.appoRefuse, h.setStand])
theorem Keeps.updateEnd {slot : Nat} (h : Keeps d0 d) : Keeps d0 (d.updateEnd slot) := .ite h.standUpdated h
theorem Keeps.handoverWord {job src a : Nat} (h : Keeps d0 d) : Keeps d0 (d.handoverWord job src a) := .ite h.standOver h.standJob

theorem Keeps.drillTime (h : Keeps d0 d) : Keeps d0 d.drillTime :=
  .ite h (.ite h.drillResult (by
        split
        · exact h.drillResult
        · exact .ite h.drillResult (.ite h.drillResult (.ite h.drillResult (by split; exacts [h.drillResult, h.update])))))

theorem Keeps.drillLen {job : Nat} (h : Keeps d0 d) : Keeps d0 (d.drillLen job) := by
  dsimp only [Dev.drillLen]
  split
  · exact h
  · split; exacts [.ite h.prepare h, h]

/-! ### The functions of Machine/Clause -/

theorem Keeps.hbIn {src : Nat} (h : Keeps d0 d) : Keeps d0 (d.hbIn src) := by
  unfold Dev.hbIn
  exact h.incU.onMbr
theorem Keeps.hbSend (h : Keeps d0 d) : Keeps d0 d.hbSend := .ite h h.send.incU
theorem Keeps.ghbIn {rack leader epoch : Nat} {founding : Bool} (h : Keeps d0 d) : Keeps d0 (d.ghbIn rack leader epoch founding) :=
  .when (.onMbr (.incU (.ite h.onMbr h))) (·.onMbr)
theorem Keeps.foundPod (h : Keeps d0 d) : Keeps d0 d.foundPod := .ite h h.propose
theorem Keeps.ghbSend (h : Keeps d0 d) : Keeps d0 d.ghbSend := .ite h h.send.incU.foundPod
theorem Keeps.suspect {chip : Nat} (h : Keeps d0 d) : Keeps d0 (d.suspect chip) := .ite h h.onMbr
theorem Keeps.suspectRack {rack : Nat} (h : Keeps d0 d) : Keeps d0 (d.suspectRack rack) := .ite h h.onMbr
theorem Keeps.viewMismatch (h : Keeps d0 d) : Keeps d0 d.viewMismatch := .ite h (by split; exacts [h.send, h])
theorem Keeps.takeEntry {e : ViewEntry} (h : Keeps d0 d) : Keeps d0 (d.takeEntry e) :=
  .when (.ite h h.onMbr) (·.setView.onMbr)

theorem Keeps.takeDecide {old : Tab ViewEnt} {src : Nat} {body : List Nat} (h : Keeps d0 d) :
    Keeps d0 (d.takeDecide old src body) := by
  dsimp only [Dev.takeDecide]
  refine .ite h ?_
  exact (((h.onMbr.when (·.onMbr)).takeEpoch.foldl (fun _ _ h => h.flap)).when fun h =>
      .drillsEnd (.countExpels (.foldl (fun _ _ h => h.drillBegins) h))).share fun h =>
      by split; exacts [h.sealedIn, h]

theorem Keeps.keptCheck {crecs : List (List Nat)} (h : Keeps d0 d) : Keeps d0 (d.keptCheck crecs) :=
  .ite h (.foldl (fun _ _ h => by split; exact .ite h (.ite h.onJob h.onJob.dropPins)) h.update)

theorem Keeps.viewIn {es : List ViewEntry} {decides : List (Nat × List Nat)} {same : Bool} (h : Keeps d0 d) :
    Keeps d0 (d.viewIn es decides same) :=
  .raiseDue (.followView
      (.selfCheck (.viewChanged (.onMbr (.foldl (fun _ _ h => h.takeDecide) (.keptCheck (.foldl (fun _ _ h => h.takeEntry) h)))))))

theorem Keeps.vote {src : Nat} {pod founding : Bool} {epoch : Nat} {changes crec : List Nat} (h : Keeps d0 d) :
    Keeps d0 (d.vote src pod founding epoch changes crec) :=
  .ite h.send h.send.voted

theorem Keeps.voteIn {voter : Nat} {refuse : Bool} {epoch yes : Nat} (h : Keeps d0 d) :
    Keeps d0 (d.voteIn voter refuse epoch yes) := by
  dsimp only [Dev.voteIn]
  split
  · exact h
  · exact .ite (.ite h.onMbr h) (.ite h h.onMbr.clauseCheck)

theorem Keeps.clauseTimeout (h : Keeps d0 d) : Keeps d0 d.clauseTimeout := by
  dsimp only [Dev.clauseTimeout]
  split
  · exact h
  · exact h.clauseEnd.onMbr.incE.raise

theorem Keeps.joinReq {src epoch : Nat} {operator : Bool} (h : Keeps d0 d) : Keeps d0 (d.joinReq src epoch operator) :=
  .ite h (.when h.onMbr (·.onMbr))
theorem Keeps.foundRack (h : Keeps d0 d) : Keeps d0 d.foundRack := .ite h h.propose
theorem Keeps.joinSend (h : Keeps d0 d) : Keeps d0 d.joinSend := .ite h (.ite (.when h.put (·.raise)) h.put.put.send.foundRack)
theorem Keeps.foundingTimeout (h : Keeps d0 d) : Keeps d0 d.foundingTimeout := .ite h.onMbr h
theorem Keeps.withdrawRequest (h : Keeps d0 d) : Keeps d0 d.withdrawRequest :=
  .unless h.put (fun h => .ite h.put (by split; exacts [.ite h.onMbr h.send, h]))
theorem Keeps.rejoin (h : Keeps d0 d) : Keeps d0 d.rejoin := .when h.put (·.put.put.onMbr)
theorem Keeps.holdoffEnd {chip : Nat} (h : Keeps d0 d) : Keeps d0 (d.holdoffEnd chip) := .when h.setView (·.put)

theorem Keeps.jobStall {a : Nat} (h : Keeps d0 d) : Keeps d0 (d.jobStall a) := by
  dsimp only [Dev.jobStall]
  split
  · exact .ite h.askLeader h
  · exact h

theorem Keeps.treeStall {job child : Nat} (h : Keeps d0 d) : Keeps d0 (d.treeStall job child) := by
  dsimp only [Dev.treeStall]
  split
  · exact .ite h.askLeader h
  · exact h

theorem Keeps.portTimeout {a : Nat} (h : Keeps d0 d) : Keeps d0 (d.portTimeout a) := .ite h.askLeader h
theorem Keeps.hazardIn {job src sum : Nat} {watch : Bool} (h : Keeps d0 d) : Keeps d0 (d.hazardIn job src sum watch) := h.onJob
theorem Keeps.hazardSend (h : Keeps d0 d) : Keeps d0 d.hazardSend := .foldl (fun _ _ h => h.hazardOut) h
theorem Keeps.healthDecay (h : Keeps d0 d) : Keeps d0 d.healthDecay := .foldl (fun _ _ h => h.update) h

/-! ### The functions of Machine/Decision -/

theorem Keeps.jobMsg {hdr : FabHdr} {job : Nat} {f : Dev → JobSt → Dev} (h : Keeps d0 d) (hf : ∀ d x2, Keeps d0 d → Keeps d0
    (f d x2)) :
    Keeps d0 (d.jobMsg hdr job f) :=
  .settle (.ingress h (fun _ h => by split; exacts [.ite (hf _ _ h) h, h]))

theorem Keeps.onceMsg {hdr : FabHdr} {job kind step : Nat} {f : Dev → JobSt → Dev} (h : Keeps d0 d)
    (hf : ∀ d x2, Keeps d0 d → Keeps d0 (f d x2)) :
    Keeps d0 (d.onceMsg hdr job kind step f) :=
  .jobMsg h (fun _ _ h => .ite h (hf _ _ h.setJob))

theorem Keeps.cutRep {job src step code gen count : Nat} (h : Keeps d0 d) : Keeps d0 (d.cutRep job src step code gen count) := by
  dsimp only [Dev.cutRep]
  split
  · exact h
  · exact .ite h h.onCut.cutCheck

theorem Keeps.genSeen {job step gen : Nat} (h : Keeps d0 d) : Keeps d0 (d.genSeen job step gen) := by
  dsimp only [Dev.genSeen]
  exact h.genCommit.share fun h => by split; exacts [.when h (·.drillCommit), h]
theorem Keeps.stripeIn {j : JobSt} {src gen slot role k row : Nat} {bs : List Nat} (h : Keeps d0 d) :
    Keeps d0 (d.stripeIn j src gen slot role k row bs) :=
  .ite h.restUnit.restCheck (.ite h.restSurvivor.restCheck h.stripeStore)
theorem Keeps.stripeAck {j : JobSt} {src gen role k row result : Nat} (h : Keeps d0 d) :
    Keeps d0 (d.stripeAck j src gen role k row result) :=
  .ite h.unitLost.restCheck h.stripeAckIn
theorem Keeps.mirrorMsg {from_ : Nat} {v : Version} (h : Keeps d0 d) : Keeps d0 (d.mirrorMsg from_ v) :=
  .ite h.stepSeen.mirrorIn (by split; exacts [.ite h.onRest.restCheck h, h])
theorem Keeps.restReq {j : JobSt} {step : Nat} {bad : List Nat} (h : Keeps d0 d) :
    Keeps d0 (d.restReq j step bad) :=
  .ite h h.restBegin
theorem Keeps.latchWords {addr : Nat} {ws : List Nat} (h : Keeps d0 d) : Keeps d0 (d.latchWords addr ws) :=
  .update (.foldl (fun _ _ h => h.update) h)
theorem Keeps.vlogRead (h : Keeps d0 d) : Keeps d0 d.vlogRead := h.latchWords
theorem Keeps.abandonAll {j : JobSt} (h : Keeps d0 d) : Keeps d0 (d.abandonAll j) :=
  .ite h.rootAbandon (by split; exacts [h.abandon.sendAdoptAck, h.abandon])
theorem Keeps.flowEcc {n : Nat} (h : Keeps d0 d) : Keeps d0 (d.flowEcc n) := by
  dsimp only [Dev.flowEcc]
  exact h.raise.share fun h => by split; exacts [h, by split; exacts [h.setFlow, h.abandonAll]]
theorem Keeps.flowRead {ecc : Bool} (h : Keeps d0 d) : Keeps d0 (d.flowRead ecc) := .latchWords (.ite h.flowEcc h)
theorem Keeps.crecRead (h : Keeps d0 d) : Keeps d0 d.crecRead := h.latchWords
theorem Keeps.drainRead (h : Keeps d0 d) : Keeps d0 d.drainRead := h.latchWords
theorem Keeps.forward {hdr : FabHdr} {dst kind level : Nat} {global indirect : Bool} {body : List Nat} (h : Keeps d0 d) :
    Keeps d0 (d.forward hdr dst kind level global indirect body) :=
  .ite h (.foldl (fun _ _ h => .when h.emit.transmit (·.addU)) h)

/-! ### The functions of Machine/Uplink -/

theorem Keeps.receiveUp {a : Nat} {hdr : PortHdr} {bytes : Nat} {f : Dev → Dev} (h : Keeps d0 d)
    (hf : ∀ d, Keeps d0 d → Keeps d0 (f d)) :
    Keeps d0 (d.receiveUp a hdr bytes f) :=
  .ite h (h.addU.share fun h => .ite (hf _ (.ite h.setAport h.setAport.ackToAgent)) (.when h (fun h => .unless h (·.ackToAgent))))

theorem Keeps.forJob {a : Nat} {hdr : PortHdr} {f : JobSt → Dev} (h : Keeps d0 d) (hf : ∀ x1, Keeps d0 (f x1)) :
    Keeps d0 (d.forJob a hdr f) := by
  dsimp only [Dev.forJob]
  split
  · exact .ite (hf _) h
  · exact h

theorem Keeps.markMsg {a : Nat} {hdr : PortHdr} {ws : List Nat} (h : Keeps d0 d) : Keeps d0 (d.markMsg a hdr ws) :=
  .receiveUp h (fun _ h => h.put.put.incU.share fun h => .forJob h (fun _ => h.markIn.lateReports))
theorem Keeps.tileMsg {a : Nat} {hdr : PortHdr} {ws : List Nat} (h : Keeps d0 d) : Keeps d0 (d.tileMsg a hdr ws) :=
  .receiveUp h (fun _ h => .forJob h (fun _ => h.tileIn))
theorem Keeps.opndMsg {a : Nat} {hdr : PortHdr} {id : Nat} {bs : List Nat} (h : Keeps d0 d) :
    Keeps d0 (d.opndMsg a hdr id bs) :=
  .receiveUp h (fun _ h => .forJob h (fun _ => h.opndIn))
theorem Keeps.cutAckMsg {a : Nat} {hdr : PortHdr} {id status : Nat} (h : Keeps d0 d) :
    Keeps d0 (d.cutAckMsg a hdr id status) :=
  .receiveUp h (fun _ h => .forJob h (fun _ => h.cutAckIn))
theorem Keeps.digestMsg {a : Nat} {hdr : PortHdr} {n : Nat} {digest : Option Nat} (h : Keeps d0 d) :
    Keeps d0 (d.digestMsg a hdr n digest) :=
  .receiveUp h (fun _ h => .forJob h (fun _ => h.digestIn))
theorem Keeps.shardMsg {a : Nat} {hdr : PortHdr} {n off : Nat} {bs : List Nat} (h : Keeps d0 d) :
    Keeps d0 (d.shardMsg a hdr n off bs) :=
  .receiveUp h (fun _ h => .forJob h (fun _ => .ite h.relayOut h.cutShard))
theorem Keeps.faultMsg {a : Nat} {hdr : PortHdr} {status time : Nat} (h : Keeps d0 d) :
    Keeps d0 (d.faultMsg a hdr status time) :=
  .receiveUp h (fun _ h => .when (.when h.setAport.raise (·.points)) (·.points))
theorem Keeps.declMsg {a : Nat} {hdr : PortHdr} {ws : List Nat} (h : Keeps d0 d) : Keeps d0 (d.declMsg a hdr ws) :=
  .receiveUp h (fun _ h => h.setAport.put.checkDecls)
theorem Keeps.xrdyMsg {a : Nat} {hdr : PortHdr} {n : Nat} (h : Keeps d0 d) : Keeps d0 (d.xrdyMsg a hdr n) :=
  .receiveUp h (fun _ h => .forJob h (fun _ => h.exchangeReady))
theorem Keeps.ackDown {a seq : Nat} (h : Keeps d0 d) : Keeps d0 (d.ackDown a seq) := by
  dsimp only [Dev.ackDown]
  exact .ite h (h.setAport.shardAcked.replayAcked.takeAcked.share fun h => by split; exacts [h.lateReports, h])

theorem Keeps.ackMsg {e : PortEnd} {a : Nat} {hdr : PortHdr} {seq : Nat} (h : Keeps d0 d) :
    Keeps d0 (d.ackMsg e a hdr seq) := by
  dsimp only [Dev.ackMsg]
  split
  · exact .ite h h.addU.ackDown
  · exact .ite h (.ite h.staleMsg (.ite h h.put.ackUp))

theorem Keeps.markMissing {a : Nat} (h : Keeps d0 d) : Keeps d0 (d.markMissing a) := by
  dsimp only [Dev.markMissing]
  split
  · exact .ite h.raise h
  · exact h

/-! ### The functions of Machine/Read -/

theorem Keeps.latchTime {addr t : Nat} (h : Keeps d0 d) : Keeps d0 (d.latchTime addr t) := h.update

theorem Keeps.readAt {addr : Nat} (h : Keeps d0 d) : Keeps d0 (d.readAt addr) :=
  .ite h.update (by
      split
      · exact h.nrgRead
      · exact h.progRead
      · exact h.vlogRead
      · exact h.flowRead
      · exact h.crecRead
      · exact h.drainRead
      · exact h.latchTime
      · exact h.latchTime
      · exact h.captureRead
      · exact h.captureRead
      · exact h.scanRead
      · exact h.evrAdvance
      · exact h.update)

theorem Keeps.touch {addr : Nat} (h : Keeps d0 d) : Keeps d0 (d.touch addr) := h.update
theorem Keeps.halfRead {addr : Nat} (h : Keeps d0 d) : Keeps d0 (d.halfRead addr) :=
  h.touch.share fun h => .ite h.readAt.update (by split; exacts [h.update, .ite h.readAt.update h.update])
theorem Keeps.hostRead {addr : Nat} {wide : Bool} (h : Keeps d0 d) :
    Keeps d0 (d.hostRead addr wide) :=
  .ite h.touch.readAt h.halfRead
theorem Keeps.bellRead {wide : Bool} (h : Keeps d0 d) : Keeps d0 (d.bellRead wide) := .ite h h.update
theorem Keeps.badAccess {isWrite : Bool} {off size : Nat} (h : Keeps d0 d) : Keeps d0 (d.badAccess isWrite off size) :=
  .ite h (.unless h.incE (·.update))

/-! ### The functions of Machine/Pages -/

theorem Keeps.giveBack {cl : Nat} (h : Keeps d0 d) :
    Keeps d0 (d.giveBack cl) :=
  .put (.foldl (fun _ _ h => h.freeThread) h.loseTiles)
theorem Keeps.abortWork {pg : Nat} (h : Keeps d0 d) : Keeps d0 (d.abortWork pg) := by
  dsimp only [Dev.abortWork]
  exact h.endCommands.share fun h => by split; exacts [h.giveBack, h.giveBack, h.setPort, h.fwlAbort, h]
theorem Keeps.forceAbort {pg : Nat} (h : Keeps d0 d) : Keeps d0 (d.forceAbort pg) := .ite (.ite h.raEnd h) h.abortWork
theorem Keeps.pageOnNow {pg : Nat} (h : Keeps d0 d) : Keeps d0 (d.pageOnNow pg) :=
  .when h.put.put (fun h => .foldl (fun _ _ h => h.downOut) h)
theorem Keeps.pageEnable {pg : Nat} (h : Keeps d0 d) : Keeps d0 (d.pageEnable pg) :=
  .ite h (by split; exacts [h.update, .ite h h.pageOnNow])
theorem Keeps.drainOver {pg : Nat} (h : Keeps d0 d) : Keeps d0 (d.drainOver pg) := .when h.update.put (·.pageOnNow)
theorem Keeps.drainCluster {cl : Nat} (h : Keeps d0 d) : Keeps d0 (d.drainCluster cl) := .foldl (fun _ _ h => h.drainThread) h
theorem Keeps.pageOffNow {pg : Nat} {b : Block} (h : Keeps d0 d) : Keeps d0 (d.pageOffNow pg b) :=
  .unless h.put.put (fun h => .ite (.unless (.when h.update.put.put (·.drainCluster)) (·.drainOver)) h.forceAbort)

theorem Keeps.pageDisable {pg : Nat} (h : Keeps d0 d) : Keeps d0 (d.pageDisable pg) := by
  dsimp only [Dev.pageDisable]
  split
  · exact h
  · exact .ite h (by split; exacts [h.update, .ite h.pageOffNow h])

theorem Keeps.drainIdle {pg : Nat} (h : Keeps d0 d) : Keeps d0 (d.drainIdle pg) := .when (.ite h.leavePort h) (·.drainOver)
theorem Keeps.drainReport {pg elapsed items ctxs : Nat} (h : Keeps d0 d) : Keeps d0 (d.drainReport pg elapsed items ctxs) :=
  h.update.put
theorem Keeps.hubEcc {ecc : Bool} (h : Keeps d0 d) : Keeps d0 (d.hubEcc ecc) := .ite h.raise h

theorem Keeps.drainLimit {pg : Nat} (h : Keeps d0 d) : Keeps d0 (d.drainLimit pg) := by
  dsimp only [Dev.drainLimit]
  split
  · exact .ite h.leavePort h
  · exact h.forceAbort.put.drainReport.incE.raise.drainOver

theorem Keeps.agentResetBegin {a : Nat} (h : Keeps d0 d) : Keeps d0 (d.agentResetBegin a) :=
  .setAgentPort (.points (.foldl (fun _ _ h => h.abandonDrain.put) h))

theorem Keeps.resetReq {pg : Nat} (h : Keeps d0 d) : Keeps d0 (d.resetReq pg) := by
  dsimp only [Dev.resetReq]
  split
  · exact h
  · refine .ite h ?_
    split
    · exact h.restart
    · exact h.restart
    · split; exacts [h.abandonDrain.resetPartition, h]
    · exact h.abandonDrain.portReset
    · exact h.agentResetBegin
    · exact h

/-! ### The functions of Machine/Write -/

theorem Keeps.writeFields {pg off v : Nat} {b : Block} (h : Keeps d0 d) : Keeps d0 (d.writeFields pg off v b) := by
  dsimp only [Dev.writeFields]
  exact .foldl (fun _ _ h => by split; exacts [h.put, h.put, h]) h
theorem Keeps.pageCtrl {pg v : Nat} (h : Keeps d0 d) : Keeps d0 (d.pageCtrl pg v) :=
  h.put.putB.share fun h => .when (.ite h.pageEnable h.pageDisable) (·.resetReq)

theorem Keeps.fltClear {pg mask levels : Nat} (h : Keeps d0 d) : Keeps d0 (d.fltClear pg mask levels) := by
  dsimp only [Dev.fltClear]
  split
  · exact h.clearAgentFaults
  · exact h
  · exact h
  · exact h
  · exact h
  · exact h.clearFaults

theorem Keeps.fltForce {pg mask : Nat} (h : Keeps d0 d) : Keeps d0 (d.fltForce pg mask) := by
  dsimp only [Dev.fltForce]
  split
  · exact h
  · exact .foldl (fun _ _ h => .ite h.raiseAgent h.raiseSrc) h

theorem Keeps.fltReact {pg v n : Nat} (h : Keeps d0 d) : Keeps d0 (d.fltReact pg v n) := h.put
theorem Keeps.cntLatch {pg v : Nat} (h : Keeps d0 d) : Keeps d0 (d.cntLatch pg v) := .when h.putB (·.snapPage)
theorem Keeps.cntWrite {pg k v : Nat} {b : Block} (h : Keeps d0 d) : Keeps d0 (d.cntWrite pg k v b) := .ite h.clearCounter h
theorem Keeps.commonWrite {pg off v : Nat} {b : Block} (h : Keeps d0 d) : Keeps d0 (d.commonWrite pg off v b) :=
  .ite h.pageCtrl (.ite (.ite h.put h)
      (.ite h (by split; exacts [h.tick.fltClear, h.put, h.put, h.fltForce, h.fltReact, .ite h h.cntLatch, .ite h.cntWrite h])))
theorem Keeps.ctxCtrl {c v : Nat} {full : Bool} (h : Keeps d0 d) : Keeps d0 (d.ctxCtrl c v full) :=
  .when (.unless (.when (.ite h.ctxCreate h) (·.ctxErrClear)) (fun h => .ite h.ctxEnable h.ctxDisable)) (·.ctxDestroy)

theorem Keeps.devWrite {who : Requester} {off v : Nat} (h : Keeps d0 d) : Keeps d0 (d.devWrite who off v) :=
  .ite h (by
      split
      · exact .hostCtx h (fun _ h => h.ctxConfig)
      · split
        · exact .hostCtx h (fun _ h => h.ctxCtrl)
        · exact h.profSelect
        · exact h.profStage
        · exact h.profInstall
        · exact h.writeFields.put
        · exact h.writeFields)

theorem Keeps.vfCtxWrite {pg f off v : Nat} (h : Keeps d0 d) : Keeps d0 (d.vfCtxWrite pg f off v) :=
  .ite h.put (by
      split
      · exact h
      · exact .ite (.hostCtx h (fun _ h => h.ctxCtrl)) (by split; exacts [.ite h (.hostCtx h (fun _ h => h.ctxConfig)), h]))

theorem Keeps.vfDoorbell {pg f off v : Nat} (h : Keeps d0 d) : Keeps d0 (d.vfDoorbell pg f off v) :=
  .ite h (by split; exacts [h.doorbell, h])
theorem Keeps.idleEnter (h : Keeps d0 d) : Keeps d0 d.idleEnter :=
  .ite h (.ite h.put (.ite h.put (.ite h.put (.foldl (fun _ _ h => by split; exacts [h.pageOffNow, h]) h.put.put))))
theorem Keeps.fwlWrite {off v : Nat} (h : Keeps d0 d) : Keeps d0 (d.fwlWrite off v) :=
  .ite (.ite (.ite h.fwlAbort h) (.ite h.writeFields h)) (.when h.writeFields (·.fwlGo))
theorem Keeps.bootWrite {off v : Nat} (h : Keeps d0 d) : Keeps d0 (d.bootWrite off v) :=
  .unless h.writeFields (fun h => .when (.when h (·.resumeBoot)) (·.startTests))
theorem Keeps.secWrite {off v : Nat} (h : Keeps d0 d) : Keeps d0 (d.secWrite off v) :=
  h.writeFields.share fun h => .ite h.rollback (.when h (·.attestGo))
theorem Keeps.pwrWrite {off v : Nat} (h : Keeps d0 d) : Keeps d0 (d.pwrWrite off v) :=
  .unless h.writeFields (fun h => .when (.when h (·.rearm)) (·.rearm))
theorem Keeps.pulseWrite {off v : Nat} (h : Keeps d0 d) : Keeps d0 (d.pulseWrite off v) :=
  .unless h.writeFields (fun h => .ite h.put (.unless h (fun h => .when (.when h (·.pulseOff)) (·.pulseArm))))

theorem Keeps.evrWrite {off v : Nat} (h : Keeps d0 d) : Keeps d0 (d.evrWrite off v) := by
  dsimp only [Dev.evrWrite]
  split
  · exact h.evrRelease.writeFields
  · exact h.putB.share fun h => .when (.ite h.evrHold h.evrRelease) (·.evrClear)
  · exact h.onEvr
  · exact h.onEvr
  · exact h.writeFields

theorem Keeps.dbgWrite {who : Requester} {off v : Nat} (h : Keeps d0 d) : Keeps d0 (d.dbgWrite who off v) := by
  unfold Dev.dbgWrite
  extract_lets old d1
  refine .ite h.scanSelect ?_
  have h1 : Keeps d0 d1 := h.writeFields
  split
  · exact h1.unless (·.put)
  · exact ((h1.when (·.put)).when (·.stopTrigger)).when (·.stopResume)
  · exact h1.when (·.snapAll)
  · exact (h1.when (·.packPush)).when (·.packDiscard)
  · exact h1

theorem Keeps.fltRelease (h : Keeps d0 d) : Keeps d0 d.fltRelease :=
  .ite h
    (.when (.when (.foldl (fun _ _ h => h.leaveSafe) h.put.put.put.put.settleDev) (·.fenceQuiet)) (·.enterStage.startDiscovery))

theorem Keeps.mbrWrite {off v : Nat} {dma : Dma} (h : Keeps d0 d) : Keeps d0 (d.mbrWrite off v dma) := by
  unfold Dev.mbrWrite
  extract_lets d1
  have h1 : Keeps d0 d1 := h.writeFields
  split
  · exact (h1.when (·.withdrawRequest)).when (·.rejoin)
  · exact h1.put
  · exact (h1.when (·.jobSubmit)).when (·.jobEndRequest)
  · exact h1

theorem Keeps.stpWrite {off v : Nat} (h : Keeps d0 d) : Keeps d0 (d.stpWrite off v) := .ite (.ite h h.put) h.writeFields
theorem Keeps.portWrite {i off v : Nat} (h : Keeps d0 d) : Keeps d0 (d.portWrite i off v) :=
  .ite h (.when (.ite h.retrain h) (·.loopback))
theorem Keeps.agpWrite {a off v : Nat} (h : Keeps d0 d) :
    Keeps d0 (d.agpWrite a off v) :=
  .ite h (.when h.putAdmitted (·.agentFence))

theorem Keeps.cluWrite {pg c off v : Nat} (h : Keeps d0 d) : Keeps d0 (d.cluWrite pg c off v) := by
  unfold Dev.cluWrite
  extract_lets d1 other
  have h1 : Keeps d0 d1 := h.writeFields
  split
  · exact h1.put
  · exact h1.put
  · exact h1

theorem Keeps.vecWrite {who : Requester} {pg c off v : Nat} (h : Keeps d0 d) : Keeps d0 (d.vecWrite who pg c off v) := by
  dsimp only [Dev.vecWrite]
  split
  · exact h.coefData
  · exact .when (.ite h.coefCommit h) (·.coefInvalidate)
  · exact h.writeFields

theorem Keeps.agtWrite {pg a off v : Nat} (h : Keeps d0 d) : Keeps d0 (d.agtWrite pg a off v) :=
  .when h.writeFields (fun h => .when (.ite h.setAgentPort (.when h (·.setAgentPort))) (·.onAgent))

theorem Keeps.afltWrite {pg a off v : Nat} {acc : Bool} (h : Keeps d0 d) : Keeps d0 (d.afltWrite pg a off v acc) := by
  dsimp only [Dev.afltWrite]
  split
  · exact h.put
  · exact .ite h.onAgent h
  · exact h.writeFields

theorem Keeps.agentWrite {pg a off v : Nat} {b : Block} {acc : Bool} {dma : Dma} (h : Keeps d0 d) :
    Keeps d0 (d.agentWrite pg a off v b acc dma) := by
  dsimp only [Dev.agentWrite]
  split
  · exact .ite h h.writeFields
  · exact .ite (.unless h.writeFields (·.put)) (.ite h.writeFields h)
  · exact .ite h.writeFields h
  · exact .ite (.ite h.aprofLock h) (.ite h.writeFields h)
  · exact h

theorem Keeps.monWrite {i off v : Nat} (h : Keeps d0 d) : Keeps d0 (d.monWrite i off v) :=
  .when (.unless h.writeFields (·.retarget)) (·.planStart)

theorem Keeps.blockWrite {who : Requester} {pg off v : Nat} {b : Block} {dma : Dma} (h : Keeps d0 d) :
    Keeps d0 (d.blockWrite who pg off v b dma) := by
  dsimp only [Dev.blockWrite]
  split
  · exact h.devWrite
  · exact h.bootWrite
  · exact h.secWrite
  · exact h.fwlWrite
  · exact h.pwrWrite
  · exact .when h.writeFields (·.idleEnter)
  · exact .when h.writeFields (·.onClock)
  · exact h.pulseWrite
  · exact .ite h (.unless h.writeFields (fun h => .when (.when h (·.coreRetry)) (·.coreOffline)))
  · exact .when h.writeFields (·.fltRelease.settle)
  · exact h.evrWrite
  · exact h.dbgWrite
  · exact h.mbrWrite.settle
  · exact .when h.writeFields (·.spareReady.settle)
  · exact .when h.writeFields (·.appoLoad.settle)
  · exact h.stpWrite
  · exact h.portWrite
  · exact h.agpWrite
  · exact .when h.writeFields (·.partOut)
  · exact .ite h.reserveWrite h
  · exact h.monWrite
  · exact h.cluWrite
  · exact h.vecWrite
  · exact h.agtWrite
  · exact h.afltWrite
  · exact h.agentWrite
  · exact h.agentWrite
  · exact h.agentWrite
  · exact h.agentWrite
  · exact h.vfCtxWrite
  · exact h.vfDoorbell
  all_goals exact h.writeFields

theorem Keeps.writeAt {who : Requester} {addr v : Nat} {dma : Dma} (h : Keeps d0 d) :
    Keeps d0 (d.writeAt who addr v dma) := by
  dsimp only [Dev.writeAt]
  split
  · exact h
  · exact .ite h (.ite (.ite h.clearFaults h) (.ite (.ite h.pageCtrl h) (.ite h.commonWrite h.blockWrite)))

/-! ### The functions of Machine/Remote -/

theorem Keeps.podNumber {space off n : Nat} (h : Keeps d0 d) : Keeps d0 (d.podNumber space off n).1 :=
  .updateFresh h (Nat.le_add_right _ _)
theorem Keeps.podStore {space off : Nat} {bs : List Nat} (h : Keeps d0 d) : Keeps d0 (d.podStore space off bs) :=
  .foldl (fun _ _ h => h.podWrite) h
theorem Keeps.regSend {a : Nat} {write : Bool} {off v : Nat} {from_ : Option (Nat × Nat)} (h : Keeps d0 d) :
    Keeps d0 (d.regSend a write off v from_) :=
  h.sendDown.update

theorem Keeps.raServe {who : Requester} {src : Option (Nat × Nat)} {write : Bool} {space off v : Nat} (h : Keeps d0 d) :
    Keeps d0 (d.raServe who src write space off v).1 := by
  unfold Dev.raServe
  refine .iteFst h ?_
  extract_lets
  split
  · split; exacts [h.writeAt, h.readAt]
  · exact h.regSend
  · split; exacts [h.podStore, h.podNumber.fstMk]

theorem Keeps.raFinish {code data : Nat} (h : Keeps d0 d) : Keeps d0 (d.raFinish code data) := .raEnd (.ite h (.ite h.put h.put))
theorem Keeps.raAck {src : Nat} (h : Keeps d0 d) : Keeps d0 (d.raAck src) := h.update.put.raCheck
theorem Keeps.raSend {chip : Nat} {write : Bool} {addr data : Nat} (h : Keeps d0 d) :
    Keeps d0 (d.raSend chip write addr data) :=
  h.send

theorem Keeps.raStart {write : Bool} (h : Keeps d0 d) : Keeps d0 (d.raStart write) := by
  unfold Dev.raStart
  extract_lets addr data chip space off d1 d2 _ d3 own d4
  have h3 : Keeps d0 d3 := (h.put.put.when (·.put)).update
  split
  · exact h3.raEnd
  · refine .ite ?_ h3.raSend.raCheck
    have h4 : Keeps d0 d4 := h3.unless (·.raSend)
    split
    · next e =>
      have h5 : Keeps d0 _ := .ofPair e h4.raServe
      exact .ite h5.raFinish (h5.when (·.raAck))
    · next e => exact .ofPair e h4.raServe

theorem Keeps.raGo {write : Bool} (h : Keeps d0 d) : Keeps d0 (d.raGo write) := .ite h h.raStart
theorem Keeps.raCommand {timeout : Nat} {write : Bool} (h : Keeps d0 d) : Keeps d0 (d.raCommand timeout write) :=
  .ite h h.put.putB.raGo
theorem Keeps.regWrite {who : Requester} {addr v : Nat} {dma : Dma} (h : Keeps d0 d) :
    Keeps d0 (d.regWrite who addr v dma) :=
  .when h.writeAt (·.raGo)
theorem Keeps.postWrites (h : Keeps d0 d) : Keeps d0 d.postWrites := .foldl (fun _ _ h => h.regWrite) h.update

theorem Keeps.registerWrite {who : Requester} {off v : Nat} {dma : Dma} (h : Keeps d0 d) :
    Keeps d0 (d.registerWrite who off v dma) := by
  dsimp only [Dev.registerWrite]
  split
  · exact h
  · exact .postWrites (.regWrite (.ite h.touch h))

theorem Keeps.lowWrite {addr v : Nat} {dma : Dma} (h : Keeps d0 d) : Keeps d0 (d.lowWrite addr v dma) :=
  h.touch.share fun h => .ite h.update h.regWrite.postWrites
theorem Keeps.highWrite {addr v : Nat} {dma : Dma} (h : Keeps d0 d) : Keeps d0 (d.highWrite addr v dma) :=
  h.touch.update.regWrite.postWrites
theorem Keeps.raAnswer {dst seq code data : Nat} (h : Keeps d0 d) : Keeps d0 (d.raAnswer dst seq code data) := h.send

theorem Keeps.raReq {hdr : FabHdr} {seq : Nat} {write : Bool} {addr data : Nat} (h : Keeps d0 d) :
    Keeps d0 (d.raReq hdr seq write addr data) := by
  dsimp only [Dev.raReq]
  refine .ite h.fenceDrop.raAnswer (.ite h ?_)
  split
  · next e =>
    have h1 : Keeps d0 _ := .ofPair e h.update.raServe
    exact (h1.when (·.raGo)).raAnswer.postWrites
  · next e => exact .ofPair e h.update.raServe

theorem Keeps.raRsp {src seq code data : Nat} {authOk : Bool} (h : Keeps d0 d) : Keeps d0 (d.raRsp src seq code data authOk) := by
  dsimp only [Dev.raRsp]
  split
  · exact h
  · exact .ite h (.ite h.raise.raEnd (.ite (.ite h.raAck h) (.ite h.raFinish h)))

theorem Keeps.regRequest {a : Nat} {hdr : PortHdr} {write : Bool} {off v : Nat} {dma : Dma} (h : Keeps d0 d) :
    Keeps d0 (d.regRequest a hdr write off v dma) := by
  dsimp only [Dev.regRequest]
  split
  · next e => exact .ofPair e h.accepts7
  · next e =>
    have h : Keeps d0 _ := .ofPair e h.accepts7
    exact (Keeps.ite h.writeAt h.readAt).sendUp

theorem Keeps.regResponse {a : Nat} {hdr : PortHdr} {req code data : Nat} (h : Keeps d0 d) :
    Keeps d0 (d.regResponse a hdr req code data) := by
  dsimp only [Dev.regResponse]
  exact .receiveUp h (fun _ h => by
        split
        · exact h
        · exact h.update.share fun h => by split; exacts [h.raAnswer, by split; exacts [.ite (.when h (·.raAck)) h.raFinish, h]])

theorem Keeps.bar2 {write : Bool} {off k : Nat} {data : List Nat} {n : Nat} (h : Keeps d0 d) :
    Keeps d0 (d.bar2 write off k data n) :=
  .ite h (.ite (.ite h h.update) (.ite h.podStore h.podNumber.update))

/-! ### The functions of Machine/Move -/

theorem Keeps.regBytes {space : Nat} {rs : List Range} (h : Keeps d0 d) : Keeps d0 (d.regBytes space rs).1 := by
  induction rs generalizing d with
  | nil => exact h
  | cons r rs ih => exact ih (Keeps.ite h.readAt h.incE.update).update

theorem Keeps.regStore {who : Requester} {space : Nat} {rs : List Range} {bs : List Nat} (h : Keeps d0 d) :
    Keeps d0 (d.regStore who space rs bs) := by
  induction rs generalizing d bs with
  | nil => exact h
  | cons r rs ih => exact ih (.ite h.regWrite h.incE)

theorem Keeps.podBytes {a n : Nat} (h : Keeps d0 d) : Keeps d0 (d.podBytes a n).1 :=
  .iteFst (.updateFresh h (Nat.le_add_right _ _)) h.regBytes
theorem Keeps.podWrites {who : Requester} {a : Nat} {bs : List Nat} (h : Keeps d0 d) : Keeps d0 (d.podWrites who a bs) :=
  .ite h.podStore h.regStore.postWrites

theorem Keeps.moveRead {c : Nat} {b : MoveBody} {ss : List Segment} {got : List Nat} (h : Keeps d0 d) :
    Keeps d0 (d.moveRead c b ss got).1 := by
  induction ss generalizing d got with
  | nil => exact h
  | cons s ss ih => exact .iteFst (ih h) (ih (.iteFst h.podBytes h))

theorem Keeps.moveWrite {k : Nat} {b : MoveBody} {ws : List (Segment × List Nat)} (h : Keeps d0 d) :
    Keeps d0 (d.moveWrite k b ws) :=
  .foldl (fun _ _ h => .ite (.ite h.podWrites h.send) (.ite h.hostWrite h.ctxWrites)) h

theorem Keeps.freeSegs {ss : List Segment} (h : Keeps d0 d) : Keeps d0 (d.freeSegs ss).1 := by
  induction ss generalizing d with
  | nil => exact h
  | cons s ss ih => exact ih (h.updateFresh (Nat.le_add_right _ _))

theorem Keeps.markPages {c : Nat} {b : MoveBody} (h : Keeps d0 d) : Keeps d0 (d.markPages c b) := by
  dsimp only [Dev.markPages]
  exact .when (.ite (.foldl (fun _ _ h => by split; exacts [.ite h.setPage h, h]) h) h) (·.setPages)
theorem Keeps.moveCopy {k : Nat} {b : MoveBody} {ss : List Segment} {got : List Nat} (h : Keeps d0 d) :
    Keeps d0 (d.moveCopy k b ss got) :=
  .ite h (.moveWrite (.iteFst h.freeSegs h.moveRead))
theorem Keeps.moveEnd {k : Nat} {b : MoveBody} {cycles : Nat} (h : Keeps d0 d) : Keeps d0 (d.moveEnd k b cycles) :=
  h.markPages.bump.retire
theorem Keeps.moveRun {k : Nat} {b : MoveBody} {got : List Nat} {cycles : Nat} (h : Keeps d0 d) :
    Keeps d0 (d.moveRun k b got cycles) :=
  h.moveCopy.share fun h => .ite h.setThread h.moveEnd
theorem Keeps.moveFails {k : Nat} {b : MoveBody} {ss : List Segment} {got : List Nat} {code : Nat} (h : Keeps d0 d) :
    Keeps d0 (d.moveFails k b ss got code) :=
  h.moveCopy.share fun h => .ite h.setThread h.accessError

theorem Keeps.move {k cycles : Nat} {dma : Dma} (h : Keeps d0 d) : Keeps d0 (d.move k cycles dma) := by
  unfold Dev.move
  split
  · exact h
  · extract_lets t b
    split
    · exact h.descError
    · split
      · exact h.moveEnd
      · exact h.accessError
      · split
        · next e => exact Keeps.moveFails ((h.access).of_eq e)
        · next e => exact (h.access).of_eq e
        · next d1 e =>
          have h1 : Keeps d0 d1 := (h.access).of_eq e
          extract_lets d2
          have h2 : Keeps d0 d2 := h1.when (·.dmaRead)
          refine .ite h2.send.setThread ?_
          split
          · exact h2.moveFails
          · exact h2.moveRun

theorem Keeps.podRows {a len stride n : Nat} (h : Keeps d0 d) : Keeps d0 (d.podRows a len stride n).1 := by
  induction n generalizing d a with
  | zero => exact h
  | succ n ih => exact ih h.podBytes

theorem Keeps.moveData {src : BitVec 16} {x1 : MoveMsg} (h : Keeps d0 d) : Keeps d0 (d.moveData src x1) := by
  dsimp only [Dev.moveData]
  split
  · exact .send (.ite h h.podWrites)
  · exact .ite h.send h.podRows.send
  · split; exacts [.ite h (.ite h.incU h.setThread), h.incU]

/-! ### The functions of Machine/Idle -/

theorem Keeps.runClocks (h : Keeps d0 d) : Keeps d0 d.runClocks := h.update
theorem Keeps.countCycles {holds : Bool} {c : Fld} (h : Keeps d0 d) : Keeps d0 (d.countCycles holds c) := .ite h.addU h
theorem Keeps.countHub (h : Keeps d0 d) : Keeps d0 d.countHub :=
  .ite h (.foldl (fun _ _ h => h.countCycles) h.countCycles.countCycles)
theorem Keeps.countAgents (h : Keeps d0 d) : Keeps d0 d.countAgents := .foldl (fun _ _ h => h.countCycles.countCycles) h
theorem Keeps.idle (h : Keeps d0 d) : Keeps d0 d.idle := h.runClocks.countHub.countAgents.settle

/-! ### What every step keeps -/

/-- An outcome is a next state with the same queue and a device that is kept. -/
def Runs (s : State) (o : Host.Outcome State Fault Refusal) : Prop :=
  ∃ d, o = .next { s with dev := d } ∧ Keeps s.dev d

theorem Runs.next {s : State} (h : Keeps s.dev d) : Runs s (.next { s with dev := d }) := ⟨d, rfl, h⟩

theorem Runs.keeps {s s' : State} {o : Host.Outcome State Fault Refusal} (h : Runs s o) (e : o = .next s') :
    Keeps s.dev s'.dev ∧ s'.pending = s.pending := by
  obtain ⟨d, rfl, k⟩ := h
  cases e
  exact ⟨k, rfl⟩

/-- Every command answers a next state with a device that is kept: one line per command, which names what its meaning calls. -/
theorem exec_runs (c : Instr) (s : State) : Runs s (exec c s) := by
  have h := Keeps.refl s.dev
  cases c with
  | registerWrite => exact .next h.registerWrite
  | accessError => exact .next h.badAccess
  | lowHalfRead => exact .next (.ite h.bellRead h.hostRead)
  | lowHalfWrite => exact .next h.lowWrite
  | highHalfWrite => exact .next h.highWrite
  | timestampLatch => exact .next h.readAt
  | pageEnable => exact .next h.pageEnable
  | pageDisable => exact .next h.pageDisable
  | resetReq => exact .next h.resetReq
  | drainIdle => exact .next h.drainIdle
  | drainLimit => exact .next h.drainLimit.hubEcc
  | fltClear => exact .next (.ite h.clearFaults (.ifWritable h (fun _ h => h.fltClear)))
  | fltForce => exact .next (.ifWritable h (fun _ h => h.fltForce))
  | snap => exact .next (.ifWritable h (fun _ h => .ite h h.snapPage))
  | cntClear => exact .next (.ifWritable h (fun _ h => by split; exacts [h.cntWrite, h]))
  | raRead => exact .next h.raCommand
  | raWrite => exact .next h.raCommand
  | raReq => exact .next h.raReq
  | raRsp => exact .next (.ingress h (fun _ h => h.raRsp))
  | raTimeout => exact .next (.ite h.raEnd h)
  | bar2Access => exact .next h.bar2
  | feedLost => exact .next h.feedLost.postWrites
  | feedAboveThreshold => exact .next (.ite h.put h)
  | feedBelowThreshold => exact .next (.ite h.put.feedsCheck h)
  | returnHold => exact .next h.returnHold
  | rearm => exact .next h.rearm
  | limiterWindow => exact .next h.limiterWindow
  | overEnvelope => exact .next h.overEnvelope
  | burstEnd => exact .next h.update
  | powerOn => exact .next h.powerOn
  | powerGood => exact .next h.powerGood
  | pmbusPoll => exact .next h.pmbusPoll
  | powerLoss => exact .next h.powerLoss
  | vddqLow => exact .next h.vddqLow
  | thermalSample => exact .next h.thermalSample
  | idleEnter => exact .next (.ite h.idleEnter h)
  | idleEntryDone => exact .next h.idleEntered
  | wakeCmp => exact .next h.wakeCmp
  | wakePin => exact .next (.ite h.wakeBy h)
  | i3cWake => exact .next h.wakeBy
  | perstAssert => exact .next h.hostRestart.update
  | perstDeassert => exact .next h.update
  | hotReset => exact .next h.hostRestart
  | functionReset => exact .next h.hostRestart
  | linkTrained => exact .next h.linkTrained
  | fwlGo => exact .next h.fwlGo
  | fwlAbort => exact .next h.fwlAbort
  | fwlFetchDone => exact .next h.fetchDone
  | verifyDone => exact .next h.verifyDone
  | startTests => exact .next h.startTests
  | packWait => exact .next h.packWait
  | testsDone => exact .next h.testsDone
  | ddrTrained => exact .next h.ddrStage
  | signalDetect => exact .next h.signalDetect
  | trainingPhaseTimeout => exact .next h.attemptFails.startDiscovery
  | trainingAttemptEnd => exact .next h.attemptEnd.startDiscovery
  | laneSilent => exact .next h.laneSilent.startDiscovery
  | linkDown => exact .next h.linkDown
  | discWait => exact .next h.discWait
  | timeStageEnd => exact .next h.timeStage
  | bootResume => exact .next h.resumeBoot
  | rollbackAdvance => exact .next h.rollback
  | attestGo => exact .next h.attestGo
  | attestDone => exact .next h.attestDone
  | coreFail => exact .next h.coreFail
  | switchInDone => exact .next h.switchInDone
  | ctxCreate => exact .next (.hostCtx h (fun _ h => h.ctxCreate))
  | ctxEnable => exact .next (.hostCtx h (fun _ h => h.ctxEnable))
  | ctxDisable => exact .next (.hostCtx h (fun _ h => h.ctxDisable))
  | ctxErrClear => exact .next (.hostCtx h (fun _ h => h.ctxErrClear))
  | ctxDestroy => exact .next (.hostCtx h (fun _ h => h.ctxDestroy))
  | ctxConfigWrite => exact .next (.hostCtx h (fun _ h => h.ctxConfig))
  | ctxDrainEnd => exact .next h.ctxDrainEnd
  | quarantineEnd => exact .next h.quarantineEnd
  | requestAbandon => exact .next h.abandonRequests
  | doorbell => exact .next (.ite h.doorbell h)
  | commandDispatch => exact .next h.dispatch
  | commandEnd => exact .next h.commandEnd
  | mat => exact .next (.ite h.sramUpset.tileMat h.sramUpset.mat)
  | chain => exact .next h.vecUpset.chain
  | red => exact .next h.redUpset.red
  | move => exact .next h.move
  | check => exact .next (.ite h.tileCheck h.checkLost)
  | wait => exact .next h.wait
  | signal => exact .next h.signal
  | waitTimeout => exact .next h.waitTimeout
  | threadIssue => exact .next (.ite h.dispatchTile h.issueThread)
  | preempt => exact .next h.preempt
  | holdOverrun => exact .next h.raise
  | pageFill => exact .next h.pageFill
  | reserveWrite => exact .next (.ifWritable h (fun _ h => h.reserveWrite))
  | ftqEntryFree => exact .next h.ftqEntryFree
  | profSelWrite => exact .next h.profSelect
  | profW0Write => exact .next h.profStage
  | profInstall => exact .next h.profInstall
  | coefDataWrite => exact .next (.ifWritable h (fun _ h => h.coefData))
  | coefCommit => exact .next (.ifWritable h (fun _ h => h.coefCommit))
  | coefInvalidate => exact .next (.ifWritable h (fun _ h => h.coefInvalidate))
  | invalidationDone => exact .next h.invalidationDone
  | tileTap => exact .next h.tileTap
  | stepEnd => exact .next h.stepEnd
  | updateDone => exact .next h.signalIn
  | holdAck => exact .next h.signalIn
  | copyDone => exact .next h.signalIn
  | cmdStart => exact .next h.cmdStart
  | cmdEnd => exact .next h.cmdEnd
  | accFault => exact .next h.agentRaise
  | progressPulse => exact .next h.onAgent
  | agentEngineHang => exact .next h.agentHang
  | cutAbandon => exact .next h.cutAbandon
  | retransmit => exact .next h.retransmit
  | portLost => exact .next h.portLost
  | agentTimeHoldover => exact .next h.onAgent.put.put.agentRaise
  | rearmTime => exact .next (.ifWritable h (fun _ h => h.onAgent))
  | aprofLock => exact .next (.ifWritable h (fun _ h => h.aprofLock))
  | agentReset => exact .next h.agentReset
  | agentFence => exact .next (.ifWritable h (fun _ h => h.agentFence))
  | markMissing => exact .next h.markMissing
  | job => exact .next h.receiveDown
  | endJob => exact .next h.receiveDown
  | commit => exact .next h.receiveDown
  | replay => exact .next h.receiveDown
  | cut => exact .next h.receiveDown
  | pull => exact .next h.pullMsg
  | restore => exact .next h.receiveDown
  | shard => exact .next h.receiveDown
  | resume => exact .next h.receiveDown
  | resid => exact .next h.receiveDown
  | timeMsg =>
    refine .next ?_
    split
    · next e => exact Keeps.agentTimeIn (.ofPair e h.accepts7)
    · next e => exact .ofPair e h.accepts7
  | regRequest => exact .next h.regRequest
  | regResponse => exact .next h.regResponse
  | xput => exact .next h.receiveDown
  | ack => exact .next h.ackMsg.settle
  | mark => exact .next h.markMsg.settle
  | tile => exact .next h.tileMsg.settle
  | opnd => exact .next h.opndMsg.settle
  | cutack => exact .next h.cutAckMsg.settle
  | digest => exact .next h.digestMsg.settle
  | shardUp => exact .next h.shardMsg.settle
  | fault => exact .next h.faultMsg.settle
  | decl => exact .next h.declMsg.settle
  | xrdy => exact .next h.xrdyMsg.settle
  | verdictOverdue => exact .next h.verdictOverdue
  | hashes => exact .next (.jobMsg h (fun _ _ h => h.hashesIn))
  | steprep => exact .next (.jobMsg h (fun _ _ h => h.stepRep))
  | stepdecCommit => exact .next (.jobMsg h (fun _ _ h => h.decCommit))
  | stepdecReplay => exact .next (.jobMsg h (fun _ _ h => h.decReplay))
  | stepdecAbandon => exact .next (.jobMsg h (fun _ _ h => h.decAbandon))
  | vlogRead => exact .next h.vlogRead
  | flowRead => exact .next h.flowRead
  | cutreq => exact .next (.onceMsg h (fun _ _ h => h.cutBegin))
  | cutWait => exact .next h.cutWait.settle
  | cutrep => exact .next (.onceMsg h (fun _ _ h => h.cutRep))
  | stripe => exact .next (.settle (.ingress h (fun _ h => by split; exacts [h.stripeIn, h.stripeStore])))
  | stripeack => exact .next (.jobMsg h (fun _ _ h => h.stripeAck))
  | extentComplete => exact .next (.jobMsg h (fun _ _ h => h.extentIn))
  | genrep => exact .next (.onceMsg h (fun _ _ h => h.genRep))
  | gencommit => exact .next (.onceMsg h (fun _ _ h => h.genSeen))
  | gencommitDiscard => exact .next (.onceMsg h (fun _ _ h => h.genAbort))
  | mirror => exact .next (.settle (.ingress h (fun _ h => h.mirrorMsg)))
  | mirrorAck => exact .next (.ingress h (fun _ h => h.mirrorAck))
  | mirrorLost => exact .next h.mirrorLost
  | pin => exact .next (.ingress h (fun _ h => h.stepSeen.pinIn))
  | restreq => exact .next (.onceMsg h (fun _ _ h => h.restReq))
  | restdone => exact .next (.onceMsg h (fun _ _ h => h.restDone))
  | restcommit => exact .next (.onceMsg h (fun _ _ h => h.restEnd))
  | crecRead => exact .next h.crecRead
  | flit => exact .next h.flit
  | nak => exact .next h.incU.takeAck.replayFlits
  | hello => exact .next h.hello
  | helloSend => exact .next (.foldl (fun _ _ h => h.agentHello) (.foldl (fun _ _ h => h.sendHello) h))
  | keyx => exact .next h.keyx
  | rekey => exact .next h.rekey
  | forward => exact .next h.forward
  | load => exact .next h.loadIn
  | loadSend => exact .next h.loadSend
  | moveData => exact .next (.ingress h (fun _ h => h.moveData))
  | portRetrain => exact .next (.ifWritable h (fun _ h => h.retrain))
  | portLoopback => exact .next (.ifWritable h (fun _ h => h.loopback))
  | hb => exact .next (.settle (.ingress h (fun _ h => .ite h.hbIn h)))
  | hbSend => exact .next h.hbSend.settle
  | ghb => exact .next (.settle (.ite h.ghbIn (.ingress h (fun _ h => h.ghbIn))))
  | ghbSend => exact .next h.ghbSend.settle
  | suspect => exact .next h.suspect.settle
  | rackSuspect => exact .next h.suspectRack.settle
  | viewMismatch => exact .next h.viewMismatch.settle
  | viewreq => exact .next (.settle (.ingress h (fun _ h => .ite h.send h)))
  | view => exact .next (.settle (.ite (.ingress h (fun _ h => h.viewIn)) h.viewIn))
  | propose => exact .next (.settle (.ite (.ite h.vote h) (.ingress h (fun _ h => .ite h.vote h))))
  | vote => exact .next (.settle (.ite h.voteIn (.ingress h (fun _ h => h.voteIn))))
  | decide => exact .next (.settle (.ite h.decideIn (.ingress h (fun _ h => h.decideIn))))
  | clauseTimeout => exact .next h.clauseTimeout.settle
  | backoffEnd => exact .next h.onMbr.settle
  | joinreq => exact .next h.joinReq.settle
  | joinreqSend => exact .next h.joinSend.settle
  | foundingTimeout => exact .next h.foundingTimeout.settle
  | fenced => exact .next (.ingress h (fun _ h => .ite h.fenceSelf h))
  | isolation => exact .next (.ite h.fenceSelf h)
  | withdrawRequest => exact .next h.withdrawRequest.settle
  | withdraw => exact .next (.settle (.ingress h (fun _ h => .ite h.onMbr h)))
  | rejoin => exact .next h.rejoin.settle
  | holdoffEnd => exact .next h.holdoffEnd.settle
  | evidence => exact .next (.settle (.ingress h (fun _ h => .ite h.onMbr h)))
  | jobStall => exact .next h.jobStall.settle
  | stepTreeStall => exact .next h.treeStall.settle
  | agentPortTimeout => exact .next h.portTimeout.settle
  | jobSubmit => exact .next h.jobSubmit.settle
  | jobEndRequest => exact .next h.jobEndRequest.settle
  | jobstart => exact .next (.settle (.ingress h (fun _ h => h.jobStart)))
  | joback => exact .next (.settle (.ingress h (fun _ h => h.jobAck)))
  | jobgo => exact .next (.settle (.ingress h (fun _ h => .withStart h (fun _ => h.startGo))))
  | jobgoAbort => exact .next (.settle (.ingress h (fun _ h => .withStart h (fun _ => h.startAbort))))
  | reparent => exact .next (.settle (.ingress h (fun _ h => h.reparent)))
  | jobend => exact .next (.settle (.ingress h (fun _ h => .withStart h (fun _ => .ite h.jobEnd h))))
  | jobackTimeout => exact .next h.jobAckLate.settle
  | orphanTimeout => exact .next h.orphan.settle
  | startTimeout => exact .next h.startTimeout.settle
  | hazard => exact .next (.settle (.ingress h (fun _ h => h.hazardIn)))
  | hazardSend => exact .next h.hazardSend.settle
  | healthDecay => exact .next h.healthDecay.settle
  | adoptPrepare => exact .next (.settle (.adoptOnce h (fun _ h => h.prepare)))
  | adoptCommit => exact .next (.settle (.adoptOnce h (fun _ h => h.adoptCommit)))
  | adoptCancel => exact .next (.settle (.adoptOnce h (fun _ h => h.adoptCancel)))
  | adoptack => exact .next (.settle (.ingress h (fun _ h => h.adoptAckIn)))
  | spareReady => exact .next h.spareReady.settle
  | adoptWait => exact .next h.adoptWait.settle
  | appoLoad => exact .next h.appoLoad.settle
  | progWait => exact .next h.progWait.settle
  | standinStepEnd => exact .next h.standMark.settle
  | standinUpdateEnd => exact .next h.updateEnd.settle
  | xrelay => exact .next (.settle (.ingress h (fun _ h => h.relayIn)))
  | handover => exact .next (.settle (.ingress h (fun _ h => .ite h.handoverWord h.handoverIn)))
  | drillTime => exact .next h.drillTime.settle
  | drillLen => exact .next h.drillLen.settle
  | epochPulse => exact .next h.epochPulse
  | epochMissing => exact .next h.epochMissing
  | rackTimeFrame => exact .next h.rackTimeFrame
  | rackTimeFault => exact .next (.ite h.raise h)
  | rackFrameTimeout => exact .next h.rackFrameTimeout
  | syncTimeout => exact .next h.syncTimeout
  | sync => exact .next h.sync
  | syncSend => exact .next h.syncSend
  | pdelaySend => exact .next (.foldl (fun _ _ h => h.sendTimeFrame) h)
  | pdelayReq => exact .next h.pdelayReq
  | pdelayResp => exact .next h.pdelayResp
  | announce => exact .next h.announce
  | holdover => exact .next h.holdover
  | refMissing => exact .next h.put.put.raise
  | refReturn => exact .next h.refReturn
  | timeRearm => exact .next h.onClock
  | agentTimeSend => exact .next h.agentTimeSend
  | tenseOverrun => exact .next h.tenseOverrun
  | testSlot => exact .next h.testSlot
  | pulseArm => exact .next h.pulseArm
  | pulseFire => exact .next h.pulseFire
  | pulseEnd => exact .next h.pulseEnd
  | captureEdge => exact .next h.captureEdge
  | captureRead => exact .next h.captureRead
  | fltRelease => exact .next h.fltRelease.settle.hubEcc
  | engineHang => exact .next h.engineHang
  | hubWatchdog => exact .next h.raise.hubEcc
  | bridgeFail => exact .next h.raise.hubEcc
  | clkFault => exact .next h.raise
  | autoReset => exact .next h.autoReset
  | partitionResetDone => exact .next h.partitionResetDone
  | tileReset => exact .next h.tileReset
  | partitionRetire => exact .next h.partOut
  | twoOutWait => exact .next h.twoOutWait
  | suspectRunEnd => exact .next h.suspectRunEnd
  | replayMs => exact .next (.ite h.suspectVerdict h)
  | vfDisable => exact .next h.vfDisable
  | vfFlr => exact .next h.vfTeardown
  | coreSelftestDone => exact .next h.coreSelftest.postWrites
  | coreResyncDone => exact .next h.coreResync
  | comparatorCopy => exact .next (.postWrites (.ite h.pairCopy h.raise))
  | singleCopy => exact .next h.singleCopy.postWrites
  | takeover => exact .next h.takeoverRow.postWrites
  | pairSelftestDone => exact .next h.pairSelftest.postWrites
  | coreOffline => exact .next h.coreOffline.postWrites
  | coreRetry => exact .next h.coreRetry
  | standbySlice => exact .next h.standbySlice.postWrites
  | cmpHeld => exact .next (.ite h h.raise)
  | snapNow => exact .next h.snapAll
  | snapTime => exact .next h.snapTime
  | eventUpdate => exact .next h.eventUpdate
  | tokenAdd => exact .next h.tokenAdd
  | evrHold => exact .next h.evrHold
  | evrHoldExpire => exact .next h.evrRelease
  | evrClear => exact .next h.evrClear
  | evrCurWrite => exact .next h.evrRelease.put
  | evrAdvance => exact .next h.evrAdvance
  | globalStop => exact .next h.stopTrigger
  | stopPin => exact .next (.ite h.stopTrigger h)
  | stopResume => exact .next h.stopResume
  | scanSelect => exact .next h.scanSelect
  | scanRead => exact .next h.scanRead
  | kscanSel => exact .next h.kscanSel
  | kscanData => exact .next h.kscanData
  | extest => exact .next h.tapIr.update
  | idcode => exact .next h.tapIr.emit
  | samplePreload => exact .next h.tapIr.tick.update.emit
  | bypass => exact .next h.tapIr.emit
  | tapReset => exact .next h.update
  | packPush => exact .next h.packPush
  | packDiscard => exact .next h.packDiscard
  | pack => exact .next (.ingress h (fun _ h => h.packChunkIn))
  | packack => exact .next (.ingress h (fun _ h => h.packAck))
  | packResend => exact .next h.packResend
  | planStart => exact .next (.ite h.planStart h)
  | planNow => exact .next h.planStart
  | planComplete => exact .next h.planComplete
  | planLate => exact .next h.planLate
  | monitorSample => exact .next h.monitorSample
  | nrgRead => exact .next h.nrgRead
  | progRead => exact .next h.progRead
  | i3cRead => exact .next h.emit
  | entdaa => exact .next (.ite h.update h)
  | setdasa => exact .next (.ite h.update h)
  | rstdaa => exact .next h.update
  | getpid => exact .next h.emit
  | getbcr => exact .next h.emit
  | getdcr => exact .next h.emit
  | getstatus => exact .next h.emit.tick
  | drainReportRead => exact .next h.drainRead
  | pinAck => exact .next (.settle (.ingress h (fun _ h => h.pinAck)))
  | agentResetTimeout => exact .next (.ite h h.raise)

theorem step_of_cons {s : State} {c : Instr} {q : List Instr} (h : s.pending = c :: q) :
    step s = exec c { s with pending := q } := by
  unfold step
  rw [h]

theorem step_of_nil {s : State} (h : s.pending = []) : step s = .next { s with dev := s.dev.idle } := by
  unfold step
  rw [h]

/-- What every step keeps, whichever command runs or none: the device as `Keeps` says, and of the queue what waits behind the command
that ran. -/
theorem step_keeps {s s' : State} (h : step s = .next s') : Keeps s.dev s'.dev ∧ s'.pending = s.pending.tail := by
  cases hq : s.pending with
  | nil =>
    obtain ⟨hdev, hpending⟩ := (Runs.next (Keeps.refl s.dev).idle).keeps ((step_of_nil hq).symm.trans h)
    exact ⟨hdev, hpending.trans hq⟩
  | cons c q => exact (exec_runs c { s with pending := q }).keeps ((step_of_cons hq).symm.trans h)

/-- The table's canonical form as the statements say it and as `Keeps` does. -/
theorem Dev.regsWf_eq_above (d : Dev) : d.regsWf = Tab.above 0 d.regs := by
  suffices h : ∀ (t : Tab Nat) (lo k v : Nat), lo ≤ k →
      (((k, v) :: t).zip t).all (fun e => decide (e.1.1 < e.2.1)) = Tab.above lo ((k, v) :: t) by
    unfold Dev.regsWf
    cases d.regs with
    | nil => rfl
    | cons e t => exact h t 0 e.1 e.2 (Nat.zero_le _)
  intro t
  induction t with
  | nil => intro lo k v h; simp [Tab.above, h]
  | cons e t ih =>
    intro lo k v h
    by_cases hk : k < e.1
    · rw [List.zip_cons_cons, List.all_cons, ih (k + 1) e.1 e.2 hk]
      simp [Tab.above, h, hk]
    · simp [Tab.above, h, hk, Nat.not_le.mpr (Nat.lt_succ_of_le (Nat.not_lt.mp hk))]

end Sys2Proof.Machine

namespace Sys2Proof.Proofs

open Sys2Proof Sys2Proof.Machine

/-- Settles O9: what has left is one of the things that every step keeps. -/
theorem whatLeftTheBlockStaysSent : Obligations.WhatLeftTheBlockStaysSent := by
  unfold Obligations.WhatLeftTheBlockStaysSent
  intro s s' h
  exact (step_keeps h).1.out

/-- Settles O10: the counter of free values is one of the things that every step keeps. -/
theorem freeValuesAreNeverReused : Obligations.FreeValuesAreNeverReused := by
  unfold Obligations.FreeValuesAreNeverReused
  intro s s' h
  exact (step_keeps h).1.fresh

/-- Settles O11: registers are written through `Dev.put` and dropped by a filter, and both keep the table's keys rising. -/
theorem registersStayCanonical : Obligations.RegistersStayCanonical := by
  unfold Obligations.RegistersStayCanonical
  intro s s' hs h
  rw [Dev.regsWf_eq_above] at hs ⊢
  exact (step_keeps h).1.regs hs

/-- Settles O5: a step takes the front command off the queue and adds none. -/
theorem queueStaysWellFormed : Obligations.QueueStaysWellFormed := by
  unfold Obligations.QueueStaysWellFormed
  intro s s' hs h
  simp only [State.queueWf, wfQueue, List.all_eq_true] at hs ⊢
  rw [(step_keeps h).2]
  exact fun c hc => hs c (List.mem_of_mem_tail hc)

/-- Settles O6: the state after reset, evaluated. -/
theorem resetIsSound : Obligations.ResetIsSound := by
  unfold Obligations.ResetIsSound
  decide

end Sys2Proof.Proofs

namespace Sys2Proof.Machine

/-- A command whose effect on the device is known leads to the state with that device. -/
theorem State.next_withDev {s : State} {d e : Dev} (h : d = e) :
    (.next { s with dev := d } : Host.Outcome State Fault Refusal) = .next (s.withDev e) :=
  h ▸ rfl

/-! ### Counters (R37) -/

theorem Dev.incE_of_below {d : Dev} {c : Fld} (h : d.get c < 2 ^ 32 - 1) : d.incE c = d.put c (d.get c + 1) := by
  have hv : d.get c % 2 ^ 32 ≠ 0xFFFFFFFF := by omega
  unfold Dev.incE
  rw [if_neg hv]

/-- The first lost increment sets sat and is an event. -/
theorem Dev.incE_at_limit {d : Dev} {c : Fld} (h : d.get c = 0xFFFFFFFF) :
    d.incE c = (d.put c (2 ^ 63 + 0xFFFFFFFF)).event (c.page * 64 + 48 + c.slot) 0 := by
  simp [Dev.incE, h, bitAt]

theorem Dev.incE_sat {d : Dev} {c : Fld} (h : d.get c = 2 ^ 63 + 0xFFFFFFFF) : d.incE c = d := by
  simp [Dev.incE, h, bitAt]

theorem Dev.get_incE_of_below {d : Dev} {c : Fld} (hw : c.w = 64) (h : d.get c < 2 ^ 32 - 1) : (d.incE c).get c = d.get c + 1 := by
  rw [Dev.incE_of_below h, Dev.get_put_self, hw]
  omega

theorem Dev.get_addU (d : Dev) (c : Fld) (n : Nat) : (d.addU c n).get c = (d.get c + n) % 2 ^ c.w :=
  Dev.get_put_self d c _

end Sys2Proof.Machine

namespace Sys2Proof.Proofs

open Sys2Proof Sys2Proof.Machine

/-- Settles O32: an access that is misaligned or of another size takes the second branch of `Dev.badAccess`, whose counter is below its
limit. -/
theorem accessError : Obligations.AccessError := by
  unfold Obligations.AccessError
  refine ⟨fun isWrite off size s h => ?_, fun d h _ => Dev.get_incE_of_below rfl h⟩
  exact State.next_withDev (if_neg h)

end Sys2Proof.Proofs

namespace Sys2Proof.Machine

/-! ### Pages that take writes, and their counters (R21, R30, R34, R37) -/

theorem Dev.pageOut_of_not_inReset {d : Dev} {pg : Nat} (h : d.pageInReset pg = false) : d.pageOut pg = false :=
  (Bool.or_eq_false_iff.mp h).2

theorem Dev.ifWritable_open {d : Dev} {pg : Nat} (ht : d.pageThere pg = true) (hr : d.pageInReset pg = false) (f : Dev → Dev) :
    d.ifWritable pg f = f d := by
  simp [Dev.ifWritable, ht, hr, Dev.pageOut_of_not_inReset hr]

theorem Dev.ifWritable_inReset {d : Dev} {pg : Nat} (hr : d.pageInReset pg = true) (hk : keepsThroughReset pg = false) (f : Dev → Dev) :
    d.ifWritable pg f = d := by
  simp [Dev.ifWritable, hr, hk]

/-- A write that changes nothing where the page takes it changes nothing at all. -/
theorem Dev.ifWritable_id {d : Dev} {pg : Nat} {f : Dev → Dev} (h : f d = d) : d.ifWritable pg f = d := by
  unfold Dev.ifWritable
  rw [h, ite_self]

theorem Dev.cntWrite_error {d : Dev} {pg k : Nat} {b : Block} (he : (errorSlots b).contains k = true) (hk : k < nCnt b) :
    d.cntWrite pg k (2 ^ 63) b = d.put ⟨pg * 0x1000 + 0x88 + 8 * k, 0, 64, 0⟩ 0 :=
  if_pos ⟨rfl, he, hk⟩

theorem Dev.cntWrite_utilisation {d : Dev} {pg k v : Nat} {b : Block} (he : (errorSlots b).contains k = false) :
    d.cntWrite pg k v b = d :=
  if_neg fun h => Bool.false_ne_true (he.symm.trans h.2.1)

theorem Dev.snapTime_armed {d : Dev} (ha : d.flag Reg.DBG_SNAP_CTRL_arm = true) (ht : timeOfStamp (d.get Reg.DBG_SNAP_T_t) ≤ d.time) :
    d.snapTime = (d.put Reg.DBG_SNAP_CTRL_arm 0).snapAll :=
  if_pos ⟨ha, ht⟩

theorem Dev.snapTime_unarmed {d : Dev} (ha : d.flag Reg.DBG_SNAP_CTRL_arm = false) : d.snapTime = d :=
  if_neg fun h => absurd h.1 (by simp [ha])

end Sys2Proof.Machine

namespace Sys2Proof.Proofs

open Sys2Proof Sys2Proof.Machine

/-- Settles O35: a snapshot and a clear go where the page takes writes; the counters by the equations of `Dev.addU` and `Dev.incE`; the
reads that latch are their definitions. -/
theorem countersAndSnapshots : Obligations.CountersAndSnapshots := by
  unfold Obligations.CountersAndSnapshots
  refine ⟨fun pg b s ht hr hb hf => ?snap, fun pg s hr hk => ?snapInReset, fun pg slot b s hb he hk ht hr => ?clearError,
    fun pg slot b s hb he => ?clearUtilisation, fun d c n hw _ => hw ▸ d.get_addU c n, fun d c h => Dev.incE_at_limit h,
    fun d c h => Dev.incE_sat h, fun s => rfl, fun s ha ht => ?snapTime, fun s ha => ?noSnapTime, fun s => rfl, fun s => rfl⟩
  case snap => exact State.next_withDev ((Dev.ifWritable_open ht hr _).trans (by simp only [hb, Option.map_some, Option.getD_some, hf]; rfl))
  case snapInReset => exact State.next_withDev (Dev.ifWritable_inReset hr hk _)
  case clearError => exact State.next_withDev ((Dev.ifWritable_open ht hr _).trans (by simp only [hb, Dev.cntWrite_error he hk]))
  case clearUtilisation => exact State.next_withDev (Dev.ifWritable_id (by simp only [hb, Dev.cntWrite_utilisation he]))
  case snapTime => exact State.next_withDev (Dev.snapTime_armed ha ht)
  case noSnapTime => exact State.next_withDev (Dev.snapTime_unarmed ha)

end Sys2Proof.Proofs

namespace Sys2Proof.Machine

/-! ### Absent pages (R21) -/

theorem Dev.pageThere_of_absent {pg : Nat} (h : pageBlock pg = none) (d : Dev) : d.pageThere pg = false := by
  simp [Dev.pageThere, h]

theorem Dev.exists_block_of_pageThere {d : Dev} {pg : Nat} (h : d.pageThere pg = true) : ∃ b, pageBlock pg = some b := by
  rw [Dev.pageThere, Bool.and_eq_true] at h
  exact Option.isSome_iff_exists.mp h.1

theorem Dev.readWord_absent {addr : Nat} (h : pageBlock (addr / 0x1000) = none) (d : Dev) : d.readWord addr = 0 := by
  simp [Dev.readWord, h]

theorem Dev.readAt_absent {addr : Nat} (h : pageBlock (addr / 0x1000) = none) (d : Dev) :
    d.readAt addr = { d with rdata := 0 } := by
  simp [Dev.readAt, Dev.pageThere_of_absent h, Dev.readWord_absent h]

theorem Dev.writeAt_absent {addr : Nat} (h : pageBlock (addr / 0x1000) = none) (d : Dev) (who : Requester) (v : Nat) (dma : Dma) :
    d.writeAt who addr v dma = d := by
  simp [Dev.writeAt, h]

/-- Block type 0 is never assigned, and a type fits PAGE_ID's 16 bits. -/
theorem blockType_pos_lt (b : Block) (inst : Nat) : 0 < blockType b inst ∧ blockType b inst < 2 ^ 16 := by
  cases b with
  | port => unfold blockType; split_ifs <;> decide
  | _ => exact ⟨Nat.le_of_ble_eq_true rfl, Nat.le_of_ble_eq_true rfl⟩

theorem Dev.headerWord_zero_mod_ne_zero (d : Dev) (pg : Nat) (b : Block) : d.headerWord pg b 0 % 2 ^ 64 ≠ 0 := by
  obtain ⟨hpos, hlt⟩ := blockType_pos_lt b (pageInstance pg)
  simp only [Dev.headerWord, pack, if_true, List.foldl_cons, List.foldl_nil]
  omega

/-- PAGE_ID reads as the header's first word on a page that is there. -/
theorem Dev.readWord_pageId {d : Dev} {pg : Nat} {b : Block} (hb : pageBlock pg = some b) (h : d.pageThere pg = true) :
    d.readWord (pg * 0x1000) = d.headerWord pg b 0 % 2 ^ 64 := by
  simp [Dev.readWord, hb, h, Dev.commonWord]

end Sys2Proof.Machine

namespace Sys2Proof.Proofs

open Sys2Proof Sys2Proof.Machine

/-- Settles O31: an absent page has no block, which is what reads and writes ask first; the type of a page that is there makes the upper
bits of its PAGE_ID nonzero. -/
theorem absentPages : Obligations.AbsentPages := by
  unfold Obligations.AbsentPages
  refine ⟨fun _ d h => d.readWord_absent h, fun _ d h => d.readAt_absent h, fun who _ v dma d h => d.writeAt_absent h who v dma,
    fun pg d _ h => ?_, fun pg b _ => (blockType_pos_lt b (pageInstance pg)).1.ne'⟩
  obtain ⟨b, hb⟩ := Dev.exists_block_of_pageThere h
  rw [Dev.readWord_pageId hb h]
  exact d.headerWord_zero_mod_ne_zero pg b

end Sys2Proof.Proofs

namespace Sys2Proof.Machine

/-! ### Enabling, disabling, drains and reset requests (R26, R28, R375, R382 to R384) -/

theorem Dev.pageEnable_idle {d : Dev} {pg : Nat} (ht : d.pageThere pg = true) (hr : d.pageInReset pg = false)
    (hd : Tab.find pg d.drains = none) (ho : d.pageOn pg = false) : d.pageEnable pg = d.pageOnNow pg := by
  simp [Dev.pageEnable, ht, hr, hd, ho]

/-- Enable is held while the block drains. -/
theorem Dev.pageEnable_draining {d : Dev} {pg : Nat} {x : DrainSt} (ht : d.pageThere pg = true) (hr : d.pageInReset pg = false)
    (hd : Tab.find pg d.drains = some x) :
    d.pageEnable pg = { d with drains := Tab.insert pg { x with reenable := true } (Tab.erase pg d.drains) } := by
  simp [Dev.pageEnable, ht, hr, hd]

theorem Dev.pageEnable_inReset {d : Dev} {pg : Nat} (hr : d.pageInReset pg = true) : d.pageEnable pg = d := by
  simp [Dev.pageEnable, hr]

theorem Dev.pageDisable_idle {d : Dev} {pg : Nat} {b : Block} (hb : pageBlock pg = some b) (ht : d.pageThere pg = true)
    (hr : d.pageInReset pg = false) (hj : d.jobAdmitted = false) (hf : b ≠ .vfInfo ∧ b ≠ .vfCtx ∧ b ≠ .vfDb)
    (hd : Tab.find pg d.drains = none) (ho : d.pageOn pg = true) : d.pageDisable pg = d.pageOffNow pg b := by
  simp [Dev.pageDisable, hb, ht, hr, hj, hf, hd, ho]

theorem Dev.pageDisable_keptForJobs {d : Dev} {pg : Nat} {b : Block} (hb : pageBlock pg = some b) (hk : keptForJobs b = true)
    (hj : d.jobAdmitted = true) : d.pageDisable pg = d := by
  simp [Dev.pageDisable, hb, hk, hj]

theorem Dev.drainIdle_over {d : Dev} {pg : Nat} {x : DrainSt} (hp : pageBlock pg ≠ some .port) (hd : Tab.find pg d.drains = some x)
    (hb : d.pageBusy pg = false) : d.drainIdle pg = d.drainOver pg := by
  simp [Dev.drainIdle, hp, hd, hb]

/-- A drain that reaches its limit is forced, recorded and raised. -/
theorem Dev.drainLimit_forced {d : Dev} {pg : Nat} {x : DrainSt} (hd : Tab.find pg d.drains = some x) :
    d.drainLimit pg =
      let n := ((d.abortThreads pg).map fun k => (d.thread k).ctx).eraseDups.length
      let e := (d.forceAbort pg).put (Reg.PAGE_STATUS_forced pg) 1
      let e := (e.drainReport pg (e.nowUs - x.start) (d.abortItems pg) n).incE Cnt.FLT_CNT_DRAIN_FORCED
      (e.raise Src.FLT_drain_forced).drainOver pg := by
  simp only [Dev.drainLimit, hd]

theorem Dev.resetReq_inReset {d : Dev} {pg : Nat} (hr : d.pageInReset pg = true) : d.resetReq pg = d := by
  unfold Dev.resetReq
  split
  · rfl
  · exact if_pos (.inr hr)

section
variable {d : Dev} {pg : Nat} {b : Block} (hb : pageBlock pg = some b) (ht : d.pageThere pg = true) (hr : d.pageInReset pg = false)
include hb ht hr

theorem Dev.resetReq_device (hm : resetDomain b = 1) : d.resetReq pg = d.restart := by
  simp [Dev.resetReq, hb, ht, hr, hm]

theorem Dev.resetReq_partition {p : Nat} (hm : resetDomain b = 4) (hp : pagePart pg = some p) :
    d.resetReq pg = (d.abandonDrain pg).resetPartition p := by
  simp [Dev.resetReq, hb, ht, hr, hm, hp]

theorem Dev.resetReq_port (hm : resetDomain b = 5) : d.resetReq pg = (d.abandonDrain pg).portReset (pageInstance pg) := by
  simp [Dev.resetReq, hb, ht, hr, hm]

end

end Sys2Proof.Machine

namespace Sys2Proof.Proofs

open Sys2Proof Sys2Proof.Machine

/-- Settles O27, command by command. -/
theorem pagesAndDrains : Obligations.PagesAndDrains := by
  unfold Obligations.PagesAndDrains
  refine ⟨fun pg s ht hr hd ho => ?_, fun pg x s ht hr hd => ?_, fun pg s hr => ?_, fun pg b s hb ht hr hj h1 h2 h3 hd ho => ?_,
    fun pg b s hb hk hj => ?_, fun pg x s hp hd hb => ?_, fun pg x s hd => ?_, fun pg b p s hb ht hr hm hp => ?_,
    fun pg b s hb ht hr hm => ?_, fun pg b s hb ht hr hm => ?_, fun pg s hr => ?_⟩
  · exact State.next_withDev (Dev.pageEnable_idle ht hr hd ho)
  · exact State.next_withDev (Dev.pageEnable_draining ht hr hd)
  · exact State.next_withDev (Dev.pageEnable_inReset hr)
  · exact State.next_withDev (Dev.pageDisable_idle hb ht hr hj ⟨h1, h2, h3⟩ hd ho)
  · exact State.next_withDev (Dev.pageDisable_keptForJobs hb hk hj)
  · exact State.next_withDev (Dev.drainIdle_over hp hd hb)
  · exact State.next_withDev (Dev.drainLimit_forced hd)
  · exact State.next_withDev (Dev.resetReq_partition hb ht hr hm hp)
  · exact State.next_withDev (Dev.resetReq_port hb ht hr hm)
  · exact State.next_withDev (Dev.resetReq_device hb ht hr hm)
  · exact State.next_withDev (Dev.resetReq_inReset hr)

end Sys2Proof.Proofs

namespace Sys2Proof.Machine

/-! ### Writes of registers (R20, R31, R32) -/

/-- The blocks whose block-specific registers have plain fields only: a write of one is `Dev.writeFields` and no more. -/
def plainBlocks : List Block := [.tense, .ptp, .cmp, .drill, .mir, .flow, .agr, .pcie, .lpd, .red]

theorem Dev.blockWrite_plain {b : Block} (hb : plainBlocks.contains b = true) (d : Dev) (who : Requester) (pg off v : Nat) (dma : Dma) :
    d.blockWrite who pg off v b dma = d.writeFields pg off v b := by
  simp only [plainBlocks, List.contains_iff_mem, List.mem_cons, List.not_mem_nil, or_false] at hb
  rcases hb with rfl | rfl | rfl | rfl | rfl | rfl | rfl | rfl | rfl | rfl <;> rfl

/-- A write beyond the common part, where the page takes writes. -/
theorem Dev.writeAt_block {d : Dev} {addr : Nat} {b : Block} (hb : pageBlock (addr / 0x1000) = some b) (hs : b ≠ .sec)
    (ht : d.pageThere (addr / 0x1000) = true) (hr : d.pageInReset (addr / 0x1000) = false) (ho : 0x100 ≤ addr % 0x1000)
    (who : Requester) (v : Nat) (dma : Dma) :
    d.writeAt who addr v dma = d.blockWrite who (addr / 0x1000) (addr % 0x1000 / 8 * 8) v b dma := by
  have hlt : ¬ addr % 0x1000 / 8 * 8 < 0x100 := by omega
  simp [Dev.writeAt, hb, hs, ht, hr, Dev.pageOut_of_not_inReset hr, hlt]

/-- Only a write of MGMT_RA_CTRL starts a remote access. -/
theorem Dev.regWrite_of_ne_raCtrl {addr : Nat} (h : addr / 0x1000 ≠ 0x030) (d : Dev) (who : Requester) (v : Nat) (dma : Dma) :
    d.regWrite who addr v dma = d.writeAt who addr v dma :=
  if_neg fun hgo => h (by omega)

theorem spaceOf_pair {off : Nat} (h : off < 2 ^ 24) : spaceOf .pair off = some off := by
  simp only [spaceOf, Nat.mod_eq_of_lt h]

theorem spaceOf_remote_closed {off : Nat} (h : off < 2 ^ 24) (hc : closedToRemote off = true) (src : BitVec 16) :
    spaceOf (.remote src) off = none := by
  simp only [spaceOf, Nat.mod_eq_of_lt h, hc, if_true]

theorem Dev.registerWrite_nowhere {who : Requester} {off : Nat} (h : spaceOf who off = none) (d : Dev) (v : Nat) (dma : Dma) :
    d.registerWrite who off v dma = d := by
  simp [Dev.registerWrite, h]

theorem Dev.registerWrite_pair {off : Nat} (h : off < 2 ^ 24) (d : Dev) (v : Nat) (dma : Dma) :
    d.registerWrite .pair off v dma = (d.regWrite .pair off v dma).postWrites := by
  simp [Dev.registerWrite, spaceOf_pair h]

/-- R31, R32: the pair's write of a register whose fields are all plain. -/
theorem Dev.registerWrite_pair_plain {d : Dev} {off : Nat} {b : Block} (hoff : off < 2 ^ 24) (hb : pageBlock (off / 0x1000) = some b)
    (hp : plainBlocks.contains b = true) (ht : d.pageThere (off / 0x1000) = true) (hr : d.pageInReset (off / 0x1000) = false)
    (ho : 0x100 ≤ off % 0x1000) (v : Nat) :
    d.registerWrite .pair off v none = (d.writeFields (off / 0x1000) (off % 0x1000 / 8 * 8) v b).postWrites := by
  have hm : off / 0x1000 ≠ 0x030 := fun h => by
    rw [h] at hb
    cases hb
    exact absurd hp (by decide)
  have hs : b ≠ .sec := fun h => by rw [h] at hp; exact absurd hp (by decide)
  rw [Dev.registerWrite_pair hoff, Dev.regWrite_of_ne_raCtrl hm, Dev.writeAt_block hb hs ht hr ho, Dev.blockWrite_plain hp]

/-! ### The host's halves (R35) -/

theorem Dev.halfRead_low {off : Nat} (h : off % 8 = 0) (d : Dev) :
    d.halfRead off =
      let e := (d.touch off).readAt off
      { e with rdHold := Tab.insert (off / 0x1000) (off, e.rdata / 2 ^ 32) (Tab.erase (off / 0x1000) e.rdHold),
               rdata := e.rdata % 2 ^ 32 } := by
  have hreg : off / 8 * 8 = off := Nat.div_mul_cancel (Nat.dvd_of_mod_eq_zero h)
  simp only [Dev.halfRead, h, hreg, if_true]

theorem Dev.halfRead_held {d : Dev} {off reg x : Nat} (h : off % 8 ≠ 0)
    (hf : Tab.find (off / 0x1000) (d.touch off).rdHold = some (reg, x)) : d.halfRead off = { d.touch off with rdata := x } := by
  simp only [Dev.halfRead, h, hf, if_false]

theorem Dev.halfRead_latches {d : Dev} {off : Nat} (h : off % 8 ≠ 0) (hf : Tab.find (off / 0x1000) (d.touch off).rdHold = none)
    (hl : latchesWhole (off / 8 * 8) = true) :
    d.halfRead off =
      let e := (d.touch off).readAt (off / 8 * 8)
      { e with rdata := e.rdata / 2 ^ 32 } := by
  simp only [Dev.halfRead, h, hf, hl, if_false, if_true]

theorem Dev.hostRead_wide {off : Nat} (h : off % 8 = 0) (d : Dev) : d.hostRead off true = (d.touch off).readAt off := by
  have hreg : off / 8 * 8 = off := Nat.div_mul_cancel (Nat.dvd_of_mod_eq_zero h)
  simp only [Dev.hostRead, hreg, if_true]

theorem Dev.bellRead_powered {d : Dev} (h : d.pwr.powered.contains .hub = true) (wide : Bool) :
    d.bellRead wide = { d with rdata := if d.barsLive then 0 else if wide then 2 ^ 64 - 1 else 2 ^ 32 - 1 } :=
  if_neg (by simp only [h, Bool.not_true, Bool.false_eq_true, not_false_eq_true])

theorem Dev.lowWrite_held {addr : Nat} (h : hasRw (addr / 8 * 8) = true) (d : Dev) (v : Nat) (dma : Dma) :
    d.lowWrite addr v dma =
      let e := d.touch (addr / 8 * 8)
      { e with wrHold := Tab.insert (addr / 0x1000) (addr / 8 * 8, v) (Tab.erase (addr / 0x1000) e.wrHold) } :=
  if_pos h

theorem Dev.lowWrite_acts {addr : Nat} (h : hasRw (addr / 8 * 8) = false) (d : Dev) (v : Nat) (dma : Dma) :
    d.lowWrite addr v dma = ((d.touch (addr / 8 * 8)).regWrite .host (addr / 8 * 8) v dma).postWrites :=
  if_neg (by simp [h])

/-- The low half that a write of the high half takes: the one held, else the current RW fields. -/
theorem Dev.highWrite_of_hasRw {addr : Nat} (h : hasRw (addr / 8 * 8) = true) (d : Dev) (v : Nat) (dma : Dma) :
    d.highWrite addr v dma =
      let e := d.touch (addr / 8 * 8)
      let low := ((Tab.find (addr / 0x1000) e.wrHold).map fun h => h.2).getD (e.rwLow (addr / 8 * 8))
      (({ e with wrHold := Tab.erase (addr / 0x1000) e.wrHold }).regWrite .host (addr / 8 * 8) (v * 2 ^ 32 + low) dma).postWrites := by
  simp only [Dev.highWrite, h, if_true]

/-! ### Timestamps (R36, R189) -/

theorem Dev.readAt_podTime {d : Dev} (ht : d.pageThere 0x020 = true) (hr : d.pageInReset 0x020 = false) :
    d.readAt 0x020100 = d.latchTime 0x020100 d.time := by
  have hb : pageBlock 0x020 = some .time := rfl
  simp [Dev.readAt, ht, hr, hb]

theorem pageBlock_agt (n : Fin 8) : pageBlock (0x1000 * (n.val + 1)) = some .agt := by
  revert n
  decide

/-- An agent's own pages answer with the hub off. -/
theorem Dev.pageThere_agt (d : Dev) (n : Fin 8) : d.pageThere (0x1000 * (n.val + 1)) = true := by
  have hs : agentSpace (0x1000 * (n.val + 1)) = true := by revert n; decide
  simp [Dev.pageThere, pageBlock_agt, hs]

theorem Dev.readAt_agentTime {d : Dev} {n : Fin 8} (hr : d.pageInReset (0x1000 * (n.val + 1)) = false) :
    d.readAt (0x1000000 * (n.val + 1) + 0x118) = d.latchTime (0x1000000 * (n.val + 1) + 0x118) (d.agentTime n) := by
  have hpg : (0x1000000 * (n.val + 1) + 0x118) / 0x1000 = 0x1000 * (n.val + 1) := by omega
  have hoff : (0x1000000 * (n.val + 1) + 0x118) % 0x1000 / 8 * 8 = 0x118 := by omega
  have haddr : 0x1000 * (n.val + 1) * 0x1000 + 0x118 = 0x1000000 * (n.val + 1) + 0x118 := by omega
  have ha : 0x1000 * (n.val + 1) / 0x1000 - 1 = n.val := by omega
  simp only [Dev.readAt, hpg, hoff, Dev.pageThere_agt, hr, pageBlock_agt, haddr, ha, Bool.not_true, Bool.false_eq_true, false_and,
    or_self, if_false]

end Sys2Proof.Machine

namespace Sys2Proof.Proofs

open Sys2Proof Sys2Proof.Machine

/-- Settles O33: each clause is the equation of its access above. -/
theorem registerAccess : Obligations.RegisterAccess := by
  unfold Obligations.RegisterAccess
  refine ⟨fun off v b s hb hp ht hr ho => ?plain, fun off v dma s => ?function0, fun src off v dma s hc => ?closed,
    fun off s h => ?lowRead, fun off reg x s h hf => ?heldRead, fun off s h hf hl => ?latchRead, fun off s h => ?wideRead,
    fun off wide s h => ?bell, fun off v dma s h => ?lowHeld, fun off v dma s h => ?lowActs, fun off v low dma s h hf => ?highHeld,
    fun off v dma s h hf => ?highFree, fun s ht hr => ?podTime, fun n s hr => ?agentTime⟩
  case plain => exact State.next_withDev (Dev.registerWrite_pair_plain off.isLt hb hp ht hr ho v.toNat)
  case function0 => exact State.next_withDev (Dev.registerWrite_nowhere rfl s.dev v.toNat dma)
  case closed => exact State.next_withDev (Dev.registerWrite_nowhere (spaceOf_remote_closed off.isLt hc src) s.dev v.toNat dma)
  case lowRead => exact State.next_withDev (Dev.halfRead_low h s.dev)
  case heldRead => exact State.next_withDev (Dev.halfRead_held h hf)
  case latchRead => exact State.next_withDev (Dev.halfRead_latches h hf hl)
  case wideRead => exact State.next_withDev (Dev.hostRead_wide h s.dev)
  case bell => exact State.next_withDev (Dev.bellRead_powered h wide)
  case lowHeld => exact State.next_withDev (Dev.lowWrite_held h s.dev v.toNat dma)
  case lowActs => exact State.next_withDev (Dev.lowWrite_acts h s.dev v.toNat dma)
  case highHeld =>
    exact State.next_withDev ((Dev.highWrite_of_hasRw h s.dev v.toNat dma).trans (by simp only [hf, Option.map_some, Option.getD_some]))
  case highFree =>
    exact State.next_withDev ((Dev.highWrite_of_hasRw h s.dev v.toNat dma).trans (by simp only [hf, Option.map_none, Option.getD_none]))
  case podTime => exact State.next_withDev (Dev.readAt_podTime ht hr)
  case agentTime =>
    have hpg : (0x1000000 * (n.val + 1) + 0x118) / 0x1000 = 0x1000 * (n.val + 1) := by omega
    exact State.next_withDev (Dev.readAt_agentTime (hpg ▸ hr))

end Sys2Proof.Proofs

namespace Sys2Proof.Machine

/-! ### The requester of a remote access (R44 to R46) -/

/-- The device with MGMT_RA_CTRL written for a start: the timeout within its range, and the operation. -/
def Dev.raCtrl (d : Dev) (timeout : Nat) (write : Bool) : Dev :=
  (d.put Reg.MGMT_RA_CTRL_timeout (limitTo (.range 100 65535) timeout)).putB Reg.MGMT_RA_CTRL_op write

/-- The device with an access begun, before `Dev.raStart` says where it goes. -/
def Dev.raBegun (d : Dev) (write : Bool) : Dev :=
  let e := (d.put Reg.MGMT_RA_STATUS_busy 1).put Reg.MGMT_RA_STATUS_done 0
  let e := if write then e.put Reg.MGMT_RA_STATUS_acks 0 else e
  { e with ra := { e.ra with seq := (e.ra.seq + 1) % 2 ^ 32, target := some (podChip (d.get Reg.MGMT_RA_ADDR_addr * 8)),
                             write := write, acked := [] } }

theorem Dev.raCommand_busy {d : Dev} (h : d.flag Reg.MGMT_RA_STATUS_busy = true) (timeout : Nat) (write : Bool) :
    d.raCommand timeout write = d :=
  if_pos (.inl h)

/-- A page is ready for a command: it is there and not in reset. -/
structure Dev.PageOpen (d : Dev) (pg : Nat) : Prop where
  there : d.pageThere pg = true
  notInReset : d.pageInReset pg = false

theorem Dev.raGo_starts {d : Dev} (hb : d.flag Reg.MGMT_RA_STATUS_busy = false) (ho : d.pageOn 0x030 = true) (hp : d.PageOpen 0x030)
    (write : Bool) : d.raGo write = d.raStart write := by
  simp [Dev.raGo, hb, ho, hp.notInReset, hp.there]

/-- Where an access that has begun goes: it is refused, served here, or sent. -/
def Dev.raRoute (d : Dev) (write : Bool) (addr data : Nat) : Dev :=
  match d.raRefusal (podChip addr) (podSpace addr) (podOffset addr) write with
  | some code => d.raEnd code
  | none =>
    let own := d.ownChip (podChip addr)
    if own ∨ (chipIsBroadcast (podChip addr) ∧ (d.inScope (podChip addr)).contains d.chip) then
      match (if own then d else d.raSend (podChip addr) write addr data).raServe .pair none write (podSpace addr) (podOffset addr) data with
      | (d, some (code, x)) => if own then d.raFinish code x else if code = 0x00 then d.raAck d.chip else d
      | (d, none) => d
    else (d.raSend (podChip addr) write addr data).raCheck

theorem Dev.raStart_eq (d : Dev) (write : Bool) :
    d.raStart write = (d.raBegun write).raRoute write (d.get Reg.MGMT_RA_ADDR_addr * 8) (d.get Reg.MGMT_RA_DATA_data) := rfl

theorem Dev.raCommand_routes {d : Dev} {timeout : Nat} {write : Bool} (hb : d.flag Reg.MGMT_RA_STATUS_busy = false)
    (hp : d.PageOpen 0x030) (hb' : (d.raCtrl timeout write).flag Reg.MGMT_RA_STATUS_busy = false)
    (ho' : (d.raCtrl timeout write).pageOn 0x030 = true) (hp' : (d.raCtrl timeout write).PageOpen 0x030) :
    d.raCommand timeout write = ((d.raCtrl timeout write).raBegun write).raRoute write
      ((d.raCtrl timeout write).get Reg.MGMT_RA_ADDR_addr * 8) ((d.raCtrl timeout write).get Reg.MGMT_RA_DATA_data) := by
  rw [← Dev.raStart_eq, ← Dev.raGo_starts hb' ho' hp']
  simp only [Dev.raCommand, hb, hp.there, hp.notInReset, Bool.not_true, Bool.false_eq_true, or_self, if_false]
  rfl

theorem Dev.raRefusal_self (d : Dev) (space off : Nat) (write : Bool) : d.raRefusal 0xFFFE space off write = none := rfl

theorem Dev.ownChip_self (d : Dev) : d.ownChip 0xFFFE = true := rfl

section
variable {d : Dev} {write : Bool} {addr : Nat}

theorem Dev.raRoute_refused {code : Nat} (h : d.raRefusal (podChip addr) (podSpace addr) (podOffset addr) write = some code)
    (data : Nat) : d.raRoute write addr data = d.raEnd code := by
  simp only [Dev.raRoute, h]

/-- An access to this controller that is served at once ends with what serving it answers. -/
theorem Dev.raRoute_own {e : Dev} {code x data : Nat} (hc : podChip addr = 0xFFFE)
    (hs : d.raServe .pair none write (podSpace addr) (podOffset addr) data = (e, some (code, x))) :
    d.raRoute write addr data = e.raFinish code x := by
  simp only [Dev.raRoute, hc, Dev.raRefusal_self, Dev.ownChip_self, true_or, if_true, hs]

/-- An access to another controller leaves as a request. -/
theorem Dev.raRoute_sent (hr : d.raRefusal (podChip addr) (podSpace addr) (podOffset addr) write = none)
    (ho : d.ownChip (podChip addr) = false) (hc : chipIsBroadcast (podChip addr) = false) (data : Nat) :
    d.raRoute write addr data = (d.raSend (podChip addr) write addr data).raCheck := by
  simp only [Dev.raRoute, hr, ho, hc, Bool.false_eq_true, false_and, or_self, if_false]

end

/-! ### Serving an access (R42, R46, R47) -/

theorem Dev.accessInReset_of_not_inReset {d : Dev} {off : Nat} (h : d.pageInReset (off / 0x1000) = false) :
    d.accessInReset off = false := by
  simp [Dev.accessInReset, h]

section
variable {d : Dev} {who : Requester} {back : Option (Nat × Nat)} {space off v : Nat}

theorem Dev.raServe_closed (hs : space = 0) (hc : closedToRemote off = true) (write : Bool) :
    d.raServe who back write space off v = (d, some (0x04, 0)) :=
  if_pos (.inr ⟨hs, hc⟩)

theorem Dev.raServe_register (hs : space = 0) (he : off < 2 ^ 24) (hc : closedToRemote off = false) (hr : d.accessInReset off = false) 
    (write : Bool) : d.raServe who back write space off v =
      if write then (d.writeAt who off v none, some (0x00, 0)) else (d.readAt off, some (0x00, (d.readAt off).rdata)) := by
  have hx : podExists 0 off = true := decide_eq_true he
  subst hs
  simp [Dev.raServe, hx, hc, hr]

theorem Dev.raServe_memory (hs : space = 1 ∨ space = 2) (hx : podExists space off = true) (write : Bool) :
    d.raServe who back write space off v =
      if write then (d.podStore space off (leBytes 8 v), some (0x00, 0))
      else ((d.podNumber space off 8).1, some (0x00, (d.podNumber space off 8).2)) := by
  rcases hs with rfl | rfl <;> simp [Dev.raServe, hx]

theorem Dev.raServe_agent (hs : space = 3) (he : off < 2 ^ 27) (write : Bool) :
    d.raServe who back write space off v = (d.regSend (off / 2 ^ 24) write (off % 2 ^ 24) v back, none) := by
  have hx : podExists 3 off = true := decide_eq_true he
  subst hs
  simp [Dev.raServe, hx]

end

/-! ### The target and the reply (R45, R46, R48) -/

/-- The device with a request noted, which is executed once. -/
def Dev.raNoted (d : Dev) (src seq : Nat) : Dev :=
  { d with ra := { d.ra with served := Tab.insert src seq (Tab.erase src d.ra.served) } }

theorem Dev.accessInReset_raNoted (d : Dev) (src seq off : Nat) : (d.raNoted src seq).accessInReset off = d.accessInReset off := rfl

section
variable {d : Dev} {h : FabHdr} {seq addr data : Nat} {write : Bool}

theorem Dev.raReq_fenced (hp : d.passes h = false) :
    d.raReq h seq write addr data = (d.fenceDrop h.src.toNat).raAnswer h.src.toNat seq 0x03 0 := by
  simp [Dev.raReq, hp]

theorem Dev.raReq_repeated (hp : d.passes h = true) (hs : Tab.find h.src.toNat d.ra.served = some seq) :
    d.raReq h seq write addr data = d := by
  simp [Dev.raReq, hp, hs]

/-- A new request that starts no access of the target's own engine is answered with what serving it gives. -/
theorem Dev.raReq_answered {e : Dev} {code x : Nat} (hp : d.passes h = true) (hs : Tab.find h.src.toNat d.ra.served ≠ some seq)
    (hgo : (write && podSpace addr == 0 && podOffset addr / 8 * 8 == 0x030110) = false)
    (hv : (d.raNoted h.src.toNat seq).raServe (.remote h.src) (some (h.src.toNat, seq)) write (podSpace addr) (podOffset addr) data =
      (e, some (code, x))) : d.raReq h seq write addr data = (e.raAnswer h.src.toNat seq code x).postWrites := by
  simp only [Dev.raReq, hp, Bool.not_true, Bool.false_eq_true, if_false, hs]
  split
  next e' code' x' hv' =>
    cases hv'.symm.trans hv
    simp [hgo]
  next e' hv' => cases hv'.symm.trans hv

theorem Dev.raReq_handedOn {e : Dev} (hp : d.passes h = true) (hs : Tab.find h.src.toNat d.ra.served ≠ some seq)
    (hv : (d.raNoted h.src.toNat seq).raServe (.remote h.src) (some (h.src.toNat, seq)) write (podSpace addr) (podOffset addr) data =
      (e, none)) : d.raReq h seq write addr data = e := by
  simp only [Dev.raReq, hp, Bool.not_true, Bool.false_eq_true, if_false, hs]
  split
  next e' code' x' hv' => cases hv'.symm.trans hv
  next e' hv' => cases hv'.symm.trans hv; rfl

theorem Dev.ingress_passes {f : Dev → Dev} (hp : d.passes h = true) : d.ingress h f = f d := if_pos hp

theorem Dev.ingress_dropped {f : Dev → Dev} (hp : d.passes h = false) : d.ingress h f = d.fenceDrop h.src.toNat :=
  if_neg (by simp [hp])

end

section
variable {d : Dev} {src code data : Nat}

theorem Dev.raRsp_finished (ht : d.ra.target = some src) (hb : chipIsBroadcast src = false) :
    d.raRsp src d.ra.seq code data true = d.raFinish code data := by
  simp [Dev.raRsp, ht, hb]

theorem Dev.raRsp_unauthentic {chip : Nat} (ht : d.ra.target = some chip) :
    d.raRsp src d.ra.seq code data false = (d.raise Src.MGMT_ra_auth_fail).raEnd 0x05 := by
  simp [Dev.raRsp, ht]

end

/-! ### BAR2 (R39, R68) -/

section
variable {d : Dev} {off k n : Nat} {data : List Nat} (hp : d.pwr.powered.contains .hub = true)
include hp

theorem Dev.bar2_write (hl : d.barsLive = true) (h : off + data.length ≤ 2 ^ k) :
    d.bar2 true off k data n = d.podStore 1 (d.bar2Offset k off) data := by
  simp only [Dev.bar2, if_true, hp, hl, Nat.not_lt.mpr h, Bool.not_true, Bool.false_eq_true, or_self, if_false]

theorem Dev.bar2_read_early (hl : d.barsLive = false) (h : off + n ≤ 2 ^ k) :
    d.bar2 false off k data n = { d with rdata := 2 ^ (8 * n) - 1 } := by
  simp only [Dev.bar2, if_true, hp, hl, Nat.not_lt.mpr h, Bool.not_true, Bool.not_false, Bool.false_eq_true, or_self, if_false]

theorem Dev.bar2_read (hl : d.barsLive = true) (h : off + n ≤ 2 ^ k) :
    d.bar2 false off k data n =
      { (d.podNumber 1 (d.bar2Offset k off) n).1 with rdata := (d.podNumber 1 (d.bar2Offset k off) n).2 } := by
  simp only [Dev.bar2, hp, hl, Nat.not_lt.mpr h, Bool.not_true, Bool.false_eq_true, or_self, if_false]

end

end Sys2Proof.Machine

namespace Sys2Proof.Proofs

open Sys2Proof Sys2Proof.Machine

/-- Settles O36: a command of the requester is `Dev.raCtrl`, `Dev.raBegun` and `Dev.raRoute`, one after another; a request at the target is
noted, served and answered; the rest are the equations of the reply and of BAR2. -/
theorem remoteAccess : Obligations.RemoteAccess := by
  unfold Obligations.RemoteAccess
  refine ⟨fun t s hb => ?busyRead, fun t s hb => ?busyWrite,
    fun t s hb ht hr hb' ho' hr' ht' hc hs hx hcl hri => ?ownRead,
    fun t s hb ht hr hb' ho' hr' ht' hc hs hx hcl hri => ?ownWrite,
    fun t code s hb ht hr hb' ho' hr' ht' href => ?refused,
    fun t s hb ht hr hb' ho' hr' ht' href ho hc => ?sentRead, fun t s hb ht hr hb' ho' hr' ht' href ho hc => ?sentWrite,
    fun h seq op addr data s hp => ?fenced, fun h seq op addr data s hp hs => ?repeated,
    fun h seq addr data s hp hs h0 hc => ?closed, fun h seq addr data s hp hs h0 hx hc hr => ?register,
    fun h seq addr data s hp hs h0 hx hc hr hne => ?registerWrite, fun h seq addr data s hp hs h12 hx => ?memoryWrite,
    fun h seq addr data s hp hs h12 hx => ?memory, fun h seq op addr data s hp hs h3 hx => ?agent,
    fun h seq code data s hp ht hseq hb => ?reply, fun h seq code data chip s hp ht hseq => ?unauthentic,
    fun s hb => ?timeout, fun s hb => ?noTimeout, fun off size data n s h hp hl => ?bar2Write,
    fun off size data n s h hp hl => ?bar2Early, fun off size data n s h hp hl => ?bar2Read⟩
  case busyRead => exact State.next_withDev (Dev.raCommand_busy hb t.toNat false)
  case busyWrite => exact State.next_withDev (Dev.raCommand_busy hb t.toNat true)
  case ownRead =>
    exact State.next_withDev ((Dev.raCommand_routes hb ⟨ht, hr⟩ hb' ho' ⟨ht', hr'⟩).trans
      (Dev.raRoute_own hc (Dev.raServe_register hs hx hcl (Dev.accessInReset_of_not_inReset hri) false)))
  case ownWrite =>
    exact State.next_withDev ((Dev.raCommand_routes hb ⟨ht, hr⟩ hb' ho' ⟨ht', hr'⟩).trans
      (Dev.raRoute_own hc (Dev.raServe_register hs hx hcl (Dev.accessInReset_of_not_inReset hri) true)))
  case refused =>
    exact State.next_withDev ((Dev.raCommand_routes hb ⟨ht, hr⟩ hb' ho' ⟨ht', hr'⟩).trans (Dev.raRoute_refused href _))
  case sentRead =>
    exact State.next_withDev ((Dev.raCommand_routes hb ⟨ht, hr⟩ hb' ho' ⟨ht', hr'⟩).trans (Dev.raRoute_sent href ho hc _))
  case sentWrite =>
    exact State.next_withDev ((Dev.raCommand_routes hb ⟨ht, hr⟩ hb' ho' ⟨ht', hr'⟩).trans (Dev.raRoute_sent href ho hc _))
  case fenced => exact State.next_withDev (Dev.raReq_fenced hp)
  case repeated => exact State.next_withDev (Dev.raReq_repeated hp hs)
  case closed => exact State.next_withDev (Dev.raReq_answered hp hs rfl (Dev.raServe_closed h0 hc false))
  case register => exact State.next_withDev (Dev.raReq_answered hp hs rfl (Dev.raServe_register h0 hx hc ((Dev.accessInReset_raNoted ..).trans hr) false))
  case registerWrite =>
    exact State.next_withDev (Dev.raReq_answered hp hs (by simp [hne]) (Dev.raServe_register h0 hx hc ((Dev.accessInReset_raNoted ..).trans hr) true))
  case memoryWrite =>
    have hgo : podSpace addr.toNat ≠ 0 := by omega
    exact State.next_withDev (Dev.raReq_answered hp hs (by simp [hgo]) (Dev.raServe_memory h12 hx true))
  case memory => exact State.next_withDev (Dev.raReq_answered hp hs rfl (Dev.raServe_memory h12 hx false))
  case agent => exact State.next_withDev (Dev.raReq_handedOn hp hs (Dev.raServe_agent h3 hx op))
  case reply => exact State.next_withDev ((Dev.ingress_passes hp).trans (hseq ▸ Dev.raRsp_finished ht hb))
  case unauthentic => exact State.next_withDev ((Dev.ingress_passes hp).trans (hseq ▸ Dev.raRsp_unauthentic ht))
  case timeout => exact State.next_withDev (if_pos hb)
  case noTimeout => exact State.next_withDev (if_neg (by simp [hb]))
  case bar2Write => exact State.next_withDev (Dev.bar2_write hp hl (by rwa [List.length_map]))
  case bar2Early => exact State.next_withDev (Dev.bar2_read_early hp hl h)
  case bar2Read => exact State.next_withDev (Dev.bar2_read hp hl h)

end Sys2Proof.Proofs

namespace Sys2Proof.Machine

/-! ### What a drop at ingress does (R302) -/

/-- FENCED goes to a source that was not told in the last millisecond. -/
theorem Dev.fenceDrop_told {d : Dev} {c : Nat}
    (h : ∀ t, Tab.find c (d.incE Cnt.MBR_CNT_FENCE_DROP).mbr.fencedAt = some t → t + 1000 ≤ (d.incE Cnt.MBR_CNT_FENCE_DROP).nowUs) :
    d.fenceDrop c =
      let e := d.incE Cnt.MBR_CNT_FENCE_DROP
      { (e.send c 0x17 []) with mbr := { e.mbr with fencedAt := Tab.insert c e.nowUs (Tab.erase c e.mbr.fencedAt) } } := by
  unfold Dev.fenceDrop
  refine if_pos ?_
  split
  next t ht => exact decide_eq_true (h t ht)
  next => rfl

theorem Dev.fenceDrop_silent {d : Dev} {c t : Nat} (ht : Tab.find c (d.incE Cnt.MBR_CNT_FENCE_DROP).mbr.fencedAt = some t)
    (h : (d.incE Cnt.MBR_CNT_FENCE_DROP).nowUs < t + 1000) : d.fenceDrop c = d.incE Cnt.MBR_CNT_FENCE_DROP := by
  simp only [Dev.fenceDrop, ht]
  exact if_neg (by simp only [decide_eq_true_eq]; omega)

/-- The command drops its message and does no more, but for the settling that ends many commands. -/
def Drops (s : State) (h : FabHdr) (o : Host.Outcome State Fault Refusal) : Prop :=
  o = .next (s.withDev (s.dev.fenceDrop h.src.toNat).settle) ∨ o = .next (s.withDev (s.dev.fenceDrop h.src.toNat))

section
variable {s : State} {h : FabHdr} (hp : s.dev.passes h = false)
include hp

theorem Drops.bare {f : Dev → Dev} : Drops s h (.next { s with dev := s.dev.ingress h f }) :=
  .inr (State.next_withDev (Dev.ingress_dropped hp))

theorem Drops.settled {f : Dev → Dev} : Drops s h (.next { s with dev := (s.dev.ingress h f).settle }) :=
  .inl (State.next_withDev (congrArg Dev.settle (Dev.ingress_dropped hp)))

theorem Drops.once {job kind step : Nat} {f : Dev → JobSt → Dev} :
    Drops s h (.next { s with dev := s.dev.onceMsg h job kind step f }) := by
  unfold Dev.onceMsg Dev.jobMsg
  exact .settled hp

/-- As `Drops.settled`, of a command that hands its effect to `Dev.ingress` in the case at hand. -/
theorem Drops.settledIf {d : Dev} {f : Dev → Dev} (hd : d = s.dev.ingress h f) : Drops s h (.next { s with dev := d.settle }) :=
  hd ▸ .settled hp

end

/-- Every command whose header R302 checks hands its effect to `Dev.ingress`. -/
theorem exec_drops {c : Instr} {h : FabHdr} {s : State}
    (hc : checkedHeader s.dev.isMember ((s.dev.mbr.prop.map Proposal.founding).getD false) c = some h) (hp : s.dev.passes h = false) :
    Drops s h (exec c s) := by
  cases c with
  | raRsp | mirrorAck | pin | moveData | fenced | pack | packack =>
    cases hc
    exact .bare hp
  | cutreq | cutrep | genrep | gencommit | gencommitDiscard | restreq | restdone | restcommit =>
    cases hc
    exact .once hp
  | hashes | steprep | stepdecCommit | stepdecReplay | stepdecAbandon | stripe | stripeack | extentComplete | mirror | hb | viewreq
  | withdraw | evidence | jobstart | joback | jobgo | jobgoAbort | reparent | jobend | hazard | adoptPrepare | adoptCommit | adoptCancel
  | adoptack | xrelay | handover | pinAck =>
    cases hc
    exact .settled hp
  | ghb | propose | decide =>
    obtain ⟨hf, hc⟩ := Option.ite_none_left_eq_some.mp hc
    cases hc
    exact .settledIf hp (if_neg hf)
  | view =>
    obtain ⟨hm, hc⟩ := Option.ite_none_right_eq_some.mp hc
    cases hc
    exact .settledIf hp (if_pos hm)
  | vote =>
    obtain ⟨hf, hc⟩ := Option.ite_none_left_eq_some.mp hc
    cases hc
    refine .settledIf hp (if_neg ?_)
    cases hq : s.dev.mbr.prop with
    | none => exact Bool.false_ne_true
    | some p => simpa [hq] using hf
  | _ => cases hc

end Sys2Proof.Machine

namespace Sys2Proof.Proofs

open Sys2Proof Sys2Proof.Machine

/-- Settles O58: every message with a checked header goes through `Dev.ingress`, which drops one that does not pass. -/
theorem messagesFromOutsideAreDropped : Obligations.MessagesFromOutsideAreDropped := by
  unfold Obligations.MessagesFromOutsideAreDropped
  exact ⟨fun c h s hc hp => exec_drops hc hp, fun d c h => Dev.fenceDrop_told h, fun d c t ht h => Dev.fenceDrop_silent ht h,
    fun h seq op addr data s hp => State.next_withDev (Dev.raReq_fenced hp)⟩

end Sys2Proof.Proofs

namespace Sys2Proof.Machine

/-! ### Flags, and the idle step -/

theorem Dev.flag_eq_true {d : Dev} {f : Fld} : d.flag f = true ↔ d.get f ≠ 0 := bne_iff_ne

theorem Dev.flag_eq_false {d : Dev} {f : Fld} : d.flag f = false ↔ d.get f = 0 := bne_eq_false_iff_eq

theorem step_of_empty {s : State} (h : s.pending = []) : step s = .next (s.withDev s.dev.idle) := by
  obtain ⟨d, q⟩ := s
  obtain rfl : q = [] := h
  rfl

/-- The clocks that run in an idle step, written out. -/
theorem Dev.idle_eq (d : Dev) :
    d.idle = ({ d with time := d.time + 5 * increment (d.get Reg.TIME_RATE_adj), aon := d.aon + 5 }.countHub.countAgents).settle := rfl

end Sys2Proof.Machine

namespace Sys2Proof.Proofs

open Sys2Proof Sys2Proof.Machine

/-- Settles O2: with no command waiting a step is `Dev.idle`. -/
theorem idleStepRunsClocks : Obligations.IdleStepRunsClocks := by
  unfold Obligations.IdleStepRunsClocks
  intro s h
  rw [step_of_empty h, Dev.idle_eq]
  rfl

end Sys2Proof.Proofs

namespace Sys2Proof.Machine

/-! ### Feeds (R55, R56, R58, R63) -/

/-- The device with the loss of a good feed noted: the feed absent, the moment in its history. -/
def Dev.lossNoted (d : Dev) (f : Feed) : Dev := (d.put (feedState f) 0).setLosses f (d.losses f ++ [d.nowUs])

theorem feedState_key_ne_idleState (f : Feed) : (feedState f).key ≠ Reg.AON_IDLE_STATUS_state.key := by
  cases f <;> decide

@[simp] theorem Dev.lossNoted_idleState (d : Dev) (f : Feed) :
    (d.lossNoted f).get Reg.AON_IDLE_STATUS_state = d.get Reg.AON_IDLE_STATUS_state :=
  Dev.get_put_ne (feedState_key_ne_idleState f) d 0

section
variable {d : Dev} {f : Feed}

theorem Dev.feedLoss_returning (h : d.get (feedState f) = 2) : d.feedLoss f = d.put (feedState f) 0 := if_pos h

/-- Outside Idle-Keep the loss of a good feed is counted and raised, and single-feed operation begins (R56). -/
theorem Dev.feedLoss_good_a (h : d.get (feedState .a) = 1) (hi : d.get Reg.AON_IDLE_STATUS_state ≠ 2) :
    d.feedLoss .a =
      let e := ((d.lossNoted .a).incE Cnt.PWR_CNT_FEED_A_LOSS).raise Src.PWR_feed_a_lost
      let e := (e.put Reg.PWR_FEED_STATUS_single_feed 1).pauseG
      { e with pwr := { e.pwr with burst := false } }.coreUnpowered 0 := by
  have hnot : d.get (feedState .a) ≠ 2 := by omega
  rw [← d.lossNoted_idleState .a] at hi
  exact (if_neg hnot).trans ((if_neg (not_not.mpr h)).trans (if_neg hi))

/-- In Idle-Keep the loss of a good feed is only recorded (R63). -/
theorem Dev.feedLoss_good_b_idleKeep (h : d.get (feedState .b) = 1) (hi : d.get Reg.AON_IDLE_STATUS_state = 2) :
    d.feedLoss .b = (d.lossNoted .b).put Reg.AON_WAKE_CAUSE_feed_b_event 1 := by
  have hnot : d.get (feedState .b) ≠ 2 := by omega
  rw [← d.lossNoted_idleState .b] at hi
  exact (if_neg hnot).trans ((if_neg (not_not.mpr h)).trans (if_pos hi))

theorem Dev.returnHold_lockedOut (h : d.get (feedState f) = 2)
    (hl : max 1 (d.get Reg.PWR_FEED_CTRL_flap_limit) ≤ ((d.losses f).filter fun t => decide (d.nowUs ≤ t + 600000000)).length) :
    d.returnHold f = (d.put (feedState f) 3).raise Src.PWR_feed_lockout :=
  (if_neg (not_not.mpr h)).trans (if_pos hl)

/-- With the other feed good too, the return of feed A ends single-feed operation and its limits (R58). -/
theorem Dev.returnHold_both_good (h : d.get (feedState .a) = 2)
    (hb : (((d.put (feedState .a) 1).coreReturns 0).wakeBy 4).get (feedState .b) = 1)
    (hi : (d.put (feedState .a) 1).get Reg.AON_IDLE_STATUS_state ≠ 2)
    (hl : ((d.losses .a).filter fun t => decide (d.nowUs ≤ t + 600000000)).length < max 1 (d.get Reg.PWR_FEED_CTRL_flap_limit)) :
    d.returnHold .a = ((((d.put (feedState .a) 1).coreReturns 0).wakeBy 4).put Reg.PWR_FEED_STATUS_single_feed 0).unlimit :=
  (if_neg (not_not.mpr h)).trans ((if_neg (Nat.not_le.mpr hl)).trans ((if_neg hi).trans (if_pos hb)))

theorem Dev.rearm_lockedOut (h : d.get (feedState f) = 3) : d.rearm f = (d.put (feedState f) 2).setLosses f [] := if_pos h

end

end Sys2Proof.Machine

namespace Sys2Proof.Proofs

open Sys2Proof Sys2Proof.Machine

/-- Settles O12: FEED_LOST is `Dev.feedLoss` with what it leads to when both feeds are absent; the rest are the equations above. -/
theorem feedStateMachine : Obligations.FeedStateMachine := by
  unfold Obligations.FeedStateMachine
  refine ⟨fun s h hi => ?lost, fun s h hi => ?lostIdleKeep, fun f s h => ?lostReturning, fun f s h => ?above, fun f s h => ?below,
    fun f s h hl => ?lockedOut, fun s => ?good, fun f s h => ?rearmed⟩
  case lost => exact State.next_withDev (congrArg (·.feedsCheck.postWrites) (Dev.feedLoss_good_a h hi))
  case lostIdleKeep => exact State.next_withDev (congrArg (·.feedsCheck.postWrites) (Dev.feedLoss_good_b_idleKeep h hi))
  case lostReturning => exact State.next_withDev (congrArg (·.feedsCheck.postWrites) (Dev.feedLoss_returning h))
  case above => exact State.next_withDev (if_pos h)
  case below => exact State.next_withDev (if_pos h)
  case lockedOut => exact State.next_withDev (Dev.returnHold_lockedOut h hl)
  case good =>
    intro e d h hb hi hl
    exact State.next_withDev (Dev.returnHold_both_good h hb hi hl)
  case rearmed => exact State.next_withDev (Dev.rearm_lockedOut h)

end Sys2Proof.Proofs

namespace Sys2Proof.Machine

/-! ### The limiter (R57, R60, R428) -/

/-- The device with a window's power measured and charged to the energy accounts. -/
def Dev.metered (d : Dev) (mw : Nat) (c a g agr stp : Activity) : Dev := (d.put Reg.PWR_PKG_POWER_mw mw).energy mw c a g agr stp

/-- The limiter's measure for a window of so much power under an envelope. -/
def Dev.limitWindow (d : Dev) (env mw : Nat) (down : List Nat) (rate : Nat) : Dev :=
  if env < mw then
    let e := d.clocked.foldl (fun (d : Dev) p => d.lowerPoint p (down.getD p 0)) d
    { e with pwr := { e.pwr with classA := Nat.min e.pwr.classA rate } }
  else if mw * 100 < env * 95 then
    if d.pwr.classA < 16 then { d with pwr := { d.pwr with classA := d.pwr.classA + 1 } } else d.clocked.foldl Dev.raisePoint d
  else d

/-- The device with the burst allowance begun where a window asks for it (R60). -/
def Dev.burstBegun (d : Dev) (mw avg : Nat) : Dev :=
  if !d.flag Reg.PWR_FEED_STATUS_single_feed && !d.pwr.burst && decide (1000 * d.get Reg.PWR_LIMIT_envelope_w < mw) &&
      decide (avg ≤ 1000 * d.get Reg.PWR_LIMIT_envelope_w) then
    { d with pwr := { d.pwr with burst := true } }
  else d

/-- The envelope of a window: that of a hot junction is no more than what holds it (R452). -/
def Dev.windowEnvelope (d : Dev) (hold : Nat) : Nat := if d.pwr.hot then Nat.min hold d.envelope else d.envelope

theorem Dev.limiterWindow_eq {d e : Dev} {mw : Nat} {c a g agr stp : Activity} (he : d.metered mw c a g agr stp = e) (avg hold : Nat)
    (down : List Nat) (rate : Nat) :
    d.limiterWindow mw avg hold down rate c a g agr stp =
      ((e.burstBegun mw avg).limitWindow ((e.burstBegun mw avg).windowEnvelope hold) mw down rate).settleLimit := by
  unfold Dev.metered at he
  simp only [Dev.limiterWindow, he]
  rfl

section
variable {d : Dev} (hs : d.get Reg.PWR_FEED_STATUS_single_feed ≠ 0)
include hs

theorem Dev.burstBegun_singleFeed (mw avg : Nat) : d.burstBegun mw avg = d :=
  if_neg (by simp only [Dev.flag_eq_true.mpr hs, Bool.not_true, Bool.false_and, Bool.false_eq_true, not_false_eq_true])

theorem Dev.envelope_singleFeed : d.envelope = 1000 * d.get Reg.PWR_LIMIT_single_w :=
  congrArg (1000 * ·) (if_pos (Dev.flag_eq_true.mpr hs))

theorem Dev.windowEnvelope_singleFeed (hh : d.pwr.hot = false) (hold : Nat) :
    d.windowEnvelope hold = 1000 * d.get Reg.PWR_LIMIT_single_w :=
  (if_neg (ne_true_of_eq_false hh)).trans (Dev.envelope_singleFeed hs)

end

/-- On one feed no burst begins, and the envelope of a junction that is not hot is single_w. -/
theorem Dev.limiterWindow_singleFeed {d e : Dev} {mw : Nat} {c a g agr stp : Activity} (he : d.metered mw c a g agr stp = e)
    (hs : e.get Reg.PWR_FEED_STATUS_single_feed ≠ 0) (hh : e.pwr.hot = false) (avg hold : Nat) (down : List Nat) (rate : Nat) :
    d.limiterWindow mw avg hold down rate c a g agr stp =
      (e.limitWindow (1000 * e.get Reg.PWR_LIMIT_single_w) mw down rate).settleLimit := by
  rw [Dev.limiterWindow_eq he, Dev.burstBegun_singleFeed hs, Dev.windowEnvelope_singleFeed hs hh]

theorem Dev.limitWindow_above {env mw : Nat} (h : env < mw) (d : Dev) (down : List Nat) (rate : Nat) :
    d.limitWindow env mw down rate =
      let e := d.clocked.foldl (fun (d : Dev) p => d.lowerPoint p (down.getD p 0)) d
      { e with pwr := { e.pwr with classA := Nat.min e.pwr.classA rate } } := if_pos h

/-- More than 5 % below the envelope class A is given back first. -/
theorem Dev.limitWindow_below {d : Dev} {env mw : Nat} (h : mw * 100 < env * 95) (ha : d.pwr.classA < 16) (down : List Nat)
    (rate : Nat) : d.limitWindow env mw down rate = { d with pwr := { d.pwr with classA := d.pwr.classA + 1 } } := by
  have hle : ¬ env < mw := by omega
  exact (if_neg hle).trans ((if_pos h).trans (if_pos ha))

theorem Dev.overEnvelope_raised {d : Dev} (hs : d.get Reg.PWR_FEED_STATUS_single_feed ≠ 0)
    (ho : d.get Reg.PWR_LIMIT_single_w * 1000 < d.get Reg.PWR_PKG_POWER_mw) : d.overEnvelope = d.raise Src.PWR_over_envelope :=
  if_pos (by simp only [Dev.flag_eq_true.mpr hs, ho, decide_true, Bool.and_self])

/-! ### Power on and off (R51 to R54, R59) -/

/-- A regulator that gave an identifier answered with a whole block. -/
theorem noFeedId_of_feedId_ne_zero {b : Option (List Byte)} (h : feedId b ≠ 0) : noFeedId b = false := by
  cases b with
  | none => exact absurd rfl h
  | some bs =>
    have hlen : 8 ≤ bs.length := of_not_not fun hn => h (if_neg hn)
    exact decide_eq_false (Nat.not_lt.mpr hlen)

/-- Both feeds good and told apart by their identifiers: nothing is raised at power-on. -/
theorem Dev.powerOn_both {d : Dev} {ida idb : Option (List Byte)} (hp : d.pwr.powered = []) (ha : feedId ida ≠ 0) (hb : feedId idb ≠ 0)
    (hab : feedId ida ≠ feedId idb) (slot : Nat) :
    d.powerOn true true ida idb slot =
      let e := d.powerLoss
      let e := { e with pwr := { PowerSt.reset with traySlot := slot }, boot := { e.boot with start := d.nowUs } }
      let e := ((e.put (feedState .a) 1).put (feedState .b) 1).put Reg.PWR_FEED_STATUS_single_feed 0
      (e.put Reg.PWR_FEED_ID_A_id (feedId ida)).put Reg.PWR_FEED_ID_B_id (feedId idb) := by
  simp only [Dev.powerOn, hp, ha, hb, hab, noFeedId_of_feedId_ne_zero, ne_eq, not_true_eq_false, not_false_eq_true, or_self, and_false,
    Bool.or_self, Bool.false_eq_true, if_false]
  rfl

/-- What a domain's power-good waits for (R52). -/
structure Dev.MayPower (d : Dev) (x : Domain) : Prop where
  domain : allDomains.contains x = true
  unpowered : d.pwr.powered.contains x = false
  someOn : d.pwr.powered ≠ []
  feeds : d.domainOff x = false
  verified : domainOrder x ≤ 2 ∨ d.boot.fw.isSome = true
  lower : ((allDomains.filter fun y => decide (domainOrder y < domainOrder x)).all fun y =>
    d.pwr.powered.contains y || d.domainOff y) = true

/-- The device with a domain powered. -/
def Dev.withDomain (d : Dev) (x : Domain) : Dev := { d with pwr := { d.pwr with powered := d.pwr.powered ++ [x] } }

theorem Dev.MayPower.guard {d : Dev} {x : Domain} (h : d.MayPower x) :
    allDomains.contains x ∧ !d.pwr.powered.contains x ∧ d.pwr.powered ≠ [] ∧ !d.domainOff x ∧
      (domainOrder x ≤ 2 ∨ d.boot.fw.isSome) ∧
      (allDomains.filter fun y => decide (domainOrder y < domainOrder x)).all (fun y => d.pwr.powered.contains y || d.domainOff y) :=
  ⟨h.domain, by rw [h.unpowered]; rfl, h.someOn, by rw [h.feeds]; rfl, h.verified, h.lower⟩

theorem Dev.powerGood_part {d : Dev} {p : Nat} (h : d.MayPower (.part p)) : d.powerGood (.part p) = d.withDomain (.part p) :=
  if_pos h.guard

/-- A management core that gets power begins its self-test (R387). -/
theorem Dev.powerGood_mgmt {d : Dev} {n : Nat} (h : d.MayPower (.mgmt n)) (hc : d.core n = 0) :
    d.powerGood (.mgmt n) = (d.withDomain (.mgmt n)).setCore n 1 :=
  (if_pos h.guard).trans (if_pos hc)

theorem allDomains_contains_part (p : Fin 16) : allDomains.contains (.part p) = true := by
  revert p
  decide

theorem allDomains_contains_mgmt (n : Fin 2) : allDomains.contains (.mgmt n) = true := by
  revert n
  decide

theorem Dev.mayPower_part {d : Dev} {p : Fin 16} (hs : d.pwr.powered ≠ []) (hn : d.pwr.powered.contains (Domain.part p) = false)
    (hp : d.partState p ≠ 4) (hf : d.boot.fw.isSome = true)
    (hl : ((allDomains.filter fun y => decide (domainOrder y < 6)).all fun y => d.pwr.powered.contains y || d.domainOff y) = true) :
    d.MayPower (.part p) :=
  ⟨allDomains_contains_part p, hn, hs, beq_false_of_ne hp, .inr hf, hl⟩

/-- Below the management cores are AON and HUB. -/
theorem Dev.mayPower_mgmt {d : Dev} {n : Fin 2} (ha : d.pwr.powered.contains Domain.aon = true)
    (hh : d.pwr.powered.contains Domain.hub = true) (hn : d.pwr.powered.contains (Domain.mgmt n) = false)
    (ho : d.domainOff (Domain.mgmt n) = false) (hf : d.boot.fw.isSome = true) : d.MayPower (.mgmt n) where
  domain := allDomains_contains_mgmt n
  unpowered := hn
  someOn := fun h => by rw [h] at ha; exact Bool.false_ne_true ha
  feeds := ho
  verified := .inr hf
  lower := by
    have hlow : (allDomains.filter fun y => decide (domainOrder y < domainOrder (.mgmt n))) = [.aon, .hub] := rfl
    simp only [hlow, List.all_cons, List.all_nil, ha, hh, Bool.true_or, Bool.and_self]

/-! ### PMBus, VDDQ_D and temperature (R451, R452, R462) -/

theorem Dev.pmbusPoll_third_a {d : Dev} (h : d.pwr.pollFailA = 2) :
    d.pmbusPoll false true = ({ d with pwr := { d.pwr with pollFailA := 3, pollFailB := 0 } }).raise Src.PWR_telemetry_lost := by
  simp only [Dev.pmbusPoll, h]
  rfl

theorem Dev.vddqLow_idleKeep {d : Dev} (hi : d.get Reg.AON_IDLE_STATUS_state = 2) :
    d.vddqLow = { d with pwr := { d.pwr with ddrLost := true } } := if_pos hi

theorem Dev.vddqLow_untrained {d : Dev} (hi : d.get Reg.AON_IDLE_STATUS_state ≠ 2) (hr : d.ranStage < 5) :
    d.vddqLow = { d with pwr := { d.pwr with vddqDrop := true } } :=
  (if_neg hi).trans (if_neg (Nat.not_le.mpr hr))

theorem Dev.vddqLow_trained {d : Dev} (hi : d.get Reg.AON_IDLE_STATUS_state ≠ 2) (hr : 5 ≤ d.ranStage) :
    d.vddqLow = (List.range 16).foldl (fun (d : Dev) p => d.raise (Src.LPD_lpd_retrain_fail p)) d :=
  (if_neg hi).trans (if_pos hr)

section
variable {d : Dev} {temps : List Int} {t : Int} (hi : d.get Reg.AON_IDLE_STATUS_state ≠ 2) (hm : temps.max? = some t)
include hi hm

theorem Dev.thermalSample_below (ht : t < 110 * 16) :
    d.thermalSample temps = { d with pwr := { d.pwr with junction := t, hot := decide (100 * 16 < t), trip := false } } := by
  have hthermtrip : ¬ 125 * 16 ≤ t := by omega
  have htrip : ¬ 110 * 16 ≤ t := by omega
  simp only [Dev.thermalSample, hi, hm, hthermtrip, htrip, false_and, if_false]

/-- The second reading in succession at or above 110 °C trips. -/
theorem Dev.thermalSample_trips (ht : 110 * 16 ≤ t) (hlt : t < 125 * 16) (hj : 110 * 16 ≤ d.pwr.junction) (hf : d.pwr.trip = false) :
    d.thermalSample temps =
      ({ d with pwr := { d.pwr with junction := t, hot := true, trip := true } }).raise Src.FLT_thermal_trip := by
  have hthermtrip : ¬ 125 * 16 ≤ t := by omega
  have hhot : 100 * 16 < t := by omega
  simp only [Dev.thermalSample, hi, hm, hthermtrip, hhot, ht, hj, hf, false_and, and_self, decide_true, Bool.false_eq_true, if_false,
    if_true]

end

end Sys2Proof.Machine

namespace Sys2Proof.Proofs

open Sys2Proof Sys2Proof.Machine

/-- Settles O25, command by command. -/
theorem singleFeedAndLimits : Obligations.SingleFeedAndLimits := by
  unfold Obligations.SingleFeedAndLimits
  refine ⟨fun mw avg hold down rate c a g agr stp s => ?highWindow, fun mw avg hold down rate c a g agr stp s => ?lowWindow,
    fun s hs ho => ?overEnvelope, fun s => rfl, fun ida idb slot s hp ha hb hab => ?powerOn, fun p s hs hn hp hf hl => ?part,
    fun n s ha hh hn ho hf hc => ?mgmt, fun s => rfl, fun s h => ?poll, fun s => rfl, fun s hi => ?vddqIdleKeep,
    fun s hi hr => ?vddqUntrained, fun s hi hr => ?vddqTrained, fun temps t s hi hm ht => ?cool,
    fun temps t s hi hm ht hlt hj hf => ?trip⟩
  case highWindow =>
    intro d hs hh ho
    exact State.next_withDev ((Dev.limiterWindow_singleFeed rfl hs hh _ _ _ _).trans
      (congrArg Dev.settleLimit (Dev.limitWindow_above ho d _ _)))
  case lowWindow =>
    intro d hs hh hu ha
    exact State.next_withDev ((Dev.limiterWindow_singleFeed rfl hs hh _ _ _ _).trans
      (congrArg Dev.settleLimit (Dev.limitWindow_below hu ha _ _)))
  case overEnvelope => exact State.next_withDev (Dev.overEnvelope_raised hs ho)
  case powerOn => exact State.next_withDev (Dev.powerOn_both hp ha hb hab slot.toNat)
  case part => exact State.next_withDev (Dev.powerGood_part (Dev.mayPower_part hs hn hp hf hl))
  case mgmt => exact State.next_withDev (Dev.powerGood_mgmt (Dev.mayPower_mgmt ha hh hn ho hf) hc)
  case poll => exact State.next_withDev (Dev.pmbusPoll_third_a h)
  case vddqIdleKeep => exact State.next_withDev (Dev.vddqLow_idleKeep hi)
  case vddqUntrained => exact State.next_withDev (Dev.vddqLow_untrained hi hr)
  case vddqTrained => exact State.next_withDev (Dev.vddqLow_trained hi hr)
  case cool => exact State.next_withDev (Dev.thermalSample_below hi hm ht)
  case trip => exact State.next_withDev (Dev.thermalSample_trips hi hm ht hlt hj hf)

end Sys2Proof.Proofs

namespace Sys2Proof.Machine

/-! ### Idle-Keep and waking (R61 to R64, R350, R460) -/

section
variable {d : Dev} (h0 : d.get Reg.AON_IDLE_STATUS_state = 0)
include h0

theorem Dev.idleEnter_member (hm : d.isMember = true) : d.idleEnter = d.put Reg.AON_IDLE_STATUS_refuse 0x01 := by
  have hout : ¬ (d.get Reg.AON_IDLE_STATUS_state = 1 ∨ d.get Reg.AON_IDLE_STATUS_state = 2) := by omega
  exact (if_neg hout).trans (if_pos hm)

/-- Entry begins: every page that is on begins its drain. -/
theorem Dev.idleEnter_begins (hm : d.isMember = false) (hw : ((List.range 5).any fun i => d.flag (wakeEnable i)) = true)
    (hst : d.stage = 0xA) (hp : ((List.range 16).any fun p => d.partState p == 2) = false)
    (hr : (ownPages.any fun pg => d.flag (Reg.PAGE_STATUS_reset_active pg)) = false) :
    d.idleEnter =
      let e := (d.put Reg.AON_IDLE_STATUS_refuse 0).put Reg.AON_IDLE_STATUS_state 1
      (ownPages.filter e.pageOn).foldl (fun (d : Dev) pg => match pageBlock pg with | some b => d.pageOffNow pg b | none => d) e := by
  have hout : ¬ (d.get Reg.AON_IDLE_STATUS_state = 1 ∨ d.get Reg.AON_IDLE_STATUS_state = 2) := by omega
  refine (if_neg hout).trans ((if_neg (ne_true_of_eq_false hm)).trans ((if_neg ?wakes).trans (if_neg ?free)))
  case wakes => rw [hw]; exact Bool.false_ne_true
  case free =>
    rw [hp, hr]
    exact fun h => h.elim (fun h => h.1 hst) Bool.false_ne_true

end

/-- The device in Idle-Keep: all but AON is off, with what LPDDR4X holds kept (R62, R258). -/
def Dev.aonOnly (d : Dev) : Dev :=
  { d.resetDevice with lpd := d.lpd, jobs := d.jobs, mir := d.mir, pwr := { d.resetDevice.pwr with powered := [.aon] } }

theorem Dev.get_aonOnly (d : Dev) (f : Fld) : d.aonOnly.get f = d.resetDevice.get f := rfl

/-- At the end of the entry synchronised time goes into holdover (R350). -/
theorem Dev.idleEntered_synchronised {d : Dev} (h1 : d.get Reg.AON_IDLE_STATUS_state = 1) (hw : d.pwr.wakeNow = false)
    (ht : d.resetDevice.get Reg.TIME_STATUS_state = 3) :
    d.idleEntered = (d.aonOnly.put Reg.TIME_STATUS_state 4).put Reg.AON_IDLE_STATUS_state 2 := by
  have hsync : 1 ≤ d.aonOnly.get Reg.TIME_STATUS_state ∧ d.aonOnly.get Reg.TIME_STATUS_state ≤ 3 := by
    rw [Dev.get_aonOnly, ht]
    decide
  exact (if_neg (not_not.mpr h1)).trans
    ((if_neg (ne_true_of_eq_false hw)).trans (congrArg (Dev.put · Reg.AON_IDLE_STATUS_state 2) (if_pos hsync)))

section
variable {d : Dev} {i : Nat}

theorem Dev.wakeBy_disabled (h : d.get (wakeEnable i) = 0) : d.wakeBy i = d :=
  if_pos (.inl (by rw [Dev.flag_eq_false.mpr h]; rfl))

section
variable (he : d.get (wakeEnable i) ≠ 0)
include he

/-- On the way into Idle-Keep a wake source is kept for the end of the entry. -/
theorem Dev.wakeBy_entering (h1 : d.get Reg.AON_IDLE_STATUS_state = 1) :
    d.wakeBy i =
      let e := d.setBitOf Reg.AON_WAKE_CAUSE_cause i
      { e with pwr := { e.pwr with wakeNow := true } } := by
  simp only [Dev.wakeBy, Dev.flag_eq_true.mpr he, h1]
  rfl

theorem Dev.wakeBy_idleKeep (h2 : d.get Reg.AON_IDLE_STATUS_state = 2) :
    d.wakeBy i = (d.setBitOf Reg.AON_WAKE_CAUSE_cause i).wakeUp := by
  simp only [Dev.wakeBy, Dev.flag_eq_true.mpr he, h2]
  rfl

end

theorem Dev.wakeCmp_reached (ha : d.get (Reg.AON_WAKE_CMP_arm i) ≠ 0) (hs : d.get (Reg.AON_WAKE_CMP_seconds i) ≤ secOf d.time) :
    d.wakeCmp i = d.wakeBy (2 + i) :=
  if_pos ⟨Dev.flag_eq_true.mpr ha, hs⟩

end

end Sys2Proof.Machine

namespace Sys2Proof.Proofs

open Sys2Proof Sys2Proof.Machine

/-- Settles O26: every wake source is `Dev.wakeBy`, in the three cases above. -/
theorem idleKeepAndWaking : Obligations.IdleKeepAndWaking := by
  unfold Obligations.IdleKeepAndWaking
  refine ⟨fun s ht h0 hm => ?member, fun s ht h0 hm hw hst hp hr => ?begins, fun s h1 hw ht => ?entered, fun i s ha hs he h2 => ?cmp,
    fun s he h1 => ?pin, fun s => rfl, fun s he h2 => ?i3c, fun s h => ?disabled⟩
  case member => exact State.next_withDev ((if_pos ht).trans (Dev.idleEnter_member h0 hm))
  case begins => exact State.next_withDev ((if_pos ht).trans (Dev.idleEnter_begins h0 hm hw hst hp hr))
  case entered => exact State.next_withDev (Dev.idleEntered_synchronised h1 hw ht)
  case cmp => exact State.next_withDev ((Dev.wakeCmp_reached ha hs).trans (Dev.wakeBy_idleKeep he h2))
  case pin => exact State.next_withDev (Dev.wakeBy_entering he h1)
  case i3c => exact State.next_withDev (Dev.wakeBy_idleKeep he h2)
  case disabled => exact State.next_withDev (Dev.wakeBy_disabled h)

end Sys2Proof.Proofs

namespace Sys2Proof.Machine

/-! ### Attestation (R77) -/

section
variable {d : Dev}

theorem Dev.attestGo_idle (h : d.get Reg.SEC_ATT_STATUS_busy = 0) :
    d.attestGo =
      let sig := bytesOf 96 (Config.ecdsaSign (Config.sha384 d.reportBody))
      ({ d with boot := { d.boot with report := (d.reportBody ++ sig).map BitVec.toNat } }).put Reg.SEC_ATT_STATUS_busy 1 :=
  if_neg (ne_true_of_eq_false (Dev.flag_eq_false.mpr h))

theorem Dev.attestGo_busy (h : d.get Reg.SEC_ATT_STATUS_busy ≠ 0) : d.attestGo = d := if_pos (Dev.flag_eq_true.mpr h)

theorem Dev.attestDone_busy (h : d.get Reg.SEC_ATT_STATUS_busy ≠ 0) :
    d.attestDone = ((d.put Reg.SEC_ATT_STATUS_busy 0).put Reg.SEC_ATT_STATUS_done 1).put Reg.SEC_ATT_STATUS_len 336 :=
  if_pos (Dev.flag_eq_true.mpr h)

end

end Sys2Proof.Machine

namespace Sys2Proof.Proofs

open Sys2Proof Sys2Proof.Machine

/-- Settles O24: the report is taken at the go, and only the busy flag decides. -/
theorem attestation : Obligations.Attestation := by
  unfold Obligations.Attestation
  exact ⟨fun _ h => State.next_withDev (Dev.attestGo_idle h), fun _ h => State.next_withDev (Dev.attestGo_busy h),
    fun _ h => State.next_withDev (Dev.attestDone_busy h)⟩

end Sys2Proof.Proofs

namespace Sys2Proof.Machine

/-! ### The checks of an image, and the anti-rollback counter (R74, R75) -/

/-- A check that answers its code where it fails, and else goes on to the next. -/
theorem code_ite_eq_zero {c : Prop} [Decidable c] {code rest : Nat} (h : code ≠ 0) :
    (if c then code else rest) = 0 ↔ ¬c ∧ rest = 0 := by
  split <;> simp [*]

/-- The fuse that revokes the key slot of an image. -/
def revokedFuse (bs : List Byte) : Fld := if field bs 6 1 = 0 then Reg.SEC_FUSE_slot0_revoked else Reg.SEC_FUSE_slot1_revoked

theorem rollback_key_ne_revokedFuse (bs : List Byte) : Reg.SEC_FUSE_rollback.key ≠ (revokedFuse bs).key := by
  unfold revokedFuse
  split <;> decide

/-- The checks of R74 that do not read the anti-rollback counter. -/
structure Dev.ImageSound (d : Dev) (magic : Nat) (bs : List Byte) : Prop where
  length : ¬(bs.length < 0x200 ∨ imageLen bs < 0x200 ∨ bs.length < imageLen bs)
  header : ¬(field bs 0 4 ≠ magic ∨ field bs 4 2 ≠ 1 ∨ 1 < field bs 6 1)
  key : Config.sha384 ((bs.drop 0x20).take 97) = Config.fusedKeyHash (field bs 6 1)
  unrevoked : d.flag (revokedFuse bs) = false
  signature : Config.ecdsaOk (fieldBe bs 0x20 97)
    (Config.sha384 ((bs.take (imageLen bs)).take 0x100 ++ (bs.take (imageLen bs)).drop 0x200)) (fieldBe bs 0x100 96) = true

theorem Dev.checkImage_eq_zero {d : Dev} {magic : Nat} {bs : List Byte} :
    d.checkImage magic bs = 0 ↔ d.ImageSound magic bs ∧ d.get Reg.SEC_FUSE_rollback ≤ field bs 8 4 := by
  simp (disch := decide) only [Dev.checkImage, code_ite_eq_zero, not_not, Nat.not_lt, Bool.not_eq_true, Bool.not_eq_false',
    and_true]
  exact ⟨fun ⟨hl, hh, hk, hu, hr, hs⟩ => ⟨⟨hl, hh, hk, hu, hs⟩, hr⟩, fun ⟨⟨hl, hh, hk, hu, hs⟩, hr⟩ => ⟨hl, hh, hk, hu, hr, hs⟩⟩

/-- The counter is no input of the other checks. -/
theorem Dev.imageSound_put_rollback {d : Dev} {magic : Nat} {bs : List Byte} {v : Nat} :
    (d.put Reg.SEC_FUSE_rollback v).ImageSound magic bs ↔ d.ImageSound magic bs := by
  have hfuse : (d.put Reg.SEC_FUSE_rollback v).flag (revokedFuse bs) = d.flag (revokedFuse bs) :=
    congrArg (· != 0) (Dev.get_put_ne (rollback_key_ne_revokedFuse bs) d v)
  exact ⟨fun ⟨hl, hh, hk, hu, hs⟩ => ⟨hl, hh, hk, hfuse ▸ hu, hs⟩, fun ⟨hl, hh, hk, hu, hs⟩ => ⟨hl, hh, hk, hfuse ▸ hu, hs⟩⟩

theorem Dev.checkImage_eq_zero_iff_rollback {d : Dev} {magic : Nat} {bs : List Byte} :
    d.checkImage magic bs = 0 ↔
      (d.put Reg.SEC_FUSE_rollback 0).checkImage magic bs = 0 ∧ d.get Reg.SEC_FUSE_rollback ≤ field bs 8 4 := by
  have hzero : (d.put Reg.SEC_FUSE_rollback 0).get Reg.SEC_FUSE_rollback ≤ field bs 8 4 :=
    (Dev.get_put_self d _ 0).trans_le (Nat.zero_le _)
  simp only [Dev.checkImage_eq_zero, Dev.imageSound_put_rollback, hzero, and_true]

section
variable {d : Dev}

theorem Dev.rollback_advances {f : ObjInfo} (hf : d.boot.fw = some f) (hs : d.stage = 0xA) (h : d.get Reg.SEC_FUSE_rollback < f.svn) :
    d.rollback = d.put Reg.SEC_FUSE_rollback f.svn := by
  simp only [Dev.rollback, hf, hs, h, and_self, if_true]

theorem Dev.rollback_not_greater {f : ObjInfo} (hf : d.boot.fw = some f) (h : f.svn ≤ d.get Reg.SEC_FUSE_rollback) : d.rollback = d := by
  simp only [Dev.rollback, hf, Nat.not_lt.mpr h, and_false, if_false]

theorem Dev.rollback_outside (hs : d.stage ≠ 0xA) : d.rollback = d := by
  unfold Dev.rollback
  split
  · exact if_neg fun h => hs h.1
  · rfl

/-- The end of the verification of a firmware object, whatever it found (R74, R75). -/
theorem Dev.verifyDone_checking {f : FetchSt} (hs : d.stage = 2) (hf : d.boot.fetch = some f) (hc : f.checking = true) :
    d.verifyDone =
      let bs : List Byte := f.bytes.map fun b => BitVec.ofNat 8 b
      if d.checkImage 0x3150464B bs = 0 then
        (({ d with boot := { d.boot with fw := some { objInfo bs with bytes := [] } } }).fwlEnd 0x00).endStage
      else ((d.fwlEnd (d.checkImage 0x3150464B bs)).put Reg.BOOT_STATUS_stage 1).waitStart := by
  unfold Dev.verifyDone
  rw [hf]
  exact if_neg (by simp [hc, hs])

end

end Sys2Proof.Machine

namespace Sys2Proof.Proofs

open Sys2Proof Sys2Proof.Machine

/-- Settles O21: the counter by the cases of `Dev.rollback`, an image by the conjunction of its checks. -/
theorem antiRollback : Obligations.AntiRollback := by
  unfold Obligations.AntiRollback
  refine ⟨fun f s hf hs h => ?advances, fun f s hf h => ?notGreater, fun s hs => ?outside, fun f s hs hf hc hbad => ?refused,
    fun _ _ _ => Dev.checkImage_eq_zero_iff_rollback⟩
  case advances => exact State.next_withDev (Dev.rollback_advances hf hs h)
  case notGreater => exact State.next_withDev (Dev.rollback_not_greater hf h)
  case outside => exact State.next_withDev (Dev.rollback_outside hs)
  case refused => exact State.next_withDev ((Dev.verifyDone_checking hs hf hc).trans (if_neg hbad))

end Sys2Proof.Proofs

namespace Sys2Proof.Machine

/-! ### The loader page (R65, R69 to R74) -/

/-- The device with a go noted: the object's type shows, and no bytes have come. -/
def Dev.fwlAsked (d : Dev) (obj : Nat) : Dev := ((d.put Reg.FWL_CTRL_obj obj).put Reg.FWL_STATUS_obj obj).put Reg.FWL_STATUS_bytes 0

/-- The device with a download of firmware counted. -/
def Dev.fwlCounted (d : Dev) : Dev := d.put Reg.BOOT_STATUS_attempts (Nat.min 255 (d.get Reg.BOOT_STATUS_attempts + 1))

theorem Dev.fwlAsked_len (d : Dev) (obj : Nat) : (d.fwlAsked obj).get Reg.FWL_LEN_len = d.get Reg.FWL_LEN_len :=
  (Dev.get_put_ne (by decide) _ _).trans ((Dev.get_put_ne (by decide) _ _).trans (Dev.get_put_ne (by decide) _ _))

section
variable {d : Dev} {obj : Nat}

theorem Dev.fwlGo_busy (hb : d.get Reg.FWL_STATUS_busy ≠ 0) : d.fwlGo obj = d := if_pos (.inl (Dev.flag_eq_true.mpr hb))

section
variable (hb : d.get Reg.FWL_STATUS_busy = 0) (he : d.get (Reg.PAGE_STATUS_enabled 0x003) ≠ 0)
include hb he

/-- An enabled page without an object in progress takes a go. -/
theorem Dev.fwlGo_taken : ¬(d.flag Reg.FWL_STATUS_busy = true ∨ (!d.flag (Reg.PAGE_STATUS_enabled 0x003)) = true) := by
  simp [Dev.flag_eq_false.mpr hb, Dev.flag_eq_true.mpr he]

theorem Dev.fwlGo_notAccepted (ha : (d.fwlAsked obj).accepts obj = false) : d.fwlGo obj = (d.fwlAsked obj).fwlEnd 0x01 :=
  (if_neg (Dev.fwlGo_taken hb he)).trans (if_pos (by rw [Bool.not_eq_true']; exact ha))

theorem Dev.fwlGo_firmware (ha : (d.fwlAsked 1).accepts 1 = true) (h0 : (d.fwlAsked 1).get Reg.FWL_LEN_len ≠ 0)
    (hl : (d.fwlAsked 1).get Reg.FWL_LEN_len ≤ maxLen 1) :
    d.fwlGo 1 =
      let e := (d.fwlAsked 1).fwlCounted
      ({ e with boot := { e.boot with
          fetch := some ⟨1, e.get Reg.FWL_ADDR_addr, d.get Reg.FWL_LEN_len, false, [], e.stagingPart⟩ } }).put Reg.FWL_STATUS_busy 1 := by
  rw [← d.fwlAsked_len 1]
  refine (if_neg (Dev.fwlGo_taken hb he)).trans ((if_neg ?accepted).trans (if_neg (not_or.mpr ⟨h0, Nat.not_lt.mpr hl⟩)))
  rw [Bool.not_eq_true', Bool.not_eq_false]
  exact ha

end

theorem Dev.fwlAbort_busy (hb : d.get Reg.FWL_STATUS_busy ≠ 0) (hs : d.stage ≠ 2) : d.fwlAbort = d.fwlEnd 0x09 :=
  (if_pos (Dev.flag_eq_true.mpr hb)).trans (if_neg (by simp [hs]))

theorem Dev.fwlAbort_idle (hb : d.get Reg.FWL_STATUS_busy = 0) : d.fwlAbort = d :=
  if_neg (ne_true_of_eq_false (Dev.flag_eq_false.mpr hb))

/-- The device with the bytes of a fetch read, as many as the fetch asked for. -/
def Dev.fetched (d : Dev) (f : FetchSt) (bs : List Byte) : Dev :=
  (d.dmaRead (some bs)).put Reg.FWL_STATUS_bytes (bs.take f.len).length

section
variable {f : FetchSt} (hf : d.boot.fetch = some f) (hc : f.checking = false)
include hf hc

theorem Dev.fetchDone_failed : d.fetchDone none = (d.dmaRead none).fwlEnd 0x03 := by
  unfold Dev.fetchDone
  rw [hf]
  exact if_neg (ne_true_of_eq_false hc)

theorem Dev.fetchDone_some (bs : List Byte) :
    d.fetchDone (some bs) =
      let e := d.fetched f bs
      if f.obj = 1 then
        (({ e with boot := { e.boot with
          fetch := some { f with checking := true, bytes := (bs.take f.len).map BitVec.toNat } } }).waitEnd).endStage
      else if f.obj = 2 then e.packFetched f.part (bs.take f.len)
      else e.planFetched (bs.take f.len) := by
  unfold Dev.fetchDone
  rw [hf]
  exact if_neg (ne_true_of_eq_false hc)

theorem Dev.fetchDone_firmware (ho : f.obj = 1) (bs : List Byte) :
    d.fetchDone (some bs) =
      let e := d.fetched f bs
      (({ e with boot := { e.boot with
        fetch := some { f with checking := true, bytes := (bs.take f.len).map BitVec.toNat } } }).waitEnd).endStage :=
  (Dev.fetchDone_some hf hc bs).trans (if_pos ho)

theorem Dev.fetchDone_pack (ho : f.obj = 2) (bs : List Byte) :
    d.fetchDone (some bs) = (d.fetched f bs).packFetched f.part (bs.take f.len) := by
  have h1 : f.obj ≠ 1 := by omega
  exact (Dev.fetchDone_some hf hc bs).trans ((if_neg h1).trans (if_pos ho))

theorem Dev.fetchDone_plan (ho : f.obj = 3) (bs : List Byte) :
    d.fetchDone (some bs) = (d.fetched f bs).planFetched (bs.take f.len) := by
  have h1 : f.obj ≠ 1 := by omega
  have h2 : f.obj ≠ 2 := by omega
  exact (Dev.fetchDone_some hf hc bs).trans ((if_neg h1).trans (if_neg h2))

end

/-- A plan that is there in full is applied or rejected (R273). -/
theorem Dev.planFetched_whole {bs : List Byte} (h : 0x280 ≤ bs.length) (hl : field bs 0x18 4 ≤ bs.length) :
    d.planFetched bs =
      if d.planReject bs = 0 then (d.fwlEnd 0x00).planInForce (parsePlan bs)
      else (d.put Reg.DEV_PLAN_STATUS_reject (d.planReject bs)).fwlEnd 0x0B :=
  if_neg (not_or.mpr ⟨Nat.not_lt.mpr h, Nat.not_lt.mpr hl⟩)

end

end Sys2Proof.Machine

namespace Sys2Proof.Proofs

open Sys2Proof Sys2Proof.Machine

/-- Settles O22: each command of the loader page by the case it is in. -/
theorem loaderPage : Obligations.LoaderPage := by
  unfold Obligations.LoaderPage
  refine ⟨fun obj s => ?firmware, fun obj s => ?notAccepted, fun obj s hb => ?goBusy, fun s hb hs => ?abort, fun s hb => ?abortIdle,
    fun f s hf hc => ?failed, fun f bs s hf hc ho => ?firmwareFetched, fun f bs s => ?packFetched, fun f bs s => ?planFetched,
    fun f s => ?verified⟩
  case firmware =>
    intro d hb he hobj ha h0 hl _
    subst hobj
    exact State.next_withDev (Dev.fwlGo_firmware hb he ha h0 hl)
  case notAccepted =>
    intro d hb he ha
    exact State.next_withDev (Dev.fwlGo_notAccepted hb he ha)
  case goBusy => exact State.next_withDev (Dev.fwlGo_busy hb)
  case abort => exact State.next_withDev (Dev.fwlAbort_busy hb hs)
  case abortIdle => exact State.next_withDev (Dev.fwlAbort_idle hb)
  case failed => exact State.next_withDev (Dev.fetchDone_failed hf hc)
  case firmwareFetched => exact State.next_withDev (Dev.fetchDone_firmware hf hc ho bs)
  case packFetched =>
    intro d hf hc ho
    exact State.next_withDev (Dev.fetchDone_pack hf hc ho bs)
  case planFetched =>
    intro d hf hc ho h hl
    exact State.next_withDev ((Dev.fetchDone_plan hf hc ho bs).trans (Dev.planFetched_whole h hl))
  case verified =>
    intro bs hs hf hc
    exact State.next_withDev (Dev.verifyDone_checking hs hf hc)

end Sys2Proof.Proofs

namespace Sys2Proof.Machine

/-! ### The stage through a raised fault source (R65, R366 to R372) -/

section
variable {d : Dev}

/-- A field at another address than BOOT_STATUS leaves the stage. -/
@[simp] theorem Dev.stage_put {a lo w r : Nat} (ha : a ≠ 0x1100) (hlo : lo < 64) (v : Nat) :
    (d.put ⟨a, lo, w, r⟩ v).stage = d.stage := by
  refine Dev.get_put_ne (fun hk => ?_) d v
  simp only [Fld.key] at hk
  omega

section
variable {a lo w r : Nat} (ha : a ≠ 0x1100)
include ha

@[simp] theorem Dev.stage_setBitOf (hlo : lo < 64) (i : Nat) : (d.setBitOf ⟨a, lo, w, r⟩ i).stage = d.stage := Dev.stage_put ha hlo _
@[simp] theorem Dev.stage_putB (hlo : lo < 64) (b : Bool) : (d.putB ⟨a, lo, w, r⟩ b).stage = d.stage := Dev.stage_put ha hlo _
@[simp] theorem Dev.stage_addU (n : Nat) : (d.addU ⟨a, 0, w, r⟩ n).stage = d.stage := Dev.stage_put ha (by decide) _
@[simp] theorem Dev.stage_incU : (d.incU ⟨a, 0, w, r⟩).stage = d.stage := Dev.stage_addU ha 1

end

theorem Dev.stage_foldl {α : Type} {f : Dev → α → Dev} (hf : ∀ d x, (f d x).stage = d.stage) (l : List α) (d : Dev) :
    (l.foldl f d).stage = d.stage := by
  induction l generalizing d with
  | nil => rfl
  | cons x t ih => exact (ih (f d x)).trans (hf d x)

@[simp] theorem Dev.stage_emit (o : Out) : (d.emit o).stage = d.stage := rfl
@[simp] theorem Dev.stage_setCtx (c : Nat) (x : Ctx) : (d.setCtx c x).stage = d.stage := rfl
@[simp] theorem Dev.stage_freeThread (k : Nat) : (d.freeThread k).stage = d.stage := rfl
@[simp] theorem Dev.stage_ctxWrites (c : Nat) (ws : Writes) : (d.ctxWrites c ws).stage = d.stage := rfl
@[simp] theorem Dev.stage_standsRedo (ks : List Nat) : (d.standsRedo ks).stage = d.stage := rfl
@[simp] theorem Dev.stage_loseTiles (on : Nat → Bool) : (d.loseTiles on).stage = d.stage := rfl
@[simp] theorem Dev.stage_stopRecord (p : Nat) : (d.stopRecord p).stage = d.stage := rfl

@[simp] theorem Dev.stage_event (src v : Nat) : (d.event src v).stage = d.stage := by
  simp (disch := omega) only [Dev.event, apply_ite Dev.stage, Dev.stage_incU, ite_self]
  rfl

@[simp] theorem Dev.stage_incE {a w r : Nat} (ha : a ≠ 0x1100) : (d.incE ⟨a, 0, w, r⟩).stage = d.stage := by
  simp (disch := omega) [Dev.incE, apply_ite Dev.stage]

@[simp] theorem Dev.stage_msix (vf vector : Nat) : (d.msix vf vector).stage = d.stage := by
  simp [Dev.msix, apply_ite Dev.stage]

@[simp] theorem Dev.stage_latchPage (s : FltSrc) (forced : Bool) : (d.latchPage s forced).stage = d.stage := by
  simp (disch := omega) [Dev.latchPage, apply_ite Dev.stage]

@[simp] theorem Dev.stage_latchDev (s : FltSrc) : (d.latchDev s).stage = d.stage := by
  simp (disch := omega) [Dev.latchDev, apply_ite Dev.stage]

theorem Dev.stage_unreset (t : Tab Nat) : ({ d with unreset := t } : Dev).stage = d.stage := rfl
theorem Dev.stage_stop (x : StopSt) : ({ d with stop := x } : Dev).stage = d.stage := rfl

@[simp] theorem Dev.stage_latchSrc (s : FltSrc) (forced : Bool) : (d.latchSrc s forced).stage = d.stage := by
  simp [Dev.latchSrc, apply_ite Dev.stage, Dev.stage_unreset]

/-! #### Ends of commands -/

theorem Dev.stage_ctxStore {c va : Nat} {bs : List Nat} {e : Dev} (h : d.ctxStore c va bs = some e) : e.stage = d.stage := by
  unfold Dev.ctxStore at h
  split_ifs at h with hlong hmanaged hwindow
  · obtain rfl := Option.some.inj h
    exact Dev.stage_ctxWrites c _
  · obtain rfl := Option.some.inj h
    simp (disch := omega) [Dev.hostWrite]

@[simp] theorem Dev.stage_ctxError (c code : Nat) : (d.ctxError c code).stage = d.stage := by
  dsimp only [Dev.ctxError]
  split
  · exact Dev.stage_setCtx c _
  · simp [apply_ite Dev.stage]
  · rfl

@[simp] theorem Dev.stage_writeCompletion (c slot : Nat) (words : List Nat) (irq : Bool) :
    (d.writeCompletion c slot words irq).stage = d.stage := by
  dsimp only [Dev.writeCompletion]
  split
  · next h => simp [apply_ite Dev.stage, Dev.ctxIrq, Dev.stage_ctxStore h]
  · exact Dev.stage_ctxError c _

@[simp] theorem Dev.stage_endCommand (k status index : Nat) : (d.endCommand k status index).stage = d.stage := by
  simp [Dev.endCommand, apply_ite Dev.stage]

@[simp] theorem Dev.stage_endCommands (status : Nat) (ks : List Nat) : (d.endCommands status ks).stage = d.stage :=
  Dev.stage_foldl (fun _ _ => Dev.stage_endCommand _ _ _) ks d

/-! #### Safe state -/

@[simp] theorem Dev.stage_endPartition (p : Nat) : (d.endPartition p).stage = d.stage := by
  simp (disch := omega) [Dev.endPartition, Dev.reissueTiles, Dev.stage_foldl (f := Dev.freeThread) fun _ _ => rfl]

@[simp] theorem Dev.stage_abandonDrain (pg : Nat) : (d.abandonDrain pg).stage = d.stage := by
  simp (disch := omega) only [Dev.abandonDrain, apply_ite Dev.stage, Dev.stage_put]
  exact ite_self _

@[simp] theorem Dev.stage_settleDev : d.settleDev.stage = d.stage := by
  simp (disch := omega) [Dev.settleDev, apply_ite Dev.stage]

@[simp] theorem Dev.stage_enterSafe (p : Nat) : (d.enterSafe p).stage = d.stage := by
  simp (disch := omega) only [Dev.enterSafe, Dev.stage_setBitOf, Dev.stage_settleDev, Dev.stage_endPartition,
    Dev.stage_foldl (f := Dev.abandonDrain) fun _ _ => Dev.stage_abandonDrain _, apply_ite Dev.stage, Dev.stage_put, Dev.stage_incE,
    ite_self]

@[simp] theorem Dev.stage_partSafe (p : Nat) : (d.partSafe p).stage = d.stage := by
  simp only [Dev.partSafe, apply_ite Dev.stage, Dev.stage_stop, Dev.stage_enterSafe, ite_self]

@[simp] theorem Dev.stage_devSafe (s : FltSrc) : (d.devSafe s).stage = d.stage := by
  simp (disch := omega) only [Dev.devSafe, Dev.stage_emit, Dev.stage_foldl (f := Dev.partSafe) fun _ _ => Dev.stage_partSafe _,
    apply_ite Dev.stage, Dev.stage_put, Dev.stage_incE, ite_self]

@[simp] theorem Dev.stage_contain (s : FltSrc) : (d.contain s).stage = d.stage := by
  unfold Dev.contain
  split
  · split
    · exact Dev.stage_partSafe _
    · rfl
  · exact Dev.stage_devSafe s
  · rfl

/-! #### The global stop, and the raise -/

@[simp] theorem Dev.stage_raiseBase (s : FltSrc) (forced : Bool) : (d.raiseBase s forced).stage = d.stage := by
  simp [Dev.raiseBase, apply_ite Dev.stage]

@[simp] theorem Dev.stage_stopTrigger (cause : Nat) : (d.stopTrigger cause).stage = d.stage := by
  simp (disch := omega) only [Dev.stopTrigger, Dev.stage_incU, apply_ite Dev.stage, Dev.stage_raiseBase, Dev.stage_put,
    Dev.stage_foldl (f := Dev.stopRecord) fun _ _ => rfl, Dev.stage_stop, ite_self]

@[simp] theorem Dev.stage_raise0 (s : FltSrc) (forced : Bool) : (d.raise0 s forced).stage = d.stage := by
  simp [Dev.raise0, apply_ite Dev.stage]

/-- A source of a page of no partition takes no partition out of service. -/
theorem Dev.raise_of_noPart {s : FltSrc} (h : pagePart s.page = none) : d.raise s = d.raise0 s false := by
  simp only [Dev.raise, Dev.raiseSrc, h]
  unfold Dev.raise0
  split <;> rfl

theorem Dev.stage_raise_of_noPart {s : FltSrc} (h : pagePart s.page = none) : (d.raise s).stage = d.stage := by
  rw [Dev.raise_of_noPart h, Dev.stage_raise0]

end

/-! ### Power-up (R65 to R68, R78 to R80, R83, R85, R350) -/

section
variable {d : Dev}

theorem Dev.startTests_running (hs : d.stage = 3) (hr : d.boot.fwRunning = true) : d.startTests = d.endStage :=
  (if_neg (not_not.mpr hs)).trans (if_pos hr)

theorem Dev.startTests_held (hs : d.stage = 3) (hr : d.boot.fwRunning = false) :
    d.startTests = { d with boot := { d.boot with startHeld := true } } :=
  (if_neg (not_not.mpr hs)).trans (if_neg (ne_true_of_eq_false hr))

theorem Dev.packWait_running (hs : d.stage = 3) (hr : d.boot.fwRunning = true) : d.packWait = d.endStage := if_pos ⟨hs, hr⟩

/-- The device with the results of the power-up tests noted (R69, R79, R427, R428). -/
def Dev.tested (d : Dev) (fs : List Findings) (lanes : Nat) (vf : List (List (Nat × Int × Bool))) (p0 : Nat) : Dev :=
  let d := (fs.take 16).zipIdx.foldl (fun (d : Dev) f => d.applyFindings f.2 f.1) d
  let d := (vf.take 16).zipIdx.foldl (fun (d : Dev) t =>
    let e := d.setMon t.2 { d.mon t.2 with table := t.1.map fun e => (⟨e.1, e.2.1, e.2.2⟩ : VfPoint) }
    e.put (Reg.MON_STATUS_run_pt t.2) (e.planPoint t.2)) d
  ({ d with boot := { d.boot with laneFail := lanes } }).put Reg.DEV_NRG_P0_mw p0

/-- The pack fetched in stage 0x3 counts as applied when its read-back passed (R78). -/
def Dev.packApplied (d : Dev) (ok : Bool) : Dev :=
  match d.boot.pack3 with
  | some q => if ok then { d with boot := { d.boot with applied := some q.digest } } else d
  | none => d

theorem Dev.packApplied_none (h : d.boot.pack3 = none) (ok : Bool) : d.packApplied ok = d := by
  unfold Dev.packApplied
  rw [h]

section
variable {fs : List Findings} {lanes : Nat} {vf : List (List (Nat × Int × Bool))} {p0 : Nat} (hs : d.stage = 4)
include hs

theorem Dev.testsDone_eq (hub ok : Bool) :
    d.testsDone fs lanes hub ok vf p0 =
      let e := (d.tested fs lanes vf p0).packApplied ok
      if hub || decide (2 ≤ e.outCount) then e.halt 0x41 else e.endStage :=
  if_neg (not_not.mpr hs)

theorem Dev.testsDone_noPack (hp : (d.tested fs lanes vf p0).boot.pack3 = none) (hub ok : Bool) :
    d.testsDone fs lanes hub ok vf p0 =
      let e := d.tested fs lanes vf p0
      if hub || decide (2 ≤ e.outCount) then e.halt 0x41 else e.endStage := by
  rw [Dev.testsDone_eq hs, Dev.packApplied_none hp]

end

/-- The device with a partition's training noted, its contents lost (R80). -/
def Dev.ddrNoted (d : Dev) (p : Nat) (r : DdrRate) : Dev := (if r = .failed then d.bootOut p else d.ddrTrained p r).loseLpd p

/-- Outside a wake nothing in LPDDR4X was kept (R64). -/
theorem Dev.ddrStage_cold {p : Nat} {r : DdrRate} (hs : d.stage = 5) (hp : d.partState p ≠ 4)
    (hw : d.get Reg.BOOT_STATUS_wake = 0) :
    d.ddrStage p r =
      let e := d.ddrNoted p r
      if 2 ≤ e.outCount then e.halt 0x41
      else if ((List.range 16).all fun q => e.partState q == 4 || e.get (Reg.LPD_STATUS_trained q) == 15) = true then
        e.endStage.lanesDone.startDiscovery
      else e := by
  have hcold : ¬(d.flag Reg.BOOT_STATUS_wake && d.flag Reg.AON_IDLE_STATUS_ddr_kept) = true := by
    simp [Dev.flag_eq_false.mpr hw]
  refine (if_neg (not_or.mpr ⟨not_not.mpr hs, hp⟩)).trans ?_
  simp only [if_neg hcold]
  rfl

section
variable (hs : d.stage = 8)
include hs

theorem Dev.timeStage_noRack (pod : Bool) : d.timeStage false pod = d.halt 0x81 :=
  (if_neg (not_not.mpr hs)).trans (if_pos rfl)

theorem Dev.timeStage_pod :
    d.timeStage true true =
      ((d.put Reg.TIME_STATUS_state (max 2 (d.get Reg.TIME_STATUS_state))).put Reg.TIME_STATUS_state 3).endStage :=
  (if_neg (not_not.mpr hs)).trans rfl

theorem Dev.timeStage_noPod :
    d.timeStage true false =
      ((d.put Reg.TIME_STATUS_state (max 2 (d.get Reg.TIME_STATUS_state))).raise Src.TIME_pod_time_unlocked).endStage :=
  (if_neg (not_not.mpr hs)).trans rfl

end

theorem Dev.bootResume_held {t : Nat} (hh : d.get Reg.BOOT_STATUS_held ≠ 0) (ht : d.boot.heldAt = some t) :
    d.bootResume =
      let e := { d with boot := { d.boot with heldAt := none, heldUs := d.boot.heldUs + (d.nowUs - t) } }
      (e.put Reg.BOOT_STATUS_held 0).enterStage (d.boot.heldFrom + 1) := by
  refine (if_pos (Dev.flag_eq_true.mpr hh)).trans ?_
  rw [ht]

/-- The device with a trained link shown in its page. -/
def Dev.linkShown (d : Dev) (gen width : Nat) : Dev :=
  let e := ((d.put Reg.PCIE_LINK_gen gen).put Reg.PCIE_LINK_width width).put Reg.PCIE_LINK_flit (b2n (gen == 6))
  { e with boot := { e.boot with linkUp := true } }

@[simp] theorem Dev.stage_linkShown (gen width : Nat) : (d.linkShown gen width).stage = d.stage := by
  have hkeep : (((d.put Reg.PCIE_LINK_gen gen).put Reg.PCIE_LINK_width width).put Reg.PCIE_LINK_flit (b2n (gen == 6))).stage =
      d.stage := by
    simp (disch := omega) only [Dev.stage_put]
  exact hkeep

/-- Outside stage 0x1 no wait for firmware begins, whatever link_degraded leads to. -/
theorem Dev.linkTrained_outside {gen width : Nat} (hp : d.boot.perst = false) (hs : d.stage ≠ 1) :
    d.linkTrained gen width =
      if gen < 6 ∨ width < 16 then (d.linkShown gen width).raise Src.PCIE_link_degraded else d.linkShown gen width := by
  refine (if_neg (ne_true_of_eq_false hp)).trans (if_neg ?_)
  change (if gen < 6 ∨ width < 16 then (d.linkShown gen width).raise Src.PCIE_link_degraded else d.linkShown gen width).stage ≠ 1
  rwa [apply_ite Dev.stage, Dev.stage_raise_of_noPart rfl, ite_self, Dev.stage_linkShown]

theorem Dev.linkTrained_perst (hp : d.boot.perst = true) (gen width : Nat) : d.linkTrained gen width = d := if_pos hp

/-- Gen6 and 16 lanes are the last of the codes. -/
theorem link_below_best (gen width : Fin 3) : (4 + gen.val < 6 ∨ 4 * 2 ^ width.val < 16) ↔ (gen < 2 ∨ width < 2) := by
  revert gen width
  decide

theorem Dev.hostRestart_powered (h : d.pwr.powered.contains .hub = true) : d.hostRestart = d.restart := if_pos h

theorem Dev.hostRestart_unpowered (h : d.pwr.powered.contains .hub = false) : d.hostRestart = d := if_neg (ne_true_of_eq_false h)

/-- The device with PERST_N's level noted. -/
def Dev.withPerst (d : Dev) (level : Bool) : Dev := { d with boot := { d.boot with perst := level } }

end

end Sys2Proof.Machine

namespace Sys2Proof.Proofs

open Sys2Proof Sys2Proof.Machine

/-- Settles O23, command by command; a raised link_degraded leaves the stage. -/
theorem powerUpSequence : Obligations.PowerUpSequence := by
  unfold Obligations.PowerUpSequence
  refine ⟨fun s hs hr => ?start, fun s hs hr => ?startHeld, fun s hs hr => ?packWait, fun fs lanes hub ok vf p0 s => ?tests,
    fun p r s => ?ddr, fun pod s hs => ?noRack, fun s hs => ?pod, fun s hs => ?noPod, fun t s hh ht => ?resume,
    fun gen width s hp hs => ?link, fun gen width s hp => ?linkPerst, fun s h => ?perst, fun s h => ?perstUnpowered, fun s => rfl,
    fun s h => ?reset, fun s h => ?resetUnpowered⟩
  case start => exact State.next_withDev (Dev.startTests_running hs hr)
  case startHeld => exact State.next_withDev (Dev.startTests_held hs hr)
  case packWait => exact State.next_withDev (Dev.packWait_running hs hr)
  case tests =>
    intro tested tables d hs hp
    exact State.next_withDev (Dev.testsDone_noPack hs hp hub ok)
  case ddr =>
    intro d hs hp hw
    exact State.next_withDev (Dev.ddrStage_cold hs hp hw)
  case noRack => exact State.next_withDev (Dev.timeStage_noRack hs pod)
  case pod => exact State.next_withDev (Dev.timeStage_pod hs)
  case noPod => exact State.next_withDev (Dev.timeStage_noPod hs)
  case resume => exact State.next_withDev (congrArg (·.lanesDone.startDiscovery) (Dev.bootResume_held hh ht))
  case link =>
    exact State.next_withDev ((Dev.linkTrained_outside hp hs).trans (if_congr (link_below_best gen width) rfl rfl))
  case linkPerst => exact State.next_withDev (Dev.linkTrained_perst hp _ _)
  case perst => exact State.next_withDev (congrArg (Dev.withPerst · true) (Dev.hostRestart_powered h))
  case perstUnpowered => exact State.next_withDev (congrArg (Dev.withPerst · true) (Dev.hostRestart_unpowered h))
  case reset => exact ⟨State.next_withDev (Dev.hostRestart_powered h), State.next_withDev (Dev.hostRestart_powered h)⟩
  case resetUnpowered =>
    exact ⟨State.next_withDev (Dev.hostRestart_unpowered h), State.next_withDev (Dev.hostRestart_unpowered h)⟩

end Sys2Proof.Proofs

namespace Sys2Proof.Machine

/-! ### Ports of a hub without power (R21, R62) -/

/-- A page that does not answer takes no write. -/
theorem Dev.ifWritable_notThere {d : Dev} {pg : Nat} (h : d.pageThere pg = false) (f : Dev → Dev) : d.ifWritable pg f = d := by
  simp [Dev.ifWritable, h]

/-- A controller in which only AON has power, as in Idle-Keep. -/
def Dev.aonAlone : Dev := { Dev.reset with pwr := { Dev.reset.pwr with powered := [.aon] } }

theorem Dev.aonAlone_portPage (i : Fin 40) :
    Dev.aonAlone.pageThere (0x090 + i) = false ∧ Dev.aonAlone.pageInReset (0x090 + i) = false := by
  revert i
  decide

/-- A loopback asked of it changes nothing, its port pages being off with the hub. -/
theorem exec_portLoopback_aonAlone (i : Fin 40) :
    exec (.portLoopback i) ⟨Dev.aonAlone, []⟩ = .next ⟨Dev.aonAlone, []⟩ :=
  State.next_withDev (Dev.ifWritable_notThere (Dev.aonAlone_portPage i).1 _)

end Sys2Proof.Machine

namespace Sys2Proof.Proofs

open Sys2Proof Sys2Proof.Machine

/-- Refutes O29: the loopback clause (as the retrain clauses) asks only that the port's page is not in reset, and a controller whose hub has
no power answers no write there. Port 8 of a controller in which only AON has power stays out of loopback. -/
theorem not_portTrainingAndDiscovery : ¬ Obligations.PortTrainingAndDiscovery := by
  unfold Obligations.PortTrainingAndDiscovery
  intro h
  obtain ⟨-, -, -, -, -, -, -, -, -, -, hloopback, -⟩ := h
  have htrains := hloopback 8 ⟨Dev.aonAlone, []⟩ (by decide) (Dev.aonAlone_portPage 8).2
  rw [exec_portLoopback_aonAlone] at htrains
  have hloop := congrArg (fun s => (s.dev.port 8).loop) (Host.Outcome.next.inj htrains)
  exact absurd hloop (by decide)

end Sys2Proof.Proofs

namespace Sys2Proof.Machine

/-! ### The memories of the block (R90, R92) -/

theorem Dev.memWf_iff {d : Dev} :
    d.memWf = true ↔ Memory.wf d.sram = true ∧ Memory.wf d.lpd = true ∧ Memory.wf d.ctxMem = true := by
  simp only [Dev.memWf, Bool.and_eq_true, and_assoc]

/-- What every step keeps includes the canonical form of all three memories. -/
theorem Keeps.memWf {d d' : Dev} (h : Keeps d d') (hd : d.memWf = true) : d'.memWf = true := by
  obtain ⟨hsram, hlpd, hctx⟩ := Dev.memWf_iff.mp hd
  exact Dev.memWf_iff.mpr ⟨h.sram hsram, h.lpd hlpd, h.ctxMem hctx⟩

end Sys2Proof.Machine

namespace Sys2Proof.Proofs

open Sys2Proof Sys2Proof.Machine

/-- Settles O8: the canonical form of each memory is one of the things that every step keeps. -/
theorem memoriesStayCanonical : Obligations.MemoriesStayCanonical := by
  unfold Obligations.MemoriesStayCanonical
  intro s s' hs h
  exact (step_keeps h).1.memWf hs

/-- Settles O7: the two laws of a write, of the memory's form and of its bytes. -/
theorem memoryReadsBackWhatWasWritten : Obligations.MemoryReadsBackWhatWasWritten := by
  unfold Obligations.MemoryReadsBackWhatWasWritten
  intro m a v hm
  exact ⟨Memory.wf_write a v hm, fun a' => Memory.read_write a a' v hm⟩

end Sys2Proof.Proofs

namespace Sys2Proof.Machine

/-! ### The life of a context (R91, R97, R386) -/

section
variable {d : Dev} {c : Nat}

theorem Dev.hostCtx_host (h : (d.ctx c).cls ≠ 1) (f : Dev → Dev) : d.hostCtx c f = f d := if_neg h

/-- A context of class A is not the host's to command. -/
theorem Dev.hostCtx_classA (h : (d.ctx c).cls = 1) (f : Dev → Dev) : d.hostCtx c f = d := if_pos h

theorem Dev.ctxCreate_free (h : (d.ctx c).state = .free) :
    d.ctxCreate c = d.setCtx c { Ctx.reset with state := .created, cls := 2, gen := ((d.ctx c).gen + 1) % 256 } := if_pos h

theorem Dev.ctxEnable_created (h : (d.ctx c).state = .created) :
    d.ctxEnable c = d.setCtx c { d.ctx c with state := .enabled, enable := true } := if_pos h

theorem Dev.ctxDisable_enabled (h : (d.ctx c).state = .enabled) :
    d.ctxDisable c =
      let e := d.setCtx c { d.ctx c with state := .draining, enable := false, drainErr := none }
      (e.threadsOf c).foldl Dev.drainThread e := if_pos h

theorem Dev.ctxErrClear_error (h : (d.ctx c).state = .error) :
    d.ctxErrClear c = d.setCtx c { d.ctx c with state := .created, error := 0, enable := false } := if_pos h

theorem Dev.ctxDestroy_created (h : (d.ctx c).state = .created) :
    d.ctxDestroy c = (d.releasePages c).setCtx c { d.ctx c with state := .free, cls := 0, enable := false } := by
  simp only [Dev.ctxDestroy, h]

theorem Dev.ctxDestroy_enabled (h : (d.ctx c).state = .enabled) : d.ctxDestroy c = d.fenceCtx c := by
  simp only [Dev.ctxDestroy, h]

/-- A context without commands has drained: it takes the state that its first error, if there was one, decides. -/
theorem Dev.ctxDrainEnd_drained (h : (d.ctx c).state = .draining) (ht : d.threadsOf c = []) :
    d.ctxDrainEnd c false = d.setCtx c (match (d.ctx c).drainErr with
      | none => { d.ctx c with state := .created }
      | some e => { d.ctx c with state := .error, error := e, drainErr := none }) := if_pos ⟨h, ht⟩

theorem Dev.ctxDrainEnd_clean (h : (d.ctx c).state = .draining) (ht : d.threadsOf c = []) (he : (d.ctx c).drainErr = none) :
    d.ctxDrainEnd c false = d.setCtx c { d.ctx c with state := .created } := by
  rw [Dev.ctxDrainEnd_drained h ht, he]

theorem Dev.ctxDrainEnd_failed {e : Nat} (h : (d.ctx c).state = .draining) (ht : d.threadsOf c = [])
    (he : (d.ctx c).drainErr = some e) :
    d.ctxDrainEnd c false = d.setCtx c { d.ctx c with state := .error, error := e, drainErr := none } := by
  rw [Dev.ctxDrainEnd_drained h ht, he]

theorem Dev.quarantineEnd_fenced (h : (d.ctx c).state = .fenced) :
    d.quarantineEnd c = d.setCtx c { d.ctx c with state := .free, cls := 0 } := if_pos h

end

end Sys2Proof.Machine

namespace Sys2Proof.Proofs

open Sys2Proof Sys2Proof.Machine

/-- Settles O13: a command of the host reaches its context unless it is of class A, and then acts by the state it finds. -/
theorem contextLifecycle : Obligations.ContextLifecycle := by
  unfold Obligations.ContextLifecycle
  refine ⟨fun c s hc h => ?create, fun c s hc h => ?enable, fun c s hc h => ?disable, fun c s hc h => ?errClear,
    fun c s hc h => ?destroyCreated, fun c s hc h => ?destroyEnabled, fun c s h ht he => ?drained, fun c e s h ht he => ?drainedInError,
    fun c s h => ?quarantineEnd, fun c s hc => ?classA⟩
  case create => exact State.next_withDev ((Dev.hostCtx_host hc _).trans (Dev.ctxCreate_free h))
  case enable => exact State.next_withDev ((Dev.hostCtx_host hc _).trans (Dev.ctxEnable_created h))
  case disable => exact State.next_withDev ((Dev.hostCtx_host hc _).trans (Dev.ctxDisable_enabled h))
  case errClear => exact State.next_withDev ((Dev.hostCtx_host hc _).trans (Dev.ctxErrClear_error h))
  case destroyCreated => exact State.next_withDev ((Dev.hostCtx_host hc _).trans (Dev.ctxDestroy_created h))
  case destroyEnabled => exact State.next_withDev ((Dev.hostCtx_host hc _).trans (Dev.ctxDestroy_enabled h))
  case drained => exact State.next_withDev (Dev.ctxDrainEnd_clean h ht he)
  case drainedInError => exact State.next_withDev (Dev.ctxDrainEnd_failed h ht he)
  case quarantineEnd => exact State.next_withDev (Dev.quarantineEnd_fenced h)
  case classA => exact State.next_withDev (Dev.hostCtx_classA hc _)

end Sys2Proof.Proofs

namespace Sys2Proof.Machine

/-! ### Submission, and the end of commands and fills (R92 to R101, R111, R386) -/

section
variable {d : Dev} {c : Nat}

theorem Dev.ctxConfig_created {reg v : Nat} (h : (d.ctx c).state = .created)
    (hq : reg = 3 → bits 40 24 v + d.spillOthers c ≤ d.get Reg.DEV_SPILL_pages) :
    d.ctxConfig c reg v = d.setCtx c ((d.ctx c).configure reg v) := if_pos ⟨h, hq⟩

theorem Dev.doorbell_inRing {tail : Nat} (h : (d.ctx c).state = .enabled) (ht : tail ≠ (d.ctx c).tail)
    (hr : (tail + 65536 - (d.ctx c).taken % 65536) % 65536 ≤ 2 ^ (d.ctx c).log2n) :
    d.doorbell c tail = d.setCtx c { d.ctx c with tail := tail } :=
  (if_neg (not_not.mpr h)).trans ((if_neg ht).trans (if_neg (Nat.not_lt.mpr hr)))

theorem Dev.doorbell_discarded (h : (d.ctx c).state ≠ .enabled) (tail : Nat) :
    d.doorbell c tail = d.incE Cnt.DEV_CNT_DB_DISCARD := if_pos h

/-- Where the next entry of a context's ring lies. -/
def Ctx.nextEntry (x : Ctx) : Nat := x.ringBase * 4096 + x.taken % 2 ^ x.log2n * 32

/-- The device once the next entry of a context's ring is taken. -/
def Dev.entryTaken (d : Dev) (c : Nat) : Dev := d.setCtx c { d.ctx c with taken := (d.ctx c).taken + 1 }

/-- A command whose entry and whole list lie in managed pages starts without host DMA, and its first descriptor is there. -/
theorem Dev.dispatch_managed {cl th : Nat} {bs : List Nat} (hs : (d.ctx c).state = .enabled) (hw : (d.ctx c).waiting ≠ 0)
    (hm : d.mayStart c cl th = true) (ha : (d.ctx c).nextEntry < 2 ^ 46)
    (hf : d.ctxFetch c (d.ctx c).nextEntry 32 none = some bs) (hp' : (d.entryTaken c).placeable c ≠ [])
    (hn : bits 0 16 (wd (wordsOf bs) 1) ≠ 0)
    (hl : bits 6 58 (wd (wordsOf bs) 0) * 64 + 64 * bits 0 16 (wd (wordsOf bs) 1) ≤ 2 ^ 46)
    (hd : ((d.entryTaken c).fetchList c (bits 6 58 (wd (wordsOf bs) 0) * 64) (bits 0 16 (wd (wordsOf bs) 1)) none).headD [] ≠ []) :
    d.dispatch c cl th none =
      let e := wordsOf bs
      let list := bits 6 58 (wd e 0) * 64
      (d.entryTaken c).startThread (threadKey cl th) c (some list) ((d.entryTaken c).fetchList c list (bits 0 16 (wd e 1)) none)
        (bits 32 32 (wd e 1)) (d.ctx c).taken (bitAt 0 (wd e 2)) := by
  have hentry : decide (2 ^ 46 ≤ (d.ctx c).nextEntry) = false := decide_eq_false (Nat.not_le.mpr ha)
  have hlist : bits 6 58 (wd (wordsOf bs) 0) * 64 < 2 ^ 46 := by omega
  have hend : decide (2 ^ 46 < bits 6 58 (wd (wordsOf bs) 0) * 64 + 64 * bits 0 16 (wd (wordsOf bs) 1)) = false :=
    decide_eq_false (Nat.not_lt.mpr hl)
  have hready : ¬((d.ctx c).state ≠ .enabled ∨ (d.ctx c).waiting = 0) := fun h => h.elim (· hs) hw
  have hmay : ¬(d.placeable c ≠ [] ∧ d.mayStart c cl th = false) := fun h => Bool.noConfusion (hm.symm.trans h.2)
  unfold Ctx.nextEntry at hentry hf
  unfold Dev.entryTaken at hp' hd ⊢
  simp only [Dev.dispatch, hready, hmay, hf, hentry, hp', hn, hend, hd, hlist, Bool.false_eq_true, Bool.not_false, Bool.and_false, if_false,
    if_true]

/-- A thread that is ready past its last descriptor ends its command. -/
theorem Dev.commandEnd_retired {k : Nat} (hc : (d.thread k).cls ≠ 0) (hs : (d.thread k).state = .ready)
    (hl : (d.thread k).list.length ≤ (d.thread k).idx) (hf : d.frozen (k / 512) = false) :
    d.commandEnd k = d.endCommand k 0x00 (d.thread k).list.length :=
  if_pos ⟨hc, .inl hs, hl, by rw [hf]; rfl⟩

/-- The device with an outstanding fill taken off the list. -/
def Dev.fillTaken (d : Dev) (f : FillReq) : Dev := { d with comp := { d.comp with fills := d.comp.fills.filter (· != f) } }

/-- A page that returns without an upset, for a context of the generation that asked, is filled. -/
theorem Dev.pageFill_returned {page gen : Nat} (hf : d.comp.fills.contains ⟨c, gen, page⟩ = true)
    (hs : d.stale ⟨c, gen, page⟩ = false) :
    d.pageFill c page gen .none = (d.fillTaken ⟨c, gen, page⟩).pageFilled c page :=
  (if_pos hf).trans (if_neg (ne_true_of_eq_false hs))

end

end Sys2Proof.Machine

namespace Sys2Proof.Proofs

open Sys2Proof Sys2Proof.Machine

/-- Settles O14, command by command; a doorbell first asks whether BAR4 is live. -/
theorem submissionAndCommands : Obligations.SubmissionAndCommands := by
  unfold Obligations.SubmissionAndCommands
  refine ⟨fun c reg v s hc h hr => ?config, fun c v s hc h hq => ?quota, fun c t s hb h ht hr => ?tail, fun c t s hb h => ?discarded,
    fun c t s hb => ?early, fun c cl th bs s => ?dispatch, fun cl th s hc hs hl hf => ?commandEnd,
    fun c page gen s hf hs => ?pageFill, fun c s => rfl⟩
  case config =>
    have hreg : reg.val ≠ 3 := fun h3 => hr (Fin.ext h3)
    exact State.next_withDev ((Dev.hostCtx_host hc _).trans (Dev.ctxConfig_created h fun h3 => absurd h3 hreg))
  case quota => exact State.next_withDev ((Dev.hostCtx_host hc _).trans (Dev.ctxConfig_created h fun _ => hq))
  case tail => exact State.next_withDev ((if_pos hb).trans (Dev.doorbell_inRing h ht hr))
  case discarded => exact State.next_withDev ((if_pos hb).trans (Dev.doorbell_discarded h _))
  case early => exact State.next_withDev (if_neg (ne_true_of_eq_false hb))
  case dispatch =>
    intro x at_ e d list n ls hs hw _ hm ha hf hp' hn hl hd
    exact State.next_withDev (Dev.dispatch_managed hs hw hm ha hf hp' hn hl hd)
  case commandEnd => exact State.next_withDev (Dev.commandEnd_retired hc hs hl hf)
  case pageFill => exact State.next_withDev (Dev.pageFill_returned hf hs)

end Sys2Proof.Proofs

namespace Sys2Proof.Machine

/-! ### Cores and preemption (R86, R87, R110 to R112, R144) -/

/-- The device with a core withdrawn: failed, and active no more. -/
def Dev.coreWithdrawn (d : Dev) (cl core : Nat) : Dev :=
  (d.setBitOf (Reg.CLU_CORE_MAP_failed cl) core).put (Reg.CLU_CORE_MAP_active cl) (clrBit (d.get (Reg.CLU_CORE_MAP_active cl)) core)

/-- The device with a cluster's switch-in begun or over. -/
def Dev.withSwitching (d : Dev) (cl : Nat) (on : Bool) : Dev :=
  { d with comp := { d.comp with clusters := Tab.update d.comp.clusters cl Cluster.reset fun c => { c with switching := on } } }

section
variable {d : Dev} {cl core : Nat}

/-- An active core that fails while a spare is idle is withdrawn, and the spare's switch-in begins. -/
theorem Dev.coreFail_spareIdle (hc : core ≠ d.get (Reg.CLU_CORE_MAP_spare cl)) (hs : d.get (Reg.CLU_CORE_MAP_spare cl) ≠ 31)
    (hw : (Tab.getD d.comp.clusters cl Cluster.reset).switching = false)
    (ha : bitAt core (d.get (Reg.CLU_CORE_MAP_active cl)) = true) :
    d.coreFail cl core = ((d.coreWithdrawn cl core).withSwitching cl true).raise (Src.CLU_core_fail cl) := by
  have hactive : ¬(!bitAt core (d.get (Reg.CLU_CORE_MAP_active cl))) = true := by rw [ha]; decide
  have hidle : ¬(d.get (Reg.CLU_CORE_MAP_spare cl) = 31 ∨ (Tab.getD d.comp.clusters cl Cluster.reset).switching = true) :=
    fun h => h.elim hs (ne_true_of_eq_false hw)
  exact (if_neg hc).trans ((if_neg hactive).trans (if_neg hidle))

theorem Dev.coreFail_noSpare (hc : core ≠ 31) (hs : d.get (Reg.CLU_CORE_MAP_spare cl) = 31)
    (ha : bitAt core (d.get (Reg.CLU_CORE_MAP_active cl)) = true) :
    d.coreFail cl core = (d.coreWithdrawn cl core).raise (Src.CLU_spare_exhausted cl) := by
  have hactive : ¬(!bitAt core (d.get (Reg.CLU_CORE_MAP_active cl))) = true := by rw [ha]; decide
  have hspare : core ≠ d.get (Reg.CLU_CORE_MAP_spare cl) := hs ▸ hc
  exact (if_neg hspare).trans ((if_neg hactive).trans (if_pos (.inl hs)))

theorem Dev.switchInDone_switching (hw : (Tab.getD d.comp.clusters cl Cluster.reset).switching = true) :
    d.switchInDone cl =
      ((d.setBitOf (Reg.CLU_CORE_MAP_active cl) (d.get (Reg.CLU_CORE_MAP_spare cl))).put (Reg.CLU_CORE_MAP_spare cl) 31).withSwitching
        cl false := if_pos hw

/-- At its hold limit a holder is saved, whoever competes. -/
theorem Dev.preempt_held {k : Nat} (hs : (d.thread k).state = .issuing) (hc : (d.thread k).cls ≠ 0)
    (hp : preemptible (descKind ((d.thread k).desc (d.thread k).idx)) = true) (hf : d.frozen (k / 512) = false) :
    d.preempt k true = d.saveThread k :=
  if_pos ⟨hs, hc, hp, .inl rfl, by rw [hf]; rfl⟩

end

/-- The queue entries of a tile of the MAT before a thread's present descriptor. -/
def Thread.perTile (t : Thread) : Nat := tileEntries (MatBody.ofDesc (t.desc (t.idx - 1))).tile

section
variable {d : Dev} {k n : Nat} (hq : (d.thread k).qHeld ≠ 0)
  (he : (d.thread k).qEntries ≠ 0 ∨ (d.thread k).perTile ≤ d.ftqFree (k / 256) (d.thread k).cls)
include hq he

/-- A held tile finds its entry: one that the thread's own CHAIN leaves, or a free one. -/
theorem Dev.ftqEntryFree_taken :
    ¬((d.thread k).qHeld = 0 ∨ ((d.thread k).qEntries = 0 ∧ d.ftqFree (k / 256) (d.thread k).cls < (d.thread k).perTile)) :=
  fun h => h.elim hq fun hnone => he.elim (· hnone.1) (Nat.not_le.mpr hnone.2)

/-- With no tile left to finish the core that hands its tile over is free. -/
theorem Dev.ftqEntryFree_noneLeft (hl : (d.thread k).qLeft = 0) :
    d.ftqEntryFree k n =
      let t := d.thread k
      (d.addU (Cnt.VEC_CNT_FTQ_STALL (k / 256)) n).setThread k
        { t with qHeld := t.qHeld - 1, qEntries := max t.qEntries t.perTile } :=
  (if_neg (Dev.ftqEntryFree_taken hq he)).trans (if_pos hl)

/-- With tiles left the core finishes the next. -/
theorem Dev.ftqEntryFree_someLeft (hl : 1 < (d.thread k).qLeft) :
    d.ftqEntryFree k n =
      let t := d.thread k
      ((d.addU (Cnt.VEC_CNT_FTQ_STALL (k / 256)) n).setThread k
        ({ t with qLeft := t.qLeft - 1, qEntries := max t.qEntries t.perTile }.count 3 1)).addU (tilesCounter (k / 256) t.cls) 1 := by
  have h0 : (d.thread k).qLeft ≠ 0 := by omega
  have h1 : (d.thread k).qLeft ≠ 1 := by omega
  refine (if_neg (Dev.ftqEntryFree_taken hq he)).trans ((if_neg h0).trans ?_)
  dsimp only
  rw [if_neg h1]
  rfl

/-- With the last tile of its MAT finished the MAT has retired. -/
theorem Dev.ftqEntryFree_oneLeft (hl : (d.thread k).qLeft = 1) :
    d.ftqEntryFree k n =
      let t := d.thread k
      ((d.addU (Cnt.VEC_CNT_FTQ_STALL (k / 256)) n).setThread k
        (({ t with qLeft := 0, qEntries := max t.qEntries t.perTile }.count 3 1).count 8 1)).addU (tilesCounter (k / 256) t.cls) 1 := by
  have h0 : (d.thread k).qLeft ≠ 0 := by omega
  refine (if_neg (Dev.ftqEntryFree_taken hq he)).trans ((if_neg h0).trans ?_)
  dsimp only
  rw [if_pos hl, hl]
  rfl

end

/-! ### A thread wins its engine (R103, R111, R112) -/

/-- A thread reads back as it was set. -/
@[simp] theorem Dev.thread_setThread (d : Dev) (k : Nat) (t : Thread) : (d.setThread k t).thread k = t :=
  Tab.getD_set_self _ _ _ _

@[simp] theorem Dev.thread_withClusters (d : Dev) (k : Nat) (cs : Tab Cluster) :
    ({ d with comp := { d.comp with clusters := cs } } : Dev).thread k = d.thread k := rfl

/-- A descriptor that could not be read has no kind. -/
theorem nonempty_of_descKind_pos {x : Desc} (h : 1 ≤ descKind x) : x ≠ [] := by
  rintro rfl
  exact absurd h (by decide)

/-- The profiles that a descriptor latches as it issues: its own, and that of the one that may issue with it. -/
def Dev.issueProfiles (d : Dev) (t : Thread) : List (Nat × Nat) :=
  [d.profWords (descProfile (t.desc t.idx)), d.profWords (descProfile (t.desc (t.idx + 1)))]

/-- A thread that is placed issues. -/
theorem Dev.placeThread_issuing (d : Dev) (k : Nat) (profs : List (Nat × Nat)) (hold : Thread → List Nat) :
    ((d.placeThread k profs hold).thread k).state = .issuing := by
  simp only [Dev.placeThread, Dev.thread_withClusters, Dev.thread_setThread]

section
variable {d : Dev} {k : Nat} (hm : (d.resumeSaved (k / 256)).mayIssue k = true)
  (hf : (d.resumeSaved (k / 256)).frozen (k / 512) = false) (he : (d.resumeSaved (k / 256)).enginesOn k = true)
include hm hf he

/-- Nothing keeps the thread from its engine. -/
theorem Dev.issueThread_wins :
    ¬(!(d.resumeSaved (k / 256)).mayIssue k || (d.resumeSaved (k / 256)).frozen (k / 512) || !(d.resumeSaved (k / 256)).enginesOn k) =
      true := by
  rw [hm, hf, he]
  decide

/-- A descriptor that has begun goes on where it was. -/
theorem Dev.issueThread_begun (hb : ((d.resumeSaved (k / 256)).thread k).begun = true) :
    d.issueThread k =
      let e := d.resumeSaved (k / 256)
      e.placeThread k (e.issueProfiles (e.thread k)) e.tileHold := by
  refine (if_neg (Dev.issueThread_wins hm hf he)).trans ?_
  simp only [hb, Bool.not_true, Bool.false_and, Bool.false_eq_true, if_false]
  rfl

section
variable {x : Desc} (hb : ((d.resumeSaved (k / 256)).thread k).begun = false)
  (hx : ((d.resumeSaved (k / 256)).thread k).desc ((d.resumeSaved (k / 256)).thread k).idx = x)
include hb hx

/-- A fresh descriptor that could be read issues when its kind and class are those of a command of its thread. -/
theorem Dev.issueThread_fresh (h1 : 1 ≤ descKind x) (h7 : descKind x ≤ 7) (h5 : descKind x ≠ 5)
    (hc : descClass x = ((d.resumeSaved (k / 256)).thread k).cls) :
    d.issueThread k =
      let e := d.resumeSaved (k / 256)
      e.placeThread k (e.issueProfiles (e.thread k)) e.tileHold := by
  have hread : (x == []) = false := beq_false_of_ne (nonempty_of_descKind_pos h1)
  have hkind : (descKind x == 0 || decide (7 < descKind x)) = false := by
    rw [beq_false_of_ne (Nat.ne_of_gt h1), decide_eq_false (Nat.not_lt.mpr h7)]; rfl
  have hclass : (descClass x != ((d.resumeSaved (k / 256)).thread k).cls ||
      (descKind x == 5 && ((d.resumeSaved (k / 256)).thread k).cls != 0)) = false := by
    rw [hc, beq_false_of_ne h5, bne_self_eq_false]; rfl
  refine (if_neg (Dev.issueThread_wins hm hf he)).trans ?_
  simp only [hb, hx, hread, hkind, hclass, Bool.and_false, Bool.false_eq_true, if_false]
  rw [← hx]
  rfl

theorem Dev.issueThread_unknownKind (h7 : 7 < descKind x) : d.issueThread k = (d.resumeSaved (k / 256)).descError k 0x01 := by
  have hread : (x == []) = false := beq_false_of_ne (nonempty_of_descKind_pos (by omega))
  have hkind : (descKind x == 0 || decide (7 < descKind x)) = true := by rw [decide_eq_true h7, Bool.or_true]
  have hchain : descKind x ≠ 2 := by omega
  refine (if_neg (Dev.issueThread_wins hm hf he)).trans ?_
  simp only [hb, hx, hread, hkind, Bool.not_false, Bool.and_false, Bool.and_self, Bool.false_eq_true, if_false, if_true]
  exact if_neg (hx ▸ hchain)

theorem Dev.issueThread_moveOfOtherClass (h4 : descKind x = 4) (hc : descClass x ≠ ((d.resumeSaved (k / 256)).thread k).cls) :
    d.issueThread k = (d.resumeSaved (k / 256)).descError k 0x02 := by
  have hread : (x == []) = false := beq_false_of_ne (nonempty_of_descKind_pos (by omega))
  have hkind : (descKind x == 0 || decide (7 < descKind x)) = false := by rw [h4]; rfl
  have hclass : (descClass x != ((d.resumeSaved (k / 256)).thread k).cls ||
      (descKind x == 5 && ((d.resumeSaved (k / 256)).thread k).cls != 0)) = true := by
    rw [bne_iff_ne.mpr hc, Bool.true_or]
  have hchain : descKind x ≠ 2 := by omega
  refine (if_neg (Dev.issueThread_wins hm hf he)).trans ?_
  simp only [hb, hx, hread, hkind, hclass, Bool.not_false, Bool.and_false, Bool.and_self, Bool.false_eq_true, if_false, if_true]
  exact if_neg (hx ▸ hchain)

end

end

/-- Beyond the 32 threads of class C a thread is given no tile: it competes for its engines (R111, R112). -/
theorem exec_threadIssue_software {cl : Fin 32} {th : Fin 256} (h : 32 ≤ th.val) {s : State} {e : Dev}
    (he : s.dev.issueThread (threadKey cl th) = e) : exec (.threadIssue cl th) s = .next (s.withDev e) :=
  State.next_withDev ((if_neg fun ht => absurd ht.1 (Nat.not_lt.mpr h)).trans he)

end Sys2Proof.Machine

namespace Sys2Proof.Proofs

open Sys2Proof Sys2Proof.Machine

/-- Settles O15, command by command; a thread that wins its engine is placed when its descriptor has begun or is in order. -/
theorem coresAndPreemption : Obligations.CoresAndPreemption := by
  unfold Obligations.CoresAndPreemption
  refine ⟨fun cl core s hc hs hw ha => ?spareIdle, fun cl core s hs ha => ?noSpare, fun cl s hw => ?switchIn,
    fun cl th s hs hc hp hf => ?preempt, fun cl s => rfl, fun cl th n s => ?noneLeft, fun cl th n s => ?someLeft,
    fun cl th n s => ?oneLeft, fun cl th s => ?issue, fun cl th s => ?unknownKind, fun cl th s => ?otherClass⟩
  case spareIdle => exact State.next_withDev (Dev.coreFail_spareIdle hc hs hw ha)
  case noSpare => exact State.next_withDev (Dev.coreFail_noSpare (by omega) hs ha)
  case switchIn => exact State.next_withDev (Dev.switchInDone_switching hw)
  case preempt => exact State.next_withDev (Dev.preempt_held hs hc hp hf)
  case noneLeft =>
    intro k t per hq he hl
    exact State.next_withDev (Dev.ftqEntryFree_noneLeft hq he hl)
  case someLeft =>
    intro k t per hq he hl
    exact State.next_withDev (Dev.ftqEntryFree_someLeft hq he hl)
  case oneLeft =>
    intro k t per hq he hl
    exact State.next_withDev (Dev.ftqEntryFree_oneLeft hq he hl)
  case issue =>
    intro k d t e hth hm hf he hi
    refine ⟨exec_threadIssue_software hth ?_, Dev.placeThread_issuing d k _ _⟩
    cases hb : t.begun with
    | true => exact Dev.issueThread_begun hm hf he hb
    | false =>
      obtain hbegun | ⟨h1, h7, h5, hc⟩ := hi
      · exact absurd (hb.symm.trans hbegun) Bool.false_ne_true
      · exact Dev.issueThread_fresh hm hf he hb rfl h1 h7 h5 hc
  case unknownKind =>
    intro k d t hth hm hf he hb h7
    exact exec_threadIssue_software hth (Dev.issueThread_unknownKind hm hf he hb rfl h7)
  case otherClass =>
    intro k d t hth hm hf he hb h4 hc
    exact exec_threadIssue_software hth (Dev.issueThread_moveOfOtherClass hm hf he hb rfl h4 hc)

end Sys2Proof.Proofs

namespace Sys2Proof.Machine

/-! ### MAT, CHAIN, RED and MOVE on their engines (R104 to R106, R109, R125, R142 to R158) -/

section
variable {d e : Dev} {k : Nat} {x : Desc}

section
variable (hx : d.current k 1 = some x) (hq : (MatBody.ofDesc x).ftqOut = false)
include hx hq

theorem Dev.mat_error {code : Nat} (h : matError (d.thread k).profile (MatBody.ofDesc x) = some code) (n : Nat) (w : List WrongElem) :
    d.mat k n w = d.descError k code := by
  simp only [Dev.mat, hx, hq, h, Bool.false_and, Bool.false_eq_true, if_false]

/-- A MAT waits while every core holds a finished tile (R144). -/
theorem Dev.mat_noCore (h : matError (d.thread k).profile (MatBody.ofDesc x) = none) (hc : d.coresFree (k / 256) = 0) (n : Nat)
    (w : List WrongElem) : d.mat k n w = d := by
  simp only [Dev.mat, hx, hq, h, hc, Bool.false_and, Bool.false_eq_true, if_false, if_true]

/-- A MAT to memory that finds its pages writes its tensor, counts and retires. -/
theorem Dev.mat_runs (h : matError (d.thread k).profile (MatBody.ofDesc x) = none) (hc : 0 < d.coresFree (k / 256))
    (ha : d.access k (matTileRanges (d.thread k).profile (MatBody.ofDesc x)) = .ok e) (n : Nat) (w : List WrongElem) :
    d.mat k n w =
      let t := d.thread k
      let b := MatBody.ofDesc x
      let f := ((e.descWrites k (matWrites (e.ctxRead t.ctx) t.profile b w)).addU (tilesCounter (k / 256) t.cls)
        (tileCount b.tile b.m b.n)).addU (Cnt.CLU_CNT_CORE_BUSY (k / 256)) n
      ((f.bump k [(0, n), (3, tileCount b.tile b.m b.n)]).retire k false).holdTile k := by
  simp only [Dev.mat, hx, hq, h, ha, Nat.ne_of_gt hc, Bool.false_and, Bool.false_eq_true, if_false]

end

/-- A CHAIN from memory that finds its stage block and its pages writes its tensors, counts and retires. -/
theorem Dev.chain_runs (hx : d.current k 2 = some x) (hq : (ChainBody.ofDesc x).ftqIn = false)
    (h : chainIssueError (d.thread k) (d.thread k).idx (d.thread k).mdims = none) (hh : (d.thread k).qHeld = 0)
    (ha : d.access k (([((ChainBody.ofDesc x).stages, 8 * (ChainBody.ofDesc x).count)], []) ::
      chainTileRanges (ChainBody.ofDesc x) (chainSide (ChainBody.ofDesc x) ((d.thread k).desc ((d.thread k).idx - 1)))) = .ok e) (n : Nat) :
    d.chain k n =
      let t := d.thread k
      let b := ChainBody.ofDesc x
      let f := ((e.descWrites k (chainWrites (e.ctxRead t.ctx) t.profile (fun set i => e.coefWord set i) b (t.stageList b) t.queue)).addU
        (Cnt.VEC_CNT_VEC_BUSY (k / 256)) n).addU (Cnt.VEC_CNT_CHAIN_TILES (k / 256)) (chainTiles t b)
      let f := f.bump k [(0, n), (4, chainTiles t b)]
      (f.setThread k { f.thread k with queue := [], mdims := none, qEntries := 0, qHeld := 0 }).retire k false := by
  simp only [Dev.chain, hx, hq, h, hh, ha, Bool.false_and, Bool.false_eq_true, ne_eq, not_true_eq_false, if_false]

theorem Dev.red_runs (hx : d.current k 3 = some x) (h : redError (d.thread k).profile (RedBody.ofDesc x) = none)
    (ha : d.access k (redTileRanges (RedBody.ofDesc x)) = .ok e) (n : Nat) :
    d.red k n =
      let t := d.thread k
      let b := RedBody.ofDesc x
      let rd := e.ctxRead t.ctx
      let f := ((e.descWrites k (redWrites rd t.profile b)).addU (Cnt.RED_CNT_RED_TILES (k / 256)) (ceilDiv (b.m * b.n) 16384)).addU
        (Cnt.RED_CNT_DIGEST_BYTES (k / 256)) (redDigested rd b)
      (f.bump k [(0, n)]).retire k false := by
  simp only [Dev.red, hx, h, ha]

/-! ### MOVE -/

section
variable {b : MoveBody}

/-- A MOVE that names no pod address has neither end at another controller. -/
theorem Dev.remoteSrc_managed (h : b.srcPod = false) (d : Dev) : d.remoteSrc b = false := by
  simp only [Dev.remoteSrc, h, Bool.false_and]

theorem Dev.remoteDst_managed (h : b.dstPod = false) (d : Dev) : d.remoteDst b = false := by
  simp only [Dev.remoteDst, h, Bool.false_and]

/-- The copy of a MOVE whose rows do not overlap. -/
theorem Dev.moveCopy_apart (hp : b.prefetch = false) (hr : (d.thread k).replay = false) (ho : d.moveOverlap b = false)
    (ss : List Segment) (got : List Nat) :
    d.moveCopy k b ss got =
      let r := d.moveRead (d.thread k).ctx b ss got
      r.1.moveWrite k b (ss.zip r.2) := by
  simp only [Dev.moveCopy, hp, hr, ho, Bool.or_self, Bool.false_eq_true, if_false]

/-- A MOVE whose destination is not at another controller retires once it has copied. -/
theorem Dev.moveRun_here (hd : b.dstPod = false) (got : List Nat) (n : Nat) :
    d.moveRun k b got n = (d.moveCopy k b (moveSegments b) got).moveEnd k b n := by
  simp only [Dev.moveRun, Dev.remoteDst_managed hd, Bool.false_and, Bool.false_eq_true, if_false]

/-- A MOVE whose pieces are all in order, of managed pages only, runs as soon as its pages are there. -/
theorem Dev.move_managed (hx : d.current k 4 = some x) (hb : MoveBody.ofDesc x = b) (h : moveError (d.thread k).cls b = none)
    (hw : (d.thread k).why = .none) {dma : Dma}
    (hs : moveStop (d.ctx (d.thread k).ctx).winPages dma.isSome b (moveSegments b) = (moveSegments b, none))
    (ha : d.access k (segmentTiles b (moveSegments b)) = .ok e) (hp : b.srcPod = false)
    (hh : (moveSegments b).any (fromHost b) = false) (n : Nat) :
    d.move k n dma = e.moveRun k b ((dma.getD []).map BitVec.toNat) n := by
  simp only [Dev.move, hx, hb, h, hw, hs, ha, hh, Dev.remoteSrc_managed hp, Bool.not_false, Bool.or_true, Bool.not_true,
    Bool.false_eq_true, if_false]

/-- A MOVE whose writes another controller has acknowledged retires. -/
theorem Dev.move_acknowledged (hx : d.current k 4 = some x) (h : moveError (d.thread k).cls (MoveBody.ofDesc x) = none) {g : Nat}
    (hw : (d.thread k).why = .podWrite g none) (n : Nat) (dma : Dma) :
    d.move k n dma = d.moveEnd k (MoveBody.ofDesc x) n := by
  simp only [Dev.move, hx, h, hw]

theorem Dev.moveEnd_copied (hp : b.prefetch = false) (n : Nat) :
    d.moveEnd k b n = ((d.markPages (d.thread k).ctx b).bump k [(0, n), (7, b.rows * b.len)]).retire k false := by
  simp only [Dev.moveEnd, hp, Bool.false_eq_true, if_false]

end

end

/-- MAT on a thread of class A or G. -/
theorem exec_mat_software {cl : Fin 32} {th : Fin 256} (h : 32 ≤ th.val) {n : BitVec 32} {w : List WrongElem} {s : State} {e : Dev}
    (he : s.dev.mat (threadKey cl th) n.toNat w = e) : exec (.mat cl th n .none w) s = .next (s.withDev e) :=
  State.next_withDev ((if_neg (Nat.not_lt.mpr h)).trans he)

end Sys2Proof.Machine

namespace Sys2Proof.Proofs

open Sys2Proof Sys2Proof.Machine

/-- Settles O16, engine by engine. -/
theorem engineDescriptors : Obligations.EngineDescriptors := by
  unfold Obligations.EngineDescriptors
  refine ⟨fun cl th n w x s d => ?mat, fun cl th n w x s => ?matWaits, fun cl th n w x e s => ?matError, fun cl th n x s e => ?chain,
    fun cl th n x s d => ?red, fun cl th n dma x s d => ?move, fun cl th n dma x g s => ?moveAcknowledged⟩
  case mat =>
    intro k p b hth hx hq h hc ha
    exact exec_mat_software hth (Dev.mat_runs hx hq h hc ha _ _)
  case matWaits =>
    intro k b hth hx hq h hc
    exact exec_mat_software hth (Dev.mat_noCore hx hq h hc _ _)
  case matError =>
    intro k b hth hx hq h
    exact exec_mat_software hth (Dev.mat_error hx hq h _ _)
  case chain =>
    intro k t b hx hq h hh ha
    exact State.next_withDev (Dev.chain_runs hx hq h hh ha n)
  case red =>
    intro k p b hx h ha
    exact State.next_withDev (Dev.red_runs hx h ha n)
  case move =>
    intro k t b ss hx h hw hnone hall ha hsrc hdst hh hp ho hr
    have hrun := Dev.move_managed hx rfl h hw (Prod.ext hall hnone) ha hsrc hh n
    rw [Dev.moveRun_here hdst, Dev.moveCopy_apart hp hr ho, Dev.moveEnd_copied hp] at hrun
    exact State.next_withDev hrun
  case moveAcknowledged =>
    intro k b hx h hw
    exact State.next_withDev (Dev.move_acknowledged hx h hw n dma)

end Sys2Proof.Proofs

namespace Sys2Proof.Machine

/-! ### WAIT and SIGNAL (R107, R108) -/

section
variable {d : Dev} {k : Nat} {x : Desc}

theorem Dev.wait_holds (hx : d.current k 6 = some x) (ho : bits 8 2 (wd x 1) ≤ 1) (hw : d.waitHolds (d.thread k).ctx x = true) :
    d.wait k = d.retire k false := by
  simp only [Dev.wait, hx, hw, Nat.not_lt.mpr ho, Bool.or_true, if_false, if_true]

theorem Dev.wait_blocks (hx : d.current k 6 = some x) (ho : bits 8 2 (wd x 1) ≤ 1) (hw : d.waitHolds (d.thread k).ctx x = false)
    (hr : (d.thread k).replay = false) :
    d.wait k = d.setThread k { d.thread k with state := .blocked, why := .wait } := by
  simp only [Dev.wait, hx, hw, hr, Nat.not_lt.mpr ho, Bool.or_self, Bool.false_eq_true, if_false]

theorem Dev.waitTimeout_false (hs : (d.thread k).state = .blocked) (hy : (d.thread k).why = .wait)
    (ht : bits 0 32 (wd ((d.thread k).desc (d.thread k).idx) 2) ≠ 0)
    (hw : d.waitHolds (d.thread k).ctx ((d.thread k).desc (d.thread k).idx) = false) : d.waitTimeout k = d.descError k 0x0A :=
  if_pos ⟨hs, hy, ht, by rw [hw]; rfl⟩

/-- A SIGNAL retires, its semaphore changes and wakes, and a stand-in's out-entry is relayed. -/
theorem Dev.signal_retires (hx : d.current k 7 = some x) (ho : bits 8 2 (wd x 1) ≤ 1) (hr : (d.thread k).replay = false) :
    d.signal k =
      ((d.retire k false).semaphore (d.thread k).ctx (bits 0 8 (wd x 1)) (bits 8 2 (wd x 1)) (bits 32 32 (wd x 1))).relaySignal
        (d.thread k).ctx (bits 0 8 (wd x 1)) := by
  simp only [Dev.signal, hx, hr, Nat.not_lt.mpr ho, Bool.false_eq_true, if_false]

theorem Dev.signal_unknownOperation (hx : d.current k 7 = some x) (ho : 1 < bits 8 2 (wd x 1)) : d.signal k = d.descError k 0x07 := by
  simp only [Dev.signal, hx, ho, if_true]

end

end Sys2Proof.Machine

namespace Sys2Proof.Proofs

open Sys2Proof Sys2Proof.Machine

/-- Settles O17, command by command. -/
theorem waitAndSignal : Obligations.WaitAndSignal := by
  unfold Obligations.WaitAndSignal
  refine ⟨fun cl th x s hx ho hw => ?holds, fun cl th x s hx ho hw hr => ?blocks, fun cl th s => ?timeout, fun cl th x s => ?signal,
    fun cl th x s hx ho => ?unknownOperation⟩
  case holds => exact State.next_withDev (Dev.wait_holds hx ho hw)
  case blocks => exact State.next_withDev (Dev.wait_blocks hx ho hw hr)
  case timeout =>
    intro t hs hy ht hw
    exact State.next_withDev (Dev.waitTimeout_false hs hy ht hw)
  case signal =>
    intro k hx ho hr
    exact State.next_withDev (Dev.signal_retires hx ho hr)
  case unknownOperation => exact State.next_withDev (Dev.signal_unknownOperation hx ho)

end Sys2Proof.Proofs

namespace Sys2Proof.Machine

/-! ### Reserves and class C compares (R116, R117, R204 to R209) -/

/-- The rows of the queue's tile as a CHECK on a thread converts them. -/
def Dev.checkedRows (d : Dev) (k : Nat) (b : CheckBody) : List (List Nat × List Nat) :=
  checkTile (d.thread k).profile b (d.thread k).queue

/-- What a CHECK finds between the queue's tile and the reference entries. -/
def Dev.checkCompare (d : Dev) (k : Nat) (b : CheckBody) (t : TileRec) : CompareResult :=
  compareTile (d.thread k).profile ((Fmt.ofCode b.fmt).getD .fp32) (b.fmt == 6) b.n (d.checkedRows k b) (Tile.ofBody t.body).rows

/-- The device with a compare of rows counted. -/
def Dev.compareCounted (d : Dev) (k : Nat) (rows : List (List Nat × List Nat)) : Dev :=
  (d.incU (Cnt.RED_CNT_CMP_TILES (k / 256))).addU (Cnt.RED_CNT_DIGEST_BYTES (k / 256))
    ((rows.map fun r => r.1.length + r.2.length).foldl (· + ·) 0)

section
variable {d : Dev} {k : Nat} {x : Desc} {t : TileRec} (hx : d.current k 5 = some x) (ht : d.tileOn k = some t)
  (hp : t.phase = .first) (he : checkError (d.thread k) (CheckBody.ofDesc x) = none) (hq : (CheckBody.ofDesc x).srcQ = true)
  (hr : (CheckBody.ofDesc x).refBuf = true) (hh : (d.thread k).qHeld = 0)
include hx ht hp he hq hr hh

/-- A first execution that agrees with the accelerator is judged. -/
theorem Dev.tileCheck_agrees (hn : (d.checkCompare k (CheckBody.ofDesc x) t).nDisagree = 0) (core n : Nat) :
    d.tileCheck k core n =
      let b := CheckBody.ofDesc x
      let e := (d.sramWrites (placeBytes b.dst (wordBytes (d.checkCompare k b t).words))).compareCounted k (d.checkedRows k b)
      (e.bump k [(0, n), (8, 1)]).tileJudged { t with core1 := k / 256 * 32 + core } 0 31 0 0 false := by
  unfold Dev.checkCompare Dev.checkedRows at hn ⊢
  have hfirst : (TilePhase.first == TilePhase.third) = false := rfl
  simp only [Dev.tileCheck, Dev.tileNext, hx, ht, hp, he, hq, hr, hh, hn, hfirst, bne_self_eq_false, Bool.and_false, Bool.false_and,
    Bool.or_self, Bool.false_eq_true, if_false, if_true]
  rfl

/-- A first execution that disagrees is kept, and its record waits for a third. -/
theorem Dev.tileCheck_disagrees (hb : (CheckBody.ofDesc x).keepBad = true)
    (hn : (d.checkCompare k (CheckBody.ofDesc x) t).nDisagree ≠ 0) (core n : Nat) :
    d.tileCheck k core n =
      let b := CheckBody.ofDesc x
      let r := d.checkCompare k b t
      let e := (d.sramWrites (placeBytes b.dst (wordBytes r.words))).sramWrites (rowWrites b.fmt b.keep b.m b.n (d.checkedRows k b))
      let e := ((e.compareCounted k (d.checkedRows k b)).incE (Cnt.RED_CNT_CMP_DISAGREE (k / 256))).bump k [(0, n), (8, 1)]
      (e.setTile { t with
        phase := .waitThird, place := none, core1 := k / 256 * 32 + core, dis1 := r.nDisagree, first1 := r.first }).freeThread k := by
  unfold Dev.checkCompare Dev.checkedRows at hn ⊢
  simp only [Dev.tileCheck, Dev.tileNext, hx, ht, hp, he, hq, hr, hh, hn, hb, bne_self_eq_false, bne_iff_ne.mpr hn, Bool.and_false,
    Bool.and_self, Bool.true_or, Bool.false_eq_true, if_false, if_true]
  rfl

end

end Sys2Proof.Machine

namespace Sys2Proof.Proofs

open Sys2Proof Sys2Proof.Machine

/-- Settles O28: the reserve by the rule of writable pages, the functions by their teardown, CHECK by the outcome of its compare. -/
theorem reservesAndFunctions : Obligations.ReservesAndFunctions := by
  unfold Obligations.ReservesAndFunctions
  refine ⟨fun p v s ht hr => ?reserve, fun s => rfl, fun f s => rfl, fun cl th core cycles x t s => ?agrees,
    fun cl th core cycles x t s => ?disagrees⟩
  case reserve => exact State.next_withDev (Dev.ifWritable_open ht hr _)
  case agrees =>
    intro k u b mine r hx ht hp he hq hr hh hn
    exact State.next_withDev (Dev.tileCheck_agrees hx ht hp he hq hr hh hn core cycles.toNat)
  case disagrees =>
    intro k u b mine r hx ht hp he hq hr hh hb hn
    exact State.next_withDev (Dev.tileCheck_disagrees hx ht hp he hq hr hh hb hn core cycles.toNat)

end Sys2Proof.Proofs

namespace Sys2Proof.Machine

/-! ### Keys, flits and MOVE data (R262, R263, R279, R283) -/

section
variable {d : Dev} {i : Nat}

/-- The KEYX that a port waits for is checked. -/
theorem Dev.keyx_awaited {h : List Nat} (hh : (d.port i).hello = some h) (hs : d.get (Reg.PORT_STATUS_state i) = 5) (k : Keyx) :
    d.keyx i k =
      let signed := Config.sha384 (d.keyxText i h k)
      let e := (d.localFlits i keyxFlits).sendLocal i 0x02 (sigWords (Config.ecdsaSign signed))
      let p := e.port i
      let up := (e.setPort i { p with key := some (e.linkKeys i h k), txCtr := 0, rxCtr := 0, rekey := false }).put
        (Reg.PORT_STATUS_state i) 3
      if Config.ecdsaOk Config.caKey k.certKey k.certSig ∧ k.certSerial.toNat = helloWord h 0 + helloWord h 1 * 2 ^ 64 ∧
          Config.ecdsaOk k.certKey signed k.sig then
        (if p.rekey then up else up.resend i).pump i 1024
      else e.quarantine i 0x05 := by
  simp only [Dev.keyx, hh, hs, ne_eq, not_true_eq_false, if_false]

theorem Dev.linkStands_up (h : d.get (Reg.PORT_STATUS_state i) = 3) : d.linkStands i = true := by
  rw [Dev.linkStands, h]
  rfl

theorem Dev.rekey_up (h : d.get (Reg.PORT_STATUS_state i) = 3) (hi : 8 ≤ i) :
    d.rekey i =
      let e := d.startKeyx i (d.get (Reg.PORT_STATUS_reason i))
      e.setPort i { e.port i with rekey := true } := if_pos ⟨Dev.linkStands_up h, hi⟩

section
variable {hdr crc : Nat} {payload : List Nat}

/-- A flit that is not whole or fails its CRC asks for a replay. -/
theorem Dev.flit_spoiled (h : payload.length ≠ 240 ∨ crc64 (leBytes 8 hdr ++ payload) ≠ crc) (frame : Option FrameCheck) :
    d.flit i hdr payload crc frame = (d.incE (Cnt.PORT_CNT_CRC_ERR i)).sendNak i := if_pos h

section
variable (hl : payload.length = 240) (hc : crc64 (leBytes 8 hdr ++ payload) = crc)
include hl hc

theorem Dev.flit_whole : ¬(payload.length ≠ 240 ∨ crc64 (leBytes 8 hdr ++ payload) ≠ crc) := fun h => h.elim (· hl) (· hc)

/-- A control flit carries an acknowledgement and credits, and no number. -/
theorem Dev.flit_control (hk : bitAt 58 hdr = true) (frame : Option FrameCheck) :
    d.flit i hdr payload crc frame =
      (((d.incU (Cnt.PORT_CNT_RX_FLITS i)).takeAck i (bits 24 16 hdr)).takeCredits i hdr).pump i 1024 :=
  (if_neg (Dev.flit_whole hl hc)).trans (if_pos hk)

section
variable (hk : bitAt 58 hdr = false)
include hk

/-- A flit of the number that is due is taken, and its frame is accepted or counted where the port is not quarantined. -/
theorem Dev.flit_inOrder (hn : ((d.incU (Cnt.PORT_CNT_RX_FLITS i)).port i).rxNext = bits 40 16 hdr) (f : FrameCheck) :
    d.flit i hdr payload crc (some f) =
      let e := d.incU (Cnt.PORT_CNT_RX_FLITS i)
      let e := e.setPort i { e.port i with
        rxNext := (bits 40 16 hdr + 1) % 65536, freed := Tab.update (e.port i).freed (bits 62 2 hdr) 0 (· + 1) }
      let e := (((e.takeAck i (bits 24 16 hdr)).takeCredits i hdr).pump i 1024).acknowledge i
      if bits 62 2 hdr = 0 ∧ e.get (Reg.PORT_STATUS_state i) ≠ 4 then (e.acceptFrame i f).1 else e := by
  have hdue : (((d.incU (Cnt.PORT_CNT_RX_FLITS i)).port i).rxNext + 65536 - bits 40 16 hdr) % 65536 = 0 := by
    rw [hn, Nat.add_sub_cancel_left]
  exact (if_neg (Dev.flit_whole hl hc)).trans ((if_neg (ne_true_of_eq_false hk)).trans (if_pos hdue))

/-- A flit behind a gap asks for a replay. -/
theorem Dev.flit_afterGap (hg : 32768 ≤ (((d.incU (Cnt.PORT_CNT_RX_FLITS i)).port i).rxNext + 65536 - bits 40 16 hdr) % 65536)
    (frame : Option FrameCheck) :
    d.flit i hdr payload crc frame = (d.incU (Cnt.PORT_CNT_RX_FLITS i)).sendNak i := by
  have hdue : (((d.incU (Cnt.PORT_CNT_RX_FLITS i)).port i).rxNext + 65536 - bits 40 16 hdr) % 65536 ≠ 0 := by omega
  exact (if_neg (Dev.flit_whole hl hc)).trans ((if_neg (ne_true_of_eq_false hk)).trans
    ((if_neg hdue).trans (if_neg (Nat.not_lt.mpr hg))))

/-- The flit before the one that is due was already received, and is only counted. -/
theorem Dev.flit_again (hn : ((d.incU (Cnt.PORT_CNT_RX_FLITS i)).port i).rxNext = bits 40 16 hdr + 1) (frame : Option FrameCheck) :
    d.flit i hdr payload crc frame = d.incU (Cnt.PORT_CNT_RX_FLITS i) := by
  have hone : (((d.incU (Cnt.PORT_CNT_RX_FLITS i)).port i).rxNext + 65536 - bits 40 16 hdr) % 65536 = 1 := by
    rw [hn]
    omega
  have hdue : (((d.incU (Cnt.PORT_CNT_RX_FLITS i)).port i).rxNext + 65536 - bits 40 16 hdr) % 65536 ≠ 0 := by omega
  have hpast : (((d.incU (Cnt.PORT_CNT_RX_FLITS i)).port i).rxNext + 65536 - bits 40 16 hdr) % 65536 < 32768 := by omega
  exact (if_neg (Dev.flit_whole hl hc)).trans ((if_neg (ne_true_of_eq_false hk)).trans ((if_neg hdue).trans (if_pos hpast)))

end

end

end

/-! ### Load reports and MOVE data (R42, R106, R279, R286, R386) -/

/-- The device with a window's samples of every port shown and its corrected symbols counted. -/
def Dev.sampled (d : Dev) (util : List PortSample) : Dev :=
  (List.range 40).foldl (fun (d : Dev) i =>
    let u := util.getD i ⟨0, 0, 0⟩
    ((d.put (Reg.PORT_UTIL_tx_pct i) u.tx.toNat).put (Reg.PORT_UTIL_rx_pct i) u.rx.toNat).addU (Cnt.PORT_CNT_FEC_CORR i) u.fec.toNat) d

/-- The device in which DEV_FAB_CTRL acts as it was last written (R289). -/
def Dev.fabCtrlActs (d : Dev) : Dev :=
  [Reg.DEV_FAB_CTRL_w_c, Reg.DEV_FAB_CTRL_w_a, Reg.DEV_FAB_CTRL_sat_pct, Reg.DEV_FAB_CTRL_idle_pct,
    Reg.DEV_FAB_CTRL_indirect_pct].foldl (fun (d : Dev) f => d.put (acts f) (d.get f)) d

theorem Dev.loadSend_sends {util : List PortSample} (hs : (d.sampled util).fabCtrlActs.silent = false) :
    d.loadSend util =
      let e := (d.sampled util).fabCtrlActs
      let body := gPorts.map fun i => if e.portUp i then e.get (Reg.PORT_UTIL_tx_pct i) else 0xFF
      (gPorts.filter e.portUp).foldl (fun (d : Dev) i => (d.emit (.link i 0x03 body)).incU (Cnt.PORT_CNT_TX_FLITS i)) e := by
  unfold Dev.sampled Dev.fabCtrlActs at hs ⊢
  simp only [Dev.loadSend, hs, Bool.false_eq_true, if_false]

section
variable {src : BitVec 16} {a : Word} {k : Fin 8192} {g : Byte} {bulk : Bool}

theorem Dev.moveData_written {bs : List Byte} (h : podRefused a.toNat a.toNat bs.length = false) :
    d.moveData src (.data a bs k g bulk) =
      (d.podWrites (.remote src) a.toNat (bs.map BitVec.toNat)).send src.toNat moveKind [moveWord 2 bulk, k.val, g.toNat] :=
  congrArg (fun e : Dev => e.send src.toNat moveKind [moveWord 2 bulk, k.val, g.toNat]) (if_neg (ne_true_of_eq_false h))

/-- Data at a refused address is acknowledged and has no effect. -/
theorem Dev.moveData_refused {bs : List Byte} (h : podRefused a.toNat a.toNat bs.length = true) :
    d.moveData src (.data a bs k g bulk) = d.send src.toNat moveKind [moveWord 2 bulk, k.val, g.toNat] :=
  congrArg (fun e : Dev => e.send src.toNat moveKind [moveWord 2 bulk, k.val, g.toNat]) (if_pos h)

section
variable {len rows stride : Nat}

theorem Dev.moveRequest_answered (h : ((List.range rows).any fun r => podRefused a.toNat (a.toNat + r * stride) len) = false) :
    d.moveData src (.request a len rows stride k g bulk) =
      let r := d.podRows a.toNat len stride rows
      r.1.send src.toNat moveKind ([moveWord 2 bulk, k.val, g.toNat] ++ wordsOf r.2) := if_neg (ne_true_of_eq_false h)

/-- A request with a refused row is answered without data. -/
theorem Dev.moveRequest_refused (h : ((List.range rows).any fun r => podRefused a.toNat (a.toNat + r * stride) len) = true) :
    d.moveData src (.request a len rows stride k g bulk) = d.send src.toNat moveKind [moveWord 2 bulk, k.val, g.toNat] := if_pos h

end

/-- An answer reaches the thread that waits for it while its context's generation lasts. -/
theorem Dev.moveAnswer_taken {bs : List Byte} {w : ThState × Waiting}
    (hw : waitAnswered (d.thread k).why (bs.map BitVec.toNat) = some w) (hs : (d.thread k).state = .blocked)
    (hg : (d.thread k).gen = g.toNat) (hc : (d.ctx (d.thread k).ctx).gen = g.toNat) :
    d.moveData src (.answer k g bs) = d.setThread k { d.thread k with state := w.1, why := w.2 } := by
  simp only [Dev.moveData, hw, hs, hg, hc, ne_eq, not_true_eq_false, or_self, if_false]

end

end

/-- MOVE data that passes ingress acts. -/
theorem exec_moveData_passes {h : FabHdr} {m : MoveMsg} {s : State} (hp : s.dev.passes h = true) {e : Dev}
    (he : s.dev.moveData h.src m = e) : exec (.moveData h m) s = .next (s.withDev e) :=
  State.next_withDev ((Dev.ingress_passes hp).trans he)

end Sys2Proof.Machine

namespace Sys2Proof.Proofs

open Sys2Proof Sys2Proof.Machine

/-- Settles O30, message by message; of a flit its payload is taken as numbers. -/
theorem linksAndMessages : Obligations.LinksAndMessages := by
  unfold Obligations.LinksAndMessages
  refine ⟨fun i k h s => ?keyx, fun i s hi hs => ?rekey, fun i hdr payload crc frame s h => ?spoiled,
    fun i hdr payload crc f s => ?inOrder, fun i hdr payload crc frame s => ?control, fun i hdr payload crc frame s => ?afterGap,
    fun i hdr payload crc frame s => ?again, fun i ack s => rfl, fun slot util s => rfl, fun util s => ?loadSend,
    fun h a bs k g bulk s hp hr => ?written, fun h a bs k g bulk s hp hr => ?refused,
    fun h a len rows stride k g bulk s hp hr => ?answered, fun h a len rows stride k g bulk s hp hr => ?requestRefused,
    fun h k g n c bs s hp hw hs hg hc => ?acknowledged, fun h k g bs ws s hp hw hs hg hc => ?sourceArrived, fun h m s hp => ?dropped⟩
  case keyx =>
    intro signed d p up hh hs
    exact State.next_withDev (Dev.keyx_awaited hh hs k)
  case rekey => exact State.next_withDev (Dev.rekey_up hs hi)
  case spoiled => exact State.next_withDev (Dev.flit_spoiled (h.imp_left (List.length_map _).trans_ne) frame)
  case inOrder =>
    intro d hl hc hk hn
    exact State.next_withDev (Dev.flit_inOrder ((List.length_map _).trans hl) hc hk hn f)
  case control =>
    intro d hl hc hk
    exact State.next_withDev (Dev.flit_control ((List.length_map _).trans hl) hc hk frame)
  case afterGap =>
    intro d hl hc hk hg
    exact State.next_withDev (Dev.flit_afterGap ((List.length_map _).trans hl) hc hk hg frame)
  case again =>
    intro d hl hc hk hn
    exact State.next_withDev (Dev.flit_again ((List.length_map _).trans hl) hc hk hn frame)
  case loadSend =>
    intro d fs e hs
    exact State.next_withDev (Dev.loadSend_sends hs)
  case written => exact exec_moveData_passes hp (Dev.moveData_written hr)
  case refused => exact exec_moveData_passes hp (Dev.moveData_refused hr)
  case answered => exact exec_moveData_passes hp (Dev.moveRequest_answered hr)
  case requestRefused => exact exec_moveData_passes hp (Dev.moveRequest_refused hr)
  case acknowledged => exact exec_moveData_passes hp (Dev.moveAnswer_taken (congrArg (waitAnswered · _) hw) hs hg hc)
  case sourceArrived => exact exec_moveData_passes hp (Dev.moveAnswer_taken (congrArg (waitAnswered · _) hw) hs hg hc)
  case dropped => exact State.next_withDev (Dev.ingress_dropped hp)

end Sys2Proof.Proofs

namespace Sys2Proof.Machine

/-! ### Coefficient sets (R153, R154) -/

/-- No VEC page is one that a partition's reset leaves (R465). -/
theorem keepsThroughReset_vecPage (cl : Fin 32) : keepsThroughReset (vecPage cl) = false := by
  revert cl
  decide

theorem Dev.ifWritable_vecPage_inReset {d : Dev} {cl : Fin 32} (hr : d.pageInReset (vecPage cl) = true) (f : Dev → Dev) :
    d.ifWritable (vecPage cl) f = d :=
  Dev.ifWritable_inReset hr (keepsThroughReset_vecPage cl) f

theorem coefWritable_host {set : Nat} (h : 6 ≤ set) : coefWritable .host set = true := decide_eq_true h

/-- The host writes no set below 6. -/
theorem coefWritable_host_below {set : Nat} (h : set < 6) : coefWritable .host set = false := decide_eq_false (Nat.not_le.mpr h)

section
variable {d : Dev} {who : Requester} {cl : Nat}

theorem Dev.coefData_refused (h : coefWritable who (d.get (Reg.VEC_COEF_SEL_set cl)) = false) (v : Nat) :
    d.coefData who cl v = d.coefResult cl 0x01 :=
  if_pos (by rw [h]; rfl)

section
variable (h : coefWritable who (d.get (Reg.VEC_COEF_SEL_set cl)) = true)
include h

theorem Dev.coefWritable_not_refused : ¬(!coefWritable who (d.get (Reg.VEC_COEF_SEL_set cl))) = true := by
  rw [h]
  exact Bool.false_ne_true

theorem Dev.coefData_stored (hv : bitAt (d.get (Reg.VEC_COEF_SEL_set cl)) d.coefValid = false) (v : Nat) :
    d.coefData who cl v =
      let i := d.get (Reg.VEC_COEF_SEL_index cl)
      let w := if i % 2 = 1 then v % 2 ^ 32 else v
      let e := { d with comp := { d.comp with coef := Tab.set d.comp.coef (d.get (Reg.VEC_COEF_SEL_set cl) * 2048 + i) 0 w } }
      (e.put (Reg.VEC_COEF_SEL_index cl) ((i + 1) % 2048)).coefResult cl 0x00 :=
  (if_neg (Dev.coefWritable_not_refused h)).trans (if_neg (ne_true_of_eq_false hv))

theorem Dev.coefCommit_valid :
    d.coefCommit who cl = (d.setBitOf (Reg.VEC_COEF_STATUS_valid 0) (d.get (Reg.VEC_COEF_SEL_set cl))).coefResult cl 0x00 :=
  if_neg (Dev.coefWritable_not_refused h)

/-- A set that no issued CHAIN names is invalid at once. -/
theorem Dev.coefInvalidate_unnamed (hn : d.namesSet (d.get (Reg.VEC_COEF_SEL_set cl)) = false) :
    d.coefInvalidate who cl = (d.clrBitOf (Reg.VEC_COEF_STATUS_valid 0) (d.get (Reg.VEC_COEF_SEL_set cl))).coefResult cl 0x00 :=
  (if_neg (Dev.coefWritable_not_refused h)).trans (if_neg (ne_true_of_eq_false hn))

end

/-- The engines whose invalidation of a set waits are all answered once no issued CHAIN names it. -/
theorem Dev.invalidationDone_unnamed {set : Nat} (hw : (d.comp.invalidating.filter fun e => e / 32 == set) ≠ [])
    (hn : d.namesSet set = false) :
    d.invalidationDone set =
      let e := { d with comp := { d.comp with invalidating := d.comp.invalidating.filter fun e => e / 32 != set } }
      (d.comp.invalidating.filter fun e => e / 32 == set).foldl (fun d e => d.coefResult (e % 32) 0x00)
        (e.clrBitOf (Reg.VEC_COEF_STATUS_valid 0) set) :=
  if_neg (not_or.mpr ⟨hw, ne_true_of_eq_false hn⟩)

/-! ### The profile window (R130) -/

/-- The entries below 128 are not the window's. -/
theorem Dev.profInstall_fixed (h : d.get Reg.DEV_PROF_SEL_entry < 128) (v : Nat) :
    d.profInstall v = d.put Reg.DEV_PROF_STATUS_result 0x01 :=
  if_pos h

theorem Dev.profInstall_installed {w0 v : Nat} (h : 128 ≤ d.get Reg.DEV_PROF_SEL_entry) (hs : d.comp.staged = some w0)
    (hr : profileOutOfRange w0 v = false) :
    d.profInstall v =
      (({ d with comp := { d.comp with staged := none } }).setProfile (d.get Reg.DEV_PROF_SEL_entry) w0 (profMask1 v) 2).put
        Reg.DEV_PROF_STATUS_result 0x00 := by
  simp only [Dev.profInstall, hs, hr, Nat.not_lt.mpr h, Bool.false_eq_true, if_false]

end

end Sys2Proof.Machine

namespace Sys2Proof.Proofs

open Sys2Proof Sys2Proof.Machine

/-- Settles O18: a VEC page takes a write unless it is in reset, and each action is then the case that its set or entry is in. -/
theorem coefficientAndProfileWindows : Obligations.CoefficientAndProfileWindows := by
  unfold Obligations.CoefficientAndProfileWindows
  refine ⟨fun cl v s => ?stored, fun cl v s ht hr hb => ?refused, fun cl s ht hr hb => ?commit, fun cl v s hr => ?inReset,
    fun cl s ht hr hb hn => ?invalidate, fun set s => ?invalidated, fun e s => rfl, fun v s => rfl,
    fun v w0 s hb hs hr => ?installed, fun v s hb => ?fixed⟩
  case stored =>
    intro set i ht hr hb hv
    exact State.next_withDev ((Dev.ifWritable_open ht hr _).trans (Dev.coefData_stored (coefWritable_host hb) hv v.toNat))
  case refused =>
    exact State.next_withDev ((Dev.ifWritable_open ht hr _).trans (Dev.coefData_refused (coefWritable_host_below hb) v.toNat))
  case commit => exact State.next_withDev ((Dev.ifWritable_open ht hr _).trans (Dev.coefCommit_valid (coefWritable_host hb)))
  case inReset =>
    exact ⟨State.next_withDev (Dev.ifWritable_vecPage_inReset hr _), State.next_withDev (Dev.ifWritable_vecPage_inReset hr _),
      State.next_withDev (Dev.ifWritable_vecPage_inReset hr _)⟩
  case invalidate =>
    exact State.next_withDev ((Dev.ifWritable_open ht hr _).trans (Dev.coefInvalidate_unnamed (coefWritable_host hb) hn))
  case invalidated =>
    intro w hw hn
    exact State.next_withDev (Dev.invalidationDone_unnamed hw hn)
  case installed => exact State.next_withDev (Dev.profInstall_installed hb hs hr)
  case fixed => exact State.next_withDev (Dev.profInstall_fixed hb v.toNat)

end Sys2Proof.Proofs

namespace Sys2Proof.Machine

/-! ### The messages of an agent, in order on an open port (R168) -/

/-- The device with an up message of so many body bytes counted and its number passed. -/
def Dev.upCounted (d : Dev) (a : Nat) (h : PortHdr) (bytes : Nat) : Dev :=
  (d.addU (Cnt.AGP_CNT_AGP_UP a) (16 + bytes)).setAport a { d.aport a with upNext := (h.seq.toNat + 1) % 2 ^ 24 }

/-- The device with an up message counted and acknowledged. -/
def Dev.upTaken (d : Dev) (a : Nat) (h : PortHdr) (bytes : Nat) : Dev := (d.upCounted a h bytes).ackToAgent a h.seq.toNat

/-- A port that is up or fenced, of a controller that is not silent, meets the message whose number is due. -/
structure Dev.TakesUp (d : Dev) (a : Nat) (h : PortHdr) (bytes : Nat) : Prop where
  port : d.get (Reg.AGP_STATUS_port a) = 3 ∨ d.get (Reg.AGP_STATUS_port a) = 4
  speaks : (d.upCounted a h bytes).silent = false
  inOrder : h.seq.toNat = (d.aport a).upNext

section
variable {d : Dev} {a : Nat} {h : PortHdr} {bytes : Nat}

theorem Dev.receiveUp_taken (ht : d.TakesUp a h bytes) (f : Dev → Dev) : d.receiveUp a h bytes f = f (d.upTaken a h bytes) := by
  have hopen : ¬(d.get (Reg.AGP_STATUS_port a) ≠ 3 ∧ d.get (Reg.AGP_STATUS_port a) ≠ 4) := fun hn => ht.port.elim hn.1 hn.2
  refine (if_neg hopen).trans ((if_pos ht.inOrder).trans (congrArg f (if_neg ?_)))
  exact ne_true_of_eq_false ht.speaks

theorem Dev.forJob_own {j : JobSt} (hj : d.jobOfAcc a = some j) (ho : j.desc.job = h.job.toNat) (f : JobSt → Dev) :
    d.forJob a h f = f j := by
  simp only [Dev.forJob, hj, ho, if_true]

/-- A command that is an up message acts on the device that has taken it. -/
theorem State.next_upTaken {s : State} {f : Dev → Dev} {e : Dev} (ht : s.dev.TakesUp a h bytes) (he : f (s.dev.upTaken a h bytes) = e) :
    (.next { s with dev := (s.dev.receiveUp a h bytes f).settle } : Host.Outcome State Fault Refusal) = .next (s.withDev e.settle) :=
  State.next_withDev (congrArg Dev.settle ((Dev.receiveUp_taken ht f).trans he))

/-- A command that is an up message of the accelerator's own job acts for that job. -/
theorem State.next_upTaken_forJob {s : State} {f : Dev → JobSt → Dev} {j : JobSt} {e : Dev} (ht : s.dev.TakesUp a h bytes)
    (hj : (s.dev.upTaken a h bytes).jobOfAcc a = some j) (ho : j.desc.job = h.job.toNat) (he : f (s.dev.upTaken a h bytes) j = e) :
    (.next { s with dev := (s.dev.receiveUp a h bytes fun d => d.forJob a h (f d)).settle } : Host.Outcome State Fault Refusal) =
      .next (s.withDev e.settle) :=
  State.next_upTaken ht ((Dev.forJob_own hj ho _).trans he)

end

/-! ### TILE (R203, R204, R208) -/

/-- The record of a tile that has just come. -/
def TileRec.arrived (a : Nat) (ws : List Nat) : TileRec :=
  let t := Tile.ofBody ws
  ⟨a, t.step, t.exec, t.id, ws, .waiting, none, [], 0, 0, 0xFFFFFFFF, 0, 31, 0, 0, none⟩

/-- The device with a tile counted, and its generation taken as the confirmation of removals (R202). -/
def Dev.tileCounted (d : Dev) (a : Nat) (t : Tile) : Dev :=
  ((d.incU Cnt.AGR_CNT_AGR_TILES).confirmRemovals a (some t.gen)).flushResid

/-- The device in whose operand cache the blocks of a tile are those last named (R202). -/
def Dev.tileNames (d : Dev) (t : Tile) : Dev :=
  let use := d.nextUse
  { d with cache := d.cache.map fun (b : OpndBlock) => if (t.idsA ++ t.idsB).contains b.id then { b with used := use } else b }

/-- The device with a tile noted for its accelerator. -/
def Dev.tileNoted (d : Dev) (job a : Nat) (t : Tile) : Dev :=
  d.onAcc job a fun x => { x with tiles := x.tiles + 1, ids := x.ids ++ [t.id], named := setBit x.named t.decl }

/-- The tile is beyond the sampled count of its execution's mark (R203). -/
def AccJob.excess (x : AccJob) : Bool := match x.mark with | some m => decide (m.sampled ≤ x.tiles) | none => false

theorem AccJob.excess_of_unmarked {x : AccJob} (hm : x.mark = none) : x.excess = false := by
  unfold AccJob.excess
  rw [hm]

theorem AccJob.excess_of_sampled {x : AccJob} {m : MarkInfo} (hm : x.mark = some m) (hs : m.sampled ≤ x.tiles) : x.excess = true := by
  unfold AccJob.excess
  rw [hm]
  exact decide_eq_true hs

/-- What becomes of a tile that is noted: its first finding is its verdict (R203, R208), and without one it waits for its pair. again: its
identifier came before in this execution. -/
def Dev.tileFound (d : Dev) (job a : Nat) (ws : List Nat) (again : Bool) : Dev :=
  let t := Tile.ofBody ws
  let r := TileRec.arrived a ws
  if again then d.verdict job r 6 31 0 0 false
  else if (t.idsA ++ t.idsB).any d.agr.corrupt.contains then d.verdict job r 4 31 0 0 false
  else if d.tileVoid a t then d.verdict job r 6 31 0 0 false
  else if t.ds && recExp (d.flowRec t.record) != t.scaleE then d.verdict job r 5 31 0 0 false
  else { d with agr := { d.agr with tiles := d.agr.tiles ++ [r] } }

theorem Dev.tileFound_again (d : Dev) (job a : Nat) (ws : List Nat) :
    d.tileFound job a ws true = d.verdict job (TileRec.arrived a ws) 6 31 0 0 false := rfl

theorem Dev.tileFound_waits {d : Dev} {a : Nat} {ws : List Nat}
    (hc : ((Tile.ofBody ws).idsA ++ (Tile.ofBody ws).idsB).any d.agr.corrupt.contains = false)
    (hv : d.tileVoid a (Tile.ofBody ws) = false)
    (hf : ((Tile.ofBody ws).ds && recExp (d.flowRec (Tile.ofBody ws).record) != (Tile.ofBody ws).scaleE) = false) (job : Nat) :
    d.tileFound job a ws false = { d with agr := { d.agr with tiles := d.agr.tiles ++ [TileRec.arrived a ws] } } := by
  simp only [Dev.tileFound, hc, hv, hf, Bool.false_eq_true, if_false]

section
variable {d : Dev} {a : Nat} {ws : List Nat} {j : JobSt} {x : AccJob}
variable (hj : (d.incU Cnt.AGR_CNT_AGR_TILES).jobOfAcc a = some j) (hx : j.accOf a = some x)
include hj hx

/-- A tile of an accelerator with a job: of another execution, beyond its mark, or noted. -/
theorem Dev.tileIn_eq :
    d.tileIn a ws =
      let t := Tile.ofBody ws
      let e := d.tileCounted a t
      if t.step ≠ j.step ∨ t.exec ≠ x.exec then e.incE Cnt.AGR_CNT_AGR_VOID
      else if x.excess then (e.tileNames t).noteVerdict j.desc.job (TileRec.arrived a ws) 6 31 0 0
      else ((e.tileNames t).tileNoted j.desc.job a t).tileFound j.desc.job a ws (x.ids.contains t.id) := by
  simp only [Dev.tileIn, hj, hx]
  rfl

theorem Dev.tileIn_otherExecution (ho : (Tile.ofBody ws).step ≠ j.step ∨ (Tile.ofBody ws).exec ≠ x.exec) :
    d.tileIn a ws = (d.tileCounted a (Tile.ofBody ws)).incE Cnt.AGR_CNT_AGR_VOID :=
  (Dev.tileIn_eq hj hx).trans (if_pos ho)

section
variable (hs : (Tile.ofBody ws).step = j.step) (he : (Tile.ofBody ws).exec = x.exec)
include hs he

theorem Dev.tileIn_present :
    d.tileIn a ws =
      let t := Tile.ofBody ws
      let e := (d.tileCounted a t).tileNames t
      if x.excess then e.noteVerdict j.desc.job (TileRec.arrived a ws) 6 31 0 0
      else (e.tileNoted j.desc.job a t).tileFound j.desc.job a ws (x.ids.contains t.id) := by
  have hnow : ¬((Tile.ofBody ws).step ≠ j.step ∨ (Tile.ofBody ws).exec ≠ x.exec) := fun h => h.elim (· hs) (· he)
  exact (Dev.tileIn_eq hj hx).trans (if_neg hnow)

/-- A tile beyond its mark's sampled count is wrong. -/
theorem Dev.tileIn_excess {m : MarkInfo} (hm : x.mark = some m) (hn : m.sampled ≤ x.tiles) :
    d.tileIn a ws =
      ((d.tileCounted a (Tile.ofBody ws)).tileNames (Tile.ofBody ws)).noteVerdict j.desc.job (TileRec.arrived a ws) 6 31 0 0 :=
  (Dev.tileIn_present hj hx hs he).trans (if_pos (AccJob.excess_of_sampled hm hn))

/-- Before its mark comes no tile is beyond its count. -/
theorem Dev.tileIn_unmarked (hm : x.mark = none) {again : Bool} (hi : x.ids.contains (Tile.ofBody ws).id = again) :
    d.tileIn a ws =
      (((d.tileCounted a (Tile.ofBody ws)).tileNames (Tile.ofBody ws)).tileNoted j.desc.job a (Tile.ofBody ws)).tileFound
        j.desc.job a ws again :=
  hi ▸ (Dev.tileIn_present hj hx hs he).trans (if_neg (ne_true_of_eq_false (AccJob.excess_of_unmarked hm)))

end

end

/-! ### OPND (R199, R202, R203) -/

/-- The device with an operand block in its cache, told to the agents that still know it and no longer noted as corrupt. -/
def Dev.blockCached (d : Dev) (id : Nat) (bs : List Nat) : Dev :=
  let told := match d.block id with | some b => if b.removed.isNone then b.told else [] | none => []
  { d with
    cache := (d.cache.filter fun (b : OpndBlock) => b.id != id) ++ [OpndBlock.mk id bs d.nextUse told none]
    agr := { d.agr with corrupt := d.agr.corrupt.filter (· != id) } }

/-- The device with a block announced to a job's agents whose resident tables have room for it. -/
def Dev.blockAnnounced (d : Dev) (j : JobSt) (id : Nat) : Dev :=
  let room := j.agents.filter fun a => (d.residentOf a).contains id || decide ((d.residentOf a).length < 65536)
  if room = [] then d else d.sendResid room [id] []

section
variable {d : Dev} {a id : Nat} {bs : List Nat} {j : JobSt} (hj : d.jobOfAcc a = some j)
include hj

theorem Dev.opndIn_eq :
    d.opndIn a id bs =
      let e := d.addU Cnt.AGR_CNT_AGR_OPND_BYTES bs.length
      if bs.length ≠ idLen id ∨ crc64 bs ≠ id % 2 ^ 64 then
        { e with agr := { e.agr with corrupt := (e.agr.corrupt ++ [id]).eraseDups } }
      else
        let f := (e.blockCached id bs).blockAnnounced j id
        f.evictBlocks (limitTo (.range 256 4096) (j.reg Reg.AGR_LIMITS_cache_mib) * 2 ^ 20) f.cache.length := by
  simp only [Dev.opndIn, hj]
  rfl

/-- A block of another length than its identifier says is noted as corrupt. -/
theorem Dev.opndIn_otherLength (hl : bs.length ≠ idLen id) :
    d.opndIn a id bs =
      let e := d.addU Cnt.AGR_CNT_AGR_OPND_BYTES bs.length
      { e with agr := { e.agr with corrupt := (e.agr.corrupt ++ [id]).eraseDups } } :=
  (Dev.opndIn_eq hj).trans (if_pos (.inl hl))

/-- A block that matches its identifier is cached and announced. -/
theorem Dev.opndIn_matching (hl : bs.length = idLen id) (hc : crc64 bs = id % 2 ^ 64) :
    d.opndIn a id bs =
      let f := ((d.addU Cnt.AGR_CNT_AGR_OPND_BYTES bs.length).blockCached id bs).blockAnnounced j id
      f.evictBlocks (limitTo (.range 256 4096) (j.reg Reg.AGR_LIMITS_cache_mib) * 2 ^ 20) f.cache.length :=
  (Dev.opndIn_eq hj).trans (if_neg (not_or.mpr ⟨not_not.mpr hl, not_not.mpr hc⟩))

end

/-! ### CUTACK, DIGEST and SHARD (R241, R242) -/

section
variable {d : Dev} {job a : Nat} {i : JobSt} {c : CutSt} (hc : d.cutOf job = some (i, c))
include hc

/-- The first status of an accelerator for the cut. -/
theorem Dev.cutAckIn_first {id status : Nat} (hs : c.step % 2 ^ 32 = id) (hb : ((i.accOf a).bind AccJob.cutAck).isSome = false) :
    d.cutAckIn job a id status =
      let e := (d.onAcc job a fun x => { x with cutAck := some status }).cutCheck job
      if status = 0 ∨ status = 1 ∨ status = 3 then e.startPulls job a else e := by
  simp only [Dev.cutAckIn, hc, hs, hb, ne_eq, not_true_eq_false, Bool.false_eq_true, if_false]

theorem Dev.cutAckIn_starts {id status : Nat} (hs : c.step % 2 ^ 32 = id) (hb : ((i.accOf a).bind AccJob.cutAck).isSome = false)
    (hok : status = 0 ∨ status = 1 ∨ status = 3) :
    d.cutAckIn job a id status =
      ((d.onAcc job a fun x => { x with cutAck := some status }).cutCheck job).startPulls job a :=
  (Dev.cutAckIn_first hc hs hb).trans (if_pos hok)

theorem Dev.cutAckIn_notTaken {id status : Nat} (hs : c.step % 2 ^ 32 = id) (hb : ((i.accOf a).bind AccJob.cutAck).isSome = false)
    (hno : ¬(status = 0 ∨ status = 1 ∨ status = 3)) :
    d.cutAckIn job a id status = (d.onAcc job a fun x => { x with cutAck := some status }).cutCheck job :=
  (Dev.cutAckIn_first hc hs hb).trans (if_neg hno)

theorem Dev.digestIn_pulled {n v : Nat} (hp : c.pulls.contains (a, n, true) = true) :
    d.digestIn job a n (some v) =
      let e := d.onCut job fun c => { c with pulls := c.pulls.filter (· != (a, n, true)) }
      (e.digestOut i c n (e.accId a) v).pullsOf job a := by
  simp only [Dev.digestIn, hc, hp, Bool.not_true, Bool.false_eq_true, if_false]

end

/-! ### DECL, XRDY and VERDICT_OVERDUE (R132, R192, R223, R333) -/

/-- The declarations of an agent that cannot be installed (R132). -/
def Dev.badDecls (d : Dev) (a : Nat) : List (Nat × List Nat) :=
  (declsOf (d.aport a).decl).filter fun e => (declInstall (wd e.2 0) (wd e.2 1) (wd e.2 2)).isNone

section
variable {d : Dev} {a : Nat}

theorem Dev.checkDecls_good (h : d.badDecls a = []) : d.checkDecls a = d := if_pos h

/-- Refused declarations of an accelerator without a job leave no entry. -/
theorem Dev.checkDecls_refused (h : d.badDecls a ≠ []) (hj : d.jobOfAcc a = none) :
    d.checkDecls a = ((d.badDecls a).foldl (fun (d : Dev) e => d.putDecl a e.1 none) d).raise (Src.AGP_decl_refused a) := by
  have hfree : ¬(d.jobOfAcc a).isSome = true := by simp [hj]
  exact (if_neg h).trans (congrArg (Dev.raise · _) (if_neg hfree))

section
variable {j : JobSt} (hj : d.jobOfAcc a = some j)
include hj

theorem Dev.exchangeReady_pulls {n : Nat} (hn : j.isExchange n = true) : d.exchangeReady a n = d.sendDown a 0x06 [n * 2 ^ 40] := by
  simp only [Dev.exchangeReady, hj, hn, if_true]

theorem Dev.verdictOverdue_raised {x : AccJob} (hx : j.accOf a = some x) (hm : x.mark.isSome = true) (hc : x.complete = false)
    (ho : x.overdue = false) :
    d.verdictOverdue a = (d.onAcc j.desc.job a fun x => { x with overdue := true }).raise Src.AGR_verdict_overdue := by
  simp only [Dev.verdictOverdue, hj, hx, hm, hc, ho, Bool.not_false, and_self, if_true]

end

end

end Sys2Proof.Machine

namespace Sys2Proof.Proofs

open Sys2Proof Sys2Proof.Machine

/-- Settles O43: a message that is due is taken, and one of the accelerator's own job acts as the lemma of its row says. -/
theorem upMessages : Obligations.UpMessages := by
  unfold Obligations.UpMessages
  refine ⟨fun a h body j s => ?mark, fun a h body x j s => ?otherExecution, fun a h body x j s => ?again,
    fun a h body x m j s => ?excess, fun a h body x j s => ?waits, fun a h id block j s => ?corrupt, fun a h id block j s => ?cached,
    fun a h id status c i j s => ?cutTaken, fun a h id status c i j s => ?cutNotTaken, fun a h record v c i j s => ?digest,
    fun a h record off data j s => ?shard, fun a h status first time s => ?fault, fun a h body s => ?declRefused,
    fun a h body s => ?declGood, fun a h record j s => ?exchange, fun a j x s hj hx hm hc ho => ?overdue⟩
  case mark =>
    intro d ws u t e hp hu hn hj ho
    exact State.next_upTaken ⟨hp, hu, hn⟩ (Dev.forJob_own hj ho _)
  case otherExecution =>
    intro d ws u t hp hu hn hj ho hk hx he
    exact State.next_upTaken_forJob ⟨hp, hu, hn⟩ hj ho (Dev.tileIn_otherExecution hk hx he)
  case again =>
    intro d ws i u t hp hu hn hj ho hk hx hs he hm hi
    exact State.next_upTaken_forJob ⟨hp, hu, hn⟩ hj ho ((Dev.tileIn_unmarked hk hx hs he hm hi).trans (Dev.tileFound_again _ _ _ _))
  case excess =>
    intro d ws i u t hp hu hn hj ho hk hx hs he hm hl
    exact State.next_upTaken_forJob ⟨hp, hu, hn⟩ hj ho (Dev.tileIn_excess hk hx hs he hm hl)
  case waits =>
    intro d ws i u t f g e hp hu hn hj ho hk hx hs he hm hi hc hv hf
    exact State.next_upTaken_forJob ⟨hp, hu, hn⟩ hj ho ((Dev.tileIn_unmarked hk hx hs he hm hi).trans (Dev.tileFound_waits hc hv hf _))
  case corrupt =>
    rw [← List.length_map (as := block) BitVec.toNat]
    intro d u t e hp hu hn hj ho _ hl
    exact State.next_upTaken_forJob ⟨hp, hu, hn⟩ hj ho (Dev.opndIn_otherLength hj hl)
  case cached =>
    rw [← List.length_map (as := block) BitVec.toNat]
    intro d u t e hp hu hn hj ho _ hl hc
    exact State.next_upTaken_forJob ⟨hp, hu, hn⟩ hj ho (Dev.opndIn_matching hj hl hc)
  case cutTaken =>
    intro d u t hp hu hn hj ho hc hs hb hok
    exact State.next_upTaken_forJob ⟨hp, hu, hn⟩ hj ho (Dev.cutAckIn_starts hc hs hb hok)
  case cutNotTaken =>
    intro d u t hp hu hn hj ho hc hs hb hno
    exact State.next_upTaken_forJob ⟨hp, hu, hn⟩ hj ho (Dev.cutAckIn_notTaken hc hs hb (by omega))
  case digest =>
    intro d u t hp hu hn hj ho hc hq
    exact State.next_upTaken_forJob ⟨hp, hu, hn⟩ hj ho (Dev.digestIn_pulled hc hq)
  case shard =>
    rw [← List.length_map (as := data) BitVec.toNat]
    intro d u t hp hu hn hj ho hx
    exact State.next_upTaken_forJob ⟨hp, hu, hn⟩ hj ho (if_neg (ne_true_of_eq_false hx))
  case fault =>
    intro d u t old new hp hu hn
    exact State.next_upTaken ⟨hp, hu, hn⟩ rfl
  case declRefused =>
    rw [← List.length_map (as := body) BitVec.toNat]
    intro d u t e bad hp hu hn hb hj
    exact State.next_upTaken ⟨hp, hu, hn⟩ (Dev.checkDecls_refused hb hj)
  case declGood =>
    rw [← List.length_map (as := body) BitVec.toNat]
    intro d u t e hp hu hn hb
    exact State.next_upTaken ⟨hp, hu, hn⟩ (Dev.checkDecls_good hb)
  case exchange =>
    intro d u t hp hu hn hj ho hx
    exact State.next_upTaken_forJob ⟨hp, hu, hn⟩ hj ho (Dev.exchangeReady_pulls hj hx)
  case overdue => exact State.next_withDev (Dev.verdictOverdue_raised hj hx hm hc ho)

end Sys2Proof.Proofs

namespace Sys2Proof.Machine

/-! ### Down messages in order on a port that takes them (R168, R170, R178, R179) -/

/-- The device whose agent has passed a down message's number and taken its epoch. -/
def Dev.downPassed (d : Dev) (a : Nat) (h : PortHdr) : Dev :=
  (d.onAgent a fun x => { x with downNext := (h.seq.toNat + 1) % 2 ^ 24 }).put (Reg.AGT_STATUS_epoch a) h.epoch.toNat

/-- The device whose agent has passed a down message and acknowledged it. -/
def Dev.downTaken (d : Dev) (a : Nat) (h : PortHdr) : Dev := (d.downPassed a h).ackFromAgent a h.seq.toNat

/-- A port that is up, or fenced for what it takes always, meets the message that is due, of an epoch that is not lower. -/
structure Dev.TakesDown (d : Dev) (a : Nat) (h : PortHdr) (always : Bool) : Prop where
  port : d.get (Reg.AGT_STATUS_port a) = 3 ∨ d.get (Reg.AGT_STATUS_port a) = 4 ∧ always = true
  epoch : newer (d.get (Reg.AGT_STATUS_epoch a)) h.epoch.toNat = false
  inOrder : h.seq.toNat = (d.agent a).downNext

section
variable {d : Dev} {a : Nat} {h : PortHdr} {always : Bool}

theorem Dev.takes7_taken (ht : d.TakesDown a h always) : d.takes7 a h always = (d.downPassed a h, true) := by
  obtain ⟨hp, he, hn⟩ := ht
  have hopen : ¬(d.get (Reg.AGT_STATUS_port a) ≠ 3 ∧ d.get (Reg.AGT_STATUS_port a) ≠ 4) := fun hc => hp.elim hc.1 (hc.2 ·.1)
  have hfence : ¬(d.get (Reg.AGT_STATUS_port a) = 4 ∧ (!always) = true) := by
    rintro ⟨h4, hf⟩
    rcases hp with h3 | ⟨_, rfl⟩
    · omega
    · cases hf
  exact (if_neg hopen).trans ((if_neg (ne_true_of_eq_false he)).trans ((if_neg hfence).trans (if_pos hn)))

theorem Dev.accepts7_taken (ht : d.TakesDown a h always) : d.accepts7 a h always = (d.downTaken a h, true) := by
  simp only [Dev.accepts7, Dev.takes7_taken ht]
  rfl

/-- A message of a lower epoch is dropped and counted. -/
theorem Dev.takes7_stale (hp : d.get (Reg.AGT_STATUS_port a) = 3 ∨ d.get (Reg.AGT_STATUS_port a) = 4)
    (he : newer (d.get (Reg.AGT_STATUS_epoch a)) h.epoch.toNat = true) : d.takes7 a h always = (d.staleMsg a, false) := by
  have hopen : ¬(d.get (Reg.AGT_STATUS_port a) ≠ 3 ∧ d.get (Reg.AGT_STATUS_port a) ≠ 4) := fun hc => hp.elim hc.1 hc.2
  exact (if_neg hopen).trans (if_pos he)

/-- A message already taken is acknowledged again. -/
theorem Dev.takes7_again (hp : d.get (Reg.AGT_STATUS_port a) = 3) (he : newer (d.get (Reg.AGT_STATUS_epoch a)) h.epoch.toNat = false)
    (hn : h.seq.toNat ≠ (d.agent a).downNext) (hb : ((d.agent a).downNext + 2 ^ 24 - h.seq.toNat) % 2 ^ 24 < 2 ^ 23)
    (hh : (d.agent a).held.any (HeldEv.isShard h.seq.toNat) = false) :
    d.takes7 a h always = (d.ackFromAgent a h.seq.toNat, false) := by
  have hfence : ¬(d.get (Reg.AGT_STATUS_port a) = 4 ∧ (!always) = true) := fun hc => absurd (hp.symm.trans hc.1) (by decide)
  refine (if_neg fun hc => hc.1 hp).trans ((if_neg (ne_true_of_eq_false he)).trans ((if_neg hfence).trans ((if_neg hn).trans (if_pos ?_))))
  exact ⟨hb, by rw [hh]; rfl⟩

theorem Dev.receiveDown_notTaken {e : Dev} {m : DownMsg} (hm : (HeldEv.msg 0 m).isShard 0 = false)
    (ht : d.takes7 a h false = (e, false)) : d.receiveDown a h m = e := by
  simp only [Dev.receiveDown, hm, Dev.accepts7, ht, Bool.false_eq_true, if_false]

section
variable (ht : d.TakesDown a h false)
include ht

theorem Dev.receiveDown_acts {m : DownMsg} (hm : (HeldEv.msg 0 m).isShard 0 = false) (hs : (d.downTaken a h).stepState a ≠ 6) :
    d.receiveDown a h m = ((d.downTaken a h).act a m).tapAgain a := by
  simp only [Dev.receiveDown, hm, Dev.accepts7_taken ht, hs, Bool.false_eq_true, if_false]

/-- In state 6 a message is recorded. -/
theorem Dev.receiveDown_recorded {m : DownMsg} (hm : (HeldEv.msg 0 m).isShard 0 = false) (hs : (d.downTaken a h).stepState a = 6) :
    d.receiveDown a h m = (d.downTaken a h).onAgent a fun x => { x with held := x.held ++ [.msg h.seq.toNat m] } := by
  simp only [Dev.receiveDown, hm, Dev.accepts7_taken ht, hs, Bool.false_eq_true, if_false, if_true]

/-- A SHARD is acknowledged after it has acted. -/
theorem Dev.receiveDown_shard {record off : Nat} {data : List Nat} {entry : Option ShardEntry} (hs : (d.downPassed a h).stepState a ≠ 6) :
    d.receiveDown a h (.shard record off data entry) =
      (((d.downPassed a h).agentShard a record off data entry).ackFromAgent a h.seq.toNat).tapAgain a := by
  have hm : (HeldEv.msg 0 (.shard record off data entry)).isShard 0 = true := rfl
  simp only [Dev.receiveDown, hm, Dev.takes7_taken ht, hs, if_false, if_true]
  rfl

end

/-- A command that is a down message acts on the device whose agent has taken it. -/
theorem State.next_downTaken {s : State} {m : DownMsg} {e : Dev} (ht : s.dev.TakesDown a h false)
    (hm : (HeldEv.msg 0 m).isShard 0 = false) (hs : (s.dev.downTaken a h).stepState a ≠ 6) (he : (s.dev.downTaken a h).act a m = e) :
    (.next { s with dev := s.dev.receiveDown a h m } : Host.Outcome State Fault Refusal) = .next (s.withDev (e.tapAgain a)) :=
  State.next_withDev ((Dev.receiveDown_acts ht hm hs).trans (congrArg (Dev.tapAgain · a) he))

/-- The same for a SHARD, which is acknowledged last. -/
theorem State.next_shardTaken {s : State} {record off : Nat} {data : List Nat} {entry : Option ShardEntry} {e : Dev}
    (ht : s.dev.TakesDown a h false) (hs : (s.dev.downPassed a h).stepState a ≠ 6)
    (he : (s.dev.downPassed a h).agentShard a record off data entry = e) :
    (.next { s with dev := s.dev.receiveDown a h (.shard record off data entry) } : Host.Outcome State Fault Refusal) =
      .next (s.withDev ((e.ackFromAgent a h.seq.toNat).tapAgain a)) :=
  State.next_withDev ((Dev.receiveDown_shard ht hs).trans (congrArg (fun e => (Dev.ackFromAgent e a _).tapAgain a) he))

end

/-! ### JOB, END, COMMIT, REPLAY and CUT (R177 to R179, R181, R182) -/

section
variable {d : Dev} {a : Nat}

theorem Dev.agentJob_idle (hs : d.stepState a = 0) (id first key threshold : Nat) (methods map : List (Nat × Nat)) :
    d.agentJob a id first key threshold methods map =
      let entries := map.take (d.get (Reg.ASTEP_LIMITS_map_count a))
      let here := methods.filter fun m => entries.any fun e => e.1 == m.1
      let e := d.onAgent a fun x => { x with
        job := id
        methods := here.foldl (fun t m => Tab.insert m.1 m.2 (Tab.erase m.1 t)) []
        committed := if first = 0 then none else some (first - 1)
        waitDone := false }
      let e := (e.put (Reg.ASTEP_STATE_step a) first).put (Reg.ASTEP_STATE_exec a) 0
      let e := ((e.installKey a key first threshold).setStepState a 1).writeMap a here entries
      if here.length < methods.length then e.agentRaise a (Src.AFLT_shard_map_error a) else e :=
  if_neg (not_not.mpr hs)

theorem Dev.agentEnd_running (hs : d.stepState a ≠ 0) :
    d.agentEnd a =
      let e := (d.dropKey a).onAgent a fun x =>
        { x with job := 0, committed := none, waitDone := false, cut := none, cutPhase := 0, staged := none, stopped := false }
      let e := ((e.setStepState a 0).pin (.updateGate a) 0).freeSlots a (e.agentStep a)
      let e := if (d.agent a).cutPhase ≠ 0 ∨ d.stepState a = 5 then e.pin (.holdReq a) 0 else e
      if (d.agent a).stopped then e.pin (.stop a) 0 else e := by
  refine (if_neg hs).trans ?_
  simp only [beq_iff_eq]

section
variable {job step key threshold : Nat}

/-- A step that is not this job's or is committed already has no effect (R179). -/
theorem Dev.agentCommit_stale (h : job ≠ (d.agent a).job ∨ (d.agent a).done step = true) :
    d.agentCommit a job step key threshold = d.staleMsg a :=
  if_pos h

section
variable (hj : job = (d.agent a).job) (hd : (d.agent a).done step = false)
include hj hd

/-- The step is this job's and is to come. -/
theorem Dev.step_not_stale : ¬(job ≠ (d.agent a).job ∨ (d.agent a).done step = true) :=
  not_or.mpr ⟨not_not.mpr hj, ne_true_of_eq_false hd⟩

theorem Dev.agentCommit_gated (hs : d.stepState a = 2) (hn : step = d.agentStep a) :
    d.agentCommit a job step key threshold =
      (((d.onAgent a fun x => { x with committed := some step, waitDone := true }).installKey a key (step + 1) threshold).writeRecord a).pin
        (.updateGate a) 1 :=
  (if_neg (Dev.step_not_stale hj hd)).trans ((if_neg (not_not.mpr hs)).trans (if_neg (not_not.mpr hn)))

theorem Dev.agentReplay_gated (hs : d.stepState a = 2) (hn : step = d.agentStep a) :
    d.agentReplay a job step key threshold =
      let e := (d.installKey a key step threshold).put (Reg.ASTEP_STATE_exec a) (d.get (Reg.ASTEP_STATE_exec a) + 1)
      ((e.setStepState a 3).pin (.replayStart a) step).incU (Cnt.ASTEP_CNT_REPLAYS a) :=
  (if_neg (Dev.step_not_stale hj hd)).trans ((if_neg (not_not.mpr hs)).trans (if_neg (not_not.mpr hn)))

end

end

section
variable {id step mode : Nat}

theorem Dev.agentCut_committed (hd : (d.agent a).done step = true) : d.agentCut a id step mode = d.cutAck a id 0x02 := if_pos hd

theorem Dev.agentCut_recorded (hd : (d.agent a).done step = false) (hs : d.stepState a = 1 ∨ d.stepState a = 2)
    (hc : (d.agent a).cut = none) (hg : (d.agent a).staged = none) :
    d.agentCut a id step mode =
      (((d.onAgent a fun x => { x with cut := some (id, step, mode) }).writeRecord a).put (Reg.ASTEP_CUT_cut_id a) id).put
        (Reg.ASTEP_CUT_mode a) mode := by
  have hfree : ¬((d.agent a).cut.isSome = true ∨ (d.agent a).staged.isSome = true) := by simp [hc, hg]
  have hrun : ¬(d.stepState a = 0 ∨ d.stepState a = 5) := by omega
  exact (if_neg (ne_true_of_eq_false hd)).trans ((if_neg hrun).trans (if_neg hfree))

end

/-! ### PULL, RESTORE and RESUME (R178, R182, R183) -/

section
variable {h : PortHdr} {items : List PullItem}

theorem Dev.pullMsg_admitted (hl : (d.agent a).pulls < 4) : d.pullMsg a h items = d.receiveDown a h (.pull items) :=
  if_neg fun hc => absurd hc.1 (Nat.not_le.mpr hl)

theorem Dev.pullMsg_fifth (hl : 4 ≤ (d.agent a).pulls) (he : newer (d.get (Reg.AGT_STATUS_epoch a)) h.epoch.toNat = false)
    (hn : h.seq.toNat = (d.agent a).downNext) : d.pullMsg a h items = d :=
  if_pos ⟨hl, by simp [he, hn]⟩

theorem Dev.pullMsg_stale (he : newer (d.get (Reg.AGT_STATUS_epoch a)) h.epoch.toNat = true) :
    d.pullMsg a h items = d.receiveDown a h (.pull items) :=
  if_neg fun hc => by simp [he] at hc

end

theorem Dev.agentRestore_running {step : Nat} (h1 : 1 ≤ d.stepState a) (h5 : d.stepState a < 5) :
    d.agentRestore a step =
      let e := (d.onAgent a fun x => { x with stopped := true, waitDone := false }).put (Reg.ASTEP_STATE_step a) step
      let e := ((e.setStepState a 5).pin (.stop a) 1).pin (.holdReq a) 1
      ((e.pin (.updateGate a) 0).freeSlots a (d.agentStep a)).dropCut a :=
  if_neg (by omega)

section
variable {id key threshold : Nat}

/-- RESUME after a cut, by the cut's identifier. -/
theorem Dev.agentResume_cut {n mode : Nat} (hs : d.stepState a = 4) (hc : (d.agent a).cut = some (id, n, mode)) :
    d.agentResume a id key threshold =
      ((d.onAgent a fun x => { x with cut := none, cutPhase := 0 }).setStepState a 1).pin (.holdReq a) 0 := by
  simp only [Dev.agentResume, hs, hc, if_true]

/-- RESUME after a restore, by the step. -/
theorem Dev.agentResume_restored (hs : d.stepState a = 5) (hn : id = d.agentStep a) :
    d.agentResume a id key threshold =
      let e := d.onAgent a fun x => { x with stopped := false, committed := some id }
      let e := ((e.installKey a key (id + 1) threshold).put (Reg.ASTEP_STATE_step a) (id + 1)).put (Reg.ASTEP_STATE_exec a) 0
      ((e.setStepState a 1).pin (.stop a) 0).pin (.holdReq a) 0 := by
  have h4 : ¬d.stepState a = 4 := by omega
  exact (if_neg h4).trans (if_pos ⟨hs, hn⟩)

end

/-! ### SHARD and XPUT (R181, R184, R333) -/

section
variable {record off : Nat} {data : List Nat}

/-- Outside a restore only the check of the map is left of a SHARD. -/
theorem Dev.agentShard_unmapped {entry : Option ShardEntry} (hs : d.stepState a ≠ 5)
    (hm : Tab.getD (d.agent a).methods record 0 = 3 ∨ entry = none) :
    d.agentShard a record off data entry = d.agentRaise a (Src.AFLT_shard_map_error a) := by
  have hbad : ¬((Tab.getD (d.agent a).methods record 0 != 3 && entry.isSome) = true) := by
    rcases hm with h3 | rfl
    · simp [h3]
    · simp
  exact (if_pos hs).trans (if_neg hbad)

theorem entryTakes_within {e : ShardEntry} {n : Nat} (ha : e.addr.toNat % 64 = 0) (hl : off + n ≤ e.len.toNat) :
    entryTakes (some e) off n = true := by
  simp [entryTakes, ha, hl]

theorem entryTakes_beyond {e : ShardEntry} {n : Nat} (h : e.len.toNat < off + n ∨ e.addr.toNat % 64 ≠ 0) :
    entryTakes (some e) off n = false := by
  simp only [entryTakes, Bool.and_eq_false_iff, beq_eq_false_iff_ne, decide_eq_false_iff_not, not_le]
  exact h.symm

theorem Dev.writeShard_taken {e : ShardEntry} {ok : Bool} (h : (ok && entryTakes (some e) off data.length) = true) :
    d.writeShard a off data (some e) ok = d.emit (.accWrite a (e.addr.toNat + off) data) :=
  if_pos h

theorem Dev.writeShard_refused {entry : Option ShardEntry} {ok : Bool} (h : (ok && entryTakes entry off data.length) = false) :
    d.writeShard a off data entry ok = d.agentRaise a (Src.AFLT_shard_map_error a) :=
  if_neg (ne_true_of_eq_false h)

theorem Dev.agentShard_written {e : ShardEntry} (hs : d.stepState a = 5) (hm : Tab.getD (d.agent a).methods record 0 ≠ 3)
    (ht : entryTakes (some e) off data.length = true) :
    d.agentShard a record off data (some e) =
      (d.emit (.accWrite a (e.addr.toNat + off) data)).addU (Cnt.ASTEP_CNT_SHARD_DOWN a) data.length := by
  have hok : (Tab.getD (d.agent a).methods record 0 != 3 && entryTakes (some e) off data.length) = true := by simp [hm, ht]
  refine (if_neg (not_not.mpr hs)).trans ((if_pos hok).trans ?_)
  rw [Dev.writeShard_taken hok]

theorem Dev.agentShard_refused {entry : Option ShardEntry} (hs : d.stepState a = 5) (ht : entryTakes entry off data.length = false) :
    d.agentShard a record off data entry = d.agentRaise a (Src.AFLT_shard_map_error a) := by
  have hno : (Tab.getD (d.agent a).methods record 0 != 3 && entryTakes entry off data.length) = false := by simp [ht]
  exact (if_neg (not_not.mpr hs)).trans ((if_neg (ne_true_of_eq_false hno)).trans (Dev.writeShard_refused hno))

/-- The last piece of an exchange record brings its token. -/
theorem Dev.agentXput_last {e : ShardEntry} {token : Nat} (hs : d.stepState a = 1 ∨ d.stepState a = 4)
    (hm : Tab.getD (d.agent a).methods record 0 = 3) (ht : entryTakes (some e) off data.length = true) (hl : 8 ≤ e.len.toNat) :
    d.agentXput a record off true token data (some e) =
      (d.emit (.accWrite a (e.addr.toNat + off) data)).emit (.accWrite a (e.addr.toNat + e.len.toNat - 8) (leBytes 8 token)) := by
  have hrun : 1 ≤ d.stepState a ∧ d.stepState a ≤ 4 ∧ Tab.getD (d.agent a).methods record 0 = 3 := ⟨by omega, by omega, hm⟩
  refine (if_pos hrun).trans ((if_pos hl).trans ?_)
  rw [Dev.writeShard_taken (by rw [ht]; rfl)]

end

end

end Sys2Proof.Machine

namespace Sys2Proof.Proofs

open Sys2Proof Sys2Proof.Machine

/-- Settles O41: a message that is due is taken, and then acts as the lemma of its row says. -/
theorem downMessages : Obligations.DownMessages := by
  unfold Obligations.DownMessages
  refine ⟨fun a h first key threshold methods map s => ?job, fun a h s => ?endJob, fun a h step key threshold s => ?commit,
    fun a h step key threshold s => ?commitStale, fun a h step key threshold s => ?replay, fun a h step key threshold s => ?recorded,
    fun a h id step copy s => ?cut, fun a h id step copy s => ?cutCommitted, fun a h items s => ?pull,
    fun a h items s hl he hn => ?fifthPull, fun a h items s hp he => ?stalePull, fun a h record off data entry s => ?unmapped,
    fun a h step s => ?restore, fun a h record off data e s => ?shard, fun a h record off data e s => ?shardRefused,
    fun a h id key threshold n mode s => ?resumeCut, fun a h id key threshold s => ?resumeRestored, fun a h gen add remove s => ?resid,
    fun a h record off token data e s => ?xput, fun a h step s hp he hn hb hh => ?again⟩
  case job =>
    rw [← List.length_map (as := methods) fun m => (m.1.toNat, m.2.val)]
    intro d t hp he hn hs
    exact State.next_downTaken ⟨.inl hp, he, hn⟩ rfl (hs.trans_ne (by decide)) (Dev.agentJob_idle hs _ _ _ _ _ _)
  case endJob =>
    intro d t hp he hn h0 h6
    exact State.next_downTaken ⟨.inl hp, he, hn⟩ rfl h6 (Dev.agentEnd_running h0)
  case commit =>
    intro d t hp he hn hs hj hd hk
    exact State.next_downTaken ⟨.inl hp, he, hn⟩ rfl (hs.trans_ne (by decide)) (Dev.agentCommit_gated hj hd hs hk)
  case commitStale =>
    intro d t hp he hn h6 hst
    exact State.next_downTaken ⟨.inl hp, he, hn⟩ rfl h6 (Dev.agentCommit_stale hst)
  case replay =>
    intro d t hp he hn hs hj hd hk
    exact State.next_downTaken ⟨.inl hp, he, hn⟩ rfl (hs.trans_ne (by decide)) (Dev.agentReplay_gated hj hd hs hk)
  case recorded =>
    intro d t hp he hn h6
    exact State.next_withDev (Dev.receiveDown_recorded ⟨.inl hp, he, hn⟩ rfl h6)
  case cut =>
    intro d t hp he hn hs hd hc hg
    have h6 : t.stepState a ≠ 6 := by omega
    exact State.next_downTaken ⟨.inl hp, he, hn⟩ rfl h6 (Dev.agentCut_recorded hd hs hc hg)
  case cutCommitted =>
    intro d t hp he hn h6 hd
    exact State.next_downTaken ⟨.inl hp, he, hn⟩ rfl h6 (Dev.agentCut_committed hd)
  case pull =>
    intro d t hp he hn hl h6
    exact State.next_withDev ((Dev.pullMsg_admitted hl).trans (Dev.receiveDown_acts ⟨.inl hp, he, hn⟩ rfl h6))
  case fifthPull => exact State.next_withDev (Dev.pullMsg_fifth hl he hn)
  case stalePull =>
    exact State.next_withDev ((Dev.pullMsg_stale he).trans (Dev.receiveDown_notTaken rfl (Dev.takes7_stale hp he)))
  case unmapped =>
    intro d t hp he hn h5 h6 hm
    exact State.next_shardTaken ⟨.inl hp, he, hn⟩ h6 (Dev.agentShard_unmapped h5 hm)
  case restore =>
    intro d t hp he hn h1 h5
    have h6 : t.stepState a ≠ 6 := by omega
    exact State.next_downTaken ⟨.inl hp, he, hn⟩ rfl h6 (Dev.agentRestore_running h1 h5)
  case shard =>
    rw [← List.length_map (as := data) BitVec.toNat]
    intro d t hp he hn hs hm ha hl
    exact State.next_shardTaken ⟨.inl hp, he, hn⟩ (hs.trans_ne (by decide)) (Dev.agentShard_written hs hm (entryTakes_within ha hl))
  case shardRefused =>
    rw [← List.length_map (as := data) BitVec.toNat]
    intro d t hp he hn hs hb
    exact State.next_shardTaken ⟨.inl hp, he, hn⟩ (hs.trans_ne (by decide)) (Dev.agentShard_refused hs (entryTakes_beyond hb))
  case resumeCut =>
    intro d t hp he hn hs hc
    exact State.next_downTaken ⟨.inl hp, he, hn⟩ rfl (hs.trans_ne (by decide)) (Dev.agentResume_cut hs hc)
  case resumeRestored =>
    intro d t hp he hn hs hk
    exact State.next_downTaken ⟨.inl hp, he, hn⟩ rfl (hs.trans_ne (by decide)) (Dev.agentResume_restored hs hk)
  case resid =>
    intro d t hp he hn h6
    exact State.next_downTaken ⟨.inl hp, he, hn⟩ rfl h6 rfl
  case xput =>
    rw [← List.length_map (as := data) BitVec.toNat]
    intro d t hp he hn hs hm ha hl h8
    have h6 : t.stepState a ≠ 6 := by omega
    exact State.next_downTaken ⟨.inl hp, he, hn⟩ rfl h6 (Dev.agentXput_last hs hm (entryTakes_within ha hl) h8)
  case again => exact State.next_withDev (Dev.receiveDown_notTaken rfl (Dev.takes7_again hp he hn hb hh))

end Sys2Proof.Proofs

namespace Sys2Proof.Machine

/-! ### The tile tap (R172, R173, R195, R200) -/

/-- The device with a tile of the execution counted. -/
def Dev.tileSeen (d : Dev) (a : Nat) : Dev :=
  (d.onAgent a fun x => { x with seen := x.seen + 1 }).incU (Cnt.ASMP_CNT_TILES_SEEN a)

/-- The device with a selected tile of the execution counted. -/
def Dev.tileSampled (d : Dev) (a : Nat) : Dev :=
  (d.onAgent a fun x => { x with sampled := x.sampled + 1 }).incU (Cnt.ASMP_CNT_TILES_SAMPLED a)

/-- The device with a tile shipped: what its resident blocks save is counted, the others leave, then the TILE. -/
def Dev.tileShipped (d : Dev) (a : Nat) (t : TapTile) : Dev :=
  let held := (tapBlocksA t ++ tapBlocksB t).filter fun b => (d.agent a).resident.contains b.1
  let e := d.addU (Cnt.ASMP_CNT_DEDUP_BYTES a) (held.foldl (fun n b => n + b.2.length) 0)
  let e := (d.tileOpnds a t).foldl (fun (d : Dev) b => (d.sendUp a 0x12 b).addU (Cnt.ASMP_CNT_SHIP_BYTES a) (8 * b.length)) e
  (e.sendUp a 0x11 (d.tileBody a t)).addU (Cnt.ASMP_CNT_SHIP_BYTES a) (8 * (d.tileBody a t).length)

section
variable {d : Dev} {a : Nat} {t : TapTile}

theorem Dev.selects_of_held (hs : d.stepState a = 6) (t : TapTile) : d.selects a t = false := by
  simp [Dev.selects, hs]

theorem Dev.selects_of_noKey (hk : (d.agent a).key = none) (t : TapTile) : d.selects a t = false := by
  simp [Dev.selects, hk]

theorem Dev.selects_of_key {key : Nat} (hs : d.stepState a ≠ 6) (hk : (d.agent a).key = some key) (t : TapTile) :
    d.selects a t =
      Machine.sampled key (d.get (Reg.ASMP_STATE_threshold a)) (d.agent a).job (d.get (Reg.ASMP_STATE_step a)) t.id.toNat := by
  simp [Dev.selects, hs, hk]

/-- A tile alone at the tap is accepted at once when it is not selected, or when the shipping buffer has room for it. -/
theorem Dev.tileTap_accepted (htap : (d.agent a).tap = []) (hno : d.selects a t = false ∨ d.shipFull a t = false) :
    d.tileTap a t false = (d.tapTake a t).onAgent a fun x => { x with tap := [] } := by
  have hroom : ¬((d.selects a t && d.shipFull a t) = true) := ne_true_of_eq_false (Bool.and_eq_false_iff.mpr hno)
  show d.tapDrain a ((d.agent a).tap ++ [t]) = _
  rw [htap]
  exact if_neg hroom

/-- A selected tile waits, with all that follow it, while the shipping buffer has no room for it. -/
theorem Dev.tileTap_withheld {u : TapTile} {rest : List TapTile} (hq : (d.agent a).tap ++ [t] = u :: rest) (hs : d.selects a u = true)
    (hf : d.shipFull a u = true) : d.tileTap a t false = d.onAgent a fun x => { x with tap := u :: rest } := by
  show d.tapDrain a ((d.agent a).tap ++ [t]) = _
  rw [hq]
  exact if_pos (by rw [hs, hf]; rfl)

theorem Dev.tapTake_held (hs : d.stepState a = 6) : d.tapTake a t = d.pin (.tileRelease a) t.id.toNat := if_pos hs

section
variable (hs : d.stepState a ≠ 6)
include hs

theorem Dev.tapTake_noKey (hk : (d.agent a).key = none) :
    d.tapTake a t = (d.incE (Cnt.ASMP_CNT_NO_KEY a)).pin (.tileRelease a) t.id.toNat :=
  (if_neg hs).trans (if_pos (by rw [hk]; rfl))

/-- A tile under a key is counted, and shipped when it is selected. -/
theorem Dev.tapTake_keyed {key : Nat} (hk : (d.agent a).key = some key) :
    d.tapTake a t =
      (if d.selects a t then ((d.tileSeen a).tileSampled a).tileShipped a t else d.tileSeen a).pin (.tileRelease a) t.id.toNat := by
  have hkey : ¬((d.agent a).key.isNone = true) := by simp [hk]
  refine (if_neg hs).trans ((if_neg hkey).trans ?_)
  rw [apply_ite (Dev.pin · _ _)]
  rfl

end

end

/-! ### Step ends and the signals of the accelerator (R175, R176, R178, R179, R182) -/

section
variable {d : Dev} {a : Nat}

section
variable {n : Nat} {ws : List Nat}

theorem Dev.stepEnd_held (hs : d.stepState a = 6) :
    d.stepEnd a n ws = d.onAgent a fun x => { x with held := x.held ++ [.stepEnd n (stampOf (d.agentTime a)) ws] } :=
  if_pos hs

theorem Dev.stepEnd_now (hs : d.stepState a ≠ 6) : d.stepEnd a n ws = d.stepEndNow a n (stampOf (d.agentTime a)) ws := if_neg hs

/-- step_end of another step raises mark_error. -/
theorem Dev.stepEndNow_otherStep (hn : n ≠ d.agentStep a) (stamp : Nat) :
    d.stepEndNow a n stamp ws = d.agentRaise a (Src.AFLT_mark_error a) :=
  if_pos (.inr (.inl hn))

/-- step_end of the present step, with a mark list in order, sends MARK and closes the gate. -/
theorem Dev.stepEndNow_marks (hs : d.stepState a = 1 ∨ d.stepState a = 3) (hn : n = d.agentStep a) (hm : d.markOk a ws = true)
    (stamp : Nat) :
    d.stepEndNow a n stamp ws =
      let len := 1 + bits 48 16 (wd ws 0) + 2 * bits 32 16 (wd ws 0) + bits 0 32 (wd ws 0) / 8
      let body := [pack [(24, 40, n), (16, 8, d.get (Reg.ASTEP_STATE_exec a))], stamp,
        word2 (d.agent a).sampled (Nat.min (d.agent a).seen (2 ^ 32 - 1))] ++ ws.take len
      (((d.setStepState a 2).sendUp a 0x10 body).incU (Cnt.ASTEP_CNT_MARKS a)).pin (.updateGate a) 0 := by
  have hok : ¬((d.stepState a ≠ 1 ∧ d.stepState a ≠ 3) ∨ n ≠ d.agentStep a ∨ (!d.markOk a ws) = true) := by
    rw [hm]
    rintro (h | h | h)
    · exact hs.elim h.1 h.2
    · exact h hn
    · cases h
  exact if_neg hok

end

/-- In state 6 a signal is recorded. -/
theorem Dev.signalIn_held (hs : d.stepState a = 6) (sig v : Nat) :
    d.signalIn a sig v = d.onAgent a fun x => { x with held := x.held ++ [.signal sig v] } :=
  if_pos hs

section
variable (hs : d.stepState a ≠ 6)
include hs

theorem Dev.signalIn_updateDone : d.signalIn a 0 0 = d.updateDoneNow a := if_neg hs

theorem Dev.signalIn_holdAck (packed : Nat) : d.signalIn a 1 packed = d.holdAckNow a packed := if_neg hs

theorem Dev.signalIn_copyDone : d.signalIn a 2 0 = d.copyDoneNow a := if_neg hs

end

section
variable (hs : d.stepState a = 2) (hw : (d.agent a).waitDone = true)
include hs hw

theorem Dev.update_is_awaited : ¬(d.stepState a ≠ 2 ∨ (!(d.agent a).waitDone) = true) := by
  simp [hs, hw]

/-- Without a cut the next step is executed. -/
theorem Dev.updateDoneNow_noCut (hc : (d.agent a).cut = none) :
    d.updateDoneNow a =
      let e := d.onAgent a fun x => { x with waitDone := false }
      let e := ((e.put (Reg.ASTEP_STATE_step a) (d.agentStep a + 1)).put (Reg.ASTEP_STATE_exec a) 0).setStepState a 1
      (e.pin (.updateGate a) 0).pin (.slotFree a) (d.agentStep a) := by
  refine (if_neg (Dev.update_is_awaited hs hw)).trans ?_
  simp only [hc, Bool.false_eq_true, if_false]

/-- The cut that was recorded for the step starts. -/
theorem Dev.updateDoneNow_cut {id n mode : Nat} (hc : (d.agent a).cut = some (id, n, mode)) (hn : n ≤ d.agentStep a) :
    d.updateDoneNow a =
      let e := d.onAgent a fun x => { x with waitDone := false, cutPhase := 1 }
      let e := ((e.put (Reg.ASTEP_STATE_step a) (d.agentStep a + 1)).put (Reg.ASTEP_STATE_exec a) 0).setStepState a 4
      ((e.pin (.updateGate a) 0).pin (.slotFree a) (d.agentStep a)).pin (.holdReq a) 1 := by
  refine (if_neg (Dev.update_is_awaited hs hw)).trans ?_
  simp only [hc, hn, decide_true, if_true]

end

section
variable {id n : Nat} (hs : d.stepState a = 4)
include hs

section
variable {packed : Nat} (hp : (d.agent a).cutPhase = 1)
include hp

theorem Dev.holdAckNow_hold (hc : (d.agent a).cut = some (id, n, 0)) :
    d.holdAckNow a packed = ((d.onAgent a fun x => { x with cutPhase := 3 }).writeRecord a).cutAck a id 0x00 := by
  simp only [Dev.holdAckNow, hc, hs, hp, ne_eq, not_true_eq_false, or_self, if_false, if_true]

section
variable (hc : (d.agent a).cut = some (id, n, 1))
include hc

theorem Dev.holdAckNow_copy :
    d.holdAckNow a packed =
      if !d.flag (Reg.AGT_INFO_copy_cut a) ∨ d.get (Reg.ASTEP_STAGE_pages a) * 2 ^ 21 < packed then
        ((d.onAgent a fun x => { x with cutPhase := 3 }).writeRecord a).cutAck a id 0x03
      else
        ((d.onAgent a fun x => { x with
          cutPhase := 2, staged := some ((x.methods.filter fun m => m.2 == 1).map (·.1)) }).writeRecord a).pin (.copyReq a) 1 := by
  simp only [Dev.holdAckNow, hc, hs, hp, ne_eq, not_true_eq_false, or_self, if_false, one_ne_zero]

/-- A copy that is not supported, or does not fit, becomes a hold. -/
theorem Dev.holdAckNow_noCopy (h : d.flag (Reg.AGT_INFO_copy_cut a) = false ∨ d.get (Reg.ASTEP_STAGE_pages a) * 2 ^ 21 < packed) :
    d.holdAckNow a packed = ((d.onAgent a fun x => { x with cutPhase := 3 }).writeRecord a).cutAck a id 0x03 :=
  (Dev.holdAckNow_copy hs hp hc).trans (if_pos (h.imp_left fun h => by rw [h]; rfl))

theorem Dev.holdAckNow_copies (hf : d.flag (Reg.AGT_INFO_copy_cut a) = true) (hl : packed ≤ d.get (Reg.ASTEP_STAGE_pages a) * 2 ^ 21) :
    d.holdAckNow a packed =
      ((d.onAgent a fun x => { x with
        cutPhase := 2, staged := some ((x.methods.filter fun m => m.2 == 1).map (·.1)) }).writeRecord a).pin (.copyReq a) 1 :=
  (Dev.holdAckNow_copy hs hp hc).trans (if_neg (not_or.mpr ⟨by simp [hf], Nat.not_lt.mpr hl⟩))

end

end

theorem Dev.copyDoneNow_copied {mode : Nat} (hc : (d.agent a).cut = some (id, n, mode)) (hp : (d.agent a).cutPhase = 2) :
    d.copyDoneNow a =
      (((d.cutAck a id 0x01).onAgent a fun x => { x with cut := none, cutPhase := 0 }).setStepState a 1).pin (.holdReq a) 0 := by
  simp only [Dev.copyDoneNow, hc, hs, hp, ne_eq, not_true_eq_false, or_self, if_false]

end

end

/-! ### Command strobes (R190, R333) -/

/-- The device with a command's record written into the ring: the index moves on, and the commands that are left are open. -/
def Dev.recordWritten (d : Dev) (a : Nat) (w : List Nat) (rest : List AccCmd) : Dev :=
  let n := 2 ^ d.get (Reg.ACMD_RING_log2n a)
  let index := d.get (Reg.ACMD_STATUS_index a) % n
  let e := d.emit (.accWrite a (d.get (Reg.ACMD_RING_base a) * 4096 + index * 128) (wordBytes w))
  let e := e.onAgent a fun x => { x with cmds := rest, cmdPass := (x.cmdPass + (index + 1) / n) % 2 }
  let e := e.put (Reg.ACMD_STATUS_index a) ((index + 1) % n)
  e.put (Reg.ACMD_STATUS_open a) (e.agent a).open_

/-- The record of a command that ends: its tag, whether its start was missed or not latched, and what was latched at start and end. -/
def Dev.cmdRecord (d : Dev) (a tag pass missed unlatched : Nat) (start ctrs : List Nat) : List Nat :=
  [pack [(32, 32, tag), (2, 1, missed), (1, 1, unlatched), (0, 1, pass)], wd start 0, stampOf (d.agentTime a), 0] ++
    (List.range 4).map (fun i => wd start (i + 1)) ++ d.cmdCounters a ctrs ++ [0, 0, 0, 0]

/-- The device with a command ended: its record written, and an anomaly counted when it has no start. -/
def Dev.cmdClosed (d : Dev) (a tag pass : Nat) (ctrs : List Nat) (c : Option AccCmd) (rest : List AccCmd) : Dev :=
  let start := (c.map AccCmd.start).getD []
  let e := d.recordWritten a (d.cmdRecord a tag pass (b2n c.isNone) (b2n (c.isSome && start == [])) start ctrs) rest
  if c.isNone ∨ start = [] then e.incE (Cnt.ACMD_CNT_CMD_ANOMALY a) else e

section
variable {d : Dev} {a tag : Nat} {ctrs : List Nat}

theorem Dev.cmdStart_latched (h : (d.agent a).open_ < 32) :
    d.cmdStart a tag ctrs =
      let e := d.onAgent a fun x => { x with cmds := x.cmds ++ [⟨tag, stampOf (d.agentTime a) :: d.cmdCounters a ctrs⟩] }
      e.put (Reg.ACMD_STATUS_open a) (e.agent a).open_ := by
  simp only [Dev.cmdStart, Nat.not_le.mpr h, if_false]

/-- With 32 commands open nothing is latched. -/
theorem Dev.cmdStart_full (h : 32 ≤ (d.agent a).open_) :
    d.cmdStart a tag ctrs =
      let e := d.onAgent a fun x => { x with cmds := x.cmds ++ [⟨tag, []⟩] }
      e.put (Reg.ACMD_STATUS_open a) (e.agent a).open_ := by
  simp only [Dev.cmdStart, h, if_true]

section
variable {c : Option AccCmd} {rest : List AccCmd} (ht : takeCmd tag (d.agent a).cmds = (c, rest))
include ht

/-- The tag of an exchange record sends XRDY before the record is written. -/
theorem Dev.cmdEnd_exchange (hb : bitAt 31 tag = true) (hm : Tab.getD (d.agent a).methods (tag % 2 ^ 24) 0 = 3) :
    d.cmdEnd a tag ctrs = (d.sendUp a 0x17 [tag % 2 ^ 24 * 2 ^ 40]).cmdClosed a tag (d.agent a).cmdPass ctrs c rest := by
  have hx : bitAt 31 tag = true ∧ Tab.getD (d.agent a).methods (tag % 2 ^ 24) 0 = 3 := ⟨hb, hm⟩
  simp only [Dev.cmdEnd, if_pos hx, ht]
  rfl

theorem Dev.cmdEnd_other (hx : bitAt 31 tag = false ∨ Tab.getD (d.agent a).methods (tag % 2 ^ 24) 0 ≠ 3) :
    d.cmdEnd a tag ctrs = d.cmdClosed a tag (d.agent a).cmdPass ctrs c rest := by
  have hno : ¬(bitAt 31 tag = true ∧ Tab.getD (d.agent a).methods (tag % 2 ^ 24) 0 = 3) :=
    fun h => hx.elim (ne_false_of_eq_true h.1) (· h.2)
  simp only [Dev.cmdEnd, if_neg hno, ht]
  rfl

end

theorem Dev.cmdClosed_started {c : AccCmd} (h : c.start ≠ []) (pass : Nat) (rest : List AccCmd) :
    d.cmdClosed a tag pass ctrs (some c) rest = d.recordWritten a (d.cmdRecord a tag pass 0 0 c.start ctrs) rest := by
  have hl : (c.start == []) = false := beq_eq_false_iff_ne.mpr h
  simp only [Dev.cmdClosed, Option.map_some, Option.getD_some, Option.isNone_some, Option.isSome_some, hl, h, Bool.and_false,
    Bool.false_eq_true, or_self, if_false, b2n]

/-- A command without a start, or whose start was not latched, is an anomaly. -/
theorem Dev.cmdClosed_unstarted {c : Option AccCmd} (h : c = none ∨ ∃ x, c = some x ∧ x.start = []) (pass : Nat) (rest : List AccCmd) :
    d.cmdClosed a tag pass ctrs c rest =
      (d.recordWritten a (d.cmdRecord a tag pass (b2n c.isNone) (b2n c.isSome) [] ctrs) rest).incE (Cnt.ACMD_CNT_CMD_ANOMALY a) := by
  have hl : (c.map AccCmd.start).getD [] = [] := by
    rcases h with rfl | ⟨x, rfl, hx⟩
    · rfl
    · exact hx
  simp only [Dev.cmdClosed, hl, beq_self_eq_true, Bool.and_true, or_true, if_true]

end

/-! ### The engine watch (R187) -/

section
variable {d : Dev} {a e : Nat}

/-- A busy engine of the accelerator, watched, not yet shown, and without progress for its timeout. -/
theorem Dev.agentHang_raised (he : e < d.get (Reg.AGT_INFO_n_eng a)) (ht : d.engineTimeout a e ≠ 0)
    (hb : bitAt e (d.get (Reg.AFLT_ENG_HUNG_hung a)) = false) (hp : d.progressed a e = false) :
    d.agentHang a e true =
      ((d.setBitOf (Reg.AFLT_ENG_HUNG_hung a) e).incE (Cnt.AFLT_CNT_HANG a)).agentRaise a (Src.AFLT_engine_hang a) :=
  if_neg (by simp [he, ht, hb, hp])

theorem Dev.agentHang_unwatched (ht : d.engineTimeout a e = 0) (busy : Bool) : d.agentHang a e busy = d :=
  if_pos (.inr (.inr (.inr (.inl ht))))

theorem Dev.agentHang_idle : d.agentHang a e false = d := if_pos (.inl rfl)

end

end Sys2Proof.Machine

namespace Sys2Proof.Proofs

open Sys2Proof Sys2Proof.Machine

/-- Settles O39, signal by signal; a tile alone at the tap is taken unless it is selected and the shipping buffer is full. -/
theorem agentSignals : Obligations.AgentSignals := by
  unfold Obligations.AgentSignals
  refine ⟨fun a t s htap h6 => ?tileHeld, fun a t s htap h6 hk => ?tileNoKey, fun a t key s => ?tileNotSampled,
    fun a t key s => ?tileSampled, fun a t u rest s hq hs hf => ?tileWaits, fun a n list s h6 => ?stepEndHeld,
    fun a n list s => ?mark, fun a n list s h6 hn => ?markError, fun a s h6 => ?updateHeld, fun a s => ?update,
    fun a id n mode s => ?updateCut, fun a packed id n s hs hc hp => ?hold, fun a packed id n s hs hc hp h => ?noCopy,
    fun a packed id n s hs hc hp hf hl => ?copy, fun a id n mode s hs hc hp => ?copied, fun a tag ctrs s => ?start,
    fun a tag ctrs s => ?startFull, fun a tag ctrs c rest s => ?endExchange, fun a tag ctrs c rest s => ?endUnstarted,
    fun a tag ctrs c rest s => ?endStarted, fun a e s => rfl, fun a i s => rfl, fun a e s he ht hb hp => ?hang,
    fun a e busy s ht => ?unwatched, fun a e s => ?idle⟩
  case tileHeld =>
    refine State.next_withDev ((Dev.tileTap_accepted htap (.inl (Dev.selects_of_held h6 t))).trans ?_)
    rw [Dev.tapTake_held h6]
  case tileNoKey =>
    refine State.next_withDev ((Dev.tileTap_accepted htap (.inl (Dev.selects_of_noKey hk t))).trans ?_)
    rw [Dev.tapTake_noKey h6 hk]
  case tileNotSampled =>
    intro d e htap h6 hk hn
    have hs := (Dev.selects_of_key h6 hk t).trans hn
    refine State.next_withDev ((Dev.tileTap_accepted htap (.inl hs)).trans ?_)
    rw [Dev.tapTake_keyed h6 hk, hs]
    rfl
  case tileSampled =>
    intro d e f htap h6 hk hy hf
    have hs := (Dev.selects_of_key h6 hk t).trans hy
    refine State.next_withDev ((Dev.tileTap_accepted htap (.inr hf)).trans ?_)
    rw [Dev.tapTake_keyed h6 hk, hs]
    rfl
  case tileWaits => exact State.next_withDev (Dev.tileTap_withheld hq hs hf)
  case stepEndHeld => exact State.next_withDev (Dev.stepEnd_held h6)
  case mark =>
    intro d ws hs hn hm
    have h6 : d.stepState a ≠ 6 := by omega
    exact State.next_withDev ((Dev.stepEnd_now h6).trans (Dev.stepEndNow_marks hs hn hm _))
  case markError => exact State.next_withDev ((Dev.stepEnd_now h6).trans (Dev.stepEndNow_otherStep hn _))
  case updateHeld => exact State.next_withDev (Dev.signalIn_held h6 0 0)
  case update =>
    intro d hs hw hc
    exact State.next_withDev ((Dev.signalIn_updateDone (hs.trans_ne (by decide))).trans (Dev.updateDoneNow_noCut hs hw hc))
  case updateCut =>
    intro d hs hw hc hn
    exact State.next_withDev ((Dev.signalIn_updateDone (hs.trans_ne (by decide))).trans (Dev.updateDoneNow_cut hs hw hc hn))
  case hold =>
    exact State.next_withDev ((Dev.signalIn_holdAck (hs.trans_ne (by decide)) _).trans (Dev.holdAckNow_hold hs hp hc))
  case noCopy =>
    exact State.next_withDev ((Dev.signalIn_holdAck (hs.trans_ne (by decide)) _).trans (Dev.holdAckNow_noCopy hs hp hc h))
  case copy =>
    exact State.next_withDev ((Dev.signalIn_holdAck (hs.trans_ne (by decide)) _).trans (Dev.holdAckNow_copies hs hp hc hf hl))
  case copied =>
    exact State.next_withDev ((Dev.signalIn_copyDone (hs.trans_ne (by decide))).trans (Dev.copyDoneNow_copied hs hc hp))
  case start =>
    intro d ho
    exact State.next_withDev (Dev.cmdStart_latched ho)
  case startFull =>
    intro d ho
    exact State.next_withDev (Dev.cmdStart_full ho)
  case endExchange =>
    intro d n index hb hm ht hc
    exact State.next_withDev ((Dev.cmdEnd_exchange ht hb hm).trans (Dev.cmdClosed_started hc _ _))
  case endUnstarted =>
    intro d n index hb ht hc
    exact State.next_withDev ((Dev.cmdEnd_other ht (.inl hb)).trans (Dev.cmdClosed_unstarted hc _ _))
  case endStarted =>
    intro d n index hx ht hc
    exact State.next_withDev ((Dev.cmdEnd_other ht hx).trans (Dev.cmdClosed_started hc _ _))
  case hang => exact State.next_withDev (Dev.agentHang_raised he ht hb hp)
  case unwatched => exact State.next_withDev (Dev.agentHang_unwatched ht busy)
  case idle => exact State.next_withDev Dev.agentHang_idle

end Sys2Proof.Proofs

namespace Sys2Proof.Machine

/-! ### The ends of an agent port (R168, R170, R186) -/

section
variable {d : Dev} {a seq : Nat} {m : PortMsg}

section
variable (hm : ((d.agent a).up.find? fun m => m.seq == seq && d.agentUp a) = some m)
include hm

theorem Dev.retransmit_agent (ht : m.tries < 8) :
    d.retransmit .agent a seq =
      ((d.incE (Cnt.AGP_CNT_AGP_RETX a)).onAgent a fun x => { x with up := (d.agent a).up.map fun y =>
        if y.seq = seq then { y with tries := y.tries + 1 } else y }).emit (m.up a) := by
  simp only [Dev.retransmit, hm, Nat.not_le.mpr ht, if_false]

theorem Dev.retransmit_agent_lost (ht : 8 ≤ m.tries) : d.retransmit .agent a seq = d.agentRaise a (Src.AFLT_port_lost a) := by
  simp only [Dev.retransmit, hm, ht, if_true]

end

section
variable (hm : ((d.aport a).down.find? fun m => m.seq == seq && d.downOpen a) = some m)
include hm

theorem Dev.retransmit_controller (ht : m.tries < 8) :
    d.retransmit .controller a seq =
      let e := d.incE (Cnt.AGP_CNT_AGP_RETX a)
      (e.setAport a { e.aport a with
        down := (d.aport a).down.map fun y => if y.seq = seq then { y with tries := y.tries + 1 } else y }).downOut a m := by
  simp only [Dev.retransmit, hm, Nat.not_le.mpr ht, if_false]

theorem Dev.retransmit_controller_lost (ht : 8 ≤ m.tries) :
    d.retransmit .controller a seq = d.raise (Src.AGP_agent_link_lost a) := by
  simp only [Dev.retransmit, hm, ht, if_true]

end

section
variable {h : PortHdr}

theorem Dev.ackMsg_agent_up (hp : d.get (Reg.AGT_STATUS_port a) = 3)
    (he : newer (d.get (Reg.AGT_STATUS_epoch a)) h.epoch.toNat = false) :
    d.ackMsg .agent a h seq = (d.put (Reg.AGT_STATUS_epoch a) h.epoch.toNat).ackUp a seq :=
  (if_neg fun hc => hc.1 hp).trans ((if_neg (ne_true_of_eq_false he)).trans (if_neg (hp.trans_ne (by decide))))

theorem Dev.ackMsg_agent_stale (hp : d.get (Reg.AGT_STATUS_port a) = 3 ∨ d.get (Reg.AGT_STATUS_port a) = 4)
    (he : newer (d.get (Reg.AGT_STATUS_epoch a)) h.epoch.toNat = true) : d.ackMsg .agent a h seq = d.staleMsg a :=
  (if_neg fun hc => hp.elim hc.1 hc.2).trans (if_pos he)

/-- An agent takes no ACK on a port that is not up; a fenced one still counts those of a lower epoch. -/
theorem Dev.ackMsg_agent_notUp (hp : d.get (Reg.AGT_STATUS_port a) ≠ 3)
    (he : d.get (Reg.AGT_STATUS_port a) = 4 → newer (d.get (Reg.AGT_STATUS_epoch a)) h.epoch.toNat = false) :
    d.ackMsg .agent a h seq = d := by
  by_cases h4 : d.get (Reg.AGT_STATUS_port a) = 4
  · exact (if_neg fun hc => hc.2 h4).trans ((if_neg (ne_true_of_eq_false (he h4))).trans (if_pos h4))
  · exact if_pos ⟨hp, h4⟩

theorem Dev.ackMsg_controller (hp : d.get (Reg.AGP_STATUS_port a) = 3 ∨ d.get (Reg.AGP_STATUS_port a) = 4) :
    d.ackMsg .controller a h seq = (d.addU (Cnt.AGP_CNT_AGP_UP a) (portBytes [seq])).ackDown a seq :=
  if_neg fun hc => hp.elim hc.1 hc.2

end

/-- The device whose sender's copy of a down message is released, with what waited for it gone on. -/
def Dev.downReleased (d : Dev) (a seq : Nat) : Dev :=
  let e := d.setAport a { d.aport a with down := (d.aport a).down.filter fun m => m.seq != seq }
  ((e.shardAcked a seq).replayAcked a seq).takeAcked a seq

section
variable (hk : ((d.aport a).down.any fun m => m.seq == seq) = true)
include hk

theorem Dev.ackDown_kept :
    d.ackDown a seq =
      match (d.downReleased a seq).jobOfAcc a with
      | some j => (d.downReleased a seq).lateReports j.desc.job
      | none => d.downReleased a seq := by
  simp only [Dev.ackDown, hk, Bool.not_true, Bool.false_eq_true, if_false]
  rfl

theorem Dev.ackDown_job {j : JobSt} (hj : (d.downReleased a seq).jobOfAcc a = some j) :
    d.ackDown a seq = (d.downReleased a seq).lateReports j.desc.job := by
  simp only [Dev.ackDown_kept hk, hj]

theorem Dev.ackDown_noJob (hj : (d.downReleased a seq).jobOfAcc a = none) : d.ackDown a seq = d.downReleased a seq := by
  simp only [Dev.ackDown_kept hk, hj]

end

end

/-! ### Cuts abandoned, declarations, fences and missing marks (R170, R178, R192, R193) -/

section
variable {d : Dev} {a : Nat}

theorem Dev.cutAbandon_cut {id n mode : Nat} (hs : d.stepState a = 4) (hc : (d.agent a).cut = some (id, n, mode)) :
    d.cutAbandon a =
      let e := ((d.onAgent a fun x => { x with cut := none, cutPhase := 0 }).setStepState a 1).pin (.holdReq a) 0
      (e.cutAck a id 0x05).agentRaise a (Src.AFLT_cut_abandoned a) := by
  simp only [Dev.cutAbandon, hs, hc, ne_eq, not_true_eq_false, if_false]

theorem Dev.aprofLock_locked (h : d.flag (Reg.APROF_LOCK_lock a) = true) (tables : List (List Nat)) : d.aprofLock a tables = d :=
  if_pos h

/-- The declarations leave once, with the coefficient tables of those that have one. -/
theorem Dev.aprofLock_unlocked (h : d.flag (Reg.APROF_LOCK_lock a) = false) (tables : List (List Nat)) :
    d.aprofLock a tables =
      let ws := (List.range 4).flatMap fun i =>
        [d.get (Reg.APROF_W0_w a i), d.get (Reg.APROF_W1_w a i), d.get (Reg.APROF_W2_w a i), d.get (Reg.APROF_W3_w a i)]
      let ts := tables.zipIdx.filter fun t => d.get (Reg.APROF_W3_w a t.2) != 0
      let e := (d.onAgent a fun x => { x with decl := ws ++ ts.flatMap fun t => t.1.take 2048 }).put (Reg.APROF_LOCK_lock a) 1
      e.sendDecl a :=
  if_neg (ne_true_of_eq_false h)

theorem Dev.agentFence_up (h : d.agentUp a = true) : d.agentFence a = (d.setAgentPort a 4).put (Reg.AGP_CTRL_fence a) 0 :=
  congrArg (Dev.put · _ 0) (if_pos h)

theorem Dev.markMissing_raised {j : JobSt} {x : AccJob} (hj : d.jobOfAcc a = some j) (hx : j.accOf a = some x) (hm : x.mark = none)
    (hs : x.standIn = false) : d.markMissing a = d.raise (Src.AGP_mark_missing a) := by
  simp only [Dev.markMissing, hj, Option.bind_some, hx, hm, hs, Option.isNone_none, Bool.not_false, Bool.and_self, if_true]

/-! No page of an agent is one that a partition's reset leaves (R465). -/

theorem keepsThroughReset_agtPage (a : Fin 8) : keepsThroughReset (0x1000 * (a.val + 1)) = false := by
  revert a
  decide

theorem keepsThroughReset_aprofPage (a : Fin 8) : keepsThroughReset (0x1000 * (a.val + 1) + 5) = false := by
  revert a
  decide

theorem keepsThroughReset_agpPage (a : Fin 8) : keepsThroughReset (0x080 + a.val) = false := by
  revert a
  decide

end

/-! ### REG messages (R46, R168, R170, R443) -/

section
variable {d : Dev} {a : Nat} {h : PortHdr} (ht : d.TakesDown a h true)
include ht

theorem Dev.regRequest_read (off v : Nat) (dma : Dma) :
    d.regRequest a h false off v dma =
      let addr := 0x1000000 * (a + 1) + off
      let e := (d.downTaken a h).readAt addr
      e.sendUp a 0x0C [word2 (if (d.downTaken a h).pageInReset (addr / 0x1000) then 0x06 else 0x00) h.seq.toNat, e.rdata] := by
  simp only [Dev.regRequest, Dev.accepts7_taken ht, Bool.false_eq_true, if_false]

theorem Dev.regRequest_write (off v : Nat) (dma : Dma) :
    d.regRequest a h true off v dma =
      let addr := 0x1000000 * (a + 1) + off
      ((d.downTaken a h).writeAt .pair addr v dma).sendUp a 0x0C
        [word2 (if (d.downTaken a h).pageInReset (addr / 0x1000) then 0x06 else 0x00) h.seq.toNat, 0] := by
  simp only [Dev.regRequest, Dev.accepts7_taken ht, if_true]

end

/-- The device with a window's entry closed. -/
def Dev.windowClosed (d : Dev) (a req : Nat) : Dev :=
  { d with ra := { d.ra with windows := d.ra.windows.filter fun w => !(w.1 == a && w.2.1 == req) } }

theorem Dev.windowClosed_target (d : Dev) (a req : Nat) : (d.windowClosed a req).ra.target = d.ra.target := rfl

/-- The device whose own access in progress is answered from an agent's window. -/
def Dev.ownAnswered (d : Dev) (code data : Nat) : Dev :=
  match d.ra.target with
  | some chip => if chipIsBroadcast chip then (if code = 0x00 then d.raAck d.chip else d) else d.raFinish code data
  | none => d

theorem Dev.ownAnswered_one {d : Dev} {chip : Nat} (hc : d.ra.target = some chip) (hb : chipIsBroadcast chip = false) (code data : Nat) :
    d.ownAnswered code data = d.raFinish code data := by
  simp only [Dev.ownAnswered, hc, hb, Bool.false_eq_true, if_false]

section
variable {d : Dev} {a : Nat} {h : PortHdr} {req w0 w1 chip : Nat} {wr : Bool} (ht : d.TakesUp a h 16)
include ht

/-- The access was a remote controller's, which is answered. -/
theorem Dev.regResponse_remote {seq : Nat}
    (hw : ((d.upTaken a h 16).ra.windows.find? fun w => w.1 == a && w.2.1 == req) = some (w0, w1, some (chip, seq), wr)) (code data : Nat) :
    d.regResponse a h req code data = ((d.upTaken a h 16).windowClosed a req).raAnswer chip seq code data := by
  refine (Dev.receiveUp_taken ht _).trans ?_
  simp only [hw]
  rfl

/-- The access was this controller's own. -/
theorem Dev.regResponse_own (hw : ((d.upTaken a h 16).ra.windows.find? fun w => w.1 == a && w.2.1 == req) = some (w0, w1, none, wr))
    (code data : Nat) : d.regResponse a h req code data = ((d.upTaken a h 16).windowClosed a req).ownAnswered code data := by
  refine (Dev.receiveUp_taken ht _).trans ?_
  simp only [hw]
  rfl

end

end Sys2Proof.Machine

namespace Sys2Proof.Proofs

open Sys2Proof Sys2Proof.Machine

/-- Settles O40, command by command; a write of a register page acts where the page takes writes. -/
theorem agentPortAndTime : Obligations.AgentPortAndTime := by
  unfold Obligations.AgentPortAndTime
  refine ⟨fun a seq m s => ?again, fun a seq m s => ?againDown, fun a seq m s hm ht => ?lost, fun a seq m s hm ht => ?lostDown,
    fun a h seq s => ?ack, fun a h seq s hp he => ?ackStale, fun a h seq s hp he => ?ackStaleFenced, fun a h seq s hp he => ?ackNotUp,
    fun a h seq j s => ?ackJob, fun a h seq s => ?ackNoJob, fun a s => rfl, fun a id n mode s hs hc => ?abandoned,
    fun a h sec ns frac latency s => ?time, fun a s => rfl, fun a s hr => ?rearmInReset, fun a tables s hr => ?lockInReset,
    fun a s ht hr => ?rearm, fun a tables s hl => ?locked, fun a tables s => ?lock, fun a s => rfl, fun a s => rfl,
    fun a s hr => ?fenceInReset, fun a s ht hr hu => ?fence, fun a j x s hj hx hm hs => ?markMissing⟩
  case again =>
    intro d hm ht
    exact State.next_withDev (Dev.retransmit_agent hm ht)
  case againDown =>
    intro d hm ht
    exact State.next_withDev (Dev.retransmit_controller hm ht)
  case lost => exact State.next_withDev (Dev.retransmit_agent_lost hm ht)
  case lostDown => exact State.next_withDev (Dev.retransmit_controller_lost hm ht)
  case ack =>
    intro d hp he
    exact State.next_withDev (congrArg Dev.settle (Dev.ackMsg_agent_up hp he))
  case ackStale => exact State.next_withDev (congrArg Dev.settle (Dev.ackMsg_agent_stale (.inl hp) he))
  case ackStaleFenced => exact State.next_withDev (congrArg Dev.settle (Dev.ackMsg_agent_stale (.inr hp) he))
  case ackNotUp => exact State.next_withDev (congrArg Dev.settle (Dev.ackMsg_agent_notUp hp he))
  case ackJob =>
    intro u d e hp hk hj
    exact State.next_withDev (congrArg Dev.settle ((Dev.ackMsg_controller hp).trans (Dev.ackDown_job hk hj)))
  case ackNoJob =>
    intro u d e hp hk hj
    exact State.next_withDev (congrArg Dev.settle ((Dev.ackMsg_controller hp).trans (Dev.ackDown_noJob hk hj)))
  case abandoned => exact State.next_withDev (Dev.cutAbandon_cut hs hc)
  case time =>
    intro d hp he hn
    have ht : d.TakesDown a h true := ⟨hp.imp_right (⟨·, rfl⟩), he, hn⟩
    exact State.next_withDev (by rw [Dev.accepts7_taken ht]; rfl)
  case rearmInReset => exact State.next_withDev (Dev.ifWritable_inReset hr (keepsThroughReset_agtPage a) _)
  case lockInReset => exact State.next_withDev (Dev.ifWritable_inReset hr (keepsThroughReset_aprofPage a) _)
  case rearm => exact State.next_withDev (Dev.ifWritable_open ht hr _)
  case locked => exact State.next_withDev (Dev.ifWritable_id (Dev.aprofLock_locked hl _))
  case lock =>
    intro d ht hr hl
    exact State.next_withDev ((Dev.ifWritable_open ht hr _).trans (Dev.aprofLock_unlocked hl _))
  case fenceInReset => exact State.next_withDev (Dev.ifWritable_inReset hr (keepsThroughReset_agpPage a) _)
  case fence => exact State.next_withDev ((Dev.ifWritable_open ht hr _).trans (Dev.agentFence_up hu))
  case markMissing => exact State.next_withDev (Dev.markMissing_raised hj hx hm hs)

/-- Settles O42: a request that is due is taken and answered; an answer that is due ends the access of its window's entry. -/
theorem regWindow : Obligations.RegWindow := by
  unfold Obligations.RegWindow
  refine ⟨fun a h off v dma s => ?read, fun a h off v dma s => ?write, fun a h req code data w0 w1 chip seq wr s => ?remote,
    fun a h req code data w0 w1 chip wr s => ?own⟩
  case read =>
    intro d t hp he hn
    exact State.next_withDev (Dev.regRequest_read ⟨hp.imp_right (⟨·, rfl⟩), he, hn⟩ _ _ _)
  case write =>
    intro d t hp he hn
    exact State.next_withDev (Dev.regRequest_write ⟨hp.imp_right (⟨·, rfl⟩), he, hn⟩ _ _ _)
  case remote =>
    intro d u t hp hu hn hw
    exact State.next_withDev (Dev.regResponse_remote ⟨.inl hp, hu, hn⟩ hw _ _)
  case own =>
    intro d u t hp hu hn hw hc hb
    exact State.next_withDev ((Dev.regResponse_own ⟨.inl hp, hu, hn⟩ hw _ _).trans
      (Dev.ownAnswered_one ((Dev.windowClosed_target ..).trans hc) hb _ _))

end Sys2Proof.Proofs

namespace Sys2Proof.Machine

/-! ### Epoch pulses (R341 to R345) -/

/-- The device with its pulse counted. -/
def Dev.pulseCounted (d : Dev) : Dev := d.put Reg.TIME_EPOCH_pulse (d.get Reg.TIME_EPOCH_pulse + 1)

/-- The device whose clock starts a pulse period: what waited for the pulse is gone, and a source's next adj is what its discipline wants. -/
def Dev.pulseBegun (d : Dev) : Dev :=
  d.onClock fun c => { c with
    nextAdj := if d.timeSource then c.wanted else none, wanted := none, nextLoad := none, stepBy := 0, atPulse := d.time }

/-- The device with a source's rack frames sent. -/
def Dev.framesSent (d : Dev) : Dev :=
  if d.timeSource then (gPorts.filter d.portUp).foldl (fun d i => d.sendTimeFrame i d.rackFrame) d else d

section
variable {d : Dev}

/-- A pulse for which nothing waited. -/
theorem Dev.epochPulse_plain (ha : d.clock.nextAdj = none) (hl : d.clock.nextLoad = none) (hs : d.clock.stepBy = 0) :
    d.epochPulse = d.pulseCounted.pulseBegun.tablesTake.framesSent := by
  simp only [Dev.epochPulse, Dev.put_clock, ha, hl, hs, add_zero, Int.toNat_natCast, Option.isSome_none, bne_self_eq_false, Bool.or_self,
    Bool.false_eq_true, if_false]
  rfl

/-- A pulse at which an adj and a time that waited are taken. -/
theorem Dev.epochPulse_loaded {adj t : Nat} (ha : d.clock.nextAdj = some adj) (hl : d.clock.nextLoad = some t) :
    d.epochPulse =
      let e := d.pulseCounted.put Reg.TIME_RATE_adj adj
      (({ e with time := t }).incU Cnt.TIME_CNT_TIME_LOADS).pulseBegun.pulsesStepped.tablesTake.framesSent := by
  simp only [Dev.epochPulse, Dev.put_clock, ha, hl, Option.isSome_some, Bool.true_or, if_true]
  rfl

end

/-! ### Rack time frames (R344 to R346, R350, R351) -/

/-- When a rack frame's sender sent it. -/
def frameDeparture (w : List Nat) : Nat := bits 0 48 (wd w 4) * unitsPerSec + bits 0 46 (wd w 5) * 2 ^ 24

/-- The time of the pulse that a rack frame names. -/
def framePulseTime (w : List Nat) : Nat := bits 0 48 (wd w 1) * unitsPerSec + bits 0 46 (wd w 2) * 2 ^ 24

/-- The device with a rack frame's offset taken. -/
def Dev.frameOffset (d : Dev) (i : Nat) (w : List Nat) : Dev :=
  d.rackOffset ((d.time : Int) - frameDeparture w - d.linkDelay i)

/-- How far the own time at the pulse is from a rack frame's. -/
def Dev.frameDiff (d : Dev) (w : List Nat) : Int := inFrameUnits ((d.clock.atPulse : Int) - framePulseTime w)

/-- A difference is beyond the jump threshold. -/
def Dev.jumps (d : Dev) (diff : Int) : Bool := decide (d.jumpLimit < diff) || decide (diff < -d.jumpLimit)

theorem Dev.jumps_eq_true {d : Dev} {diff : Int} (h : diff < -d.jumpLimit ∨ d.jumpLimit < diff) : d.jumps diff = true := by
  simp only [Dev.jumps, Bool.or_eq_true, decide_eq_true_iff]
  exact h.symm

theorem Dev.jumps_eq_false {d : Dev} {diff : Int} (h : -d.jumpLimit ≤ diff ∧ diff ≤ d.jumpLimit) : d.jumps diff = false := by
  simp only [Dev.jumps, Bool.or_eq_false_iff, decide_eq_false_iff_not, not_lt]
  exact h.symm

/-- The device for which a rack frame's correction waits for the next pulse. -/
def Dev.frameWaits (d : Dev) (w : List Nat) (diff : Int) : Dev :=
  d.onClock fun c => { c with
    nextAdj := some (bits 0 32 (wd w 3))
    nextLoad := if diff = 0 then c.nextLoad else some (framePulseTime w + 156250 * increment (bits 32 32 (wd w 3))) }

/-- What a controller that runs on its reference does with a rack frame whose offset is taken. now is the moment of arrival. -/
def Dev.frameTaken (d : Dev) (w : List Nat) (diff : Int) (big : Bool) (now : Nat) : Dev :=
  let st := d.timeState
  let locked := bitAt 48 (wd w 0)
  if big && !d.clock.rearm && (decide (3 ≤ st) || (locked && decide (2 ≤ st))) then d.refuseJump
  else
    let e := if d.clock.rearm && (big || (diff != 0 && decide (3 ≤ st))) then
        (d.onClock fun c => { c with rearm := false }).put Reg.TIME_STATUS_state 3 else d
    let e := e.frameWaits w diff
    let e := if e.timeState = 4 then e.put Reg.TIME_STATUS_state 3 else e
    let e := if e.timeState = 1 ∧ heldOneSecond e.clock.rackGood now then e.put Reg.TIME_STATUS_state 2 else e
    let e := if e.timeState = 2 ∧ locked then e.put Reg.TIME_STATUS_state 3 else e
    e.put Reg.PTP_STATUS_role (if e.isStandby then 3 else 1)

/-- A relayed frame of its rack's leader at a member that is not the source. -/
structure Dev.FollowsFrame (d : Dev) (i : Nat) (w : List Nat) : Prop where
  relayed : helloChip ((d.port i).hello.getD []) ≠ bits 32 16 (wd w 0)
  member : d.isMember = true
  notSource : d.timeSource = false
  leader : d.leaderOf d.rack = some (bits 32 16 (wd w 0))
  started : d.timeState ≠ 0

section
variable {d : Dev} {i : Nat} {w : List Nat}

theorem Dev.rackTimeFrame_followed (hf : d.FollowsFrame i w) (h5 : (d.frameOffset i w).timeState ≠ 5) :
    d.rackTimeFrame i w =
      ((d.frameOffset i w).put Reg.TIME_EPOCH_pulse (wd w 0)).frameTaken w ((d.frameOffset i w).frameDiff w)
        ((d.frameOffset i w).jumps ((d.frameOffset i w).frameDiff w)) d.nowUs := by
  obtain ⟨hr, hm, hs, hl, h0⟩ := hf
  have hdirect : (helloChip ((d.port i).hello.getD []) == bits 32 16 (wd w 0)) = false := beq_eq_false_iff_ne.mpr hr
  simp only [Dev.rackTimeFrame, hdirect, hm, hs, hl, h0, Bool.not_true, Bool.false_and, Bool.false_eq_true, ne_eq, not_true_eq_false,
    and_false, or_self, if_false]
  exact if_neg h5

theorem Dev.frameTaken_locked (h3 : d.timeState = 3) (hr : d.clock.rearm = false) (diff : Int) (now : Nat) :
    d.frameTaken w diff false now =
      (d.frameWaits w diff).put Reg.PTP_STATUS_role (if (d.frameWaits w diff).isStandby then 3 else 1) := by
  have hw : (d.frameWaits w diff).timeState = 3 := h3
  simp only [Dev.frameTaken, hr, Bool.false_and, Bool.false_eq_true, if_false, hw, Nat.reduceEqDiff, false_and]

theorem Dev.frameTaken_refused (h3 : 3 ≤ d.timeState) (hr : d.clock.rearm = false) (diff : Int) (now : Nat) :
    d.frameTaken w diff true now = d.refuseJump :=
  if_pos (by simp [hr, h3])

section
variable (hf : d.FollowsFrame i w) (h5 : (d.frameOffset i w).timeState ≠ 5)
variable (hr : ((d.frameOffset i w).put Reg.TIME_EPOCH_pulse (wd w 0)).clock.rearm = false)
include hf h5 hr

/-- A locked controller takes a correction within the threshold. -/
theorem Dev.rackTimeFrame_locked (h3 : ((d.frameOffset i w).put Reg.TIME_EPOCH_pulse (wd w 0)).timeState = 3)
    (hd : -(d.frameOffset i w).jumpLimit ≤ (d.frameOffset i w).frameDiff w ∧
      (d.frameOffset i w).frameDiff w ≤ (d.frameOffset i w).jumpLimit) :
    d.rackTimeFrame i w =
      let e := ((d.frameOffset i w).put Reg.TIME_EPOCH_pulse (wd w 0)).frameWaits w ((d.frameOffset i w).frameDiff w)
      e.put Reg.PTP_STATUS_role (if e.isStandby then 3 else 1) := by
  rw [Dev.rackTimeFrame_followed hf h5, Dev.jumps_eq_false hd]
  exact Dev.frameTaken_locked h3 hr _ _

/-- It refuses one beyond it. -/
theorem Dev.rackTimeFrame_refused (h3 : 3 ≤ ((d.frameOffset i w).put Reg.TIME_EPOCH_pulse (wd w 0)).timeState)
    (hd : (d.frameOffset i w).frameDiff w < -(d.frameOffset i w).jumpLimit ∨
      (d.frameOffset i w).jumpLimit < (d.frameOffset i w).frameDiff w) :
    d.rackTimeFrame i w = ((d.frameOffset i w).put Reg.TIME_EPOCH_pulse (wd w 0)).refuseJump := by
  rw [Dev.rackTimeFrame_followed hf h5, Dev.jumps_eq_true hd]
  exact Dev.frameTaken_refused h3 hr _ _

end

end

/-! ### Sources and masters before membership (R346) -/

section
variable {d : Dev} (hm : d.isMember = false)
include hm

theorem Dev.rackFrameTimeout_source (h0 : d.timeState ≠ 0) :
    d.rackFrameTimeout = (d.onClock fun c => { c with source := true }).timeRoles :=
  if_neg (by simp [hm, h0])

theorem Dev.syncTimeout_master (hs : d.clock.source = true) :
    d.syncTimeout = (d.onClock fun c => { c with master := true }).timeRoles :=
  if_neg (by simp [hm, hs])

end

/-! ### 1588 messages (R347 to R349) -/

/-- A header of the supported subset, in the controller's domain. -/
structure Dev.Supports (d : Dev) (h : PtpHdr) : Prop where
  malformed : h.malformed = false
  version : h.version = 2
  minor : h.minor = 1
  sdoId : h.sdoId = 0
  twoStep : h.twoStep = false
  tlv : h.tlv = false
  domain : h.domain.toNat = d.get (acts Reg.PTP_CTRL_domain)

section
variable {d : Dev} {h : PtpHdr} {supported : Bool}

theorem Dev.ptpHeader_supported (hh : d.Supports h) : d.ptpHeader h true = (d, true) := by
  obtain ⟨hm, hv, hn, hi, ht, hl, hd⟩ := hh
  simp [Dev.ptpHeader, hm, hv, hn, hi, ht, hl, hd]

theorem Dev.ptpHeader_malformed (hb : h.malformed = true ∨ h.version ≠ 2 ∨ h.sdoId ≠ 0) :
    d.ptpHeader h supported = (d.raise Src.PTP_ptp_protocol, false) := by
  refine if_pos (hb.imp_right (Or.imp ?_ ?_))
  · exact fun hv he => hv (BitVec.eq_of_toNat_eq he)
  · exact fun hi he => hi (BitVec.eq_of_toNat_eq he)

section
variable (hm : h.malformed = false) (hv : h.version = 2) (hi : h.sdoId = 0)
include hm hv hi

/-- A message in form but outside the subset is discarded and counted. -/
theorem Dev.ptpHeader_discarded
    (hu : supported = false ∨ h.minor ≠ 1 ∨ h.twoStep = true ∨ h.tlv = true ∨ h.domain.toNat ≠ d.get (acts Reg.PTP_CTRL_domain)) :
    d.ptpHeader h supported = (d.incE Cnt.PTP_CNT_PTP_DISCARD, false) := by
  have hform : ¬(h.malformed = true ∨ h.version.toNat ≠ 2 ∨ h.sdoId.toNat ≠ 0) := by simp [hm, hv, hi]
  refine (if_neg hform).trans (if_pos (Or.imp ?_ (Or.imp_left ?_) hu))
  · rintro rfl
    rfl
  · exact fun hn he => hn (BitVec.eq_of_toNat_eq he)

end

end

/-- The device that has forwarded a Sync on the ports where it goes on, counted. -/
def Dev.syncForwarded (d : Dev) (i : Nat) (h : PtpHdr) (src arrival origin corr : Nat) : Dev :=
  (d.syncPorts i (src / 32) arrival).foldl (fun d j => d.sendTimeFrame j (d.syncOn i h origin corr) src) (d.incU Cnt.PTP_CNT_SYNC_RX)

/-- The device disciplined by a Sync of a master that came on a port. -/
def Dev.syncUsed (d : Dev) (i src origin corr : Nat) : Dev :=
  let e := (d.setMaster src).put Reg.PTP_STATUS_port i
  let f := e.put Reg.PTP_DELAY_d_in (e.linkDelay i / 2 ^ 36)
  f.discipline ((f.time : Int) - origin * 2 ^ 24 - corr * 2 ^ 24 - e.linkDelay i)

section
variable {d : Dev} {h : PtpHdr} {i : Nat}

theorem Dev.sync_unused {e : Dev} (hh : d.ptpHeader h true = (e, false)) (src arrival origin corr : Nat) :
    d.sync i h src arrival origin corr = e := by
  simp only [Dev.sync, hh]

/-- A leader that is a member uses the Sync of the view's master through the lowest arrival slot. -/
theorem Dev.sync_leader {src arrival : Nat} (hh : d.Supports h) (hm : d.isMember = true) (hl : d.isLeader = true)
    (hp : d.podMaster = false) (ha : (d.arrivalSlots (src / 32)).min? = some arrival) (hv : d.viewMaster = some src) (origin corr : Nat) :
    d.sync i h src arrival origin corr = (d.syncForwarded i h src arrival origin corr).syncUsed i src origin corr := by
  simp only [Dev.sync, Dev.ptpHeader_supported hh, hm, hl, hp, ha, hv, Bool.not_true, Bool.not_false, Bool.false_and, Bool.true_or,
    Bool.and_true, Bool.false_or, beq_self_eq_true, Bool.false_eq_true, if_false, if_true]
  rfl

theorem Dev.syncSend_masterRack (hm : d.isMember = true) (hv : d.viewMaster.map (· / 32) = some d.rack) (hs : d.silent = false) :
    d.syncSend = (xPorts.filter d.portUp).foldl (fun d i => (d.sendTimeFrame i (d.ptpFrame 0 i d.time 0)).incU Cnt.PTP_CNT_SYNC_TX) d :=
  if_pos (by simp [hm, hv, hs])

section
variable (hh : d.Supports h)
include hh

theorem Dev.pdelayReq_answered (turn : Nat) :
    d.pdelayReq i h turn = d.sendTimeFrame i (d.ptpFrame 3 i 0 turn ++ [h.identity.toNat, h.portNumber.toNat]) := by
  simp only [Dev.pdelayReq, Dev.ptpHeader_supported hh]

theorem Dev.pdelayResp_measured (trip turn : Nat) :
    d.pdelayResp i h trip turn =
      (d.onClock fun c => { c with
        delays := Tab.update c.delays i [] fun l => (l ++ [(trip - turn) / 2]).drop (l.length + 1 - 8) }).incU Cnt.PTP_CNT_PDELAY := by
  simp only [Dev.pdelayResp, Dev.ptpHeader_supported hh]

/-- An Announce of a member's master, or before membership of any. -/
theorem Dev.announce_master {src : Nat} (ht : h.type_ = 0xB) (hv : d.isMember = true → d.viewMaster = some src) :
    d.announce h src = d.setMaster src := by
  have hother : ¬(d.isMember = true ∧ d.viewMaster ≠ some src) := fun hc => hc.2 (hv hc.1)
  simp only [Dev.announce, ht, beq_self_eq_true, Dev.ptpHeader_supported hh, if_neg hother]

end

theorem Dev.announce_unused {e : Dev} (hh : d.ptpHeader h (h.type_ == 0xB) = (e, false)) (src : Nat) : d.announce h src = e := by
  simp only [Dev.announce, hh]

end

/-! ### Holdover and the reference (R350) -/

section
variable {d : Dev}

section
variable (hs : d.timeState = 3) (hp : d.podMaster = false)
include hs hp

theorem Dev.holdover_entered :
    d.holdover =
      ((if d.isLeader || d.clock.source then d.onClock fun c => { c with wanted := some (adjOfRate c.integ) } else d).put
        Reg.TIME_STATUS_state 4).raise Src.TIME_holdover :=
  if_neg (by simp [hs, hp])

/-- A source freezes its rate at the integral of its discipline. -/
theorem Dev.holdover_source (h : d.isLeader = true ∨ d.clock.source = true) :
    d.holdover =
      ((d.onClock fun c => { c with wanted := some (adjOfRate c.integ) }).put Reg.TIME_STATUS_state 4).raise Src.TIME_holdover := by
  rw [Dev.holdover_entered hs hp, if_pos (Bool.or_eq_true_iff.mpr h)]

/-- Another keeps the last adj it received. -/
theorem Dev.holdover_follower (hl : d.isLeader = false) (hc : d.clock.source = false) :
    d.holdover = (d.put Reg.TIME_STATUS_state 4).raise Src.TIME_holdover := by
  rw [Dev.holdover_entered hs hp, hl, hc]
  rfl

end

theorem Dev.refReturn_freeRun (h : (d.put Reg.TIME_STATUS_ref_missing 0).timeState = 5) :
    d.refReturn = (d.put Reg.TIME_STATUS_ref_missing 0).put Reg.TIME_STATUS_state 4 :=
  if_pos h

end

end Sys2Proof.Machine

namespace Sys2Proof.Proofs

open Sys2Proof Sys2Proof.Machine

/-- Settles O53, event by event. A rack frame takes its offset, then waits for the pulse or is refused; a 1588 message is used, discarded or
raised by its header. -/
theorem podTime : Obligations.PodTime := by
  unfold Obligations.PodTime
  refine ⟨fun s => ?pulse, fun adj t s => ?pulseLoaded, fun s => rfl, fun i w s => ?frame, fun i w s => ?frameRefused,
    fun s h => ?fault, fun s h => ?noFault, fun s hm h0 => ?source, fun s hm hs => ?master, fun i h src arrival sec ns corr s => ?sync,
    fun i h src arrival sec ns corr s hb => ?syncMalformed, fun s hm hv hs => ?syncSend, fun s => rfl,
    fun i h turn s hm hv hn hi ht hl hd => ?delayRequest, fun i h trip turn s hm hv hn hi ht hl hd => ?delayResponse,
    fun h src s hm hv hn hi ht hl hd hk hw => ?announce, fun i h src arrival sec ns corr s hm hv hi hu => ?syncDiscarded,
    fun h src s hm hv hi hk => ?announceDiscarded, fun s hs hp h => ?holdoverSource, fun s hs hp hl hc => ?holdoverFollower,
    fun s => rfl, fun s h => ?refReturn, fun s => rfl, fun s => rfl⟩
  case pulse =>
    intro d e ha hl hs
    exact State.next_withDev (Dev.epochPulse_plain ha hl hs)
  case pulseLoaded =>
    intro d f e ha hl
    exact State.next_withDev (Dev.epochPulse_loaded ha hl)
  case frame =>
    intro d ws src dep off small g e value diff hr hm hs hl h0 h5 h3 hre hd
    exact State.next_withDev (Dev.rackTimeFrame_locked ⟨hr, hm, hs, hl, h0⟩ h5 hre h3 hd)
  case frameRefused =>
    intro d ws src dep off small g e value diff hr hm hs hl h0 h5 h3 hd hre
    exact State.next_withDev (Dev.rackTimeFrame_refused ⟨hr, hm, hs, hl, h0⟩ h5 hre h3 hd)
  case fault => exact State.next_withDev (if_pos h)
  case noFault => exact State.next_withDev (if_neg (ne_true_of_eq_false h))
  case source => exact State.next_withDev (Dev.rackFrameTimeout_source hm h0)
  case master => exact State.next_withDev (Dev.syncTimeout_master hm hs)
  case sync =>
    intro origin ports d e hm hv hn hi ht hl hd hmem hlead hp ha hw
    exact State.next_withDev (Dev.sync_leader ⟨hm, hv, hn, hi, ht, hl, hd⟩ hmem hlead hp ha hw _ _)
  case syncMalformed => exact State.next_withDev (Dev.sync_unused (Dev.ptpHeader_malformed hb) _ _ _ _)
  case syncSend => exact State.next_withDev (Dev.syncSend_masterRack hm hv hs)
  case delayRequest => exact State.next_withDev (Dev.pdelayReq_answered ⟨hm, hv, hn, hi, ht, hl, hd⟩ _)
  case delayResponse => exact State.next_withDev (Dev.pdelayResp_measured ⟨hm, hv, hn, hi, ht, hl, hd⟩ _ _)
  case announce => exact State.next_withDev (Dev.announce_master ⟨hm, hv, hn, hi, ht, hl, hd⟩ hk hw)
  case syncDiscarded => exact State.next_withDev (Dev.sync_unused (Dev.ptpHeader_discarded hm hv hi (.inr hu)) _ _ _ _)
  case announceDiscarded =>
    exact State.next_withDev (Dev.announce_unused (Dev.ptpHeader_discarded hm hv hi (.inl (beq_eq_false_iff_ne.mpr hk))) _)
  case holdoverSource => exact State.next_withDev (Dev.holdover_source hs hp h)
  case holdoverFollower => exact State.next_withDev (Dev.holdover_follower hs hp hl hc)
  case refReturn => exact State.next_withDev (Dev.refReturn_freeRun h)

end Sys2Proof.Proofs

namespace Sys2Proof.Machine

/-! ### Messages of a job between controllers, at a controller that runs it (R302) -/

/-- A message that passes acts on a controller whose job runs, and what is due after it follows. -/
theorem Dev.jobMsg_acts {d : Dev} {h : FabHdr} {job : Nat} {j : JobSt} {f : Dev → JobSt → Dev} (hp : d.passes h = true)
    (hj : d.jobOf job = some j) (hrun : j.phase = 2) : d.jobMsg h job f = (f d j).settle := by
  unfold Dev.jobMsg
  rw [Dev.ingress_passes hp]
  simp only [hj, hrun, if_true]

/-- The step from such a message, once its effect is known. -/
theorem State.next_jobMsg {s : State} {h : FabHdr} {job : Nat} {j : JobSt} {f : Dev → JobSt → Dev} {e : Dev}
    (hp : s.dev.passes h = true) (hj : s.dev.jobOf job = some j) (hrun : j.phase = 2) (he : f s.dev j = e) :
    (.next { s with dev := s.dev.jobMsg h job f } : Host.Outcome State Fault Refusal) = .next (s.withDev e.settle) :=
  State.next_withDev ((Dev.jobMsg_acts hp hj hrun).trans (congrArg Dev.settle he))

/-! ### HASHES (R212, R213, R242) -/

section
variable {d : Dev} {src job step : Nat} {ps : List (Nat × Nat × Nat)}

theorem Dev.hashesIn_round {round : Nat} (hr : round ≠ 0xFF) :
    d.hashesIn src job step round ps = (d.onJob job fun j => j.noteHashes step round src ps).gateCheck job := if_neg hr

theorem Dev.hashesIn_cut :
    d.hashesIn src job step 0xFF ps = ps.foldl (fun (d : Dev) p => d.cutDigest job p.2.1 p.1 p.2.2) d := if_pos rfl

end

/-! ### STEPREP (R214, R215) -/

section
variable {d : Dev} {job : Nat} {j : JobSt} (hj : d.jobOf job = some j) {src step round covered : Nat} {seeds : List Nat} {whole : Bool}

section
include hj

/-- A second report of a child, or one of another step, has no effect. -/
theorem Dev.stepRep_ignored {status : Nat} (h : (Tab.find src j.reports).isSome = true ∨ step ≠ j.step) :
    d.stepRep src job step round status covered seeds whole = d := by
  simp only [Dev.stepRep, hj]
  refine if_pos ?_
  rcases h with hseen | hstep
  · exact .inr (.inr (.inr (.inr (.inl hseen))))
  · exact .inl hstep

end

variable (hs : step = j.step) (hr : round = j.nextRound) (hc : (d.stepChildren j).contains src = true)
  (hf : Tab.find src j.reports = none)
include hj hs hr hc hf

/-- The first report of a child in the round, at an open gate, is kept before it acts. -/
theorem Dev.stepRep_first {status : Nat} (h0 : j.gate ≠ 0) (h5 : j.gate ≠ 5) :
    d.stepRep src job step round status covered seeds whole =
      let e := d.setJob { j with reports := Tab.insert src (status, covered, seeds, whole) j.reports }
      if status = 1 then (if j.gate = 1 ∨ j.gate = 3 then e.gateFail job seeds whole else e) else e.gateCheck job := by
  simp only [Dev.stepRep, hj]
  refine if_neg ?_
  simp only [hs, hr, hc, hf, h0, h5, ne_eq, not_true_eq_false, Option.isSome_none, Bool.false_eq_true, Bool.not_true, or_self,
    not_false_eq_true]

theorem Dev.stepRep_agreed (h0 : j.gate ≠ 0) (h5 : j.gate ≠ 5) :
    d.stepRep src job step round 0 covered seeds whole =
      (d.setJob { j with reports := Tab.insert src (0, covered, seeds, whole) j.reports }).gateCheck job :=
  (Dev.stepRep_first hj hs hr hc hf h0 h5).trans (if_neg Nat.zero_ne_one)

theorem Dev.stepRep_failed (hg : j.gate = 1 ∨ j.gate = 3) :
    d.stepRep src job step round 1 covered seeds whole =
      (d.setJob { j with reports := Tab.insert src (1, covered, seeds, whole) j.reports }).gateFail job seeds whole :=
  (Dev.stepRep_first hj hs hr hc hf (by omega) (by omega)).trans ((if_pos rfl).trans (if_pos hg))

end

/-! ### STEPDEC (R215, R218 to R220) -/

section
variable {d : Dev} {job : Nat} {j : JobSt} (hj : d.jobOf job = some j) {step : Nat}
include hj

theorem Dev.decCommit_taken (hs : j.step = step) (hg : j.gate = 2) :
    d.decCommit job step = (d.sendDec j step j.round 0 [] false).commit job := by
  simp only [Dev.decCommit, hj]
  exact if_pos ⟨hs, hg⟩

theorem Dev.decCommit_ignored (hs : j.step ≠ step) : d.decCommit job step = d := by
  simp only [Dev.decCommit, hj]
  exact if_neg fun h => hs h.1

variable {seeds : List Nat} {whole : Bool}

theorem Dev.decReplay_taken {round : Nat} (hs : j.step = step) (hr : round = j.round + 1) (h1 : 1 ≤ j.gate) (h3 : j.gate ≤ 3) :
    d.decReplay job step round seeds whole =
      (((d.sendDec j step round 1 seeds whole).replay job seeds whole).gateCheck job).lateReports job := by
  simp only [Dev.decReplay, hj]
  exact if_pos ⟨hs, hr, h1, h3⟩

theorem Dev.decAbandon_taken (hs : j.step = step) (h1 : 1 ≤ j.gate) (h4 : j.gate ≤ 4) :
    d.decAbandon job step seeds whole =
      ((d.sendDec j step j.round 2 seeds whole).candidates job seeds whole).abandon job := by
  simp only [Dev.decAbandon, hj]
  exact if_pos ⟨hs, h1, h4⟩

end

end Sys2Proof.Machine

namespace Sys2Proof.Proofs

open Sys2Proof Sys2Proof.Machine

/-- Settles O44: each message acts through `Dev.jobMsg`, and its premises decide the branch that the gate takes. -/
theorem gateMessages : Obligations.GateMessages := by
  unfold Obligations.GateMessages
  refine ⟨fun h job step round pairs j s hp hj hrun hr => ?digests, fun h job step pairs j s hp hj hrun => ?cutDigests,
    fun h job step round covered seeds whole j s hp hj hrun hs hr h0 h5 hc hf => ?agreed,
    fun h job step round covered seeds whole j s hp hj hrun hs hr hg hc hf => ?failed,
    fun h job step round status covered seeds whole j s hp hj hrun hno => ?ignored,
    fun h job step j s hp hj hrun hs hg => ?commit, fun h job step j s hp hj hrun hs => ?otherStep,
    fun h job step round seeds whole j s hp hj hrun hs hr h1 h3 => ?replay,
    fun h job step seeds whole j s hp hj hrun hs h1 h4 => ?abandon⟩
  case digests => exact State.next_jobMsg hp hj hrun (Dev.hashesIn_round hr)
  case cutDigests => exact State.next_jobMsg hp hj hrun Dev.hashesIn_cut
  case agreed => exact State.next_jobMsg hp hj hrun (Dev.stepRep_agreed hj hs hr hc hf h0 h5)
  case failed => exact State.next_jobMsg hp hj hrun (Dev.stepRep_failed hj hs hr hc hf hg)
  case ignored => exact State.next_jobMsg hp hj hrun (Dev.stepRep_ignored hj hno)
  case commit => exact State.next_jobMsg hp hj hrun (Dev.decCommit_taken hj hs hg)
  case otherStep => exact State.next_jobMsg hp hj hrun (Dev.decCommit_ignored hj hs)
  case replay => exact State.next_jobMsg hp hj hrun (Dev.decReplay_taken hj hs hr h1 h3)
  case abandon => exact State.next_jobMsg hp hj hrun (Dev.decAbandon_taken hj hs h1 h4)

end Sys2Proof.Proofs

namespace Sys2Proof.Machine

/-! ### Flow records with an uncorrectable error (R230) -/

/-- The record is reloaded from the entry that the partner holds; the words before it come from the job descriptor. -/
theorem Dev.flowEcc_reloads {d : Dev} {n : Nat} {j : JobSt} {f : List Nat} {r : RecDesc}
    (hj : (d.raise Src.FLOW_flow_ecc).jobOfRec n = some j) (hf : (d.raise Src.FLOW_flow_ecc).heldEntry j.desc.job n = some f)
    (hr : j.recDesc n = some r) :
    d.flowEcc n =
      (d.raise Src.FLOW_flow_ecc).setFlow n (some (((d.raise Src.FLOW_flow_ecc).freshRecord j r).take 3 ++ f)) := by
  simp only [Dev.flowEcc, hj, hf, hr]

/-- A read with an error shows the record as the error left it: the selection is the one from before. -/
theorem Dev.flowRead_of_flowEcc {d e : Dev} (h : d.flowEcc (d.get Reg.FLOW_SEL_record) = e) :
    d.flowRead true = e.latchWords Reg.FLOW_W0_w.addr (eight (e.flowRec (d.get Reg.FLOW_SEL_record))) := by
  simp only [Dev.flowRead, if_true, h]

end Sys2Proof.Machine

namespace Sys2Proof.Proofs

open Sys2Proof Sys2Proof.Machine

/-- Settles O47: the three reads latch through `Dev.latchWords` as the statement writes it out; with an error the record is reloaded first. -/
theorem verdictLogLatches : Obligations.VerdictLogLatches := by
  unfold Obligations.VerdictLogLatches
  refine ⟨fun s => rfl, fun s => rfl, fun j f r s => ?reloaded, fun s => rfl⟩
  case reloaded =>
    intro n d e hj hf hr
    exact State.next_withDev (Dev.flowRead_of_flowEcc (Dev.flowEcc_reloads hj hf hr))

end Sys2Proof.Proofs

namespace Sys2Proof.Machine

/-! ### Messages that act once for their epoch, kind, step and sender (R240) -/

section
variable {s : State} {h : FabHdr} {job kind step : Nat} {j : JobSt} {f : Dev → JobSt → Dev}
  (hp : s.dev.passes h = true) (hj : s.dev.jobOf job = some j) (hrun : j.phase = 2)
include hp hj hrun

/-- The first such message is noted, and then acts. -/
theorem State.next_onceMsg {e : Dev} (hfirst : j.elides h kind step = false)
    (he : f (s.dev.setJob (j.elide h kind step)) (j.elide h kind step) = e) :
    (.next { s with dev := s.dev.onceMsg h job kind step f } : Host.Outcome State Fault Refusal) = .next (s.withDev e.settle) :=
  State.next_jobMsg hp hj hrun ((if_neg (ne_true_of_eq_false hfirst)).trans he)

theorem State.next_onceMsg_again (hagain : j.elides h kind step = true) :
    (.next { s with dev := s.dev.onceMsg h job kind step f } : Host.Outcome State Fault Refusal) = .next (s.withDev s.dev.settle) :=
  State.next_jobMsg hp hj hrun (if_pos hagain)

end

/-! ### CUTREQ (R237, R239, R241) -/

section
variable {d : Dev} {job : Nat} {j : JobSt} (hj : d.jobOf job = some j) (hc : j.cut = none) (h0 : j.gate ≠ 0) (h5 : j.gate ≠ 5)
  {step gen : Nat} {copy : Bool}
include hj hc h0 h5

theorem Dev.cutBegin_refused (ha : 3 ≤ ones18 d.absentSlots) : d.cutBegin job step gen copy = d.cutRefuse j step gen := by
  simp only [Dev.cutBegin, hj, hc, h0, h5, ha, Option.isSome_none, Bool.false_eq_true, or_self, if_false, if_true]

/-- The slot of the next cut is overwritten, CUTREQ goes down, and CUT leaves when the step has come. -/
theorem Dev.cutBegin_begins (ha : ones18 d.absentSlots < 3) :
    d.cutBegin job step gen copy =
      let slot := j.nextSlot d.rack
      let e := ((d.dropPins job slot).setJob
        { j.setSlot d.rack slot ⟨gen, step, 1, d.absentSlots, 0, j.tableAt step, []⟩ with
          cut := some ⟨step, gen, slot, copy, 0, false, [], [], [], [], [], false, [], false, false, [], [], []⟩
          genCount := gen
          deferred := false
          recut := false
          acc := j.acc.map fun (x : Nat × AccJob) => (x.1, { x.2 with cutAck := none }) }).incU Cnt.STP_CNT_CUTS
      (e.sendAll (e.stepChildren j) 0x40 (e.coordBody job step (b2n copy) gen 0)).sendCuts job := by
  simp only [Dev.cutBegin, hj, hc, h0, h5, Nat.not_le.mpr ha, Option.isSome_none, Bool.false_eq_true, or_self, if_false]

end

/-! ### Reports of a cut and of its units (R241, R243) -/

section
variable {d : Dev} {job : Nat} {i : JobSt} {c : CutSt} (hcut : d.cutOf job = some (i, c))
include hcut

theorem Dev.cutWait_unreported (hr : c.reported = false) : d.cutWait job = d.cutReport i c 1 0 := by
  simp only [Dev.cutWait, hcut, hr, Bool.false_eq_true, if_false]

theorem Dev.cutRep_first {src step code gen count : Nat} (hs : c.step = step) (hg : c.gen = gen) (hf : Tab.find src c.reps = none) :
    d.cutRep job src step code gen count =
      (d.onCut job fun c => { c with reps := Tab.insert src (code, count) c.reps }).cutCheck job := by
  simp only [Dev.cutRep, hcut]
  exact if_neg (by simp [hs, hg, hf])

variable {gen role k row : Nat} (hg : c.gen = gen) (hu : c.units.contains (row, role, k) = true)
include hg hu

/-- An answer for a unit that the cut waits for. -/
theorem Dev.stripeAckIn_awaited {result : Nat} :
    d.stripeAckIn job gen role k row result =
      if result ≠ 0 then d.extentReport i c true
      else (d.onCut job fun c => { c with units := c.units.filter (· != (row, role, k)) }).extentCheck job := by
  simp only [Dev.stripeAckIn, hcut]
  exact if_neg (by simp only [hg, hu, ne_eq, not_true_eq_false, Bool.not_true, Bool.false_eq_true, or_self, not_false_eq_true])

variable {j : JobSt} (hd : j.desc.job = job) {src : Nat}
include hd

theorem Dev.stripeAck_stored :
    d.stripeAck j src gen role k row 0 =
      (d.onCut job fun c => { c with units := c.units.filter (· != (row, role, k)) }).extentCheck job := by
  subst hd
  exact (if_neg fun h => h.2 rfl).trans ((Dev.stripeAckIn_awaited hcut hg hu).trans (if_neg fun h => h rfl))

theorem Dev.stripeAck_refused {result : Nat} (hrest : j.rest.active = false) (hr : result ≠ 0) :
    d.stripeAck j src gen role k row result = d.extentReport i c true := by
  subst hd
  exact (if_neg fun h => ne_true_of_eq_false hrest h.1).trans ((Dev.stripeAckIn_awaited hcut hg hu).trans (if_pos hr))

end

/-! ### STRIPE at a holder (R243) -/

section
variable {d : Dev} {job src gen slot role k row : Nat} {bs : List Nat}

theorem Dev.stripeStore_noJob (hj : d.jobOf job = none) :
    d.stripeStore src job gen slot role k row bs = d.send src 0x51 (d.stripeAckBody job gen slot role k row 1) := by
  simp only [Dev.stripeStore, hj]

variable {j : JobSt}

/-- A unit of the generation that the slot is being written with. -/
theorem Dev.stripeStore_stored (hj : d.jobOf job = some j) (hg : (j.slot d.rack slot).gen = gen) (hs : (j.slot d.rack slot).state < 3)
    (hn : j.newest d.rack ≠ some slot) (hp : d.partState (row % 16) ≠ 4) :
    d.stripeStore src job gen slot role k row bs =
      (d.unitStore slot row bs).send src 0x51 (d.stripeAckBody job gen slot role k row 0) := by
  simp only [Dev.stripeStore, hj]
  rw [if_neg (by simp only [hn, Nat.not_le.mpr hs, hp, false_and, or_self, not_false_eq_true]), if_pos hg]

theorem Dev.stripeIn_stores (hr : role ≠ 3) (hrest : j.rest.active = false) :
    d.stripeIn j src gen slot role k row bs = d.stripeStore src j.desc.job gen slot role k row bs :=
  (if_neg hr).trans (if_neg fun h => ne_true_of_eq_false hrest h.1)

end

/-! ### Seal reports and decisions (R245, R252) -/

section
variable {d : Dev} {job : Nat} {j : JobSt} (hj : d.jobOf job = some j) {step gen : Nat}
include hj

theorem Dev.genRep_failed {code rack : Nat} (hc : code ≠ 0) : d.genRep job step gen code rack = d.genAbort job step gen := by
  simp only [Dev.genRep, hj]
  exact if_pos hc

/-- The last rack's report, after which every rack of the job has sealed. -/
theorem Dev.genRep_last {rack : Nat} {i : JobSt} {c : CutSt} {e : Dev}
    (he : (d.onCut job fun c => if c.gen = gen then { c with racks := (c.racks ++ [rack]).eraseDups } else c) = e)
    (hcut : e.cutOf job = some (i, c)) (hg : c.gen = gen) (hall : j.racks.all c.racks.contains = true) :
    d.genRep job step gen 0 rack = e.genCommit job step gen := by
  simp only [Dev.genRep, hj, he, hcut]
  exact (if_neg fun h => h rfl).trans (if_pos ⟨hg, hall⟩)

theorem Dev.genCommit_decided (hu : j.undecided gen = false) : d.genCommit job step gen = d := by
  simp only [Dev.genCommit, hj, hu, Bool.not_false, if_true]

theorem Dev.genCommit_commits (hu : j.undecided gen = true) :
    d.genCommit job step gen =
      let e := (d.genForward j step gen 0).onJob job fun j =>
        let j := { j with slots := j.slots.map fun (e : Nat × GenSt) => if e.2.gen = gen ∧ e.2.state = 3 then (e.1, { e.2 with state := 4 }) else e }
        if (j.cut.map CutSt.gen) = some gen then
          { j with cut := none, acc := j.acc.map fun (e : Nat × AccJob) => (e.1, { e.2 with cutAck := none }) }
        else j
      let e := if e.drill.phase = 1 ∧ e.drill.job = job ∧ e.drill.gen = 0 then { e with drill := { e.drill with gen := step } } else e
      ((e.incU Cnt.STP_CNT_GEN_COMMIT).addU Reg.DEV_SNAP_BYTES_bytes (d.snapBytes j gen)).progLatch job gen := by
  simp only [Dev.genCommit, hj, hu, Bool.not_true, Bool.false_eq_true, if_false]

theorem Dev.genAbort_discards (hu : j.undecided gen = true) :
    d.genAbort job step gen = (d.genForward j step gen 1).discardGen job gen := by
  simp only [Dev.genAbort, hj, hu, Bool.not_true, Bool.false_eq_true, if_false]

end

section
variable {d e : Dev} {job step gen : Nat} (he : d.genCommit job step gen = e)
include he

/-- After GENCOMMIT a controller outside the step tree starts the drill that waited. -/
theorem Dev.genSeen_eq :
    d.genSeen job step gen = if (e.jobOf job).map JobSt.gate = some 0 then e.drillCommit job step else e := by
  simp only [Dev.genSeen, he]
  cases e.jobOf job with
  | none => rfl
  | some j => simp only [Option.map_some, Option.some.injEq]

variable {j : JobSt} (hj : e.jobOf job = some j)
include hj

theorem Dev.genSeen_inTree (h0 : j.gate ≠ 0) : d.genSeen job step gen = e :=
  (Dev.genSeen_eq he).trans (if_neg (by simp only [hj, Option.map_some, Option.some.injEq, h0, not_false_eq_true]))

theorem Dev.genSeen_outside (h0 : j.gate = 0) : d.genSeen job step gen = e.drillCommit job step :=
  (Dev.genSeen_eq he).trans (if_pos (by rw [hj, Option.map_some, h0]))

end

end Sys2Proof.Machine

namespace Sys2Proof.Proofs

open Sys2Proof Sys2Proof.Machine

/-- Settles O45: the coordination messages act through `Dev.onceMsg`, those between a writer and its holders at once, and the premises
decide the branch that each takes. -/
theorem generationMessages : Obligations.GenerationMessages := by
  unfold Obligations.GenerationMessages
  refine ⟨fun h job step copy gen j k s => ?begins, fun h job step copy gen j k s => ?refused,
    fun h job step copy gen j s hp hj hrun hagain => ?again, fun job j c s hcut hr => ?wait,
    fun h job step code gen count i c j s => ?report, fun h job gen slot role k row data s hp hj => ?unknown,
    fun h job gen slot role k row data j s hp hj hd hrole hrest hg hst hn hpart => ?stores,
    fun h job gen slot role k row i c j s hp hj hrun hd hcut hg hu => ?cleared,
    fun h job gen slot role k row result i c j s hp hj hrun hd hrest hr hcut hg hu => ?unitRefused,
    fun h job gen failed tables j s hp hj hrun => ?extent, fun h job step code gen j k s => ?sealFailed,
    fun h job step gen i c j k s => ?sealed, fun h job step gen j k s => ?commits, fun h job step gen j k s => ?known,
    fun h job step gen j k s => ?knownOutside, fun h job step gen j k s => ?discards⟩
  case begins =>
    intro t hp hj hrun hfirst hk hc h0 h5 ha
    exact State.next_onceMsg hp hj hrun hfirst (Dev.cutBegin_begins hk hc h0 h5 ha)
  case refused =>
    intro t hp hj hrun hfirst hk hc h0 h5 ha
    exact State.next_onceMsg hp hj hrun hfirst (Dev.cutBegin_refused hk hc h0 h5 ha)
  case again => exact State.next_onceMsg_again hp hj hrun hagain
  case wait => exact State.next_withDev (congrArg Dev.settle (Dev.cutWait_unreported hcut hr))
  case report =>
    intro t hp hj hrun hfirst hcut hs hg hf
    exact State.next_onceMsg hp hj hrun hfirst (Dev.cutRep_first hcut hs hg hf)
  case unknown =>
    refine State.next_withDev (congrArg Dev.settle ((Dev.ingress_passes hp).trans ?_))
    simp only [hj]
    exact Dev.stripeStore_noJob hj
  case stores =>
    refine State.next_withDev (congrArg Dev.settle ((Dev.ingress_passes hp).trans ?_))
    simp only [hj]
    rw [Dev.stripeIn_stores hrole hrest, hd]
    exact Dev.stripeStore_stored hj hg hst hn hpart
  case cleared => exact State.next_jobMsg hp hj hrun (Dev.stripeAck_stored hcut hg hu hd)
  case unitRefused => exact State.next_jobMsg hp hj hrun (Dev.stripeAck_refused hcut hg hu hd hrest hr)
  case extent => exact State.next_jobMsg hp hj hrun rfl
  case sealFailed =>
    intro t hp hj hrun hfirst hk hc
    exact State.next_onceMsg hp hj hrun hfirst (Dev.genRep_failed hk hc)
  case sealed =>
    intro t e hp hj hrun hfirst hk hcut hg hall
    exact State.next_onceMsg hp hj hrun hfirst (Dev.genRep_last hk rfl hcut hg hall)
  -- What is counted is what the cut had written: noting the message leaves it as it was.
  case commits =>
    intro t hp hj hrun hfirst hk hu
    exact State.next_onceMsg hp hj hrun hfirst (Dev.genSeen_eq (Dev.genCommit_commits hk hu))
  case known =>
    intro t hp hj hrun hfirst hk hu h0
    exact State.next_onceMsg hp hj hrun hfirst (Dev.genSeen_inTree (Dev.genCommit_decided hk hu) hk h0)
  case knownOutside =>
    intro t hp hj hrun hfirst hk hu h0
    exact State.next_onceMsg hp hj hrun hfirst (Dev.genSeen_outside (Dev.genCommit_decided hk hu) hk h0)
  case discards =>
    intro t hp hj hrun hfirst hk hu
    exact State.next_onceMsg hp hj hrun hfirst (Dev.genAbort_discards hk hu)

end Sys2Proof.Proofs

namespace Sys2Proof.Machine

/-! ### Messages of membership at ingress, and what follows a command (R302, R305; log entry 42) -/

/-- The step from a command that settles, once its effect is known. -/
theorem State.next_settled {s : State} {d e : Dev} (he : d = e) :
    (.next { s with dev := d.settle } : Host.Outcome State Fault Refusal) = .next (s.withDev e.settle) :=
  State.next_withDev (congrArg Dev.settle he)

/-- The step from a message that passes, once its effect is known. -/
theorem State.next_passed {s : State} {h : FabHdr} {f : Dev → Dev} {e : Dev} (hp : s.dev.passes h = true) (he : f s.dev = e) :
    (.next { s with dev := (s.dev.ingress h f).settle } : Host.Outcome State Fault Refusal) = .next (s.withDev e.settle) :=
  State.next_settled ((Dev.ingress_passes hp).trans he)

/-- A message that some condition excepts from the checks acts also when it passes them. -/
theorem Dev.ingress_unless {d : Dev} {h : FabHdr} {b : Bool} (hp : b = true ∨ d.passes h = true) (f : Dev → Dev) :
    (if b then f d else d.ingress h f) = f d := by
  rcases hp with rfl | hp
  · rfl
  · rw [Dev.ingress_passes hp, ite_self]

/-- A message that a controller outside membership takes as it comes acts also when it passes the checks. -/
theorem Dev.ingress_ifMember {d : Dev} {h : FabHdr} (hp : d.isMember = false ∨ d.passes h = true) (f : Dev → Dev) :
    (if d.isMember then d.ingress h f else f d) = f d := by
  rcases hp with hm | hp
  · rw [hm]
    rfl
  · rw [Dev.ingress_passes hp, ite_self]

/-! ### Heartbeats (R292, R293, R304) -/

theorem Dev.hbSend_member {d : Dev} (hm : d.isMember = true) (hs : d.silent = false) :
    d.hbSend = (d.send d.rackBroadcast 0x10 [d.heardMask, d.viewDigest]).incU Cnt.MBR_CNT_HB_TX :=
  if_neg (by simp [hm, hs])

theorem Dev.ghbSend_leads {d : Dev} (hl : d.isLeader = true ∨ d.isStandby = true) (hs : d.silent = false) :
    d.ghbSend =
      let w := pack [(48, 16, d.rack), (32, 16, (d.leaderOf d.rack).getD 0), (31, 1, b2n d.podFounding),
        (0, 18, (d.membersOf d.rack).foldl (fun m c => setBit m (c % 32)) 0)]
      ((d.send podBroadcast 0x11 [w, d.viewDigest]).incU Cnt.MBR_CNT_HB_TX).foundPod :=
  if_neg (by rw [Bool.or_eq_true_iff.mpr hl, hs]; decide)

/-- A rack's GHB is counted and noted, and its suspicion ends. -/
def Dev.ghbHeard (d : Dev) (now rack leader : Nat) (founding : Bool) : Dev :=
  (d.incU Cnt.MBR_CNT_HB_RX).onMbr fun m => { m.drop true (silentRack rack) with
    racks := Tab.insert rack (now, founding, leader) (Tab.erase rack m.racks), rackSuspects := m.rackSuspects.filter (· != rack) }

/-- A founding GHB also shows its epoch (R305 step 8). -/
def Dev.epochShown (d : Dev) (epoch : Nat) (founding : Bool) : Dev :=
  if founding then d.onMbr fun m => { m with seen := some (laterEpoch epoch m.seen) } else d

theorem Dev.isMember_epochShown (d : Dev) (epoch : Nat) (founding : Bool) : (d.epochShown epoch founding).isMember = d.isMember := by
  cases founding <;> rfl

/-- Counting a message leaves membership as it was. -/
theorem Dev.isMember_ghbHeard (d : Dev) (now rack leader : Nat) (founding : Bool) :
    (d.ghbHeard now rack leader founding).isMember = d.isMember :=
  congrArg (· == 2) (Dev.get_put_ne (by decide) d _)

/-- Whether the rack's admission is asked for depends on nothing that the GHB changes. -/
theorem Dev.ghbIn_eq (d : Dev) (rack leader epoch : Nat) (founding : Bool) :
    d.ghbIn rack leader epoch founding =
      let e := (d.epochShown epoch founding).ghbHeard d.nowUs rack leader founding
      if d.isMember && !d.racksIn.contains rack && !d.podFounding then e.onMbr fun m => m.await true (changeWord (rack * 32 + 31) 1 0xF 7)
      else e := by
  rw [← Dev.isMember_epochShown d epoch founding, ← Dev.isMember_ghbHeard (d.epochShown epoch founding) d.nowUs rack leader founding]
  cases founding <;> rfl

theorem Dev.ghbIn_known {d : Dev} {rack leader epoch : Nat} (hr : d.racksIn.contains rack = true) :
    d.ghbIn rack leader epoch false = d.ghbHeard d.nowUs rack leader false :=
  (Dev.ghbIn_eq d rack leader epoch false).trans (if_neg (by simp only [hr, Bool.not_true, Bool.and_false, Bool.false_and]; decide))

/-- A rack that is not in the view asks for its admission, at a member whose own rack is not founding the pod. -/
theorem Dev.ghbIn_asks {d : Dev} {rack leader epoch : Nat} {founding : Bool} (hm : d.isMember = true)
    (hr : d.racksIn.contains rack = false) (hf : d.foundingSize true < 2 * d.racksIn.length) :
    d.ghbIn rack leader epoch founding =
      ((d.epochShown epoch founding).ghbHeard d.nowUs rack leader founding).onMbr
        fun m => m.await true (changeWord (rack * 32 + 31) 1 0xF 7) := by
  have hp : d.podFounding = false := decide_eq_false (Nat.not_le.mpr hf)
  exact (Dev.ghbIn_eq d rack leader epoch founding).trans (if_pos (by rw [hm, hr, hp]; rfl))

/-- A founding GHB is taken without the checks. -/
theorem exec_ghb {h : FabHdr} {rack leader : BitVec 16} {founding : Bool} {members : BitVec 18} {digest : Word} {s : State}
    (hp : founding = true ∨ s.dev.passes h = true) :
    exec (.ghb h rack leader founding members digest) s =
      .next (s.withDev (s.dev.ghbIn rack.toNat leader.toNat h.epoch.toNat founding).settle) := by
  cases founding with
  | false => exact State.next_settled ((if_neg Bool.false_ne_true).trans (Dev.ingress_passes (hp.resolve_left Bool.false_ne_true)))
  | true => exact State.next_settled (if_pos rfl)

/-! ### Suspicion (R293, R300) -/

theorem Dev.suspect_new {d : Dev} {chip : Nat} (hm : d.isMember = true) (hc : chip ≠ d.chip) (hr : chip / 32 = d.rack)
    (hi : d.isIn chip = true) (hs : d.mbr.suspects.contains chip = false) :
    d.suspect chip = d.onMbr fun m => { m.await false (silentChip chip) with suspects := m.suspects ++ [chip] } :=
  if_neg (by simp only [hm, beq_false_of_ne hc, hr, bne_self_eq_false, hi, hs, Bool.not_true, Bool.or_self, Bool.false_eq_true,
    not_false_eq_true])

theorem Dev.suspectRack_new {d : Dev} {rack : Nat} (hm : d.isMember = true) (hc : rack ≠ d.rack) (hr : d.racksIn.contains rack = true)
    (hs : d.mbr.rackSuspects.contains rack = false) :
    d.suspectRack rack = d.onMbr fun m => { m.await true (silentRack rack) with rackSuspects := m.rackSuspects ++ [rack] } :=
  if_neg (by simp only [hm, beq_false_of_ne hc, hr, hs, Bool.not_true, Bool.or_self, Bool.false_eq_true, not_false_eq_true])

/-! ### VIEW (R294, R320) -/

theorem Dev.viewMismatch_asks {d : Dev} {c : Nat} (hm : d.isMember = true) (hc : (d.membersOf d.rack).find? (· != d.chip) = some c) :
    d.viewMismatch = d.send c 0x19 [] := by
  simp only [Dev.viewMismatch, hm, hc, Bool.not_true, Bool.false_eq_true, if_false]

section
variable {v : ViewEntry} {d : Dev}

/-- A newer entry of the own rack, or one for a chip that the view does not show. -/
theorem Dev.takeEntry_newer (hn : newer v.changed.toNat (d.viewEnt v.chip.toNat).changed = true ∨ (d.viewEnt v.chip.toNat).state = 0)
    (hr : v.chip.toNat / 32 = d.rack) :
    d.takeEntry v = (d.setView v.chip.toNat { d.viewEnt v.chip.toNat with
      state := v.state, changed := v.changed.toNat, admitted := v.admitted.toNat, accExp := v.accExp.toNat }).onMbr fun m =>
        { m with adopted := Tab.set m.adopted v.chip.toNat 0 v.adopted.toNat } := by
  simp only [Dev.takeEntry, hr, if_true]
  exact if_pos (by simpa using hn)

/-- Of an entry that is not newer at most the role is learnt, and that of another rack. -/
theorem Dev.takeEntry_older (hn : newer v.changed.toNat (d.viewEnt v.chip.toNat).changed = false)
    (hs : (d.viewEnt v.chip.toNat).state ≠ 0) :
    d.takeEntry v =
      if v.chip.toNat / 32 = d.rack then d else d.onMbr fun m => { m with roles := Tab.set m.roles v.chip.toNat 0 v.role.toNat } :=
  if_neg (by simp [hn, hs])

end

theorem exec_view {h : FabHdr} {entries : List ViewEntry} {decides : List (BitVec 16 × List Word)} {same : Bool} {s : State}
    (hp : s.dev.isMember = false ∨ s.dev.passes h = true) :
    exec (.view h entries decides same) s =
      .next (s.withDev (s.dev.viewIn entries (decides.map fun e => (e.1.toNat, e.2.map BitVec.toNat)) same).settle) :=
  State.next_settled (Dev.ingress_ifMember hp _)

end Sys2Proof.Machine

namespace Sys2Proof.Proofs

open Sys2Proof Sys2Proof.Machine

/-- Settles O48: a heartbeat that passes is noted by `Dev.hbIn` or `Dev.ghbIn`, and the premises of the other clauses leave one branch. -/
theorem heartbeatsAndSuspicion : Obligations.HeartbeatsAndSuspicion := by
  unfold Obligations.HeartbeatsAndSuspicion
  refine ⟨fun h heard digest s hp hr => ?hb, fun s hm hs => ?hbSend, fun h rack leader members digest s hp hr => ?ghb,
    fun h rack leader founding members digest s => ?newRack, fun s hl hs => ?ghbSend, fun chip s hm hc hr hi hs => ?suspect,
    fun rack s hm hc hr hs => ?rackSuspect, fun c s hm hc => ?mismatch, fun h s hp hm => ?viewreq,
    fun h entries decides same s => ?view, fun v d hn hr => Dev.takeEntry_newer hn hr,
    fun v d hn hs hr => (Dev.takeEntry_older hn hs).trans (if_neg hr),
    fun v d hn hs hr => (Dev.takeEntry_older hn hs).trans (if_pos hr)⟩
  case hb => exact State.next_passed hp (if_pos hr)
  case hbSend => exact State.next_settled (Dev.hbSend_member hm hs)
  case ghb => exact (exec_ghb (.inr hp)).trans (State.next_settled (Dev.ghbIn_known hr))
  case newRack =>
    intro d hp hm hr hf
    exact (exec_ghb hp).trans (State.next_settled (Dev.ghbIn_asks hm hr hf))
  case ghbSend => exact State.next_settled (Dev.ghbSend_leads hl hs)
  case suspect => exact State.next_settled (Dev.suspect_new hm hc hr hi hs)
  case rackSuspect => exact State.next_settled (Dev.suspectRack_new hm hc hr hs)
  case mismatch => exact State.next_settled (Dev.viewMismatch_asks hm hc)
  case viewreq => exact State.next_passed hp (if_pos hm)
  case view =>
    intro old ds c drilled d hp
    exact exec_view hp

end Sys2Proof.Proofs

namespace Sys2Proof.Machine

/-! ### Clauses (R296 to R300, R305) -/

section
variable {d : Dev} {src : Nat} {pod founding : Bool} {epoch : Nat} {changes crec : List Nat}

/-- A proposal newer than the last vote in its scope, or where there was none. -/
theorem Dev.vote_newer (hl : ∀ l, (if pod then d.mbr.votedPod else d.mbr.votedRack) = some l → newer epoch l = true) :
    d.vote src pod founding epoch changes crec =
      (d.send src 0x13 [pack [(48, 16, d.chip), (0, 32, epoch)], d.yesBits founding changes crec]).voted pod epoch := by
  unfold Dev.vote
  refine if_neg ?_
  split
  next l h => simp [hl l h]
  next => exact Bool.false_ne_true

theorem Dev.vote_refused {last : Nat} (hl : (if pod then d.mbr.votedPod else d.mbr.votedRack) = some last)
    (hn : newer epoch last = false) :
    d.vote src pod founding epoch changes crec = d.send src 0x13 [pack [(48, 16, d.chip), (47, 1, 1), (0, 32, last)], 0] := by
  simp only [Dev.vote, hl, hn, Bool.not_false, if_true, Option.getD_some]

end

section
variable {d : Dev} {p : Proposal} (hq : d.mbr.prop = some p) {voter epoch yes : Nat}
include hq

theorem Dev.voteIn_refused (hn : newer epoch p.epoch = true) :
    d.voteIn voter true epoch yes = d.onMbr fun m => { m with prop := none, backoff := true, refused := some epoch } := by
  simp only [Dev.voteIn, hq, hn, if_true]

/-- The first vote of a voter in the epoch of the proposal. -/
theorem Dev.voteIn_counts (he : epoch = p.epoch) (hf : Tab.find voter p.votes = none) (hv : (d.votersOf p).contains voter = true) :
    d.voteIn voter false epoch yes =
      (d.onMbr fun m => { m with prop := some { p with votes := Tab.insert voter yes p.votes } }).clauseCheck := by
  simp only [Dev.voteIn, hq]
  exact (if_neg Bool.false_ne_true).trans (if_neg (by simp only [he, hf, hv, ne_eq, not_true_eq_false, Option.isSome_none,
    Bool.not_true, Bool.false_eq_true, or_self, not_false_eq_true]))

theorem Dev.clauseTimeout_proposed :
    d.clauseTimeout =
      (((d.clauseEnd p).onMbr fun m => { m with backoff := true }).incE Cnt.MBR_CNT_CLAUSE_FAIL).raise Src.MBR_clause_failed := by
  simp only [Dev.clauseTimeout, hq]

end

section
variable {h : FabHdr} {s : State}

/-- A voter that takes the proposal answers it. -/
theorem exec_propose {pod founding : Bool} {epoch : BitVec 32} {changes crec : List Word}
    (hp : founding = true ∨ s.dev.passes h = true) (hv : s.dev.mayVote h.src.toNat pod founding = true) :
    exec (.propose h pod founding epoch changes crec) s =
      .next (s.withDev
        (s.dev.vote h.src.toNat pod founding epoch.toNat (changes.map BitVec.toNat) (crec.map BitVec.toNat)).settle) :=
  State.next_settled ((Dev.ingress_unless hp _).trans (if_pos hv))

theorem exec_vote {voter : BitVec 16} {refuse : Bool} {epoch : BitVec 32} {yes : Word} {p : Proposal} (hq : s.dev.mbr.prop = some p)
    (hp : p.founding = true ∨ s.dev.passes h = true) :
    exec (.vote h voter refuse epoch yes) s = .next (s.withDev (s.dev.voteIn voter.toNat refuse epoch.toNat yes.toNat).settle) := by
  refine State.next_settled (Dev.ingress_unless ?_ _)
  simpa only [hq] using hp

theorem exec_decide {pod founding : Bool} {yes voters : Byte} {epoch : BitVec 32} {changes crec : List Word}
    (hp : founding = true ∨ s.dev.isMember = false ∨ s.dev.passes h = true) :
    exec (.decide h pod founding yes voters epoch changes crec) s =
      .next (s.withDev (s.dev.decideIn h.src.toNat pod founding yes.toNat voters.toNat epoch.toNat (changes.map BitVec.toNat)
        (crec.map BitVec.toNat)).settle) := by
  refine State.next_settled (Dev.ingress_unless ?_ _)
  simpa only [Bool.or_eq_true, Bool.not_eq_true', or_assoc] using hp

end

end Sys2Proof.Machine

namespace Sys2Proof.Proofs

open Sys2Proof Sys2Proof.Machine

/-- Settles O49: each message of a Clause is taken as it comes or passes the checks, and its premises decide the answer. -/
theorem clauses : Obligations.Clauses := by
  unfold Obligations.Clauses
  refine ⟨fun h pod founding epoch changes crec s hp hv hl => ?answered, fun h pod founding epoch changes crec last s hp hv hl hn => ?old,
    fun h voter epoch yes p s hq hp hn => ?refused, fun h voter epoch yes p s hq hp he hf hv => ?counted,
    fun h pod founding yes voters epoch changes crec s hp => exec_decide hp, fun p s hq => ?timeout, fun s => rfl⟩
  case answered => exact (exec_propose hp hv).trans (State.next_settled (Dev.vote_newer hl))
  case old => exact (exec_propose hp hv).trans (State.next_settled (Dev.vote_refused hl hn))
  case refused => exact (exec_vote hq hp).trans (State.next_settled (Dev.voteIn_refused hq hn))
  case counted => exact (exec_vote hq hp).trans (State.next_settled (Dev.voteIn_counts hq he hf hv))
  case timeout => exact State.next_settled (Dev.clauseTimeout_proposed hq)

end Sys2Proof.Proofs

namespace Sys2Proof.Machine

/-! ### Joining and founding (R304, R305) -/

/-- A JOINREQ of the own rack is kept. -/
def Dev.joinKept (d : Dev) (src epoch : Nat) (operator : Bool) : Dev :=
  d.onMbr fun m => { m with joiners := Tab.insert src (d.nowUs, epoch, operator) (Tab.erase src m.joiners) }

section
variable {d : Dev} {src epoch : Nat} {operator : Bool} (hr : src / 32 = d.rack)
include hr

theorem Dev.joinReq_kept (hm : (d.isMember && !d.isIn src) = false) : d.joinReq src epoch operator = d.joinKept src epoch operator :=
  (if_neg (not_not_intro hr)).trans (if_neg fun h => ne_true_of_eq_false hm (Bool.and_eq_true_iff.mp h).1)

theorem Dev.joinReq_awaits {e : Dev} (he : d.joinKept src epoch operator = e) (hm : e.isMember = true) (hi : e.isIn src = false)
    (hv : e.voteYes false (changeWord src 1 0xF 7) = true) :
    d.joinReq src epoch operator = e.onMbr fun m => m.await false (changeWord src 1 0xF 7) := by
  have hgo : (e.isMember && !e.isIn src && e.voteYes false (changeWord src 1 0xF 7)) = true := by rw [hm, hi, hv]; rfl
  subst he
  exact (if_neg (not_not_intro hr)).trans (if_pos hgo)

end

section
variable {d : Dev} (h9 : d.stage = 9) (hm : d.isMember = false)
include h9 hm

theorem Dev.foundingTimeout_unfounded : d.foundingTimeout = d.onMbr fun m => { m with unfounded := true } :=
  if_pos ⟨h9, by rw [hm, Bool.not_false]⟩

variable (hs : d.silent = false)
include hs

/-- In stage 0x9 a controller that is no member shows the refusal that stands; that it is blocked is raised once. -/
theorem Dev.joinSend_refused {c : Nat} (hc : d.joinCode = c) (h0 : c ≠ 0) :
    d.joinSend = if c = 2 ∧ d.get Reg.MBR_STATUS_refuse ≠ 2 then (d.put Reg.MBR_STATUS_refuse c).raise Src.MBR_join_blocked
      else d.put Reg.MBR_STATUS_refuse c := by
  subst hc
  have hgo : ¬(d.stage ≠ 9 ∨ d.isMember = true ∨ d.silent = true) := by simp [h9, hm, hs]
  exact (if_neg hgo).trans ((if_pos h0).trans (if_congr (by simp) rfl rfl))

theorem Dev.joinSend_asks (hc : d.joinCode = 0) :
    d.joinSend =
      let e := (d.put Reg.MBR_STATUS_state 1).put Reg.MBR_STATUS_refuse (if d.rackShort then 4 else 0)
      (e.send e.rackBroadcast 0x15 [b2n e.mbr.operator * 2 ^ 63]).foundRack := by
  have hgo : ¬(d.stage ≠ 9 ∨ d.isMember = true ∨ d.silent = true) := by simp [h9, hm, hs]
  exact (if_neg hgo).trans (if_neg (not_not_intro hc))

end

/-! ### Withdrawal and rejoining (R295, R304, R306) -/

section
variable {d e : Dev} (hm : d.isMember = true) (he : d.put Reg.MBR_CTRL_withdraw 0 = e)
include hm he

/-- The bit that asks for a withdrawal clears itself, at a member as elsewhere. -/
theorem Dev.isMember_withdrawing : e.isMember = true := by
  subst he
  exact (congrArg (· == 2) (Dev.get_put_ne (by decide) d 0)).trans hm

theorem Dev.withdrawRequest_inJob (hj : e.inJob e.chip = true) : d.withdrawRequest = e.put Reg.MBR_STATUS_refuse 0x06 := by
  have hgo : ¬((!e.isMember) = true) := by rw [Dev.isMember_withdrawing hm he]; decide
  subst he
  exact (if_neg hgo).trans (if_pos hj)

theorem Dev.withdrawRequest_goes {c : Nat} (hj : e.inJob e.chip = false) (hc : e.coordinator e.rack [e.chip] = some c) :
    d.withdrawRequest =
      if c = e.chip then e.onMbr fun m => m.await false (changeWord e.chip 2 0xF 7) else e.send c 0x16 [] := by
  have hgo : ¬((!e.isMember) = true) := by rw [Dev.isMember_withdrawing hm he]; decide
  subst he
  refine (if_neg hgo).trans ((if_neg (ne_true_of_eq_false hj)).trans ?_)
  rw [hc]

end

theorem Dev.rejoin_refused {d : Dev} (hr : d.get Reg.MBR_STATUS_refuse = 2 ∨ d.get Reg.MBR_STATUS_refuse = 5) :
    d.rejoin = (((d.put Reg.MBR_CTRL_rejoin 0).put Reg.MBR_STATUS_refuse 0).put Reg.MBR_STATUS_state 1).onMbr fun m =>
      { m with operator := true } :=
  if_pos hr

/-! ### Job evidence (R307) -/

section
variable {d : Dev} (hm : d.isMember = true)
include hm

theorem Dev.jobStall_asks {a : Nat} {j : JobSt} {x : AccJob} (hj : d.jobOfAcc a = some j) (hx : j.accOf a = some x) (hk : x.mark = none) :
    d.jobStall a = d.askLeader (changeWord d.chip 0 a 3) := by
  simp only [Dev.jobStall, hj, Option.bind_some, hx]
  exact if_pos (by rw [hm, hk]; rfl)

theorem Dev.treeStall_asks {job child : Nat} {j : JobSt} (hj : d.jobOf job = some j) (hc : (d.stepChildren j).contains child = true)
    (hf : Tab.find child j.reports = none) : d.treeStall job child = d.askLeader (changeWord child 0 0xF 3) := by
  simp only [Dev.treeStall, hj]
  exact if_pos (by rw [hm, hc, hf]; rfl)

theorem Dev.portTimeout_asks {a : Nat} (ha : d.agentUp a = false) : d.portTimeout a = d.askLeader (changeWord d.chip 0 a 6) :=
  if_pos (by rw [hm, ha]; rfl)

end

end Sys2Proof.Machine

namespace Sys2Proof.Proofs

open Sys2Proof Sys2Proof.Machine

/-- Settles O50: the premises of each clause decide every branch that its command takes. -/
theorem joiningAndLeaving : Obligations.JoiningAndLeaving := by
  unfold Obligations.JoiningAndLeaving
  refine ⟨fun h operator s => ?kept, fun h operator s => ?awaits, fun c s h9 hm hs hc h0 => ?refusal, fun s => ?asks,
    fun s h9 hm => ?unfounded, fun h s hp hm hi => ?fenced, fun pod s hm hl => ?isolated, fun c s hm hj hc => ?withdraws,
    fun s hm hj => ?holdsJob, fun h s hp hr => ?withdraw, fun s hr => ?rejoins, fun chip s => ?holdOver, fun chip s => ?ownHoldOver,
    fun h change s hp hr => ?evidence, fun a j x s hj hx hm hk => ?stall, fun job child j s hj hm hc hf => ?treeStall,
    fun a s hm ha => ?port⟩
  case kept =>
    intro d hr hm
    exact State.next_settled (Dev.joinReq_kept hr hm)
  case awaits =>
    intro d hr hm hi hv
    exact State.next_settled (Dev.joinReq_awaits hr rfl hm hi hv)
  case refusal => exact State.next_settled (Dev.joinSend_refused h9 hm hs hc h0)
  case asks =>
    intro d h9 hm hs hc
    exact State.next_settled (Dev.joinSend_asks h9 hm hs hc)
  case unfounded => exact State.next_settled (Dev.foundingTimeout_unfounded h9 hm)
  case fenced => exact State.next_withDev ((Dev.ingress_passes hp).trans (if_pos (by rw [hm, hi]; rfl)))
  case isolated =>
    have hgo : (s.dev.isMember && (!pod || s.dev.isLeader)) = true := by
      rcases hl with rfl | hl
      · rw [hm]; rfl
      · rw [hm, hl, Bool.or_true]; rfl
    exact State.next_withDev (if_pos hgo)
  case withdraws => exact State.next_settled (Dev.withdrawRequest_goes hm rfl hj hc)
  case holdsJob => exact State.next_settled (Dev.withdrawRequest_inJob hm rfl hj)
  case withdraw => exact State.next_passed hp (if_pos hr)
  case rejoins => exact State.next_settled (Dev.rejoin_refused hr)
  case holdOver =>
    intro d hno
    exact State.next_settled (if_neg fun h => hno.elim (absurd h.1) (absurd h.2))
  case ownHoldOver =>
    intro d hc hr
    exact State.next_settled (if_pos ⟨hc, hr⟩)
  case evidence => exact State.next_passed hp (if_pos hr)
  case stall => exact State.next_settled (Dev.jobStall_asks hm hj hx hk)
  case treeStall => exact State.next_settled (Dev.treeStall_asks hm hj hc hf)
  case port => exact State.next_settled (Dev.portTimeout_asks hm ha)

end Sys2Proof.Proofs

namespace Sys2Proof.Machine

/-! ### Submitting a job (R308, R312, R318) -/

/-- The device after MBR_JOB_CTRL.go has cleared itself and the host's bytes have been read. -/
def Dev.goRead (d : Dev) (dma : Dma) : Dev := (d.put Reg.MBR_JOB_CTRL_go 0).dmaRead dma

/-- The descriptor's bytes, as many as MBR_JOB_CTRL.len says. -/
def Dev.goBytes (d : Dev) (dma : Dma) : List Nat :=
  ((dma.getD []).take (max 64 (min 67108864 ((d.goRead dma).get Reg.MBR_JOB_CTRL_len)))).map BitVec.toNat

/-- MBR_JOB_STATUS shows the job, and neither coverage nor a result yet. -/
def Dev.goShown (d : Dev) (dma : Dma) : Dev :=
  (((d.goRead dma).put Reg.MBR_JOB_STATUS_job (numAt (d.goBytes dma) 4 4)).put Reg.MBR_JOB_STATUS_covered 0).put
    Reg.MBR_JOB_STATUS_result 0

/-- A job as its root starts it: every chunk is held and the descriptor is read. -/
def Dev.rootStart (d : Dev) (x : JobDesc) (bs : List Nat) : JobSt :=
  { JobSt.starting x.job d.epoch d.chip (jobChunks bs).length with
    desc := x, accs := x.accs, phase := 1, chunks := (jobChunks bs).zipIdx.map fun c => (c.2, c.1) }

/-- The root begins a start: it makes its own checks, and when they hold the chunks go down the start tree (R312 step 1). -/
def Dev.rootBegin (d : Dev) (x : JobDesc) (bs : List Nat) : Dev :=
  let j := d.rootStart x bs
  let e := (d.put Reg.MBR_JOB_STATUS_busy 1).setJob
    { j with status := d.nodeCheck j, failChip := if d.nodeCheck j = 0 then 0 else d.chip, row0 := (d.firstFit j).getD 0 }
  (if d.nodeCheck j = 0 then (e.startChildren j).foldl (fun (e : Dev) c => e.sendChunks j c 0) e else e).startAcks x.job

/-- What the root does with a descriptor that can be read: its own checks refuse it, or the start begins. -/
def Dev.rootSubmit (d : Dev) (bs : List Nat) (x : JobDesc) : Dev := if !d.rootOk x then d.startResult x.job 0x01 else d.rootBegin x bs

theorem Dev.jobSubmit_busy {d : Dev} {dma : Dma} (hb : (d.put Reg.MBR_JOB_CTRL_go 0).flag Reg.MBR_JOB_STATUS_busy = true) :
    d.jobSubmit dma = d.put Reg.MBR_JOB_CTRL_go 0 := if_pos hb

section
variable {d : Dev} {dma : Dma} (hb : (d.put Reg.MBR_JOB_CTRL_go 0).flag Reg.MBR_JOB_STATUS_busy = false)
include hb

/-- While no start is busy, the descriptor's bytes decide: they cannot be read, or the root acts on what they say. -/
theorem Dev.jobSubmit_idle :
    d.jobSubmit dma = (parseJob (d.goBytes dma)).elim ((d.goShown dma).startResult (numAt (d.goBytes dma) 4 4) 0x01)
      ((d.goShown dma).rootSubmit (d.goBytes dma)) := by
  refine (if_neg (ne_true_of_eq_false hb)).trans ?_
  show (match parseJob (d.goBytes dma) with
    | none => (d.goShown dma).startResult (numAt (d.goBytes dma) 4 4) 0x01
    | some x => (d.goShown dma).rootSubmit (d.goBytes dma) x) = _
  cases parseJob (d.goBytes dma) with
  | none => rw [Option.elim_none]
  | some x => rw [Option.elim_some]

theorem Dev.jobSubmit_malformed (hx : parseJob (d.goBytes dma) = none) :
    d.jobSubmit dma = (d.goShown dma).startResult (numAt (d.goBytes dma) 4 4) 0x01 := by
  rw [Dev.jobSubmit_idle hb, hx, Option.elim_none]

variable {x : JobDesc} (hx : parseJob (d.goBytes dma) = some x)
include hx

theorem Dev.jobSubmit_refused (hr : (d.goShown dma).rootOk x = false) : d.jobSubmit dma = (d.goShown dma).startResult x.job 0x01 := by
  rw [Dev.jobSubmit_idle hb, hx, Option.elim_some, Dev.rootSubmit, hr, Bool.not_false, if_pos rfl]

theorem Dev.jobSubmit_begins (hr : (d.goShown dma).rootOk x = true) :
    d.jobSubmit dma = (d.goShown dma).rootBegin x (d.goBytes dma) := by
  rw [Dev.jobSubmit_idle hb, hx, Option.elim_some, Dev.rootSubmit, hr, Bool.not_true, if_neg Bool.false_ne_true]

end

/-- The end of a job is asked for at its root. -/
theorem Dev.jobEndRequest_root {d e : Dev} {j : JobSt} (he : d.put Reg.MBR_JOB_CTRL_end 0 = e)
    (hj : e.jobOf (e.get Reg.MBR_JOB_STATUS_job) = some j) (h2 : j.phase = 2) (hr : e.isRoot j = true) :
    d.jobEndRequest = e.jobEnd j.desc.job := by
  subst he
  simp only [Dev.jobEndRequest, hj]
  exact if_pos ⟨h2, hr⟩

/-! ### Messages of a start that name its admission epoch (R311) -/

section
variable {d : Dev} {job adm : Nat} {j : JobSt} (hj : d.jobOf job = some j)
include hj

theorem Dev.onJob_known (f : JobSt → JobSt) : d.onJob job f = d.setJob (f j) := by
  simp only [Dev.onJob, hj]

section
variable (ha : j.admEpoch = adm)
include ha

theorem Dev.withStart_same (f : JobSt → Dev) : d.withStart job adm f = f j := by
  simp only [Dev.withStart, hj]
  exact if_pos ha

/-! ### JOBACK and REPARENT (R312, R313) -/

variable {src covered status fail : Nat}

theorem Dev.jobAck_kept (h2 : j.phase ≠ 2) (hf : Tab.find src j.acks ≠ some (covered, status, fail)) :
    d.jobAck src job adm covered status fail =
      (d.setJob { j with acks := Tab.insert src (covered, status, fail) (Tab.erase src j.acks) }).startAcks job := by
  simp only [Dev.jobAck, hj]
  exact (if_neg (not_not_intro ha)).trans ((if_neg h2).trans (if_neg hf))

theorem Dev.jobAck_afterDecision (h2 : j.phase = 2) :
    d.jobAck src job adm covered status fail = d.send src 0x22 (j.goBody false 0) := by
  simp only [Dev.jobAck, hj]
  exact (if_neg (not_not_intro ha)).trans (if_pos h2)

theorem Dev.reparent_first {orphan held : Nat} (hc : j.reparents.contains (orphan, held) = false) :
    d.reparent job adm orphan held =
      let e := (d.setJob { j with reparents := j.reparents ++ [(orphan, held)] }).sendChunks j orphan held
      if j.phase = 2 then e.send orphan 0x22 (j.goBody false 0) else e := by
  simp only [Dev.reparent, hj]
  exact if_neg fun h => h.elim (absurd ha) (ne_true_of_eq_false hc)

end

theorem Dev.reparent_again {orphan held : Nat} (hc : j.reparents.contains (orphan, held) = true) : d.reparent job adm orphan held = d := by
  simp only [Dev.reparent, hj]
  exact if_pos (.inr hc)

/-! ### Go and abort (R312, R313) -/

theorem Dev.startGo_held (h1 : j.phase = 1) :
    d.startGo job =
      let e := (d.sendAll (d.startChildren j) 0x22 (j.goBody false 0)).admitJob job
      if e.chip = j.root then e.startResult job 0 else e := by
  simp only [Dev.startGo, hj]
  exact if_neg (not_not_intro h1)

variable (h2 : j.phase ≠ 2)
include h2

theorem Dev.startAbort_undecided {result : Nat} :
    d.startAbort job result =
      let e := d.sendAll (d.startChildren j) 0x22 (j.goBody true result)
      let e := { e.startOver j result with jobs := Tab.erase job e.jobs }
      if e.chip = j.root ∨ !e.flag Reg.MBR_JOB_STATUS_busy then e.startResult job result else e.raise Src.MBR_job_start_failed := by
  simp only [Dev.startAbort, hj]
  exact if_neg h2

/-! ### What is late (R309, R312, R313) -/

theorem Dev.jobAckLate_resends {child : Nat} (hf : Tab.find child j.acks = none) (hc : (d.startChildren j).contains child = true) :
    d.jobAckLate job child = d.sendChunks j child 0 := by
  simp only [Dev.jobAckLate, hj, hc, hf]
  exact (if_neg (by decide)).trans ((if_neg h2).trans (if_neg (by decide)))

theorem Dev.orphan_asks {p : Nat} (hp : d.startParent j = some p) :
    d.orphan job =
      ((d.send p 0x23 [j.startWord, pack [(48, 16, d.chip), (32, 16, j.chunks.length)]]).setJob { j with acked := none }).startAcks job := by
  simp only [Dev.orphan, hj, h2, hp, if_false]

theorem Dev.startTimeout_root (hc : d.chip = j.root) : d.startTimeout job = d.startAbort job 0x09 := by
  simp only [Dev.startTimeout, hj]
  exact (if_neg h2).trans (if_pos hc)

/-- A node that is not the root discards the start; the node that would be root next records it. -/
theorem Dev.startTimeout_other (hc : d.chip ≠ j.root) :
    d.startTimeout job =
      let e := { d.startOver j 0x08 with jobs := Tab.erase job d.jobs }
      if (d.startNodes j).find? d.live = some d.chip ∧ e.flag Reg.MBR_JOB_STATUS_busy = false then e.startResult job 0x08 else e := by
  simp only [Dev.startTimeout, hj]
  exact (if_neg h2).trans ((if_neg hc).trans (if_congr (by simp) rfl rfl))

end

/-! ### JOBSTART (R311, R312) -/

/-- The first chunk of a start that is not over here makes the job known. -/
def Dev.startKnown (d : Dev) (job adm root total : Nat) : Dev :=
  if (d.jobOf job).isNone && !d.mbr.ended.any fun e => e.1 == job && e.2.1 == adm then d.setJob (JobSt.starting job adm root total) else d

/-- A chunk is kept; the job table is read as soon as the chunks held show it. -/
def JobSt.withChunk (j : JobSt) (seq : Nat) (bs : List Nat) : JobSt :=
  let i := { j with chunks := Tab.insert seq bs j.chunks }
  { i with accs := if j.accs = [] then tableOf i.held else j.accs }

theorem JobSt.accs_withChunk {j : JobSt} (ha : j.accs ≠ []) (seq : Nat) (bs : List Nat) : (j.withChunk seq bs).accs = j.accs := if_neg ha

/-- A chunk goes on: with the one that completes the table every chunk held, later each as it comes. -/
def Dev.chunkOn (d : Dev) (j : JobSt) (seq : Nat) (bs : List Nat) : Dev :=
  let k := j.withChunk seq bs
  let e := d.setJob k
  if j.accs = [] then (if k.accs = [] then e else (e.startChildren k).foldl (fun (e : Dev) c => e.sendChunks k c 0) e)
  else e.sendAll (e.startChildren k) 0x20 (k.chunkBody seq bs)

theorem Dev.jobStart_chunk {d e : Dev} {job adm seq total root : Nat} {bs : List Nat} {j : JobSt} (he : d.startKnown job adm root total = e)
    (hj : e.jobOf job = some j) (ha : j.admEpoch = adm) (h0 : j.phase = 0) (hs : seq < j.total) (hf : Tab.find seq j.chunks = none) :
    d.jobStart job adm seq total root bs = (e.chunkOn j seq bs).startHeld job := by
  subst he
  have hgo : ¬(j.admEpoch ≠ adm ∨ j.phase ≠ 0 ∨ j.total ≤ seq ∨ (Tab.find seq j.chunks).isSome = true) := by
    simp [ha, h0, hs, hf]
  unfold Dev.startKnown at *
  simp only [Dev.jobStart, hj]
  refine (if_neg hgo).trans (congrArg (Dev.startHeld · job) ?_)
  by_cases hn : j.accs = []
  · exact (if_congr Iff.rfl rfl (if_pos hn)).trans (if_pos hn).symm
  · exact (if_neg ((JobSt.accs_withChunk hn seq bs).trans_ne hn)).trans ((if_neg hn).trans (if_neg hn).symm)

end Sys2Proof.Machine

namespace Sys2Proof.Proofs

open Sys2Proof Sys2Proof.Machine

/-- Settles O51: the premises of each clause decide the branch that its command takes; HAZARD's sending and the decay of points are the
model's own loops. -/
theorem jobStartAndEnd : Obligations.JobStartAndEnd := by
  unfold Obligations.JobStartAndEnd
  refine ⟨fun dma s hb => ?busy, fun dma s => ?malformed, fun dma x s => ?refused, fun dma x s => ?begins, fun j s => ?endRequest,
    fun h job adm seq total root data j s => ?chunk, fun h job adm covered status fail j s hp hj ha h2 hf => ?ack,
    fun h job adm covered status fail j s hp hj ha h2 => ?ackAfter, fun h job adm j s hp hj ha h1 => ?go,
    fun h job adm result j s hp hj ha h2 => ?abort, fun h job adm orphan held j s hp hj ha hc => ?reparent,
    fun h job adm orphan held j s hp hj hc => ?again, fun h job adm j s hp hj ha h2 => ?ends,
    fun job child j s hj h2 hf hc => ?ackLate, fun job j p s hj h2 hp => ?orphan, fun job j s hj h2 hc => ?rootTimeout,
    fun job j s hj h2 hc => ?timeout, fun h job sum watch j s hp hj => ?hazard, fun s => rfl, fun s => rfl⟩
  case busy => exact State.next_settled (Dev.jobSubmit_busy hb)
  case malformed =>
    intro g bs d hb hx
    exact State.next_settled (Dev.jobSubmit_malformed hb hx)
  case refused =>
    intro g bs d hb hx hr
    exact State.next_settled (Dev.jobSubmit_refused hb hx hr)
  case begins =>
    intro g bs d j hb hx hr
    exact State.next_settled (Dev.jobSubmit_begins hb hx hr)
  case endRequest =>
    intro d hj h2 hr
    exact State.next_settled (Dev.jobEndRequest_root rfl hj h2 hr)
  case chunk =>
    intro past d i k e hp hj ha h0 hs hf
    exact State.next_passed hp (Dev.jobStart_chunk rfl hj ha h0 hs hf)
  case ack => exact State.next_passed hp (Dev.jobAck_kept hj ha h2 hf)
  case ackAfter => exact State.next_passed hp (Dev.jobAck_afterDecision hj ha h2)
  case go => exact State.next_passed hp ((Dev.withStart_same hj ha _).trans (Dev.startGo_held hj h1))
  case abort => exact State.next_passed hp ((Dev.withStart_same hj ha _).trans (Dev.startAbort_undecided hj h2))
  case reparent => exact State.next_passed hp (Dev.reparent_first hj ha hc)
  case again => exact State.next_passed hp (Dev.reparent_again hj hc)
  case ends => exact State.next_passed hp ((Dev.withStart_same hj ha _).trans (if_pos h2))
  case ackLate => exact State.next_settled (Dev.jobAckLate_resends hj h2 hf hc)
  case orphan => exact State.next_settled (Dev.orphan_asks hj h2 hp)
  case rootTimeout => exact State.next_settled (Dev.startTimeout_root hj h2 hc)
  case timeout => exact State.next_settled (Dev.startTimeout_other hj h2 hc)
  case hazard => exact State.next_passed hp (Dev.onJob_known hj _)

end Sys2Proof.Proofs

namespace Sys2Proof.Machine

/-! ### Tense overruns and test slots (R355, R357, R418) -/

section
variable {d : Dev}

theorem Dev.tenseOverrun_held {i : Nat} {x : TenseSt} (hx : Tab.find i d.tense = some x) :
    d.tenseOverrun i = (d.incE Cnt.TENSE_CNT_TENSE_OVERRUN).raise Src.TENSE_tense_overrun := by
  simp only [Dev.tenseOverrun, hx]

theorem Dev.tenseOverrun_free {i : Nat} (hx : Tab.find i d.tense = none) : d.tenseOverrun i = d := by
  simp only [Dev.tenseOverrun, hx]

theorem Dev.testSlot_pack {bound : BitVec 32} {info : ObjInfo} (hs : d.stage = 0xA) (hi : d.boot.packA = some info)
    (hw : d.drillWindow = true) (ho : d.slotOpen bound.toNat = true) (hd : d.packs.doneIn ≠ d.drillStart (secOf d.time))
    (hp : d.partState (d.packCluster / 2) = 0) (last readOk : Bool) (fail : Option ChunkFail) :
    d.testSlot (.pack bound last readOk fail) = d.packChunk last (readOk || d.packs.readBack) fail :=
  if_pos ⟨hs, Option.isSome_of_eq_some hi, hw, ho, hd, hp⟩

/-- The cores' results of a planned cluster are taken: spares are switched in, or a lower point is proposed, or the plan fails. -/
def Dev.planSlot (d : Dev) (cl : Fin 32) (cores : List (Fin 17 × Option (Fin 11))) : Dev :=
  let p := cl.val / 2
  let d := d.yieldCluster cl
  let q := (bestPoint (d.mon p).table ((d.get (Reg.MON_CTRL_target_mhz p) - 1200) / 100)).getD 0
  let r := d.planCores p cl q (cores.map fun e => (e.1.val, e.2.map Fin.val))
  let e := r.1.addU (Cnt.MON_CNT_SPARE_IN p) r.2.1
  let e := if (e.mon p).cap < (d.mon p).cap ∧ (e.mon p).cap < q then
    (e.incE (Cnt.MON_CNT_POINT_DROP p)).raise (Src.MON_point_lowered p) else e
  if r.2.2 ∧ e.partState p ≠ 4 then ((e.planOver p).put (Reg.MON_STATUS_result p) 0x03).partOut p 6 else e

theorem Dev.testSlot_plan {cl : Fin 32} {t : Nat} (hm : (d.mon (cl.val / 2)).started = some t) (hp : d.partState (cl.val / 2) = 0)
    (ho : d.slotOpen 50000 = true) (cores : List (Fin 17 × Option (Fin 11))) :
    d.testSlot (.plan cl cores) = d.planSlot cl cores :=
  if_pos ⟨Option.isSome_of_eq_some hm, hp, ho⟩

end

/-! ### Pulse outputs (R358, R359, R364) -/

section
variable {d : Dev} {n : Nat}

/-- What an arming latches of T0, PER and CFG. -/
def Dev.armedPulse (d : Dev) (n : Nat) : PulseSt :=
  let tense := d.flag (Reg.PULSE_CFG_basis n)
  { tense := tense, inst := d.get (Reg.PULSE_CFG_inst n), periodic := d.get (Reg.PULSE_CFG_mode n) == 2
    pol := d.flag (Reg.PULSE_CFG_pol n), t0 := d.get (Reg.PULSE_T0_t0 n), per := pulsePer tense (d.get (Reg.PULSE_PER_per n)), next := 0 }

theorem Dev.pulseArm_latches (hm : d.get (Reg.PULSE_CFG_mode n) = 1 ∨ d.get (Reg.PULSE_CFG_mode n) = 2) :
    d.pulseArm n = (d.setPulse n (some (d.armedPulse n))).catchUp n true :=
  if_neg (by omega)

theorem Dev.pulseFire_disarmed (hf : Tab.find n d.pulses = none) : d.pulseFire n = d := by
  simp only [Dev.pulseFire, hf]

theorem Dev.pulseEnd_disarmed (ha : d.flag (Reg.PULSE_STATUS_active n) = true) (hf : Tab.find n d.pulses = none) :
    d.pulseEnd n = (d.put (Reg.PULSE_STATUS_active n) 0).pin (.pulse n) (b2n (d.flag (Reg.PULSE_CFG_pol n))) := by
  simp only [Dev.pulseEnd, ha, if_true, hf]

variable {p : PulseSt} (hf : Tab.find n d.pulses = some p)
include hf

theorem Dev.pulseFire_armed : d.pulseFire n = d.firePulse n p (p.next + 1) := by
  simp only [Dev.pulseFire, hf]

theorem Dev.pulseEnd_armed (ha : d.flag (Reg.PULSE_STATUS_active n) = true) :
    d.pulseEnd n = (d.put (Reg.PULSE_STATUS_active n) 0).pin (.pulse n) (b2n p.pol) := by
  simp only [Dev.pulseEnd, ha, if_true, hf]

variable {now : Nat} (hn : d.pulseNow p = some now)
include hn

theorem Dev.catchUp_past (hp : p.target p.next < now) (late : Bool) :
    d.catchUp n late =
      let e := d.firePulse n p (p.after (p.next + 1) now)
      if late then (e.put (Reg.PULSE_STATUS_late n) 1).raise Src.PULSE_pulse_late else e := by
  simp only [Dev.catchUp, hf, hn, if_pos hp]

theorem Dev.catchUp_waits (hp : now ≤ p.target p.next) (late : Bool) : d.catchUp n late = d := by
  simp only [Dev.catchUp, hf, hn, if_neg (Nat.not_lt.mpr hp)]

end

/-! ### Capture inputs (R360) -/

/-- An edge at a moment comes within 50 ns of the last one. -/
def CapSt.near (x : CapSt) (now : Nat) : Bool :=
  match x.last with
  | some t => decide (now < t + 50 * 2 ^ 40)
  | none => false

/-- An edge at a moment is dropped: it comes too soon, or the FIFO is full. -/
def CapSt.drops (x : CapSt) (now : Nat) : Bool := x.near now || decide (16 ≤ x.fifo.length)

theorem CapSt.near_iff {x : CapSt} {now : Nat} : x.near now = true ↔ ∃ t, x.last = some t ∧ now < t + 50 * 2 ^ 40 := by
  unfold CapSt.near
  cases x.last <;> simp

theorem CapSt.drops_iff {x : CapSt} {now : Nat} :
    x.drops now = true ↔ (∃ t, x.last = some t ∧ now < t + 50 * 2 ^ 40) ∨ 16 ≤ x.fifo.length := by
  rw [CapSt.drops, Bool.or_eq_true, CapSt.near_iff, decide_eq_true_eq]

theorem CapSt.drops_eq_false {x : CapSt} {now : Nat} (hl : ∀ t, x.last = some t → t + 50 * 2 ^ 40 ≤ now) (hr : x.fifo.length < 16) :
    x.drops now = false := by
  refine Bool.eq_false_iff.mpr fun h => (CapSt.drops_iff.mp h).elim ?near fun hfull => Nat.not_le.mpr hr hfull
  rintro ⟨t, ht, hnow⟩
  exact Nat.not_lt.mpr (hl t ht) hnow

/-- The entry of an edge that comes now: its direction, the time, and the Tense position of the job chosen, with its validity. -/
def Dev.capEntry (d : Dev) (c : Nat) (rising : Bool) : CapEnt :=
  let inst := d.get (Reg.CAP_CFG_inst c)
  ⟨rising, d.time, d.tensePos inst / 256 * 256 + b2n (Tab.find inst d.tense).isSome⟩

/-- An edge of the chosen direction enters the FIFO and is counted, or is dropped, which is counted and raised. -/
def Dev.capTake (d : Dev) (c : Nat) (rising drops : Bool) : Dev :=
  let x := d.cap c
  let fifo := if drops then x.fifo else x.fifo ++ [d.capEntry c rising]
  let e := { d with caps := Tab.set d.caps c CapSt.reset ⟨fifo, some d.time⟩ }
  if drops then (e.incE Cnt.PULSE_CNT_CAP_DROP).raise Src.PULSE_capture_overflow else e.incU Cnt.PULSE_CNT_CAP_EDGES

section
variable {d : Dev} {c : Nat} {rising : Bool} (he : bitAt (if rising then 0 else 1) (d.get (Reg.CAP_CFG_edge c)) = true)
include he

theorem Dev.captureEdge_chosen : d.captureEdge c rising = d.capTake c rising ((d.cap c).drops d.time) := by
  have hgo : (if rising then bitAt 0 (d.get (Reg.CAP_CFG_edge c)) else bitAt 1 (d.get (Reg.CAP_CFG_edge c))) = true := by
    cases rising <;> exact he
  exact if_neg (by rw [hgo]; decide)

theorem Dev.captureEdge_stamps (hd : (d.cap c).drops d.time = false) :
    d.captureEdge c rising =
      ({ d with caps := Tab.set d.caps c CapSt.reset ⟨(d.cap c).fifo ++ [d.capEntry c rising], some d.time⟩ } : Dev).incU
        Cnt.PULSE_CNT_CAP_EDGES := by
  rw [Dev.captureEdge_chosen he, hd]
  rfl

theorem Dev.captureEdge_drops (hd : (d.cap c).drops d.time = true) :
    d.captureEdge c rising =
      (({ d with caps := Tab.set d.caps c CapSt.reset ⟨(d.cap c).fifo, some d.time⟩ } : Dev).incE Cnt.PULSE_CNT_CAP_DROP).raise
        Src.PULSE_capture_overflow := by
  rw [Dev.captureEdge_chosen he, hd]
  rfl

end

end Sys2Proof.Machine

namespace Sys2Proof.Proofs

open Sys2Proof Sys2Proof.Machine

/-- Settles O54: the premises of each clause decide the branch that its command takes; a read of a capture input is its definition. -/
theorem tensePulsesAndCaptures : Obligations.TensePulsesAndCaptures := by
  unfold Obligations.TensePulsesAndCaptures
  refine ⟨fun i x s hx => ?overrun, fun i s hx => ?noOverrun, fun bound last readOk fail info s hs hi hw ho hd hp => ?pack,
    fun cl cores t s => ?plan, fun n s => ?arm, fun d n now p late hf hn hp => Dev.catchUp_past hf hn hp late,
    fun d n now p late hf hn hp => Dev.catchUp_waits hf hn hp late, fun n p s hf => ?fires, fun n s hf => ?noFire,
    fun n p s ha hf => ?ends, fun n s ha hf => ?endsDisarmed, fun c rising s => ?stamps, fun c rising s => ?drops, fun c s => rfl⟩
  case overrun => exact State.next_withDev (Dev.tenseOverrun_held hx)
  case noOverrun => exact State.next_withDev (Dev.tenseOverrun_free hx)
  case pack => exact State.next_withDev (Dev.testSlot_pack hs hi hw ho hd hp last readOk fail)
  case plan =>
    intro p hm hp ho
    exact State.next_withDev (Dev.testSlot_plan hm hp ho cores)
  case arm =>
    intro mode tense per p hm
    exact State.next_withDev (Dev.pulseArm_latches hm)
  case fires => exact State.next_withDev (Dev.pulseFire_armed hf)
  case noFire => exact State.next_withDev (Dev.pulseFire_disarmed hf)
  case ends => exact State.next_withDev (Dev.pulseEnd_armed hf ha)
  case endsDisarmed => exact State.next_withDev (Dev.pulseEnd_disarmed ha hf)
  case stamps =>
    intro x inst he hl hr
    exact State.next_withDev (Dev.captureEdge_stamps he (CapSt.drops_eq_false hl hr))
  case drops =>
    intro x he hd
    exact State.next_withDev (Dev.captureEdge_drops he (CapSt.drops_iff.mpr hd))

end Sys2Proof.Proofs

namespace Sys2Proof.Machine

/-! ### Partition resets and escalation (R375 to R377, R379, R472) -/

/-- The counted resets of a partition that lie within its window (R377). -/
def Dev.recentResets (d : Dev) (p : Nat) : List Nat :=
  (d.part p).counted.filter fun t => decide (secOf d.time < t + d.get (Reg.PRT_CTRL_window_s p))

/-- The device with one more reset of a partition counted (R377). -/
def Dev.resetCounted (d : Dev) (p : Nat) : Dev :=
  ((d.setPart p { d.part p with counted := d.recentResets p ++ [secOf d.time] }).put (Reg.PRT_STATUS_resets p)
    ((d.recentResets p).length + 1)).incE (Cnt.PRT_CNT_PART_RESET p)

section
variable {d : Dev} {p : Nat} (h1 : d.partState p = 1)
include h1

theorem Dev.resetPartition_fault (hf : d.faulted p = true) (hz : d.frozen p = false) :
    d.resetPartition p =
      if d.get (Reg.PRT_CTRL_limit p) ≤ (d.recentResets p).length + 1 then d.partOut p 1 else (d.resetCounted p).beginReset p true := by
  have hgo : ¬(d.partState p = 2 ∨ d.partState p = 4) := by omega
  have hcounts : d.faulted p = true ∧ d.partState p ≠ 3 ∧ (!d.frozen p) = true := ⟨hf, by omega, by rw [hz]; rfl⟩
  exact (if_neg hgo).trans (if_pos hcounts)

/-- A reset that no source with reaction 2 started does not count. -/
theorem Dev.resetPartition_noFault (hf : d.faulted p = false) : d.resetPartition p = d.beginReset p false := by
  simp only [Dev.resetPartition, h1, hf, Bool.false_eq_true, false_and, if_false, OfNat.one_ne_ofNat, or_self]

theorem Dev.autoReset_safe (ha : d.get (Reg.PRT_CTRL_auto_reset p) ≠ 0) : d.autoReset p = d.resetPartition p :=
  if_pos ⟨h1, Dev.flag_eq_true.mpr ha⟩

end

theorem Dev.autoReset_notSafe {d : Dev} {p : Nat} (h1 : d.partState p ≠ 1) : d.autoReset p = d := if_neg fun h => h1 h.1

/-! ### The end of a partition reset (R376, R465) -/

/-- The device with a reset's pages at reset values, out of reset, and the findings and the training applied. -/
def Dev.resetApplied (d : Dev) (p : Nat) (f : Findings) (r : DdrRate) : Dev :=
  let e := (partResetPages p).foldl (fun d pg => d.resetPage pg (partKeeps p)) d
  let e := (partPages p).foldl (fun d pg => d.put (Reg.PAGE_STATUS_reset_active pg) 0) e
  let e := (partPages p).foldl (fun d pg => { d with clearing := Tab.erase pg d.clearing }) e
  (e.applyFindings p f).ddrTrained p r

/-- The device with a partition back in safe state after its reset, a search under way given up (R376, R381). -/
def Dev.safeAfterReset (d : Dev) (p : Nat) : Dev :=
  let e := d.setPart p { d.part p with hangReset := false, search := [] }
  let e := if e.get (Reg.PRT_REPLAY_result p) = 0x01 then e.put (Reg.PRT_REPLAY_result p) 0x04 else e
  ((e.put (Reg.PRT_STATUS_state p) 1).setBitOf Reg.FLT_DEV_STATUS_part_safe p).settleDev

theorem Dev.partitionResetDone_noHang {d : Dev} {p : Nat} {f : Findings} {r : DdrRate} (h2 : d.partState p = 2)
    (hh : (d.part p).hangReset = false) (h4 : (d.resetApplied p f r).partState p ≠ 4) :
    d.partitionResetDone p f r =
      let e := (d.resetApplied p f r).safeAfterReset p
      (if e.get (Reg.PRT_CTRL_auto_reset p) ≠ 0 then e.clearReaction2 p else e).leaveSafe p := by
  have hno (c : Prop) : ¬((d.part p).hangReset = true ∧ c) := fun h => ne_true_of_eq_false hh h.1
  exact (if_neg (not_not_intro h2)).trans ((if_neg h4).trans ((if_neg (hno _)).trans
    (congrArg (Dev.leaveSafe · p) (if_congr Dev.flag_eq_true rfl rfl))))

end Sys2Proof.Machine

namespace Sys2Proof.Proofs

open Sys2Proof Sys2Proof.Machine

/-- Settles O19, command by command; AUTO_RESET in safe state is a partition's reset. -/
theorem partitionResetsAndEscalation : Obligations.PartitionResetsAndEscalation := by
  unfold Obligations.PartitionResetsAndEscalation
  refine ⟨fun p s h1 ha hf hz hl => ?counted, fun p s h1 ha hf hz hl => ?limit, fun p s h1 ha hf => ?uncounted, fun p s h1 => ?notSafe,
    fun t s h => ?tile, fun p s => rfl, fun s h => ?twoOut, fun p s => rfl, fun p f r s => ?done⟩
  case counted =>
    exact State.next_withDev ((Dev.autoReset_safe h1 ha).trans ((Dev.resetPartition_fault h1 hf hz).trans (if_neg (Nat.not_le.mpr hl))))
  case limit => exact State.next_withDev ((Dev.autoReset_safe h1 ha).trans ((Dev.resetPartition_fault h1 hf hz).trans (if_pos hl)))
  case uncounted => exact State.next_withDev ((Dev.autoReset_safe h1 ha).trans (Dev.resetPartition_noFault h1 hf))
  case notSafe => exact State.next_withDev (Dev.autoReset_notSafe h1)
  case tile => exact State.next_withDev (if_pos h)
  case twoOut => exact State.next_withDev (if_pos h)
  case done =>
    intro tested out cleared found h2 hh h4
    exact State.next_withDev (Dev.partitionResetDone_noHang h2 hh h4)

end Sys2Proof.Proofs

namespace Sys2Proof.Machine

/-! ### Hangs and the search (R374, R380, R381) -/

/-- The suspects with a verdict on one of them. -/
def Dev.verdicts (d : Dev) (p i : Nat) (guilty : Bool) : List Suspect :=
  (d.part p).search.mapIdx fun j x => if j = i then { x with guilty := some guilty } else x

/-- The device with the verdict on a suspect noted, its run counted, and the thread of the search free. -/
def Dev.withVerdict (d : Dev) (p i : Nat) (guilty : Bool) : Dev :=
  let e := d.setPart p { d.part p with search := d.verdicts p i guilty }
  let e := (e.incU (Cnt.PRT_CNT_REPLAY_RUNS p)).put (Reg.PRT_REPLAY_replayed p) (e.get (Reg.PRT_REPLAY_replayed p) + 1)
  e.freeThread (e.searchThread p)

section
variable {d : Dev} {p i : Nat} (hi : ((d.part p).search.findIdx? fun x => x.guilty.isNone) = some i)
include hi

theorem Dev.suspectVerdict_guilty :
    d.suspectVerdict p true =
      (((d.withVerdict p i true).latchSrc (Src.PRT_engine_hang p) false).incE (Cnt.PRT_CNT_HANG p)).beginReset p false := by
  rw [Dev.suspectVerdict, hi]
  exact if_pos rfl

/-- With a verdict on every suspect the search ends; else the next one runs. -/
theorem Dev.suspectVerdict_innocent :
    d.suspectVerdict p false =
      if (d.verdicts p i false).all (fun x => x.guilty.isSome) = true then (d.withVerdict p i false).endSearch p
      else (d.withVerdict p i false).runSuspect p := by
  rw [Dev.suspectVerdict, hi]
  exact if_neg Bool.false_ne_true

end

section
variable {d : Dev} {p half : Nat} {e : Engine} (hz : d.frozen p = false)
include hz

theorem Dev.engineHang_inService (h0 : d.partState p = 0) (hb : d.engineBusy p (2 * p + half) e = true) (unit : Nat) :
    d.engineHang p half unit e =
      let ss := d.suspects p (2 * p + half) e
      let f := (d.recordHang p (2 * p + half) unit e ss.length).incE (Cnt.PRT_CNT_HANG p)
      (f.setPart p { f.part p with hangReset := true, search := ss }).raise (Src.PRT_engine_hang p) := by
  have hgo : ¬(d.partState p ≠ 0 ∨ (!d.engineBusy p (2 * p + half) e) = true) := by simp [h0, hb]
  exact (if_neg (ne_true_of_eq_false hz)).trans ((if_neg (by omega)).trans (if_neg hgo))

/-- A hang in a search is the verdict on the suspect. -/
theorem Dev.engineHang_inSearch (h3 : d.partState p = 3) (unit : Nat) : d.engineHang p half unit e = d.suspectVerdict p true :=
  (if_neg (ne_true_of_eq_false hz)).trans (if_pos h3)

end

theorem Dev.suspectRunEnd_done {d : Dev} {p : Nat} (h3 : d.partState p = 3) (hd : d.suspectDone p = true) :
    d.suspectRunEnd p false = d.suspectVerdict p false :=
  if_pos ⟨h3, .inr hd⟩

end Sys2Proof.Machine

namespace Sys2Proof.Proofs

open Sys2Proof Sys2Proof.Machine

/-- Settles O20: in a search each of the three commands is a verdict on the suspect under test. -/
theorem hangsAndTheSearch : Obligations.HangsAndTheSearch := by
  unfold Obligations.HangsAndTheSearch
  refine ⟨fun p half unit e s hz h0 hb => ?hang, fun p half unit e i s hz h3 hi => ?guilty, fun p i s h3 hd hi ha => ?ends,
    fun p i s h3 hi ha => ?next, fun p s h3 => ?noSearch⟩
  case hang => exact State.next_withDev (Dev.engineHang_inService hz h0 hb unit)
  case guilty => exact State.next_withDev ((Dev.engineHang_inSearch hz h3 unit).trans (Dev.suspectVerdict_guilty hi))
  case ends =>
    exact State.next_withDev ((Dev.suspectRunEnd_done h3 hd).trans ((Dev.suspectVerdict_innocent hi).trans (if_pos ha)))
  case next =>
    exact State.next_withDev ((if_pos h3).trans ((Dev.suspectVerdict_innocent hi).trans (if_neg (ne_true_of_eq_false ha))))
  case noSearch => exact State.next_withDev (if_neg h3)

end Sys2Proof.Proofs

namespace Sys2Proof.Machine

/-! ### When a status bit clears (R367) -/

section
variable {d : Dev} {f : FltSrc}

theorem Dev.conditionEnded_level (hl : d.levelHolds f = true) : d.conditionEnded f = false := if_pos hl

/-- A source with reaction 2 has not ended before the reset that follows its raise. -/
theorem Dev.conditionEnded_unreset (hr : d.reactOf f = 2) (hu : bitAt f.idx (Tab.getD d.unreset f.page 0) = true) :
    d.conditionEnded f = false := by
  by_cases hl : d.levelHolds f = true
  · exact Dev.conditionEnded_level hl
  · exact (if_neg hl).trans ((if_pos hr).trans (by rw [hu]; rfl))

theorem Dev.conditionEnded_other (hl : d.levelHolds f = false) (hr : d.reactOf f ≠ 2) : d.conditionEnded f = true :=
  (if_neg (ne_true_of_eq_false hl)).trans (if_neg hr)

end

section
variable {d : Dev} {pg i : Nat}

theorem Dev.clearBit_stays (h : d.conditionEnded ⟨pg, i⟩ = false) : d.clearBit pg i = d :=
  if_neg fun hc => ne_true_of_eq_false h (Bool.and_eq_true_iff.mp hc).2

theorem Dev.clearBit_goes (hs : bitAt i (d.get (Reg.FLT_STATUS_status pg)) = true) (h : d.conditionEnded ⟨pg, i⟩ = true) :
    d.clearBit pg i = d.clrBitOf (Reg.FLT_STATUS_status pg) i :=
  if_pos (Bool.and_eq_true_iff.mpr ⟨hs, h⟩)

end

/-! ### Clears and forces of a page (R366, R367) -/

theorem Dev.fltClear_controller {d : Dev} {pg : Nat} {b : Block} (hb : pageBlock pg = some b)
    (hc : [Block.aflt, .vfInfo, .vfCtx, .vfDb].contains b = false) (mask levels : Nat) :
    d.fltClear pg mask levels = d.clearFaults pg mask := by
  unfold Dev.fltClear
  rw [hb]
  cases b with
  | aflt | vfInfo | vfCtx | vfDb => exact absurd hc (by decide)
  | _ => rfl

theorem toNat_afltPage (a : Fin 8) : (BitVec.ofNat 17 (0x1000 * (a.val + 1) + 3)).toNat = aflt a := by
  revert a
  decide

theorem pageBlock_aflt (a : Fin 8) : pageBlock (aflt a) = some .aflt := by
  revert a
  decide

/-- An agent's page answers without the hub. -/
theorem Dev.pageThere_aflt (d : Dev) (a : Fin 8) : d.pageThere (aflt a) = true := by
  have hs : agentSpace (aflt a) = true := by revert a; decide
  rw [Dev.pageThere, pageBlock_aflt, hs, Bool.or_true]
  rfl

theorem Dev.fltClear_agent (d : Dev) (a : Fin 8) (mask levels : Nat) :
    d.fltClear (aflt a) mask levels = d.clearAgentFaults a mask levels := by
  have ha : aflt a / 0x1000 - 1 = a := by unfold aflt; omega
  rw [Dev.fltClear, pageBlock_aflt, ha]

/-- A clear reaches a page that takes writes. -/
theorem exec_fltClear_open {pg : BitVec 17} {s : State} (ht : s.dev.pageThere pg.toNat = true) (hr : s.dev.pageInReset pg.toNat = false)
    (mask : BitVec 32) (levels : BitVec 24) :
    exec (.fltClear pg mask levels) s = .next (s.withDev (s.dev.fltClear pg.toNat mask.toNat levels.toNat)) :=
  State.next_withDev ((if_neg (ne_true_of_eq_false (Dev.pageOut_of_not_inReset hr))).trans (Dev.ifWritable_open ht hr _))

theorem Dev.fltForce_controller {d : Dev} {pg : Nat} {b : Block} (hb : pageBlock pg = some b) (ha : b ≠ .aflt) (mask : Nat) :
    d.fltForce pg mask = ((List.range (nFlt b)).filter fun i => bitAt i mask).foldl (fun (d : Dev) i => d.raiseSrc ⟨pg, i⟩ true) d := by
  have hn : d.sources pg b = nFlt b := if_neg ha
  simp only [Dev.fltForce, hb, hn, ha, if_false]

theorem Dev.raiseSrc_disabled {d : Dev} {f : FltSrc} (h : bitAt f.idx (d.get (Reg.FLT_ENABLE_enable f.page)) = false) (forced : Bool) :
    d.raiseSrc f forced = d :=
  if_neg fun hs => ne_true_of_eq_false h (Bool.and_eq_true_iff.mp hs).1

/-! ### Leaving device safe state (R371) -/

theorem Dev.fltRelease_refused {d : Dev}
    (h : d.get Reg.FLT_DEV_STATUS_state ≠ 2 ∨ ownPages.any (fun pg => d.statusWith pg 3) = true) : d.fltRelease = d :=
  if_pos h

theorem Dev.fltRelease_leaves {d : Dev} (h2 : d.get Reg.FLT_DEV_STATUS_state = 2)
    (hn : ownPages.any (fun pg => d.statusWith pg 3) = false) :
    d.fltRelease =
      let e := ((d.put Reg.FLT_DEV_STATUS_state 1).put Reg.FLT_DEV_STATUS_cause 0).put Reg.FLT_DEV_CAUSE_valid 0
      let e := (List.range 16).foldl Dev.leaveSafe (e.put Reg.FLT_DEV_CAUSE_code 0).settleDev
      let e := if e.isMember then e.fenceQuiet else e
      if 7 ≤ e.stage ∧ e.stage ≠ 0xF then (e.enterStage 7).startDiscovery else e :=
  if_neg fun h => h.elim (absurd h2) (ne_true_of_eq_false hn)

/-- A release without an error of the hub's memory ends with the protocol settled. -/
theorem exec_fltRelease {s : State} {e : Dev} (h : s.dev.fltRelease = e) : exec (.fltRelease false) s = .next (s.withDev e.settle) :=
  State.next_withDev ((if_neg Bool.false_ne_true).trans (congrArg Dev.settle h))

end Sys2Proof.Machine

namespace Sys2Proof.Proofs

open Sys2Proof Sys2Proof.Machine

/-- Settles O34: a clear reaches an open page, where each bit goes with its condition; a force raises through the page's sources; the
hub's faults and the drain report are their definitions. -/
theorem faultBlocks : Obligations.FaultBlocks := by
  unfold Obligations.FaultBlocks
  refine ⟨fun pg b mask levels s hb hc ht hr => ?clear, fun a mask levels s => ?clearAgent,
    fun d pg i hl => Dev.clearBit_stays (Dev.conditionEnded_level hl),
    fun d pg i hr hu => Dev.clearBit_stays (Dev.conditionEnded_unreset hr hu),
    fun d pg i hs hl hr => Dev.clearBit_goes hs (Dev.conditionEnded_other hl hr), fun pg b mask s hb ha ht hr => ?force,
    fun d f forced h => Dev.raiseSrc_disabled h forced, fun s h => exec_fltRelease (Dev.fltRelease_refused (.inl h)),
    fun s h => exec_fltRelease (Dev.fltRelease_refused (.inr h)), fun s h2 hn => exec_fltRelease (Dev.fltRelease_leaves h2 hn),
    fun ecc s => rfl, fun ecc s => rfl, fun s => rfl⟩
  case clear => rw [exec_fltClear_open ht hr, Dev.fltClear_controller hb hc]
  case clearAgent =>
    intro pg hr
    have hp : pg.toNat = aflt a := toNat_afltPage a
    have ht : s.dev.pageThere pg.toNat = true := by rw [hp, Dev.pageThere_aflt]
    rw [exec_fltClear_open ht hr, hp, Dev.fltClear_agent]
  case force => exact State.next_withDev ((Dev.ifWritable_open ht hr _).trans (Dev.fltForce_controller hb ha _))

end Sys2Proof.Proofs

namespace Sys2Proof.Machine

/-- A command after which the register writes that the comparator released act (R388). -/
theorem State.next_postWrites {s : State} {d e : Dev} (h : d = e) :
    (.next { s with dev := d.postWrites } : Host.Outcome State Fault Refusal) = .next (s.withDev e.postWrites) :=
  State.next_withDev (congrArg Dev.postWrites h)

/-! ### Copies at the comparator (R388, R390, R396) -/

/-- The device with a copy held by the comparator. -/
def Dev.holdCopy (d : Dev) (c : PairCopy) : Dev := { d with pair := { d.pair with held := d.pair.held ++ [c] } }

/-- The device with the copies of a sequence number replaced by one that may leave. -/
def Dev.copyReady (d : Dev) (seq : Nat) (c : PairCopy) : Dev :=
  { d with pair := { d.pair with held := (d.pair.held.filter fun x => x.seq != seq) ++ [{ c with core := 2 }] } }

section
variable {d : Dev} {n seq : Nat} {m : Message} (hc : d.core n = 3 ∨ d.core n = 4)
  (hr : (d.pair.released.find? fun r => r.seq == seq && decide (d.nowUs < r.at_ + 1000)) = none)
include hc hr

theorem Dev.pairCopy_single (hd : d.flag Reg.MGMT_PAIR_dual = false) (hm : d.pair.mismatch = none) :
    d.pairCopy n seq m = (d.holdCopy ⟨2, seq, d.nowUs, m⟩).flushAll := by
  rw [Dev.pairCopy, if_pos (or_assoc.mp (.inl hc)), hr]
  exact if_pos ⟨by rw [hd]; rfl, by rw [hm]; rfl⟩

variable (hd : d.flag Reg.MGMT_PAIR_dual = true)
include hd

theorem Dev.pairCopy_first (hh : (d.pair.held.find? fun h => h.seq == seq && h.core == 1 - n) = none) :
    d.pairCopy n seq m = d.holdCopy ⟨n, seq, d.nowUs, m⟩ := by
  rw [Dev.pairCopy, if_pos (or_assoc.mp (.inl hc)), hr]
  refine (if_neg (by simp [hd])).trans ?_
  rw [hh]
  rfl

/-- The second copy is compared with the first. -/
theorem Dev.pairCopy_second {h : PairCopy} (hh : (d.pair.held.find? fun h => h.seq == seq && h.core == 1 - n) = some h) :
    d.pairCopy n seq m =
      if h.msg ≠ m then (d.holdCopy ⟨n, seq, d.nowUs, m⟩).mismatch seq
      else if d.nowUs ≤ h.at_ + 2 then ((d.copyReady seq ⟨n, seq, d.nowUs, m⟩).incU Cnt.CMP_CNT_CMP_PAIRED).flushAll
      else d.holdCopy ⟨n, seq, d.nowUs, m⟩ := by
  rw [Dev.pairCopy, if_pos (or_assoc.mp (.inl hc)), hr]
  refine (if_neg (by simp [hd])).trans ?_
  rw [hh]
  rfl

end

theorem Dev.singleCopy_alone {d : Dev} {seq : Nat} {c : PairCopy} (hm : d.pair.mismatch ≠ some seq)
    (hf : (d.pair.held.find? fun c => c.seq == seq && c.core != 2) = some c) :
    d.singleCopy seq = ((d.copyReady seq c).incU Cnt.CMP_CNT_CMP_SINGLE).flushAll := by
  rw [Dev.singleCopy, if_neg hm, hf]
  rfl

/-! ### Takeover and the pair's self-tests (R389 to R391) -/

theorem Dev.takeoverRow_dual {d : Dev} (hd : d.flag Reg.MGMT_PAIR_dual = true) (acked : List Nat) :
    d.takeoverRow acked = (d.coreOff (d.get Reg.MGMT_PAIR_active)).coreGone (d.get Reg.MGMT_PAIR_active) 4 acked :=
  if_pos hd

theorem Dev.takeoverRow_single {d : Dev} (hd : d.flag Reg.MGMT_PAIR_dual = false) (acked : List Nat) : d.takeoverRow acked = d :=
  if_neg (ne_true_of_eq_false hd)

section
variable {d : Dev} {seq : Nat} (hm : d.pair.mismatch = some seq)
include hm

theorem Dev.pairSelftest_bothFail :
    d.pairSelftest false false =
      ({ (d.coreOff 0).coreOff 1 with pair := { d.pair with mismatch := none } } : Dev).raise Src.FLT_mgmt_none := by
  simp only [Dev.pairSelftest, hm]

theorem Dev.pairSelftest_core0 :
    d.pairSelftest true false = (((d.coreOff 1).setCore 0 4).releaseHeld seq 0).singleMode 0 := by
  simp only [Dev.pairSelftest, hm]

theorem Dev.pairSelftest_core1 :
    d.pairSelftest false true = (((d.coreOff 0).setCore 1 4).releaseHeld seq 1).singleMode 1 := by
  simp only [Dev.pairSelftest, hm]

/-- At a first mismatch that both cores pass, the active core stays active and the other resynchronises. -/
theorem Dev.pairSelftest_bothPass (hl : d.pair.lastMismatch = none) :
    d.pairSelftest true true =
      let act := d.get Reg.MGMT_PAIR_active
      let e := { d with pair := { d.pair with lastMismatch := some d.nowUs } }
      ((e.setCore act 4).setCore (1 - act) 2).releaseHeld seq act := by
  simp only [Dev.pairSelftest, hm, hl, Bool.false_eq_true, if_false]

end

section
variable {d : Dev} (hd : d.flag Reg.MGMT_PAIR_dual = true)
include hd

theorem Dev.standbySlice_fails (passEnds : Bool) :
    d.standbySlice false passEnds =
      (((d.setCore (1 - d.get Reg.MGMT_PAIR_active) 5).healthEvent).raise Src.MGMT_standby_selftest).singleMode
        (d.get Reg.MGMT_PAIR_active) := by
  simp only [Dev.standbySlice, hd, Bool.not_true, Bool.not_false, Bool.false_eq_true, if_false, if_true]

theorem Dev.standbySlice_passes : d.standbySlice true true = d.healthEvent.incU Cnt.MGMT_CNT_MGMT_SELFTEST := by
  simp only [Dev.standbySlice, hd, Bool.not_true, Bool.false_eq_true, if_false, if_true]

end

end Sys2Proof.Machine

namespace Sys2Proof.Proofs

open Sys2Proof Sys2Proof.Machine

/-- Settles O37: a copy by the mode and the copy held before it; the pair's self-tests by which cores pass. -/
theorem managementPair : Obligations.ManagementPair := by
  unfold Obligations.ManagementPair
  refine ⟨fun n seq m s => rfl, fun n seq m s => ?single, fun n seq m s => ?first, fun n seq m h s => ?paired,
    fun n seq m h s => ?differs, fun seq c s hm hf => ?alone, fun acked s hd => ?takeover, fun acked s hd => ?noTakeover,
    fun seq s hm => ?bothFail, fun seq s hm => ?core0, fun seq s hm => ?core1, fun seq s hm hl => ?bothPass, fun b s => ?sliceFails,
    fun s hd => ?slicePasses, fun s hh => ?held, fun s hh => ?notHeld⟩
  case single =>
    intro d c h4 hd hm hr
    exact State.next_postWrites (Dev.pairCopy_single (.inr h4) hr hd hm)
  case first =>
    intro d c hc hd hr hh
    exact State.next_postWrites (Dev.pairCopy_first hc hr hd hh)
  case paired =>
    intro d c hc hd hr hh hmsg hat
    exact State.next_postWrites
      ((Dev.pairCopy_second hc hr hd hh).trans ((if_neg (not_not_intro hmsg)).trans (if_pos hat)))
  case differs =>
    intro d c hc hd hr hh hmsg
    exact State.next_postWrites ((Dev.pairCopy_second hc hr hd hh).trans (if_pos hmsg))
  case alone => exact State.next_postWrites (Dev.singleCopy_alone hm hf)
  case takeover => exact State.next_postWrites (Dev.takeoverRow_dual hd _)
  case noTakeover => exact State.next_postWrites (Dev.takeoverRow_single hd _)
  case bothFail => exact State.next_postWrites (Dev.pairSelftest_bothFail hm)
  case core0 => exact State.next_postWrites (Dev.pairSelftest_core0 hm)
  case core1 => exact State.next_postWrites (Dev.pairSelftest_core1 hm)
  case bothPass => exact State.next_postWrites (Dev.pairSelftest_bothPass hm hl)
  case sliceFails =>
    intro act hd
    exact State.next_postWrites (Dev.standbySlice_fails hd b)
  case slicePasses => exact State.next_postWrites (Dev.standbySlice_passes hd)
  case held => exact State.next_withDev (if_neg hh)
  case notHeld => exact State.next_withDev (if_pos hh)

end Sys2Proof.Proofs

namespace Sys2Proof.Machine

/-! ### Core states (R387, R395) -/

section
variable {d : Dev} {n : Nat} (h1 : d.core n = 1) (hm : d.pair.mismatch = none)
include h1 hm

theorem Dev.coreSelftest_passes :
    d.coreSelftest n true =
      (if d.stage = 3 ∧ (d.core (1 - n) = 1 ∨ d.core (1 - n) = 3 ∨ d.core (1 - n) = 4) then d.setCore n (if n = 0 then 4 else 3)
      else if d.core (1 - n) = 4 then d.setCore n 2
      else if d.core (1 - n) = 3 ∨ d.core (1 - n) = 1 ∨ d.core (1 - n) = 2 then d.setCore n 3
      else d.takeOver n []).firmwareCheck :=
  (if_neg (by simp [h1, hm])).trans (if_pos rfl)

/-- In stage 0x3, beside a core that may run, core 0 is active and core 1 standby. -/
theorem Dev.coreSelftest_passes_early (hs : d.stage = 3) (ho : d.core (1 - n) = 1 ∨ d.core (1 - n) = 3 ∨ d.core (1 - n) = 4) :
    d.coreSelftest n true = (d.setCore n (if n = 0 then 4 else 3)).firmwareCheck := by
  rw [Dev.coreSelftest_passes h1 hm, if_pos ⟨hs, ho⟩]

theorem Dev.coreSelftest_passes_late (hs : d.stage ≠ 3) (ho : d.core (1 - n) = 4) :
    d.coreSelftest n true = (d.setCore n 2).firmwareCheck := by
  rw [Dev.coreSelftest_passes h1 hm, if_neg fun h => hs h.1, if_pos ho]

/-- A core 1 that fails leaves the other core as it is. -/
theorem Dev.coreSelftest_fails (ha : d.coreAbsent (1 - n) = false) (hn : n ≠ 0) :
    d.coreSelftest n false = (d.coreOff n).firmwareCheck := by
  have hno : ¬((d.coreOff n).core (1 - n) = 3 ∧ n = 0) := fun h => hn h.2
  exact (if_neg (by simp [h1, hm])).trans ((if_neg Bool.false_ne_true).trans
    (congrArg Dev.firmwareCheck ((if_neg (ne_true_of_eq_false ha)).trans (if_neg hno))))

end

section
variable {d : Dev} {n : Nat}

theorem Dev.coreResync_ends (h2 : d.core n = 2) (ho : d.core (1 - n) = 4) :
    d.coreResync n = (d.setCore n 3).incU Cnt.MGMT_CNT_MGMT_RESYNC :=
  if_pos ⟨h2, ho⟩

theorem Dev.coreOffline_acts (ho : d.core (1 - n) = 3 ∨ d.core (1 - n) = 4) (h5 : d.core n ≠ 5) :
    d.coreOffline n = (d.coreOff n).coreGone n (d.core n) [] :=
  if_pos ⟨ho, h5⟩

theorem Dev.coreOffline_ignored (h3 : d.core (1 - n) ≠ 3) (h4 : d.core (1 - n) ≠ 4) : d.coreOffline n = d :=
  if_neg fun h => h.1.elim h3 h4

end

theorem Dev.coreRetry_0 {d : Dev} (h5 : d.core 0 = 5) (hf : d.get Reg.PWR_FEED_STATUS_feed_a_state = 1) :
    d.coreRetry 0 = { d.setCore 0 0 with pwr := { d.pwr with powered := d.pwr.powered.filter (· != Domain.mgmt 0) } } :=
  if_pos ⟨h5, hf⟩

theorem Dev.coreRetry_1_noFeed {d : Dev} (hf : d.get Reg.PWR_FEED_STATUS_feed_b_state ≠ 1) : d.coreRetry 1 = d :=
  if_neg fun h => hf h.2

end Sys2Proof.Machine

namespace Sys2Proof.Proofs

open Sys2Proof Sys2Proof.Machine

/-- Settles O38: each command by the states of the two cores. -/
theorem coreStates : Obligations.CoreStates := by
  unfold Obligations.CoreStates
  refine ⟨fun s h1 ho hs hm => ?active, fun s h1 ho hs hm => ?standby, fun n s h1 ho hs hm => ?resync, fun s h1 ha hm => ?fails,
    fun n s h2 ho => ?resynced, fun n s ho h5 => ?offline, fun n s h3 h4 => ?ignored, fun s h5 hf => ?retry, fun s h5 hf => ?noFeed⟩
  case active => exact State.next_postWrites (Dev.coreSelftest_passes_early h1 hm hs (.inl ho))
  case standby => exact State.next_postWrites (Dev.coreSelftest_passes_early h1 hm hs (.inr (.inr ho)))
  case resync => exact State.next_postWrites (Dev.coreSelftest_passes_late h1 hm hs ho)
  case fails => exact State.next_postWrites (Dev.coreSelftest_fails h1 hm ha (by decide))
  case resynced => exact State.next_withDev (Dev.coreResync_ends h2 ho)
  case offline => exact State.next_postWrites (Dev.coreOffline_acts ho h5)
  case ignored => exact State.next_postWrites (Dev.coreOffline_ignored h3 h4)
  case retry => exact State.next_withDev (Dev.coreRetry_0 h5 hf)
  case noFeed => exact State.next_withDev (Dev.coreRetry_1_noFeed hf)

end Sys2Proof.Proofs

namespace Sys2Proof.Machine

/-! ### The commands in front, and what waits behind them (log entry 44) -/

/-- A command leaves the same device behind two queues, and each queue as it is: its meaning reads and writes the device alone. -/
theorem exec_alike (c : Instr) (d : Dev) (q r : List Instr) :
    ∃ d', exec c ⟨d, q⟩ = .next ⟨d', q⟩ ∧ exec c ⟨d, r⟩ = .next ⟨d', r⟩ := by
  cases c <;> exact ⟨_, rfl, rfl⟩

theorem exec_completes (c : Instr) (d : Dev) : ∃ d', ∀ q, exec c ⟨d, q⟩ = .next ⟨d', q⟩ := by
  obtain ⟨d', h, -⟩ := exec_alike c d [] []
  refine ⟨d', fun q => ?_⟩
  obtain ⟨e, he, hq⟩ := exec_alike c d [] q
  have hde : e = d' := congrArg State.dev (Host.Outcome.next.inj (he.symm.trans h))
  rw [hq, hde]

theorem runAll_cons {c : Instr} {s s' : State} (h : exec c s = .next s') (cs : List Instr) : runAll (c :: cs) s = runAll cs s' := by
  rw [runAll, h]

theorem runs_succ {s s' : State} (h : step s = .next s') (n : Nat) : runs (n + 1) s = runs n s' := by
  rw [runs, h]

end Sys2Proof.Machine

namespace Sys2Proof.Proofs

open Sys2Proof Sys2Proof.Machine

/-- Settles O1: the front command of a queue with a command put in front is that command. -/
theorem stepRunsFrontCommand : Obligations.StepRunsFrontCommand := by
  unfold Obligations.StepRunsFrontCommand
  intro c s
  exact step_of_cons (State.push_pending s c)

/-- Settles O3: the next device is the same behind every queue. -/
theorem everyCommandCompletes : Obligations.EveryCommandCompletes := by
  unfold Obligations.EveryCommandCompletes
  exact exec_completes

/-- Settles O4, by induction on the commands in front. -/
theorem queueRunsInOrder : Obligations.QueueRunsInOrder := by
  unfold Obligations.QueueRunsInOrder
  intro cs rest
  induction cs with
  | nil => exact fun d => ⟨d, rfl, rfl⟩
  | cons c cs ih =>
    intro d
    obtain ⟨e, he⟩ := exec_completes c d
    obtain ⟨d', hall, hruns⟩ := ih e
    exact ⟨d', (runAll_cons (he []) cs).trans hall, (runs_succ ((step_of_cons rfl).trans (he (cs ++ rest))) cs.length).trans hruns⟩

end Sys2Proof.Proofs

namespace Sys2Proof.Machine

/-! ### The I3C target (R463) -/

section
variable {d : Dev}

/-- Four indices show a register of the hub, and zero while it has no power. -/
theorem Dev.i3cWord_hub {index : Byte} (hi : index = 1 ∨ index = 2 ∨ index = 4 ∨ index = 5) :
    d.i3cWord index.toNat = if d.pwr.powered.contains .hub then
      d.readWord (if index = 1 then 0x010120 else if index = 2 then 0x010100 else if index = 4 then 0x001100 else 0x040100) else 0 := by
  rcases hi with rfl | rfl | rfl | rfl <;> rfl

theorem Dev.i3cWord_unlisted {index : Nat} (hi : 5 < index) : d.i3cWord index = 0 := by
  obtain ⟨k, rfl⟩ : ∃ k, index = k + 6 := ⟨index - 6, by omega⟩
  rfl

theorem Dev.i3cWord_zero {index : Byte}
    (h : (index = 1 ∨ index = 2 ∨ index = 4 ∨ index = 5) ∧ d.pwr.powered.contains .hub = false ∨ 5 < index.toNat) :
    d.i3cWord index.toNat = 0 := by
  rcases h with ⟨hi, hp⟩ | hi
  · rw [Dev.i3cWord_hub hi, if_neg (ne_true_of_eq_false hp)]
  · exact Dev.i3cWord_unlisted hi

end

theorem exec_i3cRead {s : State} {index : Byte} {w : Nat} (h : s.dev.i3cWord index.toNat = w) :
    exec (.i3cRead index) s = .next (s.withDev (s.dev.emit (.serial 64 w))) :=
  h ▸ rfl

end Sys2Proof.Machine

namespace Sys2Proof.Proofs

open Sys2Proof Sys2Proof.Machine

/-- Settles O57: a read by the word at its index, the other codes by whether the target has a dynamic address. -/
theorem busTarget : Obligations.BusTarget := by
  unfold Obligations.BusTarget
  refine ⟨fun s => rfl, fun index s hi hp => ?hub, fun index s h => ?zero, fun s => rfl, fun addr s h => ?entdaa,
    fun addr x s h => ?entdaaTaken, fun dynamic s h => ?setdasa, fun static_ dynamic s h => ?setdasaIgnored, fun s => rfl, fun s => rfl,
    fun s => rfl, fun s => rfl, fun s => rfl⟩
  case hub => exact exec_i3cRead ((Dev.i3cWord_hub hi).trans (if_pos hp))
  case zero => exact exec_i3cRead (Dev.i3cWord_zero h)
  case entdaa => exact State.next_withDev (if_pos h)
  case entdaaTaken => exact State.next_withDev (if_neg (by simp [h]))
  case setdasa => exact State.next_withDev (if_pos ⟨rfl, h⟩)
  case setdasaIgnored => exact State.next_withDev (if_neg fun ⟨hs, hn⟩ => h.elim (· hs) (by simp [hn]))

end Sys2Proof.Proofs

namespace Sys2Proof.Machine

/-! ### The recorder (R404, R408 to R410) -/

/-- The event of a source goes into the record of its code, and out of the recorder, and may trigger a stop (R404 to R406, R410). -/
def Dev.serveEvent (d : Dev) (code : Nat) (p : EvPending) : Dev :=
  let d := d.setRecord code ((d.record code).update p (bits 57 5 (d.evrCfg code)))
  let d := d.traceUpdate code p
  if d.flag Reg.DBG_STOP_CTRL_trig_code ∧ d.get Reg.DBG_STOP_CTRL_code = code then d.stopTrigger 4 else d

theorem Dev.eventUpdate_serves {d : Dev} {p : EvPending} (h : (d.evr.pend.find? fun p => !d.heldCode (d.codeOf p.src)) = some p)
    (ecc : Bool) :
    d.eventUpdate ecc =
      let code := d.codeOf p.src
      let e := d.onEvr fun e => { e with pend := e.pend.filter fun q => q.src != p.src }
      (if ecc then (e.setRecord code { EvRecord.empty with gen := ((e.record code).gen + 1) % 2 ^ 32 }).raise Src.EVR_evr_ecc
        else e).serveEvent code p := by
  unfold Dev.eventUpdate
  rw [h]
  rfl

/-! ### The global stop and scan (R410, R413, R414) -/

section
variable {d : Dev}

theorem Dev.stopResume_frozen (h : 2 ≤ d.get Reg.DBG_STOP_STATUS_state) :
    d.stopResume =
      let e := (d.put Reg.DBG_STOP_STATUS_frozen 0).put Reg.DBG_STOP_STATUS_state (b2n (d.flag Reg.DBG_STOP_CTRL_arm))
      (List.range 16).foldl (fun (d : Dev) p => if d.partState p = 0 then d.tableDue p else d)
        (d.stop.deferred.eraseDups.foldl Dev.partSafe { e with stop := { d.stop with deferred := [] } }) :=
  if_neg (Nat.not_lt.mpr h)

theorem Dev.chainLen_frozen {part : Nat} (h : d.frozen part = true) (chain : Nat) : d.chainLen part chain = chainBits chain :=
  if_pos h

theorem Dev.chainLen_running {part : Nat} (h : d.frozen part = false) (chain : Nat) : d.chainLen part chain = 0 :=
  if_neg (ne_true_of_eq_false h)

theorem Dev.scanBits_none {part chain : Nat} (h : d.chainLen part chain = 0) (n : Nat) :
    d.scanBits part chain n = (d.put Reg.DBG_SCAN_LEN_err 1, 0) :=
  if_pos h

theorem Dev.scanBits_some {part chain : Nat} (h : d.chainLen part chain ≠ 0) (n : Nat) :
    d.scanBits part chain n = (d.tick.addU Cnt.DBG_CNT_SCAN_BITS n, d.free % 2 ^ n) :=
  if_neg h

/-- A selection that reads zero is an error, and reads zero. -/
theorem Dev.scanRead_none (h : d.chainLen (d.get Reg.DBG_SCAN_SEL_part) (d.get Reg.DBG_SCAN_SEL_chain) = 0) :
    d.scanRead = { d.put Reg.DBG_SCAN_LEN_err 1 with rdata := 0, stop := { d.stop with scanPos := 0 } } := by
  simp only [Dev.scanRead, Dev.scanBits_none h, h, Nat.zero_le, if_true, Dev.put_stop]

theorem Dev.scanRead_some {len : Nat} (h : d.chainLen (d.get Reg.DBG_SCAN_SEL_part) (d.get Reg.DBG_SCAN_SEL_chain) = len)
    (hl : len ≠ 0) :
    d.scanRead = { d.tick.addU Cnt.DBG_CNT_SCAN_BITS (Nat.min 64 (len - d.stop.scanPos)) with
      rdata := d.free % 2 ^ Nat.min 64 (len - d.stop.scanPos)
      stop := { d.stop with scanPos := if len ≤ d.stop.scanPos + 64 then 0 else d.stop.scanPos + 64 } } := by
  subst h
  simp only [Dev.scanRead, Dev.scanBits_some hl]
  rfl

end

/-! ### The test access port (R413) -/

section
variable {d : Dev}

theorem Dev.flag_tapIr (code : Nat) (f : Fld) : (d.tapIr code).flag f = d.flag f := rfl

theorem Dev.kscanSel_off (h : d.flag Reg.DBG_CTRL_tap_en = false) (v : Nat) : d.kscanSel v = d.tapIr 0x20 :=
  if_pos (by simp [Dev.flag_tapIr, h])

theorem Dev.kscanSel_on (h : d.flag Reg.DBG_CTRL_tap_en = true) (v : Nat) :
    d.kscanSel v =
      let e : Dev := { d with stop := { d.stop with tapIr := 0x20, tapSel := v, tapPos := 0 } }
      if bits 14 2 v ≠ 0 ∨ d.chainLen (bits 10 4 v) (bits 0 10 v) = 0 then e.put Reg.DBG_SCAN_LEN_err 1 else e := by
  refine (if_neg (by simp [Dev.flag_tapIr, h])).trans (if_congr ?_ rfl rfl)
  rw [Bool.or_eq_true, bne_iff_ne, beq_iff_eq]
  rfl

theorem Dev.kscanData_off (h : d.flag Reg.DBG_CTRL_tap_en = false) (n : Nat) : d.kscanData n = d.tapIr 0x21 :=
  if_pos (by simp [Dev.flag_tapIr, h])

theorem Dev.kscanData_on (h : d.flag Reg.DBG_CTRL_tap_en = true) (n : Nat) :
    d.kscanData n =
      let e := d.tapIr 0x21
      let v := e.stop.tapSel
      let len := e.chainLen (bits 10 4 v) (bits 0 10 v)
      if bits 14 2 v ≠ 0 ∨ len = 0 then (e.put Reg.DBG_SCAN_LEN_err 1).emit (.serial n 0)
      else ({ e.tick.addU Cnt.DBG_CNT_SCAN_BITS n with stop := { e.stop with tapPos := (e.stop.tapPos + n) % len } } : Dev).emit
        (.serial n (e.free % 2 ^ n)) := by
  refine (if_neg (by simp [Dev.flag_tapIr, h])).trans (ite_congr rfl (fun _ => rfl) fun hv => ?_)
  rw [Dev.scanBits_some (not_or.mp hv).2]
  rfl

end

end Sys2Proof.Machine

namespace Sys2Proof.Proofs

open Sys2Proof Sys2Proof.Machine

/-- Settles O55: the events by what the recorder serves, the scan commands by whether a chain is there, the others by the equation of their
meaning. -/
theorem recorderStopAndScan : Obligations.RecorderStopAndScan := by
  unfold Obligations.RecorderStopAndScan
  refine ⟨fun p s => ?event, fun p s => ?eventEcc, fun code s => rfl, fun s => rfl, fun s => rfl, fun s => rfl, fun code s => rfl,
    fun s => rfl, fun s => rfl, fun s h => ?stopPin, fun s h => ?noStopPin, fun s => ?resume, fun part chain s => rfl,
    fun s h => ?scanRunning, fun s => ?scanFrozen, fun v s h => ?kscanSel, fun v s h => ?noKscanSel, fun n s => ?kscanData,
    fun n s h => ?noKscanData, fun v s => rfl, fun s => rfl, fun v s => rfl, fun code n v s => rfl, fun s => rfl⟩
  case event => exact fun h => State.next_withDev (Dev.eventUpdate_serves h false)
  case eventEcc => exact fun h => State.next_withDev (Dev.eventUpdate_serves h true)
  case stopPin => exact State.next_withDev (if_pos h)
  case noStopPin => exact State.next_withDev (if_neg (ne_true_of_eq_false h))
  case resume => exact fun h => State.next_withDev (Dev.stopResume_frozen h)
  case scanRunning => exact State.next_withDev (Dev.scanRead_none (Dev.chainLen_running h _))
  case scanFrozen =>
    intro len h
    have hlen := Dev.chainLen_frozen h (s.dev.get Reg.DBG_SCAN_SEL_chain)
    refine State.next_withDev ?_
    split
    next h0 => exact Dev.scanRead_none (hlen.trans h0)
    next h0 => exact Dev.scanRead_some hlen h0
  case kscanSel => exact State.next_withDev (Dev.kscanSel_on h v.toNat)
  case noKscanSel => exact State.next_withDev (Dev.kscanSel_off h v.toNat)
  case kscanData => exact fun h => State.next_withDev (Dev.kscanData_on h n.val)
  case noKscanData => exact State.next_withDev (Dev.kscanData_off h n.val)

end Sys2Proof.Proofs

namespace Sys2Proof.Machine

/-! ### Pattern packs (R416, R417) -/

section
variable {d : Dev}

theorem Dev.packPush_none (h : d.boot.packA = none) (scope : Nat) : d.packPush scope = d := by
  simp only [Dev.packPush, h]

section
variable {info : ObjInfo} (hi : d.boot.packA = some info)
include hi

theorem Dev.packPush_staged {scope : Nat} (hs : scope = 1 ∨ scope = 2) :
    d.packPush scope =
      let dsts := d.packTargets scope
      (((({ d with packs := { d.packs with acked := [] } } : Dev).put Reg.DBG_PACK_STATUS_acks 0).put Reg.DBG_PACK_STATUS_state
        (if dsts = [] then 1 else 2)).sendPack info dsts) := by
  unfold Dev.packPush
  rw [hi]
  exact if_neg (by omega)

theorem Dev.packAck_counts {src digest result : Nat} (hd : info.digest % 2 ^ 64 = digest) (ha : d.packs.acked.contains src = false)
    (hs : d.get Reg.DBG_PACK_STATUS_state = 2) :
    d.packAck src digest result =
      let d : Dev := { d with packs := { d.packs with acked := d.packs.acked ++ [src] } }
      let e := if result = 0x00 ∨ result = 0x10 then d.put Reg.DBG_PACK_STATUS_acks (d.get Reg.DBG_PACK_STATUS_acks + 1) else d
      if (e.packTargets (e.get Reg.DBG_PACK_CTRL_scope)).all e.packs.acked.contains then e.put Reg.DBG_PACK_STATUS_state 1 else e := by
  unfold Dev.packAck
  rw [hi]
  exact if_neg (not_or.mpr ⟨not_not_intro hd, not_or.mpr ⟨ne_true_of_eq_false ha, not_not_intro hs⟩⟩)

theorem Dev.packResend_missing {dst chunk : Nat} (hs : d.get Reg.DBG_PACK_STATUS_state = 2) (hc : chunk < (packChunks info.bytes).length)
    (ha : d.packs.acked.contains dst = false) :
    d.packResend dst chunk = d.send dst 0x54 ([word2 chunk (packChunks info.bytes).length, packWord info] ++
      wordsOf ((packChunks info.bytes).getD chunk [])) := by
  unfold Dev.packResend
  rw [hi]
  exact if_pos ⟨hs, hc, by rw [ha]; rfl⟩

end

/-- The pack that a chunk belongs to: the one on its way in when that has its digest, else a new one. -/
theorem PackIn.kept_or_new (incoming : Option PackIn) (digest : Nat) (new : PackIn) :
    (match incoming with
      | some q => if q.digest = digest then q else new
      | none => new) = (incoming.filter fun q => q.digest == digest).getD new := by
  cases incoming with
  | none => rfl
  | some q =>
    by_cases h : q.digest = digest <;> simp [Option.filter, h]

theorem Dev.packChunkIn_kept (hs : d.stage = 0xA) (src chunk total digest : Nat) (data : List Byte) :
    d.packChunkIn src chunk total digest data =
      let old := (d.packs.incoming.filter fun q => q.digest == digest).getD ⟨digest, total, src, []⟩
      let q : PackIn := { old with chunks := Tab.insert chunk (data.map BitVec.toNat) (Tab.erase chunk old.chunks) }
      let e : Dev := { d with packs := { d.packs with incoming := some q } }
      if (List.range q.total).all (fun i => (Tab.find i q.chunks).isSome) then
        e.packArrived q (((List.range q.total).flatMap fun i => Tab.getD q.chunks i []).map fun b => BitVec.ofNat 8 b)
      else e := by
  rw [← PackIn.kept_or_new]
  exact if_neg (not_not_intro hs)

end

/-! ### Monitors and margin plans (R420, R422) -/

section
variable {d : Dev} {p : Nat}

section
variable {slacks : List Int} {edges : List Nat}

theorem Dev.monitorSample_idle (h : ((d.setMon p { d.mon p with slacks := slacks, edges := edges }).mon p).started = none) :
    d.monitorSample p slacks edges = d.setMon p { d.mon p with slacks := slacks, edges := edges } :=
  if_pos (by simp [h])

theorem Dev.monitorSample_planning {t : Nat}
    (h : ((d.setMon p { d.mon p with slacks := slacks, edges := edges }).mon p).started = some t) :
    d.monitorSample p slacks edges =
      let e := d.setMon p { d.mon p with slacks := slacks, edges := edges }
      (oddMonitors slacks).foldl (fun (d : Dev) i => if 2 ≤ Tab.getD (d.mon p).odd i 0 then d.exclude p i else d)
        (e.setMon p { e.mon p with oddNow := ((e.mon p).oddNow ++ oddMonitors slacks).eraseDups }) :=
  if_neg (by simp [h])

end

theorem Dev.planStart_begins (hs : d.stage = 0xA) (hp : d.partState p ≠ 4) (hm : (d.mon p).started = none) :
    d.planStart p =
      (d.setMon p { d.mon p with started := some (secOf d.time), oddNow := [], cap := 10 }).put (Reg.MON_STATUS_state p) 1 :=
  if_neg (by simp [hs, hp, hm])

theorem Dev.planLate_running {t : Nat} (hm : (d.mon p).started = some t) :
    d.planLate p = ((d.planOver p).put (Reg.MON_STATUS_result p) 0x02).raise (Src.MON_plan_late p) :=
  if_neg (by simp [hm])

end

/-! ### The end of a margin plan (R420, R421, R423 to R425) -/

section
variable (d : Dev) (p : Nat) (r : PlanResult)

/-- The plan notes its inconsistent monitors, and excludes those of three plans in succession (R420). -/
def Dev.planNoted : Dev :=
  let odd := ((d.mon p).oddNow ++ oddMonitors r.reference).eraseDups
  let counts := (List.range 32).foldl (fun t i => Tab.set t i 0 (if odd.contains i then Tab.getD (d.mon p).odd i 0 + 1 else 0)) []
  odd.foldl (fun (d : Dev) i => if 3 ≤ Tab.getD counts i 0 then d.exclude p i else d)
    (d.setMon p { d.mon p with odd := counts, lastPlan := some (secOf d.time) })

/-- The table that the sweep gives (R421). -/
def Dev.planTable : List VfPoint :=
  (List.range 11).map fun i =>
    vfEntry ((d.planNoted p r).mon p).excluded (d.get (Reg.MON_CTRL_guard_ps p)) (r.sweep.getD i [])

/-- The point of the target frequency. -/
def Dev.planTarget : Nat := ((d.planNoted p r).get (Reg.MON_CTRL_target_mhz p) - 1200) / 100

/-- The point that the sweep proposes (R423). -/
def Dev.planProposed : Option Nat := bestPoint (d.planTable p r) (d.planTarget p r)

/-- What the at-speed tests found of the cores of one of the two clusters. -/
def clusterCores (r : PlanResult) (h : Nat) : List (Nat × Option Nat) :=
  ((r.cores.zipIdx.map fun (e : Option Nat × Nat) => (e.2, e.1)).filter fun (e : Nat × Option Nat) => e.1 / 17 == h).map
    fun (e : Nat × Option Nat) => (e.1 % 17, e.2)

/-- The first cluster's cores are taken into account. -/
def Dev.planCluster0 : Dev × Nat × Bool := (d.planNoted p r).planCores p (2 * p) ((d.planProposed p r).getD 0) (clusterCores r 0)

/-- The second cluster's cores are, after the first's. -/
def Dev.planCluster1 : Dev × Nat × Bool :=
  (d.planCluster0 p r).1.planCores p (2 * p + 1) ((d.planProposed p r).getD 0) (clusterCores r 1)

/-- The spares that were switched in are counted, and the spared rows raised. -/
def Dev.planSpared : Dev :=
  (List.range r.spared).foldl (fun (d : Dev) _ => d.raise (Src.SRM_sram_spare p))
    ((d.planCluster1 p r).1.addU (Cnt.MON_CNT_SPARE_IN p) ((d.planCluster0 p r).2.1 + (d.planCluster1 p r).2.1 + r.spared))

/-- The point that the cores leave. -/
def Dev.planFinal : Option Nat := bestPoint (d.planTable p r) (Nat.min (d.planTarget p r) ((d.planSpared p r).mon p).cap)

/-- A plan that leaves no point retires its partition. -/
def Dev.planFails (d : Dev) (p : Nat) : Dev := ((d.planOver p).put (Reg.MON_STATUS_result p) 0x03).partOut p 6

/-- A point below the proposed one is counted and raised. -/
def Dev.planLowered (d : Dev) (p q f : Nat) : Dev :=
  if f < q then (d.incE (Cnt.MON_CNT_POINT_DROP p)).raise (Src.MON_point_lowered p) else d

/-- The points above what the cores leave are not usable. -/
def capTable (cap : Nat) (table : List VfPoint) : List VfPoint :=
  if cap < 10 then table.zipIdx.map fun (x : VfPoint × Nat) => if cap < x.2 then { x.1 with usable := false } else x.1 else table

/-- The voltage of a point, or the one that the rows need. -/
def planVoltage (r : PlanResult) (table : List VfPoint) (f : Nat) : Nat :=
  Nat.max (r.rowMv.getD 0) ((table[f]?.map VfPoint.mv).getD 0)

/-- The table, the margin and the reading of a plan that leaves a point are recorded (R423 to R425). -/
def Dev.planRecorded (d : Dev) (p : Nat) (r : PlanResult) (guard ex f mv : Nat) (table : List VfPoint) : Dev :=
  let slack := (((r.sweep.getD f [])[(mv - 600) / 5]?).bind (leastSlack ex)).getD 0
  let now : Int := secOf d.time
  let readings := ((d.mon p).readings ++ [(now, (leastSlack ex r.reference).getD 0)]).drop ((d.mon p).readings.length - 7)
  let measured := table.zipIdx.map fun (x : VfPoint × Nat) => if x.2 = f then VfPoint.mk mv slack true else x.1
  let g := d.setMon p { d.mon p with next := some measured, due := false, readings := readings }
  let days := daysLeft (g.mon p).readings guard now
  let k := (g.put (Reg.MON_STATUS_days_left p) days).put (Reg.MON_STATUS_margin_ps p) (byteOfInt (clampInt (-128) 127 (slack - guard)))
  let k := (k.planOver p).incU (Cnt.MON_CNT_PLANS p)
  if days < 180 then k.raise (Src.MON_margin_low p) else k

/-- A plan that leaves point f of the proposed q: its table is kept, unless a row needs more than 850 mV. -/
def Dev.planTabled (q f : Nat) : Dev :=
  let e := (d.planSpared p r).planLowered p q f
  let table := capTable (e.mon p).cap (d.planTable p r)
  let mv := planVoltage r table f
  if 850 < mv then (e.planOver p).raise (Src.SRM_sram_spare_out p)
  else e.planRecorded p r (d.get (Reg.MON_CTRL_guard_ps p)) ((d.planNoted p r).mon p).excluded f mv table

theorem Dev.planComplete_eq :
    d.planComplete p r =
      if (d.mon p).started.isNone ∨ d.partState p = 4 then d
      else if (d.planSpared p r).partState p = 4 then (d.planSpared p r).planOver p
      else match d.planProposed p r, d.planFinal p r with
        | some q, some f =>
          if (d.planCluster0 p r).2.2 || (d.planCluster1 p r).2.2 then (d.planSpared p r).planFails p else d.planTabled p r q f
        | _, _ => (d.planSpared p r).planFails p := by
  rfl

variable {d p r} {t : Nat} (hm : (d.mon p).started = some t) (hp : d.partState p ≠ 4) (he : (d.planSpared p r).partState p ≠ 4)
include hm hp he

theorem Dev.planComplete_retires (h : d.planProposed p r = none ∨ d.planFinal p r = none ∨ (d.planCluster0 p r).2.2 = true ∨
    (d.planCluster1 p r).2.2 = true) : d.planComplete p r = (d.planSpared p r).planFails p := by
  rw [Dev.planComplete_eq, if_neg (by simp [hm, hp]), if_neg he]
  split
  next q f hq hf =>
    rw [hq, hf] at h
    exact if_pos (by simpa using h)
  next => rfl

theorem Dev.planComplete_tables {q f : Nat} (hq : d.planProposed p r = some q) (hf : d.planFinal p r = some f)
    (h0 : (d.planCluster0 p r).2.2 = false) (h1 : (d.planCluster1 p r).2.2 = false) : d.planComplete p r = d.planTabled p r q f := by
  rw [Dev.planComplete_eq, if_neg (by simp [hm, hp]), if_neg he]
  simp only [hq, hf, h0, h1]
  rfl

end

end Sys2Proof.Machine

namespace Sys2Proof.Proofs

open Sys2Proof Sys2Proof.Machine

/-- Settles O56: packs by what is staged and who has answered, plans by whether one runs and whether its measurements leave a point. -/
theorem packsAndPlans : Obligations.PacksAndPlans := by
  unfold Obligations.PacksAndPlans
  refine ⟨fun info s => ?push, fun s h => ?pushNone, fun s => rfl, fun h chunk total digest data s => ?chunk,
    fun h digest result info s => ?answer, fun dst chunk info s hi hs hc ha => ?resend, fun p slacks edges s => ?sample,
    fun p slacks edges t s => ?sampleInPlan, fun p s c hc hs hp hm => ?start, fun p s h => ?suspended, fun p t s hm => ?late,
    fun p r t s => ?retires, fun p r t q f s => ?tables⟩
  case push => exact fun hi hs => State.next_withDev (Dev.packPush_staged hi hs)
  case pushNone => exact State.next_withDev (Dev.packPush_none h _)
  case chunk => exact fun hp hs => State.next_withDev ((Dev.ingress_passes hp).trans (Dev.packChunkIn_kept hs _ _ _ _ _))
  case answer => exact fun hp hi hd ha hs => State.next_withDev ((Dev.ingress_passes hp).trans (Dev.packAck_counts hi hd ha hs))
  case resend => exact State.next_withDev (Dev.packResend_missing hi hs hc ha)
  case sample => exact fun hm => State.next_withDev (Dev.monitorSample_idle hm)
  case sampleInPlan => exact fun hm => State.next_withDev (Dev.monitorSample_planning hm)
  case start =>
    have hbegins := Dev.planStart_begins hs hp hm
    rcases hc with ⟨rfl, hen⟩ | rfl
    · exact State.next_withDev ((if_pos hen).trans hbegins)
    · exact State.next_withDev hbegins
  case suspended => exact State.next_withDev (if_neg (ne_true_of_eq_false h))
  case late => exact State.next_withDev (Dev.planLate_running hm)
  case retires => exact fun hm hp he h => State.next_withDev (Dev.planComplete_retires hm hp he h)
  case tables =>
    exact fun hm hp he hq hf h0 h1 hv =>
      State.next_withDev ((Dev.planComplete_tables hm hp he hq hf h0 h1).trans (if_neg (Nat.not_lt.mpr hv)))

end Sys2Proof.Proofs
